-- ==== Sys2Proof/Word.lean ====
section
/-! DEFINITION. The word type of the BAR0 registers (R5) and its plainest arithmetic. -/

namespace Sys2Proof

/-- A BAR0 register: 32 bits (R5). -/
abbrev Word := BitVec 32

/-- One byte. -/
abbrev Byte := BitVec 8

end Sys2Proof
end

