-- ==== Sys2Proof/Types.lean ====
section
/-! DEFINITION. The data types that commands carry and State holds: origins (R423), journal records (R422), fault events
(R392, R396), descriptors (R268), completion entries (R271), and what the device sends on the host link. -/

namespace Sys2Proof

/-- Device blocks as ORIGIN kind 0 numbers them (R423). -/
inductive HwBlock
  | sys | flt | thm | feed | ph | chg | pack | fc | mem | tmr
deriving DecidableEq, Repr

/-- The block's number in ORIGIN bits 7:0 (R423). -/
def HwBlock.code : HwBlock → Nat
  | .sys => 0 | .flt => 1 | .thm => 2 | .feed => 3 | .ph => 4 | .chg => 5 | .pack => 6 | .fc => 7 | .mem => 8 | .tmr => 9

/-- Pins as ORIGIN kind 5 numbers them (R423). -/
inductive PinOrigin
  | attend | seal | eject | wake | resetN | perst | straps
deriving DecidableEq, Repr

/-- The pin's number in ORIGIN bits 7:0 (R423). -/
def PinOrigin.code : PinOrigin → Nat
  | .attend => 0 | .seal => 1 | .eject => 2 | .wake => 3 | .resetN => 4 | .perst => 5 | .straps => 6

/-- Who makes a change (R423). -/
inductive Origin
  /-- Device hardware. -/
  | hardware (b : HwBlock)
  /-- A command on a host ring, with its TAG. -/
  | ring (n : Fin 64) (tag : BitVec 16)
  /-- A BAR0 request, with its Requester ID. -/
  | bar0 (requester : BitVec 16)
  /-- A two-wire port: 0 = M; 1 = PK0; 2 = PK1, the address of the transaction. -/
  | twoWire (port : Fin 3) (addr : BitVec 7)
  /-- The control processor. -/
  | cp
  /-- A pin. -/
  | pin (p : PinOrigin)
deriving DecidableEq, Repr

/-- Is the access a BAR0 request of the host? -/
def Origin.isHost : Origin → Bool
  | .bar0 _ => true
  | _ => false

/-- The origin kind, bits 31:28 of ORIGIN (R423), which AUTH_LAST.ORIGIN also holds. -/
def Origin.kind : Origin → Nat
  | .hardware _ => 0 | .ring _ _ => 1 | .bar0 _ => 2 | .twoWire _ _ => 3 | .cp => 4 | .pin _ => 5

/-- ORIGIN as a journal entry holds it (R423); `off` is the BAR0 offset of the word, which only a two-wire origin carries. -/
def Origin.word (o : Origin) (off : Nat) : Word :=
  BitVec.ofNat 32 (o.kind * 2 ^ 28 +
    match o with
    | .hardware b => b.code
    | .ring n tag => n.val * 2 ^ 16 + tag.toNat
    | .bar0 r => r.toNat
    | .twoWire p a => p.val * 2 ^ 24 + a.toNat * 2 ^ 16 + off % 2 ^ 16
    | .cp => 0
    | .pin p => p.code)

/-- The first-error MASTER of an access from this origin (R396). -/
def Origin.master : Origin → Nat
  | .hardware _ => 0x00
  | .ring n _ => 0x40 + n.val
  | .bar0 _ => 0x03
  | .twoWire p _ => 0x04 + p.val
  | .cp => 0x01
  | .pin _ => 0x00

/-- A journal record without its sequence number (R422). -/
structure JRec where
  /-- DEVTIME of the stamping point. -/
  time : BitVec 56
  /-- 0 = OPEN; 1 = GUARDED; 2 = SEALED; 3 = event. -/
  cls : BitVec 2
  /-- Presence window open. -/
  pres : Bool
  /-- Seal intact per R417. -/
  sealok : Bool
  /-- The change did not take effect. -/
  refused : Bool
  /-- SYS_MAINT before the write or event. -/
  maint : Bool
  /-- Per R423. -/
  origin : Word
  /-- Object code (R424). -/
  obj : Byte
  /-- Per R424. -/
  detail : BitVec 24
  /-- Per R424. -/
  old : Word
  /-- Per R424. -/
  new : Word
  /-- Per R424. -/
  aux : Word
deriving DecidableEq, Repr

/-- A stored journal entry: the sequence number with its epoch bit, and the record (R421, R422). -/
structure JEntry where
  /-- E and SEQ. -/
  seq : Word
  /-- The record. -/
  body : JRec
deriving DecidableEq, Repr

/-- The eight words of an entry as R422 lays them out, word k holding bytes 4k + 3 to 4k. -/
def JEntry.words (e : JEntry) : List Word :=
  let b (x : Bool) : Nat := if x then 1 else 0
  let t := e.body.time.toNat + e.body.cls.toNat * 2 ^ 56 + b e.body.pres * 2 ^ 58 + b e.body.sealok * 2 ^ 59 +
    b e.body.refused * 2 ^ 60 + b e.body.maint * 2 ^ 61
  [e.seq, BitVec.ofNat 32 t, BitVec.ofNat 32 (t / 2 ^ 32), e.body.origin,
    BitVec.ofNat 32 (e.body.obj.toNat * 2 ^ 24 + e.body.detail.toNat), e.body.old, e.body.new, e.body.aux]

/-- The little-endian bytes of a number (R5, R422, R271). -/
def leBytes (n : Nat) : Nat → List Byte
  | 0 => []
  | k + 1 => BitVec.ofNat 8 n :: leBytes (n / 256) k

/-- The 32 bytes of an entry (R422). -/
def JEntry.bytes (e : JEntry) : List Byte := e.words.flatMap (fun w => leBytes w.toNat 4)

/-- The classes of R391, as FLT_FIRST.CLASS codes them. -/
inductive FltClass
  | corrected | contained | fatal
deriving DecidableEq, Repr

/-- The code of a class; a higher code is a higher class (R391). -/
def FltClass.code : FltClass → Nat
  | .corrected => 0 | .contained => 1 | .fatal => 2

/-- One event on its way to the fault collector (R392, R396). -/
structure FltEvent where
  /-- Source number. -/
  src : Fin 64
  /-- Its class. -/
  cls : FltClass
  /-- What FLT_FADDR holds if it is the first error. -/
  addr : Word
  /-- MASTER of R396. -/
  master : Byte
  /-- ACCESS of R396. -/
  access : BitVec 3
  /-- Injected (R411). -/
  inj : Bool
deriving DecidableEq, Repr

/-- A submission descriptor: 32 bytes, byte i in bits 8i + 7 to 8i (R268). -/
abbrev Desc := BitVec 256

/-- `n` bytes of a descriptor from byte `i`, little-endian. -/
def Desc.bytes (d : Desc) (i n : Nat) : Nat := (d.toNat / 2 ^ (8 * i)) % 2 ^ (8 * n)

/-- OPC (R268). -/
def Desc.opc (d : Desc) : Nat := Desc.bytes d 0 1
/-- CONT (R268). -/
def Desc.cont (d : Desc) : Bool := d.getLsbD 8
/-- NOIRQ (R268). -/
def Desc.noirq (d : Desc) : Bool := d.getLsbD 9
/-- FENCE (R268). -/
def Desc.fence (d : Desc) : Bool := d.getLsbD 10
/-- TAG (R268). -/
def Desc.tag (d : Desc) : BitVec 16 := BitVec.ofNat 16 (Desc.bytes d 2 2)
/-- CIDX (R268). -/
def Desc.cidx (d : Desc) : Nat := Desc.bytes d 4 1 % 16
/-- RIDX (R268). -/
def Desc.ridx (d : Desc) : Nat := Desc.bytes d 6 2 % 4096

/-- The header of a ring command (R268): what its completion and its journal entry need. -/
structure Hdr where
  /-- TAG, echoed in the completion. -/
  tag : BitVec 16
  /-- The completion raises no interrupt. -/
  noirq : Bool
  /-- Start only after every earlier admin command has completed. -/
  fence : Bool
deriving DecidableEq, Repr

/-- A completion or unsolicited entry before it is written (R271). -/
structure Compl where
  /-- Bytes 7:0. -/
  result : BitVec 64
  /-- Bytes 9:8. -/
  tag : BitVec 16
  /-- Byte 10, per R273. -/
  status : Byte
  /-- Byte 11, per R274. -/
  qual : Byte
  /-- Byte 14. -/
  opc : Byte
  /-- Counted for the interrupt: not NOIRQ (R291). -/
  counted : Bool
  /-- Takes the entry kept for unsolicited entries (R276). -/
  unsolicited : Bool
deriving DecidableEq, Repr

/-- What the device sends on the host link, in order (R259). DESIGN CHOICE, log entry 92. -/
inductive HostOut
  /-- A posted write of bytes to host memory. -/
  | write (addr : BitVec 64) (bytes : List Byte)
  /-- An MSI-X message of a vector: the address and data of its table entry. -/
  | message (vec : Fin 64) (addr : BitVec 64) (data : Word)
  /-- A DMA error as reported through AER: 0 completion timeout; 1 Unsupported Request or Completer Abort; 2 poisoned (R260). -/
  | aer (t : Fin 3)
  /-- An Unsupported Request: the completion of a read, or the report of a write (R258). -/
  | unsupported (read : Bool)
deriving DecidableEq, Repr

/-- What a scan of the collector's words gives (R409): all words pass; word `w` fails; or a word that the scan has passed fails after it, for
the next access to it or the next scan to find. -/
inductive CollScan
  | clean
  | found (w : Byte)
  | later (w : Byte)
deriving DecidableEq, Repr

/-- How a BAR0 write request comes: 1 or 2 DW with every byte enable set, with some clear, or longer (R258). -/
inductive Bar0Form
  /-- Served word by word. -/
  | whole
  /-- Dropped and logged. -/
  | gaps
  /-- More than 2 DW: an Unsupported Request. -/
  | long
deriving DecidableEq, Repr

/-- What the host programs in the function's configuration space (R256, R261). -/
structure PciCfg where
  /-- The captured bus and device number of the Requester ID (R261). -/
  reqId : BitVec 13
  /-- BAR0 and BAR2: the bases (R257). -/
  bar0 : BitVec 64
  /-- BAR2 (R257). -/
  bar2 : BitVec 64
  /-- Max_Payload_Size is 256 B, not 128 B (R256, R259). -/
  mps256 : Bool
  /-- Max_Read_Request_Size: 128 B, doubled this many times (R256). -/
  mrrs : Fin 6
  /-- Extended Tag Field Enable (R256, R259). -/
  extTag : Bool
  /-- ASPM L1 is enabled (R256, R261). -/
  aspmL1 : Bool
  /-- The completion timeout is disabled (R256). -/
  ctoOff : Bool
  /-- MSI-X Enable (R256, R291). -/
  msixOn : Bool
  /-- MSI-X Function Mask (R291). -/
  msixMask : Bool
  /-- The command register, of which Bus Master Enable shows HIF_LNK.BME (R64, R256). -/
  command : BitVec 16
deriving DecidableEq, Repr

/-- A SET_LIMITS record (R282). -/
structure LimRec where
  /-- BAR0 byte offset. -/
  offset : BitVec 16
  /-- Bits to write. -/
  mask : Word
  /-- New values of the masked bits. -/
  value : Word
deriving DecidableEq, Repr

/-- A bias input (R58). -/
inductive BiasSrc
  | vbf (n : Fin 4) | vbb | vbp (k : Fin 2) | vaux
deriving DecidableEq, Repr

/-- The voltages at the bias inputs, V (R58). -/
structure BiasIn where
  vbf : Vector Rat 4
  vbb : Rat
  vbp : Vector Rat 2
  vaux : Rat
deriving DecidableEq, Repr

/-- The voltage at a bias input. -/
def BiasIn.at_ (v : BiasIn) : BiasSrc → Rat
  | .vbf n => v.vbf[n]
  | .vbb => v.vbb
  | .vbp k => v.vbp[k]
  | .vaux => v.vaux

/-- The highest of VBF0 to VBF3, VBB, VBP0 and VBP1; of equal ones the first. DESIGN CHOICE, log entry 132. -/
def BiasIn.highest (v : BiasIn) : BiasSrc :=
  [BiasSrc.vbf 1, .vbf 2, .vbf 3, .vbb, .vbp 0, .vbp 1].foldl (fun b c => if v.at_ b < v.at_ c then c else b) (.vbf 0)

/-- The source the bias ORing connects (R58): VAUX above 10.8 V, and until it falls below 10.3 V; otherwise the highest of the others. -/
def BiasIn.pick (v : BiasIn) (cur : Option BiasSrc) : BiasSrc :=
  if 108 / 10 < v.vaux ∨ (cur = some .vaux ∧ 103 / 10 ≤ v.vaux) then .vaux else v.highest

/-- States of a feed, in the order of FEEDn_STAT.STATE (R88). -/
inductive FeedSt
  | off | absent | check | failed | debounce | qualified | inrush | on | standby | cool | latched | hwonly
deriving DecidableEq, Repr

/-- The code of FEEDn_STAT.STATE. -/
def FeedSt.code : FeedSt → Nat
  | .off => 0 | .absent => 1 | .check => 2 | .failed => 3 | .debounce => 4 | .qualified => 5 | .inrush => 6 | .on => 7
  | .standby => 8 | .cool => 9 | .latched => 10 | .hwonly => 11

/-- The state a code of FEEDn_STAT.STATE names. -/
def FeedSt.ofCode : Nat → FeedSt
  | 1 => .absent | 2 => .check | 3 => .failed | 4 => .debounce | 5 => .qualified | 6 => .inrush | 7 => .on
  | 8 => .standby | 9 => .cool | 10 => .latched | 11 => .hwonly | _ => .off

/-- Results of the pre-start check, in the order of SYS_FEEDCHK (R67). -/
inductive ChkRes
  | pass | absent | hsShort | orShort | gateFault | shuntFault | inService | notRun
deriving DecidableEq, Repr

/-- The code of a SYS_FEEDCHK field. -/
def ChkRes.code : ChkRes → Nat
  | .pass => 0 | .absent => 1 | .hsShort => 2 | .orShort => 3 | .gateFault => 4 | .shuntFault => 5 | .inService => 6
  | .notRun => 7

/-- What Anvil measures in the four checks of R67: FDn_VS, the two gates against their GR balls, the mid node with 2 mA sunk and with
2 mA sourced, BUS_VS, in V; the shunt voltage without current, in mV. -/
structure FeedChecks where
  vs : Rat
  hsg : Rat
  org : Rat
  sunk : Rat
  sourced : Rat
  bus : Rat
  shunt : Rat
deriving DecidableEq, Repr

/-- FDn_VS reads 1 V or more (R48, R67). -/
def FeedChecks.here (c : FeedChecks) : Bool := decide (1 ≤ c.vs)

/-- The first failing check gives the result (R67): both gates below 0.5 V; the mid node below 10 % of FDn_VS; the mid node at least
0.3 V above BUS; the shunt within ±2 mV. -/
def FeedChecks.result (c : FeedChecks) : ChkRes :=
  if ¬ (c.hsg < 1 / 2 ∧ c.org < 1 / 2) then .gateFault
  else if ¬ c.sunk < c.vs / 10 then .hsShort
  else if c.sourced < c.bus + 3 / 10 then .orShort
  else if c.shunt < -2 ∨ 2 < c.shunt then .shuntFault
  else .pass

/-- States of a phase, in the order of PHn_STAT.STATE (R132). -/
inductive PhSt
  | unassigned | pending | idle | waking | run | shedding | test | ocl | lost | shorted
deriving DecidableEq, Repr

/-- The code of PHn_STAT.STATE. -/
def PhSt.code : PhSt → Nat
  | .unassigned => 0 | .pending => 1 | .idle => 2 | .waking => 3 | .run => 4 | .shedding => 5 | .test => 6 | .ocl => 7
  | .lost => 8 | .shorted => 9

/-- The state a code of PHn_STAT.STATE names. -/
def PhSt.ofCode : Nat → PhSt
  | 1 => .pending | 2 => .idle | 3 => .waking | 4 => .run | 5 => .shedding | 6 => .test | 7 => .ocl | 8 => .lost
  | 9 => .shorted | _ => .unassigned

/-- One leg of a stage: its probe (R68, R69). -/
inductive LegSt
  | notProbed | pending | pass | shorted
deriving DecidableEq, Repr

/-- Levels of a PWM output (R115). -/
inductive PwmLvl
  | low | high | hiZ
deriving DecidableEq, Repr

/-- What a trip wire does, in the terms of R18. -/
inductive TripEv
  /-- Any level or edge inside leading-edge blanking. -/
  | blanked
  /-- The end of blanking, with the level then. -/
  | blankEnd (high : Bool)
  /-- A falling edge. -/
  | falling
  /-- A rising edge. -/
  | rising
  /-- The wire comes open: the pull-up on Cirrus holds it high (R20). -/
  | opened
deriving DecidableEq, Repr

/-- Conversion modes, in the order of PHPk_STAT.MODE (R120). -/
inductive Mode
  | buck | boost | buckboost
deriving DecidableEq, Repr

/-- The code of PHPk_STAT.MODE. -/
def Mode.code : Mode → Nat
  | .buck => 0 | .boost => 1 | .buckboost => 2

/-- The mode a code of PHPk_STAT.MODE names. -/
def Mode.ofCode : Nat → Mode
  | 1 => .boost | 2 => .buckboost | _ => .buck

/-- Directions, in the order of PHPk_STAT.DIR (R119). -/
inductive Dir
  | idle | chg | dis
deriving DecidableEq, Repr

/-- The code of PHPk_STAT.DIR. -/
def Dir.code : Dir → Nat
  | .idle => 0 | .chg => 1 | .dis => 2

/-- The direction a code of PHPk_STAT.DIR names. -/
def Dir.ofCode : Nat → Dir
  | 1 => .chg | 2 => .dis | _ => .idle

/-- Port roles, in the order of CHGk_STAT.ROLE (R149). -/
inductive Role
  | none | charge | drizzle | gust | holdup
deriving DecidableEq, Repr

/-- The code of CHGk_STAT.ROLE. -/
def Role.code : Role → Nat
  | .none => 0 | .charge => 1 | .drizzle => 2 | .gust => 3 | .holdup => 4

/-- The role a code of CHGk_STAT.ROLE names. -/
def Role.ofCode : Nat → Role
  | 1 => .charge | 2 => .drizzle | 3 => .gust | 4 => .holdup | _ => .none

/-- Charge stages, in the order of CHGk_STAT.STAGE (R155). -/
inductive Stage
  | off | qualify | precharge | cc | crest | cv | topoff | maintain | rest | fault
deriving DecidableEq, Repr

/-- The code of CHGk_STAT.STAGE. -/
def Stage.code : Stage → Nat
  | .off => 0 | .qualify => 1 | .precharge => 2 | .cc => 3 | .crest => 4 | .cv => 5 | .topoff => 6 | .maintain => 7
  | .rest => 8 | .fault => 9

/-- The stage a code of CHGk_STAT.STAGE names. -/
def Stage.ofCode : Nat → Stage
  | 1 => .qualify | 2 => .precharge | 3 => .cc | 4 => .crest | 5 => .cv | 6 => .topoff | 7 => .maintain | 8 => .rest
  | 9 => .fault | _ => .off

/-- Pack port states, in the order of PKn_STAT.STATE (R192). -/
inductive PkSt
  | empty | ident | open | closing | closed | tripped | latched
deriving DecidableEq, Repr

/-- The code of PKn_STAT.STATE. -/
def PkSt.code : PkSt → Nat
  | .empty => 0 | .ident => 1 | .open => 2 | .closing => 3 | .closed => 4 | .tripped => 5 | .latched => 6

/-- The state a code of PKn_STAT.STATE names. -/
def PkSt.ofCode : Nat → PkSt
  | 1 => .ident | 2 => .open | 3 => .closing | 4 => .closed | 5 => .tripped | 6 => .latched | _ => .empty

/-- Authentication results, coded as R216 gives. -/
inductive AuthRes
  | none | running | pass | bypass | noKey | chain | mismatch | sig | bus
deriving DecidableEq, Repr

/-- The code of R216. -/
def AuthRes.code : AuthRes → Nat
  | .none => 0 | .running => 1 | .pass => 2 | .bypass => 3 | .noKey => 4 | .chain => 5 | .mismatch => 6 | .sig => 7
  | .bus => 8

/-- What the pack contributes to an authentication run (R204): the challenge it was sent and the signature r ‖ s it answered, byte i in
bits 8i + 7 to 8i. -/
structure RunIn where
  challenge : BitVec 256
  sig : BitVec 512
deriving DecidableEq, Repr

/-- Rarex commands with what their payloads take from outside the state (R201). -/
inductive Rarex
  | getId | getCert (index : Fin 2) (block : Fin 6) | challenge (c : BitVec 256) | getSig | incCtr | getLife (slot : Fin 2)
  | putLife
deriving DecidableEq, Repr

/-- The command byte (R201). -/
def Rarex.code : Rarex → Nat
  | .getId => 1 | .getCert _ _ => 2 | .challenge _ => 3 | .getSig => 4 | .incCtr => 5 | .getLife _ => 6 | .putLife => 7

/-- Bytes of the read payload, 0 for a command that only writes (R201). -/
def Rarex.readLen : Rarex → Nat
  | .getId => 22 | .getCert _ _ => 32 | .challenge _ => 0 | .getSig => 65 | .incCtr => 4 | .getLife _ => 32 | .putLife => 0

/-- What the lock-in of a Sounding run has accumulated over its window of M samples (R168): for the current (A) and the voltage (V)
Σ x sin θ, Σ x cos θ, Σ x and Σ n x, and of the reference Σ sin θ, Σ cos θ, Σ n sin θ and Σ n cos θ, n from 0. -/
structure LockIn where
  m : Nat
  si : Rat
  ci : Rat
  i0 : Rat
  i1 : Rat
  sv : Rat
  cv : Rat
  v0 : Rat
  v1 : Rat
  rs : Rat
  rc : Rat
  ns : Rat
  nc : Rat
deriving DecidableEq, Repr

/-- An empty window. -/
def LockIn.zero : LockIn := ⟨0, 0, 0, 0, 0, 0, 0, 0, 0, 0, 0, 0, 0⟩

/-- One sample of current and voltage against the reference (R168). -/
def LockIn.add (l : LockIn) (i v sin cos : Rat) : LockIn :=
  let n : Rat := l.m
  { m := l.m + 1, si := l.si + i * sin, ci := l.ci + i * cos, i0 := l.i0 + i, i1 := l.i1 + n * i,
    sv := l.sv + v * sin, cv := l.cv + v * cos, v0 := l.v0 + v, v1 := l.v1 + n * v,
    rs := l.rs + sin, rc := l.rc + cos, ns := l.ns + n * sin, nc := l.nc + n * cos }

/-- A device-side pack trip that keeps a gate off (R196). -/
inductive PkTrip
  | sc | occ | ov | uv | ot
deriving DecidableEq, Repr

/-- The fields of a LIFE record (R209). -/
structure Life where
  /-- Sequence number. -/
  seq : Nat
  /-- QOUT, 0.01 Ah. -/
  qout : Nat
  /-- EFC, 0.001 cycle. -/
  efc : Nat
  /-- AGE, days. -/
  age : Nat
  /-- TEXPH, hours. -/
  texph : Nat
  /-- TPEAK, degrees Celsius. -/
  tpeak : Int
  /-- SOC, percent. -/
  soc : Nat
  /-- FCC, 0.1 Ah. -/
  fcc : Nat
deriving DecidableEq, Repr

/-- A profile block: its 352 bytes as one little-endian number, byte i in bits 8i + 7 to 8i (R186). -/
abbrev Profile := BitVec 2816

/-- `n` bytes of a profile block from offset `i`, little-endian. -/
def Profile.bytes (p : Profile) (i n : Nat) : Nat := (p.toNat / 2 ^ (8 * i)) % 2 ^ (8 * n)

/-- A two's complement number of `w` bits. -/
def signed (w n : Nat) : Int := if n % 2 ^ w < 2 ^ (w - 1) then (n % 2 ^ w : Nat) else (n % 2 ^ w : Nat) - (2 ^ w : Nat)

/-- The `w`-bit code of an integer, two's complement. -/
def unsigned (w : Nat) (i : Int) : Nat := (i % (2 ^ w : Nat)).toNat

/-- One step of the CRC-32 of a byte, reflected form. -/
def crcBits : Nat → BitVec 32 → BitVec 32
  | 0, c => c
  | n + 1, c => crcBits n (if c.getLsbD 0 then (c >>> 1) ^^^ 0xEDB88320 else c >>> 1)

/-- CRC-32 of a list of bytes. The manual names CRC-32 without its polynomial; this is the common one.
PRESUMED, log entry 60. -/
def crc32 (l : List Byte) : BitVec 32 :=
  ~~~ (l.foldl (fun c b => crcBits 8 (c ^^^ b.setWidth 32)) 0xFFFFFFFF)

/-- `n` bytes of a little-endian block from offset `i`, the lowest first. -/
def blockBytes {w : Nat} (x : BitVec w) (i n : Nat) : List Byte := (List.range n).map (fun j => (x >>> (8 * (i + j))).setWidth 8)
/-- `n` bytes of a block from offset `i` as a little-endian number. -/
def blockNat {w : Nat} (x : BitVec w) (i n : Nat) : Nat := x.toNat / 2 ^ (8 * i) % 2 ^ (8 * n)

/-- A 32-byte LIFE record, byte i in bits 8i + 7 to 8i (R209). -/
abbrev LifeRec := BitVec 256

/-- The fields of a record (R209). -/
def LifeRec.fields (r : LifeRec) : Life where
  seq := blockNat r 0x00 4
  qout := blockNat r 0x04 4
  efc := blockNat r 0x08 4
  age := blockNat r 0x0C 2
  texph := blockNat r 0x0E 2
  tpeak := signed 8 (blockNat r 0x10 1)
  soc := blockNat r 0x11 1
  fcc := blockNat r 0x12 2

/-- A record is valid where its CRC-32 over bytes 0x00 to 0x1B is good (R209). -/
def LifeRec.life (r : LifeRec) : Option Life :=
  if crc32 (blockBytes r 0 28) = BitVec.ofNat 32 (blockNat r 0x1C 4) then some (LifeRec.fields r) else none

/-- The record of given fields, reserved bytes 0, with its CRC (R209). -/
def Life.record (l : Life) : LifeRec :=
  let body := leBytes l.seq 4 ++ leBytes l.qout 4 ++ leBytes l.efc 4 ++ leBytes l.age 2 ++ leBytes l.texph 2 ++
    leBytes (unsigned 8 l.tpeak) 1 ++ leBytes l.soc 1 ++ leBytes l.fcc 2 ++ leBytes 0 8
  BitVec.ofNat 256 ((body ++ leBytes (crc32 body).toNat 4).foldr (fun b a => b.toNat + 256 * a) 0)

/-- A Rarex certificate: 192 bytes, byte i in bits 8i + 7 to 8i (R202). -/
abbrev Cert := BitVec 1536

namespace Cert
/-- VERSION. -/
def version (c : Cert) : Nat := blockNat c 0x00 1
/-- TYPE: 0 = issuer; 1 = pack. -/
def type (c : Cert) : Nat := blockNat c 0x01 1
/-- SUBJECT. -/
def subject (c : Cert) : BitVec 128 := (c >>> 0x20).setWidth 128
/-- ISSUERKID. -/
def issuerKid (c : Cert) : BitVec 64 := (c >>> 0xA0).setWidth 64
/-- PUBKEY, X ‖ Y. -/
def pubkey (c : Cert) : BitVec 512 := (c >>> 0xE0).setWidth 512
/-- NCELL. -/
def ncell (c : Cert) : Nat := blockNat c 0x5C 1
/-- CHEM. -/
def chem (c : Cert) : Nat := blockNat c 0x5D 1
/-- CAP, 0.1 Ah. -/
def cap (c : Cert) : Nat := blockNat c 0x5E 2
/-- ICHMAX, 0.1 A. -/
def ichmax (c : Cert) : Nat := blockNat c 0x60 2
/-- SIG, r ‖ s. -/
def sig (c : Cert) : BitVec 512 := (c >>> 0x400).setWidth 512
/-- What SIG covers: bytes 0x00 to 0x7F. -/
def signed (c : Cert) : List Byte := blockBytes c 0 128
end Cert

/-- The read payload of GET_ID (R201): Pack ID, counter, certificate count, protocol version. -/
structure RxId where
  id : BitVec 128
  ctr : BitVec 32
  ncert : Byte
  version : Byte
deriving DecidableEq, Repr

/-- What the replies of a pack have brought so far (R201): GET_ID, the blocks of both certificates, both LIFE slots, the challenge sent and
the signature, none while Ready reads 0. -/
structure RxData where
  id : Option RxId
  cert : Vector Cert 2
  life : Vector LifeRec 2
  challenge : BitVec 256
  sig : Option (BitVec 512)
deriving DecidableEq, Repr

/-- Nothing read yet. -/
def RxData.none : RxData := ⟨Option.none, Vector.replicate 2 0, Vector.replicate 2 0, 0, Option.none⟩

/-- What a completed identity read brings (R192, R201, R202, R209). -/
structure Ident where
  /-- Pack ID. -/
  id : BitVec 128
  /-- The pack counter. -/
  ctr : BitVec 32
  /-- The pack certificate, index 0. -/
  cert : Cert
  /-- The issuer certificate, index 1, when present. -/
  issuer : Option Cert
  /-- The records in LIFE slots 0 and 1 as read. -/
  slots : Vector LifeRec 2
deriving DecidableEq, Repr

/-- The certificate that a fleet key signs (R204). -/
def Ident.top (i : Ident) : Cert := i.issuer.getD i.cert

/-- A telemetry record (R284). -/
structure TelRec where
  /-- Low 48 bits of DEVTIME. -/
  time : BitVec 48
  /-- 0 = SAMPLE; 1 = EVENT; 2 = BUDGET. -/
  cls : Fin 3
  /-- Sequence number. -/
  seq : BitVec 32
  /-- The payload from offset 0x0C, the reserved bytes at its end left out. -/
  payload : List Byte
  /-- Discarded for an uncorrectable error (R383). -/
  bad : Bool
deriving DecidableEq, Repr

/-- What the converter mux sees during a pass or an injection (R331): the voltage of each channel at its ball, V (thermistors and
supplies included; channels 15 to 30 as current sense), the TFLT voltages, and the channels whose clamp carries 50 µA or more. -/
structure AdcIn where
  v : Vector Rat 48
  tflt : Vector Rat 16
  big : BitVec 48
deriving DecidableEq, Repr

/-- Quality of a conversion, in the order of the QUAL codes of the result registers (R337). -/
inductive Qual
  | good | suspect | orng | none
deriving DecidableEq, Repr

/-- What an uncorrectable error has hit (R383): B0; in B1 a consumer's line, the state of a ring pair and its context, one or both
copies of a tag word, the LRU state; in B2 a telemetry record; in B3 a journal entry, from the oldest; B4. -/
inductive MemLoss
  | b0 | line (c : Nat) | ring (n : Fin 64) | tagOne | tagBoth | lru | record (seq : BitVec 32) | entry (i : Nat) | b4
deriving DecidableEq, Repr

/-- The bank of a loss (R375). -/
def MemLoss.bank : MemLoss → Fin 5
  | .b0 => 0
  | .line _ | .ring _ | .tagOne | .tagBoth | .lru => 1
  | .record _ => 2
  | .entry _ => 3
  | .b4 => 4

/-- A master of the banks (R375): the recorder is the telemetry recorder on B2 and the journal writer on B3. -/
inductive MemMaster
  | cp | forecast | recorder | dma | scrubber
deriving DecidableEq, Repr

/-- The masters of each bank; the scrubber reads them all (R375, R381). -/
def MemMaster.on (b : Fin 5) : MemMaster → Bool
  | .cp | .scrubber => true
  | .forecast => b == 1
  | .recorder => b == 2 || b == 3
  | .dma => b != 4

/-- MASTER as MEM_UEADDR codes it. -/
def MemMaster.code : MemMaster → Nat
  | .cp => 0 | .forecast | .recorder => 1 | .dma => 2 | .scrubber => 3

/-- MASTER as the fault collector codes it (R396). -/
def MemMaster.fault : MemMaster → BitVec 8
  | .cp => 1 | .forecast => 2 | .dma => 3 | .recorder | .scrubber => 8

/-- A bank access: its master, and whether it is the read half of a write to a part of a lane (R378). -/
structure MemAcc where
  /-- The master. -/
  m : MemMaster
  /-- The read half of a partial-lane write. -/
  part : Bool
deriving DecidableEq, Repr

/-- ACCESS as the fault collector codes it (R396). -/
def MemAcc.code (a : MemAcc) : BitVec 3 := if a.part then 3 else if a.m = .dma then 4 else 1

/-- Can the bank see such an access: one of its masters', and the scrubber never writes a part of a lane (R375, R381)? -/
def MemAcc.on (a : MemAcc) (b : Fin 5) : Bool := a.m.on b && !(a.part && a.m == .scrubber)

/-- What an access finds in a row (R378, R381 to R383), or the starvation guard that gives a master its access (R379). -/
inductive Scrub
  | clean (b : Fin 5) | ce (b : Fin 5) (a : MemAcc) | ue (l : MemLoss) (a : MemAcc) | guard (b : Fin 5) (m : MemMaster)
deriving DecidableEq, Repr

/-- The bank of the row. -/
def Scrub.bank : Scrub → Fin 5
  | .clean b | .ce b _ | .guard b _ => b
  | .ue l _ => l.bank

/-- The access: a row without an error is of the scrubber's. -/
def Scrub.acc : Scrub → MemAcc
  | .clean _ => ⟨.scrubber, false⟩
  | .ce _ a | .ue _ a => a
  | .guard _ m => ⟨m, false⟩

/-- Bytes of each bank; 1,184 KiB in all (R1, R375). -/
def bankBytes (b : Fin 5) : Nat := 1024 * #v[256, 512, 256, 128, 32][b]
/-- Lanes of 64 bits in a row of each bank (R375). -/
def bankLanes (b : Fin 5) : Nat := #v[1, 4, 4, 1, 1][b]
/-- A byte offset and a lane name a row of the bank (R375). -/
def rowOk (b : Fin 5) (off : BitVec 19) (lane : Fin 4) : Bool :=
  decide (off.toNat < bankBytes b) && off.toNat % (8 * bankLanes b) == 0 && decide (lane.val < bankLanes b)

/-- How a check of SDA ends (R312): after how many pulses SDA reads high, 0 = it was high; none = still low after nine. -/
abbrev SdaCheck := Option (Fin 10)

/-- How an attempt on a pack bus fails (R201, R313); one that was abandoned carries how the check of SDA before the next attempt ends. -/
inductive TwErr
  | nack | pec | scl (c : SdaCheck) | sda (c : SdaCheck) | bus (c : SdaCheck) | arb (c : SdaCheck)
deriving DecidableEq, Repr

/-- The check of SDA that follows the failure (R312). -/
def TwErr.check : TwErr → Option SdaCheck
  | .nack | .pec => none
  | .scl c | .sda c | .bus c | .arb c => some c

/-- The device read a DMA error ends (R260): a descriptor fetch, a Grant Table entry, a profile block, a key, the scatter lists of a
GET_TELEMETRY chain. -/
inductive DmaRead
  | desc (n : Fin 64) | grant (c : Nat) | profile (k : Fin 2) | key | list (ds : List Desc)
deriving DecidableEq, Repr

/-- What step 7 measures (R53, R55, R61, R66, R416): the bandgap, VREFX and the 3.3 V supply, each as a fraction of its nominal, and
whether VREFX is connected; the codes of the bandgap and of the divided VB5 on ADCA and ADCB; per comparator the largest distance, in DAC
codes, at which a threshold trips from its setting; eight conversions of PHCNT, mV; three readings of the seal loop, Ω. -/
structure RefMeas where
  refs : Vector Rat 3
  vrefx : Bool
  adcBg : Vector Nat 2
  adcVb5 : Vector Nat 2
  cmpErr : Vector Nat 48
  phcnt : Vector Rat 8
  sealR : Vector Nat 3
deriving DecidableEq, Repr

/-- One leg as a probe finds it (R68): V across its high-side switch, and how fast its current rises while the low-side switch is on,
A/ns. -/
structure LegPulse where
  v : Rat
  rate : Rat
deriving DecidableEq, Repr

/-- Every leg of the card: the buck legs and the boost legs. -/
structure Legs where
  buck : Vector LegPulse 16
  boost : Vector LegPulse 16
deriving DecidableEq, Repr

/-- A leg's pulse. -/
def Legs.leg (l : Legs) (boost : Bool) (n : Fin 16) : LegPulse := if boost then l.boost[n] else l.buck[n]

/-- What a start-up sequence meets (R50, R53, R61, R66 to R69, R191, R416): strap samples (CFGCLASS, HOSTSEL, XOSEL, TESTEN, TWADDR0
to TWADDR2, three of each), the PHCNT conversions of step 3, CRCs, failing columns per bank beyond the fused ones, words of B3 the
scrub corrects and those it cannot correct, the AON cycles since the last tick of a Doldrums that ends (R369), the test flits the
link passes cleanly within 2.0 ms, what step 7 measures, PWM loopback failures, the feeds, the legs, the presence samples of each
pack port, newest first (true = low), identities, how the check of SDA on each pack bus ends (R312), and the input of each
comparator as a DAC code once the link is up (R322). -/
structure Boot where
  straps : Vector (BitVec 3) 7
  phcnt : Vector Rat 8
  anvilCrc : Bool
  cirrusCrc : Bool
  sram : Vector Nat 5
  b3ce : List (Fin 4 × BitVec 19)
  b3bad : List (Nat × Fin 4 × BitVec 19)
  aonRest : Fin 33
  flits : Nat
  refs : RefMeas
  loopBad : BitVec 16
  feedChk : Vector FeedChecks 4
  legs : Legs
  packs : Vector (List Bool) 2
  ident : Vector (Option Ident) 2
  sda : Vector SdaCheck 2
  crystal : Bool
  cmpIn : Vector Int 48
deriving DecidableEq, Repr

/-- What wakes the device from Doldrums (R214). -/
inductive WakeSrc
  | s0 | s1 | wakeN | press (k : Fin 2)
deriving DecidableEq, Repr

/-- The self-test of one phase (R78): its outputs follow the loopback pattern, the current-sense offset in A, the largest distance of
its comparator's thresholds from the DAC, codes, both legs; after the last phase the fuse CRCs and the scrub of B0 to B3. -/
structure TestRes where
  loop : Bool
  offset : Rat
  cmpErr : Nat
  buck : LegPulse
  boost : LegPulse
  fuseOk : Bool
  sramOk : Bool
deriving DecidableEq, Repr

/-- An OFFLINE run (R80): the fuse CRCs of step 4, the measurements of step 7, the loopback failures of step 8, the legs, and the columns
of B2 that fail its march beyond the fused ones. -/
structure OffRes where
  anvilCrc : Bool
  cirrusCrc : Bool
  refs : RefMeas
  loopBad : BitVec 16
  legs : Legs
  b2 : Nat
deriving DecidableEq, Repr

end Sys2Proof
end

