-- ==== Sys2Proof/Syntax.lean ====
section
/-! DEFINITION. The commands of the block: one constructor per row of the operation table, in its order. Operands are what
the outside brings: an index, a written word, a measured quantity, a result of a test. Each constructor cites the rule that owns it. -/

namespace Sys2Proof

/-- A command to the SK1663 or an event on it. -/
inductive Instr
  /-- BIAS_RISE (R60): The first bias input passes 4.5 V, bias ORing selects a source and the bias buck starts in soft start. -/
  | biasRise (v : BiasIn)
  /-- BIAS_GOOD (R61): VB5 first exceeds 4.6 V and the start-up sequence runs steps 2 to 11 in order. -/
  | biasGood (r : Boot)
  /-- POWER_ON_RESET (R59): VB5 falls below 4.2 V outside Doldrums, or VDDAON below 1.50 V in Doldrums, and every block returns to reset. -/
  | powerOnReset
  /-- BIAS_SOURCE_CHANGE (R58): VAUX crosses 10.8 V or 10.3 V, or another bias input becomes highest, and the bias ORing changes source. -/
  | biasSourceChange (v : BiasIn)
  /-- RESET_N_ASSERT (R71): RESET_N held low for 1 µs or more begins a device reset that keeps conducting feeds, the AON island and the host link. -/
  | resetNAssert
  /-- RESET_N_RELEASE (R65): RESET_N is released and start-up restarts at step 3. -/
  | resetNRelease (r : Boot)
  /-- DEVRST (R71): A write of 1 to SYS_RST.DEVRST with SYS_MAINT set starts a device reset, otherwise it is journalled as refused. -/
  | devrst (o : Origin) (v : Word) (r : Boot)
  /-- GO_FIELD (R83): A SYS_LC write with GO_FIELD and CONFIRM 0xA5 under SEALED conditions starts the change to FIELD. -/
  | goField (o : Origin) (v : Word)
  /-- GO_RETURNED (R84): A SYS_LC write with GO_RETURNED and CONFIRM 0xA5 with the presence window open starts the change to RETURNED. -/
  | goReturned (o : Origin) (v : Word)
  /-- LIFECYCLE_CHANGE_DONE (R85): The life-cycle fuse programming ends, the groups are re-read, B4 is reloaded and a LIFECYCLE entry is
  journalled. -/
  | lifecycleChangeDone (blown : Vector (BitVec 5) 3)
  /-- SELFTEST_ONLINE (R78): The ONLINE self-test command checks margin and tests phases one at a time by shedding them. -/
  | selftestOnline (d : Desc)
  /-- ONLINE_MARGIN_CHECK (R79): Every 10 µs during an ONLINE test the device re-evaluates margin and ends the test on loss of margin, feed
  UV or Gust entry. -/
  | onlineMarginCheck
  /-- ONLINE_PHASE_TEST_DONE (R78): The test of one phase ends and the phase returns to rotation, or is marked LOST or SHORTED. -/
  | onlinePhaseTestDone (r : TestRes)
  /-- SELFTEST_OFFLINE (R80): The OFFLINE self-test command runs steps 4, 7 and 8, leg probes and a march of B2, or completes BUSY. -/
  | selftestOffline (d : Desc)
  /-- OFFLINE_DONE (R80): The OFFLINE self-test ends and SELFTEST completes. -/
  | offlineDone (r : OffRes)
  /-- FEED_PRESENT (R88): FDn_VS rises to 1 V or more and the feed's pre-start check begins. -/
  | feedPresent (n : Fin 4)
  /-- FEED_CHECK_DONE (R67): A feed's pre-start check ends with PASS or a failure that excludes the feed. -/
  | feedCheckDone (n : Fin 4) (c : FeedChecks)
  /-- FEED_ABSENT (R88): FDn_VS falls below 1 V and the feed returns to ABSENT. -/
  | feedAbsent (n : Fin 4)
  /-- FEED_UV (R91): The feed voltage comparator asserts UV and the feed loses qualification. -/
  | feedUv (n : Fin 4) (w : Nat)
  /-- FEED_OV (R91): The feed voltage comparator asserts OV, removing qualification and turning a conducting feed's gates off. -/
  | feedOv (n : Fin 4) (w : Nat)
  /-- FEED_WINDOW_ENTER (R90): The feed voltage window is re-entered on the interior side and the debounce period starts. -/
  | feedWindowEnter (n : Fin 4)
  /-- FEED_QUALIFIED (R90): The debounce period ends with the window stable, VFQ is captured and the feed qualifies. -/
  | feedQualified (n : Fin 4)
  /-- INRUSH_START (R93): A waiting qualified or cooled feed is admitted and begins inrush at DVDT. -/
  | inrushStart (n : Fin 4)
  /-- INRUSH_COMPLETE (R94): Hot-swap VDS has stayed below 0.5 V for 100 µs, the gate is fully enhanced and the feed enters ON. -/
  | inrushComplete (n : Fin 4)
  /-- INRUSH_TIMEOUT (R94): An inrush attempt exceeds TMAX and ends as a thermal trip. -/
  | inrushTimeout (n : Fin 4)
  /-- FEED_MODEL_UPDATE (R95): Every 10 µs the hot-swap FET thermal model updates its three poles from the feed's power. -/
  | feedModelUpdate (n : Fin 4)
  /-- FEED_SHORT_CIRCUIT (R102): Feed current reaches the short-circuit threshold and the hot-swap gate is pulled down with 1.5 A. -/
  | feedShortCircuit (n : Fin 4) (w : Nat)
  /-- FEED_SC_HOLDOFF_END (R102): 10 ms after a short-circuit trip the retry hold-off ends. -/
  | feedScHoldoffEnd (n : Fin 4)
  /-- FEED_REVERSE_CURRENT (R103): Feed current falls below −IREV and the ORing gate is pulled below 1 V within 200 ns. -/
  | feedReverseCurrent (n : Fin 4) (w : Nat)
  /-- ORING_REENABLE (R103): FDn_HSS has exceeded BUS_VS by 50 mV for 2 µs and the ORing controller re-enables. -/
  | oringReenable (n : Fin 4)
  /-- DROOP_UPDATE (R100): Every 10 µs ILIM_EFF is recomputed from the mean feed voltage and the feed thresholds follow it. -/
  | droopUpdate (n : Fin 4)
  /-- NEAR_ASSERT (R99): A feed's current reaches 97 % of IMAN and the charge command stops rising. -/
  | nearAssert (n : Fin 4)
  /-- NEAR_RELEASE (R99): Every active feed's current falls below 95 % of its IMAN and NEAR releases. -/
  | nearRelease
  /-- FEED_HEALTH_EXPIRE (R89): One second passes without a DEGRADED condition and the feed's health returns to GOOD. -/
  | feedHealthExpire (n : Fin 4)
  /-- FEED_TRIP_COUNT_CLEAR (R88): After 1 s in ON the feed's consecutive trip counts clear. -/
  | feedTripCountClear (n : Fin 4)
  /-- FEED_GROUP_CHANGE (R106): In PRIORITY mode the active group changes after DWELL, or at once when every active feed becomes BAD. -/
  | feedGroupChange
  /-- FEED_LOCK_SET (R114): A write of 1 to FEED_LOCK.LOCK locks the limits so that loosening needs the presence window. -/
  | feedLockSet (o : Origin) (v : Word)
  /-- EJECT_ASSERT (R107): The debounced EJECT_N asserts, Gust is denied and a NOTICE is posted on every bound ring. -/
  | ejectAssert
  /-- EJECT_DEASSERT (R109): EJECT_N deasserts before the extraction stop, stopping the hold timer and restoring Gust permission. -/
  | ejectDeassert
  /-- EJECT_FEED_OFF (R107): With ACT = 1, EJDELAY after the assertion every feed path turns off. -/
  | ejectFeedOff
  /-- EXTRACT_HOLD_EXPIRE (R108): The extraction hold timer reaches EXTRACT_HOLD and the extraction stop begins. -/
  | extractHoldExpire
  /-- PWM_CYCLE_START (R125): At each phase cycle start the engine computes ICMD, TPRED, ripple, slope and the thresholds. -/
  | pwmCycleStart (n : Fin 16)
  /-- TRIP_WIRE_EVENT (R18): A level or edge on TRIPn terminates the cycle, captures a crossing time or turns off the synchronous switch. -/
  | tripWireEvent (n : Fin 16) (e : TripEv) (at_ : Rat) (trunc : Bool) (w : Nat)
  /-- MAX_DUTY_END (R126): The trip-terminated interval reaches T − TOFFMIN without a trip and ends as a maximum-duty cycle. -/
  | maxDutyEnd (n : Fin 16)
  /-- HARD_SWITCH_REPORT (R117): A short low pulse on TFLT after a turn-on edge is decoded as a hard-switching report for that edge. -/
  | hardSwitchReport (n : Fin 16) (at_ : Rat) (w : Nat)
  /-- MODE_EVALUATE (R121): Every 10 µs each port's δ is evaluated and the port enters or leaves BUCKBOOST. -/
  | modeEvaluate (k : Fin 2)
  /-- DIRECTION_CHANGE (R123): A direction command makes every phase of the port end its interval and restart in the new direction. -/
  | directionChange (k : Fin 2) (d : Dir)
  /-- INDUCTANCE_LEARN (R127): After 256 counted cycles the learned inductance is updated or LRNSTALE is set. -/
  | inductanceLearn (n : Fin 16)
  /-- DEADTIME_ADAPT (R131): Every 64 cycles each dead-time code falls by 1 or rises by 4 according to hard-switching reports. -/
  | deadtimeAdapt (n : Fin 16)
  /-- TRIP_MISMATCH (R20): A trip wire state differs from its reported flit state for 4 ACLK cycles and the phase is marked LOST. -/
  | tripMismatch (n : Fin 16) (reported : Bool)
  /-- PHASE_ADD (R134): Port command above ADD or ICMD above ILIMS for two cycles adds the coolest IDLE phase. -/
  | phaseAdd (k : Fin 2)
  /-- PHASE_SHED (R135): Port command below SHED for DWELL sheds the hottest running phase. -/
  | phaseShed (k : Fin 2)
  /-- PHASE_WAKE_DONE (R132): TWAKE elapses and a waking phase starts its first cycle at its slot. -/
  | phaseWakeDone (n : Fin 16)
  /-- PHASE_SHED_DONE (R132): A shedding phase's current reaches zero or four cycles pass, EN goes low and it goes to IDLE or TEST. -/
  | phaseShedDone (n : Fin 16)
  /-- SLOW_OVERLOAD (R140): A phase's 10 ms mean current exceeds ILIMS × OVLD / 100 and the phase latches in OCL. -/
  | slowOverload (n : Fin 16)
  /-- OCL_COOL_END (R132): OCCOOL elapses with OCAUTO set and fewer than three latches in 1 s, and the phase returns to IDLE. -/
  | oclCoolEnd (n : Fin 16)
  /-- PHASE_LOSS (R142): A phase is found open, its sense failed or its stage faulted, and it is marked LOST with the port recomputed. -/
  | phaseLoss (n : Fin 16) (cause : Fin 4) (w : Nat)
  /-- LEG_PROBE (R69): A PENDING leg's voltage first exceeds 4.5 V and the leg is probed. -/
  | legProbe (n : Fin 16) (boost : Bool) (p : LegPulse)
  /-- SYNC_LOST (R129): SYNC_IN shows no edge for two periods or leaves ±4 %, and the PLL returns to REF. -/
  | syncLost
  /-- SYNC_RELOCK (R129): After 64 consecutive valid SYNC_IN periods the PLL relocks to SYNC_IN. -/
  | syncRelock
  /-- PHASE_MAP (R130): The PHASE_MAP admin command assigns named phases to PACK0, PACK1 or NONE. -/
  | phaseMap (d : Desc)
  /-- PHASE_MAP_DRAIN_DONE (R130): With DRAIN = 1, the last affected phase stops switching and the new map is applied. -/
  | phaseMapDrainDone
  /-- SET_VTARGET (R144): The SET_VTARGET admin command retargets the hold-up reference at a slew rate. -/
  | setVtarget (d : Desc)
  /-- VHOLD_REF_UPDATE (R144): Every 1 µs the hold-up reference moves toward its target and a reached target completes SET_VTARGET. -/
  | vholdRefUpdate
  /-- PH_VHOLD_WRITE (R145): A PH_VHOLD write under SYS_MAINT acts as a SET_VTARGET without completion and supersedes a running one. -/
  | phVholdWrite (o : Origin) (v : Word)
  /-- BUSOV_UPDATE (R138): Every 10 µs while a port runs DIS the BUS overshoot threshold is set and the trip-wire OR enabled. -/
  | busovUpdate
  /-- FEED_LIMIT_UPDATE (R151): Every 10 µs PFL is integrated from the feed excess and split between charging and Gust. -/
  | feedLimitUpdate
  /-- CHARGE_COMMAND_UPDATE (R158): Every 1 µs the charger bounds each port command and publishes PCHGREQ. -/
  | chargeCommandUpdate
  /-- CHARGE_LOOP_UPDATE (R159): Every 250 µs the charge loops update ITGT and the CV integral loop. -/
  | chargeLoopUpdate (k : Fin 2)
  /-- CHG_QUALIFY_END (R155): The 100 ms QUALIFY measurement ends and the charger moves to REST, PRECHARGE, CC or MAINTAIN. -/
  | chgQualifyEnd (k : Fin 2)
  /-- CHG_PRECHARGE_EXIT (R155): VCELL stays at or above VQUAL for 1 s, the discharge FET closes and the charger enters CC. -/
  | chgPrechargeExit (k : Fin 2)
  /-- CHG_STAGE_TIMEOUT (R155): TPRE, TCC or TCV elapses and the charger records its timeout fault and enters FAULT, or TTOP ends TOPOFF. -/
  | chgStageTimeout (k : Fin 2)
  /-- CHG_DWELL_EXPIRE (R155): A 10 s current or voltage dwell completes and the charger moves between CC, CREST, CV, TOPOFF and MAINTAIN. -/
  | chgDwellExpire (k : Fin 2)
  /-- CHG_TEMP_OUT (R155): Pack temperature stays outside TCMIN to TCMAX for 1 s and charging goes to REST. -/
  | chgTempOut (k : Fin 2)
  /-- CHG_REST_END (R155): TREST elapses with the temperature in range and the charger returns to QUALIFY. -/
  | chgRestEnd (k : Fin 2)
  /-- CHG_FAULT_CLEAR (R155): A write of 1 to CHGk_CTL.CLR moves a port from FAULT to QUALIFY. -/
  | chgFaultClear (k : Fin 2) (o : Origin) (v : Word)
  /-- CREST_UPDATE (R162): Every 100 ms the plating boundary current IPB is computed for ports in CC or CREST. -/
  | crestUpdate
  /-- CHG_STARVE (R173): A pause lasts STARVE minutes without a break and CHGk_EVT.STARVE sets. -/
  | chgStarve (k : Fin 2)
  /-- SET_PROFILE (R185): The SET_PROFILE admin command starts a DMA read of a profile block for a port. -/
  | setProfile (d : Desc)
  /-- PROFILE_READ_DONE (R185): The profile block read returns and is validated, checked for lock rules and applied or rejected. -/
  | profileReadDone (k : Fin 2) (p : Profile)
  /-- PROFILE_STAGED_LOAD (R185): A write of 1 to CHG_PLOAD.GO validates and applies the profile in CHG_PSTAGE. -/
  | profileStagedLoad (o : Origin) (v : Word)
  /-- SOUNDING (R166): The SOUNDING admin command freezes the charge integrator and modulates pack current for an impedance run. -/
  | sounding (d : Desc)
  /-- SOUNDING_WINDOW_END (R169): The measurement window ends, ZRE and ZIM are computed and written with flags and the command completes. -/
  | soundingWindowEnd (k : Fin 2)
  /-- HOLDUP_LOOP_UPDATE (R176): Every 1 µs the hold-up loop computes IHU from the BUS error and shares it among HOLDUP ports. -/
  | holdupLoopUpdate
  /-- HULOW_ASSERT (R178): BUS stays below VREF × HULOW / 100 for 20 µs and every THR pin asserts in hardware. -/
  | hulowAssert
  /-- HULOW_RELEASE (R178): BUS stays above VREF × (HULOW + 2) / 100 for 1 ms and the hardware throttle releases. -/
  | hulowRelease
  /-- HOLDUP_CUT (R179): VPACK stays below NCELL × VCUT for 1 ms and the port leaves HOLDUP. -/
  | holdupCut (k : Fin 2)
  /-- HOLDUP_END_STOP (R179): FEEDS_LOST is asserted with no port in HOLDUP and the extraction stop runs with object HOLDUP_END. -/
  | holdupEndStop
  /-- GUST_HOLD_END (R183): A port's Gust share has been 0 for GHOLD and it returns to its previous charge stage. -/
  | gustHoldEnd (k : Fin 2)
  /-- PACK_INSERTED (R190): PKn_PRES_N reads low for 50 consecutive samples and the identity read begins. -/
  | packInserted (k : Fin 2)
  /-- PACK_REMOVED (R190): PKn_PRES_N reads high for 5 consecutive samples, the FETs open and Rarex transactions are abandoned. -/
  | packRemoved (k : Fin 2)
  /-- PACK_IDENT_DONE (R192): The identity read ends or fails three times, authentication starts and the LIFE record is reconciled. -/
  | packIdentDone (k : Fin 2) (r : Option Ident)
  /-- PACK_CLOSE_START (R193): The close conditions hold and the charge FET closes while the discharge FET soft-closes. -/
  | packCloseStart (k : Fin 2)
  /-- PACK_CLOSE_DONE (R192): The stage-side node stays within 0.2 V of the pack for 100 µs and the port is CLOSED. -/
  | packCloseDone (k : Fin 2)
  /-- PACK_CLOSE_TIMEOUT (R192): PCLOSET elapses during CLOSING, both FETs open and PACK_CLOSE is recorded. -/
  | packCloseTimeout (k : Fin 2)
  /-- PACK_DSG_RECLOSE (R194): A reopened discharge FET closes again once the charger is out of PRECHARGE and the pack has stayed above 1.01
  × UVH for 1 s. -/
  | packDsgReclose (k : Fin 2)
  /-- PACK_SHORT_CIRCUIT (R196): Pack current below −ISCD pulls the discharge gate down with 1.5 A and the port trips. -/
  | packShortCircuit (k : Fin 2) (w : Nat)
  /-- PACK_CHARGE_OVERCURRENT (R196): Pack current above ICHOC turns the charge gate off. -/
  | packChargeOvercurrent (k : Fin 2) (w : Nat)
  /-- PACK_OV (R196): Pack voltage reaches OVH and the charge gate turns off. -/
  | packOv (k : Fin 2) (w : Nat)
  /-- PACK_UV (R196): Pack voltage falls to UVH and the discharge gate turns off. -/
  | packUv (k : Fin 2) (w : Nat)
  /-- PACK_OVERTEMP (R196): Pack temperature stays at or above THARD for 1 s and both gates turn off. -/
  | packOvertemp (k : Fin 2)
  /-- PACK_TRIP_RETRY (R196): A trip's retry condition is met and the port soft-closes or reopens the tripped FET. -/
  | packTripRetry (k : Fin 2) (t : PkTrip)
  /-- PACK_LATCH_CLEAR (R192): A write of 1 to PKn_CFG.CLR moves a LATCHED port to OPEN. -/
  | packLatchClear (k : Fin 2) (o : Origin) (v : Word)
  /-- COULOMB_SAMPLE (R199): Each 4 kS/s coulomb sample is added to PKn_Q and QOUT and moves SOC. -/
  | coulombSample (k : Fin 2) (code : Int)
  /-- COULOMB_OFFSET_START (R342): Both FETs have been open for 2 s with OFSAUTO set and a 1 s offset measurement begins. -/
  | coulombOffsetStart (k : Fin 2)
  /-- COULOMB_OFFSET_DONE (R342): The 1 s offset measurement ends and the offset is stored and applied. -/
  | coulombOffsetDone (k : Fin 2)
  /-- RAREX_TRANSACTION (R201): A Rarex command is carried on a PK port with PEC, retries and speed fallback. -/
  | rarexTransaction (k : Fin 2) (cmd : Rarex) (fails : List TwErr) (reply : List Byte)
  /-- GET_SIG_POLL (R201): Every 5 ms while Ready reads 0 the device polls GET_SIG. -/
  | getSigPoll (k : Fin 2) (fails : List TwErr)
  /-- AUTH_RUN_START (R205): An authentication run falls due after an identity read, REAUTH, a B4 reload, a profile or a retry. -/
  | authRunStart (k : Fin 2)
  /-- AUTH_RUN_DONE (R204): An authentication run ends with a result that takes effect and is journalled. -/
  | authRunDone (k : Fin 2) (r : Option RunIn)
  /-- PACK_AUTHENTICATE (R216): PACK_AUTH AUTHENTICATE starts or joins an authentication run on a port. -/
  | packAuthenticate (d : Desc)
  /-- LOAD_KEY (R203): PACK_AUTH LOAD_KEY fuses a fleet public key into an empty slot under SEALED conditions. -/
  | loadKey (d : Desc)
  /-- KEY_READ_DONE (R216): The 64-byte key read for LOAD_KEY returns and the key is checked and fused. -/
  | keyReadDone (key : BitVec 512)
  /-- VOID_KEY (R203): PACK_AUTH VOID_KEY blows a slot's void fuse and re-authenticates packs under it. -/
  | voidKey (d : Desc)
  /-- AUTHDIS_WRITE (R206): A GUARDED write to PKn_CFG.AUTHDIS makes the port report BYPASS or stop doing so. -/
  | authdisWrite (k : Fin 2) (o : Origin) (v : Word)
  /-- LIFE_WRITEBACK (R210): Every WBINT, or on a failed write's 1 minute retry, the LIFE record is written to the pack. -/
  | lifeWriteback (k : Fin 2) (ok : Bool)
  /-- PK_SHIP_ARM (R212): A PK_SHIP write with ARM and CONFIRM 0xA5 under SYS_MAINT arms Doldrums. -/
  | pkShipArm (o : Origin) (v : Word)
  /-- AON_TICK (R329): At each 1 kHz AON tick the four sentinels are powered, sampled and latched. -/
  | aonTick (fd : Vector Rat 4) (pk : Vector Rat 2) (wakeLow : Bool) (presHigh : BitVec 2)
  /-- DOLDRUMS_WAKE (R214): A feed sentinel, WAKE_N or press-to-wake meets its tick count and start-up begins at step 1. -/
  | doldrumsWake (w : WakeSrc) (v : BiasIn) (r : Boot)
  /-- SHIP_CUT (R215): Pack sentinels stay true for 16 ticks with no feed and the island cuts its own bias. -/
  | shipCut
  /-- FORECAST_SNAPSHOT (R225): Every 10 µs Forecast takes a coherent budget snapshot and writes PYIELD and GALLOW. -/
  | forecastSnapshot
  /-- GRANT_REQUEST (R233): A GRANT_REQUEST descriptor is decided as GRANT, PARTIAL, DEFER or DENY against the budget. -/
  | grantRequest (n : Fin 64) (d : Desc)
  /-- GRANT_RELEASE (R245): A GRANT_RELEASE quoting GEN accrues the account and returns the entry to IDLE. -/
  | grantRelease (n : Fin 64) (d : Desc)
  /-- GRANT_EXTEND (R246): A GRANT_EXTEND re-evaluates a live grant with a new duration and moves GEND or denies. -/
  | grantExtend (n : Fin 64) (d : Desc)
  /-- ACCOUNT_READ (R240): An ACCOUNT_READ accrues and returns the energy account, with optional clear and evict. -/
  | accountRead (n : Fin 64) (d : Desc)
  /-- CACHE_FILL_DONE (R237): A Grant Table entry read for a cache miss returns and the stalled request proceeds. -/
  | cacheFillDone (c : Nat) (e : BitVec 512) (g : Fin 3)
  /-- ACCOUNT_WRITEBACK (R239): A dirty cache line's device part is accrued and written back within WBPER. -/
  | accountWriteback (c : Nat) (late : Bool) (g : Fin 3)
  /-- GRANT_EXPIRE (R243): DEVTIME reaches a grant's GEND, the grant enters REVOKING and a REVOKE is posted. -/
  | grantExpire (c : Nat)
  /-- REVOKE_DEADLINE (R224): A revoking grant's deadline is reached, it becomes THROTTLED and its throttle pins assert. -/
  | revokeDeadline (c : Nat)
  /-- THROTTLE_RELEASE (R244): THRMIN after assertion a released entry's claim on its throttle pins ends. -/
  | throttleRelease (c : Nat)
  /-- ZONE_HOST_STALE (R230): A zone's host temperature ages beyond 100 ms and its headroom for admission becomes 0. -/
  | zoneHostStale (z : Fin 8)
  /-- BIND_CONTEXT (R251): The BIND_CONTEXT admin command binds a context with its band, weight, range, zones and cap. -/
  | bindContext (d : Desc)
  /-- UNBIND_CONTEXT (R251): BIND_CONTEXT with UNBIND = 1 unbinds a context without live grants. -/
  | unbindContext (d : Desc)
  /-- GRANT_TABLE_SETUP (R252): The GRANT_TABLE_SETUP admin command places or removes the Grant Table and leaves or enters static mode. -/
  | grantTableSetup (d : Desc)
  /-- PE_PERST_N_ASSERT (R261): PE_PERST_N asserts and the host link, rings, MSI-X table and Forecast grants reset. -/
  | pePerstNAssert
  /-- LINK_DOWN (R261): The Data Link Layer goes down, resetting ring state and configuration space and ending live grants. -/
  | linkDown
  /-- FUNCTION_LEVEL_RESET (R261): A Function Level Reset acts as PE_PERST_N without retraining the link. -/
  | functionLevelReset
  /-- D3HOT_ENTRY (R261): The function enters D3hot, which acts as a Function Level Reset. -/
  | d3hotEntry
  /-- BUS_MASTER_DISABLE (R261): Bus Master Enable clears, stopping requests, abandoning reads in flight and holding completions. -/
  | busMasterDisable
  /-- BUS_MASTER_ENABLE (R261): Bus Master Enable is set again and abandoned reads are reissued and held entries written in order. -/
  | busMasterEnable (c : PciCfg)
  /-- ASPM_L1_ENTRY (R261): After 16 µs of link idle with ASPM enabled the link enters L1. -/
  | aspmL1Entry
  /-- SQ_TAIL_DOORBELL (R263): A submission tail doorbell updates the pending count, latches the push halves and starts fetches. -/
  | sqTailDoorbell (n : Fin 64) (v : Word)
  /-- CQ_HEAD_DOORBELL (R265): A completion head doorbell frees completion entries or halts the ring on a bad head. -/
  | cqHeadDoorbell (n : Fin 64) (v : Word)
  /-- PUSH_SLOT_WRITE (R264): A write into a push half stores bytes and sets their byte-valid bits. -/
  | pushSlotWrite (n : Fin 64) (ws : List (Fin 64 × Byte))
  /-- BAR2_INVALID_WRITE (R258): A BAR2 write that is neither a doorbell nor inside a push slot is dropped and counted in DBDROP. -/
  | bar2InvalidWrite (off : BitVec 13) (len : Nat)
  /-- DESCRIPTOR_FETCH_DONE (R269): Fetched descriptors return, RIDX and chains are checked and the descriptors are queued for execution. -/
  | descriptorFetchDone (n : Fin 64) (ds : List Desc)
  /-- DMA_READ_ERROR (R260): A device read ends in timeout, UR, CA or poison and is reported and captured with its effect on the request. -/
  | dmaReadError (r : DmaRead) (t : Fin 3) (addr : Word)
  /-- RING_ENABLE (R267): Setting HIFn_CFG.EN makes the ring pair ACTIVE, or HALTED on bad set-up. -/
  | ringEnable (n : Fin 64) (o : Origin) (v : Word)
  /-- RING_DISABLE (R267): Clearing HIFn_CFG.EN makes an active ring DRAINING or a halted ring DISABLED. -/
  | ringDisable (n : Fin 64) (o : Origin) (v : Word)
  /-- RING_DRAINED (R267): A draining ring's started commands have completed and it becomes DISABLED. -/
  | ringDrained (n : Fin 64)
  /-- COMPLETION_POST (R272): A completion or unsolicited entry is written at CQTAIL once the ring has room. -/
  | completionPost (n : Fin 64)
  /-- MSIX_TIMER_EXPIRE (R291): ITIME passes since the first counted entry and the ring's MSI-X message is sent. -/
  | msixTimerExpire (n : Fin 64)
  /-- MSIX_UNMASK (R291): A masked vector with its pending bit set is unmasked and its message is sent. -/
  | msixUnmask (v : Fin 64) (o : Origin) (w : Word)
  /-- ADMIN_DEFERRED_START (R277): An admin command waiting behind FENCE or for completion-ring room is started. -/
  | adminDeferredStart (elems : List (BitVec 64))
  /-- IDENTIFY (R281): The IDENTIFY admin command returns SYS_ID and firmware levels and optionally writes an identity block. -/
  | identify (d : Desc)
  /-- SET_LIMITS (R283): The SET_LIMITS admin command validates and merges its records and checks the lock rules. -/
  | setLimits (ds : List Desc)
  /-- SET_LIMITS_APPLY (R283): At the next 10 µs snapshot boundary every changed field of a SET_LIMITS set is applied together. -/
  | setLimitsApply
  /-- GET_TELEMETRY (R285): The GET_TELEMETRY admin command writes history or capture records into the host's scatter lists. -/
  | getTelemetry (ds : List Desc) (elems : List (BitVec 64))
  /-- TELEMETRY_RECORD (R284): Every TELPER, or CAPPER in capture, a telemetry record of each selected class is taken. -/
  | telemetryRecord (capture skip : Bool)
  /-- JOURNAL_DRAIN (R286): The JOURNAL_DRAIN admin command copies journal entries to host memory and optionally releases them. -/
  | journalDrain (d : Desc)
  /-- TW_M_POINTER_SET (R300): A pointer-set transaction on the M port loads the BAR0 pointer. -/
  | twMPointerSet (ptr : BitVec 16) (pec : Option Byte) (stop : Bool)
  /-- TW_M_WRITE (R302): A write transaction on the M port is buffered and its whole words committed at the STOP. -/
  | twMWrite (bytes : List Byte) (stop : Bool)
  /-- TW_M_READ (R301): A read transaction on the M port streams bytes from word reads of BAR0. -/
  | twMRead (n : Nat) (stop : Bool)
  /-- TW_BUS_ERROR (R306): A misplaced START or STOP abandons the transaction without commit. -/
  | twBusError (p : Fin 3)
  /-- TW_SCL_TIMEOUT (R307): SCL stays low 25 ms to 35 ms and the port abandons the transaction and records TW_TIMEOUT. -/
  | twSclTimeout (p : Fin 3)
  /-- TW_SDA_TIMEOUT (R307): SDA stays low with SCL high for TOSDA and the port abandons the transaction and records TW_TIMEOUT. -/
  | twSdaTimeout (p : Fin 3)
  /-- TW_BUS_FREE (R299): SCL and SDA stay high for 50 µs and the bus is considered free. -/
  | twBusFree (p : Fin 3)
  /-- ALERT_RAISE (R308): An enabled event source line rises and an alert is raised by ALERT_N or Host Notify. -/
  | alertRaise
  /-- ALERT_RESPONSE (R308): A read at the Alert Response Address returns the device address and releases ALERT_N. -/
  | alertResponse (lost : Bool)
  /-- HOST_NOTIFY (R309): The M port as controller sends a Host Notify carrying the asserted source lines. -/
  | hostNotify (acked : Bool)
  /-- HOST_NOTIFY_RETRY (R309): 1 ms after a NACKed Host Notify the port retries it. -/
  | hostNotifyRetry (acked : Bool)
  /-- HOST_NOTIFY_DROP (R309): No attempt acknowledged 100 ms after the alert drops the message and sets HNFAIL. -/
  | hostNotifyDrop
  /-- TW_ARB_LOST (R310): The M controller loses arbitration and becomes target or retries when the bus is free. -/
  | twArbLost (p : Fin 3) (own : Bool)
  /-- TW_BUS_CLEAR (R312): A controller port finds SDA low and clocks up to nine pulses to clear the bus. -/
  | twBusClear (p : Fin 3) (pulses : Option (Fin 10))
  /-- TW_BUSCLR (R312): A write of 1 to BUSCLR repeats the bus clear of a held port. -/
  | twBusclr (p : Fin 3) (o : Origin) (v : Word)
  /-- TW_PORT_RESET (R316): A write of 1 to RST abandons any transaction and resets the port. -/
  | twPortReset (p : Fin 3) (o : Origin) (v : Word)
  /-- CMP_GP_EVENT (R324): A general-purpose comparator output asserts and sets its event, a fault if enabled and a timer trigger. -/
  | cmpGpEvent (g : Fin 2) (x : Int) (w : Nat)
  /-- BUS_UV (R318): The BUS comparator's lower threshold is crossed and BUS_UV is recorded. -/
  | busUv (w : Nat)
  /-- BIAS_LOW (R318): VB5 falls below 4.400 V and BIAS_LOW is recorded. -/
  | biasLow (w : Nat)
  /-- BIAS_OV (R318): VB5 rises above 5.496 V and BIAS_OV is recorded. -/
  | biasOv (w : Nat)
  /-- COMPARATOR_AUTOZERO (R327): Every AZPER the spare stage of each comparator is nulled and swapped in. -/
  | comparatorAutozero (c : Fin 48) (trim x : Int)
  /-- ADCA_PASS (R332): Every 1 µs tick ADCA walks its due sequence entries as one pass. -/
  | adcaPass (inp : AdcIn) (t : Rat)
  /-- ADCB_PASS (R332): Every 10 µs tick ADCB walks its due sequence entries as one pass. -/
  | adcbPass (inp : AdcIn) (t : Rat)
  /-- ADC_INJECTION (R336): An injection request abandons the conversion in flight, runs the injected entry and resumes the pass. -/
  | adcInjection (x : Fin 2) (k : Fin 4) (inp : AdcIn) (pair : Int) (t : Rat)
  /-- REFERENCE_LOSS (R339): The reference in use loses REFRDY and the converter falls back to the bandgap. -/
  | referenceLoss (r : Fin 3) (busy : BitVec 2)
  /-- REFSEL_WRITE (R339): A write to ADCx_CFG.REFSEL selects the reference and ends a bandgap fallback. -/
  | refselWrite (x : Fin 2) (o : Origin) (v : Word)
  /-- ADC_CROSS_CHECK (R340): In idle slots each converter cross-checks the bandgap, VREFX and VDDA, voting out a bad reference. -/
  | adcCrossCheck (x : Fin 2) (c42 c43 c36 : BitVec 16)
  /-- DIE_TEMP_READING (R350): Every 1 ms the on-die sensors are read, cross-checked and TJ drives the die action levels. -/
  | dieTempReading (tc : Vector Int 5)
  /-- ANVIL_OVERTEMP (R355): The analog Anvil detector asserts at 160 °C and Anvil takes the safe state alone. -/
  | anvilOvertemp
  /-- STAGE_TEMP_READING (R352): Each stage temperature reading drives cycle skipping, thermal caps and exclusion. -/
  | stageTempReading (n : Fin 16)
  /-- NCAP_STEP (R352): Every 10 ms at TSTG2 NCAP falls by one, or every 100 ms after release it rises by one. -/
  | ncapStep (k : Fin 2)
  /-- THERMAL_COMP_UPDATE (R356): Reference and oscillator temperature corrections are updated at their periods. -/
  | thermalCompUpdate (q : Fin 4)
  /-- TIMER_INCREMENT (R359): A timer's prescaler rolls over and CNT increments. -/
  | timerIncrement (n : Fin 8) (sync : Bool)
  /-- TIMER_CAPTURE (R363): An edge from a channel's capture source copies CNT into its two-entry queue. -/
  | timerCapture (n : Fin 8) (c : Fin 4)
  /-- TIMER_CAPTURE_READ (R363): A read of a capture channel's CCR returns and consumes the oldest unread entry. -/
  | timerCaptureRead (n : Fin 8) (c : Fin 4) (o : Origin)
  /-- TIMER_CNT_WRITE (R361): A write to CNT loads the counter and restarts the prescaler. -/
  | timerCntWrite (n : Fin 8) (o : Origin) (v : Word)
  /-- TIMER_CCR_WRITE (R362): A write to a compare CCR sets the match value and may arm a wait through the wrap. -/
  | timerCcrWrite (n : Fin 8) (c : Fin 4) (o : Origin) (v : Word)
  /-- TIMER_ENABLE (R359): Setting TMRn_CTL.EN restarts the prescaler and starts counting. -/
  | timerEnable (n : Fin 8) (o : Origin) (v : Word)
  /-- TIMER_TRIGGER_EDGE (R365): A slave-mode source edge resets, triggers or clocks the timer per SMODE. -/
  | timerTriggerEdge (n : Fin 8)
  /-- DEVTIME_WRAP (R370): The 56-bit DEVTIME wraps, EPOCH increments and a DEVTIME_WRAP entry is written. -/
  | devtimeWrap
  /-- CP_DEBUG_HALT (R368): The control processor is halted by a debugger and timers with FREEZE and the watchdog stop. -/
  | cpDebugHalt
  /-- PATROL_SCRUB (R381): In idle cycles the patrol scrubber reads each row of each active bank once per SCRUBPER. -/
  | patrolScrub (r : Scrub) (off : BitVec 19) (lane : Fin 4) (last late : Bool)
  /-- B4_WIPE_DONE (R387): The B4 wipe ends after 4,096 rows, a B4_WIPE entry is written and B4 is reloaded per cause. -/
  | b4WipeDone
  /-- FAULT_EVENT (R394): A source event is recorded in the collector, counted, captured as first error and a grace timer started. -/
  | faultEvent
  /-- GRACE_EXPIRE (R401): A grace timer expires with its source still pending and GRACE_EXP is recorded as FATAL. -/
  | graceExpire (mask : BitVec 64)
  /-- FAULT_ACK (R400): A write of 1 to a FLT_PEND bit acknowledges a CONTAINED source and stops its timer. -/
  | faultAck (hi : Bool) (o : Origin) (v : Word)
  /-- FLT_AUTO_ACK (R400): The control processor acknowledges an FLT_AUTO source when its owning block reports containment ended. -/
  | fltAutoAck (src : Fin 64)
  /-- FIRST_ERROR_REARM (R395): A W1C of FLT_FIRST.VALID clears MULTI and re-arms the first-error capture. -/
  | firstErrorRearm (o : Origin) (v : Word)
  /-- WATCHDOG_EXPIRE (R408): The 20 ms control-processor watchdog expires and CP_WDT is recorded. -/
  | watchdogExpire
  /-- COLLECTOR_SELF_CHECK (R409): Every 100 µs the collector scans its words and enters the safe state on a parity or uncorrectable error. -/
  | collectorSelfCheck (bad : CollScan)
  /-- SAFE_CLOCK_LOSS (R410): SAFE shows no edge for 2 µs and the BUS-domain monitor asserts the safe state and FAULT_N. -/
  | safeClockLoss
  /-- FAULT_INJECT (R411): A write of FLT_INJ.GO presents an injected event, or is refused outside BLANK with TESTEN. -/
  | faultInject (o : Origin) (v : Word)
  /-- FAULT_PULSE_END (R407): In Compact class the FAULT_N pulse ends after PULSEW and the pin returns to DRIVE. -/
  | faultPulseEnd
  /-- HEARTBEAT_RESUME (R407): A write of 1 to FLT_PIN.RESUME restarts the Full-class heartbeat when no PEND bit is set. -/
  | heartbeatResume (o : Origin) (v : Word)
  /-- D2D_RETRY (R16): A flit arrives with a CRC error and a retry of it is requested. -/
  | d2dRetry
  /-- D2D_LINK_LOSS (R17): No valid flit for 1 µs or three failures of one flit makes each die enter the safe state. -/
  | d2dLinkLoss
  /-- REF_LOSS (R29): The REF count differs by more than 5 % in two windows and REF_LOSS is recorded as FATAL. -/
  | refLoss (c0 c1 : Nat)
  /-- ATTEND_PRESS (R414): ATTEND_N stays low 20 ms, a press is recognised and the presence window opens. -/
  | attendPress
  /-- ATTEND_RELEASE (R414): ATTEND_N stays high 20 ms and the 60 s window close count starts. -/
  | attendRelease
  /-- PRESENCE_TIMEOUT (R414): 60 s after the release the presence window closes and an ATTEND entry is written. -/
  | presenceTimeout
  /-- PRESENCE_CLOSE (R415): A write of 1 to AUTH_PRES.CLOSE closes the presence window at once. -/
  | presenceClose (o : Origin) (v : Word)
  /-- JOURNAL_WRITE (R421): A queued journal record takes its sequence number and is stored in B3 per the policy. -/
  | journalWrite
  /-- JNL_RDIDX_WRITE (R426): A write to JNL_RDIDX latches a journal entry into the JNL_WIN registers. -/
  | jnlRdidxWrite (o : Origin) (v : Word)
  /-- JNL_REL_WRITE (R426): A write of N to JNL_REL releases the oldest entries and writes a DRAIN entry. -/
  | jnlRelWrite (o : Origin) (v : Word)
  /-- REGISTER_WRITE (R35): A BAR0 or M port write to a register without its own row is checked for SYS_MAINT and class, applied or refused
  and journalled. -/
  | registerWrite (o : Origin) (off : BitVec 16) (v : Word) (f : Bar0Form)
  /-- REGISTER_READ (R8): A BAR0 read through the host link returns a register, and any RC field in it is cleared per R9. -/
  | registerRead (o : Origin) (off : BitVec 16) (long : Bool)
  /-- REFERENCE_READY (R339): A reference gains REFRDY, for example VREFX after staying within ±2 % for 100 µs, and becomes usable and
  checkable on channel 36. -/
  | referenceReady (r : Fin 3)
  /-- LINK_UP (R261): After PE_PERST_N is released or the link has gone down, the PCI Express link trains, the Data Link Layer comes up and
  LINKUP reads 1. -/
  | linkUp (g : Fin 3)
  /-- ASPM_L1_EXIT (R261): The link leaves L1 when the host sends traffic, and HIF_LNK.L1 clears. -/
  | aspmL1Exit
  /-- CP_DEBUG_RESUME (R368): The debugger releases the control processor from a halt, and frozen timers and the watchdog run again. -/
  | cpDebugResume
  /-- BLANKING_INTERVAL_END (R325): A timer blanking interval on a comparator other than 46 and 47 ends after 1.0 µs although the timer
  output is still active, and the outputs take their input state at once. -/
  | blankingIntervalEnd (c : Fin 48) (x : Int)
  /-- FAULT_N_HEARTBEAT (R407): In Full class, every 500 µs timed in SAFE the FAULT_N heartbeat toggles between its low and high halves. -/
  | faultNHeartbeat
deriving DecidableEq, Repr

end Sys2Proof
end

