-- ==== Sys2Proof/Machine/RegFile.lean ====
section
/-! DEFINITION. The registers as plain data: a list of (offset, value) pairs in one canonical form, rising offsets and
no entry equal to 0, which is what an unlisted offset reads as; and the bit fields of a register (R5). -/

namespace Sys2Proof.Machine

/-- The stored registers: BAR0 byte offset and value. DESIGN CHOICE, log entry 91. -/
abbrev RegFile := List (Nat × Word)

/-- The value at `o`; an unlisted offset reads 0 (R12, R33: reserved space reads 0). -/
def RegFile.get : RegFile → Nat → Word
  | [], _ => 0
  | (a, v) :: t, o => if o = a then v else if o < a then 0 else RegFile.get t o

/-- Is every listed offset of `t` above `o`? Read off the first entry. -/
def RegFile.headAbove (o : Nat) : RegFile → Bool
  | [] => true
  | (a, _) :: _ => decide (o < a)

/-- Put an entry in front, leaving a zero out where that reads the same. -/
def RegFile.push (o : Nat) (v : Word) (t : RegFile) : RegFile :=
  if v = 0 ∧ RegFile.headAbove o t = true then t else (o, v) :: t

/-- Write `v` at `o`, keeping the canonical form. -/
def RegFile.set : RegFile → Nat → Word → RegFile
  | [], o, v => RegFile.push o v []
  | (a, w) :: t, o, v =>
    if o = a then RegFile.push o v t
    else if o < a then RegFile.push o v ((a, w) :: t)
    else (a, w) :: RegFile.set t o v

/-- The canonical form: offsets strictly rising, no zero entry. -/
def RegFile.wf : RegFile → Bool
  | [] => true
  | (a, v) :: t => decide (v ≠ 0) && RegFile.headAbove a t && RegFile.wf t

/-- A bit field: the register's offset and its bits `hi:lo` (R5). -/
structure Fld where
  /-- BAR0 byte offset of the register. -/
  off : Nat
  /-- Highest bit. -/
  hi : Nat
  /-- Lowest bit. -/
  lo : Nat
deriving DecidableEq, Repr

/-- How many bits the field has. -/
def Fld.width (f : Fld) : Nat := f.hi + 1 - f.lo

/-- The mask of the bits `hi:lo`. -/
def bitMask (hi lo : Nat) : Word := BitVec.ofNat 32 (2 ^ (hi + 1 - lo) - 1) <<< lo

/-- The field's value in a register word. -/
def Fld.extract (f : Fld) (w : Word) : Nat := (w >>> f.lo).toNat % 2 ^ f.width

/-- The register word with the field set to `v`, taken modulo the field's size. -/
def Fld.insert (f : Fld) (w : Word) (v : Nat) : Word :=
  (w &&& ~~~ bitMask f.hi f.lo) ||| (BitVec.ofNat 32 (v % 2 ^ f.width) <<< f.lo)

/-- Read a field. -/
def RegFile.fld (r : RegFile) (f : Fld) : Nat := f.extract (r.get f.off)

/-- Write a field and leave the register's other bits as they are. -/
def RegFile.setFld (r : RegFile) (f : Fld) (v : Nat) : RegFile := r.set f.off (f.insert (r.get f.off) v)

/-- Access codes of R8. -/
inductive Access
  | rw | ro | w1c | w1s | rc | wo | rwg | rws
deriving DecidableEq, Repr

/-- The quantity a field represents, where the stored code is not itself that quantity (R114: raising and lowering are
judged on the quantity). -/
inductive Quant
  /-- The code itself. -/
  | plain
  /-- Codes above `n` act as `n`. -/
  | capAt (n : Nat)
  /-- Code 0 acts as `n`. -/
  | zeroIs (n : Nat)
  /-- Two's complement of `w` bits. -/
  | signed (w : Nat)
deriving DecidableEq, Repr

/-- The change of a field that loosens protection (R114, R148, R189, R218, R255, R344, R358, R403, R419). -/
inductive Loose
  /-- No change loosens. -/
  | none
  /-- Raising the quantity loosens. -/
  | raise (q : Quant)
  /-- Lowering the quantity loosens. -/
  | lower (q : Quant)
  /-- Any change of the quantity loosens. -/
  | change (q : Quant)
  /-- Setting any bit loosens (FLT_AUTO, R403). -/
  | setsBit
  /-- A change from no source (0 or 9 to 15) to a timer loosens (BLKSRC, R344). -/
  | fromNone
deriving DecidableEq, Repr

/-- One field of a register as the map holds it. -/
structure FieldRow where
  /-- Highest bit. -/
  hi : Nat
  /-- Lowest bit. -/
  lo : Nat
  /-- Access code (R8). -/
  acc : Access
  /-- Kept across a device reset: reset code K, or S and F, which start-up takes again (R7). -/
  kept : Bool
  /-- Operational in the sense of R35. -/
  oper : Bool
  /-- Which change of it loosens protection. -/
  loose : Loose
  /-- Guarded whether or not FEED_LOCK.LOCK is set (R419, R429). -/
  always : Bool
  /-- The range the field is clamped to, where its Function column says clamped. -/
  clamp : Option (Nat × Nat)
deriving DecidableEq, Repr

/-- One register, or a family of registers at `base + s1 * i + s2 * j`. -/
structure RegRow where
  /-- Offset of the first instance. -/
  base : Nat
  /-- Instances along the first index. -/
  n1 : Nat
  /-- Step of the first index. -/
  s1 : Nat
  /-- Instances along the second index. -/
  n2 : Nat
  /-- Step of the second index. -/
  s2 : Nat
  /-- May a SET_LIMITS record name it (R283)? -/
  lim : Bool
  /-- Its fields; bits of no field are reserved (R11). -/
  fields : List FieldRow
deriving DecidableEq, Repr

/-- Does the row hold the register at `off`? -/
def RegRow.holds (r : RegRow) (off : Nat) : Bool :=
  decide (r.base ≤ off) &&
    (let d := off - r.base
     decide (d / r.s1 < r.n1) && decide (d % r.s1 % r.s2 = 0) && decide (d % r.s1 / r.s2 < r.n2))

/-- The first row that holds `off`. -/
def findReg : List RegRow → Nat → Option RegRow
  | [], _ => none
  | r :: t, off => if r.holds off then some r else findReg t off

/-- The bits a device reset keeps (R7). -/
def RegRow.keptMask (r : RegRow) : Word :=
  r.fields.foldl (fun m f => if f.kept then m ||| bitMask f.hi f.lo else m) 0

end Sys2Proof.Machine
end

