-- ==== Sys2Proof/Machine/Regs.lean ====
section
/-! DEFINITION. The BAR0 registers of R32: one offset per register name and one `Fld` per field, as the register
tables of the chapters give them (index letters of the manual become arguments). -/

namespace Sys2Proof.Machine

/-! ### Sys registers -/
/-- `SYS_ID` (00_scope). -/
abbrev SYS_ID : Nat := 0x0000
abbrev SYS_ID_PART : Fld := ⟨SYS_ID, 31, 16⟩
abbrev SYS_ID_ANVREV : Fld := ⟨SYS_ID, 15, 12⟩
abbrev SYS_ID_CIRREV : Fld := ⟨SYS_ID, 11, 8⟩
abbrev SYS_ID_PKG : Fld := ⟨SYS_ID, 7, 4⟩
abbrev SYS_ID_FAMILY : Fld := ⟨SYS_ID, 3, 0⟩
/-- `SYS_STRAP` (02_package_and_balls). -/
abbrev SYS_STRAP : Nat := 0x0010
abbrev SYS_STRAP_STRAPOK : Fld := ⟨SYS_STRAP, 31, 31⟩
abbrev SYS_STRAP_CONFLICT : Fld := ⟨SYS_STRAP, 30, 30⟩
abbrev SYS_STRAP_AMBIG : Fld := ⟨SYS_STRAP, 29, 29⟩
abbrev SYS_STRAP_PHRANGE : Fld := ⟨SYS_STRAP, 28, 28⟩
abbrev SYS_STRAP_PHCNT_MV : Fld := ⟨SYS_STRAP, 27, 16⟩
abbrev SYS_STRAP_TESTEN : Fld := ⟨SYS_STRAP, 13, 13⟩
abbrev SYS_STRAP_XOSEL : Fld := ⟨SYS_STRAP, 12, 12⟩
abbrev SYS_STRAP_HOSTSEL : Fld := ⟨SYS_STRAP, 11, 11⟩
abbrev SYS_STRAP_TWADDR : Fld := ⟨SYS_STRAP, 10, 8⟩
abbrev SYS_STRAP_CFGCLASS : Fld := ⟨SYS_STRAP, 5, 5⟩
abbrev SYS_STRAP_PHCNT : Fld := ⟨SYS_STRAP, 4, 0⟩
/-- `SYS_LC` (03_startup_and_lifecycle). -/
abbrev SYS_LC : Nat := 0x0020
abbrev SYS_LC_CONFIRM : Fld := ⟨SYS_LC, 31, 24⟩
abbrev SYS_LC_RESULT : Fld := ⟨SYS_LC, 11, 10⟩
abbrev SYS_LC_GO_RETURNED : Fld := ⟨SYS_LC, 9, 9⟩
abbrev SYS_LC_GO_FIELD : Fld := ⟨SYS_LC, 8, 8⟩
abbrev SYS_LC_BUSY : Fld := ⟨SYS_LC, 2, 2⟩
abbrev SYS_LC_STATE : Fld := ⟨SYS_LC, 1, 0⟩
/-- `SYS_STATE` (03_startup_and_lifecycle). -/
abbrev SYS_STATE : Nat := 0x0030
abbrev SYS_STATE_AON_BUSY : Fld := ⟨SYS_STATE, 10, 10⟩
abbrev SYS_STATE_INRUSHOK : Fld := ⟨SYS_STATE, 9, 9⟩
abbrev SYS_STATE_PHOK : Fld := ⟨SYS_STATE, 8, 8⟩
abbrev SYS_STATE_STEP : Fld := ⟨SYS_STATE, 7, 4⟩
abbrev SYS_STATE_MODE : Fld := ⟨SYS_STATE, 3, 0⟩
/-- `SYS_MAINT` (03_startup_and_lifecycle). -/
abbrev SYS_MAINT : Nat := 0x0034
abbrev SYS_MAINT_MAINT : Fld := ⟨SYS_MAINT, 0, 0⟩
/-- `SYS_BOOT` (03_startup_and_lifecycle). -/
abbrev SYS_BOOT : Nat := 0x0040
abbrev SYS_BOOT_WARM : Fld := ⟨SYS_BOOT, 24, 24⟩
abbrev SYS_BOOT_CODE : Fld := ⟨SYS_BOOT, 23, 16⟩
abbrev SYS_BOOT_FAIL : Fld := ⟨SYS_BOOT, 14, 4⟩
/-- `SYS_FEEDCHK` (03_startup_and_lifecycle). -/
abbrev SYS_FEEDCHK : Nat := 0x0044
abbrev SYS_FEEDCHK_FEED0 : Fld := ⟨SYS_FEEDCHK, 3, 0⟩
abbrev SYS_FEEDCHK_FEED1 : Fld := ⟨SYS_FEEDCHK, 7, 4⟩
abbrev SYS_FEEDCHK_FEED2 : Fld := ⟨SYS_FEEDCHK, 11, 8⟩
abbrev SYS_FEEDCHK_FEED3 : Fld := ⟨SYS_FEEDCHK, 15, 12⟩
/-- `SYS_PROBE` (03_startup_and_lifecycle). -/
abbrev SYS_PROBE : Nat := 0x0048
abbrev SYS_PROBE_PH0 : Fld := ⟨SYS_PROBE, 1, 0⟩
abbrev SYS_PROBE_PH1 : Fld := ⟨SYS_PROBE, 3, 2⟩
abbrev SYS_PROBE_PH2 : Fld := ⟨SYS_PROBE, 5, 4⟩
abbrev SYS_PROBE_PH3 : Fld := ⟨SYS_PROBE, 7, 6⟩
abbrev SYS_PROBE_PH4 : Fld := ⟨SYS_PROBE, 9, 8⟩
abbrev SYS_PROBE_PH5 : Fld := ⟨SYS_PROBE, 11, 10⟩
abbrev SYS_PROBE_PH6 : Fld := ⟨SYS_PROBE, 13, 12⟩
abbrev SYS_PROBE_PH7 : Fld := ⟨SYS_PROBE, 15, 14⟩
abbrev SYS_PROBE_PH8 : Fld := ⟨SYS_PROBE, 17, 16⟩
abbrev SYS_PROBE_PH9 : Fld := ⟨SYS_PROBE, 19, 18⟩
abbrev SYS_PROBE_PH10 : Fld := ⟨SYS_PROBE, 21, 20⟩
abbrev SYS_PROBE_PH11 : Fld := ⟨SYS_PROBE, 23, 22⟩
abbrev SYS_PROBE_PH12 : Fld := ⟨SYS_PROBE, 25, 24⟩
abbrev SYS_PROBE_PH13 : Fld := ⟨SYS_PROBE, 27, 26⟩
abbrev SYS_PROBE_PH14 : Fld := ⟨SYS_PROBE, 29, 28⟩
abbrev SYS_PROBE_PH15 : Fld := ⟨SYS_PROBE, 31, 30⟩
/-- `SYS_RST` (03_startup_and_lifecycle). -/
abbrev SYS_RST : Nat := 0x0050
abbrev SYS_RST_RSTCNT : Fld := ⟨SYS_RST, 23, 16⟩
abbrev SYS_RST_CAUSE : Fld := ⟨SYS_RST, 11, 8⟩
abbrev SYS_RST_DEVRST : Fld := ⟨SYS_RST, 0, 0⟩
/-- `SYS_BIST` (03_startup_and_lifecycle). -/
abbrev SYS_BIST : Nat := 0x0060
abbrev SYS_BIST_PHDONE : Fld := ⟨SYS_BIST, 31, 16⟩
abbrev SYS_BIST_FAILITEM : Fld := ⟨SYS_BIST, 15, 8⟩
abbrev SYS_BIST_STATUS : Fld := ⟨SYS_BIST, 4, 2⟩
abbrev SYS_BIST_SCOPE : Fld := ⟨SYS_BIST, 1, 0⟩

/-! ### Flt registers -/
/-- `FLT_STATUS_LO` (15_fault_collection). -/
abbrev FLT_STATUS_LO : Nat := 0x0800
abbrev FLT_STATUS_LO_S : Fld := ⟨FLT_STATUS_LO, 31, 0⟩
/-- `FLT_STATUS_HI` (15_fault_collection). -/
abbrev FLT_STATUS_HI : Nat := 0x0804
abbrev FLT_STATUS_HI_S : Fld := ⟨FLT_STATUS_HI, 31, 0⟩
/-- `FLT_PEND_LO` (15_fault_collection). -/
abbrev FLT_PEND_LO : Nat := 0x0808
abbrev FLT_PEND_LO_P : Fld := ⟨FLT_PEND_LO, 31, 0⟩
/-- `FLT_PEND_HI` (15_fault_collection). -/
abbrev FLT_PEND_HI : Nat := 0x080C
abbrev FLT_PEND_HI_P : Fld := ⟨FLT_PEND_HI, 31, 0⟩
/-- `FLT_FIRST` (15_fault_collection). -/
abbrev FLT_FIRST : Nat := 0x0810
abbrev FLT_FIRST_VALID : Fld := ⟨FLT_FIRST, 31, 31⟩
abbrev FLT_FIRST_INJ : Fld := ⟨FLT_FIRST, 30, 30⟩
abbrev FLT_FIRST_MULTI : Fld := ⟨FLT_FIRST, 29, 29⟩
abbrev FLT_FIRST_CLASS : Fld := ⟨FLT_FIRST, 27, 26⟩
abbrev FLT_FIRST_MASTER : Fld := ⟨FLT_FIRST, 23, 16⟩
abbrev FLT_FIRST_ACCESS : Fld := ⟨FLT_FIRST, 14, 12⟩
abbrev FLT_FIRST_SRC : Fld := ⟨FLT_FIRST, 5, 0⟩
/-- `FLT_FADDR` (15_fault_collection). -/
abbrev FLT_FADDR : Nat := 0x0814
abbrev FLT_FADDR_ADDR : Fld := ⟨FLT_FADDR, 31, 0⟩
/-- `FLT_FTIME_LO` (15_fault_collection). -/
abbrev FLT_FTIME_LO : Nat := 0x0818
abbrev FLT_FTIME_LO_T : Fld := ⟨FLT_FTIME_LO, 31, 0⟩
/-- `FLT_FTIME_HI` (15_fault_collection). -/
abbrev FLT_FTIME_HI : Nat := 0x081C
abbrev FLT_FTIME_HI_T : Fld := ⟨FLT_FTIME_HI, 31, 0⟩
/-- `FLT_FATAL` (15_fault_collection). -/
abbrev FLT_FATAL : Nat := 0x0820
abbrev FLT_FATAL_VALID : Fld := ⟨FLT_FATAL, 31, 31⟩
abbrev FLT_FATAL_INJ : Fld := ⟨FLT_FATAL, 30, 30⟩
abbrev FLT_FATAL_TIMEHI : Fld := ⟨FLT_FATAL, 29, 14⟩
abbrev FLT_FATAL_ESCSRC : Fld := ⟨FLT_FATAL, 13, 8⟩
abbrev FLT_FATAL_SRC : Fld := ⟨FLT_FATAL, 5, 0⟩
/-- `FLT_FATIME` (15_fault_collection). -/
abbrev FLT_FATIME : Nat := 0x0824
abbrev FLT_FATIME_T : Fld := ⟨FLT_FATIME, 31, 0⟩
/-- `FLT_MULTI` (15_fault_collection). -/
abbrev FLT_MULTI : Nat := 0x0828
abbrev FLT_MULTI_MULTICNT : Fld := ⟨FLT_MULTI, 7, 0⟩
/-- `FLT_CFG` (15_fault_collection). -/
abbrev FLT_CFG : Nat := 0x082C
abbrev FLT_CFG_PULSEW : Fld := ⟨FLT_CFG, 31, 24⟩
abbrev FLT_CFG_PINCLASS : Fld := ⟨FLT_CFG, 21, 20⟩
abbrev FLT_CFG_GRACE : Fld := ⟨FLT_CFG, 19, 0⟩
/-- `FLT_AUTO_LO` (15_fault_collection). -/
abbrev FLT_AUTO_LO : Nat := 0x0830
abbrev FLT_AUTO_LO_A : Fld := ⟨FLT_AUTO_LO, 31, 0⟩
/-- `FLT_AUTO_HI` (15_fault_collection). -/
abbrev FLT_AUTO_HI : Nat := 0x0834
abbrev FLT_AUTO_HI_A : Fld := ⟨FLT_AUTO_HI, 31, 0⟩
/-- `FLT_PIN` (15_fault_collection). -/
abbrev FLT_PIN : Nat := 0x0838
abbrev FLT_PIN_HBRUN : Fld := ⟨FLT_PIN, 3, 3⟩
abbrev FLT_PIN_LOW : Fld := ⟨FLT_PIN, 2, 2⟩
abbrev FLT_PIN_RESUME : Fld := ⟨FLT_PIN, 1, 1⟩
abbrev FLT_PIN_DRIVE : Fld := ⟨FLT_PIN, 0, 0⟩
/-- `FLT_SELF` (15_fault_collection). -/
abbrev FLT_SELF : Nat := 0x083C
abbrev FLT_SELF_ERR : Fld := ⟨FLT_SELF, 31, 31⟩
abbrev FLT_SELF_SAFECLK : Fld := ⟨FLT_SELF, 30, 30⟩
abbrev FLT_SELF_WORD : Fld := ⟨FLT_SELF, 7, 0⟩
/-- `FLT_INJ` (15_fault_collection). -/
abbrev FLT_INJ : Nat := 0x0840
abbrev FLT_INJ_GO : Fld := ⟨FLT_INJ, 31, 31⟩
abbrev FLT_INJ_SRC : Fld := ⟨FLT_INJ, 5, 0⟩
/-- `FLT_CNTk` (15_fault_collection). -/
abbrev FLT_CNT (k : Nat) : Nat := 0x0880 + 0x4 * k
abbrev FLT_CNT_N0 (k : Nat) : Fld := ⟨FLT_CNT k, 7, 0⟩
abbrev FLT_CNT_N1 (k : Nat) : Fld := ⟨FLT_CNT k, 15, 8⟩
abbrev FLT_CNT_N2 (k : Nat) : Fld := ⟨FLT_CNT k, 23, 16⟩
abbrev FLT_CNT_N3 (k : Nat) : Fld := ⟨FLT_CNT k, 31, 24⟩

/-! ### Auth registers -/
/-- `AUTH_PRES` (16_authority_and_journal). -/
abbrev AUTH_PRES : Nat := 0x1000
abbrev AUTH_PRES_OPEN : Fld := ⟨AUTH_PRES, 31, 31⟩
abbrev AUTH_PRES_HELD : Fld := ⟨AUTH_PRES, 30, 30⟩
abbrev AUTH_PRES_REMAIN : Fld := ⟨AUTH_PRES, 23, 16⟩
abbrev AUTH_PRES_PRESSES : Fld := ⟨AUTH_PRES, 15, 8⟩
abbrev AUTH_PRES_CLOSE : Fld := ⟨AUTH_PRES, 0, 0⟩
/-- `AUTH_SEAL` (16_authority_and_journal). -/
abbrev AUTH_SEAL : Nat := 0x1004
abbrev AUTH_SEAL_INTACT : Fld := ⟨AUTH_SEAL, 31, 31⟩
abbrev AUTH_SEAL_TAMPER : Fld := ⟨AUTH_SEAL, 30, 30⟩
abbrev AUTH_SEAL_OPENS : Fld := ⟨AUTH_SEAL, 23, 16⟩
abbrev AUTH_SEAL_RLOOP : Fld := ⟨AUTH_SEAL, 15, 0⟩
/-- `AUTH_CFG` (16_authority_and_journal). -/
abbrev AUTH_CFG : Nat := 0x1008
abbrev AUTH_CFG_RMAX : Fld := ⟨AUTH_CFG, 31, 16⟩
abbrev AUTH_CFG_RMIN : Fld := ⟨AUTH_CFG, 15, 0⟩
/-- `AUTH_LAST` (16_authority_and_journal). -/
abbrev AUTH_LAST : Nat := 0x100C
abbrev AUTH_LAST_VALID : Fld := ⟨AUTH_LAST, 31, 31⟩
abbrev AUTH_LAST_REASON : Fld := ⟨AUTH_LAST, 30, 27⟩
abbrev AUTH_LAST_ORIGIN : Fld := ⟨AUTH_LAST, 26, 24⟩
abbrev AUTH_LAST_OPC : Fld := ⟨AUTH_LAST, 23, 16⟩
abbrev AUTH_LAST_OFFSET : Fld := ⟨AUTH_LAST, 15, 0⟩
/-- `AUTH_CNT` (16_authority_and_journal). -/
abbrev AUTH_CNT : Nat := 0x1010
abbrev AUTH_CNT_REFUSED : Fld := ⟨AUTH_CNT, 31, 16⟩
abbrev AUTH_CNT_GRANTED : Fld := ⟨AUTH_CNT, 15, 0⟩
/-- `JNL_CFG` (16_authority_and_journal). -/
abbrev JNL_CFG : Nat := 0x1400
abbrev JNL_CFG_WARN : Fld := ⟨JNL_CFG, 28, 16⟩
abbrev JNL_CFG_POLICY : Fld := ⟨JNL_CFG, 0, 0⟩
/-- `JNL_STAT` (16_authority_and_journal). -/
abbrev JNL_STAT : Nat := 0x1404
abbrev JNL_STAT_STALLED : Fld := ⟨JNL_STAT, 31, 31⟩
abbrev JNL_STAT_FULL : Fld := ⟨JNL_STAT, 30, 30⟩
abbrev JNL_STAT_OCC : Fld := ⟨JNL_STAT, 12, 0⟩
/-- `JNL_SEQ` (16_authority_and_journal). -/
abbrev JNL_SEQ : Nat := 0x1408
abbrev JNL_SEQ_E : Fld := ⟨JNL_SEQ, 31, 31⟩
abbrev JNL_SEQ_SEQ : Fld := ⟨JNL_SEQ, 30, 0⟩
/-- `JNL_OLDEST` (16_authority_and_journal). -/
abbrev JNL_OLDEST : Nat := 0x140C
abbrev JNL_OLDEST_E : Fld := ⟨JNL_OLDEST, 31, 31⟩
abbrev JNL_OLDEST_SEQ : Fld := ⟨JNL_OLDEST, 30, 0⟩
/-- `JNL_LOST` (16_authority_and_journal). -/
abbrev JNL_LOST : Nat := 0x1410
abbrev JNL_LOST_LOST : Fld := ⟨JNL_LOST, 31, 0⟩
/-- `JNL_EVT` (16_authority_and_journal). -/
abbrev JNL_EVT : Nat := 0x1414
abbrev JNL_EVT_SEAL : Fld := ⟨JNL_EVT, 5, 5⟩
abbrev JNL_EVT_PRES : Fld := ⟨JNL_EVT, 4, 4⟩
abbrev JNL_EVT_LOST : Fld := ⟨JNL_EVT, 3, 3⟩
abbrev JNL_EVT_STALLREF : Fld := ⟨JNL_EVT, 2, 2⟩
abbrev JNL_EVT_FULL : Fld := ⟨JNL_EVT, 1, 1⟩
abbrev JNL_EVT_WARN : Fld := ⟨JNL_EVT, 0, 0⟩
/-- `JNL_RDIDX` (16_authority_and_journal). -/
abbrev JNL_RDIDX : Nat := 0x1418
abbrev JNL_RDIDX_VALID : Fld := ⟨JNL_RDIDX, 31, 31⟩
abbrev JNL_RDIDX_IDX : Fld := ⟨JNL_RDIDX, 11, 0⟩
/-- `JNL_REL` (16_authority_and_journal). -/
abbrev JNL_REL : Nat := 0x141C
abbrev JNL_REL_N : Fld := ⟨JNL_REL, 12, 0⟩
/-- `JNL_WINk` (16_authority_and_journal). -/
abbrev JNL_WIN (k : Nat) : Nat := 0x1420 + 0x4 * k
abbrev JNL_WIN_W (k : Nat) : Fld := ⟨JNL_WIN k, 31, 0⟩

/-! ### Thm registers -/
/-- `THM_TSi` (12_thermal_management). -/
abbrev THM_TS (i : Nat) : Nat := 0x1800 + 0x4 * i
abbrev THM_TS_STATE (i : Nat) : Fld := ⟨THM_TS i, 31, 30⟩
abbrev THM_TS_DEV (i : Nat) : Fld := ⟨THM_TS i, 29, 24⟩
abbrev THM_TS_T (i : Nat) : Fld := ⟨THM_TS i, 15, 0⟩
/-- `THM_SUM` (12_thermal_management). -/
abbrev THM_SUM : Nat := 0x1824
abbrev THM_SUM_TJ : Fld := ⟨THM_SUM, 31, 24⟩
abbrev THM_SUM_TJA : Fld := ⟨THM_SUM, 23, 16⟩
abbrev THM_SUM_TJC : Fld := ⟨THM_SUM, 15, 8⟩
abbrev THM_SUM_PEAK : Fld := ⟨THM_SUM, 7, 0⟩
/-- `THM_STAT` (12_thermal_management). -/
abbrev THM_STAT : Nat := 0x1828
abbrev THM_STAT_LEVEL : Fld := ⟨THM_STAT, 31, 29⟩
abbrev THM_STAT_STOPPING : Fld := ⟨THM_STAT, 28, 28⟩
abbrev THM_STAT_TTRIP : Fld := ⟨THM_STAT, 23, 16⟩
abbrev THM_STAT_SKIPMAP : Fld := ⟨THM_STAT, 15, 0⟩
/-- `THM_EVT` (12_thermal_management). -/
abbrev THM_EVT : Nat := 0x182C
abbrev THM_EVT_STOP : Fld := ⟨THM_EVT, 7, 7⟩
abbrev THM_EVT_EXCL : Fld := ⟨THM_EVT, 6, 6⟩
abbrev THM_EVT_CAP : Fld := ⟨THM_EVT, 5, 5⟩
abbrev THM_EVT_CLK : Fld := ⟨THM_EVT, 4, 4⟩
abbrev THM_EVT_LEVEL : Fld := ⟨THM_EVT, 3, 3⟩
abbrev THM_EVT_STGINV : Fld := ⟨THM_EVT, 2, 2⟩
abbrev THM_EVT_NOXCHK : Fld := ⟨THM_EVT, 1, 1⟩
abbrev THM_EVT_SUSPECT : Fld := ⟨THM_EVT, 0, 0⟩
/-- `THM_CNT` (12_thermal_management). -/
abbrev THM_CNT : Nat := 0x1830
abbrev THM_CNT_CLKN : Fld := ⟨THM_CNT, 31, 16⟩
abbrev THM_CNT_CAPN : Fld := ⟨THM_CNT, 15, 8⟩
abbrev THM_CNT_SUSPN : Fld := ⟨THM_CNT, 7, 0⟩
/-- `THM_COMP` (12_thermal_management). -/
abbrev THM_COMP : Nat := 0x1834
abbrev THM_COMP_HOLD : Fld := ⟨THM_COMP, 31, 31⟩
abbrev THM_COMP_BG : Fld := ⟨THM_COMP, 23, 16⟩
abbrev THM_COMP_SAFE : Fld := ⟨THM_COMP, 15, 8⟩
abbrev THM_COMP_REF : Fld := ⟨THM_COMP, 7, 0⟩
/-- `THM_PKT` (12_thermal_management). -/
abbrev THM_PKT : Nat := 0x1838
abbrev THM_PKT_T0 : Fld := ⟨THM_PKT, 7, 0⟩
abbrev THM_PKT_T1 : Fld := ⟨THM_PKT, 15, 8⟩
abbrev THM_PKT_T2 : Fld := ⟨THM_PKT, 23, 16⟩
abbrev THM_PKT_T3 : Fld := ⟨THM_PKT, 31, 24⟩
/-- `THM_DIE` (12_thermal_management). -/
abbrev THM_DIE : Nat := 0x1840
abbrev THM_DIE_T4 : Fld := ⟨THM_DIE, 31, 24⟩
abbrev THM_DIE_T3 : Fld := ⟨THM_DIE, 23, 16⟩
abbrev THM_DIE_T2 : Fld := ⟨THM_DIE, 15, 8⟩
abbrev THM_DIE_T1 : Fld := ⟨THM_DIE, 7, 0⟩
/-- `THM_STOP` (12_thermal_management). -/
abbrev THM_STOP : Nat := 0x1844
abbrev THM_STOP_NARROW2 : Fld := ⟨THM_STOP, 31, 24⟩
abbrev THM_STOP_NARROW1 : Fld := ⟨THM_STOP, 23, 16⟩
abbrev THM_STOP_HYS : Fld := ⟨THM_STOP, 11, 8⟩
abbrev THM_STOP_TSTOP : Fld := ⟨THM_STOP, 7, 0⟩
/-- `THM_ACT` (12_thermal_management). -/
abbrev THM_ACT : Nat := 0x1848
abbrev THM_ACT_STGSKIPN : Fld := ⟨THM_ACT, 19, 16⟩
abbrev THM_ACT_SKIPN : Fld := ⟨THM_ACT, 15, 12⟩
abbrev THM_ACT_FCSEL : Fld := ⟨THM_ACT, 11, 10⟩
abbrev THM_ACT_CORESEL : Fld := ⟨THM_ACT, 9, 8⟩
abbrev THM_ACT_CHGDER : Fld := ⟨THM_ACT, 7, 0⟩
/-- `THM_STG` (12_thermal_management). -/
abbrev THM_STG : Nat := 0x184C
abbrev THM_STG_TSTG3 : Fld := ⟨THM_STG, 23, 16⟩
abbrev THM_STG_TSTG2 : Fld := ⟨THM_STG, 15, 8⟩
abbrev THM_STG_TSTG1 : Fld := ⟨THM_STG, 7, 0⟩
/-- `THM_PK` (12_thermal_management). -/
abbrev THM_PK : Nat := 0x1850
abbrev THM_PK_TPKD : Fld := ⟨THM_PK, 7, 0⟩
/-- `THM_NTC` (12_thermal_management). -/
abbrev THM_NTC : Nat := 0x1854
abbrev THM_NTC_BETA : Fld := ⟨THM_NTC, 31, 16⟩
abbrev THM_NTC_NOM : Fld := ⟨THM_NTC, 15, 8⟩
abbrev THM_NTC_PU : Fld := ⟨THM_NTC, 7, 0⟩

/-! ### Tmr registers -/
/-- `TMRn_CTL` (13_timers_and_device_time). -/
abbrev TMR_CTL (n : Nat) : Nat := 0x2000 + 0x40 * n
abbrev TMR_CTL_TRGO (n : Nat) : Fld := ⟨TMR_CTL n, 26, 24⟩
abbrev TMR_CTL_TRGSEL (n : Nat) : Fld := ⟨TMR_CTL n, 23, 19⟩
abbrev TMR_CTL_SMODE (n : Nat) : Fld := ⟨TMR_CTL n, 18, 16⟩
abbrev TMR_CTL_PSC (n : Nat) : Fld := ⟨TMR_CTL n, 15, 12⟩
abbrev TMR_CTL_OPM (n : Nat) : Fld := ⟨TMR_CTL n, 2, 2⟩
abbrev TMR_CTL_FREEZE (n : Nat) : Fld := ⟨TMR_CTL n, 1, 1⟩
abbrev TMR_CTL_EN (n : Nat) : Fld := ⟨TMR_CTL n, 0, 0⟩
/-- `TMRn_CNT` (13_timers_and_device_time). -/
abbrev TMR_CNT (n : Nat) : Nat := 0x2004 + 0x40 * n
abbrev TMR_CNT_CNT (n : Nat) : Fld := ⟨TMR_CNT n, 31, 0⟩
/-- `TMRn_TOP` (13_timers_and_device_time). -/
abbrev TMR_TOP (n : Nat) : Nat := 0x2008 + 0x40 * n
abbrev TMR_TOP_TOP (n : Nat) : Fld := ⟨TMR_TOP n, 31, 0⟩
/-- `TMRn_CCM` (13_timers_and_device_time). -/
abbrev TMR_CCM (n : Nat) : Nat := 0x200C + 0x40 * n
abbrev TMR_CCM_CAPSEL0 (n : Nat) : Fld := ⟨TMR_CCM n, 6, 2⟩
abbrev TMR_CCM_CAPSEL1 (n : Nat) : Fld := ⟨TMR_CCM n, 14, 10⟩
abbrev TMR_CCM_CAPSEL2 (n : Nat) : Fld := ⟨TMR_CCM n, 22, 18⟩
abbrev TMR_CCM_CAPSEL3 (n : Nat) : Fld := ⟨TMR_CCM n, 30, 26⟩
abbrev TMR_CCM_MODE0 (n : Nat) : Fld := ⟨TMR_CCM n, 1, 0⟩
abbrev TMR_CCM_MODE1 (n : Nat) : Fld := ⟨TMR_CCM n, 9, 8⟩
abbrev TMR_CCM_MODE2 (n : Nat) : Fld := ⟨TMR_CCM n, 17, 16⟩
abbrev TMR_CCM_MODE3 (n : Nat) : Fld := ⟨TMR_CCM n, 25, 24⟩
/-- `TMRn_CCRk` (13_timers_and_device_time). -/
abbrev TMR_CCR (n : Nat) (k : Nat) : Nat := 0x2010 + 0x40 * n + 0x4 * k
abbrev TMR_CCR_CCR (n : Nat) (k : Nat) : Fld := ⟨TMR_CCR n k, 31, 0⟩
/-- `TMRn_EVT` (13_timers_and_device_time). -/
abbrev TMR_EVT (n : Nat) : Nat := 0x2020 + 0x40 * n
abbrev TMR_EVT_CMPLAP (n : Nat) : Fld := ⟨TMR_EVT n, 16, 13⟩
abbrev TMR_EVT_CAPOVR (n : Nat) : Fld := ⟨TMR_EVT n, 12, 9⟩
abbrev TMR_EVT_CAP (n : Nat) : Fld := ⟨TMR_EVT n, 8, 5⟩
abbrev TMR_EVT_MATCH (n : Nat) : Fld := ⟨TMR_EVT n, 4, 1⟩
abbrev TMR_EVT_OVF (n : Nat) : Fld := ⟨TMR_EVT n, 0, 0⟩
/-- `TMRn_IEN` (13_timers_and_device_time). -/
abbrev TMR_IEN (n : Nat) : Nat := 0x2024 + 0x40 * n
abbrev TMR_IEN_IEN (n : Nat) : Fld := ⟨TMR_IEN n, 16, 0⟩
/-- `TMRn_STAT` (13_timers_and_device_time). -/
abbrev TMR_STAT (n : Nat) : Nat := 0x2028 + 0x40 * n
abbrev TMR_STAT_BLK (n : Nat) : Fld := ⟨TMR_STAT n, 13, 13⟩
abbrev TMR_STAT_RUN (n : Nat) : Fld := ⟨TMR_STAT n, 12, 12⟩
abbrev TMR_STAT_CAPNEW (n : Nat) : Fld := ⟨TMR_STAT n, 11, 8⟩
abbrev TMR_STAT_CAPN0 (n : Nat) : Fld := ⟨TMR_STAT n, 1, 0⟩
abbrev TMR_STAT_CAPN1 (n : Nat) : Fld := ⟨TMR_STAT n, 3, 2⟩
abbrev TMR_STAT_CAPN2 (n : Nat) : Fld := ⟨TMR_STAT n, 5, 4⟩
abbrev TMR_STAT_CAPN3 (n : Nat) : Fld := ⟨TMR_STAT n, 7, 6⟩
/-- `DEVTIME_EPOCH` (13_timers_and_device_time). -/
abbrev DEVTIME_EPOCH : Nat := 0x2408
abbrev DEVTIME_EPOCH_RECON : Fld := ⟨DEVTIME_EPOCH, 9, 8⟩
abbrev DEVTIME_EPOCH_EPOCH : Fld := ⟨DEVTIME_EPOCH, 7, 0⟩
/-- `DEVTIME_LO` (13_timers_and_device_time). -/
abbrev DEVTIME_LO : Nat := 0x2400
abbrev DEVTIME_LO_T : Fld := ⟨DEVTIME_LO, 31, 0⟩
/-- `DEVTIME_HI` (13_timers_and_device_time). -/
abbrev DEVTIME_HI : Nat := 0x2404
abbrev DEVTIME_HI_T : Fld := ⟨DEVTIME_HI, 23, 0⟩

/-! ### Mem registers -/
/-- `MEM_CFG` (14_memory_banks). -/
abbrev MEM_CFG : Nat := 0x2800
abbrev MEM_CFG_SCRUBPER : Fld := ⟨MEM_CFG, 15, 8⟩
abbrev MEM_CFG_SCRUBEN : Fld := ⟨MEM_CFG, 0, 0⟩
/-- `MEM_STAT` (14_memory_banks). -/
abbrev MEM_STAT : Nat := 0x2804
abbrev MEM_STAT_KEYS : Fld := ⟨MEM_STAT, 31, 31⟩
abbrev MEM_STAT_B0 : Fld := ⟨MEM_STAT, 3, 0⟩
abbrev MEM_STAT_B1 : Fld := ⟨MEM_STAT, 7, 4⟩
abbrev MEM_STAT_B2 : Fld := ⟨MEM_STAT, 11, 8⟩
abbrev MEM_STAT_B3 : Fld := ⟨MEM_STAT, 15, 12⟩
abbrev MEM_STAT_B4 : Fld := ⟨MEM_STAT, 19, 16⟩
/-- `MEM_EVT` (14_memory_banks). -/
abbrev MEM_EVT : Nat := 0x2808
abbrev MEM_EVT_PATROL : Fld := ⟨MEM_EVT, 16, 16⟩
abbrev MEM_EVT_WIPE : Fld := ⟨MEM_EVT, 15, 15⟩
abbrev MEM_EVT_GUARD : Fld := ⟨MEM_EVT, 14, 10⟩
abbrev MEM_EVT_UE : Fld := ⟨MEM_EVT, 9, 5⟩
abbrev MEM_EVT_CE : Fld := ⟨MEM_EVT, 4, 0⟩
/-- `MEM_CNTb` (14_memory_banks). -/
abbrev MEM_CNT (b : Nat) : Nat := 0x2810 + 0x4 * b
abbrev MEM_CNT_CE (b : Nat) : Fld := ⟨MEM_CNT b, 31, 16⟩
abbrev MEM_CNT_UE (b : Nat) : Fld := ⟨MEM_CNT b, 15, 8⟩
abbrev MEM_CNT_GUARD (b : Nat) : Fld := ⟨MEM_CNT b, 7, 0⟩
/-- `MEM_REPb` (14_memory_banks). -/
abbrev MEM_REP (b : Nat) : Nat := 0x2830 + 0x4 * b
abbrev MEM_REP_FAIL (b : Nat) : Fld := ⟨MEM_REP b, 8, 8⟩
abbrev MEM_REP_FUSE (b : Nat) : Fld := ⟨MEM_REP b, 7, 4⟩
abbrev MEM_REP_SOFT (b : Nat) : Fld := ⟨MEM_REP b, 3, 0⟩
/-- `MEM_UEADDR` (14_memory_banks). -/
abbrev MEM_UEADDR : Nat := 0x2850
abbrev MEM_UEADDR_VALID : Fld := ⟨MEM_UEADDR, 31, 31⟩
abbrev MEM_UEADDR_BANK : Fld := ⟨MEM_UEADDR, 30, 28⟩
abbrev MEM_UEADDR_LANE : Fld := ⟨MEM_UEADDR, 27, 26⟩
abbrev MEM_UEADDR_MASTER : Fld := ⟨MEM_UEADDR, 25, 24⟩
abbrev MEM_UEADDR_OFFSET : Fld := ⟨MEM_UEADDR, 18, 0⟩
/-- `MEM_WIPE` (14_memory_banks). -/
abbrev MEM_WIPE : Nat := 0x2854
abbrev MEM_WIPE_WIPES : Fld := ⟨MEM_WIPE, 31, 24⟩
abbrev MEM_WIPE_CAUSE : Fld := ⟨MEM_WIPE, 17, 16⟩
/-- `MEM_SCRUB` (14_memory_banks). -/
abbrev MEM_SCRUB : Nat := 0x2858
abbrev MEM_SCRUB_PASSES : Fld := ⟨MEM_SCRUB, 31, 16⟩

/-! ### Hif registers -/
/-- `HIFn_SQA_LO` (09_host_rings_and_doorbells). -/
abbrev HIF_SQA_LO (n : Nat) : Nat := 0x3000 + 0x20 * n
abbrev HIF_SQA_LO_ADDR (n : Nat) : Fld := ⟨HIF_SQA_LO n, 31, 0⟩
/-- `HIFn_SQA_HI` (09_host_rings_and_doorbells). -/
abbrev HIF_SQA_HI (n : Nat) : Nat := 0x3004 + 0x20 * n
abbrev HIF_SQA_HI_ADDR (n : Nat) : Fld := ⟨HIF_SQA_HI n, 31, 0⟩
/-- `HIFn_CQA_LO` (09_host_rings_and_doorbells). -/
abbrev HIF_CQA_LO (n : Nat) : Nat := 0x3008 + 0x20 * n
abbrev HIF_CQA_LO_ADDR (n : Nat) : Fld := ⟨HIF_CQA_LO n, 31, 0⟩
/-- `HIFn_CQA_HI` (09_host_rings_and_doorbells). -/
abbrev HIF_CQA_HI (n : Nat) : Nat := 0x300C + 0x20 * n
abbrev HIF_CQA_HI_ADDR (n : Nat) : Fld := ⟨HIF_CQA_HI n, 31, 0⟩
/-- `HIFn_CFG` (09_host_rings_and_doorbells). -/
abbrev HIF_CFG (n : Nat) : Nat := 0x3010 + 0x20 * n
abbrev HIF_CFG_ICNT (n : Nat) : Fld := ⟨HIF_CFG n, 31, 24⟩
abbrev HIF_CFG_ITIME (n : Nat) : Fld := ⟨HIF_CFG n, 23, 16⟩
abbrev HIF_CFG_VEC (n : Nat) : Fld := ⟨HIF_CFG n, 15, 10⟩
abbrev HIF_CFG_IEN (n : Nat) : Fld := ⟨HIF_CFG n, 9, 9⟩
abbrev HIF_CFG_EN (n : Nat) : Fld := ⟨HIF_CFG n, 8, 8⟩
abbrev HIF_CFG_CQSZ (n : Nat) : Fld := ⟨HIF_CFG n, 7, 4⟩
abbrev HIF_CFG_SQSZ (n : Nat) : Fld := ⟨HIF_CFG n, 3, 0⟩
/-- `HIFn_STAT` (09_host_rings_and_doorbells). -/
abbrev HIF_STAT (n : Nat) : Nat := 0x3014 + 0x20 * n
abbrev HIF_STAT_STATE (n : Nat) : Fld := ⟨HIF_STAT n, 31, 28⟩
abbrev HIF_STAT_ERR (n : Nat) : Fld := ⟨HIF_STAT n, 27, 24⟩
abbrev HIF_STAT_SQTAIL (n : Nat) : Fld := ⟨HIF_STAT n, 23, 12⟩
abbrev HIF_STAT_SQHEAD (n : Nat) : Fld := ⟨HIF_STAT n, 11, 0⟩
/-- `HIFn_CQP` (09_host_rings_and_doorbells). -/
abbrev HIF_CQP (n : Nat) : Nat := 0x3018 + 0x20 * n
abbrev HIF_CQP_PHASE (n : Nat) : Fld := ⟨HIF_CQP n, 31, 31⟩
abbrev HIF_CQP_CQHEAD (n : Nat) : Fld := ⟨HIF_CQP n, 27, 16⟩
abbrev HIF_CQP_CQTAIL (n : Nat) : Fld := ⟨HIF_CQP n, 11, 0⟩
/-- `HIFn_CNT` (09_host_rings_and_doorbells). -/
abbrev HIF_CNT (n : Nat) : Nat := 0x301C + 0x20 * n
abbrev HIF_CNT_PUSHUSE (n : Nat) : Fld := ⟨HIF_CNT n, 31, 16⟩
abbrev HIF_CNT_PUSHMISS (n : Nat) : Fld := ⟨HIF_CNT n, 15, 8⟩
abbrev HIF_CNT_DBDROP (n : Nat) : Fld := ⟨HIF_CNT n, 7, 0⟩
/-- `HIF_LNK` (09_host_rings_and_doorbells). -/
abbrev HIF_LNK : Nat := 0x3800
abbrev HIF_LNK_LINKUP : Fld := ⟨HIF_LNK, 31, 31⟩
abbrev HIF_LNK_SPEED : Fld := ⟨HIF_LNK, 30, 28⟩
abbrev HIF_LNK_L1 : Fld := ⟨HIF_LNK, 27, 27⟩
abbrev HIF_LNK_BME : Fld := ⟨HIF_LNK, 26, 26⟩
abbrev HIF_LNK_LINKDN : Fld := ⟨HIF_LNK, 15, 0⟩
/-- `HIF_TEL` (09_host_rings_and_doorbells). -/
abbrev HIF_TEL : Nat := 0x3804
abbrev HIF_TEL_TELPER : Fld := ⟨HIF_TEL, 31, 16⟩
abbrev HIF_TEL_CAPPER : Fld := ⟨HIF_TEL, 15, 8⟩
abbrev HIF_TEL_CLASS : Fld := ⟨HIF_TEL, 2, 0⟩
/-- `HIF_DMAERR` (09_host_rings_and_doorbells). -/
abbrev HIF_DMAERR : Nat := 0x3808
abbrev HIF_DMAERR_VALID : Fld := ⟨HIF_DMAERR, 31, 31⟩
abbrev HIF_DMAERR_KIND : Fld := ⟨HIF_DMAERR, 23, 16⟩
abbrev HIF_DMAERR_TYPE : Fld := ⟨HIF_DMAERR, 15, 8⟩
abbrev HIF_DMAERR_RING : Fld := ⟨HIF_DMAERR, 5, 0⟩
/-- `HIF_ISTAT` (09_host_rings_and_doorbells). -/
abbrev HIF_ISTAT : Nat := 0x380C
abbrev HIF_ISTAT_SRC : Fld := ⟨HIF_ISTAT, 15, 0⟩
/-- `HIF_IMAPs` (09_host_rings_and_doorbells). -/
abbrev HIF_IMAP (s : Nat) : Nat := 0x3840 + 0x4 * s
abbrev HIF_IMAP_EN (s : Nat) : Fld := ⟨HIF_IMAP s, 8, 8⟩
abbrev HIF_IMAP_VEC (s : Nat) : Fld := ⟨HIF_IMAP s, 5, 0⟩
/-- `MSIX_ADDR_LO` (09_host_rings_and_doorbells). -/
abbrev MSIX_ADDR_LO (v : Nat) : Nat := 0x3A00 + 0x10 * v
abbrev MSIX_ADDR_LO_A (v : Nat) : Fld := ⟨MSIX_ADDR_LO v, 31, 2⟩
/-- `MSIX_ADDR_HI` (09_host_rings_and_doorbells). -/
abbrev MSIX_ADDR_HI (v : Nat) : Nat := 0x3A04 + 0x10 * v
abbrev MSIX_ADDR_HI_A (v : Nat) : Fld := ⟨MSIX_ADDR_HI v, 31, 0⟩
/-- `MSIX_DATA` (09_host_rings_and_doorbells). -/
abbrev MSIX_DATA (v : Nat) : Nat := 0x3A08 + 0x10 * v
abbrev MSIX_DATA_D (v : Nat) : Fld := ⟨MSIX_DATA v, 31, 0⟩
/-- `MSIX_CTL` (09_host_rings_and_doorbells). -/
abbrev MSIX_CTL (v : Nat) : Nat := 0x3A0C + 0x10 * v
abbrev MSIX_CTL_MASK (v : Nat) : Fld := ⟨MSIX_CTL v, 0, 0⟩
/-- `MSIX_PBA_LO` (09_host_rings_and_doorbells). -/
abbrev MSIX_PBA_LO : Nat := 0x3E00
abbrev MSIX_PBA_LO_P : Fld := ⟨MSIX_PBA_LO, 31, 0⟩
/-- `MSIX_PBA_HI` (09_host_rings_and_doorbells). -/
abbrev MSIX_PBA_HI : Nat := 0x3E04
abbrev MSIX_PBA_HI_P : Fld := ⟨MSIX_PBA_HI, 31, 0⟩

/-! ### Feed registers -/
/-- `FEEDn_CFG` (04_feeds_and_power_path). -/
abbrev FEED_CFG (n : Nat) : Nat := 0x4000 + 0x100 * n
abbrev FEED_CFG_PRIO (n : Nat) : Fld := ⟨FEED_CFG n, 23, 22⟩
abbrev FEED_CFG_DEB (n : Nat) : Fld := ⟨FEED_CFG n, 21, 21⟩
abbrev FEED_CFG_SCRETRY (n : Nat) : Fld := ⟨FEED_CFG n, 20, 18⟩
abbrev FEED_CFG_VFWD (n : Nat) : Fld := ⟨FEED_CFG n, 15, 8⟩
abbrev FEED_CFG_EN (n : Nat) : Fld := ⟨FEED_CFG n, 0, 0⟩
/-- `FEEDn_WIN` (04_feeds_and_power_path). -/
abbrev FEED_WIN (n : Nat) : Nat := 0x4004 + 0x100 * n
abbrev FEED_WIN_UVTH (n : Nat) : Fld := ⟨FEED_WIN n, 25, 16⟩
abbrev FEED_WIN_OVTH (n : Nat) : Fld := ⟨FEED_WIN n, 9, 0⟩
/-- `FEEDn_LIM` (04_feeds_and_power_path). -/
abbrev FEED_LIM (n : Nat) : Nat := 0x4008 + 0x100 * n
abbrev FEED_LIM_SCMULT (n : Nat) : Fld := ⟨FEED_LIM n, 26, 24⟩
abbrev FEED_LIM_MANPCT (n : Nat) : Fld := ⟨FEED_LIM n, 22, 16⟩
abbrev FEED_LIM_ILIM (n : Nat) : Fld := ⟨FEED_LIM n, 11, 0⟩
/-- `FEEDn_SNS` (04_feeds_and_power_path). -/
abbrev FEED_SNS (n : Nat) : Nat := 0x400C + 0x100 * n
abbrev FEED_SNS_IREV (n : Nat) : Fld := ⟨FEED_SNS n, 31, 24⟩
abbrev FEED_SNS_RSNS (n : Nat) : Fld := ⟨FEED_SNS n, 15, 0⟩
/-- `FEEDn_INR` (04_feeds_and_power_path). -/
abbrev FEED_INR (n : Nat) : Nat := 0x4010 + 0x100 * n
abbrev FEED_INR_TMAX (n : Nat) : Fld := ⟨FEED_INR n, 31, 24⟩
abbrev FEED_INR_DVDT (n : Nat) : Fld := ⟨FEED_INR n, 7, 0⟩
/-- `FEEDn_DROOP` (04_feeds_and_power_path). -/
abbrev FEED_DROOP (n : Nat) : Nat := 0x4014 + 0x100 * n
abbrev FEED_DROOP_KNEE (n : Nat) : Fld := ⟨FEED_DROOP n, 23, 16⟩
abbrev FEED_DROOP_GAIN (n : Nat) : Fld := ⟨FEED_DROOP n, 11, 8⟩
abbrev FEED_DROOP_FLOOR (n : Nat) : Fld := ⟨FEED_DROOP n, 7, 0⟩
/-- `FEEDn_POLEk` (04_feeds_and_power_path). -/
abbrev FEED_POLE (n : Nat) (k : Nat) : Nat := 0x4014 + 0x100 * n + 0x4 * k
abbrev FEED_POLE_RTH (n : Nat) (k : Nat) : Fld := ⟨FEED_POLE n k, 31, 20⟩
abbrev FEED_POLE_TAU (n : Nat) (k : Nat) : Fld := ⟨FEED_POLE n k, 19, 0⟩
/-- `FEEDn_TML` (04_feeds_and_power_path). -/
abbrev FEED_TML (n : Nat) : Nat := 0x4024 + 0x100 * n
abbrev FEED_TML_RETRYMAX (n : Nat) : Fld := ⟨FEED_TML n, 23, 20⟩
abbrev FEED_TML_TRETRY (n : Nat) : Fld := ⟨FEED_TML n, 15, 8⟩
abbrev FEED_TML_TLIM (n : Nat) : Fld := ⟨FEED_TML n, 7, 0⟩
/-- `FEEDn_STAT` (04_feeds_and_power_path). -/
abbrev FEED_STAT (n : Nat) : Nat := 0x4040 + 0x100 * n
abbrev FEED_STAT_STATE (n : Nat) : Fld := ⟨FEED_STAT n, 31, 28⟩
abbrev FEED_STAT_HEALTH (n : Nat) : Fld := ⟨FEED_STAT n, 27, 26⟩
abbrev FEED_STAT_ACTIVE (n : Nat) : Fld := ⟨FEED_STAT n, 25, 25⟩
abbrev FEED_STAT_CLACT (n : Nat) : Fld := ⟨FEED_STAT n, 24, 24⟩
abbrev FEED_STAT_ORON (n : Nat) : Fld := ⟨FEED_STAT n, 23, 23⟩
abbrev FEED_STAT_HSON (n : Nat) : Fld := ⟨FEED_STAT n, 22, 22⟩
abbrev FEED_STAT_DERATE (n : Nat) : Fld := ⟨FEED_STAT n, 21, 21⟩
abbrev FEED_STAT_INRHALF (n : Nat) : Fld := ⟨FEED_STAT n, 20, 20⟩
abbrev FEED_STAT_RETRIES (n : Nat) : Fld := ⟨FEED_STAT n, 19, 16⟩
abbrev FEED_STAT_DTPEAK (n : Nat) : Fld := ⟨FEED_STAT n, 15, 8⟩
abbrev FEED_STAT_DT (n : Nat) : Fld := ⟨FEED_STAT n, 7, 0⟩
/-- `FEEDn_EVT` (04_feeds_and_power_path). -/
abbrev FEED_EVT (n : Nat) : Nat := 0x4044 + 0x100 * n
abbrev FEED_EVT_SCCLAMP (n : Nat) : Fld := ⟨FEED_EVT n, 7, 7⟩
abbrev FEED_EVT_CLAMPL (n : Nat) : Fld := ⟨FEED_EVT n, 6, 6⟩
abbrev FEED_EVT_TMAXE (n : Nat) : Fld := ⟨FEED_EVT n, 5, 5⟩
abbrev FEED_EVT_THERM (n : Nat) : Fld := ⟨FEED_EVT n, 4, 4⟩
abbrev FEED_EVT_SC (n : Nat) : Fld := ⟨FEED_EVT n, 3, 3⟩
abbrev FEED_EVT_REV (n : Nat) : Fld := ⟨FEED_EVT n, 2, 2⟩
abbrev FEED_EVT_OV (n : Nat) : Fld := ⟨FEED_EVT n, 1, 1⟩
abbrev FEED_EVT_UV (n : Nat) : Fld := ⟨FEED_EVT n, 0, 0⟩
/-- `FEEDn_MEAS` (04_feeds_and_power_path). -/
abbrev FEED_MEAS (n : Nat) : Nat := 0x4048 + 0x100 * n
abbrev FEED_MEAS_VFEED (n : Nat) : Fld := ⟨FEED_MEAS n, 31, 18⟩
abbrev FEED_MEAS_IFEED (n : Nat) : Fld := ⟨FEED_MEAS n, 13, 0⟩
/-- `FEEDn_EFF` (04_feeds_and_power_path). -/
abbrev FEED_EFF (n : Nat) : Nat := 0x404C + 0x100 * n
abbrev FEED_EFF_VFQ (n : Nat) : Fld := ⟨FEED_EFF n, 31, 18⟩
abbrev FEED_EFF_ILIM_EFF (n : Nat) : Fld := ⟨FEED_EFF n, 11, 0⟩
/-- `FEEDn_CNT` (04_feeds_and_power_path). -/
abbrev FEED_CNT (n : Nat) : Nat := 0x4050 + 0x100 * n
abbrev FEED_CNT_UVCNT (n : Nat) : Fld := ⟨FEED_CNT n, 31, 24⟩
abbrev FEED_CNT_REVCNT (n : Nat) : Fld := ⟨FEED_CNT n, 23, 16⟩
abbrev FEED_CNT_THCNT (n : Nat) : Fld := ⟨FEED_CNT n, 15, 8⟩
abbrev FEED_CNT_SCCNT (n : Nat) : Fld := ⟨FEED_CNT n, 7, 0⟩
/-- `FEED_SEL` (04_feeds_and_power_path). -/
abbrev FEED_SEL : Nat := 0x4800
abbrev FEED_SEL_DWELL : Fld := ⟨FEED_SEL, 23, 16⟩
abbrev FEED_SEL_MODE : Fld := ⟨FEED_SEL, 1, 0⟩
/-- `FEED_EJECT` (04_feeds_and_power_path). -/
abbrev FEED_EJECT : Nat := 0x4804
abbrev FEED_EJECT_EXHOLD : Fld := ⟨FEED_EJECT, 25, 16⟩
abbrev FEED_EJECT_EJDELAY : Fld := ⟨FEED_EJECT, 15, 8⟩
abbrev FEED_EJECT_ACT : Fld := ⟨FEED_EJECT, 0, 0⟩
/-- `FEED_GSTAT` (04_feeds_and_power_path). -/
abbrev FEED_GSTAT : Nat := 0x4808
abbrev FEED_GSTAT_HOLDRUN : Fld := ⟨FEED_GSTAT, 11, 11⟩
abbrev FEED_GSTAT_EXSTOP : Fld := ⟨FEED_GSTAT, 10, 10⟩
abbrev FEED_GSTAT_EJECT : Fld := ⟨FEED_GSTAT, 9, 9⟩
abbrev FEED_GSTAT_FEEDS_LOST : Fld := ⟨FEED_GSTAT, 8, 8⟩
abbrev FEED_GSTAT_QUAL : Fld := ⟨FEED_GSTAT, 7, 4⟩
abbrev FEED_GSTAT_ACTIVE : Fld := ⟨FEED_GSTAT, 3, 0⟩
/-- `FEED_LOCK` (04_feeds_and_power_path). -/
abbrev FEED_LOCK : Nat := 0x480C
abbrev FEED_LOCK_LOCK : Fld := ⟨FEED_LOCK, 0, 0⟩

/-! ### Ph registers -/
/-- `PHn_CFG` (05_phase_engine). -/
abbrev PH_CFG (n : Nat) : Nat := 0x5000 + 0x80 * n
abbrev PH_CFG_KSNS (n : Nat) : Fld := ⟨PH_CFG n, 31, 16⟩
abbrev PH_CFG_OCAUTO (n : Nat) : Fld := ⟨PH_CFG n, 4, 4⟩
abbrev PH_CFG_PORT (n : Nat) : Fld := ⟨PH_CFG n, 1, 0⟩
/-- `PHn_LIM` (05_phase_engine). -/
abbrev PH_LIM (n : Nat) : Nat := 0x5004 + 0x80 * n
abbrev PH_LIM_ILIMS (n : Nat) : Fld := ⟨PH_LIM n, 25, 16⟩
abbrev PH_LIM_ILIMF (n : Nat) : Fld := ⟨PH_LIM n, 9, 0⟩
/-- `PHn_STAT` (05_phase_engine). -/
abbrev PH_STAT (n : Nat) : Nat := 0x5010 + 0x80 * n
abbrev PH_STAT_STATE (n : Nat) : Fld := ⟨PH_STAT n, 31, 28⟩
abbrev PH_STAT_CAUSE (n : Nat) : Fld := ⟨PH_STAT n, 27, 24⟩
abbrev PH_STAT_FLCNT (n : Nat) : Fld := ⟨PH_STAT n, 23, 22⟩
abbrev PH_STAT_OCLN (n : Nat) : Fld := ⟨PH_STAT n, 21, 20⟩
abbrev PH_STAT_TSTAGE (n : Nat) : Fld := ⟨PH_STAT n, 15, 8⟩
/-- `PHn_EVT` (05_phase_engine). -/
abbrev PH_EVT (n : Nat) : Nat := 0x5014 + 0x80 * n
abbrev PH_EVT_DTSAT (n : Nat) : Fld := ⟨PH_EVT n, 6, 6⟩
abbrev PH_EVT_LRNSTALE (n : Nat) : Fld := ⟨PH_EVT n, 5, 5⟩
abbrev PH_EVT_STAGEF (n : Nat) : Fld := ⟨PH_EVT n, 4, 4⟩
abbrev PH_EVT_SENSE (n : Nat) : Fld := ⟨PH_EVT n, 3, 3⟩
abbrev PH_EVT_LOST (n : Nat) : Fld := ⟨PH_EVT n, 2, 2⟩
abbrev PH_EVT_SLOW (n : Nat) : Fld := ⟨PH_EVT n, 1, 1⟩
abbrev PH_EVT_OCL (n : Nat) : Fld := ⟨PH_EVT n, 0, 0⟩
/-- `PHn_MEAS` (05_phase_engine). -/
abbrev PH_MEAS (n : Nat) : Nat := 0x5018 + 0x80 * n
abbrev PH_MEAS_IAVG (n : Nat) : Fld := ⟨PH_MEAS n, 31, 16⟩
abbrev PH_MEAS_ICYC (n : Nat) : Fld := ⟨PH_MEAS n, 15, 0⟩
/-- `PHn_LRN` (05_phase_engine). -/
abbrev PH_LRN (n : Nat) : Nat := 0x501C + 0x80 * n
abbrev PH_LRN_LNH (n : Nat) : Fld := ⟨PH_LRN n, 31, 16⟩
abbrev PH_LRN_SE (n : Nat) : Fld := ⟨PH_LRN n, 15, 8⟩
abbrev PH_LRN_NVALID (n : Nat) : Fld := ⟨PH_LRN n, 7, 0⟩
/-- `PHn_DT` (05_phase_engine). -/
abbrev PH_DT (n : Nat) : Nat := 0x5020 + 0x80 * n
abbrev PH_DT_KLH (n : Nat) : Fld := ⟨PH_DT n, 31, 24⟩
abbrev PH_DT_KHL (n : Nat) : Fld := ⟨PH_DT n, 23, 16⟩
abbrev PH_DT_BLH (n : Nat) : Fld := ⟨PH_DT n, 15, 8⟩
abbrev PH_DT_BHL (n : Nat) : Fld := ⟨PH_DT n, 7, 0⟩
/-- `PHn_CNT` (05_phase_engine). -/
abbrev PH_CNT (n : Nat) : Nat := 0x5024 + 0x80 * n
abbrev PH_CNT_FLCYC (n : Nat) : Fld := ⟨PH_CNT n, 31, 16⟩
abbrev PH_CNT_MAXD (n : Nat) : Fld := ⟨PH_CNT n, 15, 8⟩
abbrev PH_CNT_OCLCNT (n : Nat) : Fld := ⟨PH_CNT n, 7, 0⟩

/-! ### Php registers -/
/-- `PHPk_TIME` (05_phase_engine). -/
abbrev PHP_TIME (k : Nat) : Nat := 0x5800 + 0x100 * k
abbrev PHP_TIME_PHOFS (k : Nat) : Fld := ⟨PHP_TIME k, 31, 24⟩
abbrev PHP_TIME_PERIOD (k : Nat) : Fld := ⟨PHP_TIME k, 16, 0⟩
/-- `PHPk_EDGE` (05_phase_engine). -/
abbrev PHP_EDGE (k : Nat) : Nat := 0x5804 + 0x100 * k
abbrev PHP_EDGE_DTMIN (k : Nat) : Fld := ⟨PHP_EDGE k, 31, 24⟩
abbrev PHP_EDGE_TWAKE (k : Nat) : Fld := ⟨PHP_EDGE k, 23, 16⟩
abbrev PHP_EDGE_TOFFMIN (k : Nat) : Fld := ⟨PHP_EDGE k, 15, 8⟩
abbrev PHP_EDGE_LEB (k : Nat) : Fld := ⟨PHP_EDGE k, 7, 0⟩
/-- `PHPk_MODE` (05_phase_engine). -/
abbrev PHP_MODE (k : Nat) : Nat := 0x5808 + 0x100 * k
abbrev PHP_MODE_HUALL (k : Nat) : Fld := ⟨PHP_MODE k, 19, 19⟩
abbrev PHP_MODE_SKIPEN (k : Nat) : Fld := ⟨PHP_MODE k, 18, 18⟩
abbrev PHP_MODE_DEEN (k : Nat) : Fld := ⟨PHP_MODE k, 17, 17⟩
abbrev PHP_MODE_SLOPEK (k : Nat) : Fld := ⟨PHP_MODE k, 13, 8⟩
abbrev PHP_MODE_DBB (k : Nat) : Fld := ⟨PHP_MODE k, 7, 0⟩
/-- `PHPk_INDL` (05_phase_engine). -/
abbrev PHP_INDL (k : Nat) : Nat := 0x580C + 0x100 * k
abbrev PHP_INDL_LMAX (k : Nat) : Fld := ⟨PHP_INDL k, 27, 16⟩
abbrev PHP_INDL_LMIN (k : Nat) : Fld := ⟨PHP_INDL k, 11, 0⟩
/-- `PHPk_LIGHT` (05_phase_engine). -/
abbrev PHP_LIGHT (k : Nat) : Nat := 0x5810 + 0x100 * k
abbrev PHP_LIGHT_IPKSKIP (k : Nat) : Fld := ⟨PHP_LIGHT k, 29, 20⟩
abbrev PHP_LIGHT_ISKIP (k : Nat) : Fld := ⟨PHP_LIGHT k, 19, 10⟩
abbrev PHP_LIGHT_IZC (k : Nat) : Fld := ⟨PHP_LIGHT k, 7, 0⟩
/-- `PHPk_SHED` (05_phase_engine). -/
abbrev PHP_SHED (k : Nat) : Nat := 0x5814 + 0x100 * k
abbrev PHP_SHED_DWELL (k : Nat) : Fld := ⟨PHP_SHED k, 31, 16⟩
abbrev PHP_SHED_NMAX (k : Nat) : Fld := ⟨PHP_SHED k, 12, 8⟩
abbrev PHP_SHED_NMIN (k : Nat) : Fld := ⟨PHP_SHED k, 4, 0⟩
/-- `PHPk_LIM` (05_phase_engine). -/
abbrev PHP_LIM (k : Nat) : Nat := 0x5818 + 0x100 * k
abbrev PHP_LIM_OCCOOL (k : Nat) : Fld := ⟨PHP_LIM k, 31, 24⟩
abbrev PHP_LIM_OVLD (k : Nat) : Fld := ⟨PHP_LIM k, 23, 16⟩
abbrev PHP_LIM_IPMAX (k : Nat) : Fld := ⟨PHP_LIM k, 11, 0⟩
/-- `PHPk_STAT` (05_phase_engine). -/
abbrev PHP_STAT (k : Nat) : Nat := 0x5820 + 0x100 * k
abbrev PHP_STAT_DIR (k : Nat) : Fld := ⟨PHP_STAT k, 31, 30⟩
abbrev PHP_STAT_MODE (k : Nat) : Fld := ⟨PHP_STAT k, 29, 28⟩
abbrev PHP_STAT_BLEND (k : Nat) : Fld := ⟨PHP_STAT k, 27, 24⟩
abbrev PHP_STAT_NACT (k : Nat) : Fld := ⟨PHP_STAT k, 20, 16⟩
abbrev PHP_STAT_NAVAIL (k : Nat) : Fld := ⟨PHP_STAT k, 12, 8⟩
abbrev PHP_STAT_NCAP (k : Nat) : Fld := ⟨PHP_STAT k, 4, 0⟩
/-- `PHPk_CMD` (05_phase_engine). -/
abbrev PHP_CMD (k : Nat) : Nat := 0x5824 + 0x100 * k
abbrev PHP_CMD_IPL (k : Nat) : Fld := ⟨PHP_CMD k, 27, 16⟩
abbrev PHP_CMD_IPORT (k : Nat) : Fld := ⟨PHP_CMD k, 11, 0⟩
/-- `PHPk_EVT` (05_phase_engine). -/
abbrev PHP_EVT (k : Nat) : Nat := 0x5828 + 0x100 * k
abbrev PHP_EVT_MAPERR (k : Nat) : Fld := ⟨PHP_EVT k, 4, 4⟩
abbrev PHP_EVT_CUT (k : Nat) : Fld := ⟨PHP_EVT k, 3, 3⟩
abbrev PHP_EVT_LIMSCALE (k : Nat) : Fld := ⟨PHP_EVT k, 2, 2⟩
abbrev PHP_EVT_DIRCHG (k : Nat) : Fld := ⟨PHP_EVT k, 1, 1⟩
abbrev PHP_EVT_MODECHG (k : Nat) : Fld := ⟨PHP_EVT k, 0, 0⟩
/-- `PHPk_CNT` (05_phase_engine). -/
abbrev PHP_CNT (k : Nat) : Nat := 0x582C + 0x100 * k
abbrev PHP_CNT_TRUNC (k : Nat) : Fld := ⟨PHP_CNT k, 31, 16⟩
abbrev PHP_CNT_SHEDS (k : Nat) : Fld := ⟨PHP_CNT k, 15, 8⟩
abbrev PHP_CNT_ADDS (k : Nat) : Fld := ⟨PHP_CNT k, 7, 0⟩
/-- `PHPk_MAPj` (05_phase_engine). -/
abbrev PHP_MAP (k : Nat) (j : Nat) : Nat := 0x583C + 0x100 * k + 0x4 * j
abbrev PHP_MAP_ADD (k : Nat) (j : Nat) : Fld := ⟨PHP_MAP k j, 31, 16⟩
abbrev PHP_MAP_SHED (k : Nat) (j : Nat) : Fld := ⟨PHP_MAP k j, 15, 0⟩
/-- `PH_SYNC` (05_phase_engine). -/
abbrev PH_SYNC : Nat := 0x5A00
abbrev PH_SYNC_FNOM : Fld := ⟨PH_SYNC, 23, 16⟩
abbrev PH_SYNC_DIV : Fld := ⟨PH_SYNC, 11, 8⟩
abbrev PH_SYNC_SOSEL : Fld := ⟨PH_SYNC, 5, 4⟩
abbrev PH_SYNC_P1SYNC : Fld := ⟨PH_SYNC, 1, 1⟩
abbrev PH_SYNC_EN : Fld := ⟨PH_SYNC, 0, 0⟩
/-- `PH_BUSOV` (05_phase_engine). -/
abbrev PH_BUSOV : Nat := 0x5A04
abbrev PH_BUSOV_OVMV : Fld := ⟨PH_BUSOV, 15, 8⟩
abbrev PH_BUSOV_OVEN : Fld := ⟨PH_BUSOV, 0, 0⟩
/-- `PH_VHOLD` (05_phase_engine). -/
abbrev PH_VHOLD : Nat := 0x5A08
abbrev PH_VHOLD_SLEW : Fld := ⟨PH_VHOLD, 22, 16⟩
abbrev PH_VHOLD_VTGT : Fld := ⟨PH_VHOLD, 12, 0⟩
/-- `PH_VREF` (05_phase_engine). -/
abbrev PH_VREF : Nat := 0x5A0C
abbrev PH_VREF_SLEWING : Fld := ⟨PH_VREF, 31, 31⟩
abbrev PH_VREF_VREF : Fld := ⟨PH_VREF, 19, 0⟩
/-- `PH_GSTAT` (05_phase_engine). -/
abbrev PH_GSTAT : Nat := 0x5A10
abbrev PH_GSTAT_SYNCRANGE : Fld := ⟨PH_GSTAT, 18, 18⟩
abbrev PH_GSTAT_SYNC_LOST : Fld := ⟨PH_GSTAT, 17, 17⟩
abbrev PH_GSTAT_SYNCLOCK : Fld := ⟨PH_GSTAT, 16, 16⟩
abbrev PH_GSTAT_RUNMAP : Fld := ⟨PH_GSTAT, 15, 0⟩
/-- `PH_PMAP` (05_phase_engine). -/
abbrev PH_PMAP : Nat := 0x5A14
abbrev PH_PMAP_PH0 : Fld := ⟨PH_PMAP, 1, 0⟩
abbrev PH_PMAP_PH1 : Fld := ⟨PH_PMAP, 3, 2⟩
abbrev PH_PMAP_PH2 : Fld := ⟨PH_PMAP, 5, 4⟩
abbrev PH_PMAP_PH3 : Fld := ⟨PH_PMAP, 7, 6⟩
abbrev PH_PMAP_PH4 : Fld := ⟨PH_PMAP, 9, 8⟩
abbrev PH_PMAP_PH5 : Fld := ⟨PH_PMAP, 11, 10⟩
abbrev PH_PMAP_PH6 : Fld := ⟨PH_PMAP, 13, 12⟩
abbrev PH_PMAP_PH7 : Fld := ⟨PH_PMAP, 15, 14⟩
abbrev PH_PMAP_PH8 : Fld := ⟨PH_PMAP, 17, 16⟩
abbrev PH_PMAP_PH9 : Fld := ⟨PH_PMAP, 19, 18⟩
abbrev PH_PMAP_PH10 : Fld := ⟨PH_PMAP, 21, 20⟩
abbrev PH_PMAP_PH11 : Fld := ⟨PH_PMAP, 23, 22⟩
abbrev PH_PMAP_PH12 : Fld := ⟨PH_PMAP, 25, 24⟩
abbrev PH_PMAP_PH13 : Fld := ⟨PH_PMAP, 27, 26⟩
abbrev PH_PMAP_PH14 : Fld := ⟨PH_PMAP, 29, 28⟩
abbrev PH_PMAP_PH15 : Fld := ⟨PH_PMAP, 31, 30⟩

/-! ### Chg registers -/
/-- `CHGk_CTL` (06_charging_holdup_gust). -/
abbrev CHG_CTL (k : Nat) : Nat := 0x6000 + 0x100 * k
abbrev CHG_CTL_HUREADY (k : Nat) : Fld := ⟨CHG_CTL k, 20, 16⟩
abbrev CHG_CTL_WGT (k : Nat) : Fld := ⟨CHG_CTL k, 15, 12⟩
abbrev CHG_CTL_CLR (k : Nat) : Fld := ⟨CHG_CTL k, 4, 4⟩
abbrev CHG_CTL_ARM (k : Nat) : Fld := ⟨CHG_CTL k, 1, 1⟩
abbrev CHG_CTL_EN (k : Nat) : Fld := ⟨CHG_CTL k, 0, 0⟩
/-- `CHGk_LIM` (06_charging_holdup_gust). -/
abbrev CHG_LIM (k : Nat) : Nat := 0x6004 + 0x100 * k
abbrev CHG_LIM_PCHGMAX (k : Nat) : Fld := ⟨CHG_LIM k, 24, 16⟩
/-- `CHGk_GUST` (06_charging_holdup_gust). -/
abbrev CHG_GUST (k : Nat) : Nat := 0x6008 + 0x100 * k
abbrev CHG_GUST_PGMAX (k : Nat) : Fld := ⟨CHG_GUST k, 31, 20⟩
abbrev CHG_GUST_GHOLD (k : Nat) : Fld := ⟨CHG_GUST k, 15, 8⟩
abbrev CHG_GUST_GFLOOR (k : Nat) : Fld := ⟨CHG_GUST k, 6, 0⟩
/-- `CHGk_STAT` (06_charging_holdup_gust). -/
abbrev CHG_STAT (k : Nat) : Nat := 0x6010 + 0x100 * k
abbrev CHG_STAT_STAGE (k : Nat) : Fld := ⟨CHG_STAT k, 31, 28⟩
abbrev CHG_STAT_ROLE (k : Nat) : Fld := ⟨CHG_STAT k, 27, 25⟩
abbrev CHG_STAT_PAUSED (k : Nat) : Fld := ⟨CHG_STAT k, 24, 24⟩
abbrev CHG_STAT_UNACAP (k : Nat) : Fld := ⟨CHG_STAT k, 23, 23⟩
abbrev CHG_STAT_HURDY (k : Nat) : Fld := ⟨CHG_STAT k, 22, 22⟩
abbrev CHG_STAT_GELIG (k : Nat) : Fld := ⟨CHG_STAT k, 21, 21⟩
abbrev CHG_STAT_PROFOK (k : Nat) : Fld := ⟨CHG_STAT k, 20, 20⟩
abbrev CHG_STAT_LIMSRC (k : Nat) : Fld := ⟨CHG_STAT k, 19, 16⟩
abbrev CHG_STAT_CHEM (k : Nat) : Fld := ⟨CHG_STAT k, 15, 8⟩
abbrev CHG_STAT_NCELL (k : Nat) : Fld := ⟨CHG_STAT k, 4, 0⟩
/-- `CHGk_CUR` (06_charging_holdup_gust). -/
abbrev CHG_CUR (k : Nat) : Nat := 0x6014 + 0x100 * k
abbrev CHG_CUR_ITGT (k : Nat) : Fld := ⟨CHG_CUR k, 31, 16⟩
abbrev CHG_CUR_IPB (k : Nat) : Fld := ⟨CHG_CUR k, 15, 0⟩
/-- `CHGk_PWR` (06_charging_holdup_gust). -/
abbrev CHG_PWR (k : Nat) : Nat := 0x6018 + 0x100 * k
abbrev CHG_PWR_PYIELD (k : Nat) : Fld := ⟨CHG_PWR k, 31, 16⟩
abbrev CHG_PWR_PCHGREQ (k : Nat) : Fld := ⟨CHG_PWR k, 15, 0⟩
/-- `CHGk_DPWR` (06_charging_holdup_gust). -/
abbrev CHG_DPWR (k : Nat) : Nat := 0x601C + 0x100 * k
abbrev CHG_DPWR_POUT (k : Nat) : Fld := ⟨CHG_DPWR k, 15, 0⟩
/-- `CHGk_ZRE` (06_charging_holdup_gust). -/
abbrev CHG_ZRE (k : Nat) : Nat := 0x6020 + 0x100 * k
abbrev CHG_ZRE_Z (k : Nat) : Fld := ⟨CHG_ZRE k, 31, 0⟩
/-- `CHGk_ZIM` (06_charging_holdup_gust). -/
abbrev CHG_ZIM (k : Nat) : Nat := 0x6024 + 0x100 * k
abbrev CHG_ZIM_Z (k : Nat) : Fld := ⟨CHG_ZIM k, 31, 0⟩
/-- `CHGk_ZINFO` (06_charging_holdup_gust). -/
abbrev CHG_ZINFO (k : Nat) : Nat := 0x6028 + 0x100 * k
abbrev CHG_ZINFO_ZVALID (k : Nat) : Fld := ⟨CHG_ZINFO k, 31, 31⟩
abbrev CHG_ZINFO_CRESTUSE (k : Nat) : Fld := ⟨CHG_ZINFO k, 30, 30⟩
abbrev CHG_ZINFO_LOWAMP (k : Nat) : Fld := ⟨CHG_ZINFO k, 29, 29⟩
abbrev CHG_ZINFO_CLIP (k : Nat) : Fld := ⟨CHG_ZINFO k, 28, 28⟩
abbrev CHG_ZINFO_SUSPECT (k : Nat) : Fld := ⟨CHG_ZINFO k, 27, 27⟩
abbrev CHG_ZINFO_SSTATE (k : Nat) : Fld := ⟨CHG_ZINFO k, 26, 24⟩
abbrev CHG_ZINFO_TZ (k : Nat) : Fld := ⟨CHG_ZINFO k, 23, 16⟩
abbrev CHG_ZINFO_AGE (k : Nat) : Fld := ⟨CHG_ZINFO k, 15, 0⟩
/-- `CHGk_ZFREQ` (06_charging_holdup_gust). -/
abbrev CHG_ZFREQ (k : Nat) : Nat := 0x602C + 0x100 * k
abbrev CHG_ZFREQ_FREQ (k : Nat) : Fld := ⟨CHG_ZFREQ k, 17, 0⟩
/-- `CHGk_EVT` (06_charging_holdup_gust). -/
abbrev CHG_EVT (k : Nat) : Nat := 0x6030 + 0x100 * k
abbrev CHG_EVT_HULOW (k : Nat) : Fld := ⟨CHG_EVT k, 9, 9⟩
abbrev CHG_EVT_SNDABORT (k : Nat) : Fld := ⟨CHG_EVT k, 8, 8⟩
abbrev CHG_EVT_PROFREJ (k : Nat) : Fld := ⟨CHG_EVT k, 7, 7⟩
abbrev CHG_EVT_HUCUT (k : Nat) : Fld := ⟨CHG_EVT k, 6, 6⟩
abbrev CHG_EVT_GFLOOR (k : Nat) : Fld := ⟨CHG_EVT k, 5, 5⟩
abbrev CHG_EVT_STARVE (k : Nat) : Fld := ⟨CHG_EVT k, 4, 4⟩
abbrev CHG_EVT_TEMP (k : Nat) : Fld := ⟨CHG_EVT k, 3, 3⟩
abbrev CHG_EVT_CVTO (k : Nat) : Fld := ⟨CHG_EVT k, 2, 2⟩
abbrev CHG_EVT_CCTO (k : Nat) : Fld := ⟨CHG_EVT k, 1, 1⟩
abbrev CHG_EVT_PRETO (k : Nat) : Fld := ⟨CHG_EVT k, 0, 0⟩
/-- `CHGk_TIME` (06_charging_holdup_gust). -/
abbrev CHG_TIME (k : Nat) : Nat := 0x6034 + 0x100 * k
abbrev CHG_TIME_TSTAGE (k : Nat) : Fld := ⟨CHG_TIME k, 31, 16⟩
abbrev CHG_TIME_TPAUSE (k : Nat) : Fld := ⟨CHG_TIME k, 15, 0⟩
/-- `CHGk_CNT` (06_charging_holdup_gust). -/
abbrev CHG_CNT (k : Nat) : Nat := 0x6038 + 0x100 * k
abbrev CHG_CNT_GUSTN (k : Nat) : Fld := ⟨CHG_CNT k, 31, 16⟩
abbrev CHG_CNT_HUN (k : Nat) : Fld := ⟨CHG_CNT k, 15, 8⟩
abbrev CHG_CNT_PAUSEN (k : Nat) : Fld := ⟨CHG_CNT k, 7, 0⟩
/-- `CHG_HU` (06_charging_holdup_gust). -/
abbrev CHG_HU : Nat := 0x6200
abbrev CHG_HU_KI : Fld := ⟨CHG_HU, 31, 16⟩
abbrev CHG_HU_KP : Fld := ⟨CHG_HU, 9, 0⟩
/-- `CHG_HB` (06_charging_holdup_gust). -/
abbrev CHG_HB : Nat := 0x6204
abbrev CHG_HB_HULOW : Fld := ⟨CHG_HB, 31, 24⟩
abbrev CHG_HB_HBSLEW : Fld := ⟨CHG_HB, 15, 8⟩
abbrev CHG_HB_HBMARG : Fld := ⟨CHG_HB, 7, 0⟩
/-- `CHG_FL` (06_charging_holdup_gust). -/
abbrev CHG_FL : Nat := 0x6208
abbrev CHG_FL_STARVE : Fld := ⟨CHG_FL, 31, 24⟩
abbrev CHG_FL_GRAMP : Fld := ⟨CHG_FL, 23, 16⟩
abbrev CHG_FL_KFL : Fld := ⟨CHG_FL, 4, 0⟩
/-- `CHG_GSTAT` (06_charging_holdup_gust). -/
abbrev CHG_GSTAT : Nat := 0x620C
abbrev CHG_GSTAT_PFL : Fld := ⟨CHG_GSTAT, 31, 16⟩
abbrev CHG_GSTAT_HULOWACT : Fld := ⟨CHG_GSTAT, 9, 9⟩
abbrev CHG_GSTAT_HBRUN : Fld := ⟨CHG_GSTAT, 8, 8⟩
abbrev CHG_GSTAT_HURUN : Fld := ⟨CHG_GSTAT, 7, 7⟩
abbrev CHG_GSTAT_GUSTRUN : Fld := ⟨CHG_GSTAT, 6, 6⟩
/-- `CHG_GALLOW` (06_charging_holdup_gust). -/
abbrev CHG_GALLOW : Nat := 0x6210
abbrev CHG_GALLOW_GALLOW : Fld := ⟨CHG_GALLOW, 15, 0⟩
/-- `CHG_PLOAD` (06_charging_holdup_gust). -/
abbrev CHG_PLOAD : Nat := 0x6214
abbrev CHG_PLOAD_RESULT : Fld := ⟨CHG_PLOAD, 23, 16⟩
abbrev CHG_PLOAD_PORT : Fld := ⟨CHG_PLOAD, 1, 1⟩
abbrev CHG_PLOAD_GO : Fld := ⟨CHG_PLOAD, 0, 0⟩
/-- `CHG_PSTAGE` (06_charging_holdup_gust). -/
abbrev CHG_PSTAGE (i : Nat) : Nat := 0x6280 + 0x4 * i
abbrev CHG_PSTAGE_DATA (i : Nat) : Fld := ⟨CHG_PSTAGE i, 31, 0⟩

/-! ### Pk registers -/
/-- `PKn_CFG` (07_packs_and_identity). -/
abbrev PK_CFG (n : Nat) : Nat := 0x6400 + 0x100 * n
abbrev PK_CFG_REAUTH (n : Nat) : Fld := ⟨PK_CFG n, 31, 24⟩
abbrev PK_CFG_CLR (n : Nat) : Fld := ⟨PK_CFG n, 17, 17⟩
abbrev PK_CFG_AUTHDIS (n : Nat) : Fld := ⟨PK_CFG n, 16, 16⟩
abbrev PK_CFG_RPK (n : Nat) : Fld := ⟨PK_CFG n, 15, 0⟩
/-- `PKn_PROT` (07_packs_and_identity). -/
abbrev PK_PROT (n : Nat) : Nat := 0x6404 + 0x100 * n
abbrev PK_PROT_ICHOC (n : Nat) : Fld := ⟨PK_PROT n, 27, 16⟩
abbrev PK_PROT_ISCD (n : Nat) : Fld := ⟨PK_PROT n, 11, 0⟩
/-- `PKn_LIM` (07_packs_and_identity). -/
abbrev PK_LIM (n : Nat) : Nat := 0x6408 + 0x100 * n
abbrev PK_LIM_TEXP (n : Nat) : Fld := ⟨PK_LIM n, 31, 24⟩
abbrev PK_LIM_THARD (n : Nat) : Fld := ⟨PK_LIM n, 23, 16⟩
abbrev PK_LIM_ICHG (n : Nat) : Fld := ⟨PK_LIM n, 11, 0⟩
/-- `PKn_HW` (07_packs_and_identity). -/
abbrev PK_HW (n : Nat) : Nat := 0x640C + 0x100 * n
abbrev PK_HW_PCLOSET (n : Nat) : Fld := ⟨PK_HW n, 31, 24⟩
abbrev PK_HW_PDVDT (n : Nat) : Fld := ⟨PK_HW n, 23, 16⟩
abbrev PK_HW_UVPCT (n : Nat) : Fld := ⟨PK_HW n, 15, 8⟩
abbrev PK_HW_OVPCT (n : Nat) : Fld := ⟨PK_HW n, 7, 0⟩
/-- `PKn_WORN` (07_packs_and_identity). -/
abbrev PK_WORN (n : Nat) : Nat := 0x6410 + 0x100 * n
abbrev PK_WORN_WORNDER (n : Nat) : Fld := ⟨PK_WORN n, 31, 24⟩
abbrev PK_WORN_WORNSOH (n : Nat) : Fld := ⟨PK_WORN n, 23, 16⟩
abbrev PK_WORN_WORNCYC (n : Nat) : Fld := ⟨PK_WORN n, 15, 0⟩
/-- `PKn_WB` (07_packs_and_identity). -/
abbrev PK_WB (n : Nat) : Nat := 0x6414 + 0x100 * n
abbrev PK_WB_WORNAGE (n : Nat) : Fld := ⟨PK_WB n, 31, 16⟩
abbrev PK_WB_WBINT (n : Nat) : Fld := ⟨PK_WB n, 7, 0⟩
/-- `PKn_STAT` (07_packs_and_identity). -/
abbrev PK_STAT (n : Nat) : Nat := 0x6440 + 0x100 * n
abbrev PK_STAT_STATE (n : Nat) : Fld := ⟨PK_STAT n, 31, 28⟩
abbrev PK_STAT_AUTH (n : Nat) : Fld := ⟨PK_STAT n, 27, 24⟩
abbrev PK_STAT_WORN (n : Nat) : Fld := ⟨PK_STAT n, 23, 23⟩
abbrev PK_STAT_PRES (n : Nat) : Fld := ⟨PK_STAT n, 22, 22⟩
abbrev PK_STAT_CHGON (n : Nat) : Fld := ⟨PK_STAT n, 21, 21⟩
abbrev PK_STAT_DSGON (n : Nat) : Fld := ⟨PK_STAT n, 20, 20⟩
abbrev PK_STAT_DSGPERM (n : Nat) : Fld := ⟨PK_STAT n, 19, 19⟩
abbrev PK_STAT_GPERM (n : Nat) : Fld := ⟨PK_STAT n, 18, 18⟩
abbrev PK_STAT_SOCSRC (n : Nat) : Fld := ⟨PK_STAT n, 17, 16⟩
abbrev PK_STAT_SOC (n : Nat) : Fld := ⟨PK_STAT n, 15, 0⟩
/-- `PKn_EVT` (07_packs_and_identity). -/
abbrev PK_EVT (n : Nat) : Nat := 0x6444 + 0x100 * n
abbrev PK_EVT_REM (n : Nat) : Fld := ⟨PK_EVT n, 11, 11⟩
abbrev PK_EVT_NOTEMP (n : Nat) : Fld := ⟨PK_EVT n, 10, 10⟩
abbrev PK_EVT_LIFEWB (n : Nat) : Fld := ⟨PK_EVT n, 9, 9⟩
abbrev PK_EVT_LIFEMIS (n : Nat) : Fld := ⟨PK_EVT n, 8, 8⟩
abbrev PK_EVT_AUTHF (n : Nat) : Fld := ⟨PK_EVT n, 7, 7⟩
abbrev PK_EVT_DEAD (n : Nat) : Fld := ⟨PK_EVT n, 6, 6⟩
abbrev PK_EVT_CLOSEF (n : Nat) : Fld := ⟨PK_EVT n, 5, 5⟩
abbrev PK_EVT_OT (n : Nat) : Fld := ⟨PK_EVT n, 4, 4⟩
abbrev PK_EVT_UV (n : Nat) : Fld := ⟨PK_EVT n, 3, 3⟩
abbrev PK_EVT_OV (n : Nat) : Fld := ⟨PK_EVT n, 2, 2⟩
abbrev PK_EVT_OCC (n : Nat) : Fld := ⟨PK_EVT n, 1, 1⟩
abbrev PK_EVT_SC (n : Nat) : Fld := ⟨PK_EVT n, 0, 0⟩
/-- `PKn_IDk` (07_packs_and_identity). -/
abbrev PK_ID (n : Nat) (k : Nat) : Nat := 0x6450 + 0x100 * n + 0x4 * k
abbrev PK_ID_ID (n : Nat) (k : Nat) : Fld := ⟨PK_ID n k, 31, 0⟩
/-- `PKn_CTR` (07_packs_and_identity). -/
abbrev PK_CTR (n : Nat) : Nat := 0x6460 + 0x100 * n
abbrev PK_CTR_CTR (n : Nat) : Fld := ⟨PK_CTR n, 31, 0⟩
/-- `PKn_I` (07_packs_and_identity). -/
abbrev PK_I (n : Nat) : Nat := 0x6464 + 0x100 * n
abbrev PK_I_I (n : Nat) : Fld := ⟨PK_I n, 31, 0⟩
/-- `PKn_Q_LO` (07_packs_and_identity). -/
abbrev PK_Q_LO (n : Nat) : Nat := 0x6468 + 0x100 * n
abbrev PK_Q_LO_Q (n : Nat) : Fld := ⟨PK_Q_LO n, 31, 0⟩
/-- `PKn_Q_HI` (07_packs_and_identity). -/
abbrev PK_Q_HI (n : Nat) : Nat := 0x646C + 0x100 * n
abbrev PK_Q_HI_Q (n : Nat) : Fld := ⟨PK_Q_HI n, 31, 0⟩
/-- `PKn_FCC` (07_packs_and_identity). -/
abbrev PK_FCC (n : Nat) : Nat := 0x6470 + 0x100 * n
abbrev PK_FCC_SOH (n : Nat) : Fld := ⟨PK_FCC n, 23, 16⟩
abbrev PK_FCC_FCC (n : Nat) : Fld := ⟨PK_FCC n, 15, 0⟩
/-- `PKn_QOUT` (07_packs_and_identity). -/
abbrev PK_QOUT (n : Nat) : Nat := 0x6474 + 0x100 * n
abbrev PK_QOUT_VALUE (n : Nat) : Fld := ⟨PK_QOUT n, 31, 0⟩
/-- `PKn_EFC` (07_packs_and_identity). -/
abbrev PK_EFC (n : Nat) : Nat := 0x6478 + 0x100 * n
abbrev PK_EFC_VALUE (n : Nat) : Fld := ⟨PK_EFC n, 31, 0⟩
/-- `PKn_AGE` (07_packs_and_identity). -/
abbrev PK_AGE (n : Nat) : Nat := 0x647C + 0x100 * n
abbrev PK_AGE_TEXPH (n : Nat) : Fld := ⟨PK_AGE n, 31, 16⟩
abbrev PK_AGE_AGE (n : Nat) : Fld := ⟨PK_AGE n, 15, 0⟩
/-- `PKn_TPK` (07_packs_and_identity). -/
abbrev PK_TPK (n : Nat) : Nat := 0x6480 + 0x100 * n
abbrev PK_TPK_LSAT (n : Nat) : Fld := ⟨PK_TPK n, 31, 31⟩
abbrev PK_TPK_TPEAK (n : Nat) : Fld := ⟨PK_TPK n, 7, 0⟩
/-- `PK_SHIP` (07_packs_and_identity). -/
abbrev PK_SHIP : Nat := 0x64F0
abbrev PK_SHIP_CONFIRM : Fld := ⟨PK_SHIP, 31, 24⟩
abbrev PK_SHIP_SHIPCUT : Fld := ⟨PK_SHIP, 23, 16⟩
abbrev PK_SHIP_FWAKE : Fld := ⟨PK_SHIP, 15, 8⟩
abbrev PK_SHIP_PWEN : Fld := ⟨PK_SHIP, 1, 1⟩
abbrev PK_SHIP_ARM : Fld := ⟨PK_SHIP, 0, 0⟩

/-! ### Fc registers -/
/-- `FC_CFG` (08_forecast_scheduler). -/
abbrev FC_CFG : Nat := 0x7000
abbrev FC_CFG_FDERATE : Fld := ⟨FC_CFG, 31, 24⟩
abbrev FC_CFG_DEGPCT : Fld := ⟨FC_CFG, 23, 16⟩
abbrev FC_CFG_GRPCT : Fld := ⟨FC_CFG, 15, 8⟩
abbrev FC_CFG_HUPCT : Fld := ⟨FC_CFG, 7, 0⟩
/-- `FC_BASE` (08_forecast_scheduler). -/
abbrev FC_BASE : Nat := 0x7004
abbrev FC_BASE_BASEMIN : Fld := ⟨FC_BASE, 31, 16⟩
abbrev FC_BASE_BASETAU : Fld := ⟨FC_BASE, 15, 8⟩
/-- `FC_CHG` (08_forecast_scheduler). -/
abbrev FC_CHG : Nat := 0x7008
abbrev FC_CHG_CHGKEEP : Fld := ⟨FC_CHG, 31, 16⟩
abbrev FC_CHG_GMARG : Fld := ⟨FC_CHG, 15, 0⟩
/-- `FC_ENF` (08_forecast_scheduler). -/
abbrev FC_ENF : Nat := 0x700C
abbrev FC_ENF_ENFWIN : Fld := ⟨FC_ENF, 31, 22⟩
abbrev FC_ENF_ENFMARG : Fld := ⟨FC_ENF, 15, 0⟩
/-- `FC_HOR` (08_forecast_scheduler). -/
abbrev FC_HOR : Nat := 0x7010
abbrev FC_HOR_HUHOR : Fld := ⟨FC_HOR, 31, 20⟩
abbrev FC_HOR_THRMIN : Fld := ⟨FC_HOR, 15, 8⟩
abbrev FC_HOR_SHOR : Fld := ⟨FC_HOR, 7, 0⟩
/-- `FC_BAND` (08_forecast_scheduler). -/
abbrev FC_BAND : Nat := 0x7014
abbrev FC_BAND_BANDPCT3 : Fld := ⟨FC_BAND, 31, 24⟩
abbrev FC_BAND_BANDPCT2 : Fld := ⟨FC_BAND, 23, 16⟩
abbrev FC_BAND_BANDPCT1 : Fld := ⟨FC_BAND, 15, 8⟩
abbrev FC_BAND_BANDPCT0 : Fld := ⟨FC_BAND, 7, 0⟩
/-- `FC_CTL` (08_forecast_scheduler). -/
abbrev FC_CTL : Nat := 0x7018
abbrev FC_CTL_WBPER : Fld := ⟨FC_CTL, 31, 24⟩
abbrev FC_CTL_DEFHINT : Fld := ⟨FC_CTL, 23, 16⟩
abbrev FC_CTL_LDTHR : Fld := ⟨FC_CTL, 3, 3⟩
abbrev FC_CTL_HUBAND : Fld := ⟨FC_CTL, 1, 0⟩
/-- `FC_SPOL0` (08_forecast_scheduler). -/
abbrev FC_SPOL0 : Nat := 0x7020
abbrev FC_SPOL0_SPCT0 : Fld := ⟨FC_SPOL0, 7, 0⟩
abbrev FC_SPOL0_SPCT1 : Fld := ⟨FC_SPOL0, 15, 8⟩
abbrev FC_SPOL0_SPCT2 : Fld := ⟨FC_SPOL0, 23, 16⟩
abbrev FC_SPOL0_SPCT3 : Fld := ⟨FC_SPOL0, 31, 24⟩
/-- `FC_SPOL1` (08_forecast_scheduler). -/
abbrev FC_SPOL1 : Nat := 0x7024
abbrev FC_SPOL1_SPCT0 : Fld := ⟨FC_SPOL1, 7, 0⟩
abbrev FC_SPOL1_SPCT1 : Fld := ⟨FC_SPOL1, 15, 8⟩
abbrev FC_SPOL1_SPCT2 : Fld := ⟨FC_SPOL1, 23, 16⟩
abbrev FC_SPOL1_SPCT3 : Fld := ⟨FC_SPOL1, 31, 24⟩
/-- `FC_SGUST` (08_forecast_scheduler). -/
abbrev FC_SGUST : Nat := 0x7028
abbrev FC_SGUST_SGALLOW : Fld := ⟨FC_SGUST, 15, 0⟩
/-- `FC_STAT` (08_forecast_scheduler). -/
abbrev FC_STAT : Nat := 0x7050
abbrev FC_STAT_STATIC : Fld := ⟨FC_STAT, 31, 31⟩
abbrev FC_STAT_OVERRUN : Fld := ⟨FC_STAT, 30, 30⟩
abbrev FC_STAT_SHORT : Fld := ⟨FC_STAT, 29, 29⟩
abbrev FC_STAT_HOLD : Fld := ⟨FC_STAT, 28, 28⟩
abbrev FC_STAT_LIVE : Fld := ⟨FC_STAT, 12, 0⟩
/-- `FC_EVT` (08_forecast_scheduler). -/
abbrev FC_EVT : Nat := 0x7054
abbrev FC_EVT_NOTLOST : Fld := ⟨FC_EVT, 5, 5⟩
abbrev FC_EVT_ZSTALE : Fld := ⟨FC_EVT, 4, 4⟩
abbrev FC_EVT_REVXOVR : Fld := ⟨FC_EVT, 3, 3⟩
abbrev FC_EVT_WBLATE : Fld := ⟨FC_EVT, 2, 2⟩
abbrev FC_EVT_ACCLOST : Fld := ⟨FC_EVT, 1, 1⟩
abbrev FC_EVT_CACHEFULL : Fld := ⟨FC_EVT, 0, 0⟩
/-- `FC_CNT` (08_forecast_scheduler). -/
abbrev FC_CNT : Nat := 0x7058
abbrev FC_CNT_REVOKES : Fld := ⟨FC_CNT, 31, 16⟩
abbrev FC_CNT_THROTTLES : Fld := ⟨FC_CNT, 15, 8⟩
abbrev FC_CNT_ACCLOST : Fld := ⟨FC_CNT, 7, 0⟩
/-- `FC_RATE` (08_forecast_scheduler). -/
abbrev FC_RATE : Nat := 0x705C
abbrev FC_RATE_DEC : Fld := ⟨FC_RATE, 31, 16⟩
abbrev FC_RATE_MISS : Fld := ⟨FC_RATE, 15, 0⟩
/-- `FC_THR` (08_forecast_scheduler). -/
abbrev FC_THR : Nat := 0x7060
abbrev FC_THR_FCASSERT : Fld := ⟨FC_THR, 15, 8⟩
abbrev FC_THR_STATE : Fld := ⟨FC_THR, 7, 0⟩
/-- `FC_ZONEz_CFG` (08_forecast_scheduler). -/
abbrev FC_ZONE_CFG (z : Nat) : Nat := 0x7100 + 0x20 * z
abbrev FC_ZONE_CFG_SRC (z : Nat) : Fld := ⟨FC_ZONE_CFG z, 31, 24⟩
abbrev FC_ZONE_CFG_TLIM (z : Nat) : Fld := ⟨FC_ZONE_CFG z, 23, 16⟩
abbrev FC_ZONE_CFG_TAMB (z : Nat) : Fld := ⟨FC_ZONE_CFG z, 15, 8⟩
/-- `FC_ZONEz_MODEL` (08_forecast_scheduler). -/
abbrev FC_ZONE_MODEL (z : Nat) : Nat := 0x7104 + 0x20 * z
abbrev FC_ZONE_MODEL_RTH (z : Nat) : Fld := ⟨FC_ZONE_MODEL z, 31, 16⟩
abbrev FC_ZONE_MODEL_TAU (z : Nat) : Fld := ⟨FC_ZONE_MODEL z, 15, 0⟩
/-- `FC_ZONEz_ZBASE` (08_forecast_scheduler). -/
abbrev FC_ZONE_ZBASE (z : Nat) : Nat := 0x7108 + 0x20 * z
abbrev FC_ZONE_ZBASE_ZBASE (z : Nat) : Fld := ⟨FC_ZONE_ZBASE z, 15, 0⟩
/-- `FC_ZONEz_HT` (08_forecast_scheduler). -/
abbrev FC_ZONE_HT (z : Nat) : Nat := 0x710C + 0x20 * z
abbrev FC_ZONE_HT_AGE (z : Nat) : Fld := ⟨FC_ZONE_HT z, 31, 24⟩
abbrev FC_ZONE_HT_HT (z : Nat) : Fld := ⟨FC_ZONE_HT z, 15, 0⟩
/-- `FC_ZONEz_STAT` (08_forecast_scheduler). -/
abbrev FC_ZONE_STAT (z : Nat) : Nat := 0x7110 + 0x20 * z
abbrev FC_ZONE_STAT_PZ (z : Nat) : Fld := ⟨FC_ZONE_STAT z, 31, 16⟩
abbrev FC_ZONE_STAT_TZ (z : Nat) : Fld := ⟨FC_ZONE_STAT z, 15, 8⟩
abbrev FC_ZONE_STAT_HEAD (z : Nat) : Fld := ⟨FC_ZONE_STAT z, 7, 0⟩
/-- `FC_CTXn_CFG` (08_forecast_scheduler). -/
abbrev FC_CTX_CFG (n : Nat) : Nat := 0x7400 + 0x10 * n
abbrev FC_CTX_CFG_BOUND (n : Nat) : Fld := ⟨FC_CTX_CFG n, 31, 31⟩
abbrev FC_CTX_CFG_BAND (n : Nat) : Fld := ⟨FC_CTX_CFG n, 30, 29⟩
abbrev FC_CTX_CFG_WEIGHT (n : Nat) : Fld := ⟨FC_CTX_CFG n, 23, 16⟩
abbrev FC_CTX_CFG_ZMASK (n : Nat) : Fld := ⟨FC_CTX_CFG n, 15, 8⟩
/-- `FC_CTXn_STAT` (08_forecast_scheduler). -/
abbrev FC_CTX_STAT (n : Nat) : Nat := 0x7800 + 0x4 * n
abbrev FC_CTX_STAT_GRANTED (n : Nat) : Fld := ⟨FC_CTX_STAT n, 31, 16⟩
abbrev FC_CTX_STAT_LIVE (n : Nat) : Fld := ⟨FC_CTX_STAT n, 12, 0⟩
/-- `FC_P0` (08_forecast_scheduler). -/
abbrev FC_P0 : Nat := 0x7040
abbrev FC_P0_PFEED : Fld := ⟨FC_P0, 31, 16⟩
abbrev FC_P0_PBASE : Fld := ⟨FC_P0, 15, 0⟩
/-- `FC_P1` (08_forecast_scheduler). -/
abbrev FC_P1 : Nat := 0x7044
abbrev FC_P1_SIGMAG : Fld := ⟨FC_P1, 31, 16⟩
abbrev FC_P1_PLOAD : Fld := ⟨FC_P1, 15, 0⟩
/-- `FC_P2` (08_forecast_scheduler). -/
abbrev FC_P2 : Nat := 0x7048
abbrev FC_P2_BUDGET : Fld := ⟨FC_P2, 31, 16⟩
abbrev FC_P2_PGRES : Fld := ⟨FC_P2, 15, 0⟩
/-- `FC_P3` (08_forecast_scheduler). -/
abbrev FC_P3 : Nat := 0x704C
abbrev FC_P3_PYIELD : Fld := ⟨FC_P3, 31, 16⟩
abbrev FC_P3_GALLOW : Fld := ⟨FC_P3, 15, 0⟩
/-- `FC_GTA_LO` (08_forecast_scheduler). -/
abbrev FC_GTA_LO : Nat := 0x7068
abbrev FC_GTA_LO_GTADDR : Fld := ⟨FC_GTA_LO, 31, 0⟩
/-- `FC_GTA_HI` (08_forecast_scheduler). -/
abbrev FC_GTA_HI : Nat := 0x706C
abbrev FC_GTA_HI_GTADDR : Fld := ⟨FC_GTA_HI, 31, 0⟩
/-- `FC_GTN` (08_forecast_scheduler). -/
abbrev FC_GTN : Nat := 0x7070
abbrev FC_GTN_NENT : Fld := ⟨FC_GTN, 18, 0⟩
/-- `FC_CTX_CIDBASE` (08_forecast_scheduler). -/
abbrev FC_CTX_CIDBASE (n : Nat) : Nat := 0x7404 + 0x10 * n
abbrev FC_CTX_CIDBASE_CIDBASE (n : Nat) : Fld := ⟨FC_CTX_CIDBASE n, 17, 0⟩
/-- `FC_CTX_CIDCNT` (08_forecast_scheduler). -/
abbrev FC_CTX_CIDCNT (n : Nat) : Nat := 0x7408 + 0x10 * n
abbrev FC_CTX_CIDCNT_CIDCNT (n : Nat) : Fld := ⟨FC_CTX_CIDCNT n, 18, 0⟩
/-- `FC_CTX_CAP` (08_forecast_scheduler). -/
abbrev FC_CTX_CAP (n : Nat) : Nat := 0x740C + 0x10 * n
abbrev FC_CTX_CAP_CAP (n : Nat) : Fld := ⟨FC_CTX_CAP n, 23, 0⟩

/-! ### Adc registers -/
/-- `ADCx_CFG` (11_comparators_and_adc). -/
abbrev ADC_CFG (x : Nat) : Nat := 0x8000 + 0x400 * x
abbrev ADC_CFG_TICK (x : Nat) : Fld := ⟨ADC_CFG x, 7, 4⟩
abbrev ADC_CFG_REFSEL (x : Nat) : Fld := ⟨ADC_CFG x, 1, 0⟩
/-- `ADCx_STAT` (11_comparators_and_adc). -/
abbrev ADC_STAT (x : Nat) : Nat := 0x8004 + 0x400 * x
abbrev ADC_STAT_BUSY (x : Nat) : Fld := ⟨ADC_STAT x, 31, 31⟩
abbrev ADC_STAT_PEND (x : Nat) : Fld := ⟨ADC_STAT x, 30, 30⟩
abbrev ADC_STAT_INJ (x : Nat) : Fld := ⟨ADC_STAT x, 29, 29⟩
abbrev ADC_STAT_REFFB (x : Nat) : Fld := ⟨ADC_STAT x, 28, 28⟩
abbrev ADC_STAT_REFUSE (x : Nat) : Fld := ⟨ADC_STAT x, 27, 26⟩
abbrev ADC_STAT_ENTRY (x : Nat) : Fld := ⟨ADC_STAT x, 25, 21⟩
abbrev ADC_STAT_PASS (x : Nat) : Fld := ⟨ADC_STAT x, 15, 0⟩
/-- `ADCx_EVT` (11_comparators_and_adc). -/
abbrev ADC_EVT (x : Nat) : Nat := 0x8008 + 0x400 * x
abbrev ADC_EVT_SUSPECT (x : Nat) : Fld := ⟨ADC_EVT x, 4, 4⟩
abbrev ADC_EVT_ORNG (x : Nat) : Fld := ⟨ADC_EVT x, 3, 3⟩
abbrev ADC_EVT_XCHK (x : Nat) : Fld := ⟨ADC_EVT x, 2, 2⟩
abbrev ADC_EVT_REFFB (x : Nat) : Fld := ⟨ADC_EVT x, 1, 1⟩
abbrev ADC_EVT_TRIGOVR (x : Nat) : Fld := ⟨ADC_EVT x, 0, 0⟩
/-- `ADCx_CNT` (11_comparators_and_adc). -/
abbrev ADC_CNT (x : Nat) : Nat := 0x800C + 0x400 * x
abbrev ADC_CNT_TRIGLOST (x : Nat) : Fld := ⟨ADC_CNT x, 31, 16⟩
abbrev ADC_CNT_ABANDON (x : Nat) : Fld := ⟨ADC_CNT x, 15, 8⟩
abbrev ADC_CNT_SUSP (x : Nat) : Fld := ⟨ADC_CNT x, 7, 0⟩
/-- `ADCx_SEQe_A` (11_comparators_and_adc). -/
abbrev ADC_SEQ_A (x : Nat) (e : Nat) : Nat := 0x8100 + 0x400 * x + 0x8 * e
abbrev ADC_SEQ_A_EN (x : Nat) (e : Nat) : Fld := ⟨ADC_SEQ_A x e, 31, 31⟩
abbrev ADC_SEQ_A_SCAN (x : Nat) (e : Nat) : Fld := ⟨ADC_SEQ_A x e, 30, 30⟩
abbrev ADC_SEQ_A_ALT (x : Nat) (e : Nat) : Fld := ⟨ADC_SEQ_A x e, 29, 29⟩
abbrev ADC_SEQ_A_REF (x : Nat) (e : Nat) : Fld := ⟨ADC_SEQ_A x e, 28, 28⟩
abbrev ADC_SEQ_A_TRIG (x : Nat) (e : Nat) : Fld := ⟨ADC_SEQ_A x e, 27, 24⟩
abbrev ADC_SEQ_A_CH (x : Nat) (e : Nat) : Fld := ⟨ADC_SEQ_A x e, 21, 16⟩
abbrev ADC_SEQ_A_SCANEND (x : Nat) (e : Nat) : Fld := ⟨ADC_SEQ_A x e, 13, 8⟩
abbrev ADC_SEQ_A_SMP (x : Nat) (e : Nat) : Fld := ⟨ADC_SEQ_A x e, 5, 0⟩
/-- `ADCx_SEQe_B` (11_comparators_and_adc). -/
abbrev ADC_SEQ_B (x : Nat) (e : Nat) : Nat := 0x8104 + 0x400 * x + 0x8 * e
abbrev ADC_SEQ_B_OFS (x : Nat) (e : Nat) : Fld := ⟨ADC_SEQ_B x e, 31, 16⟩
abbrev ADC_SEQ_B_DIV (x : Nat) (e : Nat) : Fld := ⟨ADC_SEQ_B x e, 15, 0⟩
/-- `ADCx_RESe` (11_comparators_and_adc). -/
abbrev ADC_RES (x : Nat) (e : Nat) : Nat := 0x8200 + 0x400 * x + 0x4 * e
abbrev ADC_RES_QUAL (x : Nat) (e : Nat) : Fld := ⟨ADC_RES x e, 31, 30⟩
abbrev ADC_RES_CH (x : Nat) (e : Nat) : Fld := ⟨ADC_RES x e, 29, 24⟩
abbrev ADC_RES_PASS (x : Nat) (e : Nat) : Fld := ⟨ADC_RES x e, 23, 16⟩
abbrev ADC_RES_CODE (x : Nat) (e : Nat) : Fld := ⟨ADC_RES x e, 15, 0⟩
/-- `ADC_ORNG0` (11_comparators_and_adc). -/
abbrev ADC_ORNG0 : Nat := 0x8800
abbrev ADC_ORNG0_CH : Fld := ⟨ADC_ORNG0, 31, 0⟩
/-- `ADC_ORNG1` (11_comparators_and_adc). -/
abbrev ADC_ORNG1 : Nat := 0x8804
abbrev ADC_ORNG1_CH : Fld := ⟨ADC_ORNG1, 31, 0⟩
/-- `ADC_REF` (11_comparators_and_adc). -/
abbrev ADC_REF : Nat := 0x8808
abbrev ADC_REF_BGRDY : Fld := ⟨ADC_REF, 31, 31⟩
abbrev ADC_REF_XRDY : Fld := ⟨ADC_REF, 30, 30⟩
abbrev ADC_REF_SRDY : Fld := ⟨ADC_REF, 29, 29⟩
abbrev ADC_REF_BADREF : Fld := ⟨ADC_REF, 26, 24⟩
abbrev ADC_REF_XFAIL : Fld := ⟨ADC_REF, 23, 16⟩
/-- `ADC_XCHK` (11_comparators_and_adc). -/
abbrev ADC_XCHK : Nat := 0x880C
abbrev ADC_XCHK_ACODE : Fld := ⟨ADC_XCHK, 31, 16⟩
abbrev ADC_XCHK_BCODE : Fld := ⟨ADC_XCHK, 15, 0⟩
/-- `COULn_CFG` (11_comparators_and_adc). -/
abbrev COUL_CFG (n : Nat) : Nat := 0x8C00 + 0x40 * n
abbrev COUL_CFG_OFSAUTO (n : Nat) : Fld := ⟨COUL_CFG n, 0, 0⟩
/-- `COULn_OFS` (11_comparators_and_adc). -/
abbrev COUL_OFS (n : Nat) : Nat := 0x8C04 + 0x40 * n
abbrev COUL_OFS_MEAS (n : Nat) : Fld := ⟨COUL_OFS n, 31, 31⟩
abbrev COUL_OFS_OFS (n : Nat) : Fld := ⟨COUL_OFS n, 23, 0⟩
/-- `COULn_RAW` (11_comparators_and_adc). -/
abbrev COUL_RAW (n : Nat) : Nat := 0x8C08 + 0x40 * n
abbrev COUL_RAW_CODE (n : Nat) : Fld := ⟨COUL_RAW n, 31, 0⟩
/-- `COULn_STAT` (11_comparators_and_adc). -/
abbrev COUL_STAT (n : Nat) : Nat := 0x8C0C + 0x40 * n
abbrev COUL_STAT_ORNG (n : Nat) : Fld := ⟨COUL_STAT n, 31, 31⟩
abbrev COUL_STAT_OFSRUN (n : Nat) : Fld := ⟨COUL_STAT n, 30, 30⟩
abbrev COUL_STAT_OFSAGE (n : Nat) : Fld := ⟨COUL_STAT n, 15, 0⟩
/-- `ADC_INJ_A` (11_comparators_and_adc). -/
abbrev ADC_INJ_A (x : Nat) (k : Nat) : Nat := 0x8280 + 0x400 * x + 0x8 * k
abbrev ADC_INJ_A_EN (x : Nat) (k : Nat) : Fld := ⟨ADC_INJ_A x k, 31, 31⟩
abbrev ADC_INJ_A_SCAN (x : Nat) (k : Nat) : Fld := ⟨ADC_INJ_A x k, 30, 30⟩
abbrev ADC_INJ_A_ALT (x : Nat) (k : Nat) : Fld := ⟨ADC_INJ_A x k, 29, 29⟩
abbrev ADC_INJ_A_REF (x : Nat) (k : Nat) : Fld := ⟨ADC_INJ_A x k, 28, 28⟩
abbrev ADC_INJ_A_TRIG (x : Nat) (k : Nat) : Fld := ⟨ADC_INJ_A x k, 27, 24⟩
abbrev ADC_INJ_A_CH (x : Nat) (k : Nat) : Fld := ⟨ADC_INJ_A x k, 21, 16⟩
abbrev ADC_INJ_A_SCANEND (x : Nat) (k : Nat) : Fld := ⟨ADC_INJ_A x k, 13, 8⟩
abbrev ADC_INJ_A_SMP (x : Nat) (k : Nat) : Fld := ⟨ADC_INJ_A x k, 5, 0⟩
/-- `ADC_INJ_B` (11_comparators_and_adc). -/
abbrev ADC_INJ_B (x : Nat) (k : Nat) : Nat := 0x8284 + 0x400 * x + 0x8 * k
/-- `ADC_INJR` (11_comparators_and_adc). -/
abbrev ADC_INJR (x : Nat) (k : Nat) : Nat := 0x82C0 + 0x400 * x + 0x4 * k
abbrev ADC_INJR_QUAL (x : Nat) (k : Nat) : Fld := ⟨ADC_INJR x k, 31, 30⟩
abbrev ADC_INJR_CH (x : Nat) (k : Nat) : Fld := ⟨ADC_INJR x k, 29, 24⟩
abbrev ADC_INJR_PASS (x : Nat) (k : Nat) : Fld := ⟨ADC_INJR x k, 23, 16⟩
abbrev ADC_INJR_CODE (x : Nat) (k : Nat) : Fld := ⟨ADC_INJR x k, 15, 0⟩

/-! ### Cmp registers -/
/-- `CMPc_THR` (11_comparators_and_adc). -/
abbrev CMP_THR (c : Nat) : Nat := 0x9000 + 0x10 * c
abbrev CMP_THR_UPPER (c : Nat) : Fld := ⟨CMP_THR c, 25, 16⟩
abbrev CMP_THR_LOWER (c : Nat) : Fld := ⟨CMP_THR c, 9, 0⟩
/-- `CMPc_CFG` (11_comparators_and_adc). -/
abbrev CMP_CFG (c : Nat) : Nat := 0x9004 + 0x10 * c
abbrev CMP_CFG_INSEL (c : Nat) : Fld := ⟨CMP_CFG c, 25, 20⟩
abbrev CMP_CFG_FLTEN (c : Nat) : Fld := ⟨CMP_CFG c, 19, 19⟩
abbrev CMP_CFG_MODE (c : Nat) : Fld := ⟨CMP_CFG c, 17, 16⟩
abbrev CMP_CFG_BLKSRC (c : Nat) : Fld := ⟨CMP_CFG c, 15, 12⟩
abbrev CMP_CFG_EVFILT (c : Nat) : Fld := ⟨CMP_CFG c, 11, 8⟩
abbrev CMP_CFG_HYS (c : Nat) : Fld := ⟨CMP_CFG c, 3, 0⟩
/-- `CMPc_STAT` (11_comparators_and_adc). -/
abbrev CMP_STAT (c : Nat) : Nat := 0x9008 + 0x10 * c
abbrev CMP_STAT_HISTATE (c : Nat) : Fld := ⟨CMP_STAT c, 31, 30⟩
abbrev CMP_STAT_LOSTATE (c : Nat) : Fld := ⟨CMP_STAT c, 29, 28⟩
abbrev CMP_STAT_LIVE (c : Nat) : Fld := ⟨CMP_STAT c, 27, 27⟩
abbrev CMP_STAT_MODE (c : Nat) : Fld := ⟨CMP_STAT c, 26, 25⟩
abbrev CMP_STAT_BLANK (c : Nat) : Fld := ⟨CMP_STAT c, 24, 24⟩
abbrev CMP_STAT_TRIMA (c : Nat) : Fld := ⟨CMP_STAT c, 17, 12⟩
abbrev CMP_STAT_TRIMB (c : Nat) : Fld := ⟨CMP_STAT c, 11, 6⟩
/-- `CMPc_EVT` (11_comparators_and_adc). -/
abbrev CMP_EVT (c : Nat) : Nat := 0x900C + 0x10 * c
abbrev CMP_EVT_HICNT (c : Nat) : Fld := ⟨CMP_EVT c, 31, 24⟩
abbrev CMP_EVT_LOCNT (c : Nat) : Fld := ⟨CMP_EVT c, 23, 16⟩
abbrev CMP_EVT_AZERR (c : Nat) : Fld := ⟨CMP_EVT c, 2, 2⟩
abbrev CMP_EVT_HIEV (c : Nat) : Fld := ⟨CMP_EVT c, 1, 1⟩
abbrev CMP_EVT_LOEV (c : Nat) : Fld := ⟨CMP_EVT c, 0, 0⟩
/-- `CMP_GCFG` (11_comparators_and_adc). -/
abbrev CMP_GCFG : Nat := 0x9400
abbrev CMP_GCFG_AZPER : Fld := ⟨CMP_GCFG, 7, 0⟩
/-- `CMP_GSTAT` (11_comparators_and_adc). -/
abbrev CMP_GSTAT : Nat := 0x9404
abbrev CMP_GSTAT_INBANDN : Fld := ⟨CMP_GSTAT, 15, 8⟩
abbrev CMP_GSTAT_AZFAILN : Fld := ⟨CMP_GSTAT, 7, 0⟩
/-- `CMP_SENT` (11_comparators_and_adc). -/
abbrev CMP_SENT : Nat := 0x9408
abbrev CMP_SENT_VALID : Fld := ⟨CMP_SENT, 4, 4⟩
abbrev CMP_SENT_S : Fld := ⟨CMP_SENT, 3, 0⟩

/-! ### Tw registers -/
/-- `TW_M_CFG` (10_two_wire_ports). -/
abbrev TW_M_CFG : Nat := 0xA000
abbrev TW_M_CFG_TOSDA : Fld := ⟨TW_M_CFG, 24, 18⟩
abbrev TW_M_CFG_CSPEED : Fld := ⟨TW_M_CFG, 17, 16⟩
abbrev TW_M_CFG_RDLEN : Fld := ⟨TW_M_CFG, 14, 8⟩
abbrev TW_M_CFG_PECEN : Fld := ⟨TW_M_CFG, 7, 7⟩
abbrev TW_M_CFG_FILT : Fld := ⟨TW_M_CFG, 4, 0⟩
/-- `TW_M_CTL` (10_two_wire_ports). -/
abbrev TW_M_CTL : Nat := 0xA004
abbrev TW_M_CTL_BUSCLR : Fld := ⟨TW_M_CTL, 1, 1⟩
abbrev TW_M_CTL_RST : Fld := ⟨TW_M_CTL, 0, 0⟩
/-- `TW_M_STAT` (10_two_wire_ports). -/
abbrev TW_M_STAT : Nat := 0xA008
abbrev TW_M_STAT_ROLE : Fld := ⟨TW_M_STAT, 31, 30⟩
abbrev TW_M_STAT_BUSY : Fld := ⟨TW_M_STAT, 29, 29⟩
abbrev TW_M_STAT_SCL : Fld := ⟨TW_M_STAT, 28, 28⟩
abbrev TW_M_STAT_SDA : Fld := ⟨TW_M_STAT, 27, 27⟩
abbrev TW_M_STAT_HELD : Fld := ⟨TW_M_STAT, 26, 26⟩
abbrev TW_M_STAT_COMMIT : Fld := ⟨TW_M_STAT, 25, 25⟩
abbrev TW_M_STAT_ADDR : Fld := ⟨TW_M_STAT, 22, 16⟩
abbrev TW_M_STAT_PTR : Fld := ⟨TW_M_STAT, 15, 0⟩
/-- `TW_M_EVT` (10_two_wire_ports). -/
abbrev TW_M_EVT : Nat := 0xA00C
abbrev TW_M_EVT_RDEND : Fld := ⟨TW_M_EVT, 10, 10⟩
abbrev TW_M_EVT_ARA : Fld := ⟨TW_M_EVT, 9, 9⟩
abbrev TW_M_EVT_HNFAIL : Fld := ⟨TW_M_EVT, 8, 8⟩
abbrev TW_M_EVT_ROLESW : Fld := ⟨TW_M_EVT, 7, 7⟩
abbrev TW_M_EVT_ARBLOST : Fld := ⟨TW_M_EVT, 6, 6⟩
abbrev TW_M_EVT_PARTIAL : Fld := ⟨TW_M_EVT, 5, 5⟩
abbrev TW_M_EVT_PECERR : Fld := ⟨TW_M_EVT, 4, 4⟩
abbrev TW_M_EVT_PGERR : Fld := ⟨TW_M_EVT, 3, 3⟩
abbrev TW_M_EVT_TO_SDA : Fld := ⟨TW_M_EVT, 2, 2⟩
abbrev TW_M_EVT_TO_SCL : Fld := ⟨TW_M_EVT, 1, 1⟩
abbrev TW_M_EVT_BUSERR : Fld := ⟨TW_M_EVT, 0, 0⟩
/-- `TW_M_ALERT` (10_two_wire_ports). -/
abbrev TW_M_ALERT : Nat := 0xA010
abbrev TW_M_ALERT_PEND : Fld := ⟨TW_M_ALERT, 31, 31⟩
abbrev TW_M_ALERT_ALMODE : Fld := ⟨TW_M_ALERT, 17, 16⟩
abbrev TW_M_ALERT_AMASK : Fld := ⟨TW_M_ALERT, 15, 0⟩
/-- `TW_M_HN` (10_two_wire_ports). -/
abbrev TW_M_HN : Nat := 0xA014
abbrev TW_M_HN_LASTDATA : Fld := ⟨TW_M_HN, 31, 16⟩
abbrev TW_M_HN_HNADDR : Fld := ⟨TW_M_HN, 6, 0⟩
/-- `TW_M_CNT` (10_two_wire_ports). -/
abbrev TW_M_CNT : Nat := 0xA018
abbrev TW_M_CNT_WORDS : Fld := ⟨TW_M_CNT, 31, 16⟩
abbrev TW_M_CNT_NACKS : Fld := ⟨TW_M_CNT, 15, 8⟩
abbrev TW_M_CNT_ERRS : Fld := ⟨TW_M_CNT, 7, 0⟩
/-- `TW_PKn_CFG` (10_two_wire_ports). -/
abbrev TW_PK_CFG (n : Nat) : Nat := 0xA100 + 0x100 * n
abbrev TW_PK_CFG_TOSDA (n : Nat) : Fld := ⟨TW_PK_CFG n, 24, 18⟩
abbrev TW_PK_CFG_CSPEED (n : Nat) : Fld := ⟨TW_PK_CFG n, 16, 16⟩
abbrev TW_PK_CFG_FILT (n : Nat) : Fld := ⟨TW_PK_CFG n, 4, 0⟩
/-- `TW_PKn_CTL` (10_two_wire_ports). -/
abbrev TW_PK_CTL (n : Nat) : Nat := 0xA104 + 0x100 * n
abbrev TW_PK_CTL_BUSCLR (n : Nat) : Fld := ⟨TW_PK_CTL n, 1, 1⟩
abbrev TW_PK_CTL_RST (n : Nat) : Fld := ⟨TW_PK_CTL n, 0, 0⟩
/-- `TW_PKn_STAT` (10_two_wire_ports). -/
abbrev TW_PK_STAT (n : Nat) : Nat := 0xA108 + 0x100 * n
abbrev TW_PK_STAT_BUSY (n : Nat) : Fld := ⟨TW_PK_STAT n, 31, 31⟩
abbrev TW_PK_STAT_SCL (n : Nat) : Fld := ⟨TW_PK_STAT n, 30, 30⟩
abbrev TW_PK_STAT_SDA (n : Nat) : Fld := ⟨TW_PK_STAT n, 29, 29⟩
abbrev TW_PK_STAT_HELD (n : Nat) : Fld := ⟨TW_PK_STAT n, 28, 28⟩
abbrev TW_PK_STAT_SLOW (n : Nat) : Fld := ⟨TW_PK_STAT n, 27, 27⟩
/-- `TW_PKn_EVT` (10_two_wire_ports). -/
abbrev TW_PK_EVT (n : Nat) : Nat := 0xA10C + 0x100 * n
abbrev TW_PK_EVT_ARBLOST (n : Nat) : Fld := ⟨TW_PK_EVT n, 5, 5⟩
abbrev TW_PK_EVT_PECERR (n : Nat) : Fld := ⟨TW_PK_EVT n, 4, 4⟩
abbrev TW_PK_EVT_NACK (n : Nat) : Fld := ⟨TW_PK_EVT n, 3, 3⟩
abbrev TW_PK_EVT_TO_SDA (n : Nat) : Fld := ⟨TW_PK_EVT n, 2, 2⟩
abbrev TW_PK_EVT_TO_SCL (n : Nat) : Fld := ⟨TW_PK_EVT n, 1, 1⟩
abbrev TW_PK_EVT_BUSERR (n : Nat) : Fld := ⟨TW_PK_EVT n, 0, 0⟩
/-- `TW_PKn_CNT` (10_two_wire_ports). -/
abbrev TW_PK_CNT (n : Nat) : Nat := 0xA118 + 0x100 * n
abbrev TW_PK_CNT_XFER (n : Nat) : Fld := ⟨TW_PK_CNT n, 31, 16⟩
abbrev TW_PK_CNT_RETRY (n : Nat) : Fld := ⟨TW_PK_CNT n, 15, 8⟩
abbrev TW_PK_CNT_FAIL (n : Nat) : Fld := ⟨TW_PK_CNT n, 7, 0⟩

end Sys2Proof.Machine
end

