-- ==== Sys2Proof/Machine/RegMap.lean ====
section
/-! DEFINITION. The register map of R32 as a table: for each register its base, its instances, whether SET_LIMITS may
name it (R283), and for each field its bits, access code (R8), whether a device reset keeps it (R7), whether it is
operational (R35), its clamp and the change of it that loosens protection (R114 and the rules that refer to it). -/

namespace Sys2Proof.Machine

def regsSys : List RegRow := [
  -- SYS_ID
  ⟨0x0000, 1, 0x10000, 1, 0x4, false,
   [⟨31, 16, .ro, false, false, .none, false, none⟩,
    ⟨15, 12, .ro, true, false, .none, false, none⟩,
    ⟨11, 8, .ro, true, false, .none, false, none⟩,
    ⟨7, 4, .ro, false, false, .none, false, none⟩,
    ⟨3, 0, .ro, false, false, .none, false, none⟩]⟩,
  -- SYS_STRAP
  ⟨0x0010, 1, 0x10000, 1, 0x4, false,
   [⟨31, 31, .ro, true, false, .none, false, none⟩,
    ⟨30, 30, .ro, true, false, .none, false, none⟩,
    ⟨29, 29, .ro, true, false, .none, false, none⟩,
    ⟨28, 28, .ro, true, false, .none, false, none⟩,
    ⟨27, 16, .ro, true, false, .none, false, none⟩,
    ⟨13, 13, .ro, true, false, .none, false, none⟩,
    ⟨12, 12, .ro, true, false, .none, false, none⟩,
    ⟨11, 11, .ro, true, false, .none, false, none⟩,
    ⟨10, 8, .ro, true, false, .none, false, none⟩,
    ⟨5, 5, .ro, true, false, .none, false, none⟩,
    ⟨4, 0, .ro, true, false, .none, false, none⟩]⟩,
  -- SYS_LC
  ⟨0x0020, 1, 0x10000, 1, 0x4, false,
   [⟨31, 24, .wo, false, false, .none, false, none⟩,
    ⟨11, 10, .ro, false, false, .none, false, none⟩,
    ⟨9, 9, .rwg, false, false, .none, false, none⟩,
    ⟨8, 8, .rws, false, false, .none, false, none⟩,
    ⟨2, 2, .ro, false, false, .none, false, none⟩,
    ⟨1, 0, .ro, true, false, .none, false, none⟩]⟩,
  -- SYS_STATE
  ⟨0x0030, 1, 0x10000, 1, 0x4, false,
   [⟨10, 10, .ro, false, false, .none, false, none⟩,
    ⟨9, 9, .ro, false, false, .none, false, none⟩,
    ⟨8, 8, .ro, false, false, .none, false, none⟩,
    ⟨7, 4, .ro, false, false, .none, false, none⟩,
    ⟨3, 0, .ro, false, false, .none, false, none⟩]⟩,
  -- SYS_MAINT
  ⟨0x0034, 1, 0x10000, 1, 0x4, false,
   [⟨0, 0, .rw, false, false, .none, false, none⟩]⟩,
  -- SYS_BOOT
  ⟨0x0040, 1, 0x10000, 1, 0x4, false,
   [⟨24, 24, .ro, false, false, .none, false, none⟩,
    ⟨23, 16, .ro, false, false, .none, false, none⟩,
    ⟨14, 4, .ro, false, false, .none, false, none⟩]⟩,
  -- SYS_FEEDCHK
  ⟨0x0044, 1, 0x10000, 1, 0x4, false,
   [⟨3, 0, .ro, false, false, .none, false, none⟩,
    ⟨7, 4, .ro, false, false, .none, false, none⟩,
    ⟨11, 8, .ro, false, false, .none, false, none⟩,
    ⟨15, 12, .ro, false, false, .none, false, none⟩]⟩,
  -- SYS_PROBE
  ⟨0x0048, 1, 0x10000, 1, 0x4, false,
   [⟨1, 0, .ro, false, false, .none, false, none⟩,
    ⟨3, 2, .ro, false, false, .none, false, none⟩,
    ⟨5, 4, .ro, false, false, .none, false, none⟩,
    ⟨7, 6, .ro, false, false, .none, false, none⟩,
    ⟨9, 8, .ro, false, false, .none, false, none⟩,
    ⟨11, 10, .ro, false, false, .none, false, none⟩,
    ⟨13, 12, .ro, false, false, .none, false, none⟩,
    ⟨15, 14, .ro, false, false, .none, false, none⟩,
    ⟨17, 16, .ro, false, false, .none, false, none⟩,
    ⟨19, 18, .ro, false, false, .none, false, none⟩,
    ⟨21, 20, .ro, false, false, .none, false, none⟩,
    ⟨23, 22, .ro, false, false, .none, false, none⟩,
    ⟨25, 24, .ro, false, false, .none, false, none⟩,
    ⟨27, 26, .ro, false, false, .none, false, none⟩,
    ⟨29, 28, .ro, false, false, .none, false, none⟩,
    ⟨31, 30, .ro, false, false, .none, false, none⟩]⟩,
  -- SYS_RST
  ⟨0x0050, 1, 0x10000, 1, 0x4, false,
   [⟨23, 16, .ro, true, false, .none, false, none⟩,
    ⟨11, 8, .ro, true, false, .none, false, none⟩,
    ⟨0, 0, .wo, false, false, .none, false, none⟩]⟩,
  -- SYS_BIST
  ⟨0x0060, 1, 0x10000, 1, 0x4, false,
   [⟨31, 16, .ro, false, false, .none, false, none⟩,
    ⟨15, 8, .ro, false, false, .none, false, none⟩,
    ⟨4, 2, .ro, false, false, .none, false, none⟩,
    ⟨1, 0, .ro, false, false, .none, false, none⟩]⟩]

def regsFlt : List RegRow := [
  -- FLT_STATUS_LO
  ⟨0x0800, 1, 0x10000, 1, 0x4, false,
   [⟨31, 0, .w1c, true, false, .none, false, none⟩]⟩,
  -- FLT_STATUS_HI
  ⟨0x0804, 1, 0x10000, 1, 0x4, false,
   [⟨31, 0, .w1c, true, false, .none, false, none⟩]⟩,
  -- FLT_PEND_LO
  ⟨0x0808, 1, 0x10000, 1, 0x4, false,
   [⟨31, 0, .w1c, false, false, .none, false, none⟩]⟩,
  -- FLT_PEND_HI
  ⟨0x080C, 1, 0x10000, 1, 0x4, false,
   [⟨31, 0, .w1c, false, false, .none, false, none⟩]⟩,
  -- FLT_FIRST
  ⟨0x0810, 1, 0x10000, 1, 0x4, false,
   [⟨31, 31, .w1c, true, false, .none, false, none⟩,
    ⟨30, 30, .ro, true, false, .none, false, none⟩,
    ⟨29, 29, .ro, true, false, .none, false, none⟩,
    ⟨27, 26, .ro, true, false, .none, false, none⟩,
    ⟨23, 16, .ro, true, false, .none, false, none⟩,
    ⟨14, 12, .ro, true, false, .none, false, none⟩,
    ⟨5, 0, .ro, true, false, .none, false, none⟩]⟩,
  -- FLT_FADDR
  ⟨0x0814, 1, 0x10000, 1, 0x4, false,
   [⟨31, 0, .ro, true, false, .none, false, none⟩]⟩,
  -- FLT_FTIME_LO
  ⟨0x0818, 1, 0x10000, 1, 0x4, false,
   [⟨31, 0, .ro, true, false, .none, false, none⟩]⟩,
  -- FLT_FTIME_HI
  ⟨0x081C, 1, 0x10000, 1, 0x4, false,
   [⟨31, 0, .ro, true, false, .none, false, none⟩]⟩,
  -- FLT_FATAL
  ⟨0x0820, 1, 0x10000, 1, 0x4, false,
   [⟨31, 31, .w1c, true, false, .none, false, none⟩,
    ⟨30, 30, .ro, true, false, .none, false, none⟩,
    ⟨29, 14, .ro, true, false, .none, false, none⟩,
    ⟨13, 8, .ro, true, false, .none, false, none⟩,
    ⟨5, 0, .ro, true, false, .none, false, none⟩]⟩,
  -- FLT_FATIME
  ⟨0x0824, 1, 0x10000, 1, 0x4, false,
   [⟨31, 0, .ro, true, false, .none, false, none⟩]⟩,
  -- FLT_MULTI
  ⟨0x0828, 1, 0x10000, 1, 0x4, false,
   [⟨7, 0, .rc, true, false, .none, false, none⟩]⟩,
  -- FLT_CFG
  ⟨0x082C, 1, 0x10000, 1, 0x4, false,
   [⟨31, 24, .rw, true, false, .none, false, none⟩,
    ⟨21, 20, .rwg, true, false, .raise (.capAt 2), false, none⟩,
    ⟨19, 0, .rwg, true, false, .raise (.zeroIs 1), false, some (1, 1000000)⟩]⟩,
  -- FLT_AUTO_LO
  ⟨0x0830, 1, 0x10000, 1, 0x4, false,
   [⟨31, 0, .rwg, true, false, .setsBit, false, none⟩]⟩,
  -- FLT_AUTO_HI
  ⟨0x0834, 1, 0x10000, 1, 0x4, false,
   [⟨31, 0, .rwg, true, false, .setsBit, false, none⟩]⟩,
  -- FLT_PIN
  ⟨0x0838, 1, 0x10000, 1, 0x4, false,
   [⟨3, 3, .ro, false, false, .none, false, none⟩,
    ⟨2, 2, .ro, false, false, .none, false, none⟩,
    ⟨1, 1, .w1s, false, false, .none, false, none⟩,
    ⟨0, 0, .rw, false, false, .none, false, none⟩]⟩,
  -- FLT_SELF
  ⟨0x083C, 1, 0x10000, 1, 0x4, false,
   [⟨31, 31, .ro, true, false, .none, false, none⟩,
    ⟨30, 30, .ro, true, false, .none, false, none⟩,
    ⟨7, 0, .ro, true, false, .none, false, none⟩]⟩]

def regsFlt2 : List RegRow := [
  -- FLT_INJ
  ⟨0x0840, 1, 0x10000, 1, 0x4, false,
   [⟨31, 31, .w1s, false, false, .none, false, none⟩,
    ⟨5, 0, .rw, false, false, .none, false, none⟩]⟩,
  -- FLT_CNTk
  ⟨0x0880, 16, 0x4, 1, 0x4, false,
   [⟨7, 0, .rc, true, false, .none, false, none⟩,
    ⟨15, 8, .rc, true, false, .none, false, none⟩,
    ⟨23, 16, .rc, true, false, .none, false, none⟩,
    ⟨31, 24, .rc, true, false, .none, false, none⟩]⟩]

def regsAuth : List RegRow := [
  -- AUTH_PRES
  ⟨0x1000, 1, 0x10000, 1, 0x4, false,
   [⟨31, 31, .ro, false, false, .none, false, none⟩,
    ⟨30, 30, .ro, false, false, .none, false, none⟩,
    ⟨23, 16, .ro, false, false, .none, false, none⟩,
    ⟨15, 8, .rc, false, false, .none, false, none⟩,
    ⟨0, 0, .w1s, false, false, .none, false, none⟩]⟩,
  -- AUTH_SEAL
  ⟨0x1004, 1, 0x10000, 1, 0x4, false,
   [⟨31, 31, .ro, true, false, .none, false, none⟩,
    ⟨30, 30, .ro, true, false, .none, false, none⟩,
    ⟨23, 16, .ro, true, false, .none, false, none⟩,
    ⟨15, 0, .ro, false, false, .none, false, none⟩]⟩,
  -- AUTH_CFG
  ⟨0x1008, 1, 0x10000, 1, 0x4, false,
   [⟨31, 16, .rwg, true, false, .raise .plain, true, some (100, 20000)⟩,
    ⟨15, 0, .rwg, true, false, .lower .plain, true, none⟩]⟩,
  -- AUTH_LAST
  ⟨0x100C, 1, 0x10000, 1, 0x4, false,
   [⟨31, 31, .w1c, false, false, .none, false, none⟩,
    ⟨30, 27, .ro, false, false, .none, false, none⟩,
    ⟨26, 24, .ro, false, false, .none, false, none⟩,
    ⟨23, 16, .ro, false, false, .none, false, none⟩,
    ⟨15, 0, .ro, false, false, .none, false, none⟩]⟩,
  -- AUTH_CNT
  ⟨0x1010, 1, 0x10000, 1, 0x4, false,
   [⟨31, 16, .rc, false, false, .none, false, none⟩,
    ⟨15, 0, .rc, false, false, .none, false, none⟩]⟩,
  -- JNL_CFG
  ⟨0x1400, 1, 0x10000, 1, 0x4, false,
   [⟨28, 16, .rw, true, false, .none, false, some (1, 4096)⟩,
    ⟨0, 0, .rwg, true, false, .lower .plain, true, none⟩]⟩,
  -- JNL_STAT
  ⟨0x1404, 1, 0x10000, 1, 0x4, false,
   [⟨31, 31, .ro, false, false, .none, false, none⟩,
    ⟨30, 30, .ro, false, false, .none, false, none⟩,
    ⟨12, 0, .ro, true, false, .none, false, none⟩]⟩,
  -- JNL_SEQ
  ⟨0x1408, 1, 0x10000, 1, 0x4, false,
   [⟨31, 31, .ro, true, false, .none, false, none⟩,
    ⟨30, 0, .ro, true, false, .none, false, none⟩]⟩,
  -- JNL_OLDEST
  ⟨0x140C, 1, 0x10000, 1, 0x4, false,
   [⟨31, 31, .ro, true, false, .none, false, none⟩,
    ⟨30, 0, .ro, true, false, .none, false, none⟩]⟩,
  -- JNL_LOST
  ⟨0x1410, 1, 0x10000, 1, 0x4, false,
   [⟨31, 0, .rc, true, false, .none, false, none⟩]⟩,
  -- JNL_EVT
  ⟨0x1414, 1, 0x10000, 1, 0x4, false,
   [⟨5, 5, .w1c, false, false, .none, false, none⟩,
    ⟨4, 4, .w1c, false, false, .none, false, none⟩,
    ⟨3, 3, .w1c, false, false, .none, false, none⟩,
    ⟨2, 2, .w1c, false, false, .none, false, none⟩,
    ⟨1, 1, .w1c, false, false, .none, false, none⟩,
    ⟨0, 0, .w1c, false, false, .none, false, none⟩]⟩,
  -- JNL_RDIDX
  ⟨0x1418, 1, 0x10000, 1, 0x4, false,
   [⟨31, 31, .ro, false, false, .none, false, none⟩,
    ⟨11, 0, .rw, false, false, .none, false, none⟩]⟩,
  -- JNL_REL
  ⟨0x141C, 1, 0x10000, 1, 0x4, false,
   [⟨12, 0, .wo, false, false, .none, false, none⟩]⟩,
  -- JNL_WINk
  ⟨0x1420, 8, 0x4, 1, 0x4, false,
   [⟨31, 0, .ro, false, false, .none, false, none⟩]⟩]

def regsThm : List RegRow := [
  -- THM_TSi
  ⟨0x1800, 9, 0x4, 1, 0x4, false,
   [⟨31, 30, .ro, false, false, .none, false, none⟩,
    ⟨29, 24, .ro, false, false, .none, false, none⟩,
    ⟨15, 0, .ro, false, false, .none, false, none⟩]⟩,
  -- THM_SUM
  ⟨0x1824, 1, 0x10000, 1, 0x4, false,
   [⟨31, 24, .ro, false, false, .none, false, none⟩,
    ⟨23, 16, .ro, false, false, .none, false, none⟩,
    ⟨15, 8, .ro, false, false, .none, false, none⟩,
    ⟨7, 0, .rc, false, false, .none, false, none⟩]⟩,
  -- THM_STAT
  ⟨0x1828, 1, 0x10000, 1, 0x4, false,
   [⟨31, 29, .ro, false, false, .none, false, none⟩,
    ⟨28, 28, .ro, false, false, .none, false, none⟩,
    ⟨23, 16, .ro, false, false, .none, false, none⟩,
    ⟨15, 0, .ro, false, false, .none, false, none⟩]⟩,
  -- THM_EVT
  ⟨0x182C, 1, 0x10000, 1, 0x4, false,
   [⟨7, 7, .w1c, false, false, .none, false, none⟩,
    ⟨6, 6, .w1c, false, false, .none, false, none⟩,
    ⟨5, 5, .w1c, false, false, .none, false, none⟩,
    ⟨4, 4, .w1c, false, false, .none, false, none⟩,
    ⟨3, 3, .w1c, false, false, .none, false, none⟩,
    ⟨2, 2, .w1c, false, false, .none, false, none⟩,
    ⟨1, 1, .w1c, false, false, .none, false, none⟩,
    ⟨0, 0, .w1c, false, false, .none, false, none⟩]⟩,
  -- THM_CNT
  ⟨0x1830, 1, 0x10000, 1, 0x4, false,
   [⟨31, 16, .rc, false, false, .none, false, none⟩,
    ⟨15, 8, .rc, false, false, .none, false, none⟩,
    ⟨7, 0, .rc, false, false, .none, false, none⟩]⟩,
  -- THM_COMP
  ⟨0x1834, 1, 0x10000, 1, 0x4, false,
   [⟨31, 31, .ro, false, false, .none, false, none⟩,
    ⟨23, 16, .ro, false, false, .none, false, none⟩,
    ⟨15, 8, .ro, false, false, .none, false, none⟩,
    ⟨7, 0, .ro, false, false, .none, false, none⟩]⟩,
  -- THM_PKT
  ⟨0x1838, 1, 0x10000, 1, 0x4, false,
   [⟨7, 0, .ro, false, false, .none, false, none⟩,
    ⟨15, 8, .ro, false, false, .none, false, none⟩,
    ⟨23, 16, .ro, false, false, .none, false, none⟩,
    ⟨31, 24, .ro, false, false, .none, false, none⟩]⟩,
  -- THM_DIE
  ⟨0x1840, 1, 0x10000, 1, 0x4, false,
   [⟨31, 24, .rwg, true, true, .raise .plain, false, some (60, 130)⟩,
    ⟨23, 16, .rwg, true, true, .raise .plain, false, some (60, 130)⟩,
    ⟨15, 8, .rwg, true, true, .raise .plain, false, some (60, 130)⟩,
    ⟨7, 0, .rwg, true, true, .raise .plain, false, some (60, 130)⟩]⟩,
  -- THM_STOP
  ⟨0x1844, 1, 0x10000, 1, 0x4, false,
   [⟨31, 24, .rw, true, true, .none, false, none⟩,
    ⟨23, 16, .rw, true, true, .none, false, none⟩,
    ⟨11, 8, .rw, true, true, .none, false, none⟩,
    ⟨7, 0, .rwg, true, true, .raise .plain, false, some (125, 145)⟩]⟩,
  -- THM_ACT
  ⟨0x1848, 1, 0x10000, 1, 0x4, false,
   [⟨19, 16, .rw, true, true, .none, false, none⟩,
    ⟨15, 12, .rw, true, true, .none, false, none⟩,
    ⟨11, 10, .rw, true, true, .none, false, none⟩,
    ⟨9, 8, .rw, true, true, .none, false, none⟩,
    ⟨7, 0, .rwg, true, true, .raise .plain, false, some (10, 100)⟩]⟩,
  -- THM_STG
  ⟨0x184C, 1, 0x10000, 1, 0x4, false,
   [⟨23, 16, .rwg, true, true, .raise .plain, false, some (60, 150)⟩,
    ⟨15, 8, .rwg, true, true, .raise .plain, false, some (60, 150)⟩,
    ⟨7, 0, .rwg, true, true, .raise .plain, false, some (60, 150)⟩]⟩,
  -- THM_PK
  ⟨0x1850, 1, 0x10000, 1, 0x4, false,
   [⟨7, 0, .rwg, true, true, .raise (.signed 8), false, none⟩]⟩,
  -- THM_NTC
  ⟨0x1854, 1, 0x10000, 1, 0x4, false,
   [⟨31, 16, .rw, true, true, .none, false, none⟩,
    ⟨15, 8, .rw, true, true, .none, false, none⟩,
    ⟨7, 0, .rw, true, true, .none, false, none⟩]⟩]

def regsTmr : List RegRow := [
  -- TMRn_CTL
  ⟨0x2000, 8, 0x40, 1, 0x4, false,
   [⟨26, 24, .rw, false, false, .none, false, none⟩,
    ⟨23, 19, .rw, false, false, .none, false, none⟩,
    ⟨18, 16, .rw, false, false, .none, false, none⟩,
    ⟨15, 12, .rw, false, false, .none, false, none⟩,
    ⟨2, 2, .rw, false, false, .none, false, none⟩,
    ⟨1, 1, .rw, false, false, .none, false, none⟩,
    ⟨0, 0, .rw, false, false, .none, false, none⟩]⟩,
  -- TMRn_CNT
  ⟨0x2004, 8, 0x40, 1, 0x4, false,
   [⟨31, 0, .rw, false, false, .none, false, none⟩]⟩,
  -- TMRn_TOP
  ⟨0x2008, 8, 0x40, 1, 0x4, false,
   [⟨31, 0, .rw, false, false, .none, false, none⟩]⟩,
  -- TMRn_CCM
  ⟨0x200C, 8, 0x40, 1, 0x4, false,
   [⟨6, 2, .rw, false, false, .none, false, none⟩,
    ⟨14, 10, .rw, false, false, .none, false, none⟩,
    ⟨22, 18, .rw, false, false, .none, false, none⟩,
    ⟨30, 26, .rw, false, false, .none, false, none⟩,
    ⟨1, 0, .rw, false, false, .none, false, none⟩,
    ⟨9, 8, .rw, false, false, .none, false, none⟩,
    ⟨17, 16, .rw, false, false, .none, false, none⟩,
    ⟨25, 24, .rw, false, false, .none, false, none⟩]⟩,
  -- TMRn_CCRk
  ⟨0x2010, 8, 0x40, 4, 0x4, false,
   [⟨31, 0, .rw, false, false, .none, false, none⟩]⟩,
  -- TMRn_EVT
  ⟨0x2020, 8, 0x40, 1, 0x4, false,
   [⟨16, 13, .w1c, false, false, .none, false, none⟩,
    ⟨12, 9, .w1c, false, false, .none, false, none⟩,
    ⟨8, 5, .w1c, false, false, .none, false, none⟩,
    ⟨4, 1, .w1c, false, false, .none, false, none⟩,
    ⟨0, 0, .w1c, false, false, .none, false, none⟩]⟩,
  -- TMRn_IEN
  ⟨0x2024, 8, 0x40, 1, 0x4, false,
   [⟨16, 0, .rw, false, false, .none, false, none⟩]⟩,
  -- TMRn_STAT
  ⟨0x2028, 8, 0x40, 1, 0x4, false,
   [⟨13, 13, .ro, false, false, .none, false, none⟩,
    ⟨12, 12, .ro, false, false, .none, false, none⟩,
    ⟨11, 8, .ro, false, false, .none, false, none⟩,
    ⟨1, 0, .ro, false, false, .none, false, none⟩,
    ⟨3, 2, .ro, false, false, .none, false, none⟩,
    ⟨5, 4, .ro, false, false, .none, false, none⟩,
    ⟨7, 6, .ro, false, false, .none, false, none⟩]⟩,
  -- DEVTIME_EPOCH
  ⟨0x2408, 1, 0x10000, 1, 0x4, false,
   [⟨9, 8, .ro, true, false, .none, false, none⟩,
    ⟨7, 0, .ro, true, false, .none, false, none⟩]⟩,
  -- DEVTIME_LO
  ⟨0x2400, 1, 0x10000, 1, 0x4, false,
   [⟨31, 0, .ro, true, false, .none, false, none⟩]⟩,
  -- DEVTIME_HI
  ⟨0x2404, 1, 0x10000, 1, 0x4, false,
   [⟨23, 0, .ro, true, false, .none, false, none⟩]⟩]

def regsMem : List RegRow := [
  -- MEM_CFG
  ⟨0x2800, 1, 0x10000, 1, 0x4, false,
   [⟨15, 8, .rw, true, false, .none, false, none⟩,
    ⟨0, 0, .rw, true, false, .none, false, none⟩]⟩,
  -- MEM_STAT
  ⟨0x2804, 1, 0x10000, 1, 0x4, false,
   [⟨31, 31, .ro, false, false, .none, false, none⟩,
    ⟨3, 0, .ro, false, false, .none, false, none⟩,
    ⟨7, 4, .ro, false, false, .none, false, none⟩,
    ⟨11, 8, .ro, false, false, .none, false, none⟩,
    ⟨15, 12, .ro, false, false, .none, false, none⟩,
    ⟨19, 16, .ro, false, false, .none, false, none⟩]⟩,
  -- MEM_EVT
  ⟨0x2808, 1, 0x10000, 1, 0x4, false,
   [⟨16, 16, .w1c, false, false, .none, false, none⟩,
    ⟨15, 15, .w1c, false, false, .none, false, none⟩,
    ⟨14, 10, .w1c, false, false, .none, false, none⟩,
    ⟨9, 5, .w1c, false, false, .none, false, none⟩,
    ⟨4, 0, .w1c, false, false, .none, false, none⟩]⟩,
  -- MEM_CNTb
  ⟨0x2810, 5, 0x4, 1, 0x4, false,
   [⟨31, 16, .rc, false, false, .none, false, none⟩,
    ⟨15, 8, .rc, false, false, .none, false, none⟩,
    ⟨7, 0, .rc, false, false, .none, false, none⟩]⟩,
  -- MEM_REPb
  ⟨0x2830, 5, 0x4, 1, 0x4, false,
   [⟨8, 8, .ro, false, false, .none, false, none⟩,
    ⟨7, 4, .ro, true, false, .none, false, none⟩,
    ⟨3, 0, .ro, false, false, .none, false, none⟩]⟩,
  -- MEM_UEADDR
  ⟨0x2850, 1, 0x10000, 1, 0x4, false,
   [⟨31, 31, .w1c, false, false, .none, false, none⟩,
    ⟨30, 28, .ro, false, false, .none, false, none⟩,
    ⟨27, 26, .ro, false, false, .none, false, none⟩,
    ⟨25, 24, .ro, false, false, .none, false, none⟩,
    ⟨18, 0, .ro, false, false, .none, false, none⟩]⟩,
  -- MEM_WIPE
  ⟨0x2854, 1, 0x10000, 1, 0x4, false,
   [⟨31, 24, .rc, false, false, .none, false, none⟩,
    ⟨17, 16, .ro, false, false, .none, false, none⟩]⟩,
  -- MEM_SCRUB
  ⟨0x2858, 1, 0x10000, 1, 0x4, false,
   [⟨31, 16, .rc, false, false, .none, false, none⟩]⟩]

def regsHif : List RegRow := [
  -- HIFn_SQA_LO
  ⟨0x3000, 64, 0x20, 1, 0x4, false,
   [⟨31, 0, .rw, false, false, .none, false, none⟩]⟩,
  -- HIFn_SQA_HI
  ⟨0x3004, 64, 0x20, 1, 0x4, false,
   [⟨31, 0, .rw, false, false, .none, false, none⟩]⟩,
  -- HIFn_CQA_LO
  ⟨0x3008, 64, 0x20, 1, 0x4, false,
   [⟨31, 0, .rw, false, false, .none, false, none⟩]⟩,
  -- HIFn_CQA_HI
  ⟨0x300C, 64, 0x20, 1, 0x4, false,
   [⟨31, 0, .rw, false, false, .none, false, none⟩]⟩,
  -- HIFn_CFG
  ⟨0x3010, 64, 0x20, 1, 0x4, false,
   [⟨31, 24, .rw, false, false, .none, false, none⟩,
    ⟨23, 16, .rw, false, false, .none, false, none⟩,
    ⟨15, 10, .rw, false, false, .none, false, none⟩,
    ⟨9, 9, .rw, false, false, .none, false, none⟩,
    ⟨8, 8, .rw, false, false, .none, false, none⟩,
    ⟨7, 4, .rw, false, false, .none, false, none⟩,
    ⟨3, 0, .rw, false, false, .none, false, none⟩]⟩,
  -- HIFn_STAT
  ⟨0x3014, 64, 0x20, 1, 0x4, false,
   [⟨31, 28, .ro, false, false, .none, false, none⟩,
    ⟨27, 24, .ro, false, false, .none, false, none⟩,
    ⟨23, 12, .ro, false, false, .none, false, none⟩,
    ⟨11, 0, .ro, false, false, .none, false, none⟩]⟩,
  -- HIFn_CQP
  ⟨0x3018, 64, 0x20, 1, 0x4, false,
   [⟨31, 31, .ro, false, false, .none, false, none⟩,
    ⟨27, 16, .ro, false, false, .none, false, none⟩,
    ⟨11, 0, .ro, false, false, .none, false, none⟩]⟩,
  -- HIFn_CNT
  ⟨0x301C, 64, 0x20, 1, 0x4, false,
   [⟨31, 16, .rc, false, false, .none, false, none⟩,
    ⟨15, 8, .rc, false, false, .none, false, none⟩,
    ⟨7, 0, .rc, false, false, .none, false, none⟩]⟩,
  -- HIF_LNK
  ⟨0x3800, 1, 0x10000, 1, 0x4, false,
   [⟨31, 31, .ro, false, false, .none, false, none⟩,
    ⟨30, 28, .ro, false, false, .none, false, none⟩,
    ⟨27, 27, .ro, false, false, .none, false, none⟩,
    ⟨26, 26, .ro, false, false, .none, false, none⟩,
    ⟨15, 0, .rc, true, false, .none, false, none⟩]⟩,
  -- HIF_TEL
  ⟨0x3804, 1, 0x10000, 1, 0x4, false,
   [⟨31, 16, .rw, true, false, .none, false, none⟩,
    ⟨15, 8, .rw, true, false, .none, false, none⟩,
    ⟨2, 0, .rw, true, false, .none, false, none⟩]⟩,
  -- HIF_DMAERR
  ⟨0x3808, 1, 0x10000, 1, 0x4, false,
   [⟨31, 31, .w1c, false, false, .none, false, none⟩,
    ⟨23, 16, .ro, false, false, .none, false, none⟩,
    ⟨15, 8, .ro, false, false, .none, false, none⟩,
    ⟨5, 0, .ro, false, false, .none, false, none⟩]⟩,
  -- HIF_ISTAT
  ⟨0x380C, 1, 0x10000, 1, 0x4, false,
   [⟨15, 0, .ro, false, false, .none, false, none⟩]⟩,
  -- HIF_IMAPs
  ⟨0x3840, 16, 0x4, 1, 0x4, false,
   [⟨8, 8, .rw, true, false, .none, false, none⟩,
    ⟨5, 0, .rw, true, false, .none, false, none⟩]⟩,
  -- MSIX_ADDR_LO
  ⟨0x3A00, 64, 0x10, 1, 0x4, false,
   [⟨31, 2, .rw, false, false, .none, false, none⟩]⟩,
  -- MSIX_ADDR_HI
  ⟨0x3A04, 64, 0x10, 1, 0x4, false,
   [⟨31, 0, .rw, false, false, .none, false, none⟩]⟩,
  -- MSIX_DATA
  ⟨0x3A08, 64, 0x10, 1, 0x4, false,
   [⟨31, 0, .rw, false, false, .none, false, none⟩]⟩]

def regsHif2 : List RegRow := [
  -- MSIX_CTL
  ⟨0x3A0C, 64, 0x10, 1, 0x4, false,
   [⟨0, 0, .rw, false, false, .none, false, none⟩]⟩,
  -- MSIX_PBA_LO
  ⟨0x3E00, 1, 0x10000, 1, 0x4, false,
   [⟨31, 0, .ro, false, false, .none, false, none⟩]⟩,
  -- MSIX_PBA_HI
  ⟨0x3E04, 1, 0x10000, 1, 0x4, false,
   [⟨31, 0, .ro, false, false, .none, false, none⟩]⟩]

def regsFeed : List RegRow := [
  -- FEEDn_CFG
  ⟨0x4000, 4, 0x100, 1, 0x4, true,
   [⟨23, 22, .rw, true, true, .none, false, none⟩,
    ⟨21, 21, .rw, true, true, .none, false, none⟩,
    ⟨20, 18, .rw, true, true, .none, false, none⟩,
    ⟨15, 8, .rw, true, true, .none, false, some (10, 50)⟩,
    ⟨0, 0, .rw, true, true, .none, false, none⟩]⟩,
  -- FEEDn_WIN
  ⟨0x4004, 4, 0x100, 1, 0x4, true,
   [⟨25, 16, .rwg, true, true, .lower .plain, false, none⟩,
    ⟨9, 0, .rwg, true, true, .raise .plain, false, none⟩]⟩,
  -- FEEDn_LIM
  ⟨0x4008, 4, 0x100, 1, 0x4, true,
   [⟨26, 24, .rwg, true, true, .raise (.capAt 4), false, none⟩,
    ⟨22, 16, .rw, true, true, .none, false, some (75, 98)⟩,
    ⟨11, 0, .rwg, true, true, .raise .plain, false, none⟩]⟩,
  -- FEEDn_SNS
  ⟨0x400C, 4, 0x100, 1, 0x4, true,
   [⟨31, 24, .rwg, true, true, .raise (.zeroIs 1), false, none⟩,
    ⟨15, 0, .rwg, true, true, .change .plain, false, some (50, 65535)⟩]⟩,
  -- FEEDn_INR
  ⟨0x4010, 4, 0x100, 1, 0x4, true,
   [⟨31, 24, .rw, true, true, .none, false, none⟩,
    ⟨7, 0, .rw, true, true, .none, false, none⟩]⟩,
  -- FEEDn_DROOP
  ⟨0x4014, 4, 0x100, 1, 0x4, true,
   [⟨23, 16, .rwg, true, true, .lower .plain, false, some (80, 99)⟩,
    ⟨11, 8, .rwg, true, true, .lower .plain, false, none⟩,
    ⟨7, 0, .rwg, true, true, .raise .plain, false, some (10, 100)⟩]⟩,
  -- FEEDn_POLEk
  ⟨0x4018, 4, 0x100, 3, 0x4, true,
   [⟨31, 20, .rwg, true, true, .lower .plain, false, none⟩,
    ⟨19, 0, .rwg, true, true, .change .plain, false, some (10, 1048575)⟩]⟩,
  -- FEEDn_TML
  ⟨0x4024, 4, 0x100, 1, 0x4, true,
   [⟨23, 20, .rw, true, true, .none, false, none⟩,
    ⟨15, 8, .rw, true, true, .none, false, none⟩,
    ⟨7, 0, .rwg, true, true, .raise .plain, false, some (10, 250)⟩]⟩,
  -- FEEDn_STAT
  ⟨0x4040, 4, 0x100, 1, 0x4, false,
   [⟨31, 28, .ro, false, false, .none, false, none⟩,
    ⟨27, 26, .ro, false, false, .none, false, none⟩,
    ⟨25, 25, .ro, false, false, .none, false, none⟩,
    ⟨24, 24, .ro, false, false, .none, false, none⟩,
    ⟨23, 23, .ro, false, false, .none, false, none⟩,
    ⟨22, 22, .ro, false, false, .none, false, none⟩,
    ⟨21, 21, .ro, false, false, .none, false, none⟩,
    ⟨20, 20, .ro, false, false, .none, false, none⟩,
    ⟨19, 16, .ro, false, false, .none, false, none⟩,
    ⟨15, 8, .rc, false, false, .none, false, none⟩,
    ⟨7, 0, .ro, false, false, .none, false, none⟩]⟩,
  -- FEEDn_EVT
  ⟨0x4044, 4, 0x100, 1, 0x4, false,
   [⟨7, 7, .w1c, false, false, .none, false, none⟩,
    ⟨6, 6, .w1c, false, false, .none, false, none⟩,
    ⟨5, 5, .w1c, false, false, .none, false, none⟩,
    ⟨4, 4, .w1c, false, false, .none, false, none⟩,
    ⟨3, 3, .w1c, false, false, .none, false, none⟩,
    ⟨2, 2, .w1c, false, false, .none, false, none⟩,
    ⟨1, 1, .w1c, false, false, .none, false, none⟩,
    ⟨0, 0, .w1c, false, false, .none, false, none⟩]⟩,
  -- FEEDn_MEAS
  ⟨0x4048, 4, 0x100, 1, 0x4, false,
   [⟨31, 18, .ro, false, false, .none, false, none⟩,
    ⟨13, 0, .ro, false, false, .none, false, none⟩]⟩,
  -- FEEDn_EFF
  ⟨0x404C, 4, 0x100, 1, 0x4, false,
   [⟨31, 18, .ro, false, false, .none, false, none⟩,
    ⟨11, 0, .ro, false, false, .none, false, none⟩]⟩,
  -- FEEDn_CNT
  ⟨0x4050, 4, 0x100, 1, 0x4, false,
   [⟨31, 24, .rc, false, false, .none, false, none⟩,
    ⟨23, 16, .rc, false, false, .none, false, none⟩,
    ⟨15, 8, .rc, false, false, .none, false, none⟩,
    ⟨7, 0, .rc, false, false, .none, false, none⟩]⟩,
  -- FEED_SEL
  ⟨0x4800, 1, 0x10000, 1, 0x4, true,
   [⟨23, 16, .rw, true, true, .none, false, none⟩,
    ⟨1, 0, .rw, true, true, .none, false, none⟩]⟩,
  -- FEED_EJECT
  ⟨0x4804, 1, 0x10000, 1, 0x4, true,
   [⟨25, 16, .rwg, true, true, .change (.capAt 1000), false, none⟩,
    ⟨15, 8, .rw, true, true, .none, false, none⟩,
    ⟨0, 0, .rw, true, true, .none, false, none⟩]⟩,
  -- FEED_GSTAT
  ⟨0x4808, 1, 0x10000, 1, 0x4, false,
   [⟨11, 11, .ro, false, false, .none, false, none⟩,
    ⟨10, 10, .ro, false, false, .none, false, none⟩,
    ⟨9, 9, .ro, false, false, .none, false, none⟩,
    ⟨8, 8, .ro, false, false, .none, false, none⟩,
    ⟨7, 4, .ro, false, false, .none, false, none⟩,
    ⟨3, 0, .ro, false, false, .none, false, none⟩]⟩]

def regsFeed2 : List RegRow := [
  -- FEED_LOCK
  ⟨0x480C, 1, 0x10000, 1, 0x4, true,
   [⟨0, 0, .rw, true, true, .none, false, none⟩]⟩]

/-- DESIGN CHOICE, log entry 126. -/
def regsPh : List RegRow := [
  -- PHn_CFG
  ⟨0x5000, 16, 0x80, 1, 0x4, true,
   [⟨31, 16, .rwg, true, true, .change .plain, false, some (2500, 20000)⟩,
    ⟨4, 4, .rw, true, true, .none, false, none⟩,
    ⟨1, 0, .ro, false, false, .none, false, none⟩]⟩,
  -- PHn_LIM
  ⟨0x5004, 16, 0x80, 1, 0x4, true,
   [⟨25, 16, .rwg, true, true, .raise .plain, false, none⟩,
    ⟨9, 0, .rwg, true, true, .raise .plain, false, none⟩]⟩,
  -- PHn_STAT
  ⟨0x5010, 16, 0x80, 1, 0x4, false,
   [⟨31, 28, .ro, false, false, .none, false, none⟩,
    ⟨27, 24, .ro, false, false, .none, false, none⟩,
    ⟨23, 22, .ro, false, false, .none, false, none⟩,
    ⟨21, 20, .ro, false, false, .none, false, none⟩,
    ⟨15, 8, .ro, false, false, .none, false, none⟩]⟩,
  -- PHn_EVT
  ⟨0x5014, 16, 0x80, 1, 0x4, false,
   [⟨6, 6, .w1c, false, false, .none, false, none⟩,
    ⟨5, 5, .w1c, false, false, .none, false, none⟩,
    ⟨4, 4, .w1c, false, false, .none, false, none⟩,
    ⟨3, 3, .w1c, false, false, .none, false, none⟩,
    ⟨2, 2, .w1c, false, false, .none, false, none⟩,
    ⟨1, 1, .w1c, false, false, .none, false, none⟩,
    ⟨0, 0, .w1c, false, false, .none, false, none⟩]⟩,
  -- PHn_MEAS
  ⟨0x5018, 16, 0x80, 1, 0x4, false,
   [⟨31, 16, .ro, false, false, .none, false, none⟩,
    ⟨15, 0, .ro, false, false, .none, false, none⟩]⟩,
  -- PHn_LRN
  ⟨0x501C, 16, 0x80, 1, 0x4, false,
   [⟨31, 16, .ro, false, false, .none, false, none⟩,
    ⟨15, 8, .ro, false, false, .none, false, none⟩,
    ⟨7, 0, .ro, false, false, .none, false, none⟩]⟩,
  -- PHn_DT
  ⟨0x5020, 16, 0x80, 1, 0x4, false,
   [⟨31, 24, .ro, false, false, .none, false, none⟩,
    ⟨23, 16, .ro, false, false, .none, false, none⟩,
    ⟨15, 8, .ro, false, false, .none, false, none⟩,
    ⟨7, 0, .ro, false, false, .none, false, none⟩]⟩,
  -- PHn_CNT
  ⟨0x5024, 16, 0x80, 1, 0x4, false,
   [⟨31, 16, .rc, false, false, .none, false, none⟩,
    ⟨15, 8, .rc, false, false, .none, false, none⟩,
    ⟨7, 0, .rc, false, false, .none, false, none⟩]⟩]

/-- DESIGN CHOICE, log entry 126. -/
def regsPhp : List RegRow := [
  -- PHPk_TIME
  ⟨0x5800, 2, 0x100, 1, 0x4, true,
   [⟨31, 24, .rw, true, true, .none, false, none⟩,
    ⟨16, 0, .rw, true, true, .none, false, some (10667, 128000)⟩]⟩,
  -- PHPk_EDGE
  ⟨0x5804, 2, 0x100, 1, 0x4, true,
   [⟨31, 24, .rw, true, true, .none, false, none⟩,
    ⟨23, 16, .rw, true, true, .none, false, none⟩,
    ⟨15, 8, .rw, true, true, .none, false, none⟩,
    ⟨7, 0, .rw, true, true, .none, false, none⟩]⟩,
  -- PHPk_MODE
  ⟨0x5808, 2, 0x100, 1, 0x4, true,
   [⟨19, 19, .rw, true, true, .none, false, none⟩,
    ⟨18, 18, .rw, true, true, .none, false, none⟩,
    ⟨17, 17, .rw, true, true, .none, false, none⟩,
    ⟨13, 8, .rw, true, true, .none, false, some (16, 32)⟩,
    ⟨7, 0, .rw, true, true, .none, false, some (150, 190)⟩]⟩,
  -- PHPk_INDL
  ⟨0x580C, 2, 0x100, 1, 0x4, true,
   [⟨27, 16, .rw, true, true, .none, false, none⟩,
    ⟨11, 0, .rw, true, true, .none, false, none⟩]⟩,
  -- PHPk_LIGHT
  ⟨0x5810, 2, 0x100, 1, 0x4, true,
   [⟨29, 20, .rw, true, true, .none, false, none⟩,
    ⟨19, 10, .rw, true, true, .none, false, none⟩,
    ⟨7, 0, .rw, true, true, .none, false, none⟩]⟩,
  -- PHPk_SHED
  ⟨0x5814, 2, 0x100, 1, 0x4, true,
   [⟨31, 16, .rw, true, true, .none, false, none⟩,
    ⟨12, 8, .rw, true, true, .none, false, none⟩,
    ⟨4, 0, .rw, true, true, .none, false, none⟩]⟩,
  -- PHPk_LIM
  ⟨0x5818, 2, 0x100, 1, 0x4, true,
   [⟨31, 24, .rw, true, true, .none, false, none⟩,
    ⟨23, 16, .rwg, true, true, .raise .plain, false, some (100, 200)⟩,
    ⟨11, 0, .rwg, true, true, .raise .plain, false, none⟩]⟩,
  -- PHPk_STAT
  ⟨0x5820, 2, 0x100, 1, 0x4, false,
   [⟨31, 30, .ro, false, false, .none, false, none⟩,
    ⟨29, 28, .ro, false, false, .none, false, none⟩,
    ⟨27, 24, .ro, false, false, .none, false, none⟩,
    ⟨20, 16, .ro, false, false, .none, false, none⟩,
    ⟨12, 8, .ro, false, false, .none, false, none⟩,
    ⟨4, 0, .ro, false, false, .none, false, none⟩]⟩,
  -- PHPk_CMD
  ⟨0x5824, 2, 0x100, 1, 0x4, false,
   [⟨27, 16, .ro, false, false, .none, false, none⟩,
    ⟨11, 0, .ro, false, false, .none, false, none⟩]⟩,
  -- PHPk_EVT
  ⟨0x5828, 2, 0x100, 1, 0x4, false,
   [⟨4, 4, .w1c, false, false, .none, false, none⟩,
    ⟨3, 3, .w1c, false, false, .none, false, none⟩,
    ⟨2, 2, .w1c, false, false, .none, false, none⟩,
    ⟨1, 1, .w1c, false, false, .none, false, none⟩,
    ⟨0, 0, .w1c, false, false, .none, false, none⟩]⟩,
  -- PHPk_CNT
  ⟨0x582C, 2, 0x100, 1, 0x4, false,
   [⟨31, 16, .rc, false, false, .none, false, none⟩,
    ⟨15, 8, .rc, false, false, .none, false, none⟩,
    ⟨7, 0, .rc, false, false, .none, false, none⟩]⟩,
  -- PHPk_MAPj
  ⟨0x5840, 2, 0x100, 16, 0x4, true,
   [⟨31, 16, .rw, true, true, .none, false, none⟩,
    ⟨15, 0, .rw, true, true, .none, false, none⟩]⟩,
  -- PH_SYNC
  ⟨0x5A00, 1, 0x10000, 1, 0x4, true,
   [⟨23, 16, .rw, true, true, .none, false, none⟩,
    ⟨11, 8, .rw, true, true, .none, false, none⟩,
    ⟨5, 4, .rw, true, true, .none, false, none⟩,
    ⟨1, 1, .rw, true, true, .none, false, none⟩,
    ⟨0, 0, .rw, true, true, .none, false, none⟩]⟩,
  -- PH_BUSOV
  ⟨0x5A04, 1, 0x10000, 1, 0x4, true,
   [⟨15, 8, .rw, true, true, .none, false, none⟩,
    ⟨0, 0, .rw, true, true, .none, false, none⟩]⟩,
  -- PH_VHOLD
  ⟨0x5A08, 1, 0x10000, 1, 0x4, false,
   [⟨22, 16, .rw, true, true, .none, false, some (1, 100)⟩,
    ⟨12, 0, .rw, true, true, .none, false, some (1000, 6000)⟩]⟩,
  -- PH_VREF
  ⟨0x5A0C, 1, 0x10000, 1, 0x4, false,
   [⟨31, 31, .ro, false, false, .none, false, none⟩,
    ⟨19, 0, .ro, false, false, .none, false, none⟩]⟩]

def regsPhp2 : List RegRow := [
  -- PH_GSTAT
  ⟨0x5A10, 1, 0x10000, 1, 0x4, false,
   [⟨18, 18, .w1c, false, false, .none, false, none⟩,
    ⟨17, 17, .w1c, false, false, .none, false, none⟩,
    ⟨16, 16, .ro, false, false, .none, false, none⟩,
    ⟨15, 0, .ro, false, false, .none, false, none⟩]⟩,
  -- PH_PMAP
  ⟨0x5A14, 1, 0x10000, 1, 0x4, false,
   [⟨1, 0, .ro, false, false, .none, false, none⟩,
    ⟨3, 2, .ro, false, false, .none, false, none⟩,
    ⟨5, 4, .ro, false, false, .none, false, none⟩,
    ⟨7, 6, .ro, false, false, .none, false, none⟩,
    ⟨9, 8, .ro, false, false, .none, false, none⟩,
    ⟨11, 10, .ro, false, false, .none, false, none⟩,
    ⟨13, 12, .ro, false, false, .none, false, none⟩,
    ⟨15, 14, .ro, false, false, .none, false, none⟩,
    ⟨17, 16, .ro, false, false, .none, false, none⟩,
    ⟨19, 18, .ro, false, false, .none, false, none⟩,
    ⟨21, 20, .ro, false, false, .none, false, none⟩,
    ⟨23, 22, .ro, false, false, .none, false, none⟩,
    ⟨25, 24, .ro, false, false, .none, false, none⟩,
    ⟨27, 26, .ro, false, false, .none, false, none⟩,
    ⟨29, 28, .ro, false, false, .none, false, none⟩,
    ⟨31, 30, .ro, false, false, .none, false, none⟩]⟩]

def regsChg : List RegRow := [
  -- CHGk_CTL
  ⟨0x6000, 2, 0x100, 1, 0x4, false,
   [⟨20, 16, .rw, true, false, .none, false, some (1, 16)⟩,
    ⟨15, 12, .rw, true, false, .none, false, none⟩,
    ⟨4, 4, .w1s, false, false, .none, false, none⟩,
    ⟨1, 1, .rw, true, false, .none, false, none⟩,
    ⟨0, 0, .rw, true, false, .none, false, none⟩]⟩,
  -- CHGk_LIM
  ⟨0x6004, 2, 0x100, 1, 0x4, true,
   [⟨24, 16, .rwg, true, true, .raise .plain, false, some (1, 300)⟩]⟩,
  -- CHGk_GUST
  ⟨0x6008, 2, 0x100, 1, 0x4, true,
   [⟨31, 20, .rwg, true, true, .raise .plain, false, none⟩,
    ⟨15, 8, .rw, true, true, .none, false, none⟩,
    ⟨6, 0, .rwg, true, true, .lower .plain, false, some (5, 98)⟩]⟩,
  -- CHGk_STAT
  ⟨0x6010, 2, 0x100, 1, 0x4, false,
   [⟨31, 28, .ro, false, false, .none, false, none⟩,
    ⟨27, 25, .ro, false, false, .none, false, none⟩,
    ⟨24, 24, .ro, false, false, .none, false, none⟩,
    ⟨23, 23, .ro, false, false, .none, false, none⟩,
    ⟨22, 22, .ro, false, false, .none, false, none⟩,
    ⟨21, 21, .ro, false, false, .none, false, none⟩,
    ⟨20, 20, .ro, false, false, .none, false, none⟩,
    ⟨19, 16, .ro, false, false, .none, false, none⟩,
    ⟨15, 8, .ro, false, false, .none, false, none⟩,
    ⟨4, 0, .ro, false, false, .none, false, none⟩]⟩,
  -- CHGk_CUR
  ⟨0x6014, 2, 0x100, 1, 0x4, false,
   [⟨31, 16, .ro, false, false, .none, false, none⟩,
    ⟨15, 0, .ro, false, false, .none, false, none⟩]⟩,
  -- CHGk_PWR
  ⟨0x6018, 2, 0x100, 1, 0x4, false,
   [⟨31, 16, .ro, false, false, .none, false, none⟩,
    ⟨15, 0, .ro, false, false, .none, false, none⟩]⟩,
  -- CHGk_DPWR
  ⟨0x601C, 2, 0x100, 1, 0x4, false,
   [⟨15, 0, .ro, false, false, .none, false, none⟩]⟩,
  -- CHGk_ZRE
  ⟨0x6020, 2, 0x100, 1, 0x4, false,
   [⟨31, 0, .ro, false, false, .none, false, none⟩]⟩,
  -- CHGk_ZIM
  ⟨0x6024, 2, 0x100, 1, 0x4, false,
   [⟨31, 0, .ro, false, false, .none, false, none⟩]⟩,
  -- CHGk_ZINFO
  ⟨0x6028, 2, 0x100, 1, 0x4, false,
   [⟨31, 31, .ro, false, false, .none, false, none⟩,
    ⟨30, 30, .ro, false, false, .none, false, none⟩,
    ⟨29, 29, .ro, false, false, .none, false, none⟩,
    ⟨28, 28, .ro, false, false, .none, false, none⟩,
    ⟨27, 27, .ro, false, false, .none, false, none⟩,
    ⟨26, 24, .ro, false, false, .none, false, none⟩,
    ⟨23, 16, .ro, false, false, .none, false, none⟩,
    ⟨15, 0, .ro, false, false, .none, false, none⟩]⟩,
  -- CHGk_ZFREQ
  ⟨0x602C, 2, 0x100, 1, 0x4, false,
   [⟨17, 0, .ro, false, false, .none, false, none⟩]⟩,
  -- CHGk_EVT
  ⟨0x6030, 2, 0x100, 1, 0x4, false,
   [⟨9, 9, .w1c, false, false, .none, false, none⟩,
    ⟨8, 8, .w1c, false, false, .none, false, none⟩,
    ⟨7, 7, .w1c, false, false, .none, false, none⟩,
    ⟨6, 6, .w1c, false, false, .none, false, none⟩,
    ⟨5, 5, .w1c, false, false, .none, false, none⟩,
    ⟨4, 4, .w1c, false, false, .none, false, none⟩,
    ⟨3, 3, .w1c, false, false, .none, false, none⟩,
    ⟨2, 2, .w1c, false, false, .none, false, none⟩,
    ⟨1, 1, .w1c, false, false, .none, false, none⟩,
    ⟨0, 0, .w1c, false, false, .none, false, none⟩]⟩,
  -- CHGk_TIME
  ⟨0x6034, 2, 0x100, 1, 0x4, false,
   [⟨31, 16, .ro, false, false, .none, false, none⟩,
    ⟨15, 0, .ro, false, false, .none, false, none⟩]⟩,
  -- CHGk_CNT
  ⟨0x6038, 2, 0x100, 1, 0x4, false,
   [⟨31, 16, .rc, false, false, .none, false, none⟩,
    ⟨15, 8, .rc, false, false, .none, false, none⟩,
    ⟨7, 0, .rc, false, false, .none, false, none⟩]⟩,
  -- CHG_HU
  ⟨0x6200, 1, 0x10000, 1, 0x4, false,
   [⟨31, 16, .rw, true, false, .none, false, none⟩,
    ⟨9, 0, .rw, true, false, .none, false, none⟩]⟩,
  -- CHG_HB
  ⟨0x6204, 1, 0x10000, 1, 0x4, false,
   [⟨31, 24, .rw, true, false, .none, false, some (50, 98)⟩,
    ⟨15, 8, .rw, true, false, .none, false, some (1, 100)⟩,
    ⟨7, 0, .rw, true, false, .none, false, some (10, 100)⟩]⟩]

def regsChg2 : List RegRow := [
  -- CHG_FL
  ⟨0x6208, 1, 0x10000, 1, 0x4, false,
   [⟨31, 24, .rw, true, false, .none, false, none⟩,
    ⟨23, 16, .rw, true, false, .none, false, none⟩,
    ⟨4, 0, .rw, true, false, .none, false, some (1, 16)⟩]⟩,
  -- CHG_GSTAT
  ⟨0x620C, 1, 0x10000, 1, 0x4, false,
   [⟨31, 16, .ro, false, false, .none, false, none⟩,
    ⟨9, 9, .ro, false, false, .none, false, none⟩,
    ⟨8, 8, .ro, false, false, .none, false, none⟩,
    ⟨7, 7, .ro, false, false, .none, false, none⟩,
    ⟨6, 6, .ro, false, false, .none, false, none⟩]⟩,
  -- CHG_GALLOW
  ⟨0x6210, 1, 0x10000, 1, 0x4, false,
   [⟨15, 0, .ro, false, false, .none, false, none⟩]⟩,
  -- CHG_PLOAD
  ⟨0x6214, 1, 0x10000, 1, 0x4, false,
   [⟨23, 16, .ro, false, false, .none, false, none⟩,
    ⟨1, 1, .rw, false, true, .none, false, none⟩,
    ⟨0, 0, .w1s, false, true, .none, false, none⟩]⟩,
  -- CHG_PSTAGE
  ⟨0x6280, 88, 0x4, 1, 0x4, false,
   [⟨31, 0, .rw, false, false, .none, false, none⟩]⟩]

def regsPk : List RegRow := [
  -- PKn_CFG
  ⟨0x6400, 2, 0x100, 1, 0x4, true,
   [⟨31, 24, .rw, true, false, .none, false, none⟩,
    ⟨17, 17, .w1s, false, false, .none, false, none⟩,
    ⟨16, 16, .rwg, true, false, .raise .plain, true, none⟩,
    ⟨15, 0, .rwg, true, true, .change .plain, false, some (20, 65535)⟩]⟩,
  -- PKn_PROT
  ⟨0x6404, 2, 0x100, 1, 0x4, true,
   [⟨27, 16, .rwg, true, true, .raise .plain, false, none⟩,
    ⟨11, 0, .rwg, true, true, .raise .plain, false, none⟩]⟩,
  -- PKn_LIM
  ⟨0x6408, 2, 0x100, 1, 0x4, true,
   [⟨31, 24, .rw, true, true, .none, false, none⟩,
    ⟨23, 16, .rwg, true, true, .raise .plain, false, some (40, 90)⟩,
    ⟨11, 0, .rwg, true, true, .raise .plain, false, none⟩]⟩,
  -- PKn_HW
  ⟨0x640C, 2, 0x100, 1, 0x4, true,
   [⟨31, 24, .rw, true, true, .none, false, none⟩,
    ⟨23, 16, .rw, true, true, .none, false, none⟩,
    ⟨15, 8, .rwg, true, true, .lower .plain, false, some (50, 100)⟩,
    ⟨7, 0, .rwg, true, true, .raise .plain, false, some (5, 80)⟩]⟩,
  -- PKn_WORN
  ⟨0x6410, 2, 0x100, 1, 0x4, true,
   [⟨31, 24, .rw, true, true, .none, false, some (10, 100)⟩,
    ⟨23, 16, .rwg, true, true, .lower .plain, false, none⟩,
    ⟨15, 0, .rwg, true, true, .raise (.zeroIs 65536), false, none⟩]⟩,
  -- PKn_WB
  ⟨0x6414, 2, 0x100, 1, 0x4, true,
   [⟨31, 16, .rw, true, false, .none, false, none⟩,
    ⟨7, 0, .rw, true, false, .none, false, none⟩]⟩,
  -- PKn_STAT
  ⟨0x6440, 2, 0x100, 1, 0x4, false,
   [⟨31, 28, .ro, false, false, .none, false, none⟩,
    ⟨27, 24, .ro, false, false, .none, false, none⟩,
    ⟨23, 23, .ro, false, false, .none, false, none⟩,
    ⟨22, 22, .ro, false, false, .none, false, none⟩,
    ⟨21, 21, .ro, false, false, .none, false, none⟩,
    ⟨20, 20, .ro, false, false, .none, false, none⟩,
    ⟨19, 19, .ro, false, false, .none, false, none⟩,
    ⟨18, 18, .ro, false, false, .none, false, none⟩,
    ⟨17, 16, .ro, false, false, .none, false, none⟩,
    ⟨15, 0, .ro, false, false, .none, false, none⟩]⟩,
  -- PKn_EVT
  ⟨0x6444, 2, 0x100, 1, 0x4, false,
   [⟨11, 11, .w1c, false, false, .none, false, none⟩,
    ⟨10, 10, .w1c, false, false, .none, false, none⟩,
    ⟨9, 9, .w1c, false, false, .none, false, none⟩,
    ⟨8, 8, .w1c, false, false, .none, false, none⟩,
    ⟨7, 7, .w1c, false, false, .none, false, none⟩,
    ⟨6, 6, .w1c, false, false, .none, false, none⟩,
    ⟨5, 5, .w1c, false, false, .none, false, none⟩,
    ⟨4, 4, .w1c, false, false, .none, false, none⟩,
    ⟨3, 3, .w1c, false, false, .none, false, none⟩,
    ⟨2, 2, .w1c, false, false, .none, false, none⟩,
    ⟨1, 1, .w1c, false, false, .none, false, none⟩,
    ⟨0, 0, .w1c, false, false, .none, false, none⟩]⟩,
  -- PKn_IDk
  ⟨0x6450, 2, 0x100, 4, 0x4, false,
   [⟨31, 0, .ro, false, false, .none, false, none⟩]⟩,
  -- PKn_CTR
  ⟨0x6460, 2, 0x100, 1, 0x4, false,
   [⟨31, 0, .ro, false, false, .none, false, none⟩]⟩,
  -- PKn_I
  ⟨0x6464, 2, 0x100, 1, 0x4, false,
   [⟨31, 0, .ro, false, false, .none, false, none⟩]⟩,
  -- PKn_Q_LO
  ⟨0x6468, 2, 0x100, 1, 0x4, false,
   [⟨31, 0, .ro, false, false, .none, false, none⟩]⟩,
  -- PKn_Q_HI
  ⟨0x646C, 2, 0x100, 1, 0x4, false,
   [⟨31, 0, .ro, false, false, .none, false, none⟩]⟩,
  -- PKn_FCC
  ⟨0x6470, 2, 0x100, 1, 0x4, false,
   [⟨23, 16, .ro, false, false, .none, false, none⟩,
    ⟨15, 0, .ro, false, false, .none, false, none⟩]⟩,
  -- PKn_QOUT
  ⟨0x6474, 2, 0x100, 1, 0x4, false,
   [⟨31, 0, .ro, false, false, .none, false, none⟩]⟩,
  -- PKn_EFC
  ⟨0x6478, 2, 0x100, 1, 0x4, false,
   [⟨31, 0, .ro, false, false, .none, false, none⟩]⟩]

def regsPk2 : List RegRow := [
  -- PKn_AGE
  ⟨0x647C, 2, 0x100, 1, 0x4, false,
   [⟨31, 16, .ro, false, false, .none, false, none⟩,
    ⟨15, 0, .ro, false, false, .none, false, none⟩]⟩,
  -- PKn_TPK
  ⟨0x6480, 2, 0x100, 1, 0x4, false,
   [⟨31, 31, .ro, false, false, .none, false, none⟩,
    ⟨7, 0, .ro, false, false, .none, false, none⟩]⟩,
  -- PK_SHIP
  ⟨0x64F0, 1, 0x10000, 1, 0x4, false,
   [⟨31, 24, .wo, false, false, .none, false, none⟩,
    ⟨23, 16, .rw, true, false, .none, false, none⟩,
    ⟨15, 8, .rw, true, false, .none, false, some (5, 80)⟩,
    ⟨1, 1, .rw, true, false, .none, false, none⟩,
    ⟨0, 0, .rw, false, false, .none, false, none⟩]⟩]

def regsFc : List RegRow := [
  -- FC_CFG
  ⟨0x7000, 1, 0x10000, 1, 0x4, true,
   [⟨31, 24, .rwg, true, true, .raise .plain, false, some (50, 100)⟩,
    ⟨23, 16, .rwg, true, true, .raise .plain, false, some (0, 100)⟩,
    ⟨15, 8, .rwg, true, true, .raise .plain, false, some (0, 100)⟩,
    ⟨7, 0, .rwg, true, true, .raise .plain, false, some (0, 100)⟩]⟩,
  -- FC_BASE
  ⟨0x7004, 1, 0x10000, 1, 0x4, true,
   [⟨31, 16, .rwg, true, true, .lower .plain, false, none⟩,
    ⟨15, 8, .rw, true, true, .none, false, none⟩]⟩,
  -- FC_CHG
  ⟨0x7008, 1, 0x10000, 1, 0x4, true,
   [⟨31, 16, .rw, true, true, .none, false, none⟩,
    ⟨15, 0, .rw, true, true, .none, false, none⟩]⟩,
  -- FC_ENF
  ⟨0x700C, 1, 0x10000, 1, 0x4, true,
   [⟨31, 22, .rwg, true, true, .raise .plain, false, some (1, 1000)⟩,
    ⟨15, 0, .rwg, true, true, .raise .plain, false, none⟩]⟩,
  -- FC_HOR
  ⟨0x7010, 1, 0x10000, 1, 0x4, true,
   [⟨31, 20, .rw, true, true, .none, false, some (1, 3600)⟩,
    ⟨15, 8, .rw, true, true, .none, false, none⟩,
    ⟨7, 0, .rw, true, true, .none, false, none⟩]⟩,
  -- FC_BAND
  ⟨0x7014, 1, 0x10000, 1, 0x4, true,
   [⟨31, 24, .rwg, true, true, .raise .plain, false, some (10, 100)⟩,
    ⟨23, 16, .rwg, true, true, .raise .plain, false, some (10, 100)⟩,
    ⟨15, 8, .rwg, true, true, .raise .plain, false, some (10, 100)⟩,
    ⟨7, 0, .ro, false, false, .none, false, none⟩]⟩,
  -- FC_CTL
  ⟨0x7018, 1, 0x10000, 1, 0x4, true,
   [⟨31, 24, .rw, true, true, .none, false, none⟩,
    ⟨23, 16, .rw, true, true, .none, false, none⟩,
    ⟨3, 3, .rw, true, true, .none, false, none⟩,
    ⟨1, 0, .rw, true, true, .none, false, none⟩]⟩,
  -- FC_SPOL0
  ⟨0x7020, 1, 0x10000, 1, 0x4, true,
   [⟨7, 0, .rw, true, true, .none, false, none⟩,
    ⟨15, 8, .rw, true, true, .none, false, none⟩,
    ⟨23, 16, .rw, true, true, .none, false, none⟩,
    ⟨31, 24, .rw, true, true, .none, false, none⟩]⟩,
  -- FC_SPOL1
  ⟨0x7024, 1, 0x10000, 1, 0x4, true,
   [⟨7, 0, .rw, true, true, .none, false, none⟩,
    ⟨15, 8, .rw, true, true, .none, false, none⟩,
    ⟨23, 16, .rw, true, true, .none, false, none⟩,
    ⟨31, 24, .rw, true, true, .none, false, none⟩]⟩,
  -- FC_SGUST
  ⟨0x7028, 1, 0x10000, 1, 0x4, true,
   [⟨15, 0, .rw, true, false, .none, false, none⟩]⟩,
  -- FC_STAT
  ⟨0x7050, 1, 0x10000, 1, 0x4, false,
   [⟨31, 31, .ro, false, false, .none, false, none⟩,
    ⟨30, 30, .ro, false, false, .none, false, none⟩,
    ⟨29, 29, .ro, false, false, .none, false, none⟩,
    ⟨28, 28, .ro, false, false, .none, false, none⟩,
    ⟨12, 0, .ro, false, false, .none, false, none⟩]⟩,
  -- FC_EVT
  ⟨0x7054, 1, 0x10000, 1, 0x4, false,
   [⟨5, 5, .w1c, false, false, .none, false, none⟩,
    ⟨4, 4, .w1c, false, false, .none, false, none⟩,
    ⟨3, 3, .w1c, false, false, .none, false, none⟩,
    ⟨2, 2, .w1c, false, false, .none, false, none⟩,
    ⟨1, 1, .w1c, false, false, .none, false, none⟩,
    ⟨0, 0, .w1c, false, false, .none, false, none⟩]⟩,
  -- FC_CNT
  ⟨0x7058, 1, 0x10000, 1, 0x4, false,
   [⟨31, 16, .rc, false, false, .none, false, none⟩,
    ⟨15, 8, .rc, false, false, .none, false, none⟩,
    ⟨7, 0, .rc, false, false, .none, false, none⟩]⟩,
  -- FC_RATE
  ⟨0x705C, 1, 0x10000, 1, 0x4, false,
   [⟨31, 16, .ro, false, false, .none, false, none⟩,
    ⟨15, 0, .ro, false, false, .none, false, none⟩]⟩,
  -- FC_THR
  ⟨0x7060, 1, 0x10000, 1, 0x4, false,
   [⟨15, 8, .w1c, false, false, .none, false, none⟩,
    ⟨7, 0, .ro, false, false, .none, false, none⟩]⟩,
  -- FC_ZONEz_CFG
  ⟨0x7100, 8, 0x20, 1, 0x4, true,
   [⟨31, 24, .rw, true, true, .none, false, none⟩,
    ⟨23, 16, .rwg, true, true, .raise .plain, false, none⟩,
    ⟨15, 8, .rwg, true, true, .raise (.signed 8), false, none⟩]⟩]

def regsFc2 : List RegRow := [
  -- FC_ZONEz_MODEL
  ⟨0x7104, 8, 0x20, 1, 0x4, true,
   [⟨31, 16, .rwg, true, true, .lower (.zeroIs 1), false, none⟩,
    ⟨15, 0, .rw, true, true, .none, false, none⟩]⟩,
  -- FC_ZONEz_ZBASE
  ⟨0x7108, 8, 0x20, 1, 0x4, true,
   [⟨15, 0, .rw, true, true, .none, false, none⟩]⟩,
  -- FC_ZONEz_HT
  ⟨0x710C, 8, 0x20, 1, 0x4, false,
   [⟨31, 24, .ro, false, false, .none, false, none⟩,
    ⟨15, 0, .rw, false, false, .none, false, none⟩]⟩,
  -- FC_ZONEz_STAT
  ⟨0x7110, 8, 0x20, 1, 0x4, false,
   [⟨31, 16, .ro, false, false, .none, false, none⟩,
    ⟨15, 8, .ro, false, false, .none, false, none⟩,
    ⟨7, 0, .ro, false, false, .none, false, none⟩]⟩,
  -- FC_CTXn_CFG
  ⟨0x7410, 63, 0x10, 1, 0x4, false,
   [⟨31, 31, .ro, false, false, .none, false, none⟩,
    ⟨30, 29, .ro, false, false, .none, false, none⟩,
    ⟨23, 16, .ro, false, false, .none, false, none⟩,
    ⟨15, 8, .ro, false, false, .none, false, none⟩]⟩,
  -- FC_CTXn_STAT
  ⟨0x7804, 63, 0x4, 1, 0x4, false,
   [⟨31, 16, .ro, false, false, .none, false, none⟩,
    ⟨12, 0, .ro, false, false, .none, false, none⟩]⟩,
  -- FC_P0
  ⟨0x7040, 1, 0x10000, 1, 0x4, false,
   [⟨31, 16, .ro, false, false, .none, false, none⟩,
    ⟨15, 0, .ro, false, false, .none, false, none⟩]⟩,
  -- FC_P1
  ⟨0x7044, 1, 0x10000, 1, 0x4, false,
   [⟨31, 16, .ro, false, false, .none, false, none⟩,
    ⟨15, 0, .ro, false, false, .none, false, none⟩]⟩,
  -- FC_P2
  ⟨0x7048, 1, 0x10000, 1, 0x4, false,
   [⟨31, 16, .ro, false, false, .none, false, none⟩,
    ⟨15, 0, .ro, false, false, .none, false, none⟩]⟩,
  -- FC_P3
  ⟨0x704C, 1, 0x10000, 1, 0x4, false,
   [⟨31, 16, .ro, false, false, .none, false, none⟩,
    ⟨15, 0, .ro, false, false, .none, false, none⟩]⟩,
  -- FC_GTA_LO
  ⟨0x7068, 1, 0x10000, 1, 0x4, false,
   [⟨31, 0, .ro, false, false, .none, false, none⟩]⟩,
  -- FC_GTA_HI
  ⟨0x706C, 1, 0x10000, 1, 0x4, false,
   [⟨31, 0, .ro, false, false, .none, false, none⟩]⟩,
  -- FC_GTN
  ⟨0x7070, 1, 0x10000, 1, 0x4, false,
   [⟨18, 0, .ro, false, false, .none, false, none⟩]⟩,
  -- FC_CTX_CIDBASE
  ⟨0x7414, 63, 0x10, 1, 0x4, false,
   [⟨17, 0, .ro, false, false, .none, false, none⟩]⟩,
  -- FC_CTX_CIDCNT
  ⟨0x7418, 63, 0x10, 1, 0x4, false,
   [⟨18, 0, .ro, false, false, .none, false, none⟩]⟩,
  -- FC_CTX_CAP
  ⟨0x741C, 63, 0x10, 1, 0x4, false,
   [⟨23, 0, .ro, false, false, .none, false, none⟩]⟩]

def regsAdc : List RegRow := [
  -- ADCx_CFG
  ⟨0x8000, 2, 0x400, 1, 0x4, false,
   [⟨7, 4, .ro, false, false, .none, false, none⟩,
    ⟨1, 0, .rw, true, true, .none, false, none⟩]⟩,
  -- ADCx_STAT
  ⟨0x8004, 2, 0x400, 1, 0x4, false,
   [⟨31, 31, .ro, false, false, .none, false, none⟩,
    ⟨30, 30, .ro, false, false, .none, false, none⟩,
    ⟨29, 29, .ro, false, false, .none, false, none⟩,
    ⟨28, 28, .ro, false, false, .none, false, none⟩,
    ⟨27, 26, .ro, false, false, .none, false, none⟩,
    ⟨25, 21, .ro, false, false, .none, false, none⟩,
    ⟨15, 0, .ro, false, false, .none, false, none⟩]⟩,
  -- ADCx_EVT
  ⟨0x8008, 2, 0x400, 1, 0x4, false,
   [⟨4, 4, .w1c, false, false, .none, false, none⟩,
    ⟨3, 3, .w1c, false, false, .none, false, none⟩,
    ⟨2, 2, .w1c, false, false, .none, false, none⟩,
    ⟨1, 1, .w1c, false, false, .none, false, none⟩,
    ⟨0, 0, .w1c, false, false, .none, false, none⟩]⟩,
  -- ADCx_CNT
  ⟨0x800C, 2, 0x400, 1, 0x4, false,
   [⟨31, 16, .rc, false, false, .none, false, none⟩,
    ⟨15, 8, .rc, false, false, .none, false, none⟩,
    ⟨7, 0, .rc, false, false, .none, false, none⟩]⟩,
  -- ADCx_SEQe_A
  ⟨0x8100, 2, 0x400, 16, 0x8, false,
   [⟨31, 31, .ro, false, false, .none, false, none⟩,
    ⟨30, 30, .ro, false, false, .none, false, none⟩,
    ⟨29, 29, .ro, false, false, .none, false, none⟩,
    ⟨28, 28, .ro, false, false, .none, false, none⟩,
    ⟨27, 24, .ro, false, false, .none, false, none⟩,
    ⟨21, 16, .ro, false, false, .none, false, none⟩,
    ⟨13, 8, .ro, false, false, .none, false, none⟩,
    ⟨5, 0, .ro, false, false, .none, false, none⟩]⟩,
  -- ADCx_SEQe_A
  ⟨0x8180, 2, 0x400, 16, 0x8, false,
   [⟨31, 31, .rw, false, false, .none, false, none⟩,
    ⟨30, 30, .rw, false, false, .none, false, none⟩,
    ⟨29, 29, .rw, false, false, .none, false, none⟩,
    ⟨28, 28, .rw, false, false, .none, false, none⟩,
    ⟨27, 24, .rw, false, false, .none, false, none⟩,
    ⟨21, 16, .rw, false, false, .none, false, none⟩,
    ⟨13, 8, .rw, false, false, .none, false, none⟩,
    ⟨5, 0, .rw, false, false, .none, false, none⟩]⟩,
  -- ADCx_SEQe_B
  ⟨0x8104, 2, 0x400, 16, 0x8, false,
   [⟨31, 16, .ro, false, false, .none, false, none⟩,
    ⟨15, 0, .ro, false, false, .none, false, none⟩]⟩,
  -- ADCx_SEQe_B
  ⟨0x8184, 2, 0x400, 16, 0x8, false,
   [⟨31, 16, .rw, false, false, .none, false, none⟩,
    ⟨15, 0, .rw, false, false, .none, false, none⟩]⟩,
  -- ADCx_RESe
  ⟨0x8200, 2, 0x400, 32, 0x4, false,
   [⟨31, 30, .ro, false, false, .none, false, none⟩,
    ⟨29, 24, .ro, false, false, .none, false, none⟩,
    ⟨23, 16, .ro, false, false, .none, false, none⟩,
    ⟨15, 0, .ro, false, false, .none, false, none⟩]⟩,
  -- ADC_ORNG0
  ⟨0x8800, 1, 0x10000, 1, 0x4, false,
   [⟨31, 0, .w1c, false, false, .none, false, none⟩]⟩,
  -- ADC_ORNG1
  ⟨0x8804, 1, 0x10000, 1, 0x4, false,
   [⟨31, 0, .w1c, false, false, .none, false, none⟩]⟩,
  -- ADC_REF
  ⟨0x8808, 1, 0x10000, 1, 0x4, false,
   [⟨31, 31, .ro, false, false, .none, false, none⟩,
    ⟨30, 30, .ro, false, false, .none, false, none⟩,
    ⟨29, 29, .ro, false, false, .none, false, none⟩,
    ⟨26, 24, .ro, false, false, .none, false, none⟩,
    ⟨23, 16, .rc, false, false, .none, false, none⟩]⟩,
  -- ADC_XCHK
  ⟨0x880C, 1, 0x10000, 1, 0x4, false,
   [⟨31, 16, .ro, false, false, .none, false, none⟩,
    ⟨15, 0, .ro, false, false, .none, false, none⟩]⟩,
  -- COULn_CFG
  ⟨0x8C00, 2, 0x40, 1, 0x4, false,
   [⟨0, 0, .rw, true, true, .none, false, none⟩]⟩,
  -- COULn_OFS
  ⟨0x8C04, 2, 0x40, 1, 0x4, false,
   [⟨31, 31, .ro, false, false, .none, false, none⟩,
    ⟨23, 0, .ro, true, false, .none, false, none⟩]⟩,
  -- COULn_RAW
  ⟨0x8C08, 2, 0x40, 1, 0x4, false,
   [⟨31, 0, .ro, false, false, .none, false, none⟩]⟩]

def regsAdc2 : List RegRow := [
  -- COULn_STAT
  ⟨0x8C0C, 2, 0x40, 1, 0x4, false,
   [⟨31, 31, .w1c, false, false, .none, false, none⟩,
    ⟨30, 30, .ro, false, false, .none, false, none⟩,
    ⟨15, 0, .ro, false, false, .none, false, none⟩]⟩,
  -- ADC_INJ_A
  ⟨0x8280, 2, 0x400, 2, 0x8, false,
   [⟨31, 31, .ro, false, false, .none, false, none⟩,
    ⟨30, 30, .ro, false, false, .none, false, none⟩,
    ⟨29, 29, .ro, false, false, .none, false, none⟩,
    ⟨28, 28, .ro, false, false, .none, false, none⟩,
    ⟨27, 24, .ro, false, false, .none, false, none⟩,
    ⟨21, 16, .ro, false, false, .none, false, none⟩,
    ⟨13, 8, .ro, false, false, .none, false, none⟩,
    ⟨5, 0, .ro, false, false, .none, false, none⟩]⟩,
  -- ADC_INJ_A
  ⟨0x8290, 2, 0x400, 2, 0x8, false,
   [⟨31, 31, .rw, false, false, .none, false, none⟩,
    ⟨30, 30, .rw, false, false, .none, false, none⟩,
    ⟨29, 29, .rw, false, false, .none, false, none⟩,
    ⟨28, 28, .rw, false, false, .none, false, none⟩,
    ⟨27, 24, .rw, false, false, .none, false, none⟩,
    ⟨21, 16, .rw, false, false, .none, false, none⟩,
    ⟨13, 8, .rw, false, false, .none, false, none⟩,
    ⟨5, 0, .rw, false, false, .none, false, none⟩]⟩,
  -- ADC_INJ_B
  ⟨0x8284, 2, 0x400, 2, 0x8, false,
   []⟩,
  -- ADC_INJ_B
  ⟨0x8294, 2, 0x400, 2, 0x8, false,
   []⟩,
  -- ADC_INJR
  ⟨0x82C0, 2, 0x400, 4, 0x4, false,
   [⟨31, 30, .ro, false, false, .none, false, none⟩,
    ⟨29, 24, .ro, false, false, .none, false, none⟩,
    ⟨23, 16, .ro, false, false, .none, false, none⟩,
    ⟨15, 0, .ro, false, false, .none, false, none⟩]⟩]

def regsCmp : List RegRow := [
  -- CMPc_THR
  ⟨0x9000, 28, 0x10, 1, 0x4, false,
   [⟨25, 16, .ro, true, false, .none, false, none⟩,
    ⟨9, 0, .ro, true, false, .none, false, none⟩]⟩,
  -- CMPc_THR
  ⟨0x91C0, 1, 0x10000, 1, 0x4, false,
   [⟨25, 16, .ro, true, false, .none, false, none⟩,
    ⟨9, 0, .rw, true, true, .none, false, none⟩]⟩,
  -- CMPc_THR
  ⟨0x91D0, 17, 0x10, 1, 0x4, false,
   [⟨25, 16, .ro, true, false, .none, false, none⟩,
    ⟨9, 0, .ro, true, false, .none, false, none⟩]⟩,
  -- CMPc_THR
  ⟨0x92E0, 2, 0x10, 1, 0x4, false,
   [⟨25, 16, .rw, true, false, .none, false, none⟩,
    ⟨9, 0, .rw, true, false, .none, false, none⟩]⟩,
  -- CMPc_CFG
  ⟨0x9004, 46, 0x10, 1, 0x4, false,
   [⟨25, 20, .rw, true, false, .none, false, none⟩,
    ⟨19, 19, .rw, true, false, .none, false, none⟩,
    ⟨17, 16, .ro, true, false, .none, false, none⟩,
    ⟨15, 12, .rwg, true, true, .fromNone, false, none⟩,
    ⟨11, 8, .rw, true, true, .none, false, none⟩,
    ⟨3, 0, .rw, true, true, .none, false, none⟩]⟩,
  -- CMPc_CFG
  ⟨0x92E4, 2, 0x10, 1, 0x4, false,
   [⟨25, 20, .rw, true, false, .none, false, none⟩,
    ⟨19, 19, .rw, true, false, .none, false, none⟩,
    ⟨17, 16, .rw, true, false, .none, false, none⟩,
    ⟨15, 12, .rwg, true, false, .none, false, none⟩,
    ⟨11, 8, .rw, true, false, .none, false, none⟩,
    ⟨3, 0, .rw, true, false, .none, false, none⟩]⟩,
  -- CMPc_STAT
  ⟨0x9008, 48, 0x10, 1, 0x4, false,
   [⟨31, 30, .ro, false, false, .none, false, none⟩,
    ⟨29, 28, .ro, false, false, .none, false, none⟩,
    ⟨27, 27, .ro, false, false, .none, false, none⟩,
    ⟨26, 25, .ro, false, false, .none, false, none⟩,
    ⟨24, 24, .ro, false, false, .none, false, none⟩,
    ⟨17, 12, .ro, true, false, .none, false, none⟩,
    ⟨11, 6, .ro, true, false, .none, false, none⟩]⟩,
  -- CMPc_EVT
  ⟨0x900C, 48, 0x10, 1, 0x4, false,
   [⟨31, 24, .rc, false, false, .none, false, none⟩,
    ⟨23, 16, .rc, false, false, .none, false, none⟩,
    ⟨2, 2, .w1c, false, false, .none, false, none⟩,
    ⟨1, 1, .w1c, false, false, .none, false, none⟩,
    ⟨0, 0, .w1c, false, false, .none, false, none⟩]⟩,
  -- CMP_GCFG
  ⟨0x9400, 1, 0x10000, 1, 0x4, false,
   [⟨7, 0, .rw, true, false, .none, false, none⟩]⟩,
  -- CMP_GSTAT
  ⟨0x9404, 1, 0x10000, 1, 0x4, false,
   [⟨15, 8, .ro, false, false, .none, false, none⟩,
    ⟨7, 0, .ro, false, false, .none, false, none⟩]⟩,
  -- CMP_SENT
  ⟨0x9408, 1, 0x10000, 1, 0x4, false,
   [⟨4, 4, .ro, false, false, .none, false, none⟩,
    ⟨3, 0, .ro, false, false, .none, false, none⟩]⟩]

def regsTw : List RegRow := [
  -- TW_M_CFG
  ⟨0xA000, 1, 0x10000, 1, 0x4, false,
   [⟨24, 18, .rw, false, false, .none, false, some (1, 64)⟩,
    ⟨17, 16, .rw, false, false, .none, false, none⟩,
    ⟨14, 8, .rw, false, false, .none, false, none⟩,
    ⟨7, 7, .rw, false, false, .none, false, none⟩,
    ⟨4, 0, .rw, false, false, .none, false, none⟩]⟩,
  -- TW_M_CTL
  ⟨0xA004, 1, 0x10000, 1, 0x4, false,
   [⟨1, 1, .w1s, false, false, .none, false, none⟩,
    ⟨0, 0, .w1s, false, false, .none, false, none⟩]⟩,
  -- TW_M_STAT
  ⟨0xA008, 1, 0x10000, 1, 0x4, false,
   [⟨31, 30, .ro, false, false, .none, false, none⟩,
    ⟨29, 29, .ro, false, false, .none, false, none⟩,
    ⟨28, 28, .ro, false, false, .none, false, none⟩,
    ⟨27, 27, .ro, false, false, .none, false, none⟩,
    ⟨26, 26, .ro, false, false, .none, false, none⟩,
    ⟨25, 25, .ro, false, false, .none, false, none⟩,
    ⟨22, 16, .ro, true, false, .none, false, none⟩,
    ⟨15, 0, .ro, false, false, .none, false, none⟩]⟩,
  -- TW_M_EVT
  ⟨0xA00C, 1, 0x10000, 1, 0x4, false,
   [⟨10, 10, .w1c, false, false, .none, false, none⟩,
    ⟨9, 9, .w1c, false, false, .none, false, none⟩,
    ⟨8, 8, .w1c, false, false, .none, false, none⟩,
    ⟨7, 7, .w1c, false, false, .none, false, none⟩,
    ⟨6, 6, .w1c, false, false, .none, false, none⟩,
    ⟨5, 5, .w1c, false, false, .none, false, none⟩,
    ⟨4, 4, .w1c, false, false, .none, false, none⟩,
    ⟨3, 3, .w1c, false, false, .none, false, none⟩,
    ⟨2, 2, .w1c, false, false, .none, false, none⟩,
    ⟨1, 1, .w1c, false, false, .none, false, none⟩,
    ⟨0, 0, .w1c, false, false, .none, false, none⟩]⟩,
  -- TW_M_ALERT
  ⟨0xA010, 1, 0x10000, 1, 0x4, false,
   [⟨31, 31, .ro, false, false, .none, false, none⟩,
    ⟨17, 16, .rw, false, false, .none, false, none⟩,
    ⟨15, 0, .rw, false, false, .none, false, none⟩]⟩,
  -- TW_M_HN
  ⟨0xA014, 1, 0x10000, 1, 0x4, false,
   [⟨31, 16, .ro, false, false, .none, false, none⟩,
    ⟨6, 0, .rw, false, false, .none, false, none⟩]⟩,
  -- TW_M_CNT
  ⟨0xA018, 1, 0x10000, 1, 0x4, false,
   [⟨31, 16, .rc, false, false, .none, false, none⟩,
    ⟨15, 8, .rc, false, false, .none, false, none⟩,
    ⟨7, 0, .rc, false, false, .none, false, none⟩]⟩,
  -- TW_PKn_CFG
  ⟨0xA100, 2, 0x100, 1, 0x4, false,
   [⟨24, 18, .rw, false, false, .none, false, some (1, 64)⟩,
    ⟨16, 16, .rw, false, false, .none, false, none⟩,
    ⟨4, 0, .rw, false, false, .none, false, none⟩]⟩,
  -- TW_PKn_CTL
  ⟨0xA104, 2, 0x100, 1, 0x4, false,
   [⟨1, 1, .w1s, false, false, .none, false, none⟩,
    ⟨0, 0, .w1s, false, false, .none, false, none⟩]⟩,
  -- TW_PKn_STAT
  ⟨0xA108, 2, 0x100, 1, 0x4, false,
   [⟨31, 31, .ro, false, false, .none, false, none⟩,
    ⟨30, 30, .ro, false, false, .none, false, none⟩,
    ⟨29, 29, .ro, false, false, .none, false, none⟩,
    ⟨28, 28, .ro, false, false, .none, false, none⟩,
    ⟨27, 27, .ro, false, false, .none, false, none⟩]⟩,
  -- TW_PKn_EVT
  ⟨0xA10C, 2, 0x100, 1, 0x4, false,
   [⟨5, 5, .w1c, false, false, .none, false, none⟩,
    ⟨4, 4, .w1c, false, false, .none, false, none⟩,
    ⟨3, 3, .w1c, false, false, .none, false, none⟩,
    ⟨2, 2, .w1c, false, false, .none, false, none⟩,
    ⟨1, 1, .w1c, false, false, .none, false, none⟩,
    ⟨0, 0, .w1c, false, false, .none, false, none⟩]⟩,
  -- TW_PKn_CNT
  ⟨0xA118, 2, 0x100, 1, 0x4, false,
   [⟨31, 16, .rc, false, false, .none, false, none⟩,
    ⟨15, 8, .rc, false, false, .none, false, none⟩,
    ⟨7, 0, .rc, false, false, .none, false, none⟩]⟩]

/-- Every register of the BAR0 map. -/
def regTable : List RegRow :=
  regsSys ++
  regsFlt ++
  regsFlt2 ++
  regsAuth ++
  regsThm ++
  regsTmr ++
  regsMem ++
  regsHif ++
  regsHif2 ++
  regsFeed ++
  regsFeed2 ++
  regsPh ++
  regsPhp ++
  regsPhp2 ++
  regsChg ++
  regsChg2 ++
  regsPk ++
  regsPk2 ++
  regsFc ++
  regsFc2 ++
  regsAdc ++
  regsAdc2 ++
  regsCmp ++
  regsTw

end Sys2Proof.Machine
end

