-- ==== Sys2Proof/Config.lean ====
section
/-! DEFINITION. What one device's fuses and firmware fix, and the free values: constants without a body, of which no proof
can see a value. -/

namespace Sys2Proof.Config

/-- SYS_ID.ANVREV, from fuses (R4). -/
opaque anvRev : BitVec 4
/-- SYS_ID.CIRREV, from fuses (R4). -/
opaque cirRev : BitVec 4
/-- The firmware level IDENTIFY returns (R281). -/
opaque fwLevel : BitVec 16
/-- The patch level IDENTIFY returns (R281). -/
opaque patchLevel : BitVec 16
/-- The device serial number, from fuses (R256, R281). -/
opaque serial : BitVec 64
/-- The Witaco root public key, fused before the part leaves Witaco (R3, R83). -/
opaque rootKey : BitVec 512
/-- Vendor ID, Device ID, Subsystem Vendor ID and Subsystem ID of the configuration header, from fuses (R257). -/
opaque pciIds : Vector (BitVec 16) 4
/-- Fuse trims of the two stages of a comparator, A in bits 5:0 and B in bits 11:6 (R327). -/
opaque cmpTrim : Nat → BitVec 12
/-- Fuse trim of a coulomb converter's offset (R342). -/
opaque coulTrim : Nat → BitVec 24
/-- The default trims that stand in where the Anvil fuse array fails its CRC (R66): of a comparator and of a coulomb converter. -/
opaque cmpTrimDefault : Nat → BitVec 12
@[inherit_doc cmpTrimDefault] opaque coulTrimDefault : Nat → BitVec 24
/-- A value the manual leaves open: the n-th one drawn by a run. -/
opaque freeWord : Nat → BitVec 32
/-- IPULSE, A: the mean current of one pulse peaking at IPKSKIP, from IPKSKIP in A, VIN and VOUT in V and L_i in µH (R137 names
these inputs and gives no formula). DESIGN CHOICE, log entry 66. -/
opaque ipulse (ipk vin vout li : Rat) : Rat
/-- The code of THM_COMP that the fuse coefficients of a correction ask for at a temperature in °C (R356 gives no formula).
DESIGN CHOICE, log entry 79. -/
opaque compCode : Nat → Rat → Int
end Sys2Proof.Config
end

