-- ==== Sys2Proof/Machine/PowerOn.lean ====
section
/-! DEFINITION. The power-on reset values of the BAR0 registers that are not 0 (R7: the number of the Reset column, or the
power-on value of the Function column for a field of code K). A register not listed holds 0. Fields of codes F and S
hold 0 until start-up steps 3 and 4 take them from the fuses and the straps. -/

namespace Sys2Proof.Machine

def powerOnSys : List (Nat × BitVec 32) := [
  (0x0000, 0x16630012), (0x0044, 0x7777), (0x0048, 0xFFFFFFFF)]

def powerOnFlt : List (Nat × BitVec 32) := [
  (0x0820, 0x3F00), (0x082C, 0x11186A0), (0x0838, 0x4)]

def powerOnAuth : List (Nat × BitVec 32) := [
  (0x1004, 0xFFFF), (0x1008, 0x13880032), (0x1400, 0xC000000)]

def powerOnThm : List (Nat × BitVec 32) := [
  (0x1800, 0x80000000), (0x1804, 0x80000000), (0x1808, 0x80000000), (0x180C, 0x80000000),
  (0x1810, 0x80000000), (0x1814, 0x80000000), (0x1818, 0x80000000), (0x181C, 0x80000000),
  (0x1820, 0x80000000), (0x1828, 0xFF0000), (0x1840, 0x78736E64), (0x1844, 0xA050387),
  (0x1848, 0x44032), (0x184C, 0x87786E), (0x1850, 0x28), (0x1854, 0xD6B1414)]

def powerOnTmr : List (Nat × BitVec 32) := [
  (0x2008, 0xFFFFFFFF), (0x2048, 0xFFFFFFFF), (0x2088, 0xFFFFFFFF), (0x20C8, 0xFFFFFFFF),
  (0x2108, 0xFFFFFFFF), (0x2148, 0xFFFFFFFF), (0x2188, 0xFFFFFFFF), (0x21C8, 0xFFFFFFFF)]

def powerOnMem : List (Nat × BitVec 32) := [
  (0x2800, 0xA01)]

def powerOnHif : List (Nat × BitVec 32) := [
  (0x3804, 0xA0107), (0x3A0C, 0x1), (0x3A1C, 0x1), (0x3A2C, 0x1),
  (0x3A3C, 0x1), (0x3A4C, 0x1), (0x3A5C, 0x1), (0x3A6C, 0x1),
  (0x3A7C, 0x1), (0x3A8C, 0x1), (0x3A9C, 0x1), (0x3AAC, 0x1),
  (0x3ABC, 0x1), (0x3ACC, 0x1), (0x3ADC, 0x1), (0x3AEC, 0x1),
  (0x3AFC, 0x1), (0x3B0C, 0x1), (0x3B1C, 0x1), (0x3B2C, 0x1),
  (0x3B3C, 0x1), (0x3B4C, 0x1), (0x3B5C, 0x1), (0x3B6C, 0x1),
  (0x3B7C, 0x1), (0x3B8C, 0x1), (0x3B9C, 0x1), (0x3BAC, 0x1),
  (0x3BBC, 0x1), (0x3BCC, 0x1), (0x3BDC, 0x1), (0x3BEC, 0x1),
  (0x3BFC, 0x1), (0x3C0C, 0x1), (0x3C1C, 0x1), (0x3C2C, 0x1),
  (0x3C3C, 0x1), (0x3C4C, 0x1), (0x3C5C, 0x1), (0x3C6C, 0x1),
  (0x3C7C, 0x1), (0x3C8C, 0x1), (0x3C9C, 0x1), (0x3CAC, 0x1),
  (0x3CBC, 0x1), (0x3CCC, 0x1), (0x3CDC, 0x1), (0x3CEC, 0x1)]

def powerOnHif2 : List (Nat × BitVec 32) := [
  (0x3CFC, 0x1), (0x3D0C, 0x1), (0x3D1C, 0x1), (0x3D2C, 0x1),
  (0x3D3C, 0x1), (0x3D4C, 0x1), (0x3D5C, 0x1), (0x3D6C, 0x1),
  (0x3D7C, 0x1), (0x3D8C, 0x1), (0x3D9C, 0x1), (0x3DAC, 0x1),
  (0x3DBC, 0x1), (0x3DCC, 0x1), (0x3DDC, 0x1), (0x3DEC, 0x1),
  (0x3DFC, 0x1)]

def powerOnFeed : List (Nat × BitVec 32) := [
  (0x4000, 0xC1401), (0x4004, 0x16802D0), (0x4008, 0x45C00A0), (0x400C, 0x80000C8),
  (0x4010, 0x64000014), (0x4014, 0x5F0519), (0x4018, 0x14000C8), (0x401C, 0x5000FA0),
  (0x4020, 0xFA09C40), (0x4024, 0x301464), (0x4100, 0xC1401), (0x4104, 0x16802D0),
  (0x4108, 0x45C00A0), (0x410C, 0x80000C8), (0x4110, 0x64000014), (0x4114, 0x5F0519),
  (0x4118, 0x14000C8), (0x411C, 0x5000FA0), (0x4120, 0xFA09C40), (0x4124, 0x301464),
  (0x4200, 0xC1401), (0x4204, 0x16802D0), (0x4208, 0x45C00A0), (0x420C, 0x80000C8),
  (0x4210, 0x64000014), (0x4214, 0x5F0519), (0x4218, 0x14000C8), (0x421C, 0x5000FA0),
  (0x4220, 0xFA09C40), (0x4224, 0x301464), (0x4300, 0xC1401), (0x4304, 0x16802D0),
  (0x4308, 0x45C00A0), (0x430C, 0x80000C8), (0x4310, 0x64000014), (0x4314, 0x5F0519),
  (0x4318, 0x14000C8), (0x431C, 0x5000FA0), (0x4320, 0xFA09C40), (0x4324, 0x301464),
  (0x4800, 0x640000), (0x4804, 0x640000), (0x4808, 0x100)]

def powerOnPh : List (Nat × BitVec 32) := [
  (0x5000, 0x13880010), (0x5004, 0xF00280), (0x501C, 0x160000), (0x5020, 0x80808080),
  (0x5080, 0x13880010), (0x5084, 0xF00280), (0x509C, 0x160000), (0x50A0, 0x80808080),
  (0x5100, 0x13880010), (0x5104, 0xF00280), (0x511C, 0x160000), (0x5120, 0x80808080),
  (0x5180, 0x13880010), (0x5184, 0xF00280), (0x519C, 0x160000), (0x51A0, 0x80808080),
  (0x5200, 0x13880010), (0x5204, 0xF00280), (0x521C, 0x160000), (0x5220, 0x80808080),
  (0x5280, 0x13880010), (0x5284, 0xF00280), (0x529C, 0x160000), (0x52A0, 0x80808080),
  (0x5300, 0x13880010), (0x5304, 0xF00280), (0x531C, 0x160000), (0x5320, 0x80808080),
  (0x5380, 0x13880010), (0x5384, 0xF00280), (0x539C, 0x160000), (0x53A0, 0x80808080),
  (0x5400, 0x13880010), (0x5404, 0xF00280), (0x541C, 0x160000), (0x5420, 0x80808080),
  (0x5480, 0x13880010), (0x5484, 0xF00280), (0x549C, 0x160000), (0x54A0, 0x80808080),
  (0x5500, 0x13880010), (0x5504, 0xF00280), (0x551C, 0x160000), (0x5520, 0x80808080),
  (0x5580, 0x13880010), (0x5584, 0xF00280), (0x559C, 0x160000), (0x55A0, 0x80808080)]

def powerOnPh2 : List (Nat × BitVec 32) := [
  (0x5600, 0x13880010), (0x5604, 0xF00280), (0x561C, 0x160000), (0x5620, 0x80808080),
  (0x5680, 0x13880010), (0x5684, 0xF00280), (0x569C, 0x160000), (0x56A0, 0x80808080),
  (0x5700, 0x13880010), (0x5704, 0xF00280), (0x571C, 0x160000), (0x5720, 0x80808080),
  (0x5780, 0x13880010), (0x5784, 0xF00280), (0x579C, 0x160000), (0x57A0, 0x80808080)]

def powerOnPhp : List (Nat × BitVec 32) := [
  (0x5800, 0x80006400), (0x5804, 0x28140C08), (0x5808, 0xE18AA), (0x580C, 0x3E80016),
  (0x5810, 0x2804004), (0x5814, 0x321001), (0x5818, 0xA7D03E8), (0x5900, 0x80006400),
  (0x5904, 0x28140C08), (0x5908, 0xE18AA), (0x590C, 0x3E80016), (0x5910, 0x2804004),
  (0x5914, 0x321001), (0x5918, 0xA7D03E8), (0x5A00, 0x640200), (0x5A04, 0x3201),
  (0x5A08, 0xA1130), (0x5A0C, 0x6B6C0)]

def powerOnChg : List (Nat × BitVec 32) := [
  (0x6000, 0x48003), (0x6004, 0x640000), (0x6008, 0x532), (0x6014, 0xFFFF),
  (0x6100, 0x48003), (0x6104, 0x640000), (0x6108, 0x532), (0x6114, 0xFFFF),
  (0x6200, 0x7D00064), (0x6204, 0x5A00141E), (0x6208, 0x3C0A0008)]

def powerOnPk : List (Nat × BitVec 32) := [
  (0x6400, 0x18000064), (0x6404, 0x1900640), (0x6408, 0x2D46012C), (0x640C, 0x32325A1E),
  (0x6410, 0x32460000), (0x6414, 0x3C), (0x64F0, 0x1402), (0x6500, 0x18000064),
  (0x6504, 0x1900640), (0x6508, 0x2D46012C), (0x650C, 0x32325A1E), (0x6510, 0x32460000),
  (0x6514, 0x3C)]

def powerOnFc : List (Nat × BitVec 32) := [
  (0x7000, 0x5A4B5050), (0x7004, 0x1F46400), (0x7008, 0x1F4), (0x700C, 0x28000C8),
  (0x7010, 0x3C0010A), (0x7014, 0x505A5F64), (0x7018, 0x640A0000), (0x7020, 0x64646464),
  (0x7024, 0x64646464), (0x7050, 0x80000000), (0x7060, 0xFF), (0x7100, 0xFF552800),
  (0x7104, 0xA012C), (0x710C, 0xFF000000), (0x7120, 0xFF552800), (0x7124, 0xA012C),
  (0x712C, 0xFF000000), (0x7140, 0xFF552800), (0x7144, 0xA012C), (0x714C, 0xFF000000),
  (0x7160, 0xFF552800), (0x7164, 0xA012C), (0x716C, 0xFF000000), (0x7180, 0xFF552800),
  (0x7184, 0xA012C), (0x718C, 0xFF000000), (0x71A0, 0xFF552800), (0x71A4, 0xA012C),
  (0x71AC, 0xFF000000), (0x71C0, 0xFF552800), (0x71C4, 0xA012C), (0x71CC, 0xFF000000),
  (0x71E0, 0xFF552800), (0x71E4, 0xA012C), (0x71EC, 0xFF000000)]

/-- The device entries and injections of R333 with the other converter registers. -/
def powerOnAdc : List (Nat × BitVec 32) := [
  (0x8100, 0x800C0000), (0x8104, 0x1), (0x8108, 0x80000000), (0x810C, 0x1000A),
  (0x8110, 0x80010000), (0x8114, 0x2000A), (0x8118, 0x80020000), (0x811C, 0x3000A),
  (0x8120, 0x80030000), (0x8124, 0x4000A), (0x8280, 0x800F0000), (0x8288, 0x800F0000),
  (0x8400, 0x10), (0x8500, 0x80040000), (0x8504, 0x1), (0x8508, 0x80080000),
  (0x850C, 0x1), (0x8510, 0x80050000), (0x8514, 0x1), (0x8518, 0x80090000),
  (0x851C, 0x1), (0x8520, 0x80060000), (0x8524, 0x1), (0x8528, 0x800A0000),
  (0x852C, 0x1), (0x8530, 0x80070000), (0x8534, 0x1), (0x8538, 0x800B0000),
  (0x853C, 0x1), (0x8540, 0x800D0000), (0x8544, 0x1), (0x8548, 0x800E0000),
  (0x854C, 0x1), (0x8550, 0xE00F1E00), (0x8554, 0x6), (0x8558, 0xC01F2200),
  (0x855C, 0x10019), (0x8560, 0xC0262900), (0x8564, 0x20019), (0x8568, 0xC02B2F00),
  (0x856C, 0x30064), (0x8570, 0x80250000), (0x8574, 0x40064), (0x8680, 0x800D0000),
  (0x8688, 0x800E0000), (0x8C00, 0x1), (0x8C40, 0x1)]

def powerOnCmp : List (Nat × BitVec 32) := [
  (0x9004, 0x1), (0x9008, 0x50000000), (0x9014, 0x1), (0x9018, 0x50000000),
  (0x9024, 0x1), (0x9028, 0x50000000), (0x9034, 0x1), (0x9038, 0x50000000),
  (0x9044, 0x1), (0x9048, 0x50000000), (0x9054, 0x1), (0x9058, 0x50000000),
  (0x9064, 0x1), (0x9068, 0x50000000), (0x9074, 0x1), (0x9078, 0x50000000),
  (0x9084, 0x1), (0x9088, 0x50000000), (0x9094, 0x1), (0x9098, 0x50000000),
  (0x90A4, 0x1), (0x90A8, 0x50000000), (0x90B4, 0x1), (0x90B8, 0x50000000),
  (0x90C4, 0x1), (0x90C8, 0x50000000), (0x90D4, 0x1), (0x90D8, 0x50000000),
  (0x90E4, 0x1), (0x90E8, 0x50000000), (0x90F4, 0x1), (0x90F8, 0x50000000),
  (0x9104, 0x4), (0x9108, 0x50000000), (0x9114, 0x4), (0x9118, 0x50000000),
  (0x9124, 0x4), (0x9128, 0x50000000), (0x9134, 0x4), (0x9138, 0x50000000),
  (0x9144, 0x8), (0x9148, 0x50000000), (0x9154, 0x8), (0x9158, 0x50000000),
  (0x9164, 0x8), (0x9168, 0x50000000), (0x9174, 0x8), (0x9178, 0x50000000)]

def powerOnCmp2 : List (Nat × BitVec 32) := [
  (0x9184, 0x4), (0x9188, 0x50000000), (0x9194, 0x4), (0x9198, 0x50000000),
  (0x91A4, 0x2), (0x91A8, 0x50000000), (0x91B4, 0x2), (0x91B8, 0x50000000),
  (0x91C0, 0x64), (0x91C4, 0x2), (0x91C8, 0x50000000), (0x91D4, 0xA),
  (0x91D8, 0x50000000), (0x91E4, 0xA), (0x91E8, 0x50000000), (0x91F4, 0xA),
  (0x91F8, 0x50000000), (0x9204, 0xA), (0x9208, 0x50000000), (0x9214, 0xA),
  (0x9218, 0x50000000), (0x9224, 0xA), (0x9228, 0x50000000), (0x9234, 0xA),
  (0x9238, 0x50000000), (0x9244, 0xA), (0x9248, 0x50000000), (0x9254, 0xA),
  (0x9258, 0x50000000), (0x9264, 0xA), (0x9268, 0x50000000), (0x9274, 0xA),
  (0x9278, 0x50000000), (0x9284, 0xA), (0x9288, 0x50000000), (0x9294, 0xA),
  (0x9298, 0x50000000), (0x92A4, 0xA), (0x92A8, 0x50000000), (0x92B4, 0xA),
  (0x92B8, 0x50000000), (0x92C4, 0xA), (0x92C8, 0x50000000), (0x92D4, 0x5),
  (0x92D8, 0x50000000), (0x92E0, 0x3FF0000), (0x92E4, 0x20000), (0x92E8, 0x50000000)]

def powerOnCmp3 : List (Nat × BitVec 32) := [
  (0x92F0, 0x3FF0000), (0x92F4, 0x20000), (0x92F8, 0x50000000), (0x9400, 0xA)]

def powerOnTw : List (Nat × BitVec 32) := [
  (0xA000, 0x8D0003), (0xA008, 0x20000000), (0xA014, 0x8), (0xA100, 0x8D0003),
  (0xA200, 0x8D0003)]

/-- The non-zero power-on values, in rising offset. DESIGN CHOICE, log entry 4. -/
def powerOnRegs : List (Nat × BitVec 32) :=
  powerOnSys ++ powerOnFlt ++ powerOnAuth ++ powerOnThm ++ powerOnTmr ++ powerOnMem ++ powerOnHif ++ powerOnHif2 ++ powerOnFeed ++ powerOnPh ++
    powerOnPh2 ++ powerOnPhp ++ powerOnChg ++ powerOnPk ++ powerOnFc ++ powerOnAdc ++ powerOnCmp ++ powerOnCmp2 ++ powerOnCmp3 ++ powerOnTw

end Sys2Proof.Machine
end

