-- ==== Sys2Proof/Machine/State.lean ====
section
/-! DEFINITION. The state of the block as plain data. `regs` is the one home of every BAR0 register; what software cannot
read (model states, timers, queues, latched operands) stands beside it, one structure per block of R32; `pending` is the
queue of commands. A quantity the manual computes without rounding is a `Rat` in the unit its comment names. -/

namespace Sys2Proof.Machine

/-- Reasons a step faults. The model raises none: every event the manual names has an effect, a drop or a refusal entry in the
device itself. -/
inductive Fault
  /-- Raised by no meaning; it keeps the type inhabited. Safe. -/
  | unreachable
deriving DecidableEq, Repr

/-- Reasons a step is refused. -/
inductive Refusal
  /-- Raised by `exec` for a command that has no meaning yet. Safe: nothing is claimed of it. -/
  | notModelled (mnemonic : String)
deriving DecidableEq, Repr

/-- The journal (R421, R425): records on their way to the writer, oldest first, the entries held in B3, oldest first, and the
next sequence number with its epoch bit. -/
structure Jnl where
  /-- Records waiting to be written, at most 64 (R421). -/
  queue : List JRec
  /-- The entries B3 holds, oldest first, at most 4,096 (R425). -/
  entries : List JEntry
  /-- SEQ of the next entry (R427). -/
  seq : Word
deriving DecidableEq, Repr

/-- An access the fabric holds because the journal queue is full (R421). -/
structure Held where
  /-- Who sent the held access (R421). -/
  origin : Origin
  /-- The offset of its register (R421). -/
  off : Nat
  /-- The word it writes (R421). -/
  val : Word
deriving DecidableEq, Repr

/-- The fault collector beside its registers (ch. 15). -/
structure FltH where
  /-- Events at the collector inputs, not yet recorded (R393). -/
  lines : List FltEvent
  /-- Sources whose grace timer runs (R400). -/
  timers : BitVec 64
  /-- The safe-state level asserted by the collector or by the SAFE-loss monitor (R404, R410). -/
  level : Bool
  /-- DEVTIME at which each grace timer started (R400). -/
  graceAt : Vector (BitVec 56) 64
  /-- A Compact pulse is running (R407). -/
  pulse : Bool
  /-- DEVTIME of the start of the pulse, or of the last edge of the heartbeat (R407). -/
  pinAt : BitVec 56
  /-- The control-processor watchdog is frozen by a debug halt (R368, R408). -/
  halted : Bool
  /-- DEVTIME of the last D2D_RETRY event, one of which is raised in any 1 ms (R392). -/
  retryAt : Option (BitVec 56)
  /-- A collector word whose check fails and that no access or scan has met since, by its offset in words (R409). -/
  upset : Option Byte
deriving DecidableEq, Repr

/-- What a stop sequence leads to: an extraction stop with its journal object, or Doldrums (R108, R179, R212). -/
inductive StopKind
  | extract (obj : Nat)
  | doldrums
deriving DecidableEq, Repr

/-- A stop sequence whose LIFE records are being written (R108, R212). -/
structure StopSeq where
  /-- Where it leads (R108, R212). -/
  kind : StopKind
  /-- The packs whose record is still to be written (R108, R210, R212). -/
  waits : Vector Bool 2
  /-- TSTOP was reached meanwhile: TJ in °C and TTRIP at the crossing (R357). -/
  tstop : Option (Int × Nat)
deriving DecidableEq, Repr

/-- SYS: bias, start-up, life-cycle and self-test beside their registers (ch. 1 to 3). -/
structure SysH where
  /-- The bias source connected, none before the first (R58). -/
  bias : Option BiasSrc
  /-- VB5 is good (R59). -/
  biasGood : Bool
  /-- Every domain except AON is stopped (R212). -/
  doldrums : Bool
  /-- A device reset is in force: RESET_N is held, or start-up has still to begin at step 3 (R71). -/
  resetHeld : Bool
  /-- The die-to-die link is up (R17). -/
  d2d : Bool
  /-- Step 3 of the running start-up has ended (R64, R414). -/
  strapsRead : Bool
  /-- Step 6 of the running start-up has ended (R64). -/
  anvilUp : Bool
  /-- The strap copy in the always-on island (R57). -/
  strapCopy : Word
  /-- The five fuses of each of life-cycle groups 1, 2 and 3 (R81). -/
  fuses : Vector (BitVec 5) 3
  /-- The change in progress: the groups it blows (R83). -/
  lcTarget : Option (BitVec 3)
  /-- Who asked for the change in progress (R83, R423). -/
  lcOrigin : Origin
  /-- The SELFTEST running: its descriptor (R78, R80). -/
  test : Option Desc
  /-- Phases the ONLINE test has still to take (R78). -/
  testLeft : List (Fin 16)
  /-- The phase out for ONLINE test (R78). -/
  testPhase : Option (Fin 16)
  /-- The state that phase had before its test where it was LOST or in OCL (R79, R132). -/
  testWas : Option PhSt
  /-- An item of the running test has failed (R80). -/
  testFailed : Bool
  /-- The Anvil fuse array failed in the running start-up, so feed checks report NOT_RUN (R66). -/
  noCheck : Bool
  /-- The extraction stop or Doldrums entry that runs (R108, R212). -/
  seq : Option StopSeq
deriving DecidableEq, Repr

/-- AUTH beside its registers (ch. 16). -/
structure AuthH where
  /-- ATTEND_N is recognised low (R414). -/
  held : Bool
  /-- DEVTIME of the release from which the 60 s count runs (R414). -/
  relAt : Option (BitVec 56)
  /-- Consecutive seal readings outside the window while INTACT = 1, or within it while INTACT = 0 (R417). -/
  sealRun : Nat
deriving DecidableEq, Repr

/-- Why a feed stopped conducting or qualifying, for the coincidences of R112. -/
inductive FeedGone
  | thermal | sc | uv | ov
deriving DecidableEq, Repr

/-- What the converters have measured (ch. 11): their owners read it here (R25, R333). -/
structure MeasH where
  /-- Per mux channel the value its owner uses, at the ball, V (R331, R337). -/
  v : Vector Rat 48
  /-- Per mux channel the last code as it stands, at the ball, V (R331, R337). -/
  raw : Vector Rat 48
  /-- The TFLT voltage of each phase, V (R117, R331). -/
  tflt : Vector Rat 16
  /-- The mux channels of which a result has reached their owner since the last reset (R346, R358). -/
  seen : BitVec 48
  /-- The phases of which a TFLT voltage has been read since the last reset (R117, R346). -/
  tseen : BitVec 16
  /-- The BUS samples of the last 10 µs, V, newest first (R119, R333). -/
  bus : List Rat
  /-- The samples of each PKn_VS of the last 250 µs, V, newest first (R159, R333). -/
  pack : Vector (List Rat) 2
deriving DecidableEq, Repr

/-- One feed beside its registers (ch. 4). -/
structure FeedH where
  /-- The three poles of the thermal model, K (R95). -/
  dT : Vector Rat 3
  /-- Consecutive thermal trips (R97). -/
  thTrips : Nat
  /-- Consecutive short-circuit trips (R102). -/
  scTrips : Nat
  /-- The trip that led to COOL was a short circuit (R97, R102). -/
  coolSc : Bool
  /-- The 10 ms hold-off after a short-circuit trip has ended (R102). -/
  holdoff : Bool
  /-- The retry conditions of COOL are met and the feed waits for R93. -/
  ready : Bool
  /-- The last thermal trip was in INRUSH, so the retry halves its DVDT (R97). -/
  halve : Bool
  /-- DVDT of the present or last attempt, V/ms (R93). -/
  dvdt : Rat
  /-- FDn_VS is 1 V or more (R90). -/
  present : Bool
  /-- The feed voltage is inside its window (R90). -/
  window : Bool
  /-- The window has been stable for the whole debounce period (R88). -/
  stable : Bool
  /-- Both comparators of the feed passed step 7 of this start-up, or R72 applies (R63). -/
  proved : Bool
  /-- A DEGRADED condition holds or has held within the last 1 s (R89). -/
  degraded : Bool
  /-- FEED_EJECT.ACT turned the path off (R107). -/
  ejected : Bool
  /-- ILIM_EFF before rounding, A (R100). -/
  ilimEff : Rat
  /-- The 10 µs mean of VFEED, V (R100). -/
  vfeed : Rat
  /-- The 10 µs mean of IFEED, A (R95, R151). -/
  ifeed : Rat
  /-- IFEED is at or above 97 % of IMAN and not yet below 95 % (R99). -/
  near : Bool
  /-- The pre-start check has failed since the last device reset (R67). -/
  failed : Bool
  /-- The VFEED samples of the last 1 ms, V, newest first (R90, R333). -/
  volts : List Rat
  /-- When and why the feed last lost its gates or its qualification, and the state it left (R112). -/
  gone : Option (BitVec 56 × FeedGone × FeedSt)
  /-- THCNT, RETRIES and the qualification as the last thermal trip found them (R112). -/
  before : Nat × Nat × Bool
deriving DecidableEq, Repr

/-- One phase beside its registers (ch. 5). -/
structure PhH where
  /-- PHn_EN (R115, R116). -/
  en : Bool
  /-- PHn_PWMB (R115). -/
  pwmb : PwmLvl
  /-- PHn_PWMK (R115). -/
  pwmk : PwmLvl
  /-- The BUS-side (buck) leg (R69). -/
  legB : LegSt
  /-- The pack-side (boost) leg (R69). -/
  legK : LegSt
  /-- Selected to drain for PHASE_MAP (R130). -/
  drain : Bool
  /-- L_i, µH (R127). -/
  li : Rat
  /-- Learning window: cycles counted (R127). -/
  lCnt : Nat
  /-- Learning window: valid cycles (R127). -/
  lValid : Nat
  /-- Learning window: the sum of the samples, µH (R127). -/
  lSum : Rat
  /-- ICMD of the present cycle, A (R125). -/
  icmd : Rat
  /-- ITH at the interval start of the present cycle, A (R125). -/
  ith0 : Rat
  /-- ILO of the present cycle, A (R126). -/
  ilo : Rat
  /-- SE of the present cycle, A/µs (R125). -/
  se : Rat
  /-- TPRED of the present cycle, µs (R125). -/
  tpred : Rat
  /-- VON of the present cycle, V (R125). -/
  von : Rat
  /-- The trip-terminated interval of the present cycle runs (R18). -/
  onTime : Bool
  /-- LEB of the present interval has ended (R18). -/
  blanked : Bool
  /-- tLO captured in the present cycle, µs (R127). -/
  tLo : Option Rat
  /-- tUP captured in the present cycle, µs (R127). -/
  tUp : Option Rat
  /-- Blend cycle k, 0 = none (R122). -/
  blend : Nat
  /-- The mode the blend leaves (R122). -/
  blendFrom : Mode
  /-- D0 of the blend (R122). -/
  d0 : Rat
  /-- B fractions of the last 8 cycles in BUCK, newest first, for D0 (R122). -/
  dB : List Rat
  /-- Where B ends in the present cycle as a fraction of T, none where the trip or the cycle's end ends it (R120, R122). -/
  bEnd : Option Rat
  /-- The mode the phase runs, changed at its cycle boundary (R121). -/
  mode : Mode
  /-- Cycles left of the 16-cycle suspension after a wake or a direction change, the present one included; 17 before the first (R123,
  R141). -/
  susp : Nat
  /-- Cycles left of the 16 after a direction change without diode emulation and pulse skipping, counted likewise (R123). -/
  turned : Nat
  /-- DEVTIME of the OCL latches of the last 1 s (R132). -/
  oclAt : List (BitVec 56)
  /-- A third latch within 1 s holds OCL until cleared (R132). -/
  oclStuck : Bool
  /-- Command accumulated since the last pulse, A (R137). -/
  acc : Rat
  /-- Pulse skipping is in force, or diode emulation acted in the last or the present cycle (R131). -/
  light : Bool
  /-- Cycles since the last one skipped for STGSKIPN (R352). -/
  skipN : Nat
  /-- Transitions BHL, BLH, KHL, KLH (bits 0 to 3) that occurred since the last adaptation (R131). -/
  edges : BitVec 4
  /-- Those that drew a report since the last adaptation (R131). -/
  reports : BitVec 4
  /-- Where the phase's cycle starts in its port cycle, as a fraction of PERIOD (R128). -/
  slot : Rat
  /-- The level of TRIPn as Cirrus reads it (R18, R20). -/
  trip : Bool
  /-- The trip wire is open (R20). -/
  wireOpen : Bool
  /-- The phase's ADCA current samples of the last 10 ms, newest first: DEVTIME, A as converted, and A as the control loops use it (R118,
  R140, R337). -/
  amps : List (BitVec 56 × Rat × Rat)
  /-- The present cycle fired a pulse (R127, R141). -/
  fired : Bool
  /-- TRIPn was high at the end of blanking in the present cycle (R139, R141). -/
  high : Bool
  /-- The estimate of the last cycle, A (R141). -/
  est : Rat
  /-- Consecutive cycles in which the estimate stayed more than 40 % below the siblings' (R141). -/
  openN : Nat
  /-- Consecutive cycles with the signs of SENSE_STUCK (R141). -/
  stuckN : Nat
  /-- Cycles started since the phase began to shed (R132, R135). -/
  shedN : Nat
  /-- The phase sheds and still counts in NACT, till the next start of a port cycle (R132). -/
  counted : Bool
  /-- In the last cycle that ended, the interval ended by an upper crossing (R141). -/
  lastUp : Bool
  /-- In the last cycle that ended, TRIPn was high at the end of blanking (R141). -/
  lastHigh : Bool
  /-- Diode emulation has acted in the present cycle (R131, R137). -/
  acted : Bool
  /-- The turn-on edges of the present cycle, as transitions BHL, BLH, KHL, KLH and µs from its start, newest first (R117). -/
  turnOns : List (Fin 4 × Rat)
deriving DecidableEq, Repr

/-- One port of the phase engine beside its registers (ch. 5). -/
structure PhpH where
  /-- IPORT_CMD as the owning loop asks, before clamping, A (R124). -/
  cmd : Rat
  /-- Cycles in the present mode, counted to 64 (R121). -/
  dwell : Nat
  /-- A thermal cap on NMAX, 16 = none (R136, R352). -/
  ncap : Nat
  /-- The means of R119, V. -/
  vpack : Rat
  /-- The port's measured current over the last 10 µs, A (R142). -/
  i10 : Rat
  /-- The port's measured current over the last 1 ms, A (R77). -/
  i1m : Rat
  /-- PERIOD in use, ticks, which moves by at most 1 % of the frequency per cycle (R128, R129). -/
  per : Nat
  /-- IPORT_CMD at the last 64 port cycle starts, A, newest first (R135). -/
  cmds : List Rat
  /-- Consecutive port cycles in which a condition of R134 has held (R134). -/
  addN : Nat
  /-- The phase whose current ADCA sampled last (R118). -/
  rot : Fin 16
  /-- DEVTIME of the last step of NCAP, or of the release that ends its fall (R352). -/
  ncapAt : BitVec 56
deriving DecidableEq, Repr

/-- The phase engine as a whole beside its registers (ch. 5). -/
structure PhGH where
  /-- 10 µs mean of BUS_VS, V (R119). -/
  vbus : Rat
  /-- The target the reference moves to, 0.1 mV codes (R144, R180). -/
  target : Nat
  /-- The slew it moves by, 0.1 V/ms codes (R144, R180). -/
  slew : Nat
  /-- SET_VTARGET running: its descriptor (R288). -/
  vt : Option Desc
  /-- A reference return to VTGT is due after hand-back: SET_VTARGET waits for it (R180). -/
  handback : Bool
  /-- PHASE_MAP with DRAIN running: its descriptor (R130). -/
  map : Option Desc
  /-- Consecutive valid SYNC_IN periods since the loss (R129). -/
  syncGood : Nat
  /-- The upper threshold of the BUS comparator, V (R138). -/
  busov : Rat
  /-- Its OR on the trip wires (R19, R138). -/
  busovOr : Bool
  /-- SYNC_IN is the reference of the PWM PLL (R129). -/
  pllSync : Bool
deriving DecidableEq, Repr

/-- A Sounding run (R166 to R170). -/
structure Sounding where
  /-- Its descriptor (R188). -/
  d : Desc
  /-- IHOLD, A (R166). -/
  ihold : Rat
  /-- IA, A (R166). -/
  ia : Rat
  /-- Started in REST (R166). -/
  fromRest : Bool
  /-- The command was limited by a term other than the stage target in the window (R169). -/
  clip : Bool
  /-- A sample in the window was SUSPECT (R169). -/
  suspect : Bool
  /-- Samples taken, at 64 kS/s; the accumulator stands at n × FREQ / FS (R167, R168). -/
  n : Nat
  /-- The sums over the window so far (R168). -/
  sums : LockIn
deriving DecidableEq, Repr

/-- One charge port beside its registers (ch. 6). -/
structure ChgH where
  /-- The profile in force (R154). -/
  prof : Option Profile
  /-- CRC field of the previous block as the journal records it (R185, R424). -/
  crc : Word
  /-- ITGT, A (R158). -/
  itgt : Rat
  /-- Output of the CV integrator, A (R159). -/
  cv : Rat
  /-- IPB, A; none = at or above ICC or not computed (R162). -/
  ipb : Option Rat
  /-- Allowed charge power of R153 and PYIELD, W; PCHGREQ, W (R171, R172). -/
  allowed : Rat
  /-- PYIELD, W (R172). -/
  pyield : Rat
  /-- PCHGREQ, W (R171). -/
  pchgreq : Rat
  /-- Gust share, W (R182). -/
  gshare : Rat
  /-- The share falls at GRAMP for lost eligibility (R183). -/
  gdrop : Bool
  /-- Share of IHU, A (R177). -/
  hshare : Rat
  /-- QUALIFY is due when the role ends (R184). -/
  requal : Bool
  /-- A rise of the command is held by NEAR until the next feed-limit update (R152). -/
  held : Bool
  /-- The TREST time has elapsed while a Sounding run holds its end (R170). -/
  restDue : Bool
  /-- µs the stage has counted (R156). -/
  stageUs : Nat
  /-- µs the pause has lasted (R173). -/
  pauseUs : Nat
  /-- µs since the last Sounding result (R164). -/
  zUs : Nat
  /-- µs since the Sounding result CREST uses (R164). -/
  zuseUs : Nat
  /-- The 250 µs mean of PKn_VS, V (R159, R160). -/
  vpack : Rat
  /-- The 250 µs mean of the converter's current, A (R159, R160). -/
  ipack : Rat
  /-- PCHGM, the measured BUS-side power in role CHARGE, W (R225). -/
  pchgm : Rat
  /-- Result in use as ZCELL: ZRE in nΩ and TZ (R164). -/
  zuse : Option (Int × Int)
  /-- The running Sounding (R166). -/
  snd : Option Sounding
  /-- SET_PROFILE commands waiting for their blocks, oldest first (R185). -/
  load : List Desc
  /-- The hold-up share falls to 0 by this much in each 1 µs, A (R179). -/
  cut : Option Rat
  /-- Consecutive charge-loop updates with the condition of the stage's 10 s dwell (R155). -/
  dwellN : Nat
  /-- Consecutive CREST updates with IPB at or above ICC (R155). -/
  crestN : Nat
  /-- Consecutive ms with the temperature outside TCMIN to TCMAX (R155). -/
  tempN : Nat
  /-- PKn_VS samples of the present 100 ms: their sum, V (R155). -/
  vSum : Rat
  /-- Their number (R155). -/
  vN : Nat
  /-- VCELL, the last 100 ms mean per cell, V; none until 100 ms have passed since QUALIFY began (R155). -/
  vcell : Option Rat
  /-- Consecutive such means at or above VQUAL (R155). -/
  qualN : Nat
  /-- Consecutive PKn_VS samples below NCELL × VCUT (R179). -/
  cutN : Nat
  /-- µs the Gust share has been 0 (R183). -/
  gzero : Nat
  /-- In role CHARGE: 0 = PCHGREQ not published yet; 1 = published; 2 = answered by a PYIELD (R171 to R173). -/
  claim : Nat
deriving DecidableEq, Repr

/-- The charger as a whole beside its registers (ch. 6). -/
structure ChgGH where
  /-- PFL, W (R151). -/
  pfl : Rat
  /-- PG, W (R153). -/
  pg : Rat
  /-- INT, A (R176). -/
  int : Rat
  /-- IFLOOR, A (R176). -/
  ifloor : Rat
  /-- IHU, A (R176). -/
  ihu : Rat
  /-- INT holds its preset until VBUS first falls to VREF (R175, R176). -/
  preset : Bool
  /-- The hold-up THR assertion is in force (R178). -/
  hulow : Bool
  /-- Consecutive BUS samples below VREF × HULOW / 100 (R178). -/
  lowN : Nat
  /-- Consecutive BUS samples above VREF × (HULOW + 2) / 100 (R178). -/
  highN : Nat
deriving DecidableEq, Repr

/-- One pack port beside its registers (ch. 7). -/
structure PkH where
  /-- The identity read at insertion, none where it failed or has not ended (R201, R205). -/
  ident : Option Ident
  /-- The identity read has ended (R193). -/
  read : Bool
  /-- PKn_VS, V (R196). -/
  v : Rat
  /-- The first thermistor, °C, none = invalid (R197). -/
  t0 : Option Int
  /-- The second thermistor, °C, none = invalid (R197). -/
  t1 : Option Int
  /-- A gate held off by an OV trip (R196). -/
  ovOff : Bool
  /-- A gate held off by a UV trip (R196). -/
  uvOff : Bool
  /-- A gate held off by an OT trip (R196). -/
  otOff : Bool
  /-- The trip behind TRIPPED (R196). -/
  trip : PkTrip
  /-- DEVTIME of the short-circuit trips of the last 10 s (R196). -/
  scAt : List (BitVec 56)
  /-- DEVTIME of a failed close, while its wait of 1 s may run (R192). -/
  closeAt : Option (BitVec 56)
  /-- A close has ended and R194 has not yet decided about the discharge FET. -/
  probing : Bool
  /-- The discharge FET was reopened after the close (R194). -/
  reopened : Bool
  /-- Opened because a probe found a boost leg SHORTED; holds until a device reset (R70). -/
  shorted : Bool
  /-- The result in force (R204). -/
  auth : AuthRes
  /-- An authentication run is due or in progress (R205). -/
  running : Bool
  /-- A run waits for a profile (R205). -/
  waiting : Bool
  /-- Consecutive BUS results (R204). -/
  busN : Nat
  /-- The fleet slot of the last PASS (R203, R204). -/
  slot : Option (Fin 4)
  /-- PACK_AUTH AUTHENTICATE commands that joined the run (R216). -/
  joined : List Desc
  /-- FCC came from a default because no CAP was known (R200). -/
  fccDefault : Bool
  /-- The last reference: some true = FULL, some false = EMPTY (R200). -/
  lastRef : Option Bool
  /-- The charge counted since that reference, µC (R200). -/
  refQ : Rat
  /-- The exact quantity behind SOC, % (R200). -/
  soc : Rat
  /-- The exact quantity behind PKn_Q, µC (R199). -/
  q : Rat
  /-- The exact quantity behind QOUT, µC (R208). -/
  qout : Rat
  /-- The exact quantity behind EFC, 0.001 cycle (R208). -/
  efc : Rat
  /-- The 10 ms mean of PKn_I: the sum, A (R199). -/
  iSum : Rat
  /-- The number of its samples (R199). -/
  iCnt : Nat
  /-- Samples counted toward the next minute of COULn_STAT.OFSAGE (R342). -/
  ofsN : Nat
  /-- Coulomb samples for which both FETs have been open, up to those of 2 s (R342). -/
  openN : Nat
  /-- Samples of the offset measurement that runs (R342). -/
  ofsCnt : Nat
  /-- Their sum, in codes before the offset (R342). -/
  ofsSum : Int
  /-- The LIFE slot holding the newest valid record (R210). -/
  lifeSlot : Fin 2
  /-- The SEQ of that record (R210). -/
  lifeSeq : Nat
  /-- Consecutive failed write-backs (R210). -/
  wbFails : Nat
  /-- LIFE writes due (R210). -/
  wbDue : Nat
  /-- The last record written to the pack, with its slot (R209, R210). -/
  written : Option (Fin 2 × LifeRec)
  /-- Consecutive failed Rarex transactions (R201). -/
  txFails : Nat
  /-- What the Rarex replies have brought (R201). -/
  rx : RxData
  /-- DEVTIME of the trip behind TRIPPED (R196). -/
  tripAt : BitVec 56
  /-- Consecutive PKn_VS samples above 1.01 × UVH (R194, R196). -/
  aboveN : Nat
  /-- Consecutive PKn_VS samples below 0.99 × OVH (R196). -/
  belowN : Nat
  /-- Consecutive ms with the pack temperature at or above THARD (R196). -/
  hotN : Nat
  /-- Consecutive ms with it below THARD − 5 °C (R196). -/
  coolN : Nat
  /-- The thermistors read since the pack came: bit 0, the first (R197). -/
  thSeen : BitVec 2
  /-- NOTEMP has been raised and both readings are still invalid (R197). -/
  noTemp : Bool
  /-- Time counted toward the next hour of TEXPH, AON ticks (R208). -/
  texpTicks : Nat
deriving DecidableEq, Repr

/-- The fuse key store, B4 and the always-on island (ch. 7, 13, 14). -/
structure AonH where
  /-- Fleet-key slots: key, valid fuse, void fuse (R203). -/
  keys : Vector (BitVec 512 × Bool × Bool) 4
  /-- The keys loaded in B4 (R203, R388). -/
  b4 : Vector (Option (BitVec 512)) 4
  /-- The certificates in B4, with their issuer's, of a pack whose chain a run has found good (R204, R375). -/
  b4certs : Vector (Option (Cert × Option Cert)) 2
  /-- PACK_AUTH LOAD_KEY commands waiting for their keys, oldest first (R216). -/
  keyLoad : List Desc
  /-- A B4 wipe runs, and its cause as MEM_WIPE.CAUSE codes it (R387). -/
  wiping : Option Nat
  /-- The seal keeps B4 EMPTY (R388). -/
  sealedOut : Bool
  /-- Consecutive true ticks of S0 to S3 (R213 to R215). -/
  sent : Vector Nat 4
  /-- Consecutive ticks of WAKE_N low (R214). -/
  wakeTicks : Nat
  /-- Press-to-wake per port: ticks high, ticks low after it (R214). -/
  press : Vector (Nat × Nat) 2
  /-- A removal seen in Doldrums or in a device reset (R190, R214). -/
  removed : Vector Bool 2
  /-- A pack is in the port as far as the island knows, over a device reset and Doldrums too (R190, R208, R214, R215). -/
  present : Vector Bool 2
  /-- DEVTIME saved in the island (R369). -/
  savedTime : BitVec 56
  /-- AON cycles since it was saved (R369). -/
  cycles : BitVec 48
  /-- The 1 kHz ticks since then, modulo 125, in which 4,096 cycles pass (R213, R369). -/
  tick : Fin 125
  /-- DEVTIME of the last write to an AON register (R30). -/
  busyAt : Option (BitVec 56)
  /-- The correction of the AON internal oscillator, 0.1 % per code (R356). -/
  trim : Int
  /-- Per port the AON ticks toward the next day of AGE, and the days its LIFE record does not hold yet (R208). -/
  age : Vector (Nat × Nat) 2
deriving DecidableEq, Repr

/-- States of a Grant Table entry (R222). -/
inductive GtSt
  | idle | granted | revoking | throttled
deriving DecidableEq, Repr

/-- A resident Grant Table entry: a line of the consumer cache (R222, R237). -/
structure GtLine where
  /-- The consumer the line belongs to (R222). -/
  cid : Nat
  /-- Host part: CEIL (R222). -/
  ceil : Nat
  /-- Host part: PRIO (R222). -/
  prio : Nat
  /-- Host part: ACCT (R222, R240). -/
  acct : Bool
  /-- Host part: REVX (R222, R243). -/
  revx : Bool
  /-- Host part: VALID (R222). -/
  valid : Bool
  /-- Host part: ZMAP (R222). -/
  zmap : BitVec 8
  /-- Host part: THRMASK (R222, R244). -/
  thrmask : BitVec 8
  /-- Host part: RVKDL (R222). -/
  rvkdl : Nat
  /-- Device part: ACCOUNT (R222, R240). -/
  account : Nat
  /-- Device part: GPWR (R222). -/
  gpwr : Nat
  /-- Device part: STATE (R222, R224). -/
  st : GtSt
  /-- Device part: SAT (R222, R240). -/
  sat : Bool
  /-- Device part: GEN (R222). -/
  gen : BitVec 16
  /-- Device part: RVN (R222). -/
  rvn : Nat
  /-- Device part: GEND (R222, R236). -/
  gend : BitVec 48
  /-- Device part: GUPD (R222, R240). -/
  gupd : BitVec 48
  /-- Device part: AFRAC (R222, R240). -/
  afrac : Nat
  /-- Written since the last write-back (R239). -/
  dirty : Bool
  /-- DEVTIME of the grant (R242). -/
  granted : BitVec 56
  /-- DEVTIME of the revoke deadline, counted from the selection (R243). -/
  due : BitVec 56
  /-- The use count of its last use (R238). -/
  used : Nat
  /-- The number of its line in the cache (R375, R383). -/
  slot : Nat
  /-- THROTTLED pins were asserted and the REVOKE has been seen by the host: REVSEEN (R222, R244). -/
  seen : Bool
deriving DecidableEq, Repr

/-- A claim on throttle pins that ends at a THROTTLE_RELEASE (R244). -/
structure ThrClaim where
  /-- The consumer whose entry asserted pins (R244). -/
  cid : Nat
  /-- The pins (R244). -/
  mask : BitVec 8
  /-- The entry is still THROTTLED (R244). -/
  live : Bool
  /-- DEVTIME of the assertion, from which THRMIN runs (R244). -/
  at_ : BitVec 56
deriving DecidableEq, Repr

/-- A request that waits for a cache fill (R237). -/
structure Miss where
  /-- The ring of the request (R237). -/
  ring : Fin 64
  /-- The request (R237). -/
  d : Desc
deriving DecidableEq, Repr

/-- The inputs of the budget as the last snapshot took them, lowered since by the events of R26. -/
structure FcSnap where
  /-- PFEED and the gust shares that stood as FEEDS_LOST came between two snapshots: the capacity may not rise above them before the
  next one (R26). -/
  before : Option (Rat × Vector (Option (Rat × Rat)) 2)
  /-- FEEDS_LOST (R225). -/
  lost : Bool
  /-- EJECT (R225). -/
  eject : Bool
  /-- PFEED, W (R227). -/
  pfeed : Rat
  /-- Per port the share GRPCT of PGMAX, W, and of the energy above GFLOOR, J, where it is Gust-eligible (R227). -/
  gust : Vector (Option (Rat × Rat)) 2
  /-- Per port the share HUPCT of POUTMAX, W, and of the energy, J, where it is in HOLDUP (R228). -/
  hold : Vector (Option (Rat × Rat)) 2
  /-- PCHGREQ per port, 0 outside CHARGE, W (R225). -/
  req : Vector Rat 2
  /-- PCHGKEEP, W (R229). -/
  keep : Rat
  /-- TZ per zone, °C (R230). -/
  temp : Vector (Option Rat) 8
  /-- TLIMe per zone, °C (R230). -/
  lim : Vector Rat 8
deriving DecidableEq, Repr

/-- Forecast beside its registers (ch. 8). -/
structure FcH where
  /-- The inputs of the last snapshot or recomputation (R225, R232). -/
  snap : FcSnap
  /-- RVKDL of each context (R219). -/
  rvkdl : Vector Nat 64
  /-- The lines of the consumer cache in B1, at most 4,096 (R237). -/
  lines : List GtLine
  /-- The pins THROTTLED entries assert (R244). -/
  claims : List ThrClaim
  /-- Requests whose entries are being fetched (R237). -/
  misses : List Miss
  /-- PBASE, W (R226). -/
  pbase : Rat
  /-- PLOAD, W (R225). -/
  pload : Rat
  /-- Snapshots the overrun condition has held (R241). -/
  overN : Nat
  /-- Snapshots the shortfall condition has held (R242). -/
  shortN : Nat
  /-- Snapshots each zone shortfall has held (R242). -/
  zoneN : Vector Nat 8
  /-- Snapshots the static condition of each pin has held (R247). -/
  statN : Vector Nat 8
  /-- The pins the static condition asserts (R247). -/
  statOn : BitVec 8
  /-- DEVTIME of each such assertion (R247). -/
  statAt : Vector (BitVec 56) 8
  /-- A use counter for least-recently-used replacement (R238). -/
  clock : Nat
  /-- DEVTIME of the last write of each zone's host temperature (R255). -/
  htAt : Vector (BitVec 56) 8
  /-- Decisions in the present 1 ms (R255). -/
  decN : Nat
  /-- Misses in the present 1 ms (R255). -/
  missN : Nat
  /-- Which 1 ms it is (R255). -/
  rateMs : Nat
  /-- Decision slots, modulo 64 (R221). -/
  slot : Nat
  /-- The decisions each ring has had in the present round of its band (R221). -/
  served : Vector Nat 64
deriving DecidableEq, Repr

/-- A consumed run that waits its turn (R270): its descriptors, and where a check failed the status, qualifier and result it
completes with. -/
structure SqItem where
  /-- The chain, head first (R270). -/
  ds : List Desc
  /-- The STATUS, QUAL and RESULT of a run that does not execute (R269, R270, R273, R274). -/
  err : Option (Nat × Nat × Nat)
  /-- DEVTIME of the doorbell that made its head pending (R221). -/
  at_ : BitVec 56
deriving DecidableEq, Repr

/-- One ring pair beside its registers (ch. 9). -/
structure RingH where
  /-- The push slot: half 0 then half 1, each byte present where it was written since the last accepted doorbell (R264). -/
  push : Vector (Option Byte) 64
  /-- Copies of pending descriptors, latched or fetched, by ring index (R264). -/
  copies : List (Nat × Desc)
  /-- DEVTIME of the doorbell that made each pending index pending (R221). -/
  rung : List (Nat × BitVec 56)
  /-- A descriptor fetch is in flight (R260, R263). -/
  fetching : Bool
  /-- Runs consumed and waiting for execution, oldest first (R276, R277). -/
  sq : List SqItem
  /-- Completion and unsolicited entries waiting for room, oldest first (R272, R276). -/
  cq : List Compl
  /-- Commands started and not yet completed (admin ring, R277). -/
  started : List Desc
  /-- Counted entries since the last message (R291). -/
  counted : Nat
  /-- DEVTIME of the first counted entry after the last message (R291). -/
  since : Option (BitVec 56)
  /-- NOTICE entries other than THROTTLED queued (R254). -/
  notices : Nat
deriving DecidableEq, Repr

/-- A running capture of GET_TELEMETRY (R285). -/
structure TelRun where
  /-- The command (R285). -/
  d : Desc
  /-- The scatter elements, in order (R285). -/
  elems : List (BitVec 64)
  /-- Records written (R285). -/
  done : Nat
  /-- A record was skipped: staging full, or uncorrectable (R285, R376, R383). -/
  gap : Bool
  /-- The first sequence number whose EVENT record it has not yet looked at (R284, R285). -/
  next : BitVec 32
deriving DecidableEq, Repr

/-- A SET_LIMITS set validated and waiting for the snapshot boundary (R283): its descriptor, its class, the merged bits of each
register, and its records. -/
structure LimSet where
  /-- The command (R282). -/
  d : Desc
  /-- Its write class by the registers it names (R114, R283). -/
  cls : Nat
  /-- Offset, mask and value, in the order first named (R282, R283). -/
  regs : List (Nat × Word × Word)
  /-- Its records, in order, for CLAMPED (R282). -/
  recs : List LimRec
deriving DecidableEq, Repr

/-- A JOURNAL_DRAIN with FREE whose completion has not been issued (R286): the first entry copied and how many, and how many completions of
drains queued before it go first. -/
structure Drain where
  /-- SEQ of the first entry copied (R286). -/
  first : Word
  /-- Entries copied (R286). -/
  count : Nat
  /-- Completions of earlier drains that wait before its own (R286). -/
  ahead : Nat
deriving DecidableEq, Repr

/-- The host interface beside its registers (ch. 9). -/
structure HifH where
  /-- Admin commands taken and not started, in ring order (R64, R277, R278). -/
  held : List (List Desc)
  /-- SET_LIMITS sets waiting for the snapshot, oldest first (R282). -/
  limits : List LimSet
  /-- The GET_TELEMETRY that runs (R285). -/
  tel : Option TelRun
  /-- The JOURNAL_DRAIN with FREE that releases with its completion (R286). -/
  drain : Option Drain
  /-- Telemetry kept in B2, oldest first (R284). -/
  history : List TelRec
  /-- The sequence number of the next telemetry record (R284). -/
  telSeq : BitVec 32
  /-- Posted writes held while Bus Master Enable is clear, in order (R261). -/
  heldOut : List HostOut
  /-- GET_TELEMETRY runs whose lists were being read as EN was cleared (R260, R267). -/
  lists : List (List Desc)
  /-- Admin commands that a link loss or the end of their ring left running: no completion of theirs is ever written (R267, R290). -/
  lost : List Desc
  /-- The function is in D3hot (R256, R261). -/
  d3 : Bool
  /-- What the host has programmed in configuration space (R256, R261). -/
  cfg : PciCfg
  /-- The errors reported through Advanced Error Reporting, which is sticky: completion timeout, Unsupported Request or Completer
  Abort, poisoned, and an Unsupported Request received (R256, R258, R260, R261). -/
  aer : BitVec 4
deriving DecidableEq, Repr

/-- One two-wire port beside its registers (ch. 10): 0 = M; 1 = PK0; 2 = PK1. -/
structure TwH where
  /-- The bus is busy (R299). -/
  busy : Bool
  /-- SDA is checked before the next controller transaction (R312). -/
  check : Bool
  /-- M: the bytes of a transaction that went on with a repeated START, from its first address byte (R300, R303). -/
  part : Option (List Byte)
  /-- The bytes the device sent last: M in a read, an alert response or Host Notify (R301, R308, R309), PK0 and PK1 in a Rarex
  transaction (R201). -/
  sent : List Byte
  /-- M: a Host Notify is pending (R309). -/
  hnPend : Bool
  /-- M: its failed attempts (R309). -/
  hnFails : Nat
  /-- M: DEVTIME of its alert (R309). -/
  hnAt : BitVec 56
  /-- M: DEVTIME of its last failed attempt (R309). -/
  hnTry : BitVec 56
  /-- M: an enabled source line rose while no SMBus alert was pending: ALERT_N is due (R308). -/
  dueAlert : Bool
  /-- M: one rose while no Host Notify was pending (R308). -/
  dueNotify : Bool
deriving DecidableEq, Repr

/-- One comparator beside its registers (ch. 11): consecutive auto-zero failures of stages A and B (R328). -/
structure CmpH where
  /-- Consecutive failed auto-zeros of stage A (R328). -/
  failA : Nat
  /-- Consecutive failed auto-zeros of stage B (R328). -/
  failB : Nat
  /-- The input as a DAC code where it was last seen (R321, R343). -/
  x : Option Int
  /-- DEVTIME of the start of timer blanking (R325). -/
  blankAt : BitVec 56
  /-- An assertion that blanking or settling holds back: of the upper output, and the DEVTIME at which it ends (R323, R325). -/
  late : Option (Bool × BitVec 56)
  /-- The DEVTIME at which the settling after a change of mode ends (R323). -/
  settle : Option (BitVec 56)
  /-- The spare stage is nulled and waits to be swapped in (R327). -/
  swap : Bool
deriving DecidableEq, Repr

/-- What an entry's word A gives (ADCx_SEQe_A): channel, ALT, REF, sampling time (R330, R331). -/
structure Entry where
  ch : Nat
  alt : Bool
  ref : Bool
  smp : Nat
deriving DecidableEq, Repr

/-- What the owner of a channel held before a result came (R336): the voltage it works with and the one converted, its last samples, how
many in a row lie below and above the marks of R178, and the results in a row that were not GOOD. -/
structure Taken where
  v : Rat
  raw : Rat
  list : List Rat
  low : Nat
  high : Nat
  bad : Nat
deriving DecidableEq, Repr

/-- One entry as it ran in a pass (R332, R336): its start and end, its result register before it, and what its owner held. -/
structure AdcRun where
  i : Fin 32
  e : Entry
  start : Rat
  stop : Rat
  word : Word
  was : Option Taken
deriving DecidableEq, Repr

/-- A system injection under way (R336). -/
structure SysRun where
  k : Fin 4
  e : Entry
  start : Rat
  stop : Rat
deriving DecidableEq, Repr

/-- One converter beside its registers (ch. 11). Times are in ns of DEVTIME. -/
structure AdcH where
  /-- Entries due and not yet run (R332, R334). -/
  due : BitVec 32
  /-- Entries armed by their triggers (R334). -/
  armed : BitVec 32
  /-- Position of each scan, entries then injections (R332). -/
  scan : Vector Nat 36
  /-- System injections triggered and not yet run, in order (R334, R336). -/
  inj : List (Fin 4)
  /-- The start of the last pass (R333, R336). -/
  passFrom : Rat
  /-- The end of the last pass (R333, R336). -/
  passEnd : Rat
  /-- The start of the last injection (R336). -/
  injFrom : Rat
  /-- The end of the last injection (R336). -/
  injEnd : Rat
  /-- The last injection was the system's (R336). -/
  injSys : Bool
  /-- The last system injection (R336). -/
  sysRun : Option SysRun
  /-- The entries of the passes under way, in order (R332, R336). -/
  runs : List AdcRun
  /-- Recovery windows, each from its start to its end (R338). -/
  wins : List (Rat × Rat)
  /-- Consecutive results of a channel that were not GOOD (R337). -/
  bad : Vector Nat 48
  /-- This converter has a cross-check code (R340). -/
  checked : Bool
  /-- Consecutive checks in which each reference disagreed with both others (R340). -/
  refBad : Vector Nat 3
  /-- Consecutive checks in which the converters disagreed (R340). -/
  convBad : Nat
deriving DecidableEq, Repr

/-- One timer beside its registers (ch. 13). -/
structure TmrH where
  /-- Unread captures per channel, oldest first (R363). -/
  cap : Vector (List Word) 4
  /-- The last value read per channel (R363). -/
  last : Vector Word 4
  /-- Source edges counted by the prescaler in EXTCLK (R365). -/
  ext : Nat
  /-- PSC as the prescaler uses it: a write takes effect at its next roll-over, or as EN rises (R359). -/
  psc : Nat
  /-- The blanking output (R366). -/
  blk : Bool
  /-- The level of SYNC_IN at the last increment due (R364). -/
  sync : Bool
  /-- The source whose edge waits to act on the timer (R364, R365). -/
  edge : Option Nat
  /-- The source whose edge waits to be captured, per channel (R363, R364). -/
  capEdge : Vector (Option Nat) 4
deriving DecidableEq, Repr

/-- Thermal management beside its registers (ch. 12). -/
structure ThmH where
  /-- Consecutive readings that differ (R348). -/
  diff : Vector Nat 9
  /-- Consecutive good readings of a SUSPECT sensor (R348). -/
  good : Vector Nat 9
  /-- The last TJ readings, newest first (R350, R354). -/
  hist : List Int
  /-- Consecutive invalid readings of each stage (R346). -/
  stgBad : Vector Nat 16
  /-- Stages past TSTG1: bit n (R352). -/
  skip : BitVec 16
  /-- Stages past TSTG2: bit n (R352). -/
  cap : BitVec 16
  /-- Excluded phases: past TSTG3, or without a valid stage temperature: bit n (R346, R352). -/
  excl : BitVec 16
  /-- Stages past TSTG3: bit n (R352). -/
  hot : BitVec 16
  /-- Clock throttle in force (R353). -/
  clk : Bool
deriving DecidableEq, Repr

/-- The memory banks beside their registers (ch. 14). -/
structure MemH where
  /-- Spare columns fuses assign in each bank (R385). -/
  fuseSpares : Vector Nat 5
  /-- B0: the bytes the control processor has put there, by offset; no command reads or writes one, and an unlisted byte is not known
  (R375). -/
  b0 : List Host.Cell
deriving DecidableEq, Repr

/-- The whole state. -/
structure State where
  /-- Every BAR0 register, by offset. -/
  regs : RegFile
  /-- DEVTIME (R13). -/
  devtime : BitVec 56
  jnl : Jnl
  /-- Accesses held by the fabric (R421). -/
  heldAcc : List Held
  flt : FltH
  sys : SysH
  auth : AuthH
  feed : Vector FeedH 4
  ph : Vector PhH 16
  php : Vector PhpH 2
  phg : PhGH
  meas : MeasH
  chg : Vector ChgH 2
  chgg : ChgGH
  pk : Vector PkH 2
  aon : AonH
  fc : FcH
  ring : Vector RingH 64
  hif : HifH
  tw : Vector TwH 3
  cmp : Vector CmpH 48
  adc : Vector AdcH 2
  tmr : Vector TmrH 8
  thm : ThmH
  mem : MemH
  /-- What the device has sent on the host link, oldest first (R259). -/
  out : List HostOut
  /-- The words the last register read returned. -/
  rdata : List Word
  /-- MODEL'S OWN: how many values the manual leaves open have been drawn. -/
  freeCtr : Nat
  /-- The commands that wait, first in first out. -/
  pending : List Instr
deriving DecidableEq, Repr

/-- A feed after power-on reset (R95: the model starts at 0). -/
def FeedH.reset : FeedH where
  dT := Vector.replicate 3 0
  thTrips := 0
  scTrips := 0
  coolSc := false
  holdoff := false
  ready := false
  halve := false
  dvdt := 0
  present := false
  window := false
  stable := false
  proved := false
  degraded := false
  ejected := false
  ilimEff := 20
  vfeed := 0
  ifeed := 0
  near := false
  failed := false
  volts := []
  gone := none
  before := (0, 0, false)

/-- A phase after power-on reset: L_i at the power-on LMIN, 0.22 µH (R127), outputs low (R46), the trip wire pulled up (R20). -/
def PhH.reset : PhH where
  en := false
  pwmb := .low
  pwmk := .low
  legB := .notProbed
  legK := .notProbed
  drain := false
  li := 22 / 100
  lCnt := 0
  lValid := 0
  lSum := 0
  icmd := 0
  ith0 := 0
  ilo := 0
  se := 0
  tpred := 0
  von := 0
  onTime := false
  blanked := false
  tLo := none
  tUp := none
  blend := 0
  blendFrom := .buck
  d0 := 0
  dB := []
  bEnd := none
  mode := .buck
  susp := 0
  turned := 0
  oclAt := []
  oclStuck := false
  acc := 0
  light := false
  skipN := 0
  edges := 0
  reports := 0
  slot := 0
  trip := true
  wireOpen := false
  amps := []
  fired := false
  high := false
  est := 0
  openN := 0
  stuckN := 0
  shedN := 0
  counted := false
  lastUp := false
  lastHigh := false
  acted := false
  turnOns := []

/-- A port of the phase engine after reset, at the power-on PERIOD. -/
def PhpH.reset : PhpH where
  cmd := 0
  dwell := 64
  ncap := 16
  vpack := 0
  i10 := 0
  i1m := 0
  per := 25600
  cmds := []
  addN := 0
  rot := 15
  ncapAt := 0

/-- Nothing measured yet. -/
def MeasH.reset : MeasH where
  v := Vector.replicate 48 0
  raw := Vector.replicate 48 0
  tflt := Vector.replicate 16 0
  seen := 0
  tseen := 0
  bus := []
  pack := Vector.replicate 2 []

/-- A charge port after power-on reset: no profile (R154). -/
def ChgH.reset : ChgH where
  prof := none
  crc := 0
  itgt := 0
  cv := 0
  ipb := none
  allowed := 0
  pyield := 0
  pchgreq := 0
  gshare := 0
  gdrop := false
  hshare := 0
  requal := false
  held := false
  restDue := false
  stageUs := 0
  pauseUs := 0
  zUs := 0
  zuseUs := 0
  vpack := 0
  ipack := 0
  pchgm := 0
  zuse := none
  snd := none
  load := []
  cut := none
  dwellN := 0
  crestN := 0
  tempN := 0
  vSum := 0
  vN := 0
  vcell := none
  qualN := 0
  cutN := 0
  gzero := 0
  claim := 0

/-- An empty pack port (R190). -/
def PkH.reset : PkH where
  ident := none
  read := false
  v := 0
  t0 := none
  t1 := none
  ovOff := false
  uvOff := false
  otOff := false
  trip := .occ
  scAt := []
  closeAt := none
  probing := false
  reopened := false
  shorted := false
  auth := .none
  running := false
  waiting := false
  busN := 0
  slot := none
  joined := []
  fccDefault := false
  lastRef := none
  refQ := 0
  soc := 0
  q := 0
  qout := 0
  efc := 0
  iSum := 0
  iCnt := 0
  ofsN := 0
  openN := 0
  ofsCnt := 0
  ofsSum := 0
  lifeSlot := 0
  lifeSeq := 0
  wbFails := 0
  wbDue := 0
  written := none
  txFails := 0
  rx := RxData.none
  tripAt := 0
  aboveN := 0
  belowN := 0
  hotN := 0
  coolN := 0
  thSeen := 0
  noTemp := false
  texpTicks := 0

/-- A ring pair after reset (R294). -/
def RingH.reset : RingH where
  push := Vector.replicate 64 none
  copies := []
  rung := []
  fetching := false
  sq := []
  cq := []
  started := []
  counted := 0
  since := none
  notices := 0

/-- Configuration space after PE_PERST_N (R261), as PCI Express resets it: 128 B payloads, 512 B read requests, the rest off.
PRESUMED, log entry 37. -/
def PciCfg.reset : PciCfg := ⟨0, 0, 0, false, 2, false, false, false, false, false, 0⟩

/-- Forecast after reset: static mode, nothing resident; PBASE starts at the power-on BASEMIN (R226). -/
def FcH.reset : FcH where
  snap := ⟨none, false, false, 0, Vector.replicate 2 none, Vector.replicate 2 none, Vector.replicate 2 0, 0, Vector.replicate 8 none,
    Vector.replicate 8 0⟩
  rvkdl := Vector.replicate 64 0
  lines := []
  claims := []
  misses := []
  pbase := 500
  pload := 0
  overN := 0
  shortN := 0
  zoneN := Vector.replicate 8 0
  statN := Vector.replicate 8 0
  statOn := 0
  statAt := Vector.replicate 8 0
  clock := 0
  htAt := Vector.replicate 8 0
  decN := 0
  missN := 0
  rateMs := 0
  slot := 0
  served := Vector.replicate 64 0

/-- A converter after reset. -/
def AdcH.reset : AdcH where
  due := 0
  armed := 0
  scan := Vector.replicate 36 0
  inj := []
  passFrom := 0
  passEnd := 0
  injFrom := 0
  injEnd := 0
  injSys := false
  sysRun := none
  runs := []
  wins := []
  bad := Vector.replicate 48 0
  checked := false
  refBad := Vector.replicate 3 0
  convBad := 0

/-- A timer after reset. -/
def TmrH.reset : TmrH where
  cap := Vector.replicate 4 []
  last := Vector.replicate 4 0
  ext := 0
  psc := 0
  blk := false
  sync := false
  edge := none
  capEdge := Vector.replicate 4 none

/-- A two-wire port after reset. -/
def TwH.reset : TwH where
  busy := true
  check := true
  part := none
  sent := []
  hnPend := false
  hnFails := 0
  hnAt := 0
  hnTry := 0
  dueAlert := false
  dueNotify := false

/-- A comparator after reset. -/
def CmpH.reset : CmpH where
  failA := 0
  failB := 0
  x := none
  blankAt := 0
  late := none
  settle := none
  swap := false

/-- Thermal management after reset. -/
def ThmH.reset : ThmH where
  diff := Vector.replicate 9 0
  good := Vector.replicate 9 0
  hist := []
  stgBad := Vector.replicate 16 0
  skip := 0
  cap := 0
  excl := 0
  hot := 0
  clk := false

/-- The machine after power-on reset, before any bias: every register at its power-on value, every output off (R46, R59). The
part leaves Witaco in PROVISIONED with no fleet key (R3). DESIGN CHOICE, log entries 5 and 6.
DESIGN CHOICE, log entry 129. -/
def State.reset : State where
  regs := powerOnRegs
  devtime := 0
  jnl := ⟨[], [], 0⟩
  heldAcc := []
  flt := ⟨[], 0, false, Vector.replicate 64 0, false, 0, false, none, none⟩
  sys := ⟨none, false, false, false, false, false, false, 0, #v[31, 0, 0], none, .cp, none, [], none, none, false, false, none⟩
  auth := ⟨false, none, 0⟩
  feed := Vector.replicate 4 FeedH.reset
  ph := Vector.replicate 16 PhH.reset
  php := Vector.replicate 2 PhpH.reset
  phg := ⟨0, 440000, 10, none, false, none, 0, 0, false, false⟩
  meas := MeasH.reset
  chg := Vector.replicate 2 ChgH.reset
  chgg := ⟨0, 0, 0, 0, 0, false, false, 0, 0⟩
  pk := Vector.replicate 2 PkH.reset
  aon := ⟨Vector.replicate 4 (0, false, false), Vector.replicate 4 none, Vector.replicate 2 none, [], none, false, Vector.replicate 4 0,
    0, Vector.replicate 2 (0, 0), Vector.replicate 2 false, Vector.replicate 2 false, 0, 0, 0, none, 0, Vector.replicate 2 (0, 0)⟩
  fc := FcH.reset
  ring := Vector.replicate 64 RingH.reset
  hif := ⟨[], [], none, none, [], 0, [], [], [], false, PciCfg.reset, 0⟩
  tw := Vector.replicate 3 TwH.reset
  cmp := Vector.replicate 48 CmpH.reset
  adc := Vector.replicate 2 AdcH.reset
  tmr := Vector.replicate 8 TmrH.reset
  thm := ThmH.reset
  mem := ⟨Vector.replicate 5 0, []⟩
  out := []
  rdata := []
  freeCtr := 0
  pending := []

end Sys2Proof.Machine
end

