-- ==== Sys2Proof/Machine/Ops.lean ====
section
/-! DEFINITION. The named operations every meaning is built from: registers and fields, per-block state, events and their
source lines, faults, journal records, completions, notices and free values. -/

namespace Sys2Proof.Machine

/-! ### Registers -/

/-- A whole register. -/
def State.word (s : State) (off : Nat) : Word := s.regs.get off

/-- Store a whole register. -/
def State.setWord (s : State) (off : Nat) (w : Word) : State := { s with regs := s.regs.set off w }

/-- A field. -/
def State.fld (s : State) (f : Fld) : Nat := s.regs.fld f

/-- Store a field. -/
def State.setFld (s : State) (f : Fld) (v : Nat) : State := { s with regs := s.regs.setFld f v }

/-- Is a field other than 0? -/
def State.on (s : State) (f : Fld) : Bool := s.fld f != 0

/-- Store a one-bit field. -/
def State.setOn (s : State) (f : Fld) (b : Bool) : State := s.setFld f (if b then 1 else 0)

/-- A count that sticks at its field's maximum. -/
def State.count (s : State) (f : Fld) : State :=
  if s.fld f + 1 < 2 ^ f.width then s.setFld f (s.fld f + 1) else s

/-- A field as a two's complement number. -/
def State.sfld (s : State) (f : Fld) : Int := signed f.width (s.fld f)

/-- Store a two's complement number in a field, held at the ends of its range. -/
def State.setSfld (s : State) (f : Fld) (i : Int) : State :=
  s.setFld f (unsigned f.width (max (-(2 ^ (f.width - 1) : Nat)) (min ((2 ^ (f.width - 1) : Nat) - 1) i)))

/-- Store a quantity as a field's code: rounded down and held at the ends of the field. DESIGN CHOICE, log entry 9. -/
def State.setCode (s : State) (f : Fld) (q : Rat) : State :=
  s.setFld f (min (2 ^ f.width - 1) q.floor.toNat)

/-- Store a signed quantity as a field's code: rounded down and held at the ends of the field. -/
def State.setScode (s : State) (f : Fld) (q : Rat) : State := s.setSfld f q.floor

/-! ### Per-block state -/

/-- Change one element of a vector. -/
def vmod {α : Type} {n : Nat} (v : Vector α n) (i : Fin n) (f : α → α) : Vector α n := v.set i (f v[i])

/-- Change one feed's hidden state. -/
def State.modFeed (s : State) (n : Fin 4) (f : FeedH → FeedH) : State := { s with feed := vmod s.feed n f }
/-- Change one phase's hidden state. -/
def State.modPh (s : State) (n : Fin 16) (f : PhH → PhH) : State := { s with ph := vmod s.ph n f }
/-- Change one phase-engine port's hidden state. -/
def State.modPhp (s : State) (k : Fin 2) (f : PhpH → PhpH) : State := { s with php := vmod s.php k f }
/-- Change one charge port's hidden state. -/
def State.modChg (s : State) (k : Fin 2) (f : ChgH → ChgH) : State := { s with chg := vmod s.chg k f }
/-- Change one pack port's hidden state. -/
def State.modPk (s : State) (k : Fin 2) (f : PkH → PkH) : State := { s with pk := vmod s.pk k f }
/-- Change one ring pair's hidden state. -/
def State.modRing (s : State) (n : Fin 64) (f : RingH → RingH) : State := { s with ring := vmod s.ring n f }
/-- Change one two-wire port's hidden state. -/
def State.modTw (s : State) (p : Fin 3) (f : TwH → TwH) : State := { s with tw := vmod s.tw p f }
/-- Change one comparator's hidden state. -/
def State.modCmp (s : State) (c : Fin 48) (f : CmpH → CmpH) : State := { s with cmp := vmod s.cmp c f }
/-- Change one converter's hidden state. -/
def State.modAdc (s : State) (x : Fin 2) (f : AdcH → AdcH) : State := { s with adc := vmod s.adc x f }
/-- Change one timer's hidden state. -/
def State.modTmr (s : State) (n : Fin 8) (f : TmrH → TmrH) : State := { s with tmr := vmod s.tmr n f }

/-- The indices below `n` that a test accepts, rising. -/
def finsWhere {n : Nat} (p : Fin n → Bool) : List (Fin n) := (List.finRange n).filter p

/-- Apply an effect for each index of a list, in order. -/
def State.each {α : Type} (s : State) (l : List α) (f : State → α → State) : State := l.foldl f s

/-- A sum over the indices a test accepts. -/
def sumWhere {n : Nat} (p : Fin n → Bool) (f : Fin n → Rat) : Rat := (finsWhere p).foldl (fun a i => a + f i) 0

/-- MODEL'S OWN: draw a value the manual leaves open. DESIGN CHOICE, log entry 7. -/
def State.free (s : State) : Word × State := (Config.freeWord s.freeCtr, { s with freeCtr := s.freeCtr + 1 })

/-! ### Modes -/

/-- SYS_STATE.MODE: 0 = STARTING; 1 = RUN; 2 = SAFE_TALK; 3 = safe state. -/
def State.mode (s : State) : Nat := s.fld SYS_STATE_MODE
/-- Running: start-up ended with phases permitted, outside the safe state. -/
def State.running (s : State) : Bool := s.mode == 1
/-- In SAFE_TALK (R75). -/
def State.safeTalk (s : State) : Bool := s.mode == 2
/-- In the safe state (R404). -/
def State.safeState (s : State) : Bool := s.mode == 3
/-- Clocks other than AON run: bias is good and the device is not in Doldrums. -/
def State.powered (s : State) : Bool := s.sys.biasGood && !s.sys.doldrums
/-- The blocks work: powered and not held in a device reset. -/
def State.awake (s : State) : Bool := s.powered && !s.sys.resetHeld

/-- Low 48 bits of DEVTIME (R13). -/
def State.time48 (s : State) : BitVec 48 := s.devtime.setWidth 48

/-! ### Interrupts and event flags -/

/-- Issue a posted request (R259): with Bus Master Enable clear it waits, on a link that is down it is lost, and an issued one wakes
the link from L1 (R261). DESIGN CHOICE, log entry 35. -/
def State.send (s : State) (o : HostOut) : State :=
  if s.on HIF_LNK_BME then { s.setOn HIF_LNK_L1 false with out := s.out ++ [o] }
  else if s.on HIF_LNK_LINKUP then { s with hif := { s.hif with heldOut := s.hif.heldOut ++ [o] } }
  else s

/-- Report a DMA error through AER (R260): an error message, which Bus Master Enable does not hold. -/
def State.aer (s : State) (t : Fin 3) : State :=
  let s := { s with hif := { s.hif with aer := s.hif.aer ||| 1 <<< t.val } }
  if s.on HIF_LNK_LINKUP then { s.setOn HIF_LNK_L1 false with out := s.out ++ [.aer t] } else s

/-- Answer a BAR0 request of more than 2 DW as an Unsupported Request (R258). -/
def State.unsupported (s : State) (read : Bool) : State :=
  { s.setOn HIF_LNK_L1 false with
    out := s.out ++ [.unsupported read]
    hif := { s.hif with aer := s.hif.aer ||| 8 } }

/-- Send the MSI-X message of a vector: none while MSI-X is off; a masked vector, or the function mask, sets its pending bit (R291), and
with Bus Master Enable clear no request is issued (R261). -/
def State.msix (s : State) (v : Nat) : State :=
  if h : v < 64 then
    if !s.hif.cfg.msixOn then s
    else if s.on (MSIX_CTL_MASK v) || s.hif.cfg.msixMask || !s.on HIF_LNK_BME then
      let off := if v < 32 then MSIX_PBA_LO else MSIX_PBA_HI
      s.setWord off (s.word off ||| (1 <<< (v % 32)))
    else s.send (.message ⟨v, h⟩ (s.word (MSIX_ADDR_HI v) ++ s.word (MSIX_ADDR_LO v)) (s.word (MSIX_DATA v)))
  else s

/-- The registers whose W1C flags form a source line, with the mask of those flags (R292). -/
def lineRegs (src : Nat) : List (Nat × Word) :=
  if src = 0 then [(FLT_STATUS_LO, 0xFFFFFFFF), (FLT_STATUS_HI, 0xFFFFFFFF), (FLT_PEND_LO, 0xFFFFFFFF),
    (FLT_PEND_HI, 0xFFFFFFFF), (FLT_FIRST, 0x80000000), (FLT_FATAL, 0x80000000)]
  else if src = 1 then [(THM_EVT, 0xFF)]
  else if src = 2 then [(JNL_EVT, 0x3F)]
  else if src = 3 then [(FEED_EVT 0, 0xFF), (FEED_EVT 1, 0xFF), (FEED_EVT 2, 0xFF), (FEED_EVT 3, 0xFF)]
  else if src = 4 then [(PK_EVT 0, 0xFFF), (PK_EVT 1, 0xFFF)]
  else if src = 5 then [(CHG_EVT 0, 0x3FF), (CHG_EVT 1, 0x3FF)]
  else if src = 6 then (List.range 16).map (fun n => (PH_EVT n, 0x7F)) ++
    [(PHP_EVT 0, 0x1F), (PHP_EVT 1, 0x1F), (PH_GSTAT, 0x60000)]
  else if src = 7 then [(FC_EVT, 0x3F), (FC_THR, 0xFF00)]
  else []

/-- A source line: the OR of its block's flags; a timer's flags count through IEN (R292, R366). -/
def State.line (s : State) (src : Nat) : Bool :=
  if 8 ≤ src then (s.word (TMR_EVT (src - 8)) &&& s.word (TMR_IEN (src - 8)) &&& 0x1FFFF) != 0
  else (lineRegs src).any (fun p => (s.word p.1 &&& p.2) != 0)

/-- The source whose line a register's flags belong to (R292). -/
def lineOf (off : Nat) : Option Nat :=
  if off < 0x0800 then none else if off < 0x1000 then some 0
  else if 0x1400 ≤ off ∧ off < 0x1800 then some 2 else if 0x1800 ≤ off ∧ off < 0x2000 then some 1
  else if 0x2000 ≤ off ∧ off < 0x2200 then some (8 + (off - 0x2000) / 0x40)
  else if 0x4000 ≤ off ∧ off < 0x5000 then some 3 else if 0x5000 ≤ off ∧ off < 0x6000 then some 6
  else if 0x6000 ≤ off ∧ off < 0x6400 then some 5 else if 0x6400 ≤ off ∧ off < 0x6600 then some 4
  else if 0x7000 ≤ off ∧ off < 0x8000 then some 7 else none

/-- The block code and index of a telemetry EVENT record for an event register (R284). -/
def telBlock (off : Nat) : Option (Nat × Nat) :=
  if 0x4000 ≤ off ∧ off < 0x4400 ∧ off % 0x100 = 0x44 then some (0, (off - 0x4000) / 0x100)
  else if 0x5000 ≤ off ∧ off < 0x5800 ∧ off % 0x80 = 0x14 then some (1, (off - 0x5000) / 0x80)
  else if off = 0x5828 then some (2, 0) else if off = 0x5928 then some (2, 1)
  else if off = 0x6030 then some (3, 0) else if off = 0x6130 then some (3, 1)
  else if off = 0x6444 then some (4, 0) else if off = 0x6544 then some (4, 1)
  else if off = 0x7054 then some (5, 0) else none

/-- Keep a telemetry record in B2, which holds the last 4,096 (R284), 3,584 while a capture stages its own (R376). -/
def State.telAdd (s : State) (cls : Fin 3) (payload : List Byte) : State :=
  let h := s.hif.history ++ [⟨s.time48, cls, s.hif.telSeq, payload, false⟩]
  { s with hif := { s.hif with history := h.drop (h.length - (if s.hif.tel.isSome then 3584 else 4096)), telSeq := s.hif.telSeq + 1 } }

/-- An enabled source line rises (R308): an alert falls due by each mechanism that ALMODE names and that has none pending. -/
def State.alertRise (s : State) (src : Nat) : State :=
  let mode := s.fld TW_M_ALERT_ALMODE
  let on := (BitVec.ofNat 16 (s.fld TW_M_ALERT_AMASK)).getLsbD src
  let alert := on && mode % 2 == 1 && !s.on TW_M_ALERT_PEND
  s.modTw 0 (fun t => { t with dueAlert := t.dueAlert || alert, dueNotify := t.dueNotify || (on && decide (2 ≤ mode) && !t.hnPend) })

/-- What a rising source line does, after a change from `a` to `b`: its message (R292), and its alert on M (R308). -/
def lineRise (src : Nat) (a b : State) : State :=
  if !a.line src && b.line src then
    let b := b.alertRise src
    if b.on (HIF_IMAP_EN src) then b.msix (b.fld (HIF_IMAP_VEC src)) else b
  else b

/-- Set flag bits in an event register: the flags, the EVENT record for flags newly set, and the interrupt of a rising line.
DESIGN CHOICE, log entry 40. -/
def State.setFlags (s : State) (off : Nat) (m : Word) : State :=
  let t := s.setWord off (s.word off ||| m)
  let fresh := m &&& ~~~ s.word off
  let t := match telBlock off with
    | some (b, i) =>
      if fresh ≠ 0 then t.telAdd 1 ([BitVec.ofNat 8 b, BitVec.ofNat 8 i, 0, 0] ++ leBytes fresh.toNat 4) else t
    | none => t
  match lineOf off with
  | some src => lineRise src s t
  | none => t

/-- Set one event flag. -/
def State.evt (s : State) (f : Fld) : State := s.setFlags f.off (bitMask f.hi f.lo)

/-! ### Faults -/

/-- The sources of the collector, by number (R392). -/
abbrev srcFLT_SELF : Fin 64 := 0
@[inherit_doc srcFLT_SELF] abbrev srcD2D_LINK : Fin 64 := 1
@[inherit_doc srcFLT_SELF] abbrev srcREF_LOSS : Fin 64 := 2
@[inherit_doc srcFLT_SELF] abbrev srcTHM_ANVIL : Fin 64 := 3
@[inherit_doc srcFLT_SELF] abbrev srcTHM_TRIP : Fin 64 := 4
@[inherit_doc srcFLT_SELF] abbrev srcTHM_STOP : Fin 64 := 5
@[inherit_doc srcFLT_SELF] abbrev srcMEM_UE_CP : Fin 64 := 6
@[inherit_doc srcFLT_SELF] abbrev srcCP_WDT : Fin 64 := 7
@[inherit_doc srcFLT_SELF] abbrev srcGRACE_EXP : Fin 64 := 8
@[inherit_doc srcFLT_SELF] abbrev srcTRIP_MISMATCH : Fin 64 := 9
@[inherit_doc srcFLT_SELF] abbrev srcPHASE_LOST : Fin 64 := 10
@[inherit_doc srcFLT_SELF] abbrev srcPHASE_SHORTED : Fin 64 := 11
@[inherit_doc srcFLT_SELF] abbrev srcPH_OCL_REPEAT : Fin 64 := 12
@[inherit_doc srcFLT_SELF] abbrev srcFEED_PRESTART : Fin 64 := 13
@[inherit_doc srcFLT_SELF] abbrev srcFEED_LATCHED : Fin 64 := 14
@[inherit_doc srcFLT_SELF] abbrev srcPACK_SC : Fin 64 := 15
@[inherit_doc srcFLT_SELF] abbrev srcPACK_OT : Fin 64 := 16
@[inherit_doc srcFLT_SELF] abbrev srcPACK_LATCHED : Fin 64 := 17
@[inherit_doc srcFLT_SELF] abbrev srcSTRAP_FAULT : Fin 64 := 18
@[inherit_doc srcFLT_SELF] abbrev srcCMP_STAGE : Fin 64 := 19
@[inherit_doc srcFLT_SELF] abbrev srcADC_MISMATCH : Fin 64 := 20
@[inherit_doc srcFLT_SELF] abbrev srcTHM_NOXCHK : Fin 64 := 21
@[inherit_doc srcFLT_SELF] abbrev srcMEM_UE : Fin 64 := 22
@[inherit_doc srcFLT_SELF] abbrev srcTW_STUCK : Fin 64 := 23
@[inherit_doc srcFLT_SELF] abbrev srcFEED_OV : Fin 64 := 24
@[inherit_doc srcFLT_SELF] abbrev srcBUS_UV : Fin 64 := 25
@[inherit_doc srcFLT_SELF] abbrev srcBIAS_LOW : Fin 64 := 26
@[inherit_doc srcFLT_SELF] abbrev srcBIAS_OV : Fin 64 := 27
@[inherit_doc srcFLT_SELF] abbrev srcPH_OCL : Fin 64 := 28
@[inherit_doc srcFLT_SELF] abbrev srcSYNC_LOST : Fin 64 := 29
@[inherit_doc srcFLT_SELF] abbrev srcPACK_OCC : Fin 64 := 30
@[inherit_doc srcFLT_SELF] abbrev srcPACK_OV : Fin 64 := 31
@[inherit_doc srcFLT_SELF] abbrev srcPACK_UV : Fin 64 := 32
@[inherit_doc srcFLT_SELF] abbrev srcPACK_CLOSE : Fin 64 := 33
@[inherit_doc srcFLT_SELF] abbrev srcPACK_BUS : Fin 64 := 34
@[inherit_doc srcFLT_SELF] abbrev srcCHG_PRE_TIMEOUT : Fin 64 := 35
@[inherit_doc srcFLT_SELF] abbrev srcCHG_CC_TIMEOUT : Fin 64 := 36
@[inherit_doc srcFLT_SELF] abbrev srcCHG_CV_TIMEOUT : Fin 64 := 37
@[inherit_doc srcFLT_SELF] abbrev srcCMP_AZ : Fin 64 := 38
@[inherit_doc srcFLT_SELF] abbrev srcCMP_GP : Fin 64 := 39
@[inherit_doc srcFLT_SELF] abbrev srcADC_REF : Fin 64 := 40
@[inherit_doc srcFLT_SELF] abbrev srcADC_XCHK : Fin 64 := 41
@[inherit_doc srcFLT_SELF] abbrev srcTHM_SUSPECT : Fin 64 := 42
@[inherit_doc srcFLT_SELF] abbrev srcMEM_CE : Fin 64 := 43
@[inherit_doc srcFLT_SELF] abbrev srcHOST_DMA : Fin 64 := 44
@[inherit_doc srcFLT_SELF] abbrev srcTW_TIMEOUT : Fin 64 := 45
@[inherit_doc srcFLT_SELF] abbrev srcREG_ACCESS : Fin 64 := 46
@[inherit_doc srcFLT_SELF] abbrev srcD2D_RETRY : Fin 64 := 47
@[inherit_doc srcFLT_SELF] abbrev srcSEAL_OPEN : Fin 64 := 48
@[inherit_doc srcFLT_SELF] abbrev srcJNL_LOST : Fin 64 := 49

/-- Class of each source (R392); a MEM_UE event brings its own (R383). -/
def fltClass (src : Nat) : FltClass := if src ≤ 8 then .fatal else if src ≤ 23 then .contained else .corrected

/-- An event at a collector input (R393). -/
def State.event (s : State) (e : FltEvent) : State := { s with flt := { s.flt with lines := s.flt.lines ++ [e] } }

/-- A hardware event not caused by an access (R396). -/
def State.fault (s : State) (src : Fin 64) (addr : Nat) : State :=
  s.event ⟨src, fltClass src, BitVec.ofNat 32 addr, 0, 0, false⟩

/-- A REG_ACCESS event: the requester of the dropped write (R12, R33, R396). -/
def State.regFault (s : State) (o : Origin) (off : Nat) : State :=
  s.event ⟨srcREG_ACCESS, .corrected, BitVec.ofNat 32 off, BitVec.ofNat 8 o.master, 2, false⟩

/-! ### Comparators -/

/-- An output of comparator c asserts: its status, its event and its count (R321, R324). -/
def State.cmpAssert (s : State) (c : Nat) (upper : Bool) : State :=
  if upper then ((s.setFld (CMP_STAT_HISTATE c) 1).evt (CMP_EVT_HIEV c)).count (CMP_EVT_HICNT c)
  else ((s.setFld (CMP_STAT_LOSTATE c) 1).evt (CMP_EVT_LOEV c)).count (CMP_EVT_LOCNT c)

/-! ### The trigger matrix -/

/-- MODE of a channel of a timer: 1 = compare; 2 = capture. -/
def State.chMode (s : State) (n : Fin 8) (c : Fin 4) : Nat := Fld.extract ⟨TMR_CCM n, 8 * c.val + 1, 8 * c.val⟩ (s.word (TMR_CCM n))
/-- CAPSEL of a channel. -/
def State.capSel (s : State) (n : Fin 8) (c : Fin 4) : Nat := Fld.extract ⟨TMR_CCM n, 8 * c.val + 6, 8 * c.val + 2⟩ (s.word (TMR_CCM n))

/-- Source `code` of the trigger matrix gives an edge to timer `n` (R363 to R365): to its slave mode and its capture channels that
name it. -/
def State.edgeTo (s : State) (code : Nat) (n : Fin 8) : State :=
  s.modTmr n (fun t =>
    { t with
      edge := if s.fld (TMR_CTL_TRGSEL n) = code then some code else t.edge
      capEdge := Vector.ofFn (fun c => if s.chMode n c = 2 ∧ s.capSel n c = code then some code else t.capEdge[c]) })
/-- Source `code` gives an edge to every timer but itself (R364). -/
def State.sourceEdge (s : State) (code : Nat) : State :=
  s.each (finsWhere (fun n : Fin 8 => decide (code ≠ n.val + 1))) (fun t n => t.edgeTo code n)

/-- An output is asserted: asserted or INBAND. -/
def State.cmpOut (s : State) (c : Nat) (upper : Bool) : Bool := s.on (if upper then CMP_STAT_HISTATE c else CMP_STAT_LOSTATE c)

/-- An output of comparator c that lasts `w` ns reaches the report: EVFILT suppresses a shorter one (R326).
DEDUCED, log entry 116. -/
def State.heard (s : State) (c w : Nat) : Bool := decide (25 * s.fld (CMP_CFG_EVFILT c) ≤ w)

/-- Timers can blank this output (R325). -/
def blankable (c : Nat) (upper : Bool) : Bool :=
  decide (16 ≤ c ∧ c < 20) || decide (26 ≤ c ∧ c < 28) || (decide (c = 28) && !upper) || (decide (29 ≤ c ∧ c < 45) && upper) ||
  decide (45 ≤ c)

/-- An output holds its state: in timer blanking (R325), or in the settling after a change of mode (R323). -/
def State.cmpHeld (s : State) (c : Nat) (upper : Bool) : Bool :=
  (blankable c upper && s.on (CMP_STAT_BLANK c)) || s.cmp[Fin.ofNat 48 c].settle.isSome

/-- An output of comparator c asserts for `w` ns (R321, R323 to R326): one that is held comes when the hold ends, if it lasts till then, and
one shorter than the filter is not reported. Answers whether it is reported. DEDUCED, log entry 116. -/
def State.cmpRow (s : State) (c : Nat) (upper : Bool) (w : Nat) : Bool × State :=
  if s.cmpHeld c upper then
    (false, s.modCmp (Fin.ofNat 48 c) (fun m => { m with late := some (upper, s.devtime + BitVec.ofNat 56 (w / 10)) }))
  else if s.heard c w then (true, (s.cmpAssert c upper).modCmp (Fin.ofNat 48 c) (fun m => { m with x := none }))
  else (false, s)

/-- The reported copy of an output of comparator c that lasts `w` ns (R326). -/
def State.cmpReport (s : State) (c : Nat) (upper : Bool) (w : Nat) : State := (s.cmpRow c upper w).2

/-- The input of comparator c is inside its window again: its outputs release but where they hold their state (R321, R325). -/
def State.cmpClear (s : State) (c : Nat) : State :=
  let s := if s.cmpHeld c true then s else s.setFld (CMP_STAT_HISTATE c) 0
  if s.cmpHeld c false then s else s.setFld (CMP_STAT_LOSTATE c) 0

/-- The input of comparator c has moved and is not known any more (R321). -/
def State.cmpForget (s : State) (c : Nat) : State := s.modCmp (Fin.ofNat 48 c) (fun m => { m with x := none })

/-! ### The journal -/

/-- Is the presence window open (R414)? -/
def State.present (s : State) : Bool := s.on AUTH_PRES_OPEN
/-- Is the seal intact for the SEALED class (R417)? -/
def State.sealOk (s : State) : Bool := s.on AUTH_SEAL_INTACT && !s.on AUTH_SEAL_TAMPER
/-- Entries held (R425). -/
def State.occ (s : State) : Nat := s.jnl.entries.length
/-- Stall refusals in force (R425). -/
def State.stalled (s : State) : Bool := s.on JNL_CFG_POLICY && decide (4032 ≤ s.occ)

/-- A record stamped from a state (R421, R422). -/
def State.stamp (s : State) (cls : Nat) (refused : Bool) (origin : Word) (obj detail : Nat) (old new aux : Word) : JRec :=
  ⟨s.devtime, BitVec.ofNat 2 cls, s.present, s.sealOk, refused, s.on SYS_MAINT_MAINT, origin, BitVec.ofNat 8 obj,
    BitVec.ofNat 24 detail, old, new, aux⟩

/-- Queue a record for the writer (R421). -/
def State.journal (s : State) (r : JRec) : State := { s with jnl := { s.jnl with queue := s.jnl.queue ++ [r] } }

/-- Queue an event record of a block (class 3). -/
def State.jevent (s : State) (b : HwBlock) (obj detail : Nat) (old new aux : Word) : State :=
  s.journal (s.stamp 3 false ((Origin.hardware b).word 0) obj detail old new aux)

/-! ### Rings -/

/-- HIFn_STAT.STATE: 0 = DISABLED; 1 = ACTIVE; 2 = DRAINING; 3 = HALTED. -/
def State.ringSt (s : State) (n : Fin 64) : Nat := s.fld (HIF_STAT_STATE n)
/-- Entries of the completion ring (R267). -/
def State.cqSize (s : State) (n : Fin 64) : Nat := 2 ^ s.fld (HIF_CFG_CQSZ n)
/-- Entries of the completion ring the host has not freed. -/
def State.cqUsed (s : State) (n : Fin 64) : Nat :=
  (s.fld (HIF_CQP_CQTAIL n) + s.cqSize n - s.fld (HIF_CQP_CQHEAD n)) % s.cqSize n
/-- A ring with room for one more decision (R276, R277): two free entries on a context ring; on the admin ring more than there are commands
started and not completed. -/
def State.takes (s : State) (n : Fin 64) : Bool :=
  decide (s.cqUsed n + s.ring[n].cq.length + (if n = 0 then s.ring[n].started.length + 1 else 2) < s.cqSize n)

/-! ### Completions and notices -/

/-- Queue an entry on a ring's completion side. A ring that is not ACTIVE or DRAINING takes none (R267). -/
def State.postEntry (s : State) (n : Fin 64) (c : Compl) : State :=
  if s.fld (HIF_STAT_STATE n) = 1 ∨ (s.fld (HIF_STAT_STATE n) = 2 ∧ c.unsolicited = false) then
    s.modRing n (fun r => { r with cq := r.cq ++ [c] })
  else s

/-- Complete a command of a ring (R271). -/
def State.complete (s : State) (n : Fin 64) (d : Desc) (status qual result : Nat) : State :=
  s.postEntry n ⟨BitVec.ofNat 64 result, d.tag, BitVec.ofNat 8 status, BitVec.ofNat 8 qual, BitVec.ofNat 8 d.opc,
    !d.noirq, false⟩

/-- A NOTICE on one ring (R254): the tag field and bytes 7:4 give the low 48 bits of the event's DEVTIME. Other than THROTTLED, an
entry after 16 queued is dropped. -/
def State.noticeOn (s : State) (n : Fin 64) (code data : Nat) : State :=
  let c : Compl := ⟨BitVec.ofNat 64 ((s.time48.toNat % 2 ^ 32) * 2 ^ 32 + data % 2 ^ 24 * 256 + code),
    BitVec.ofNat 16 (s.time48.toNat / 2 ^ 32), 0x21, 0, 0, true, true⟩
  if code = 5 then s.postEntry n c
  else if 16 ≤ s.ring[n].notices then s.evt FC_EVT_NOTLOST
  else if s.fld (HIF_STAT_STATE n) = 1 then
    (s.postEntry n c).modRing n (fun r => { r with notices := r.notices + 1 })
  else s

/-- The bound contexts, rising (R219). -/
def State.boundRings (s : State) : List (Fin 64) := finsWhere (fun n => decide (n.val ≠ 0) && s.on (FC_CTX_CFG_BOUND n))

/-- A NOTICE on every bound ring (R254). -/
def State.notice (s : State) (code data : Nat) : State := s.each s.boundRings (fun t n => t.noticeOn n code data)

/-! ### Arithmetic -/

/-- Hold a quantity between two bounds; the lower one governs where they cross. -/
def clampR (x lo hi : Rat) : Rat := max lo (min x hi)

/-- A mean, `d` where there is nothing to average. -/
def meanOr (d : Rat) (l : List Rat) : Rat := if l.isEmpty then d else l.sum / l.length

/-- 0 where the divisor is 0. -/
def divR (a b : Rat) : Rat := if b = 0 then 0 else a / b

end Sys2Proof.Machine
end

