-- ==== Sys2Proof/Machine/Operands.lean ====
section
/-! DEFINITION. Operand forms: the fields of a profile block (R186) with its checks (R187), the parameters of each
descriptor (R251 to R253, R281 to R289, R185, R188, R216), and the quantities the set-up registers stand for. -/

namespace Sys2Proof

/-! ### The profile block (R186) -/

namespace Profile
/-- MAGIC. -/
def magic (p : Profile) : Nat := bytes p 0x00 2
/-- VERSION. -/
def version (p : Profile) : Nat := bytes p 0x02 1
/-- CHEM. -/
def chem (p : Profile) : Nat := bytes p 0x03 1
/-- LEN. -/
def len (p : Profile) : Nat := bytes p 0x04 2
/-- NCELL. -/
def ncell (p : Profile) : Nat := bytes p 0x06 1
/-- CAP, 0.1 Ah. -/
def cap (p : Profile) : Nat := bytes p 0x08 2
/-- CRC. -/
def crc (p : Profile) : Nat := bytes p 0x0C 4
/-- VQUAL, 0.1 mV per cell. -/
def vqual (p : Profile) : Nat := bytes p 0x10 2
/-- VCV. -/
def vcv (p : Profile) : Nat := bytes p 0x12 2
/-- VRECHG. -/
def vrechg (p : Profile) : Nat := bytes p 0x14 2
/-- VUNA. -/
def vuna (p : Profile) : Nat := bytes p 0x16 2
/-- VCUT. -/
def vcut (p : Profile) : Nat := bytes p 0x18 2
/-- IPRE, 0.001 C; values above 50 act as 50. -/
def ipre (p : Profile) : Nat := min 50 (bytes p 0x1C 2)
/-- ICC. -/
def icc (p : Profile) : Nat := bytes p 0x1E 2
/-- ITERM. -/
def iterm (p : Profile) : Nat := bytes p 0x20 2
/-- TPRE, TCC, TCV and TTOP, minutes; TREST, seconds. -/
def tpre (p : Profile) : Nat := bytes p 0x24 2
@[inherit_doc tpre] def tcc (p : Profile) : Nat := bytes p 0x26 2
@[inherit_doc tpre] def tcv (p : Profile) : Nat := bytes p 0x28 2
@[inherit_doc tpre] def ttop (p : Profile) : Nat := bytes p 0x2A 2
@[inherit_doc tpre] def trest (p : Profile) : Nat := bytes p 0x2C 2
/-- TCMIN, TCMAX, TDMIN, TDMAX, degrees Celsius. -/
def tcmin (p : Profile) : Int := signed 8 (bytes p 0x30 1)
@[inherit_doc tcmin] def tcmax (p : Profile) : Int := signed 8 (bytes p 0x31 1)
@[inherit_doc tcmin] def tdmin (p : Profile) : Int := signed 8 (bytes p 0x32 1)
@[inherit_doc tcmin] def tdmax (p : Profile) : Int := signed 8 (bytes p 0x33 1)
/-- ZDEF, µΩ. -/
def zdef (p : Profile) : Nat := bytes p 0x34 2
/-- TREF. -/
def tref (p : Profile) : Int := signed 8 (bytes p 0x36 1)
/-- ZAGE, minutes. -/
def zage (p : Profile) : Nat := bytes p 0x3A 2
/-- TBPi. -/
def tbp (p : Profile) (i : Nat) : Int := signed 8 (bytes p (0x40 + i) 1)
/-- SBPi. -/
def sbp (p : Profile) (i : Nat) : Nat := bytes p (0x48 + i) 1
/-- KTi. -/
def kt (p : Profile) (i : Nat) : Nat := bytes p (0x50 + 2 * i) 2
/-- DVLIM[i][j]. -/
def dvlim (p : Profile) (i j : Nat) : Nat := bytes p (0x60 + 2 * (8 * i + j)) 2
/-- IMAX[i][j]. -/
def imax (p : Profile) (i j : Nat) : Nat := bytes p (0xE0 + 2 * (8 * i + j)) 2

/-- The CRC over the 352 bytes with the CRC field as 0 (R186). -/
def crcOk (p : Profile) : Bool :=
  (crc32 ((List.range 352).map (fun i => if 12 ≤ i ∧ i < 16 then 0 else BitVec.ofNat 8 (bytes p i 1)))).toNat == p.crc

/-- A block is valid (R187). -/
def valid (p : Profile) : Bool :=
  p.magic == 0x50F1 && p.version == 1 && p.len == 0x160 && decide (3 ≤ p.ncell) && decide (p.ncell ≤ 18) &&
  decide (p.ncell * p.vcv ≤ 800000) && decide (p.vcut < p.vqual) && decide (p.vqual < p.vrechg) &&
  decide (p.vrechg < p.vcv) && decide (p.vuna ≤ p.vcv) && decide (p.iterm < p.icc) && decide (p.tcmin < p.tcmax) &&
  decide (p.tdmin < p.tdmax) && (List.range 7).all (fun i => decide (p.tbp i < p.tbp (i + 1))) &&
  (List.range 7).all (fun i => decide (p.sbp i < p.sbp (i + 1))) && decide (p.sbp 7 ≤ 100) &&
  (List.range 8).all (fun i => decide (0 < p.kt i)) && decide (0 < p.cap)

/-- Does the change from `q` to `p` need presence once LOCK is set (R187)? -/
def loosens (q p : Profile) : Bool :=
  p.chem != q.chem || p.ncell != q.ncell || decide (q.vcv < p.vcv) || decide (q.vuna < p.vuna) ||
  decide (q.icc < p.icc) || decide (q.ipre < p.ipre) || decide (q.tcmax < p.tcmax) || decide (q.tdmax < p.tdmax) ||
  (List.range 64).any (fun i => decide (q.dvlim 0 i < p.dvlim 0 i)) ||
  (List.range 64).any (fun i => decide (q.imax 0 i < p.imax 0 i)) ||
  decide (p.vcut < q.vcut) || decide (p.tcmin < q.tcmin) || decide (p.tdmin < q.tdmin)

/-- The index of the breakpoint interval that holds `x`, with the weight of its upper end; edge values outside (R163). -/
def bracket (bp : Nat → Rat) (x : Rat) : Nat × Rat :=
  if x ≤ bp 0 then (0, 0)
  else if bp 7 ≤ x then (6, 1)
  else match (List.range 7).find? (fun i => decide (bp i ≤ x ∧ x < bp (i + 1))) with
    | some i => (i, (x - bp i) / (bp (i + 1) - bp i))
    | none => (6, 1)

/-- Bilinear interpolation (R163). -/
def table2 (p : Profile) (f : Nat → Nat → Nat) (t soc : Rat) : Rat :=
  let (i, u) := bracket (fun i => (p.tbp i : Rat)) t
  let (j, w) := bracket (fun j => (p.sbp j : Rat)) soc
  (1 - u) * (1 - w) * f i j + u * (1 - w) * f (i + 1) j + (1 - u) * w * f i (j + 1) + u * w * f (i + 1) (j + 1)

/-- KT at a temperature (R163). -/
def ktAt (p : Profile) (t : Rat) : Rat :=
  let (i, u) := bracket (fun i => (p.tbp i : Rat)) t
  (1 - u) * p.kt i + u * p.kt (i + 1)

/-- A per-cell voltage field for the whole pack, V. -/
def packV (p : Profile) (cell : Nat) : Rat := (p.ncell * cell : Nat) / 10000
/-- A current field, A: 0.001 C of CAP in 0.1 Ah. -/
def amps (p : Profile) (c : Nat) : Rat := (c * p.cap : Nat) / 10000
/-- 1 C, A. -/
def oneC (p : Profile) : Rat := (p.cap : Rat) / 10

/-- The time limit of a stage, minutes, where it has one (R155). -/
def limit (p : Profile) : Stage → Option Nat
  | .precharge => some p.tpre
  | .cc | .crest => some p.tcc
  | .cv => some p.tcv
  | .topoff => some p.ttop
  | _ => none

end Profile

/-! ### Descriptor parameters -/

namespace Desc
/-- One bit of a descriptor byte. -/
def bit (d : Desc) (byte b : Nat) : Bool := d.getLsbD (8 * byte + b)
/-- CID of a context command (R253). -/
def cid (d : Desc) : Nat := bytes d 8 4 % 2 ^ 18
/-- P of GRANT_REQUEST, 1/16 W. -/
def reqP (d : Desc) : Nat := bytes d 12 4 % 2 ^ 20
/-- ALLOWPART. -/
def allowPart (d : Desc) : Bool := d.bit 15 0
/-- PMIN. -/
def reqPmin (d : Desc) : Nat := bytes d 16 4 % 2 ^ 20
/-- D of GRANT_REQUEST, µs. -/
def reqD (d : Desc) : Nat := bytes d 20 4
/-- Deadline of GRANT_REQUEST. -/
def reqDl (d : Desc) : Nat := bytes d 24 6
/-- GEN of GRANT_RELEASE and GRANT_EXTEND. -/
def gen (d : Desc) : BitVec 16 := BitVec.ofNat 16 (bytes d 12 2)
/-- New D of GRANT_EXTEND, µs. -/
def extD (d : Desc) : Nat := bytes d 16 4
/-- CLEAR and EVICT of ACCOUNT_READ. -/
def accClear (d : Desc) : Bool := d.bit 12 0
@[inherit_doc accClear] def accEvict (d : Desc) : Bool := d.bit 12 1
/-- PADDR, PLEN and PORT of SET_PROFILE (R185). -/
def paddr (d : Desc) : Nat := bytes d 8 8
@[inherit_doc paddr] def plen (d : Desc) : Nat := bytes d 16 2
@[inherit_doc paddr] def profPort (d : Desc) : Fin 2 := if d.bit 18 0 then 1 else 0
/-- PORT, USE_CREST, FREQ, NSET and NMEAS of SOUNDING (R188). -/
def sndPort (d : Desc) : Fin 2 := if d.bit 8 0 then 1 else 0
@[inherit_doc sndPort] def sndCrest (d : Desc) : Bool := d.bit 8 1
@[inherit_doc sndPort] def sndFreq (d : Desc) : Nat := bytes d 12 4
@[inherit_doc sndPort] def sndNset (d : Desc) : Nat := bytes d 16 1
@[inherit_doc sndPort] def sndNmeas (d : Desc) : Nat := bytes d 18 2
/-- PORT, SLOT and KADDR of PACK_AUTH (R216). -/
def authPort (d : Desc) : Fin 2 := if d.bit 8 0 then 1 else 0
@[inherit_doc authPort] def authOp (d : Desc) : Nat := bytes d 8 1 / 2 % 8
@[inherit_doc authPort] def authSlot (d : Desc) : Fin 4 := ⟨bytes d 8 1 / 16 % 4, Nat.mod_lt _ (by decide)⟩
/-- VTGT and SLEW of SET_VTARGET (R288). -/
def vtgt (d : Desc) : Nat := bytes d 8 2 % 2 ^ 13
@[inherit_doc vtgt] def slew (d : Desc) : Nat := bytes d 10 1 % 128
/-- MAP, SEL and DRAIN of PHASE_MAP (R289). -/
def mapCode (d : Desc) (n : Nat) : Nat := bytes d 8 4 / 4 ^ n % 4
@[inherit_doc mapCode] def mapSel (d : Desc) (n : Nat) : Bool := d.getLsbD (96 + n)
@[inherit_doc mapCode] def mapDrain (d : Desc) : Bool := d.bit 14 0
/-- SCOPE of SELFTEST (R287). -/
def scope (d : Desc) : Nat := bytes d 8 1 % 4
/-- IADDR of IDENTIFY (R281). -/
def iaddr (d : Desc) : Nat := bytes d 8 8
/-- DADDR, MAXN and FREE of JOURNAL_DRAIN (R286). -/
def daddr (d : Desc) : Nat := bytes d 8 8
@[inherit_doc daddr] def maxn (d : Desc) : Nat := bytes d 16 2
@[inherit_doc daddr] def drainFree (d : Desc) : Bool := d.bit 18 0
/-- NREC, CLASS, MODE and FROMSEQ of GET_TELEMETRY (R285). -/
def nrec (d : Desc) : Nat := bytes d 24 2 % 2 ^ 15
@[inherit_doc nrec] def telClass (d : Desc) : Nat := bytes d 26 1 % 8
@[inherit_doc nrec] def telCapture (d : Desc) : Bool := d.bit 27 0
@[inherit_doc nrec] def fromSeq (d : Desc) : Nat := bytes d 28 4
/-- CTX, UNBIND, BAND, WEIGHT, ZMASK, CIDBASE, CIDCNT, CAP and RVKDL of BIND_CONTEXT (R251). -/
def ctx (d : Desc) : Fin 64 := ⟨bytes d 8 1 % 64, Nat.mod_lt _ (by decide)⟩
@[inherit_doc ctx] def unbind (d : Desc) : Bool := d.bit 8 6
@[inherit_doc ctx] def band (d : Desc) : Nat := bytes d 9 1 % 4
@[inherit_doc ctx] def weight (d : Desc) : Nat := bytes d 10 1
@[inherit_doc ctx] def zmask (d : Desc) : Nat := bytes d 11 1
@[inherit_doc ctx] def cidBase (d : Desc) : Nat := bytes d 12 4 % 2 ^ 18
@[inherit_doc ctx] def cidCnt (d : Desc) : Nat := bytes d 16 4 % 2 ^ 19
@[inherit_doc ctx] def cap (d : Desc) : Nat := bytes d 20 4 % 2 ^ 24
@[inherit_doc ctx] def rvkdl (d : Desc) : Nat := if bytes d 24 2 = 0 then 1000 else bytes d 24 2
/-- GTADDR and NENT of GRANT_TABLE_SETUP (R252). -/
def gtaddr (d : Desc) : Nat := bytes d 8 8
@[inherit_doc gtaddr] def nent (d : Desc) : Nat := bytes d 16 4
/-- The two records of a SET_LIMITS descriptor (R282). -/
def limRecs (d : Desc) : List LimRec :=
  [⟨BitVec.ofNat 16 (bytes d 8 2), BitVec.ofNat 32 (bytes d 12 4), BitVec.ofNat 32 (bytes d 16 4)⟩,
   ⟨BitVec.ofNat 16 (bytes d 20 2), BitVec.ofNat 32 (bytes d 24 4), BitVec.ofNat 32 (bytes d 28 4)⟩]
end Desc

namespace Machine

/-! ### Quantities behind the set-up registers -/

/-- Code 0 acts as `z`. -/
def orZero (z n : Nat) : Nat := if n = 0 then z else n

/-- ILIM, A. -/
def State.ilim (s : State) (n : Fin 4) : Rat := s.fld (FEED_LIM_ILIM n) / 8
/-- IMAN, A (R98). -/
def State.iman (s : State) (n : Fin 4) : Rat := s.feed[n].ilimEff * s.fld (FEED_LIM_MANPCT n) / 100
/-- SCMULT as a factor. -/
def State.scmult (s : State) (n : Fin 4) : Rat := (4 + min 4 (s.fld (FEED_LIM_SCMULT n)) : Nat) / 2
/-- DVDT, V/ms. -/
def State.dvdt (s : State) (n : Fin 4) : Rat := (orZero 1 (s.fld (FEED_INR_DVDT n)) : Rat) / 10
/-- RSNS, Ω. -/
def State.rsns (s : State) (n : Fin 4) : Rat := s.fld (FEED_SNS_RSNS n) / 1000000

/-- The profile of a port. -/
def State.prof (s : State) (k : Fin 2) : Option Profile := s.chg[k].prof
/-- OVH, V (R195); 0 without a profile. -/
def State.ovh (s : State) (k : Fin 2) : Rat :=
  match s.prof k with
  | some p => p.packV p.vcv * (1 + (s.fld (PK_HW_OVPCT k) : Rat) / 1000)
  | none => 0
/-- UVH, V (R195); 0 without a profile. -/
def State.uvh (s : State) (k : Fin 2) : Rat :=
  match s.prof k with
  | some p => p.packV p.vcut * (s.fld (PK_HW_UVPCT k) : Rat) / 100
  | none => 0
/-- The pack temperature: the higher valid thermistor (R197). -/
def State.packT (s : State) (k : Fin 2) : Option Int :=
  match s.pk[k].t0, s.pk[k].t1 with
  | some a, some b => some (max a b)
  | some a, none => some a
  | none, b => b
/-- CAP, 0.1 Ah: the profile's, otherwise the certificate's, 0 with neither (R200). -/
def State.packCap (s : State) (k : Fin 2) : Nat :=
  match s.prof k, s.pk[k].ident with
  | some p, _ => p.cap
  | none, some i => i.cert.cap
  | none, none => 0
/-- SOC, %. -/
def State.soc (s : State) (k : Fin 2) : Rat := s.fld (PK_STAT_SOC k) / 100

end Machine
end Sys2Proof
end

