-- ==== Sys2Proof/Machine/Power.lean ====
section
/-! DEFINITION. Shared operations on the power path: feeds, phases, ports, pack gates and throttle pins, as several
families of events use them (R22, R24, R88, R119 to R124, R132, R149, R192, R198, R244). -/

namespace Sys2Proof.Machine

/-! ### Feeds -/

/-- State of a feed. -/
def State.feedSt (s : State) (n : Fin 4) : FeedSt := FeedSt.ofCode (s.fld (FEED_STAT_STATE n))
/-- Bit n of FEED_GSTAT.QUAL. -/
def State.qual (s : State) (n : Fin 4) : Bool := (s.word FEED_GSTAT).getLsbD (4 + n)
/-- Set or clear bit n of FEED_GSTAT.QUAL. -/
def State.setQual (s : State) (n : Fin 4) (b : Bool) : State := s.setOn ⟨FEED_GSTAT, 4 + n, 4 + n⟩ b
/-- FEEDn_STAT.ACTIVE. -/
def State.active (s : State) (n : Fin 4) : Bool := s.on (FEED_STAT_ACTIVE n)
/-- FEEDS_LOST (R92). -/
def State.lostFeeds (s : State) : Bool := s.on FEED_GSTAT_FEEDS_LOST
/-- EJECT is asserted, debounced (R107). -/
def State.eject (s : State) : Bool := s.on FEED_GSTAT_EJECT
/-- A feed is ON (R94), or conducts as HWONLY (R111). -/
def State.feedOn (s : State) : Bool := (List.finRange 4).any (fun n => s.feedSt n == .on || s.feedSt n == .hwonly)
/-- A path conducts: INRUSH, ON or HWONLY. -/
def conducts : FeedSt → Bool
  | .inrush | .on | .hwonly => true
  | _ => false

/-- Turn both gates of a feed off. -/
def State.gatesOff (s : State) (n : Fin 4) : State :=
  ((s.setOn (FEED_STAT_HSON n) false).setOn (FEED_STAT_ORON n) false).setOn (FEED_STAT_CLACT n) false

/-- The feed's selection and health: qualified and not BAD; DEGRADED by R89. -/
def State.health (s : State) (n : Fin 4) : Nat :=
  let st := s.feedSt n
  if !s.qual n || st == .cool || st == .latched || st == .failed || st == .off then 0
  else if s.feed[n].degraded || s.on (FEED_STAT_DERATE n) || s.on (FEED_STAT_CLACT n) then 1 else 2

/-- PRIORITY is the policy (R105); in the safe state and SAFE_TALK, MODE is treated as SHARE (R111). -/
def State.priorityMode (s : State) : Bool := s.fld FEED_SEL_MODE == 1 && !s.safeState && !s.safeTalk

/-- The active group the policy gives now (R105). -/
def State.groupNow (s : State) : List (Fin 4) :=
  let at_ (h : Nat) := finsWhere (fun n : Fin 4 => s.health n == h)
  let lowest (l : List (Fin 4)) : List (Fin 4) :=
    l.filter (fun (n : Fin 4) => l.all (fun (m : Fin 4) => decide (s.fld (FEED_CFG_PRIO n) ≤ s.fld (FEED_CFG_PRIO m))))
  if s.priorityMode then (if (at_ 2).isEmpty then lowest (at_ 1) else lowest (at_ 2))
  else finsWhere (fun n : Fin 4 => decide (s.health n ≠ 0))

/-- Refresh HEALTH of every feed and, where it is allowed to move, the active group. -/
def State.setGroup (s : State) (g : List (Fin 4)) : State :=
  let s := s.each (List.finRange 4) (fun t n => t.setOn (FEED_STAT_ACTIVE n) (g.contains n))
  s.setFld FEED_GSTAT_ACTIVE (g.foldl (fun a n => a + 2 ^ n.val) 0)

/-- Refresh HEALTH; in SHARE the group follows at once, in PRIORITY it stays until its change is due, but for a group whose every
member is BAD, which is replaced at once (R105, R106). -/
def State.syncFeeds (s : State) : State :=
  let s := s.each (List.finRange 4) (fun t n => t.setFld (FEED_STAT_HEALTH n) (t.health n))
  let group := finsWhere s.active
  s.setGroup (if s.priorityMode && group.any (fun n => decide (s.health n ≠ 0)) then group else s.groupNow)

/-! ### Phases -/

/-- State of a phase. -/
def State.phSt (s : State) (n : Fin 16) : PhSt := PhSt.ofCode (s.fld (PH_STAT_STATE n))
/-- Is the phase assigned to port k? -/
def State.phOn (s : State) (k : Fin 2) (n : Fin 16) : Bool := s.fld (PH_CFG_PORT n) == k.val && decide (n.val < s.fld SYS_STRAP_PHCNT)
/-- Running: counted in NACT (R124). -/
def State.phRun (s : State) (k : Fin 2) (n : Fin 16) : Bool := s.phOn k n && s.phSt n == .run
/-- Switching: RUN or SHEDDING (R132). -/
def State.phSwitching (s : State) (n : Fin 16) : Bool := s.phSt n == .run || s.phSt n == .shedding
/-- Any phase switching. -/
def State.anySwitching (s : State) : Bool := (List.finRange 16).any s.phSwitching
/-- Available: not LOST, SHORTED, in OCL or excluded by a thermal cap (R124). -/
def State.phAvail (s : State) (k : Fin 2) (n : Fin 16) : Bool :=
  s.phOn k n && !(s.phSt n == .lost || s.phSt n == .shorted || s.phSt n == .ocl) && !s.thm.excl.getLsbD n
/-- The phases of a port in RUN. -/
def State.nrun (s : State) (k : Fin 2) : Nat := (finsWhere (s.phRun k)).length
/-- NACT of a port: its phases in RUN, and one that sheds until the next port cycle starts (R124, R132). -/
def State.nact (s : State) (k : Fin 2) : Nat :=
  (finsWhere (fun n => s.phRun k n || (s.phOn k n && s.phSt n == .shedding && s.ph[n].counted))).length
/-- ILIMS and ILIMF of a phase, A: codes above 640 act as 640. -/
def State.ilims (s : State) (n : Fin 16) : Rat := (min 640 (s.fld (PH_LIM_ILIMS n)) : Nat) / 8
@[inherit_doc State.ilims] def State.ilimf (s : State) (n : Fin 16) : Rat := (min 640 (s.fld (PH_LIM_ILIMF n)) : Nat) / 8
/-- The least ILIMS of the port's available phases, A. DESIGN CHOICE, log entry 104. -/
def State.leastIlims (s : State) (k : Fin 2) : Rat := (finsWhere (s.phAvail k)).foldl (fun a m => min a (s.ilims m)) 80
/-- IPL = min(IPMAX, sum of ILIMS over the available phases), A (R124); a thermal cap leaves NCAP of them (R136, R184).
DESIGN CHOICE, log entry 107. -/
def State.ipl (s : State) (k : Fin 2) : Rat :=
  let sum := sumWhere (s.phAvail k) s.ilims
  min ((s.fld (PHP_LIM_IPMAX k) : Rat) / 4) (if s.php[k].ncap < 16 then min sum (s.php[k].ncap * s.leastIlims k) else sum)
/-- IPORT_CMD after clamping, A (R124). -/
def State.iport (s : State) (k : Fin 2) : Rat := clampR s.php[k].cmd 0 (s.ipl k)
/-- Direction of a port. -/
def State.dir (s : State) (k : Fin 2) : Dir := Dir.ofCode (s.fld (PHP_STAT_DIR k))
/-- Mode of a port. -/
def State.modeOf (s : State) (k : Fin 2) : Mode := Mode.ofCode (s.fld (PHP_STAT_MODE k))
/-- Role of a port. -/
def State.role (s : State) (k : Fin 2) : Role := Role.ofCode (s.fld (CHG_STAT_ROLE k))
/-- Stage of a port. -/
def State.stage (s : State) (k : Fin 2) : Stage := Stage.ofCode (s.fld (CHG_STAT_STAGE k))
/-- VIN and VOUT of a port (R119). -/
def State.vin (s : State) (k : Fin 2) : Rat := if s.dir k = .dis then s.php[k].vpack else s.phg.vbus
@[inherit_doc State.vin] def State.vout (s : State) (k : Fin 2) : Rat := if s.dir k = .dis then s.phg.vbus else s.php[k].vpack
/-- DBB as a fraction of the period. -/
def State.dbb (s : State) (k : Fin 2) : Rat := (s.fld (PHP_MODE_DBB k) : Rat) / 200
/-- kout of R150: output current per inductor current. -/
def State.kout (s : State) (k : Fin 2) : Rat :=
  match s.modeOf k with
  | .buck => 1
  | .boost => divR (s.vin k) (s.vout k)
  | .buckboost => s.dbb k * divR (s.vin k) (s.vout k)
/-- kin of R150: input current per inductor current. -/
def State.kin (s : State) (k : Fin 2) : Rat :=
  match s.modeOf k with
  | .buck => divR (s.vout k) (s.vin k)
  | .boost => 1
  | .buckboost => s.dbb k

/-- Refresh what PHPk_STAT, PHPk_CMD and PH_GSTAT report of a port. -/
def State.syncPort (s : State) (k : Fin 2) : State :=
  let s := s.setFld (PHP_STAT_NACT k) (s.nact k)
  let s := s.setFld (PHP_STAT_NAVAIL k) (finsWhere (s.phAvail k)).length
  let s := s.setFld (PHP_STAT_NCAP k) (min (s.fld (PHP_SHED_NMAX k)) s.php[k].ncap)
  let s := s.setCode (PHP_CMD_IPL k) (4 * s.ipl k)
  let s := s.setCode (PHP_CMD_IPORT k) (4 * s.iport k)
  s.setFld PH_GSTAT_RUNMAP ((finsWhere s.phSwitching).foldl (fun a n => a + 2 ^ n.val) 0)
/-- Refresh both ports. -/
def State.syncPorts (s : State) : State := (s.syncPort 0).syncPort 1

/-- Give a port command, A. -/
def State.setCmd (s : State) (k : Fin 2) (a : Rat) : State :=
  (s.modPhp k (fun p => { p with cmd := a })).syncPort k

/-- Put a phase in a state with EN and the PWM outputs that state holds (R132); OCL keeps the signs of a loss seen so far, which may
replace it (R146). -/
def State.setPh (s : State) (n : Fin 16) (st : PhSt) : State :=
  let was := s.phSt n
  let s := s.setFld (PH_STAT_STATE n) st.code
  match st with
  | .waking => s.modPh n (fun p => { p with en := true })
  | .run => s.modPh n (fun p => { p with en := true })
  | .shedding => s.modPh n (fun p => { p with en := true, shedN := 0, counted := was == .run })
  | .ocl => s.modPh n (fun p => { p with en := false, pwmb := PwmLvl.low, pwmk := PwmLvl.low, onTime := false, blend := 0 })
  | _ => s.modPh n (fun p =>
    { p with en := false, pwmb := PwmLvl.low, pwmk := PwmLvl.low, onTime := false, blend := 0, openN := 0, stuckN := 0 })

/-- The state of a phase at rest: UNASSIGNED, SHORTED, PENDING or IDLE by its port and its legs (R69, R132). -/
def State.restPh (s : State) (n : Fin 16) : PhSt :=
  if s.ph[n].legB = .shorted ∨ s.ph[n].legK = .shorted then .shorted
  else if 2 ≤ s.fld (PH_CFG_PORT n) ∨ s.fld SYS_STRAP_PHCNT ≤ n.val then .unassigned
  else if s.ph[n].legB = .pass ∧ s.ph[n].legK = .pass then .idle else .pending

/-- Stop every phase that switches, wakes or is under test: to its rest state (R72, R108, R404). -/
def State.stopPhases (s : State) : State :=
  (s.each (finsWhere (fun n => s.phSwitching n || s.phSt n == .waking || s.phSt n == .test))
    (fun t n => t.setPh n (t.restPh n))).syncPorts

/-- The mode R121 gives for the present voltages outside a dwell, from the present mode. -/
def State.modeFor (s : State) (k : Fin 2) (cur : Mode) : Mode :=
  let b := s.phg.vbus
  let p := s.php[k].vpack
  let hi := max b p
  let δ := divR (if b ≤ p then p - b else b - p) hi
  if δ ≤ 8 / 100 then .buckboost
  else if cur = .buckboost ∧ δ ≤ 95 / 1000 then .buckboost
  else if s.vout k < s.vin k then .buck else .boost

/-- A direction change of a port: every running phase ends its interval and restarts, the next one 20 ns after the one before it, with 16
cycles of suspension, in the mode of the present voltages; the dwell starts again (R123). DEDUCED, log entry 101. -/
def State.turn (s : State) (k : Fin 2) (d : Dir) : State :=
  if s.dir k = d then s
  else
    let s := s.setFld (PHP_STAT_DIR k) d.code
    let s := s.evt (PHP_EVT_DIRCHG k)
    let s := s.setFld (PHP_STAT_BLEND k) 0
    let m := s.modeFor k (s.modeOf k)
    let s := s.setFld (PHP_STAT_MODE k) m.code
    let s := s.modPhp k (fun p => { p with dwell := 0 })
    let s := s.each (finsWhere (fun n => s.phOn k n && (s.phSwitching n || s.phSt n == .waking)))
      (fun t n => t.modPh n (fun p => { p with turned := 17 }))
    let up := finsWhere (fun n => s.phOn k n && s.phSwitching n)
    let s := s.each up (fun t n =>
      let at_ : Rat := divR (256 * (up.filter (fun (i : Fin 16) => decide (i < n))).length) (t.php[k].per)
      t.modPh n (fun p =>
        { p with
          blend := 0, dB := [], bEnd := none, susp := 17, onTime := false, fired := false, acc := 0, mode := m, slot := at_,
          pwmb := .hiZ, pwmk := .hiZ, tLo := none, tUp := none, openN := 0, stuckN := 0 }))
    s.syncPort k

/-! ### Roles -/

/-- Refresh GUSTRUN and HURUN. -/
def State.syncRoles (s : State) : State :=
  let has (r : Role) := s.role 0 == r || s.role 1 == r
  (s.setOn CHG_GSTAT_GUSTRUN (has .gust)).setOn CHG_GSTAT_HURUN (has .holdup)

/-- Publish ITGT, A, as the charge loop holds it (R158). -/
def State.setItgt (s : State) (k : Fin 2) (i : Rat) : State :=
  (s.modChg k (fun c => { c with itgt := i })).setScode (CHG_CUR_ITGT k) (100 * i)

/-- What ends as a port leaves role CHARGE: its pause, its claim and its measured charge power (R171, R173). -/
def State.endCharge (s : State) (k : Fin 2) : State :=
  let s := s.modChg k (fun c => { c with pchgreq := 0, pchgm := 0, pauseUs := 0, dwellN := 0, claim := 0 })
  ((s.setFld (CHG_PWR_PCHGREQ k) 0).setOn (CHG_STAT_PAUSED k) false).setFld (CHG_TIME_TPAUSE k) 0

/-- Give a port a role (R149): the command starts from 0, the direction follows the role, and entries into GUST and HOLDUP
count. -/
def State.setRole (s : State) (k : Fin 2) (r : Role) : State :=
  if s.role k = r then s
  else
    let s := if s.role k = .charge then s.endCharge k else s
    let s := (s.modChg k (fun c => { c with cut := none })).setFld (CHG_STAT_ROLE k) r.code
    let s := match r with
      | .gust => s.count (CHG_CNT_GUSTN k)
      | .holdup => s.count (CHG_CNT_HUN k)
      | _ => s
    let s := s.setCmd k 0
    let s := match r with
      | .gust | .holdup => s.turn k .dis
      | .charge | .drizzle => s.turn k .chg
      | .none => if s.nact k = 0 then s.turn k .idle else s.turn k .chg
    let s := match r with
      | .gust | .holdup => s
      | _ => s.setFld (CHG_DPWR_POUT k) 0
    s.syncRoles

/-- Set a stage: its time starts again, but for CREST, which shares its timer with CC, and its dwells; QUALIFY starts its 100 ms of
measurement (R155, R156). -/
def State.setStage (s : State) (k : Fin 2) (g : Stage) : State :=
  let keep := (s.stage k = .cc ∧ g = .crest) ∨ (s.stage k = .crest ∧ g = .cc)
  let s := s.setFld (CHG_STAT_STAGE k) g.code
  let s := s.modChg k (fun c => { c with dwellN := 0, crestN := 0, qualN := 0 })
  let s := if g = .qualify then s.modChg k (fun c => { c with vSum := 0, vN := 0, vcell := none }) else s
  if keep then s else (s.modChg k (fun c => { c with stageUs := 0 })).setFld (CHG_TIME_TSTAGE k) 0

/-! ### Pack gates -/

/-- State of a pack port. -/
def State.pkSt (s : State) (k : Fin 2) : PkSt := PkSt.ofCode (s.fld (PK_STAT_STATE k))
/-- Put a pack port in a state. -/
def State.setPk (s : State) (k : Fin 2) (st : PkSt) : State := s.setFld (PK_STAT_STATE k) st.code
/-- PKn_STAT.PRES. -/
def State.packIn (s : State) (k : Fin 2) : Bool := s.on (PK_STAT_PRES k)
/-- A fuse group reads blown where at least three of its five fuses do (R81). -/
def majority (g : BitVec 5) : Bool := decide (3 ≤ ((List.range 5).filter g.getLsbD).length)
/-- Group i + 1 reads blown (R81). -/
def State.group (s : State) (i : Fin 3) : Bool := majority s.sys.fuses[i]
/-- Life-cycle state: 0 = BLANK; 1 = PROVISIONED; 2 = FIELD; 3 = RETURNED (R81). -/
def State.lifecycle (s : State) : Nat :=
  if s.group 0 && s.group 1 && s.group 2 then 3 else if s.group 0 && s.group 1 then 2 else if s.group 0 then 1 else 0
/-- AUTHDIS has effect: not in BLANK or RETURNED (R206). -/
def State.bypass (s : State) (k : Fin 2) : Bool := s.on (PK_CFG_AUTHDIS k) && (s.lifecycle == 1 || s.lifecycle == 2)
/-- The result whose permissions are in force (R204, R206). -/
def State.authInForce (s : State) (k : Fin 2) : AuthRes := if s.bypass k then .bypass else s.pk[k].auth
/-- The pack counts as authenticated (R207). -/
def State.authenticated (s : State) (k : Fin 2) : Bool := s.authInForce k == .pass || s.authInForce k == .bypass

/-- Refresh AUTH, DSGPERM, GPERM and UNACAP of a port (R197, R198, R204 to R207). DEDUCED, log entry 68. -/
def State.syncPack (s : State) (k : Fin 2) : State :=
  let p := s.pk[k]
  let shown := if !s.packIn k then AuthRes.none else if s.bypass k then .bypass
    else if p.running || p.waiting then .running else p.auth
  let s := s.setFld (PK_STAT_AUTH k) shown.code
  let cool := match s.packT k with
    | some t => decide (t < (s.fld (PK_LIM_THARD k) : Int))
    | none => true
  let noTrip := !p.ovOff && !p.uvOff && !p.otOff
  let s := s.setOn (PK_STAT_DSGPERM k) (s.pkSt k == .closed && s.on (PK_STAT_DSGON k) && noTrip && cool)
  let s := s.setOn (PK_STAT_GPERM k) (s.packIn k && s.authenticated k && !s.on (PK_STAT_WORN k) &&
    decide (s.fld (PK_STAT_SOCSRC k) ≠ 2) && (s.packT k).isSome && noTrip && cool)
  s.setOn (CHG_STAT_UNACAP k) (s.packIn k && !s.authenticated k)

/-- Set both gates of a pack port; a FET that closes abandons an offset measurement (R342). -/
def State.setGates (s : State) (k : Fin 2) (chg dsg : Bool) : State :=
  let s := if chg || dsg then s.setOn (COUL_STAT_OFSRUN k) false else s
  ((s.setOn (PK_STAT_CHGON k) chg).setOn (PK_STAT_DSGON k) dsg).syncPack k

/-- Open both FETs of a port; CLOSED and CLOSING return to OPEN, and a TRIPPED port keeps its retry (R22, R192). -/
def State.openPort (s : State) (k : Fin 2) : State :=
  let s := (s.modPk k (fun p => { p with probing := false, reopened := false })).setGates k false false
  if s.pkSt k = .closed ∨ s.pkSt k = .closing then (s.setPk k .open).syncPack k else s

/-- After a close, once no boost leg of the port is PENDING (R194): the discharge FET reopens at or below UVH and in PRECHARGE. -/
def State.dsgAfterClose (s : State) (k : Fin 2) : State :=
  if s.pkSt k = .closed ∧ s.pk[k].probing ∧ !(List.finRange 16).any (fun n => s.phOn k n && s.ph[n].legK == .pending) then
    let low := decide (s.pk[k].v ≤ s.uvh k) || s.stage k == .precharge
    let s := s.modPk k (fun p => { p with probing := false, reopened := low })
    if low then s.setGates k (s.on (PK_STAT_CHGON k)) false else s
  else s

/-! ### Throttle pins -/

/-- The pins Forecast asserts: claims of entries and the static policy (R244). -/
def State.fcPins (s : State) : BitVec 8 := s.fc.claims.foldl (fun a c => a ||| c.mask) s.fc.statOn

/-- Refresh FC_THR: STATE from every cause of R244, FCASSERT for a pin Forecast takes from released to asserted.
DEDUCED, log entry 69. -/
def State.syncThr (s : State) : State :=
  let old : BitVec 8 := BitVec.ofNat 8 (s.fld FC_THR_STATE)
  let all := s.chgg.hulow || s.on FEED_GSTAT_EXSTOP || s.mode != 1
  let new : BitVec 8 := if all then 0xFF else s.fcPins
  let s' := s.setFld FC_THR_STATE new.toNat
  let rise := s.fcPins &&& ~~~ old
  if rise = 0 then s' else s'.setFlags FC_THR (rise.setWidth 32 <<< 8)

end Sys2Proof.Machine
end

