-- ==== Sys2Proof/Machine/Journal.lean ====
section
/-! DEFINITION. The journal writer (R421, R425), its release and its read window (R426). -/

namespace Sys2Proof.Machine

/-- Store one record: it takes the next sequence number, stored or not (R421); full, the policy decides (R425). -/
def State.storeRecord (s : State) (r : JRec) : State :=
  let seq := s.jnl.seq
  let s := { s with jnl := { s.jnl with seq := seq + 1 } }
  if s.occ < 4096 then
    let s := { s with jnl := { s.jnl with entries := s.jnl.entries ++ [⟨seq, r⟩] } }
    let s := if s.occ = s.fld JNL_CFG_WARN then s.evt JNL_EVT_WARN else s
    if s.occ = 4096 then s.evt JNL_EVT_FULL else s
  else
    let s := if s.on JNL_CFG_POLICY then s
      else { s with jnl := { s.jnl with entries := s.jnl.entries.drop 1 ++ [⟨seq, r⟩] } }
    let s := s.count JNL_LOST_LOST
    (s.evt JNL_EVT_LOST).fault srcJNL_LOST (s.fld JNL_LOST_LOST)

/-- The writer takes the oldest record of its queue. -/
def State.writeRecord (s : State) : State :=
  match s.jnl.queue with
  | [] => s
  | r :: q => ({ s with jnl := { s.jnl with queue := q } }).storeRecord r

/-- Store every record of the queue, as before the power of B3 goes to retention (R386). -/
def State.flushJournal (s : State) : State := s.each s.jnl.queue (fun t _ => t.writeRecord)

/-- Release the oldest entries; a release that removes none changes nothing (R426). -/
def State.release (s : State) (n : Nat) (o : Origin) : State :=
  let k := min n s.occ
  match s.jnl.entries with
  | [] => s
  | e :: _ =>
    if k = 0 then s
    else
      let s := { s with jnl := { s.jnl with entries := s.jnl.entries.drop k } }
      s.journal (s.stamp 0 false (o.word JNL_REL) 0x15 0 e.seq (BitVec.ofNat 32 k) 0)

/-- Latch the entry IDX places after the oldest into JNL_WIN; beyond the last, zeros with VALID clear (R426). -/
def State.latchEntry (s : State) (idx : Nat) : State :=
  let s := s.setFld JNL_RDIDX_IDX idx
  match s.jnl.entries[idx]? with
  | some e => (s.each (e.words.zip (List.finRange 8)) (fun t p => t.setWord (JNL_WIN p.2.val) p.1)).setOn JNL_RDIDX_VALID true
  | none => (s.each (List.finRange 8) (fun t k => t.setWord (JNL_WIN k.val) 0)).setOn JNL_RDIDX_VALID false

/-- An ATTEND entry: the window before and after, PRES after the event (R415, R422). -/
def State.attendEntry (s : State) (o : Origin) (old new : Bool) : State :=
  let b (x : Bool) : Word := if x then 1 else 0
  s.journal { s.stamp 3 false (o.word AUTH_PRES) 0x13 0 (b old) (b new) 0 with pres := new }

/-! ### Admin commands -/

/-- The origin of an admin command (R279). -/
def adminOrigin (d : Desc) : Origin := .ring 0 d.tag

/-- A CMD entry (R424). -/
def State.cmdEntry (s : State) (d : Desc) (cls : Nat) (refused : Bool) (status qual reason : Nat) : State :=
  s.journal (s.stamp cls refused ((adminOrigin d).word 0) 0x01 d.opc (BitVec.ofNat 32 qual) (BitVec.ofNat 32 status)
    (BitVec.ofNat 32 reason))

/-- Capture and count a refusal (R420, R429): AUTH_LAST holds the first one until cleared. -/
def State.refusal (s : State) (o : Origin) (reason opc off : Nat) : State :=
  let s := s.count AUTH_CNT_REFUSED
  let s := if reason = 4 then s.evt JNL_EVT_STALLREF else s
  if s.on AUTH_LAST_VALID then s
  else
    ((((s.setOn AUTH_LAST_VALID true).setFld AUTH_LAST_REASON reason).setFld AUTH_LAST_ORIGIN o.kind).setFld
      AUTH_LAST_OPC opc).setFld AUTH_LAST_OFFSET off

/-- One REG entry for each listed register that a change since `old` altered (R424). -/
def State.regDiff (s old : State) (offs : List Nat) (o : Origin) (cls : Nat) : State :=
  s.each (offs.filter (fun off => s.word off != old.word off)) (fun t off =>
    t.journal (t.stamp cls false (o.word off) 0x00 off (old.word off) (s.word off) 0))

/-- A started admin command gets its completion; nothing is posted for one that its ring does not hold (R267, R293). -/
def State.answer (s : State) (d : Desc) (status qual result : Nat) : State :=
  if s.ring[(0 : Fin 64)].started.contains d then
    (s.modRing 0 (fun r => { r with started := r.started.erase d })).complete 0 d status qual result
  else s

/-- An admin command that ran completes; one that a link loss or the end of its ring left running ends without a word, and comes before a
later one of the same descriptor (R267, R290). -/
def State.done (s : State) (d : Desc) (status qual result : Nat) : State :=
  if s.hif.lost.contains d then { s with hif := { s.hif with lost := s.hif.lost.erase d } } else s.answer d status qual result

/-- The entry of a refused admin command (R279, R424): a CMD entry, for BIND_CONTEXT its CONTEXT entry with NEW = 0; AUTHENTICATE has none.
DEDUCED, log entry 28. -/
def State.refusedEntry (s : State) (d : Desc) (cls status qual reason : Nat) : State :=
  if d.opc = 9 then
    s.journal (s.stamp cls true ((adminOrigin d).word 0) 0x08 d.ctx.val (s.word (FC_CTX_CFG d.ctx.val)) 0
      (BitVec.ofNat 32 reason))
  else if d.opc = 7 ∧ d.authOp = 0 then s
  else s.cmdEntry d cls true status qual reason

/-- Complete the failed runs at the front of a ring as far as its completion ring has room (R270, R276); on the admin ring each is a refused
command (R279). -/
def State.flushErrors (n : Fin 64) : List SqItem → State → State
  | ⟨d :: _, some (status, qual, result), _⟩ :: l, s =>
    if s.takes n then
      let s := (s.modRing n (fun r => { r with sq := l })).complete n d status qual result
      State.flushErrors n l (if n = 0 then s.refusedEntry d 0 status qual 0 else s)
    else s
  | _, s => s

/-- A ring with an outstanding miss is stalled (R237). -/
def State.missOut (s : State) (n : Fin 64) : Bool := s.fc.misses.any (fun m => m.ring == n)

/-- Complete the failed runs that nothing stands before: not past a request that waits for its entry (R221). -/
def State.flush (s : State) (n : Fin 64) : State := if s.missOut n then s else State.flushErrors n s.ring[n].sq s

/-- Take a run from the front of a ring, where it is what stands there; a ring with nothing consumed takes the run as coming by the
command itself. DESIGN CHOICE, log entry 30. -/
def State.popSq (s : State) (n : Fin 64) (ds : List Desc) : Option State :=
  match s.ring[n].sq with
  | [] => some s
  | h :: t =>
    if h.ds = ds ∧ h.err = none then
      let s := s.modRing n (fun r => { r with sq := t })
      some (State.flushErrors n t s)
    else none

/-- An executed admin command with no object of its own completes: SELFTEST and SOUNDING write a CMD entry (R424).
DEDUCED, log entry 29. -/
def State.finish (s : State) (d : Desc) (status qual result : Nat) : State :=
  (if d.opc = 6 ∨ d.opc = 0x0B then s.cmdEntry d 0 false status qual 0 else s).done d status qual result

/-- What the refusal of an admin command leaves: the journal entry, and the capture of a refusal by R420 (R420, R424). -/
def State.refused (s : State) (d : Desc) (cls status qual reason : Nat) : State :=
  (if reason = 0 then s else s.refusal (adminOrigin d) reason d.opc 0).refusedEntry d cls status qual reason

/-- An admin command is refused as it starts, and changes nothing but the journal (R275, R424). -/
def State.refuse (s : State) (d : Desc) (cls status qual reason : Nat) (result : Nat := 0) : State :=
  (s.refused d cls status qual reason).answer d status qual result

/-- An admin command is refused once its read has ended (R185, R216, R260). -/
def State.fail (s : State) (d : Desc) (cls status qual reason : Nat) : State := (s.refused d cls status qual reason).done d status qual 0

/-- A JOURNAL_DRAIN's SUCCESS. -/
def isDrain (c : Compl) : Bool := c.opc == 5 && c.status == 0 && !c.unsolicited

/-- A running GET_TELEMETRY ends ABORTED (R80, R285, R293): RESULT holds the records written and the next sequence number. -/
def State.abortTel (s : State) : State :=
  match s.hif.tel with
  | some r => ({ s with hif := { s.hif with tel := none } }).done r.d 8 0 (r.done + r.next.toNat * 2 ^ 32)
  | none => s

end Sys2Proof.Machine
end

