-- ==== Sys2Proof/Machine/Authority.lean ====
section
/-! DEFINITION. The presence window (R414, R415). The seal loop stands with the converters (Analog.lean), the write classes with
the fabric (Fabric.lean). -/

namespace Sys2Proof.Machine

/-- Close the window: AUTH_PRES and its ATTEND entry (R415). A button still held stays recognised. -/
def State.closeWindow (s : State) (o : Origin) : State :=
  if s.present then
    let s := (s.setOn AUTH_PRES_OPEN false).attendEntry o true false
    { s with auth := { s.auth with relAt := none } }
  else s

/-- ATTEND_PRESS (R414, R415): sampled from the end of start-up step 3; a press restarts the 60 s of an open window. -/
def execAttendPress (s : State) : Host.Outcome State Fault Refusal :=
  .next (
    if !s.awake || !s.sys.strapsRead || s.auth.held then s
    else
      let s := (s.setOn AUTH_PRES_HELD true).count AUTH_PRES_PRESSES
      let s := { s with auth := { s.auth with held := true, relAt := none } }
      if s.present then s
      else ((s.setOn AUTH_PRES_OPEN true).attendEntry (.pin .attend) false true).evt JNL_EVT_PRES)

/-- ATTEND_RELEASE (R414): the 60 s count starts. -/
def execAttendRelease (s : State) : Host.Outcome State Fault Refusal :=
  .next (
    if s.auth.held then
      let s := s.setOn AUTH_PRES_HELD false
      { s with auth := { s.auth with held := false, relAt := if s.present then some s.devtime else none } }
    else s)

/-- PRESENCE_TIMEOUT (R414): 60 s have passed since the release. -/
def execPresenceTimeout (s : State) : Host.Outcome State Fault Refusal :=
  .next (match s.auth.relAt with
    | some t => if 6000000000 ≤ (s.devtime - t).toNat then s.closeWindow (.pin .attend) else s
    | none => s)

/-- REMAIN: 60 while held, then the seconds left (R414, R429). -/
def State.remain (s : State) : Nat :=
  if s.auth.held then 60
  else match s.auth.relAt with
    | some t => 60 - (s.devtime - t).toNat / 100000000
    | none => 0

end Sys2Proof.Machine
end

