-- ==== Sys2Proof/Machine/ForecastOps.lean ====
section
/-! DEFINITION. Forecast's shared operations: the budget (R225 to R232), the cache lines and accounts (R222 to R224, R237 to
R240), revocation (R241 to R244) and static mode (R247, R248). Powers are in W, but for GPWR and CAP in 1/16 W. -/

namespace Sys2Proof.Machine

/-! ### Inputs -/

/-- PGMAX of a port, W; 0 while thermal management denies Gust (R351). -/
def State.pgmax (s : State) (k : Fin 2) : Rat :=
  if 2 ≤ s.fld THM_STAT_LEVEL then 0 else 10 * (s.fld (CHG_GUST_PGMAX k) : Rat)

/-- Gust eligibility (R181). -/
def State.gustEligible (s : State) (k : Fin 2) : Bool :=
  match s.prof k with
  | none => false
  | some p =>
    let floor : Rat := s.fld (CHG_GUST_GFLOOR k)
    decide (0 < s.pgmax k) && s.on (CHG_STAT_PROFOK k) && s.on (PK_STAT_GPERM k) &&
    decide ((if s.role k = .gust then floor else floor + 2) < s.soc k) &&
    (match s.packT k with
      | some t => decide (p.tdmin ≤ t ∧ t ≤ p.tdmax)
      | none => false) &&
    s.on (PK_STAT_DSGON k) && s.stage k != .precharge && !s.eject && !(finsWhere (s.phAvail k)).isEmpty

/-- Sum of PGMAX over the Gust-eligible ports. -/
def State.sumPgmax (s : State) : Rat := sumWhere s.gustEligible s.pgmax

/-- E_k above a floor of SOC in %, J (R227, R228). -/
def State.packEnergy (s : State) (k : Fin 2) (floor : Rat) : Rat :=
  max 0 ((s.soc k - floor) / 100 * ((s.fld (PK_FCC_FCC k) : Rat) / 100) * s.php[k].vpack * 3600)

/-- PFEED from the present measurements (R227). -/
def State.pfeedNow (s : State) : Rat :=
  (s.fld FC_CFG_FDERATE : Rat) / 100 * sumWhere s.active (fun n =>
    s.feed[n].vfeed * s.iman n *
      (if s.health n = 2 then 1 else if s.health n = 1 then (s.fld FC_CFG_DEGPCT : Rat) / 100 else 0))

/-- The GRPCT share of a port's GUST inputs: PGMAX and E_k where it is Gust-eligible (R227). -/
def State.gustNow (s : State) (k : Fin 2) : Option (Rat × Rat) :=
  let pct : Rat := (s.fld FC_CFG_GRPCT : Rat) / 100
  if s.gustEligible k then some (pct * s.pgmax k, pct * s.packEnergy k (s.fld (CHG_GUST_GFLOOR k))) else none

/-- The HUPCT share of a port's hold-up inputs: POUTMAX and E′_k where it is in HOLDUP (R228). -/
def State.holdNow (s : State) (k : Fin 2) : Option (Rat × Rat) :=
  let pct : Rat := (s.fld FC_CFG_HUPCT : Rat) / 100
  let vref : Rat := (s.fld PH_VREF_VREF : Rat) / 10000
  if s.role k = .holdup then some (pct * (s.ipl k * s.kout k * vref), pct * s.packEnergy k 0) else none

/-- PCHGREQ of a port in CHARGE, 0 otherwise. -/
def State.reqNow (s : State) (k : Fin 2) : Rat := if s.role k = .charge then s.chg[k].pchgreq else 0

/-- What a port with a power and an energy, if any, gives for `d` seconds (R227, R228). -/
def portGives (d : Rat) : Option (Rat × Rat) → Rat
  | some (p, e) => min p (divR e d)
  | none => 0

/-- PFEED of the snapshot in force (R26, R227). -/
def State.pfeed (s : State) : Rat := s.fc.snap.pfeed

/-- PGRES of a duration in s, none = open-ended (R227). -/
def State.pgres (s : State) (d : Option Rat) : Rat :=
  match d with
  | none => 0
  | some d => if s.fc.snap.eject then 0 else portGives d s.fc.snap.gust[0] + portGives d s.fc.snap.gust[1]

/-- The capacity of R228, while FEEDS_LOST is asserted. -/
def State.capHold (s : State) (d : Option Rat) : Rat :=
  let h : Rat := s.fld FC_HOR_HUHOR
  let d' := match d with
    | some d => min d h
    | none => h
  if s.fc.snap.eject then 0 else portGives d' s.fc.snap.hold[0] + portGives d' s.fc.snap.hold[1]

/-- CAPY(D) (R227, R228); where FEEDS_LOST came between two snapshots, no higher than it stood (R26). -/
def State.capy (s : State) (d : Option Rat) : Rat :=
  if s.fc.snap.lost then
    match s.fc.snap.before with
    | none => s.capHold d
    | some (p, g) => min (s.capHold d) (p + match d with
      | none => 0
      | some d => portGives d g[0] + portGives d g[1])
  else s.pfeed + s.pgres d

/-- ΣPCHGREQ (R225). -/
def State.sumReq (s : State) : Rat := s.fc.snap.req[0] + s.fc.snap.req[1]

/-- PCHGKEEP (R229). -/
def State.chgKeep (s : State) : Rat := s.fc.snap.keep

/-- BUDGET(D) (R229). -/
def State.budget (s : State) (d : Option Rat) : Rat := s.capy d - s.fc.pbase - s.chgKeep

/-- BANDPCT of a band (R229). -/
def State.bandPct (s : State) (b : Nat) : Rat :=
  if b = 0 then 100 else if b = 1 then s.fld FC_BAND_BANDPCT1 else if b = 2 then s.fld FC_BAND_BANDPCT2
  else s.fld FC_BAND_BANDPCT3

/-- SHOR, s. -/
def State.shor (s : State) : Rat := (orZero 1 (s.fld FC_HOR_SHOR) : Rat) / 10

/-- Is the entry's GPWR counted in the granted total (R224)? -/
def GtLine.counted (l : GtLine) : Bool := l.st == .granted || l.st == .revoking
/-- Sum of GPWR over the lines a test accepts, W. -/
def State.sumG (s : State) (p : GtLine → Bool) : Rat :=
  s.fc.lines.foldl (fun a l => if p l && l.counted then a + (l.gpwr : Rat) / 16 else a) 0
/-- ΣG, W. -/
def State.sigmaG (s : State) : Rat := s.sumG (fun _ => true)

/-! ### Zones (R230) -/

/-- e^(-x) for 0 ≤ x < 7: the eighth power of a series of e^(-x/8). -/
def expNeg (x : Rat) : Rat :=
  let y := -x / 8
  let e := ((List.range 16).foldl (fun (a : Rat × Rat) i => (a.1 + a.2, a.2 * y / (i + 1 : Nat))) (0, 1)).1
  let e2 := e * e
  let e4 := e2 * e2
  e4 * e4

/-- FX to 1/1,024, rounded up; 1 for an open-ended grant (R230). -/
def fx (d : Option Rat) (tau : Rat) : Rat :=
  match d with
  | none => 1
  | some d => if 7 * tau ≤ d then 1 else ((1024 * (1 - expNeg (d / tau))).ceil : Rat) / 1024

/-- Zone z is in use. -/
def State.zoneUsed (s : State) (z : Fin 8) : Bool :=
  let c := s.fld (FC_ZONE_CFG_SRC z)
  decide (c ≤ 8) || decide (0x10 ≤ c ∧ c ≤ 0x1F) || decide (0x20 ≤ c ∧ c ≤ 0x23) || c == 0x30

/-- TZ, °C, none where the source is stale, invalid or SUSPECT (R230). -/
def State.zoneT (s : State) (z : Fin 8) : Option Rat :=
  let c := s.fld (FC_ZONE_CFG_SRC z)
  if c ≤ 8 then
    (if s.fld (THM_TS_STATE c) = 0 then some ((s.sfld (THM_TS_T c) : Rat) / 16) else none)
  else if h : 0x10 ≤ c ∧ c ≤ 0x1F then
    (if s.thm.stgBad[c - 0x10]'(by omega) = 0 then some (s.sfld (PH_STAT_TSTAGE (c - 0x10))) else none)
  else if c = 0x20 then s.pk[0].t0.map (fun (t : Int) => (t : Rat))
  else if c = 0x21 then s.pk[0].t1.map (fun (t : Int) => (t : Rat))
  else if c = 0x22 then s.pk[1].t0.map (fun (t : Int) => (t : Rat))
  else if c = 0x23 then s.pk[1].t1.map (fun (t : Int) => (t : Rat))
  else if c = 0x30 then
    (if s.fld (FC_ZONE_HT_AGE z) ≤ 100 then some ((s.sfld (FC_ZONE_HT_HT z) : Rat) / 10) else none)
  else none

/-- TLIMe (R230, R350). -/
def State.zoneLim (s : State) (z : Fin 8) : Rat :=
  let l := s.fld THM_STAT_LEVEL
  (s.fld (FC_ZONE_CFG_TLIM z) : Rat) -
    (if 2 ≤ l then (s.fld THM_STOP_NARROW2 : Rat) else if l = 1 then (s.fld THM_STOP_NARROW1 : Rat) else 0)

/-- The inputs as they stand now (R225 to R230). DEDUCED, log entry 95. -/
def State.snapNow (s : State) : FcSnap where
  before := none
  lost := s.lostFeeds
  eject := s.eject
  pfeed := s.pfeedNow
  gust := Vector.ofFn s.gustNow
  hold := Vector.ofFn s.holdNow
  req := Vector.ofFn s.reqNow
  keep := min (s.fld FC_CHG_CHGKEEP) (s.reqNow 0 + s.reqNow 1)
  temp := Vector.ofFn s.zoneT
  lim := Vector.ofFn s.zoneLim

/-- The lower of two inputs of a port. -/
def lowerPort : Option (Rat × Rat) → Option (Rat × Rat) → Option (Rat × Rat)
  | some (p, e), some (p', e') => some (min p p', min e e')
  | _, _ => none

/-- A snapshot lowered at once to what stands now: nothing rises before the next snapshot; the loss of the feeds brings the capacity of
R228, held to what it was (R26, R232). -/
def FcSnap.lowered (a b : FcSnap) : FcSnap :=
  { a with
    before := if b.lost && !a.lost then some (a.pfeed, if a.eject then Vector.replicate 2 none else a.gust) else a.before
    lost := a.lost || b.lost
    eject := a.eject || b.eject
    pfeed := min a.pfeed b.pfeed
    gust := Vector.ofFn (fun k => lowerPort a.gust[k] b.gust[k])
    hold := if b.lost && !a.lost then b.hold else Vector.ofFn (fun k => lowerPort a.hold[k] b.hold[k]) }

/-- TZ of the snapshot, none from the moment its source gives none (R230, R250). -/
def State.zoneSeen (s : State) (z : Fin 8) : Option Rat := if (s.zoneT z).isSome then s.fc.snap.temp[z] else none

/-- PZ over the lines a test accepts. -/
def State.zoneP (s : State) (z : Fin 8) (p : GtLine → Bool) : Rat :=
  (s.fld (FC_ZONE_ZBASE_ZBASE z) : Rat) + s.sumG (fun l => l.zmap.getLsbD z && p l)

/-- HZ(D) for a given PZ; 0 where the source gives no temperature (R230). -/
def State.headroom (s : State) (z : Fin 8) (d : Option Rat) (pz : Rat) : Rat :=
  match s.zoneSeen z with
  | none => 0
  | some t =>
    let rth : Rat := (orZero 1 (s.fld (FC_ZONE_MODEL_RTH z)) : Rat) / 1000
    let tau : Rat := (orZero 1 (s.fld (FC_ZONE_MODEL_TAU z)) : Rat) / 10
    ((s.fc.snap.lim[z] - t) / fx d tau - ((s.sfld (FC_ZONE_CFG_TAMB z) : Rat) + pz * rth - t)) / rth

/-! ### Cache lines -/

/-- Guard grants of a bank's arbiter (R379): each counts. -/
def State.guardGrants (s : State) (b : Fin 5) (n : Nat) : State :=
  if n = 0 then s
  else (s.setFld (MEM_CNT_GUARD b) (min 255 (s.fld (MEM_CNT_GUARD b) + n))).setFlags MEM_EVT (1#32 <<< (10 + b.val))


/-- The resident line of a consumer. -/
def State.line? (s : State) (c : Nat) : Option GtLine := s.fc.lines.find? (fun l => l.cid == c)
/-- Change Forecast's hidden state. -/
def State.modFc (s : State) (f : FcH → FcH) : State := { s with fc := f s.fc }
/-- Replace a consumer's line. -/
def State.putLine (s : State) (l : GtLine) : State :=
  s.modFc (fun f => { f with lines := f.lines.map (fun m => if m.cid = l.cid then l else m) })

/-- The bound context whose range holds a consumer (R220). -/
def State.ctxOf (s : State) (c : Nat) : Option (Fin 64) :=
  s.boundRings.find? (fun n => decide (s.fld (FC_CTX_CIDBASE_CIDBASE n) ≤ c ∧
    c < s.fld (FC_CTX_CIDBASE_CIDBASE n) + s.fld (FC_CTX_CIDCNT_CIDCNT n)))
/-- Does the consumer lie in the context's range? -/
def State.inCtx (s : State) (n : Fin 64) (c : Nat) : Bool :=
  decide (s.fld (FC_CTX_CIDBASE_CIDBASE n) ≤ c ∧ c < s.fld (FC_CTX_CIDBASE_CIDBASE n) + s.fld (FC_CTX_CIDCNT_CIDCNT n))

/-- Refresh LIVE and the contexts' use. -/
def State.syncLive (s : State) : State :=
  let live (l : GtLine) := l.st != .idle
  let s := s.setFld FC_STAT_LIVE (s.fc.lines.filter live).length
  s.each s.boundRings (fun t n =>
    let mine := t.fc.lines.filter (fun l => live l && t.inCtx n l.cid)
    (t.setFld (FC_CTX_STAT_LIVE n) mine.length).setCode (FC_CTX_STAT_GRANTED n)
      (t.sumG (fun l => t.inCtx n l.cid)))

/-- Accrue an entry's account up to now (R240). -/
def GtLine.accrue (l : GtLine) (now : BitVec 48) : GtLine :=
  if l.acct ∧ l.counted then
    let e := l.gpwr * (now - l.gupd).toNat * 65536 / 1600000 + l.afrac
    let a := l.account + e / 65536
    { l with account := min a (2 ^ 64 - 1), sat := l.sat || decide (2 ^ 64 ≤ a), afrac := e % 65536, gupd := now, dirty := true }
  else { l with gupd := now }

/-- The code of a state (R222). -/
def GtSt.code : GtSt → Nat
  | .idle => 0 | .granted => 1 | .revoking => 2 | .throttled => 3

/-- The 40 bytes of the device part (R222). -/
def GtLine.device (l : GtLine) : List Byte :=
  leBytes l.account 8 ++ leBytes (l.gpwr + l.st.code * 2 ^ 20 + (if l.sat then 2 ^ 23 else 0)) 4 ++
  leBytes (l.gen.toNat + l.rvn * 2 ^ 16) 4 ++ leBytes l.gend.toNat 8 ++
  leBytes (l.gupd.toNat + l.afrac * 2 ^ 48) 8 ++ leBytes 0 8

/-- GTADDR. -/
def State.gtaddr (s : State) : Nat := s.fld FC_GTA_LO_GTADDR + 2 ^ 32 * s.fld FC_GTA_HI_GTADDR
/-- NENT. -/
def State.nent (s : State) : Nat := s.fld FC_GTN_NENT
/-- Static budget mode (R247). -/
def State.static (s : State) : Bool := s.on FC_STAT_STATIC

/-- Write a line back, accrued; 40 bytes in one DMA write (R223, R239). -/
def State.writeBack (s : State) (l : GtLine) : State :=
  let l := l.accrue s.time48
  let s := s.putLine { l with dirty := false }
  if s.static then s
  else s.send (.write (BitVec.ofNat 64 (s.gtaddr + 64 * l.cid + 8)) l.device)

/-- The host part and device part of an entry as read (R222, R223): a state other than IDLE is taken as IDLE with GPWR 0. -/
def lineOfEntry (c : Nat) (e : BitVec 512) (now : BitVec 48) (use : Nat) : GtLine :=
  let f (i n : Nat) : Nat := e.toNat / 2 ^ (8 * i) % 2 ^ (8 * n)
  { cid := c, ceil := f 0 4 % 2 ^ 20, prio := f 0 4 / 2 ^ 20 % 16, acct := e.getLsbD 29, revx := e.getLsbD 30,
    valid := e.getLsbD 31, zmap := BitVec.ofNat 8 (f 4 1), thrmask := BitVec.ofNat 8 (f 5 1), rvkdl := f 6 2,
    account := f 8 8, gpwr := 0, st := .idle, sat := e.getLsbD 151, gen := BitVec.ofNat 16 (f 0x14 2), rvn := f 0x16 2,
    gend := BitVec.ofNat 48 (f 0x18 6), gupd := now, afrac := f 0x26 2, dirty := false, granted := 0, due := 0, used := use,
    slot := 0, seen := false }

/-- Take a line out. -/
def State.dropLine (s : State) (c : Nat) : State :=
  s.modFc (fun f => { f with lines := f.lines.filter (fun l => l.cid != c) })

/-- The lowest number no resident line has. DESIGN CHOICE, log entry 26. -/
def State.freeSlot (s : State) : Nat := ((List.range 4096).find? (fun i => s.fc.lines.all (fun l => l.slot != i))).getD 0

/-- The least recently used of some lines; of lines used alike the one of the lowest number (R238, R383). -/
def lruLine (l : List GtLine) : Option GtLine :=
  l.foldl (fun b a => match b with
    | some m => if a.used < m.used ∨ (a.used = m.used ∧ a.slot < m.slot) then some a else some m
    | none => some a) none

/-- Bring an entry in: with 4,096 lines resident the least recently used IDLE line is written back and replaced (R237 to R239). -/
def State.fillLine (s : State) (c : Nat) (e : BitVec 512) : State :=
  let s :=
    if s.fc.lines.length < 4096 then s
    else match lruLine (s.fc.lines.filter (fun l => l.st == .idle)) with
      | some l => ((if l.dirty then s.writeBack l else s).dropLine l.cid)
      | none => s
  let i := s.freeSlot
  s.modFc (fun f => { f with lines := { lineOfEntry c e s.time48 f.clock with slot := i } :: f.lines, clock := f.clock + 1 })

/-! ### Revocation -/

/-- Reason codes (R254). -/
def rBUDGET := 1
@[inherit_doc rBUDGET] def rTHERMAL := 2
@[inherit_doc rBUDGET] def rCTXCAP := 3
@[inherit_doc rBUDGET] def rCEIL := 4
@[inherit_doc rBUDGET] def rDEADLINE := 5
@[inherit_doc rBUDGET] def rREVOKING := 6
@[inherit_doc rBUDGET] def rCACHE := 7
@[inherit_doc rBUDGET] def rHOLDUP := 8
@[inherit_doc rBUDGET] def rOVERRUN := 9
@[inherit_doc rBUDGET] def rSHORTFALL := 10
@[inherit_doc rBUDGET] def rZONE := 11
@[inherit_doc rBUDGET] def rEXPIRED := 12

/-- The revoke deadline of an entry, µs: its own, or its context's default (R243). -/
def State.rvkFor (s : State) (l : GtLine) : Nat :=
  if l.rvkdl = 0 then (match s.ctxOf l.cid with
    | some n => s.fc.rvkdl[n]
    | none => 0)
  else l.rvkdl

/-- A grant enters REVOKING: accrued, RVN counted, the deadline counted from the selection, REVOKE posted (R224, R240, R243, R254). -/
def State.revoke (s : State) (l : GtLine) (reason : Nat) : State :=
  let dl := s.rvkFor l
  let s := s.putLine { l.accrue s.time48 with
    st := .revoking, rvn := min 65535 (l.rvn + 1), dirty := true, seen := true, due := s.devtime + BitVec.ofNat 56 (100 * dl) }
  match s.ctxOf l.cid with
  | some n =>
    s.postEntry n
      ⟨BitVec.ofNat 64 (l.cid + reason * 2 ^ 20 + dl * 2 ^ 32), l.gen, 0x20, 0, 0, true, true⟩
  | none => s

/-- May the pass select the line (R242)? -/
def State.selectable (s : State) (l : GtLine) (z : Option (Fin 8)) : Bool :=
  l.st == .granted &&
  (match z with
    | some z => l.zmap.getLsbD z
    | none => true) &&
  !(l.revx && (match s.ctxOf l.cid with
    | some n => s.fld (FC_CTX_CFG_BAND n) == 0
    | none => false))

/-- Rank of a candidate: BAND × 16 + PRIO (R242). -/
def State.rank (s : State) (l : GtLine) : Nat :=
  (match s.ctxOf l.cid with
    | some n => s.fld (FC_CTX_CFG_BAND n) * 16
    | none => 0) + l.prio

/-- Does `a` come before `b` in the order of R242? -/
def State.before (s : State) (a b : GtLine) : Bool :=
  decide (s.rank b < s.rank a) || (s.rank a == s.rank b && (decide (b.gpwr < a.gpwr) ||
    (a.gpwr == b.gpwr && decide (b.granted.toNat < a.granted.toNat))))

/-- Select grants for revocation until a condition is covered (R241, R242); `fuel` bounds the lines. -/
def State.selectUntil (s : State) (covered : State → Bool) (z : Option (Fin 8)) (reason : Nat) : Nat → State
  | 0 => s
  | fuel + 1 =>
    if covered s then s
    else
      match (s.fc.lines.filter (fun l => s.selectable l z)).foldl
          (fun (b : Option GtLine) l => match b with
            | some m => if s.before l m then some l else some m
            | none => some l) none with
      | some l => (s.revoke l reason).selectUntil covered z reason fuel
      | none =>
        if s.fc.lines.any (fun l => l.st == .granted && l.revx &&
            (match z with
              | some z => l.zmap.getLsbD z
              | none => true)) then s.evt FC_EVT_REVXOVR else s

/-- The GPWR of the grants in REVOKING, W. -/
def State.revoking (s : State) (p : GtLine → Bool) : Rat := s.sumG (fun l => l.st == .revoking && p l)

/-! ### Terms and static mode -/

/-- Recompute the terms of R227 to R231 and publish them: FC_P0 to FC_P3, FC_STAT.HOLD, the zones, PYIELD and GALLOW. -/
def State.fcTerms (s : State) : State :=
  let g := if s.static then 0 else s.sigmaG
  let keep := s.chgKeep
  let req := s.sumReq
  let used := if s.static then s.fc.pload else s.fc.pbase + g
  let py := max 0 (min req (max keep (s.pfeed - used)))
  let gal0 := if s.static then (s.fld FC_SGUST_SGALLOW : Rat)
    else max 0 (g + s.fc.pbase + keep - s.pfeed) + s.fld FC_CHG_GMARG
  let none_ := !(s.gustEligible 0 || s.gustEligible 1)
  let gal := if s.fc.snap.lost || s.lostFeeds || s.eject || none_ then 0 else min s.sumPgmax gal0
  let s := (s.setCode FC_P0_PFEED s.pfeed).setCode FC_P0_PBASE s.fc.pbase
  let s := (s.setCode FC_P1_SIGMAG g).setCode FC_P1_PLOAD s.fc.pload
  let s := (s.setCode FC_P2_BUDGET (s.budget (some s.shor))).setCode FC_P2_PGRES
    (if s.fc.snap.lost then s.capHold (some s.shor) else s.pgres (some s.shor))
  let s := (s.setCode FC_P3_PYIELD py).setCode FC_P3_GALLOW gal
  let s := s.setOn FC_STAT_HOLD s.fc.snap.lost
  let s := s.setCode CHG_GALLOW_GALLOW gal
  let s := s.each (List.finRange 2) (fun t k =>
    let share := if t.role k = .charge then divR (py * t.fc.snap.req[k]) req else 0
    (t.modChg k (fun c => { c with pyield := share })).setCode (CHG_PWR_PYIELD k) share)
  s.each (List.finRange 8) (fun t z =>
    if t.zoneUsed z then
      let pz := t.zoneP z (fun _ => true)
      let t := t.setCode (FC_ZONE_STAT_PZ z) pz
      let t := match t.zoneSeen z with
        | some x => t.setScode (FC_ZONE_STAT_TZ z) x
        | none => t.evt FC_EVT_ZSTALE
      t.setCode (FC_ZONE_STAT_HEAD z) (max 0 (t.headroom z (some t.shor) pz) / 100)
    else t)

/-- The budget is lowered at once: phase loss, feed UV, disqualification (R26, R232). -/
def State.budgetDrop (s : State) : State :=
  let now := s.snapNow
  (s.modFc (fun f => { f with snap := f.snap.lowered now })).fcTerms

/-- End one live grant with or without throttling (R248, R405): a claim on its pins that ends at its THROTTLE_RELEASE. -/
def State.endGrant (s : State) (l : GtLine) (throttle : Bool) : State :=
  if l.st = .idle then s
  else
    let s := s.putLine { l.accrue s.time48 with st := .idle, gpwr := 0, dirty := true }
    if l.st = .throttled then
      s.modFc (fun f => { f with claims := f.claims.map (fun c => if c.cid = l.cid then { c with live := false, at_ := s.devtime } else c) })
    else if throttle && l.thrmask != 0 then
      s.modFc (fun f => { f with claims := f.claims ++ [⟨l.cid, l.thrmask, false, s.devtime⟩] })
    else s

/-- THRMIN, ticks of DEVTIME. -/
def State.thrminTicks (s : State) : Nat := 100000 * orZero 1 (s.fld FC_HOR_THRMIN)

/-- The claims that no THROTTLED entry keeps, and whose pins have been asserted for THRMIN, end (R244). -/
def State.freeClaims (s : State) : State :=
  (s.modFc (fun f => { f with claims := f.claims.filter (fun c => c.live || decide ((s.devtime - c.at_).toNat < s.thrminTicks)) })).syncThr

/-- End every live grant and enter static mode; with `save` the accounts are written back first (R405), otherwise each dirty one is
discarded and counted, and the table is gone (R248). -/
def State.endAll (s : State) (save throttle : Bool) : State :=
  let s := if save then s.each (s.fc.lines.filter (fun l => l.dirty || l.counted)) (fun t l => t.writeBack l)
    else s.each (s.fc.lines.filter (fun l => l.dirty || (l.acct && l.counted))) (fun t _ => (t.count FC_CNT_ACCLOST).evt FC_EVT_ACCLOST)
  let s := s.each s.fc.lines (fun t l => t.endGrant l throttle)
  let s := s.modFc (fun f => { f with lines := if save then f.lines else [], misses := if save then f.misses else [], overN := 0, shortN := 0 })
  let s := if save then s else ((s.setFld FC_GTN_NENT 0).setFld FC_GTA_LO_GTADDR 0).setFld FC_GTA_HI_GTADDR 0
  let s := ((s.setOn FC_STAT_STATIC true).setOn FC_STAT_OVERRUN false).setOn FC_STAT_SHORT false
  s.syncLive.syncThr

end Sys2Proof.Machine
end

