-- ==== Sys2Proof/Machine/ChargeOps.lean ====
section
/-! DEFINITION. Operations shared by feed, pack, charge and phase events: life records, sharing between ports, the ends of
roles, hold-up takeover and its end, the extraction stop, Doldrums entry and the end of a self-test. -/

namespace Sys2Proof.Machine

/-! ### Sharing (R177, R182) -/

/-- Share a total over ports in proportion to weights, each held at its ceiling, what is cut passing to the others. -/
def shareBy (w cap : Fin 2 → Rat) : Nat → List (Fin 2) → Rat → Fin 2 → Rat
  | 0, _, _ => fun _ => 0
  | n + 1, ps, total =>
    let sum := ps.foldl (fun a p => a + w p) 0
    let want (p : Fin 2) : Rat := divR (total * w p) sum
    let past := ps.filter (fun p => decide (cap p < want p))
    if past.isEmpty then fun p => if ps.contains p then want p else 0
    else
      let left := total - past.foldl (fun a p => a + cap p) 0
      let rest := shareBy w cap n (ps.filter (fun p => !past.contains p)) left
      fun p => if past.contains p then cap p else rest p

/-- The shares of R177: by WGT, ports of weight 0 only where no other port is there or every such port is at its ceiling. -/
def State.shares (s : State) (ps : List (Fin 2)) (cap : Fin 2 → Rat) (total : Rat) : Fin 2 → Rat :=
  let w (p : Fin 2) : Rat := s.fld (CHG_CTL_WGT p)
  let heavy := ps.filter (fun p => w p != 0)
  let light := ps.filter (fun p => w p == 0)
  let a := shareBy w cap 2 heavy total
  let left := total - heavy.foldl (fun x p => x + a p) 0
  let b := shareBy (fun _ => 1) cap 2 light (max 0 left)
  fun p => a p + b p

/-! ### Eligibility and reports -/

/-- Hold-up eligibility (R174). -/
def State.huEligible (s : State) (k : Fin 2) : Bool :=
  match s.prof k with
  | none => false
  | some p => s.on (CHG_CTL_ARM k) && s.on (CHG_STAT_PROFOK k) && s.packIn k && s.on (PK_STAT_DSGPERM k) &&
      s.stage k != .precharge && decide (p.packV p.vcut < s.php[k].vpack)

/-- Ready phases a port keeps: HUREADY of its available ones (R174). -/
def State.readyWant (s : State) (k : Fin 2) : Nat :=
  min (orZero 1 (s.fld (CHG_CTL_HUREADY k))) (finsWhere (s.phAvail k)).length

/-- Refresh HURDY and GELIG. -/
def State.syncElig (s : State) (k : Fin 2) : State :=
  let rdy := if s.role k = .holdup then decide (s.readyWant k ≤ s.nrun k)
    else s.huEligible k && s.feedOn && decide (0 < s.readyWant k) && decide (s.readyWant k ≤ s.nrun k)
  (s.setOn (CHG_STAT_HURDY k) rdy).setOn (CHG_STAT_GELIG k) (s.gustEligible k)

/-- Publish the power a port delivers to BUS. -/
def State.setPout (s : State) (k : Fin 2) : State :=
  s.setCode (CHG_DPWR_POUT k) (s.iport k * s.kout k * s.phg.vbus)

/-- The role a stage has outside GUST and HOLDUP (R149, R155). -/
def stageRole : Stage → Role
  | .precharge => .drizzle
  | .cc | .crest | .cv | .topoff => .charge
  | _ => .none

/-- A port that lost its Gust permission: its share falls at GRAMP (R183, R217). -/
def State.gustLoss (s : State) (k : Fin 2) : State :=
  (if s.role k = .gust ∧ s.gustEligible k = false then s.modChg k (fun c => { c with gdrop := true }) else s).syncElig k

/-! ### Life accounting -/

/-- The full DETAIL and AUX of a pack's journal entries: its ID bits 31:0. -/
def State.packId0 (s : State) (k : Fin 2) : Word := s.word (PK_ID k 0)

/-- A pack becomes WORN where a limit of R211 is reached; a field at 0 disables its test, and Gust loses its permission (R217). -/
def State.checkWorn (s : State) (k : Fin 2) : State :=
  let cyc := s.fld (PK_WORN_WORNCYC k)
  let soh := s.fld (PK_WORN_WORNSOH k)
  let age := s.fld (PK_WB_WORNAGE k)
  let worn := (cyc != 0 && decide (cyc ≤ s.fld (PK_CTR_CTR k))) ||
    (soh != 0 && s.packCap k != 0 && decide (s.fld (PK_FCC_SOH k) < soh)) ||
    (age != 0 && decide (age ≤ s.fld (PK_AGE_AGE k)))
  if s.packIn k && s.pk[k].read && !s.on (PK_STAT_WORN k) && worn then
    let s := s.setOn (PK_STAT_WORN k) true
    let s := s.jevent .pack 0x07 k.val 0 (s.word (PK_CTR k)) (s.packId0 k)
    ((s.notice 2 k.val).syncPack k).gustLoss k
  else s

/-- The record of the port's counters now, with SEQ plus 1 (R209, R210). SOC is held in whole %, FCC in 0.1 Ah. -/
def State.lifeRecord (s : State) (k : Fin 2) : LifeRec :=
  Life.record
    { seq := (s.pk[k].lifeSeq + 1) % 2 ^ 32, qout := s.fld (PK_QOUT_VALUE k), efc := s.fld (PK_EFC_VALUE k),
      age := s.fld (PK_AGE_AGE k), texph := s.fld (PK_AGE_TEXPH k), tpeak := s.sfld (PK_TPK_TPEAK k), soc := s.fld (PK_STAT_SOC k) / 100,
      fcc := s.fld (PK_FCC_FCC k) / 10 }

/-- A LIFE write falls due (R210). A pack whose identity could not be read has no slot to write. DEDUCED, log entry 117. -/
def State.wbDue (s : State) (k : Fin 2) : State :=
  if !s.packIn k || s.pk[k].ident.isNone then s else s.modPk k (fun p => { p with wbDue := p.wbDue + 1 })

/-- A LIFE write ends (R208 to R210); on a held port it fails (R314). A good one puts the record into the slot that does not hold the
newest, which it then is; after the
third failure in a row LIFEWB is set. -/
def State.lifeWrite (s : State) (k : Fin 2) (ok : Bool) : State :=
  if !s.packIn k || s.pk[k].ident.isNone then s
  else if ok && !s.on (TW_PK_STAT_HELD k) then
    let r := s.lifeRecord k
    let s := { s with aon := { s.aon with age := vmod s.aon.age k (fun a => (a.1, 0)) } }
    s.modPk k (fun p => { p with
      written := some (1 - p.lifeSlot, r), lifeSlot := 1 - p.lifeSlot, lifeSeq := (p.lifeSeq + 1) % 2 ^ 32, wbFails := 0, wbDue := p.wbDue - 1 })
  else
    let s := s.modPk k (fun p => { p with wbFails := p.wbFails + 1, wbDue := max 1 p.wbDue })
    if s.pk[k].wbFails = 3 then s.evt (PK_EVT_LIFEWB k) else s

/-- INC_CTR is due: the pack counter is below the whole part of EFC, which rose or came so from the record (R209, R210).
DEDUCED, log entry 67. -/
def State.incDue (s : State) (k : Fin 2) : Bool :=
  s.packIn k && s.pk[k].ident.isSome && decide (s.fld (PK_CTR_CTR k) < s.pk[k].efc.floor.toNat / 1000)

/-- INC_CTR has been answered (R201, R209 to R211): PKn_CTR is the pack's counter, and a record is due.
DEDUCED, log entry 67. -/
def State.incCtr (s : State) (k : Fin 2) (ctr : Word) : State := ((s.setWord (PK_CTR k) ctr).wbDue k).checkWorn k

/-! ### The end of a role -/

/-- The charge loop is restored from IHOLD at the end of a run (R169, R170). -/
def State.restoreLoop (s : State) (k : Fin 2) (r : Sounding) : State :=
  (((s.modChg k (fun c => { c with snd := none })).setItgt k (if r.fromRest then 0 else r.ihold))).setFld (CHG_ZINFO_SSTATE k) 0

/-- Abort a Sounding run (R166, R170): the loop returns to IHOLD, the command completes, and a run started in REST gives its role
back; where TREST elapsed meanwhile, QUALIFY follows at its CHG_REST_END. -/
def State.abortSounding (s : State) (k : Fin 2) (status : Nat) : State :=
  match s.chg[k].snd with
  | none => s
  | some r =>
    let s := s.restoreLoop k r
    let s := if status = 8 then s.evt (CHG_EVT_SNDABORT k) else s
    let s := if r.fromRest ∧ s.role k = .charge then s.setRole k .none else s
    s.finish r.d status 0 0

/-- Move a port to a stage outside GUST and HOLDUP: a running Sounding is aborted (R170), the role follows the stage, and a stage
without charging has command and target 0. In the safe state the stages are frozen (R405). DEDUCED, log entry 80. -/
def State.enterStage (s : State) (k : Fin 2) (g : Stage) : State :=
  let s := s.abortSounding k 8
  if s.safeState then s else
  let s := s.setStage k g
  let s := if s.role k = .gust ∨ s.role k = .holdup then s else s.setRole k (stageRole g)
  let s := if stageRole g = .none then (s.modChg k (fun c => { c with cv := 0 })).setItgt k 0 else s
  if g = .qualify ∨ g = .rest then s.modChg k (fun c => { c with requal := false, restDue := false }) else s

/-- OFF is left for QUALIFY where the charger is enabled, a profile is in force and a pack is present (R155). -/
def State.chgWake (s : State) (k : Fin 2) : State :=
  if s.stage k = .off ∧ s.on (CHG_CTL_EN k) ∧ s.on (CHG_STAT_PROFOK k) ∧ s.packIn k then s.enterStage k .qualify else s

/-- A port leaves HOLDUP (R155, R179, R180, R184): REST, or QUALIFY where a profile came meanwhile; the end of the last one is
noticed. DEDUCED, log entry 65. -/
def State.leaveHoldup (s : State) (k : Fin 2) : State :=
  if s.role k ≠ .holdup then s
  else
    let g := s.stage k
    let s := s.setRole k .none
    let s := s.modChg k (fun c => { c with hshare := 0 })
    let s := if s.chg[k].requal && g != .off then s.enterStage k .qualify
      else if g = .off ∨ g = .fault then s else s.enterStage k .rest
    if s.role 0 = .holdup ∨ s.role 1 = .holdup then s else s.notice 4 0

/-- A port leaves GUST and resumes the stage it left (R156, R183, R184). -/
def State.leaveGust (s : State) (k : Fin 2) : State :=
  if s.role k ≠ .gust then s
  else
    let s := s.modChg k (fun c => { c with gshare := 0, gdrop := false })
    let s := (s.setRole k .none).setRole k (stageRole (s.stage k))
    if s.chg[k].requal && s.stage k != .off then s.enterStage k .qualify else s

/-- PFL, W, and its report. -/
def State.setPfl (s : State) (w : Rat) : State :=
  ({ s with chgg := { s.chgg with pfl := w } }).setCode CHG_GSTAT_PFL w

/-! ### Self-test -/

/-- The running SELFTEST ends with a SYS_BIST status and a completion status: the phase out for test returns to its place, one that was
LOST or in OCL to that state (R78, R79, R132, R287). -/
def State.endTest (s : State) (code status : Nat) : State :=
  match s.sys.test with
  | none => s
  | some d =>
    let s := match s.sys.testPhase with
      | some n =>
        if s.phSt n = PhSt.shedding then s.setPh n .run
        else if s.phSt n = PhSt.test then s.setPh n (s.sys.testWas.getD (s.restPh n))
        else s
      | none => s
    let s := { s with sys := { s.sys with test := none, testLeft := [], testPhase := none, testWas := none, testFailed := false } }
    let s := (s.setFld SYS_BIST_STATUS code).syncPorts
    s.finish d status 0 ((s.word SYS_BIST).toNat + (if status = 5 then 500 * 2 ^ 32 else 0))

/-! ### Stops -/

/-- Steps 1 to 3 of the extraction stop (R108): throttles, phases, pack FETs. -/
def State.stopPower (s : State) : State :=
  let s := (s.setOn FEED_GSTAT_EXSTOP true).setOn FEED_GSTAT_HOLDRUN false
  let s := s.syncThr
  let s := s.each (List.finRange 2) (fun t k =>
    let t := (t.abortSounding k 8).leaveHoldup k
    let t := t.leaveGust k
    (t.setRole k .none).setCmd k 0)
  let s := s.stopPhases
  s.each (List.finRange 2) (fun t k => (t.openPort k).turn k .idle)

/-- Every bank but B3 is powered off and loses its contents (R375, R386): B0, the lines and the ring bookkeeping of B1, the history of B2,
B4; a drain ends without a completion (R389). -/
def State.banksOff (s : State) : State :=
  { s.setWord MEM_STAT 0x41444 with
    mem := { s.mem with b0 := [] }
    fc := { s.fc with lines := [], misses := [] }
    ring := Vector.replicate 64 RingH.reset
    hif := { s.hif with history := [], tel := none, drain := none }
    aon := { s.aon with b4 := Vector.replicate 4 none, b4certs := Vector.replicate 2 none } }

/-- The end of Doldrums entry (R212, R342, R369, R386, R415): every domain but AON stops, with DEVTIME saved in the island, B3 at its
retention level and the other banks off. DEDUCED, log entry 140. -/
def State.doldrumsEnd (s : State) : State :=
  let s := s.each (List.finRange 2) (fun t k => t.setOn (COUL_STAT_OFSRUN k) false)
  let s := ((s.closeWindow (.hardware .sys)).flushJournal).banksOff
  { s with
    sys := { s.sys with doldrums := true, biasGood := false, bias := none, d2d := false, strapsRead := false, anvilUp := false },
    aon := { s.aon with
      savedTime := s.devtime, cycles := 0, tick := 0, sent := Vector.replicate 4 0, wakeTicks := 0
      press := Vector.replicate 2 (0, 0) } }

/-- The last steps of an orderly thermal stop (R354, R357): pending entries reach B3, the THERMAL_STOP entry follows, and THM_STOP, at the
collector, brings the safe state. `tj` is in °C, `trip` TTRIP as THM_STAT codes it. -/
def State.thermalEnd (s : State) (tj : Int) (trip : Nat) : State :=
  let deg := BitVec.ofInt 32 tj
  let s := s.flushJournal.jevent .thm 0x0E 0 0 deg (BitVec.ofNat 32 trip)
  (s.fault srcTHM_STOP deg.toNat).setOn THM_STAT_STOPPING false

/-- A stop sequence goes on once no LIFE record is still to be written (R108, R212, R357): its journal entry, then what it leads to. A
TSTOP that it met meanwhile ends a Doldrums entry here with ARM cleared, and the orderly stop's last steps follow. -/
def State.stopNext (s : State) : State :=
  match s.sys.seq with
  | none => s
  | some q =>
    if q.waits[0] || q.waits[1] then s
    else
      let s := { s with sys := { s.sys with seq := none } }
      let s := match q.kind with
        | .extract obj => s.jevent (if obj = 0x0B then .feed else .chg) obj 0 0 (s.word FEED_GSTAT) 0
        | .doldrums => (s.jevent .pack 0x0D 0 0 (s.word PK_SHIP) 0).flushJournal
      match q.tstop, q.kind with
      | some (tj, trip), .extract _ => s.thermalEnd tj trip
      | some (tj, trip), .doldrums => (s.setOn PK_SHIP_ARM false).thermalEnd tj trip
      | none, .extract _ => s
      | none, .doldrums => s.doldrumsEnd

/-- A LIFE record goes to this pack in a stop sequence: a present one whose identity is known, outside SAFE_TALK (R108, R210, R315). -/
def State.lifeWaits (s : State) (k : Fin 2) : Bool := s.packIn k && s.pk[k].ident.isSome && !s.safeTalk

/-- Begin a stop sequence (R108, R212): throttles, phases and pack FETs at once, then the LIFE records.
DEDUCED, log entry 118. -/
def State.stopBegin (s : State) (kind : StopKind) : State :=
  let s := s.stopPower
  let s := s.each (List.finRange 2) (fun t k => t.wbDue k)
  State.stopNext { s with sys := { s.sys with seq := some ⟨kind, Vector.ofFn s.lifeWaits, none⟩ } }

/-- The extraction stop, with the journal object of its cause (R108, R179): 0x0B EXTRACT, 0x0C HOLDUP_END. -/
def State.extractionStop (s : State) (obj : Nat) : State := if s.on FEED_GSTAT_EXSTOP then s else s.stopBegin (.extract obj)

/-- Doldrums entry (R212); one that runs goes on. -/
def State.doldrumsEntry (s : State) : State :=
  match s.sys.seq with
  | some ⟨.doldrums, _, _⟩ => s
  | _ => s.stopBegin .doldrums

/-- The write of a pack's record in a stop sequence has ended, well or not, or the pack has left (R108, R210).
DEDUCED, log entry 118. -/
def State.stopWrote (s : State) (k : Fin 2) : State :=
  match s.sys.seq with
  | none => s
  | some q => State.stopNext { s with sys := { s.sys with seq := some { q with waits := q.waits.set k false } } }

/-- A port the hold-up loop commands: in HOLDUP, with a phase that runs (R175, R176). -/
def State.holdsUp (s : State) (k : Fin 2) : Bool := s.role k == .holdup && decide (0 < s.nrun k)

/-- Hold-up takeover (R23, R175, R176, R184): every eligible port takes HOLDUP, charging, Drizzle and Gust end elsewhere. -/
def State.takeover (s : State) : State :=
  let out := sumWhere (fun k : Fin 2 => s.role k == .gust) (fun k => s.iport k * s.kout k)
  let vref : Rat := (s.fld PH_VREF_VREF : Rat) / 10000
  let ports := finsWhere s.huEligible
  let s := s.each (List.finRange 2) (fun t k => t.abortSounding k 8)
  let s := s.each (List.finRange 2) (fun t k =>
    if ports.contains k then
      let t := t.modChg k (fun c => { c with gshare := 0, gdrop := false })
      t.setRole k .holdup
    else (t.leaveGust k).setCmd k 0)
  if ports.isEmpty then s
  else
    let s := { s with chgg := { s.chgg with int := divR s.fc.pload vref, ifloor := out, ihu := out, preset := true } }
    let ready := finsWhere s.holdsUp
    let sh := s.shares ready (fun k => s.ipl k * s.kout k) out
    let s := s.each ready (fun t k =>
      ((t.modChg k (fun c => { c with hshare := sh k })).setCmd k (divR (sh k) (t.kout k))).setPout k)
    s.notice 3 0

/-- FEEDS_LOST asserts (R79, R80, R92, R108, R151, R175, R212): armed Doldrums is entered in place of hold-up; otherwise takeover,
and with EJECT the extraction hold. -/
def State.feedsLost (s : State) : State :=
  let s := (s.setOn FEED_GSTAT_FEEDS_LOST true).setPfl 0
  let s := { s with chgg := { s.chgg with pg := 0 } }
  if s.on PK_SHIP_ARM then s.doldrumsEntry
  else
    let s := (s.takeover.endTest 4 8).budgetDrop
    if s.eject then
      (if s.fld FEED_EJECT_EXHOLD = 0 then s.extractionStop 0x0B else s.setOn FEED_GSTAT_HOLDRUN true)
    else s

/-- No feed is both qualified and either conducting or in STANDBY (R92). -/
def State.noFeed (s : State) : Bool :=
  (List.finRange 4).all (fun n => !(s.qual n && (conducts (s.feedSt n) || s.feedSt n == .standby)))

/-- Assert FEEDS_LOST where the last such feed has gone. -/
def State.checkFeeds (s : State) : State := if s.noFeed && !s.lostFeeds then s.feedsLost else s

/-- The hold-up reference moves toward a target (R144, R145). -/
def State.retarget (s : State) (vtgt slew : Nat) : State :=
  let s := { s with phg := { s.phg with target := 100 * vtgt, slew := slew } }
  s.setOn PH_VREF_SLEWING (s.fld PH_VREF_VREF != 100 * vtgt)

/-- Hand-back starts at the qualification of a feed during hold-up (R180): HBV = VFQ − HBMARG, at most 60.00 V. -/
def State.handbackStart (s : State) (n : Fin 4) : State :=
  if s.on CHG_GSTAT_HURUN && !s.on CHG_GSTAT_HBRUN then
    (s.retarget (min 6000 (s.fld (FEED_EFF_VFQ n) - s.fld CHG_HB_HBMARG)) (s.fld CHG_HB_HBSLEW)).setOn CHG_GSTAT_HBRUN true
  else s

/-- Hand-back is given up or over: the reference returns to VTGT at the PH_VHOLD slew (R180, R184). -/
def State.handbackOver (s : State) : State :=
  if s.on CHG_GSTAT_HBRUN then
    let s := (s.retarget (s.fld PH_VHOLD_VTGT) (s.fld PH_VHOLD_SLEW)).setOn CHG_GSTAT_HBRUN false
    { s with phg := { s.phg with handback := true } }
  else s

/-- FEEDS_LOST clears as a feed reaches ON (R92, R109, R180): hold-up ends, PFL is preset to the power the ports delivered, which
goes on as Gust where R181 allows and otherwise falls at GRAMP. -/
def State.feedsBack (s : State) : State :=
  if !s.lostFeeds then s
  else
    let s := ((s.setOn FEED_GSTAT_FEEDS_LOST false).setOn FEED_GSTAT_HOLDRUN false).setOn FEED_GSTAT_EXSTOP false
    let ports := finsWhere (fun k : Fin 2 => s.role k == .holdup)
    let out (k : Fin 2) : Rat := s.iport k * s.kout k * s.phg.vbus
    let total := ports.foldl (fun a k => a + out k) 0
    let s := s.handbackOver
    let s := if ports.isEmpty then s else s.setPfl total
    let s := s.each ports (fun t k =>
      let w := out k
      let i := t.iport k
      let t := t.leaveHoldup k
      if 0 < w then
        let ok := t.gustEligible k
        let t := (t.setRole k .gust).setCmd k i
        (t.modChg k (fun c => { c with gshare := w, gdrop := !ok })).setPout k
      else t)
    (s.setOn CHG_GSTAT_HBRUN false).syncThr

end Sys2Proof.Machine
end

