-- ==== Sys2Proof/Machine/Phase.lean ====
section
/-! DEFINITION. The phase engine (ch. 5, R18 to R20, R68 to R70): the cycle, trips, learning, shedding and adding, over-current
and loss, synchronisation, the phase map, the VHOLD reference. Times inside a cycle are in µs, inductances in µH. -/

namespace Sys2Proof.Machine

/-! ### Set-up quantities -/

/-- The port a phase is mapped to, if any. -/
def State.portOf (s : State) (n : Fin 16) : Option (Fin 2) :=
  if s.phOn 0 n then some 0 else if s.phOn 1 n then some 1 else none

/-- FNOM, Hz. -/
def State.fnom (s : State) : Nat := 10000 * s.fld PH_SYNC_FNOM
/-- The PERIOD that R129 derives from SYNC_IN, ticks of 78.125 ps: rounded to the nearest. -/
def State.syncPeriod (s : State) : Nat :=
  let f := max 1 s.fnom
  (2 * 12800000000 * orZero 16 (s.fld PH_SYNC_DIV) + f) / (2 * f)
/-- The derived PERIOD lies in R128 (R129). -/
def State.syncRange (s : State) : Bool := decide (10667 ≤ s.syncPeriod) && decide (s.syncPeriod ≤ 128000)
/-- PERIOD of a port, ticks (R128, R129): with EN set port 0's is the derived one, locked or not; out of range SYNC_IN is not used. -/
def State.period (s : State) (k : Fin 2) : Nat :=
  let p0 := if s.on PH_SYNC_EN && s.syncRange then s.syncPeriod else s.fld (PHP_TIME_PERIOD 0)
  if k = 0 ∨ s.on PH_SYNC_P1SYNC = true then p0 else s.fld (PHP_TIME_PERIOD k)
/-- The next PERIOD in use on the way to a new one: the frequency moves by at most 1 % (R128, R129).
DEDUCED, log entry 100. -/
def nextPeriod (per target : Nat) : Nat :=
  if target < per then max target ((100 * per + 100) / 101) else min target (100 * per / 99)
/-- T, µs. -/
def State.tsw (s : State) (k : Fin 2) : Rat := (s.php[k].per : Rat) * 78125 / 1000000000
/-- ICMD of a port (R124). -/
def State.icmd (s : State) (k : Fin 2) : Rat := divR (s.iport k) (s.nact k)

/-- Margin of R77 for a port that keeps `n` switching phases: its 1 ms mean is at most n − 1 times the least
continuous limit. DESIGN CHOICE, log entry 104. -/
def State.marginWith (s : State) (k : Fin 2) (n : Nat) : Bool :=
  let lim := (finsWhere (fun i => s.phOn k i && s.phSwitching i)).foldl (fun a i => min a (s.ilims i)) 80
  n == 0 || decide (s.php[k].i1m ≤ ((n : Int) - 1 : Int) * lim)
/-- Does the port have margin? -/
def State.margin (s : State) (k : Fin 2) : Bool :=
  s.marginWith k (finsWhere (fun i => s.phOn k i && s.phSwitching i)).length

/-- The turn-on edge of a leg whose High to Low transition is `hl`, the other one after it, where a level changes (R117). -/
def turnOn (hl : Fin 4) (old new : PwmLvl) (at_ : Rat) : List (Fin 4 × Rat) :=
  match new with
  | .high => if old = .high then [] else [(hl + 1, at_)]
  | .low => if old = .low then [] else [(hl, at_)]
  | .hiZ => []

/-- Drive PWMB and PWMK at a time in the cycle, noting the transitions (R115, R117, R131). -/
def PhH.drive (p : PhH) (b k : PwmLvl) (at_ : Rat) : PhH :=
  let es := turnOn 2 p.pwmk k at_ ++ turnOn 0 p.pwmb b at_
  { p with pwmb := b, pwmk := k, turnOns := es ++ p.turnOns, edges := es.foldl (fun m e => m ||| (1#4 <<< e.1.val)) p.edges }

/-- Drive both outputs of a phase: input leg, output leg, by the direction of its port (R119). -/
def State.legs (s : State) (k : Fin 2) (n : Fin 16) (at_ : Rat) (inp out : PwmLvl) : State :=
  s.modPh n (fun p => if s.dir k = .dis then p.drive out inp at_ else p.drive inp out at_)

/-- The direction follows the last phase to stop in role NONE. -/
def State.idleDir (s : State) (k : Fin 2) : State :=
  if s.role k = .none ∧ (finsWhere (fun i => s.phOn k i && s.phSwitching i)).isEmpty then s.turn k .idle else s

/-! ### The cycle -/

/-- TPRED, VON and the downslope's time base of a mode (R120, R125). -/
def tripTerms (m : Mode) (t vin vout dbb : Rat) : Rat × Rat :=
  match m with
  | .buck => (t * divR vout vin, vin - vout)
  | .boost => (t * (1 - divR vin vout), vin)
  | .buckboost => (t * (1 - dbb * divR vin vout), vin)

/-- A current as the nearest of the threshold DAC's 1,024 codes gives it, A (R125). -/
def dacAmps (x : Rat) : Rat := (((max 0 (min 1023 (x * 8 + 383 + 1 / 2).floor)) - 383 : Int) : Rat) / 8

/-- SE, A/µs: SLOPEK times the mean downslope after the interval, rounded to 0.5 A/µs as PHn_LRN holds it (R125, R127).
DEDUCED, log entry 99. -/
def seOf (slopek : Nat) (dI t tpred : Rat) : Rat :=
  ((2 * divR ((slopek : Rat) / 32 * dI) (t - tpred) + 1 / 2).floor : Rat) / 2

/-- Where B ends in a cycle, as a fraction of T: DBB in BUCKBOOST, the moving end point in a blend, not later than T − TOFFMIN; none
in BUCK and BOOST, and in a change between the two, for which R122 has no row (R120, R122). DEDUCED, log entry 98. -/
def State.bEndOf (s : State) (k : Fin 2) (p : PhH) : Option Rat :=
  let w : Rat := (p.blend : Rat) / 8
  let dbb := s.dbb k
  let last := 1 - divR ((s.fld (PHP_EDGE_TOFFMIN k) : Rat) * 5 / 1000) (s.tsw k)
  if p.blend = 0 then (if p.mode = .buckboost then some (min last dbb) else none)
  else match p.blendFrom, p.mode with
    | .buck, .buckboost => some (min last (p.d0 + (dbb - p.d0) * w))
    | .buckboost, .buck => some (min last (dbb + (divR (s.vout k) (s.vin k) - dbb) * w))
    | .boost, .buckboost => some (min last (1 - (1 - dbb) * w))
    | .buckboost, .boost => some (min last (dbb + (1 - dbb) * w))
    | _, _ => none

/-- TPRED and VON of a cycle in which B ends at a set point: A is trip-terminated (R122, R125). -/
def blendTerms (b t vin vout : Rat) : Rat × Rat := (t * max 0 (1 - b * divR vin vout), vin)

/-- The upper threshold at a time in the interval (R125). -/
def PhH.ith (p : PhH) (ilimf t : Rat) : Rat := min ilimf (p.ith0 - p.se * t)

/-- The slot a running phase belongs in, as a fraction of the period: rounded to the tick, and for port 1 at port 0's PERIOD from the
offset PHOFS (R128, R129). -/
def State.slotOf (s : State) (k : Fin 2) (n : Fin 16) : Rat :=
  let per : Rat := s.php[k].per
  let i : Rat := (finsWhere (fun i => s.phRun k i && decide (i < n))).length
  let ofs : Rat := if k = 1 ∧ s.php[0].per = s.php[1].per then (s.fld (PHP_TIME_PHOFS 1) : Rat) * per / 256 else 0
  let x := divR ((divR (i * per) (s.nact k) + ofs + 1 / 2).floor : Rat) per
  if 1 ≤ x then x - 1 else x

/-- Move toward a slot the shorter way, by at most 1/64 of the period (R128). -/
def toSlot (x y : Rat) : Rat :=
  let d := y - x
  let d := if 1 / 2 < d then d - 1 else if d < -1 / 2 then d + 1 else d
  let z := x + max (-1 / 64) (min (1 / 64) d)
  if z < 0 then z + 1 else if 1 ≤ z then z - 1 else z

/-- The mode change of a phase at its cycle boundary (R121, R122): a new blend, its next cycle, or its end. -/
def State.blendStep (s : State) (k : Fin 2) (n : Fin 16) : State :=
  let p := s.ph[n]
  let m := s.modeOf k
  let s :=
    if 8 ≤ p.blend then s.modPh n (fun p => { p with blend := 0 })
    else if 0 < p.blend then s.modPh n (fun p => { p with blend := p.blend + 1 })
    else if p.mode ≠ m then
      s.modPh n (fun p => { p with
        blend := 1, blendFrom := p.mode, mode := m
        d0 := if p.dB.isEmpty then divR (s.vout k) (s.vin k) else divR p.dB.sum p.dB.length })
    else s
  s.setFld (PHP_STAT_BLEND k) (if s.ph[n].blend = 0 then 0 else 9 - s.ph[n].blend)

/-- The trip wire of a phase is held in the trip state: open, or Anvil unpowered or off the link (R17, R20). -/
def State.wireHeld (s : State) (n : Fin 16) : Bool := s.ph[n].wireOpen || !s.sys.d2d || !s.powered

/-- The phase whose cycle start is its port's: the lowest in RUN, or with none the lowest that switches. -/
def State.leads (s : State) (k : Fin 2) (n : Fin 16) : Bool :=
  let up := finsWhere (s.phRun k)
  (if up.isEmpty then finsWhere (fun i => s.phOn k i && s.phSwitching i) else up).head? == some n

/-- A condition of R134 holds: IPORT_CMD above ADD_NACT, or ICMD above ILIMS. -/
def State.addCond (s : State) (k : Fin 2) : Bool :=
  if s.nact k = 0 then decide (0 < s.iport k)
  else decide ((s.fld (PHP_MAP_ADD k (s.nact k)) : Rat) < 4 * s.iport k) || decide (s.leastIlims k < s.icmd k)

/-- A port cycle starts (R121, R128, R132, R134, R135, R364): dwell, PERIOD, the 64 last commands, the cycles of R134; a phase selected to
shed leaves NACT. -/
def State.portCycle (s : State) (k : Fin 2) : State :=
  let more := s.addCond k
  let s := (s.sourceEdge (14 + k.val)).modPhp k (fun p =>
    { p with
      dwell := min 64 (p.dwell + 1), per := nextPeriod p.per (s.period k), cmds := (s.iport k :: p.cmds).take 64,
      addN := if more then min 2 (p.addN + 1) else 0 })
  let left := finsWhere (fun n => s.phOn k n && s.ph[n].counted)
  if left.isEmpty then s else (s.each left (fun t n => t.modPh n (fun p => { p with counted := false }))).syncPort k

/-- B reaches its set end by `at_`: C follows (R119, R120, R122). -/
def State.reachB (s : State) (k : Fin 2) (n : Fin 16) (at_ : Rat) : State :=
  let p := s.ph[n]
  match p.bEnd with
  | some b =>
    if p.fired && !p.onTime && p.pwmb == .high && p.pwmk == .high && decide (b * s.tsw k ≤ at_) then s.legs k n (b * s.tsw k) .low .high
    else s
  | none => s

/-- The quantities of a cycle at its start (R120 to R125, R137, R352): ICMD, prediction, slope and thresholds; whether it fires. -/
def State.startCycle (s : State) (k : Fin 2) (n : Fin 16) : State :=
  let p := s.ph[n]
  let t := s.tsw k
  let bEnd := s.bEndOf k p
  let (tpred, von) := match p.blend, bEnd with
    | _ + 1, some b => blendTerms b t (s.vin k) (s.vout k)
    | _, _ => tripTerms p.mode t (s.vin k) (s.vout k) (s.dbb k)
  let icmd := s.icmd k
  let dI := divR (von * tpred) p.li
  let se := seOf (s.fld (PHP_MODE_SLOPEK k)) dI t tpred
  let ipk : Rat := (s.fld (PHP_LIGHT_IPKSKIP k) : Rat) / 8
  let ipulse := Config.ipulse ipk (s.vin k) (s.vout k) p.li
  let skip := s.on (PHP_MODE_SKIPEN k) && decide (p.turned ≤ 1) && decide (icmd < (s.fld (PHP_LIGHT_ISKIP k) : Rat) / 8)
  let acc := if skip then p.acc + icmd else 0
  let hot := s.thm.skip.getLsbD n && decide (max 2 (orZero 16 (s.fld THM_ACT_STGSKIPN)) ≤ p.skipN + 1)
  let fire := decide (0 < icmd) && !hot && !s.wireHeld n && (!skip || decide (ipulse ≤ acc))
  let s := s.modPh n (fun p =>
    { p with
      icmd := icmd, ith0 := if skip then dacAmps ipk else dacAmps (icmd + dI / 2 + se * tpred), se := if skip then 0 else se,
      ilo := dacAmps (icmd - dI / 4), tpred := tpred, von := von, susp := p.susp - 1, turned := p.turned - 1, bEnd := bEnd,
      acc := if fire && skip then acc - ipulse else acc, light := skip || p.acted, acted := false,
      skipN := if hot then 0 else p.skipN + 1, onTime := fire, fired := fire, blanked := false, high := false, tLo := none,
      tUp := none, slot := toSlot p.slot (s.slotOf k n), turnOns := [] })
  let s := s.setCode (PH_LRN_SE n) (2 * se)
  if !fire then s.legs k n 0 .hiZ .hiZ
  else match s.ph[n].mode, bEnd with
    | .buck, none => s.legs k n 0 .high .high
    | _, _ => s.legs k n 0 .high .low

/-- PWM_CYCLE_START (R20, R115, R120 to R125, R128, R132, R135, R137, R174, R352): a phase in RUN starts a cycle, which fires its pulse
or stays at high impedance; one that sheds starts one last cycle and then only lets its current fall. -/
def execPwmCycleStart (n : Fin 16) (s : State) : Host.Outcome State Fault Refusal :=
  .next (
    match s.portOf n with
    | none => s
    | some k =>
      if !s.phSwitching n then s
      else
        let s := s.reachB k n (s.tsw k)
        let s := if s.leads k n then s.portCycle k else s
        let last := s.phSt n == .shedding
        let done := last && decide (1 ≤ s.ph[n].shedN)
        let s := if last then s.modPh n (fun p => { p with shedN := p.shedN + 1 }) else s
        if done then s.modPh n (fun p => { p with fired := false, turnOns := [] })
        else (s.blendStep k n).startCycle k n)

/-- The signs of R141 in a cycle whose interval ended with the estimate `est`, against the last cycle of each sibling: OPEN, and SENSE_STUCK.
With no sibling, a trip within ±50 % of TPRED is what they stand for. DEDUCED, log entry 105. -/
def State.lossSigns (s : State) (k : Fin 2) (n : Fin 16) (est : Rat) : Bool × Bool :=
  let p := s.ph[n]
  let sibs := finsWhere (fun i => s.phOn k i && s.phSwitching i && i != n)
  let normal := match p.tUp with
    | some u => decide (p.tpred / 2 ≤ u ∧ u ≤ p.tpred * 3 / 2)
    | none => false
  let neither := p.tLo.isNone && p.tUp.isNone && !p.high
  if sibs.isEmpty then (!normal, p.high || neither)
  else
    let mean := divR (sibs.foldl (fun a i => a + s.ph[i].est) 0) sibs.length
    (decide (est < mean * 6 / 10), (p.high && sibs.all (fun i => !s.ph[i].lastHigh)) || (neither && sibs.all (fun i => s.ph[i].lastUp)))

/-- The trip-terminated interval ends at a time (R120, R127, R141): the next interval's levels, the cycle estimate with its checks, and in
RUN one counted cycle of the learning window, with its sample where both crossings are at least 20 ns apart. -/
def State.endOn (s : State) (k : Fin 2) (n : Fin 16) (at_ : Rat) : State :=
  let p := s.ph[n]
  let f := s.ilimf n
  let est := match p.tLo, p.tUp with
    | _, some u => (p.ilo + p.ith f u) / 2
    | some _, none => p.ilo
    | none, none => 0
  let sample : Option Rat := match p.tLo, p.tUp with
    | some l, some u =>
      if (20 : Rat) / 1000 ≤ u - l then
        let m1 := (p.ith f u - p.ilo) / (u - l)
        if m1 = 0 then none else some (p.von / m1)
      else none
    | _, _ => none
  let frac := divR at_ (s.tsw k)
  let (low, stuck) := s.lossSigns k n est
  let judged := p.susp == 0 && p.blend == 0
  let counts := s.phSt n == .run
  let s := s.modPh n (fun p =>
    { p with
      onTime := false, est := est, lastUp := p.tUp.isSome, lastHigh := p.high, openN := if judged && low then min 64 (p.openN + 1) else 0,
      stuckN := if judged && stuck then min 4 (p.stuckN + 1) else 0,
      lCnt := if counts then p.lCnt + 1 else p.lCnt, lValid := if counts && sample.isSome then p.lValid + 1 else p.lValid,
      lSum := if counts then p.lSum + sample.getD 0 else p.lSum,
      dB := if p.mode = .buck ∧ p.blend = 0 then (frac :: p.dB).take 8 else p.dB })
  let s := s.setScode (PH_MEAS_ICYC n) (100 * est)
  match p.mode, p.bEnd with
  | .buck, none => s.legs k n at_ .low .high
  | _, some b => if b ≤ frac then s.legs k n at_ .low .high else s.legs k n at_ .high .high
  | _, none => s.legs k n at_ .high .high

/-! ### Over-current and loss -/

/-- PCHGY: the sum of min(PCHGREQ, PYIELD) over the ports in CHARGE (R153). -/
def State.pchgyOf (s : State) (k : Fin 2) : Rat := if s.role k = .charge then min s.chg[k].pchgreq s.chg[k].pyield else 0
@[inherit_doc State.pchgyOf] def State.pchgy (s : State) : Rat := s.pchgyOf 0 + s.pchgyOf 1

/-- Step 4 of R142: where the measured current exceeds the new IPL, Gust is cut, charging pauses and the budget falls. -/
def State.cutPower (s : State) (k : Fin 2) : State :=
  if s.ipl k < s.php[k].i10 then
    let s := s.setPfl s.pchgy
    let s := { s with chgg := { s.chgg with pg := 0 } }
    let s := s.each (List.finRange 2) (fun t j =>
      if t.role j = .gust then ((t.modChg j (fun c => { c with gshare := 0, gdrop := false })).setCmd j 0).setPout j
      else if t.role j = .charge then (t.modChg j (fun c => { c with allowed := 0 })).setCmd j 0
      else t)
    (s.evt (PHP_EVT_CUT k)).budgetDrop
  else s

/-- A phase becomes unavailable: it stops in a state, the port's limits are recomputed, LIMSCALE reports a lower IPL (R124, R142). -/
def State.takeOut (s : State) (k : Fin 2) (n : Fin 16) (st : PhSt) : State :=
  let ipl := s.ipl k
  let s := (s.setPh n st).syncPort k
  if s.ipl k < ipl then s.evt (PHP_EVT_LIMSCALE k) else s

/-! ### PHASE_MAP in progress -/

/-- Stage temperature as reported, °C. -/
def State.tstage (s : State) (n : Fin 16) : Int := s.sfld (PH_STAT_TSTAGE n)

/-- The coolest of a list, ties to the lower number; the hottest, ties to the higher. -/
def State.coolest (s : State) (l : List (Fin 16)) : Option (Fin 16) :=
  l.foldl (fun b n => match b with
    | some m => if s.tstage n < s.tstage m then some n else some m
    | none => some n) none
@[inherit_doc State.coolest] def State.hottest (s : State) (l : List (Fin 16)) : Option (Fin 16) :=
  l.foldl (fun b n => match b with
    | some m => if s.tstage m ≤ s.tstage n then some n else some m
    | none => some n) none

/-- PHASE_MAP ends DEFERRED_LOAD with nothing re-assigned (R130, R289). -/
def State.mapDeferred (s : State) : State :=
  match s.phg.map with
  | none => s
  | some d =>
    let s := s.each (List.finRange 16) (fun t m => t.modPh m (fun p => { p with drain := false }))
    let s := { s with phg := { s.phg with map := none } }
    s.refuse d 0 5 0 0 ((s.word PH_PMAP).toNat + 500 * 2 ^ 32)

/-- Shed the next phase that PHASE_MAP waits for, the hottest one, once no other does; where its port would lose margin without it the
command ends (R77, R130, R135). -/
def State.drainNext (s : State) : State :=
  if s.phg.map.isNone || (List.finRange 16).any (fun n => s.ph[n].drain && s.phSt n == .shedding) then s
  else match s.hottest (finsWhere (fun n => s.ph[n].drain && s.phSt n == .run)) with
    | none => s
    | some n =>
      let ok : Bool := match s.portOf n with
        | some k => s.marginWith k (s.nrun k - 1)
        | none => true
      if ok then (s.setPh n .shedding).syncPorts else s.mapDeferred

/-! ### Latches and losses -/

/-- Latch a phase in OCL with a cause (R132, R139, R140): the third latch within 1 s holds it. -/
def State.oclLatch (s : State) (n : Fin 16) (cause : Nat) : State :=
  let recent := s.ph[n].oclAt.filter (fun t => decide ((s.devtime - t).toNat < 100000000)) ++ [s.devtime]
  let s := s.modPh n (fun p => { p with oclAt := recent, oclStuck := decide (3 ≤ recent.length) })
  let s := match s.portOf n with
    | some k => s.takeOut k n .ocl
    | none => s.setPh n .ocl
  let s := ((s.setFld (PH_STAT_CAUSE n) cause).setFld (PH_STAT_FLCNT n) 0).setFld (PH_STAT_OCLN n) (min 3 recent.length)
  let s := s.count (PH_CNT_OCLCNT n)
  let s := if cause = 8 then s.evt (PH_EVT_OCL n) else s.evt (PH_EVT_SLOW n)
  let s := s.fault srcPH_OCL n.val
  (if 3 ≤ recent.length then s.fault srcPH_OCL_REPEAT n.val else s).drainNext

/-- Mark a phase LOST (R20, R142, R146): the loops behind the port command fall in proportion, power is cut where the port carries
more than the new IPL, and a phase that sheds or is out for test returns where margin would go.
DESIGN CHOICE, log entry 125. -/
def State.markLost (s : State) (n : Fin 16) (cause : Nat) : State :=
  let st := s.phSt n
  if st = .unassigned ∨ st = .shorted ∨ st = .lost then s
  else
    let s := s.fault (if cause = 6 then srcTRIP_MISMATCH else srcPHASE_LOST) n.val
    let s := s.evt (PH_EVT_LOST n)
    match s.portOf n with
    | none => (s.setPh n .lost).setFld (PH_STAT_CAUSE n) cause
    | some k =>
      let old := s.nact k
      let cmd := s.iport k
      let s := (s.takeOut k n .lost).setFld (PH_STAT_CAUSE n) cause
      let new := s.nact k
      let r : Rat := divR new old
      let s :=
        if new = old then s
        else match s.role k with
          | .holdup =>
            let s := { s with chgg := { s.chgg with int := s.chgg.int - (1 - r) * s.chg[k].hshare } }
            s.setCmd k (r * cmd)
          | .gust =>
            let w := s.chg[k].gshare
            let s := (s.setPfl (max 0 (s.chgg.pfl - (1 - r) * w))).modChg k (fun c => { c with gshare := r * w })
            s.setCmd k (r * cmd)
          | .charge =>
            if s.stage k = .cv then
              let s := s.modChg k (fun c => { c with cv := r * c.cv, itgt := r * c.itgt })
              (s.setScode (CHG_CUR_ITGT k) (100 * s.chg[k].itgt)).setCmd k (r * cmd)
            else s
          | _ => s
      let s := s.cutPower k
      let back := if s.marginWith k (s.nrun k) then [] else finsWhere (fun i => s.phOn k i && s.phSt i == .shedding)
      let s := s.each back (fun t i => t.setPh i .run)
      let s := if back.any (fun (i : Fin 16) => s.ph[i].drain) then s.mapDeferred else s.drainNext
      let s := if s.sys.testPhase.isSome ∧ s.sys.testPhase ≠ some n then s.endTest 2 5 else s
      (s.syncPort k).budgetDrop

/-- TRIP_MISMATCH (R20): the state that Anvil reports has differed from the wire for 4 ACLK cycles. -/
def execTripMismatch (n : Fin 16) (reported : Bool) (s : State) : Host.Outcome State Fault Refusal :=
  .next (if reported = s.ph[n].trip then s else s.markLost n 6)

/-- The last latch in OCL came within `n` cycles of the port (R146). -/
def State.latchedIn (s : State) (k : Fin 2) (i : Fin 16) (n : Nat) : Bool :=
  s.phSt i == .ocl && (match s.ph[i].oclAt.getLast? with
    | some t => decide (((s.devtime - t).toNat : Rat) / 100 ≤ n * s.tsw k)
    | none => false)

/-- PHASE_LOSS (R117, R123, R141, R142, R146), with its cause as PHn_STAT.CAUSE codes it less 1: OPEN after 64 cycles with its sign, SENSE_CM
where no check is suspended and the ball has been outside for `w` ns, 4 cycles or more, SENSE_STUCK after 4 cycles, of which OCL may have
cut off the last, STAGE at once where TFLT's upper output, which lasts `w` ns, 500 or more, does not hold its state (R325, R326). A loss
replaces a latch of the same cycle. DEDUCED, log entry 148. -/
def execPhaseLoss (n : Fin 16) (cause : Fin 4) (w : Nat) (s : State) : Host.Outcome State Fault Refusal :=
  .next (
    let p := s.ph[n]
    let k := (s.portOf n).getD 0
    let up := s.phSwitching n || s.latchedIn k n 1
    let seen : Bool := match cause with
      | 0 => up && decide (64 ≤ p.openN)
      | 1 => up && p.susp == 0 && p.blend == 0 && decide (4 * s.tsw k * 1000 ≤ w)
      | 2 => (s.phSwitching n && decide (4 ≤ p.stuckN)) || (s.latchedIn k n 2 && decide (3 ≤ p.stuckN))
      | 3 => decide (500 ≤ w) && !s.cmpHeld (29 + n) true
    let s := if cause = 3 then s.cmpReport (29 + n) true w else s
    if seen then
      let s := if cause = 3 then s.evt (PH_EVT_STAGEF n) else if cause = 0 then s else s.evt (PH_EVT_SENSE n)
      s.markLost n (cause.val + 1)
    else s)

/-- A time as the PWM timebase captures it, in steps of 78.125 ps, µs (R18). -/
def tdc (t : Rat) : Rat := ((t * 12800).floor : Rat) / 12800

/-- The level an event leaves on TRIPn; an open wire stays high (R18, R20). -/
def PhH.onWire (p : PhH) (e : TripEv) : PhH :=
  match e with
  | .blanked => p
  | .blankEnd high => { p with trip := high || p.wireOpen }
  | .falling => { p with trip := p.wireOpen }
  | .rising => { p with trip := true }
  | .opened => { p with trip := true, wireOpen := true }

/-- A trip ends the trip-terminated interval at `at_` (R18, R19, R138, R139): a truncated cycle, a fast-limit cycle, the third of which in a
row latches, or any other. -/
def State.tripStop (s : State) (k : Fin 2) (n : Fin 16) (at_ : Rat) (trunc fast : Bool) : State :=
  let s := s.endOn k n at_
  if trunc then (s.count (PHP_CNT_TRUNC k)).setFld (PH_STAT_FLCNT n) 0
  else if fast then
    let s := s.count (PH_CNT_FLCYC n)
    if 2 ≤ s.fld (PH_STAT_FLCNT n) then s.oclLatch n 8 else s.setFld (PH_STAT_FLCNT n) (s.fld (PH_STAT_FLCNT n) + 1)
  else s.setFld (PH_STAT_FLCNT n) 0

/-- An event on the trip wire of a switching phase (R18, R127, R137, R139). -/
def State.onTrip (s : State) (k : Fin 2) (n : Fin 16) (e : TripEv) (at_ : Rat) (trunc : Bool) : State :=
  let p := s.ph[n]
  let rise := e == .rising || e == .opened
  if p.onTime then
    match e with
    | .blanked => s
    | .blankEnd high =>
      let high := high || p.wireOpen
      let s := s.modPh n (fun p => { p with blanked := true, high := high })
      if high then s.tripStop k n at_ trunc (p.blend == 0) else s
    | .falling => if p.blanked && !p.wireOpen then s.modPh n (fun p => { p with tLo := some at_ }) else s
    | .rising | .opened =>
      if p.blanked then
        let held := decide (s.ilimf n ≤ p.ith0 - p.se * at_)
        (s.modPh n (fun p => { p with tUp := some at_ })).tripStop k n at_ trunc held
      else s
  else
    let s := s.reachB k n at_
    let de := s.phSt n == .shedding || (s.on (PHP_MODE_DEEN k) && p.turned == 0)
    if rise && de then (s.modPh n (fun p => { p with light := true, acted := true })).legs k n at_ .hiZ .hiZ else s

/-- What the upper threshold of the BUS comparator is set to, V: the reference plus OVMV in hold-up, the BUS mean plus OVMV in Gust (R138). -/
def State.busovV (s : State) : Rat :=
  let ov : Rat := (s.fld PH_BUSOV_OVMV : Rat) / 50
  if s.role 0 = .holdup ∨ s.role 1 = .holdup then (s.fld PH_VREF_VREF : Rat) / 10000 + ov else s.phg.vbus + ov
/-- A port runs DIS. -/
def State.anyDis (s : State) : Bool := s.dir 0 == .dis || s.dir 1 == .dis
/-- The threshold as it stands, V: that of the last update, or before the first one of a discharge what it will be (R138). -/
def State.busovNow (s : State) : Rat := if s.phg.busov = 0 then s.busovV else s.phg.busov
/-- The OR onto the trip wires is enabled: by the last update, while OVEN is set and a port runs DIS (R19, R138). -/
def State.busovOn (s : State) : Bool := s.phg.busovOr && s.on PH_BUSOV_OVEN && s.anyDis

/-- TRIP_WIRE_EVENT (R18 to R20, R127, R137 to R139): an event on TRIPn at time `at_` from the interval's start; `trunc` says that the BUS
comparator drives it, which it does only through an enabled OR, and `w` is how long the level lasts, ns. -/
def execTripWireEvent (n : Fin 16) (e : TripEv) (at_ : Rat) (trunc : Bool) (w : Nat) (s : State) : Host.Outcome State Fault Refusal :=
  .next (
    if trunc && !s.busovOn then s
    else
      let s := s.modPh n (fun p => p.onWire e)
      match s.portOf n with
      | none => s
      | some k =>
        if !s.phSwitching n then s
        else
          let s := match e with
            | .falling => s.cmpClear n
            | .rising =>
              if !trunc then s.cmpReport n s.ph[n].onTime w
              else if s.cmpOut 28 true then s else s.cmpReport 28 true w
            | _ => s
          s.onTrip k n e (tdc at_) trunc)

/-- MAX_DUTY_END (R126): the interval reaches T − TOFFMIN without a trip. -/
def execMaxDutyEnd (n : Fin 16) (s : State) : Host.Outcome State Fault Refusal :=
  .next (
    match s.portOf n with
    | none => s
    | some k =>
      if s.phSwitching n && s.ph[n].onTime then
        let toff : Rat := (s.fld (PHP_EDGE_TOFFMIN k) : Rat) * 5 / 1000
        ((s.endOn k n (s.tsw k - toff)).count (PH_CNT_MAXD n)).setFld (PH_STAT_FLCNT n) 0
      else s)

/-- The mean of the phase's current samples over the last 10 ms, A (R140). -/
def State.iavg (s : State) (n : Fin 16) : Rat :=
  let l := s.ph[n].amps.filter (fun a => decide ((s.devtime - a.1).toNat < 1000000))
  divR (l.foldl (fun x a => x + a.2.1) 0) l.length

/-- A current sample of a phase, A in the direction of power flow, and whether the loops may use it (R116, R118, R140, R337). -/
def State.ampSample (s : State) (n : Fin 16) (a : Rat) (use : Bool) : State :=
  let l := s.ph[n].amps.filter (fun b => decide ((s.devtime - b.1).toNat < 1000000))
  let held := match s.ph[n].amps with
    | b :: _ => b.2.2
    | [] => 0
  let s := s.modPh n (fun p => { p with amps := (s.devtime, a, if use then a else held) :: l })
  s.setScode (PH_MEAS_IAVG n) (100 * s.iavg n)

/-- The phase whose current ADCA converts next for a port: its running phases in ascending order, in turn (R118). -/
def State.nextAmp (s : State) (k : Fin 2) : Option (Fin 16) :=
  let up := finsWhere (s.phRun k)
  match up.find? (fun n => decide (s.php[k].rot < n)) with
  | some n => some n
  | none => up.head?

/-- SLOW_OVERLOAD (R140). -/
def execSlowOverload (n : Fin 16) (s : State) : Host.Outcome State Fault Refusal :=
  .next (
    match s.portOf n with
    | none => s
    | some k =>
      if s.phSwitching n && decide (s.ilims n * s.fld (PHP_LIM_OVLD k) / 100 < s.iavg n) then s.oclLatch n 9 else s)

/-- OCL_COOL_END (R132). -/
def execOclCoolEnd (n : Fin 16) (s : State) : Host.Outcome State Fault Refusal :=
  .next (
    if s.phSt n = .ocl && s.on (PH_CFG_OCAUTO n) && !s.ph[n].oclStuck then
      let recent := s.ph[n].oclAt.filter (fun t => decide ((s.devtime - t).toNat < 100000000))
      let s := (s.modPh n (fun p => { p with oclAt := recent })).setFld (PH_STAT_OCLN n) recent.length
      ((s.setPh n (s.restPh n)).setFld (PH_STAT_CAUSE n) 0).syncPorts
    else s)

/-! ### Learning and dead times -/

/-- INDUCTANCE_LEARN (R127): 256 counted cycles; with 32 or more valid, L_i takes their mean, within ±6.25 % and LMIN to LMAX. -/
def execInductanceLearn (n : Fin 16) (s : State) : Host.Outcome State Fault Refusal :=
  .next (
    let p := s.ph[n]
    if p.lCnt < 256 then s
    else
      let k : Fin 2 := if s.phOn 1 n then 1 else 0
      let lmin : Rat := (max 10 (s.fld (PHP_INDL_LMIN k)) : Nat) / 100
      let lmax : Rat := (s.fld (PHP_INDL_LMAX k) : Rat) / 100
      let s := s.setFld (PH_LRN_NVALID n) (min 255 p.lValid)
      let s :=
        if p.lValid < 32 then s.evt (PH_EVT_LRNSTALE n)
        else
          let l := clampR (clampR (p.lSum / p.lValid) (p.li * (1 - 1 / 16)) (p.li * (1 + 1 / 16))) lmin lmax
          (s.modPh n (fun p => { p with li := l })).setCode (PH_LRN_LNH n) (100 * l)
      s.modPh n (fun p => { p with lCnt := 0, lValid := 0, lSum := 0 }))

/-- HARD_SWITCH_REPORT (R117, R131): a report `at_` µs after the cycle start, attributed to the latest turn-on edge that began within 50 ns
before it; without such an edge, and where the level has not lasted 10 to 40 ns, it is ignored. The output lasts `w` ns. -/
def execHardSwitchReport (n : Fin 16) (at_ : Rat) (w : Nat) (s : State) : Host.Outcome State Fault Refusal :=
  .next (
    let s := s.cmpReport (29 + n) false w
    match s.ph[n].turnOns.find? (fun e => decide (e.2 ≤ at_)) with
    | some (tr, t) =>
      if s.phSwitching n && decide (at_ - t ≤ 5 / 100) && decide (10 ≤ w ∧ w ≤ 40) then
        s.modPh n (fun p => { p with reports := p.reports ||| (1#4 <<< tr.val) })
      else s
    | none => s)

/-- DEADTIME_ADAPT (R131): every 64 cycles each transition that occurred falls by 1, or rises by 4 where it drew a report. -/
def execDeadtimeAdapt (n : Fin 16) (s : State) : Host.Outcome State Fault Refusal :=
  .next (
    match s.portOf n with
    | none => s
    | some _ =>
      let p := s.ph[n]
      let frozen := p.mode == .buckboost || p.blend != 0 || p.light || decide (p.icmd < s.ilims n / 10) || p.susp != 0
      let s := s.modPh n (fun p => { p with edges := 0, reports := 0 })
      if frozen then s
      else s.each (finsWhere (fun i : Fin 4 => p.edges.getLsbD i)) (fun t i =>
        let f : Fld := [PH_DT_BHL n, PH_DT_BLH n, PH_DT_KHL n, PH_DT_KLH n][i]
        let c := t.fld f
        if p.reports.getLsbD i then
          (if 255 < c + 4 then t.evt (PH_EVT_DTSAT n) else t).setFld f (min 255 (c + 4))
        else (if c = 0 then t.evt (PH_EVT_DTSAT n) else t).setFld f (c - 1)))

/-! ### Mode and direction -/

/-- A port's measured current over a span of DEVTIME counts, A: the mean of the samples of its phases times the phases that switch (R77,
R118, R142). DESIGN CHOICE, log entry 106. -/
def State.portAmps (s : State) (k : Fin 2) (span : Nat) : Rat :=
  let l := (finsWhere (s.phOn k)).flatMap (fun (n : Fin 16) => s.ph[n].amps.filter (fun a => decide ((s.devtime - a.1).toNat < span)))
  divR (l.foldl (fun x a => x + a.2.2) 0) l.length * (finsWhere (fun i => s.phOn k i && s.phSwitching i)).length

/-- MODE_EVALUATE (R118, R119, R121): every 10 µs, on the 10 µs means of both sides and the port's currents over 10 µs and 1 ms. -/
def execModeEvaluate (k : Fin 2) (s : State) : Host.Outcome State Fault Refusal :=
  .next (
    let s : State := { s with phg := { s.phg with vbus := meanOr s.meas.v[12] s.meas.bus } }
    let ch : Fin 48 := if k = 0 then 13 else 14
    let v : Rat := s.meas.v[ch]
    let s := s.modPhp k (fun p => { p with vpack := v, i10 := s.portAmps k 1000, i1m := s.portAmps k 100000 })
    let m := s.modeFor k (s.modeOf k)
    if s.dir k != .idle && m != s.modeOf k && decide (64 ≤ s.php[k].dwell) then
      let s := ((s.setFld (PHP_STAT_MODE k) m.code).setFld (PHP_STAT_BLEND k) 8).evt (PHP_EVT_MODECHG k)
      s.modPhp k (fun p => { p with dwell := 0 })
    else s)

/-- DIRECTION_CHANGE (R123, R149): a direction that the port's role allows is commanded. -/
def execDirectionChange (k : Fin 2) (d : Dir) (s : State) : Host.Outcome State Fault Refusal :=
  .next (
    let ok : Bool := match s.role k with
      | .gust | .holdup => d == .dis
      | .charge | .drizzle => d == .chg
      | .none => d != .dis
    if ok then s.turn k d else s)

/-! ### Shedding and adding -/

/-- The efficiency map is valid: SHED_(j+1) ≤ 0.95 × ADD_j (R133). -/
def State.mapOk (s : State) (k : Fin 2) : Bool :=
  (List.range 15).all (fun i => decide (100 * s.fld (PHP_MAP_SHED k (i + 2)) ≤ 95 * s.fld (PHP_MAP_ADD k (i + 1))))
/-- A map of all zeros. -/
def State.mapZero (s : State) (k : Fin 2) : Bool :=
  (List.range 16).all (fun i => s.word (PHP_MAP k (i + 1)) == 0)

/-- NACT's ceiling: NMAX and the thermal cap (R136, R352). -/
def State.ncapOf (s : State) (k : Fin 2) : Nat := max 1 (min (s.fld (PHP_SHED_NMAX k)) s.php[k].ncap)

/-- How many phases of a port should run, rising from the present number (R133, R134, R136, R174, R175), by its least ILIMS; hold-up wakes one
whatever its command.
DESIGN CHOICE, log entry 104. -/
def State.addWant (s : State) (k : Fin 2) : Nat :=
  let avail := (finsWhere (s.phAvail k)).length
  let i := s.iport k
  let ready := if s.role k = .holdup then 1 else if s.huEligible k && s.feedOn then s.readyWant k else 0
  let n := s.nact k
  let want :=
    if s.role k = .drizzle then 1
    else if s.role k = .holdup && s.on (PHP_MODE_HUALL k) then avail
    else if i = 0 then ready
    else if !s.mapOk k || s.mapZero k then avail
    else max ready (((List.range 17).find? (fun j => decide (max 1 n ≤ j) &&
      (decide (avail ≤ j) || (decide (4 * i ≤ s.fld (PHP_MAP_ADD k j)) &&
        decide (i ≤ j * s.leastIlims k))))).getD avail)
  min want (min avail (s.ncapOf k))

/-- Add phases up to a number (R132, R134): the coolest available IDLE phase wakes; with none left, one that sheds and is not to drain or to
test returns to RUN. -/
def State.addUpTo (s : State) (k : Fin 2) (want : Nat) : Nat → State
  | 0 => s
  | fuel + 1 =>
    let up := (finsWhere (fun n => s.phOn k n && (s.phSt n == .run || s.phSt n == .waking))).length
    if want ≤ up then s
    else
      match s.coolest (finsWhere (fun n => s.phAvail k n && s.phSt n == .idle && !s.ph[n].drain)) with
      | some n => ((s.setPh n .waking).count (PHP_CNT_ADDS k)).addUpTo k want fuel
      | none =>
        match (finsWhere (fun n => s.phOn k n && s.phSt n == .shedding && !s.ph[n].drain && s.sys.testPhase != some n)).head? with
        | some n => (((s.setPh n .run).count (PHP_CNT_ADDS k)).syncPort k).addUpTo k want fuel
        | none => s

/-- Does a rule other than the map and ILIMS call for phases: the first one, hold-up, Drizzle, readiness, a map that runs them all (R132,
R133, R136, R174)? -/
def State.addAtOnce (s : State) (k : Fin 2) : Bool :=
  s.nrun k == 0 || s.role k == .drizzle || (s.role k == .holdup && s.on (PHP_MODE_HUALL k)) ||
  (s.huEligible k && s.feedOn && decide (s.nrun k < s.readyWant k)) || !s.mapOk k || s.mapZero k

/-- PHASE_ADD (R94, R132 to R136, R146, R174): the phases the port command, hold-up, Drizzle or readiness calls for; a condition of R134
holds in its second port cycle. -/
def execPhaseAdd (k : Fin 2) (s : State) : Host.Outcome State Fault Refusal :=
  .next (
    if !s.on SYS_STATE_PHOK || !s.running || s.on FEED_GSTAT_EXSTOP then s
    else
      let want := s.addWant k
      let s := if 0 < want ∧ s.dir k = .idle then s.turn k .chg else s
      if !s.addAtOnce k && decide (s.php[k].addN < 2) then s
      else
        let s := if s.nrun k < want then s.modPhp k (fun p => { p with cmds := [], addN := 0 }) else s
        (s.addUpTo k want 16).syncElig k)

/-- PHASE_WAKE_DONE (R132, R141): TWAKE has elapsed and the first cycle follows at the phase's slot. -/
def execPhaseWakeDone (n : Fin 16) (s : State) : Host.Outcome State Fault Refusal :=
  .next (
    match s.portOf n with
    | none => s
    | some k =>
      if s.phSt n = .waking then
        let s := (s.setPh n .run).syncPort k
        let m := s.modeOf k
        let s := if (finsWhere (fun i => s.phOn k i && s.phSwitching i)).length = 1 then s.modPhp k (fun p => { p with per := s.period k }) else s
        (s.modPh n (fun p => { p with
          susp := 17, openN := 0, stuckN := 0, fired := false, mode := m, blend := 0, dB := [], bEnd := none, acc := 0
          slot := s.slotOf k n, pwmb := PwmLvl.hiZ, pwmk := PwmLvl.hiZ })).syncElig k
      else s)

/-- The hottest running phase of a port begins to shed, and the count toward DWELL starts again (R135). -/
def State.shedOne (s : State) (k : Fin 2) : State :=
  match s.hottest (finsWhere (s.phRun k)) with
  | some p => (((s.setPh p .shedding).count (PHP_CNT_SHEDS k)).modPhp k (fun p => { p with cmds := [] })).syncPort k
  | none => s

/-- A thermal cap stops what wakes above it, the hottest first as in shedding, and sheds down to it at once (R135, R136). -/
def State.capShed (s : State) (k : Fin 2) : Nat → State
  | 0 => s
  | fuel + 1 =>
    let waking := finsWhere (fun n => s.phOn k n && s.phSt n == .waking)
    if s.ncapOf k < s.nrun k + waking.length then
      (match s.hottest waking with
        | some n => s.setPh n (s.restPh n)
        | none => s.shedOne k).capShed k fuel
    else s

/-- Does light load, Drizzle or no command call for shedding (R22, R133, R135, R136, R157)? The average of R135 is that of 64 port
cycles. -/
def State.shedCond (s : State) (k : Fin 2) : Bool :=
  let n := s.nrun k
  let ready := if s.huEligible k && s.feedOn then s.readyWant k else 0
  if s.role k = .drizzle then decide (1 < n)
  else if s.iport k = 0 then decide (s.addWant k < n)
  else if (s.role k == .holdup && s.on (PHP_MODE_HUALL k)) || !s.mapOk k || s.mapZero k then false
  else
    let l := s.php[k].cmds
    decide (max (s.fld (PHP_SHED_NMIN k)) (max 1 ready) < n) && l.length == 64 && decide (4 * (l.sum / 64) < s.fld (PHP_MAP_SHED k (s.nact k)))

/-- PHASE_SHED (R135, R136, R146): the hottest running phase of the port starts its last cycle, DWELL having passed; a phase to add
comes first. -/
def execPhaseShed (k : Fin 2) (s : State) : Host.Outcome State Fault Refusal :=
  .next (
    if (decide (s.ncapOf k < s.nrun k) || s.shedCond k) && decide (s.nrun k < s.addWant k) = false then (s.shedOne k).syncElig k
    else s)

/-- PHASE_SHED_DONE (R130, R132): the current has reached zero or four cycles have passed. -/
def execPhaseShedDone (n : Fin 16) (s : State) : Host.Outcome State Fault Refusal :=
  .next (
    if s.phSt n = .shedding then
      let k := s.portOf n
      let s := (s.setPh n (if s.sys.testPhase = some n then .test else s.restPh n)).syncPorts
      let s := match k with
        | some k => (s.idleDir k).syncElig k
        | none => s
      s.drainNext
    else s)

/-! ### Probes -/

/-- Report a phase's legs in SYS_PROBE. -/
def State.syncProbe (s : State) (n : Fin 16) : State :=
  let p := s.ph[n]
  let c := if p.legB = .shorted ∨ p.legK = .shorted then 2 else if p.legB = .notProbed ∨ p.legK = .notProbed then 3
    else if p.legB = .pending ∨ p.legK = .pending then 1 else 0
  s.setFld ⟨SYS_PROBE, 2 * n.val + 1, 2 * n.val⟩ c

/-- One leg's probe: a short marks the phase SHORTED, and on the boost leg opens the port of the phase until a device reset; with
both legs passed a PENDING phase becomes IDLE (R68 to R70). -/
def State.probeLeg (s : State) (n : Fin 16) (boost shorted : Bool) : State :=
  let r : LegSt := if shorted then .shorted else .pass
  let s := s.modPh n (fun p => if boost then { p with legK := r } else { p with legB := r })
  let s :=
    if shorted then
      let s := ((s.setPh n .shorted).syncPorts).fault srcPHASE_SHORTED n.val
      if boost then
        match s.portOf n with
        | some k => ((s.modPk k (fun p => { p with shorted := true })).leaveHoldup k).openPort k
        | none => s
      else s
    else if s.phSt n = .pending then s.setPh n (s.restPh n)
    else s
  let s := s.syncProbe n
  match s.portOf n with
  | some k => s.dsgAfterClose k
  | none => s

/-- When the phase comparator trips in a probe, ns from its start, within the 40 ns that the low-side switch is on: its upper threshold
stands at 20 % of the fast limit in force (R68). -/
def State.probeTrip (s : State) (n : Fin 16) (p : LegPulse) : Option Rat :=
  if 0 < p.rate ∧ s.ilimf n / 5 / p.rate ≤ 40 then some (s.ilimf n / 5 / p.rate) else none

/-- Probe a leg (R68): a trip within 20 ns of the pulse's start is a short. -/
def State.probe (s : State) (n : Fin 16) (boost : Bool) (p : LegPulse) : State :=
  s.probeLeg n boost ((s.probeTrip n p).any (fun t => decide (t ≤ 20)))

/-- Probe each leg of a phase that has 4.5 V across its high-side switch (R68). -/
def State.probeLive (s : State) (n : Fin 16) (l : Legs) : State :=
  s.each [false, true] (fun t boost => if 45 / 10 ≤ (l.leg boost n).v then t.probe n boost (l.leg boost n) else t)

/-- LEG_PROBE (R69): a PENDING leg's voltage first exceeds 4.5 V. -/
def execLegProbe (n : Fin 16) (boost : Bool) (p : LegPulse) (s : State) : Host.Outcome State Fault Refusal :=
  .next (
    if (if boost then s.ph[n].legK else s.ph[n].legB) = .pending ∧ 45 / 10 < p.v then s.probe n boost p else s)

/-! ### Synchronisation and overshoot -/

/-- A PH_SYNC write, or a start: SYNC_IN is used only where the derived PERIOD lies in R128 (R129). -/
def State.applySync (s : State) : State :=
  if s.on PH_SYNC_EN && !s.syncRange then
    let s := { s with phg := { s.phg with pllSync := false } }
    (s.setOn PH_GSTAT_SYNCLOCK false).setFlags PH_GSTAT 0x40000
  else if s.on PH_SYNC_EN then s
  else
    let s := { s with phg := { s.phg with pllSync := false } }
    s.setOn PH_GSTAT_SYNCLOCK false

/-- SYNC_LOST (R129). -/
def execSyncLost (s : State) : Host.Outcome State Fault Refusal :=
  .next (
    if s.phg.pllSync then
      let s := { s with phg := { s.phg with pllSync := false, syncGood := 0 } }
      ((s.setOn PH_GSTAT_SYNCLOCK false).evt PH_GSTAT_SYNC_LOST).fault srcSYNC_LOST 0
    else s)

/-- SYNC_RELOCK (R129): 64 valid periods, at start or after a loss. -/
def execSyncRelock (s : State) : Host.Outcome State Fault Refusal :=
  .next (
    if s.on PH_SYNC_EN && s.syncRange then
      let s := { s with phg := { s.phg with pllSync := true, syncGood := 64 } }
      s.setOn PH_GSTAT_SYNCLOCK true
    else s)

/-- BUSOV_UPDATE (R138): the reference plus OVMV in hold-up, the BUS mean plus OVMV in Gust; off while no port runs DIS. -/
def execBusovUpdate (s : State) : Host.Outcome State Fault Refusal :=
  .next (
    let dis := s.anyDis
    { s with phg := { s.phg with busovOr := s.on PH_BUSOV_OVEN && dis, busov := if dis then s.busovV else 0 } })

/-! ### PHASE_MAP -/

/-- Apply a PHASE_MAP as a whole (R130, R424); `ends` where it is the one that has drained. -/
def State.applyMap (s : State) (d : Desc) (ends : Bool) : State :=
  let old := s
  let s := s.each (finsWhere (fun n : Fin 16 => d.mapSel n)) (fun t n =>
    let t := (t.setFld (PH_CFG_PORT n) (d.mapCode n)).setFld ⟨PH_PMAP, 2 * n.val + 1, 2 * n.val⟩ (d.mapCode n)
    if t.phSt n = .idle ∨ t.phSt n = .unassigned then t.setPh n (t.restPh n) else t)
  let s := if ends then
      let s := s.each (List.finRange 16) (fun t m => t.modPh m (fun p => { p with drain := false }))
      { s with phg := { s.phg with map := none } }
    else s
  let s := s.syncPorts
  let s := s.regDiff old ((List.range 16).map PH_CFG ++ [PH_PMAP]) (adminOrigin d) 0
  s.finish d 0 0 (s.word PH_PMAP).toNat

/-- Start PHASE_MAP (R130, R277, R289); one that has to drain while another drains is BUSY. DESIGN CHOICE, log entry 149. -/
def State.startPhaseMap (s : State) (d : Desc) : State :=
  let named := finsWhere (fun n : Fin 16 => d.mapSel n)
  let moved := named.filter (fun (n : Fin 16) => s.fld (PH_CFG_PORT n) != d.mapCode n)
  let affected := moved.filter (fun (n : Fin 16) => s.phSwitching n)
  let res := (s.word PH_PMAP).toNat
  if named.any (fun n => decide (s.fld SYS_STRAP_PHCNT ≤ n.val) || d.mapCode n == 3) then s.refuse d 0 2 0 0 res
  else if affected.isEmpty then s.applyMap d false
  else if !d.mapDrain || s.phg.map.isSome then s.refuse d 0 4 0 0 res
  else
    let s := s.each moved (fun t n => t.modPh n (fun p => { p with drain := true }))
    ({ s with phg := { s.phg with map := some d } }).drainNext

/-- PHASE_MAP_DRAIN_DONE (R130): no affected phase switches any more. -/
def execPhaseMapDrainDone (s : State) : Host.Outcome State Fault Refusal :=
  .next (
    match s.phg.map with
    | some d => if (List.finRange 16).any (fun n => s.ph[n].drain && s.phSwitching n) then s.drainNext else s.applyMap d true
    | none => s)

/-! ### The VHOLD reference -/

/-- Complete the running SET_VTARGET (R144, R288). -/
def State.endVtarget (s : State) (status : Nat) : State :=
  match s.phg.vt with
  | none => s
  | some d =>
    let s := { s with phg := { s.phg with vt := none } }
    let v := (s.fld PH_VREF_VREF + 50) / 100 % 8192
    s.finish d status 0 (s.time48.toNat + v * 2 ^ 48)

/-- The reference stands at its target: a hand-back's return is over, and SET_VTARGET completes once no hand-back runs (R144, R180). -/
def State.atTarget (s : State) : State :=
  if s.fld PH_VREF_VREF = s.phg.target then
    let s := s.setOn PH_VREF_SLEWING false
    if s.on CHG_GSTAT_HBRUN then s
    else
      let s := { s with phg := { s.phg with handback := false } }
      s.endVtarget 0
  else s

/-- A new target in PH_VHOLD: the running SET_VTARGET is superseded; during hand-back only VTGT changes (R144, R145, R180). -/
def State.newTarget (s : State) : State :=
  let s := s.endVtarget 7
  if s.on CHG_GSTAT_HBRUN then s else (s.retarget (s.fld PH_VHOLD_VTGT) (s.fld PH_VHOLD_SLEW))

/-- Start SET_VTARGET (R144, R288). -/
def State.startVtarget (s : State) (d : Desc) : State :=
  if d.vtgt < 1000 ∨ 6000 < d.vtgt ∨ d.slew < 1 ∨ 100 < d.slew then s.refuse d 0 2 0 0
  else
    let old := s
    let s := (s.setFld PH_VHOLD_VTGT d.vtgt).setFld PH_VHOLD_SLEW d.slew
    let s := s.regDiff old [PH_VHOLD] (adminOrigin d) 0
    let s := s.newTarget
    ({ s with phg := { s.phg with vt := some d } }).atTarget

/-- VHOLD_REF_UPDATE (R144): 1 µs of slewing: SLEW codes of 0.1 mV. -/
def execVholdRefUpdate (s : State) : Host.Outcome State Fault Refusal :=
  .next (
    let v := s.fld PH_VREF_VREF
    let t := s.phg.target
    let v' := if v < t then min t (v + s.phg.slew) else max t (v - s.phg.slew)
    (s.setFld PH_VREF_VREF v').atTarget)

end Sys2Proof.Machine
end

