-- ==== Sys2Proof/Machine/Comparator.lean ====
section
/-! DEFINITION. The window comparators as their inputs move (ch. 11, R318 to R323): the thresholds and modes in force, the hysteresis, what
a conversion of the node shows of an output, and the swap of the stages. -/

namespace Sys2Proof.Machine

/-- A threshold as a DAC code, rounded to the interior side of the window and held in the DAC's range (R319). -/
def dacCode (upper : Bool) (x : Rat) : Nat := (max 0 (min 1023 (if upper then x.floor else x.ceil))).toNat

/-- The threshold codes in force, lower then upper (R318, R319). DESIGN CHOICE, log entry 124. -/
def State.thr (s : State) (c : Nat) : Nat × Nat :=
  if h : c < 16 then
    let n : Fin 16 := ⟨c, h⟩
    let p := s.ph[n]
    let near (x : Rat) : Nat := (max 0 (min 1023 ((x * 8 + 383 + 1 / 2).floor))).toNat
    match s.portOf n with
    | none => (0, near (s.ilimf n))
    | some k =>
      if p.onTime then (near p.ilo, near (min (s.ilimf n) p.ith0))
      else
        let de := s.phSt n == .shedding || (s.on (PHP_MODE_DEEN k) && p.turned == 0)
        (if de then near ((s.sfld (PHP_LIGHT_IZC k) : Rat) / 8) else 0, near (s.ilimf n))
  else if c < 20 then (s.fld (FEED_WIN_UVTH (c - 16)), s.fld (FEED_WIN_OVTH (c - 16)))
  else if h : c < 24 then
    let n : Fin 4 := ⟨c - 20, by omega⟩
    let code (a : Rat) : Rat := 200 + a * s.rsns n / (125 / 1000000)
    (dacCode false (code (-((orZero 1 (s.fld (FEED_SNS_IREV n)) : Rat) / 4))), min 1000 (dacCode true (code (s.scmult n * s.feed[n].ilimEff))))
  else if c < 26 then
    let k := c - 24
    let code (a : Rat) : Rat := 512 + a * s.fld (PK_CFG_RPK k) / 200
    (dacCode false (code (-((s.fld (PK_PROT_ISCD k) : Rat) / 4))), dacCode true (code ((s.fld (PK_PROT_ICHOC k) : Rat) / 4)))
  else if h : c < 28 then
    let k : Fin 2 := ⟨c - 26, by omega⟩
    (dacCode false (10 * s.uvh k), if (s.prof k).isSome then dacCode true (10 * s.ovh k) else 1023)
  else if c = 28 then
    (s.fld (CMP_THR_LOWER 28), if s.dir 0 = .dis ∨ s.dir 1 = .dis then dacCode true (s.busovNow / (8 / 100)) else 1023)
  else if c < 45 then (38, 600)
  else if c = 45 then (550, 687)
  else (s.fld (CMP_THR_LOWER c), s.fld (CMP_THR_UPPER c))

/-- The speed mode in force (R318, R323). DEDUCED, log entry 103. -/
def State.cmpMode (s : State) (c : Nat) : Nat :=
  let fast (n : Nat) : Bool :=
    if h : n < 16 then
      let st := s.phSt ⟨n, h⟩
      st == .waking || st == .run || st == .test
    else false
  if c < 16 then (if fast c then 0 else 2)
  else if c < 20 then 1
  else if c < 26 then 0
  else if c < 28 then 1
  else if c = 28 then (if s.busovOn then 0 else 1)
  else if c < 45 then (if fast (c - 29) then 0 else 2)
  else if c = 45 then 1
  else s.fld (CMP_CFG_MODE c)

/-- Hysteresis codes (R321). -/
def State.cmpHys (s : State) (c : Nat) : Nat := if c < 16 then 1 else s.fld (CMP_CFG_HYS c)

/-- The next status of one output for an input `d` codes beyond its threshold, outward counted positive: asserted beyond it,
released past the band, INBAND between where it was asserted (R321, R322). DEDUCED, log entry 82. -/
def cmpNext (hys st : Nat) (d : Int) : Nat :=
  if 0 < d then 1 else if d ≤ -(hys : Int) then 0 else if st = 0 then 0 else 2

/-- The input of comparator c is seen at code `x`, by a conversion of its node or at start-up: an output it shows inside the window releases
or reads INBAND, one it shows outside from the band is asserted again; an assertion comes by its own row. DESIGN CHOICE, log entry 146. -/
def State.cmpSee (s : State) (c : Fin 48) (x : Int) : State :=
  let s := s.modCmp c (fun m => { m with x := some x })
  let (lo, hi) := s.thr c
  let one (s : State) (upper : Bool) (d : Int) : State :=
    let f := if upper then CMP_STAT_HISTATE c else CMP_STAT_LOSTATE c
    let new := cmpNext (s.cmpHys c) (s.fld f) d
    if s.cmpHeld c upper || (new = 1 && s.fld f = 0) then s else s.setFld f new
  one (one s false (lo - x)) true (x - hi)

/-- The input as last seen lies inside the window past both bands, or is not known since it moved (R321). -/
def State.cmpInside (s : State) (c : Fin 48) : Bool :=
  match s.cmp[c].x with
  | none => true
  | some x =>
    let (lo, hi) := s.thr c
    decide (lo + s.cmpHys c ≤ x) && decide (x + s.cmpHys c ≤ hi)

/-- The outputs of comparator c release, as far as its input allows (R321). -/
def State.cmpRelease (s : State) (c : Fin 48) : State :=
  match s.cmp[c].x with
  | some x => s.cmpSee c x
  | none => s.cmpClear c

/-- Both stages agree on both outputs: the spare sees the input as last seen, the live one shows the outputs (R327). -/
def State.cmpAgrees (s : State) (c : Fin 48) : Bool :=
  match s.cmp[c].x with
  | none => true
  | some x =>
    let (lo, hi) := s.thr c
    let same (upper : Bool) (d : Int) : Bool :=
      let st := s.fld (if upper then CMP_STAT_HISTATE c else CMP_STAT_LOSTATE c)
      (cmpNext (s.cmpHys c) st d != 0) == (st != 0)
    same false (lo - x) && same true (x - hi)

/-- A nulled spare stage is swapped in once both stages agree, with no blanking in force and nothing settling; the outputs stay as they
are (R327, R343). -/
def State.trySwap (s : State) (c : Fin 48) : State :=
  if s.cmp[c].swap && !s.on (CMP_STAT_BLANK c) && s.cmp[c].settle.isNone && s.cmpAgrees c then
    (s.setOn (CMP_STAT_LIVE c) (!s.on (CMP_STAT_LIVE c))).modCmp c (fun m => { m with swap := false })
  else s

end Sys2Proof.Machine
end

