-- ==== Sys2Proof/Machine/Crypto.lean ====
section
/-! DEFINITION. The algorithms that R202 to R204 and R216 name: SHA-256 and ECDSA over P-256. The manual names them and leaves them to their
standards. PRESUMED, log entry 61. -/

namespace Sys2Proof.Machine

/-! ### SHA-256 -/

/-- The 64 round constants. -/
def shaK : List Word :=
  [0x428a2f98, 0x71374491, 0xb5c0fbcf, 0xe9b5dba5, 0x3956c25b, 0x59f111f1, 0x923f82a4, 0xab1c5ed5,
   0xd807aa98, 0x12835b01, 0x243185be, 0x550c7dc3, 0x72be5d74, 0x80deb1fe, 0x9bdc06a7, 0xc19bf174,
   0xe49b69c1, 0xefbe4786, 0x0fc19dc6, 0x240ca1cc, 0x2de92c6f, 0x4a7484aa, 0x5cb0a9dc, 0x76f988da,
   0x983e5152, 0xa831c66d, 0xb00327c8, 0xbf597fc7, 0xc6e00bf3, 0xd5a79147, 0x06ca6351, 0x14292967] ++
  [0x27b70a85, 0x2e1b2138, 0x4d2c6dfc, 0x53380d13, 0x650a7354, 0x766a0abb, 0x81c2c92e, 0x92722c85,
   0xa2bfe8a1, 0xa81a664b, 0xc24b8b70, 0xc76c51a3, 0xd192e819, 0xd6990624, 0xf40e3585, 0x106aa070,
   0x19a4c116, 0x1e376c08, 0x2748774c, 0x34b0bcb5, 0x391c0cb3, 0x4ed8aa4a, 0x5b9cca4f, 0x682e6ff3,
   0x748f82ee, 0x78a5636f, 0x84c87814, 0x8cc70208, 0x90befffa, 0xa4506ceb, 0xbef9a3f7, 0xc67178f2]

/-- The eight working words. -/
structure Sha where
  a : Word
  b : Word
  c : Word
  d : Word
  e : Word
  f : Word
  g : Word
  h : Word
deriving DecidableEq, Repr

/-- The initial hash value. -/
def Sha.init : Sha :=
  ⟨0x6a09e667, 0xbb67ae85, 0x3c6ef372, 0xa54ff53a, 0x510e527f, 0x9b05688c, 0x1f83d9ab, 0x5be0cd19⟩

/-- Sum word by word. -/
def Sha.add (x y : Sha) : Sha := ⟨x.a + y.a, x.b + y.b, x.c + y.c, x.d + y.d, x.e + y.e, x.f + y.f, x.g + y.g, x.h + y.h⟩

/-- One round with a constant and a word of the schedule. -/
def Sha.round (x : Sha) (k w : Word) : Sha :=
  let s1 := x.e.rotateRight 6 ^^^ x.e.rotateRight 11 ^^^ x.e.rotateRight 25
  let s0 := x.a.rotateRight 2 ^^^ x.a.rotateRight 13 ^^^ x.a.rotateRight 22
  let t1 := x.h + s1 + ((x.e &&& x.f) ^^^ (~~~ x.e &&& x.g)) + k + w
  let t2 := s0 + ((x.a &&& x.b) ^^^ (x.a &&& x.c) ^^^ (x.b &&& x.c))
  ⟨t1 + t2, x.a, x.b, x.c, x.d + t1, x.e, x.f, x.g⟩

/-- The message schedule, newest word first, extended by `n` words. -/
def shaSched : Nat → List Word → List Word
  | 0, l => l
  | n + 1, l =>
    let w (i : Nat) : Word := l.getD i 0
    let s0 := (w 14).rotateRight 7 ^^^ (w 14).rotateRight 18 ^^^ ((w 14) >>> 3)
    let s1 := (w 1).rotateRight 17 ^^^ (w 1).rotateRight 19 ^^^ ((w 1) >>> 10)
    shaSched n ((w 15 + s0 + w 6 + s1) :: l)

/-- A big-endian number from its bytes. -/
def beNat (l : List Byte) : Nat := l.foldl (fun a b => a * 256 + b.toNat) 0

/-- One block of 64 bytes. -/
def Sha.block (x : Sha) (l : List Byte) : Sha :=
  let ws := (List.range 16).map (fun i => BitVec.ofNat 32 (beNat ((l.drop (4 * i)).take 4)))
  let sched := (shaSched 48 ws.reverse).reverse
  x.add ((shaK.zip sched).foldl (fun y p => y.round p.1 p.2) x)

/-- `n` blocks. -/
def Sha.blocks : Nat → List Byte → Sha → Sha
  | 0, _, x => x
  | n + 1, l, x => Sha.blocks n (l.drop 64) (x.block (l.take 64))

/-- The message with its padding: 0x80, zeros, and the length in bits as 64 bits. -/
def shaPad (l : List Byte) : List Byte :=
  l ++ [0x80] ++ List.replicate ((119 - l.length % 64) % 64) 0 ++ (leBytes (8 * l.length) 8).reverse

/-- SHA-256 of a message, 32 bytes. PRESUMED, log entry 61. -/
def sha256 (l : List Byte) : List Byte :=
  let p := shaPad l
  let x := Sha.blocks (p.length / 64) p Sha.init
  [x.a, x.b, x.c, x.d, x.e, x.f, x.g, x.h].flatMap (fun w => (leBytes w.toNat 4).reverse)

/-! ### P-256 -/

/-- The prime of P-256. -/
def p256 : Nat := 2 ^ 256 - 2 ^ 224 + 2 ^ 192 + 2 ^ 96 - 1
/-- The constant b of P-256. -/
def p256b : Nat := 0x5ac635d8aa3a93e7b3ebbd55769886bc651d06b0cc53b0f63bce3c3e27d2604b
/-- The order of P-256. -/
def p256n : Nat := 0xffffffff00000000ffffffffffffffffbce6faada7179e84f3b9cac2fc632551
/-- The base point. -/
def p256gx : Nat := 0x6b17d1f2e12c4247f8bce6e563a440f277037d812deb33a0f4a13945d898c296
@[inherit_doc p256gx] def p256gy : Nat := 0x4fe342e2fe1a7f9b8ee7eb4a7c0f9e162bce33576b315ececbb6406837bf51f5

/-- A big-endian number of 32 key bytes from byte `i`; the key's byte j is in bits 8j + 7 to 8j. -/
def keyNum (key : BitVec 512) (i : Nat) : Nat :=
  (List.range 32).foldl (fun a j => a * 256 + key.toNat / 2 ^ (8 * (i + j)) % 256) 0

/-- X ‖ Y is a point of P-256 (R202, R216). -/
def keyOnCurve (key : BitVec 512) : Bool :=
  let x := keyNum key 0
  let y := keyNum key 32
  decide (x < p256) && decide (y < p256) && (y * y) % p256 == (x * x * x + (p256 - 3) * x + p256b) % p256

/-- `b` to the power `e` modulo `m`; `n` bounds the bits of `e`. -/
def powMod (m : Nat) : Nat → Nat → Nat → Nat
  | 0, _, _ => 1 % m
  | n + 1, b, e => (if e % 2 = 1 then b else 1) * powMod m n (b * b % m) (e / 2) % m

/-- A point in Jacobian coordinates; z = 0 is the point at infinity. -/
structure EcPt where
  x : Nat
  y : Nat
  z : Nat
deriving DecidableEq, Repr

/-- The difference modulo p. -/
def subP (a b : Nat) : Nat := (a + (p256 - b % p256)) % p256

/-- Twice a point. -/
def EcPt.dbl (p : EcPt) : EcPt :=
  if p.z = 0 ∨ p.y = 0 then ⟨1, 1, 0⟩
  else
    let y2 := p.y * p.y % p256
    let z2 := p.z * p.z % p256
    let s := 4 * p.x * y2 % p256
    let m := 3 * subP p.x z2 * (p.x + z2) % p256
    let x := subP (m * m) (2 * s)
    ⟨x, subP (m * subP s x) (8 * y2 * y2), 2 * p.y * p.z % p256⟩

/-- The sum of two points. -/
def EcPt.add (p q : EcPt) : EcPt :=
  if p.z = 0 then q else if q.z = 0 then p
  else
    let zp := p.z * p.z % p256
    let zq := q.z * q.z % p256
    let u1 := p.x * zq % p256
    let u2 := q.x * zp % p256
    let s1 := p.y * zq * q.z % p256
    let s2 := q.y * zp * p.z % p256
    if u1 = u2 then (if s1 = s2 then p.dbl else ⟨1, 1, 0⟩)
    else
      let h := subP u2 u1
      let r := subP s2 s1
      let h2 := h * h % p256
      let h3 := h2 * h % p256
      let v := u1 * h2 % p256
      let x := subP (r * r) (h3 + 2 * v)
      ⟨x, subP (r * subP v x) (s1 * h3), h * p.z * q.z % p256⟩

/-- A multiple of a point; `n` bounds the bits of the factor. -/
def EcPt.mul : Nat → Nat → EcPt → EcPt
  | 0, _, _ => ⟨1, 1, 0⟩
  | n + 1, k, p => (if k % 2 = 1 then p else ⟨1, 1, 0⟩).add (EcPt.mul n (k / 2) p.dbl)

/-- The signature r ‖ s over the SHA-256 of a message verifies under a public key X ‖ Y (R202, R204). -/
def ecdsaOk (key : BitVec 512) (msg : List Byte) (sig : BitVec 512) : Bool :=
  let r := keyNum sig 0
  let s := keyNum sig 32
  let w := powMod p256n 256 s (p256n - 2)
  let pt := (EcPt.mul 256 (beNat (sha256 msg) * w % p256n) ⟨p256gx, p256gy, 1⟩).add
    (EcPt.mul 256 (r * w % p256n) ⟨keyNum key 0, keyNum key 32, 1⟩)
  let zi := powMod p256 256 pt.z (p256 - 2)
  keyOnCurve key && decide (0 < r ∧ r < p256n ∧ 0 < s ∧ s < p256n) && pt.z != 0 && pt.x * zi % p256 * zi % p256 % p256n == r

/-- The key ID of a public key: the first 8 bytes of its SHA-256 (R202), byte i in bits 8i + 7 to 8i. -/
def keyId (key : BitVec 512) : BitVec 64 :=
  BitVec.ofNat 64 (((sha256 (blockBytes key 0 64)).take 8).foldr (fun b a => b.toNat + 256 * a) 0)

end Sys2Proof.Machine
end

