-- ==== Sys2Proof/Machine/Keys.lean ====
section
/-! DEFINITION. The secure bank and the fleet keys (R203, R387, R388), authentication results (R204 to R207) and the PACK_AUTH
commands (R216). -/

namespace Sys2Proof.Machine

/-! ### Authentication -/

/-- A result takes effect (R204, R205): the change is journalled, a result other than PASS or BYPASS sets AUTHF, and a port in GUST
may lose its permission. -/
def State.setAuth (s : State) (k : Fin 2) (r : AuthRes) : State :=
  let old := s.authInForce k
  let s := s.modPk k (fun p => { p with auth := r })
  let new := s.authInForce k
  let s := if old = new then s
    else s.jevent .pack 0x06 k.val (BitVec.ofNat 32 old.code) (BitVec.ofNat 32 new.code) (s.packId0 k)
  (s.syncPack k).gustLoss k

/-- A run falls due (R204, R205): it starts, waits for a profile, or is already there. -/
def State.authDue (s : State) (k : Fin 2) : State :=
  if !s.packIn k || s.pkSt k == .empty || s.pkSt k == .ident then s
  else
    (s.modPk k (fun p =>
      if p.running then p
      else if (s.prof k).isSome then { p with running := true, waiting := false }
      else { p with waiting := true })).syncPack k

/-- The commands that joined a run complete at its end (R216): result, fleet slot, pack counter, WORN. -/
def State.endJoined (s : State) (k : Fin 2) (r : AuthRes) : State :=
  let shown := if s.bypass k then AuthRes.bypass else r
  let slot := match s.pk[k].slot with
    | some i => if r = .pass then i.val else 0xFF
    | none => 0xFF
  let res := shown.code + slot * 2 ^ 8 + s.fld (PK_CTR_CTR k) * 2 ^ 16 + s.fld (PK_STAT_WORN k) * 2 ^ 48
  let l := s.pk[k].joined
  (s.modPk k (fun p => { p with joined := [] })).each l (fun t d => t.done d 0 0 res)

/-- The run is abandoned with its pack, and the commands that joined it complete ABORTED (R190, R216, R217). -/
def State.abortJoined (s : State) (k : Fin 2) : State :=
  let l := s.pk[k].joined
  (s.modPk k (fun p => { p with joined := [], running := false, waiting := false })).each l (fun t d => t.done d 8 0 0)

/-! ### B4 -/

/-- B4 is written with the valid fleet keys (R61, R203, R388), unless the seal holds it EMPTY; accesses stall during a wipe (R387),
whose end loads it. -/
def State.loadB4 (s : State) : State :=
  if s.aon.wiping.isSome then s
  else if s.aon.sealedOut then s.setFld MEM_STAT_B4 3
  else
    let b4 := Vector.ofFn (fun i : Fin 4 =>
      let (key, valid, void) := s.aon.keys[i]
      if valid && !void then some key else none)
    let s := { s with aon := { s.aon with b4 := b4 } }
    (s.setFld MEM_STAT_B4 0).setOn MEM_STAT_KEYS ((List.finRange 4).any (fun i => b4[i].isSome))

/-- B4 reloaded: authentication runs again on both packs (R85, R205). -/
def State.reloadB4 (s : State) : State :=
  if s.aon.sealedOut then s.loadB4 else (s.loadB4).each (List.finRange 2) (fun t k => t.authDue k)

/-- A wipe starts, or starts again (R387, R388): authentication in progress is abandoned, both packs revert to unauthenticated.
DEDUCED, log entry 70. -/
def State.wipe (s : State) (cause : Nat) : State :=
  let s := { s with aon := { s.aon with
      wiping := some cause, b4 := Vector.replicate 4 none, b4certs := Vector.replicate 2 none
      sealedOut := s.aon.sealedOut || cause == 1 } }
  let s := ((s.setFld MEM_STAT_B4 2).setOn MEM_STAT_KEYS false).setFld MEM_WIPE_CAUSE cause
  s.each (List.finRange 2) (fun t k =>
    if t.packIn k then (t.modPk k (fun p => { p with running := false, waiting := false, slot := none })).setAuth k .none else t)

/-- B4_WIPE_DONE (R387, R388): 4,096 rows are written. -/
def execB4WipeDone (s : State) : Host.Outcome State Fault Refusal :=
  .next (
    match s.aon.wiping with
    | none => s
    | some cause =>
      let s := (s.count MEM_WIPE_WIPES).evt MEM_EVT_WIPE
      let s := s.jevent .mem 0x11 cause 0 (s.word MEM_WIPE) 0
      let s := { s with aon := { s.aon with wiping := none } }
      let s := if cause = 1 ∨ (cause = 2 ∧ s.on SYS_LC_BUSY) then s.setFld MEM_STAT_B4 3 else s.reloadB4
      s.each (List.finRange 2) (fun t k => if t.pk[k].joined.isEmpty then t else t.authDue k))

/-! ### Fleet keys -/

/-- The QUAL bits of the failing SEALED checks (R274, R420). -/
def State.sealedQual (s : State) : Nat :=
  (if s.present then 0 else 1) + (if s.sealOk then 0 else 2) + (if s.lifecycle = 1 then 0 else 4) + (if s.stalled then 8 else 0)

/-- The REASON of the first failing SEALED check, 0 where all pass (R420). -/
def State.sealedReason (s : State) : Nat :=
  if s.lifecycle ≠ 1 then 3 else if !s.sealOk then 2 else if !s.present then 1 else if s.stalled then 4 else 0

/-- State of a slot as the journal codes it (R424). -/
def State.slotState (s : State) (i : Fin 4) : Nat :=
  let (_, valid, void) := s.aon.keys[i]
  if void then 2 else if valid then 1 else 0

/-- A KEY entry (R424). -/
def State.keyEntry (s : State) (d : Desc) (i : Fin 4) (old new : Nat) : State :=
  s.journal (s.stamp 2 false ((adminOrigin d).word 0) 0x04 i.val (BitVec.ofNat 32 old) (BitVec.ofNat 32 new)
    ((keyId s.aon.keys[i].1).setWidth 32))

/-- PACK_AUTH at its start (R216): AUTHENTICATE joins or starts a run; LOAD_KEY asks for its key; VOID_KEY blows the void fuse and
the packs that passed under the slot are authenticated again. -/
def State.startPackAuth (s : State) (d : Desc) : State :=
  let i := d.authSlot
  if d.authOp = 0 then
    if s.pkSt d.authPort = .empty then s.refuse d 0 2 0 0
    else (s.modPk d.authPort (fun p => { p with joined := p.joined ++ [d] })).authDue d.authPort
  else if 3 ≤ d.authOp then s.refuse d 2 2 0 0
  else if s.sealedReason ≠ 0 then s.refuse d 2 3 s.sealedQual s.sealedReason
  else if d.authOp = 1 then
    if s.slotState i ≠ 0 ∨ Desc.bytes d 16 8 % 64 ≠ 0 then s.refuse d 2 2 0 0
    else { s with aon := { s.aon with keyLoad := s.aon.keyLoad ++ [d] } }
  else
    let old := s.slotState i
    let s := { s with aon := { s.aon with keys := vmod s.aon.keys i (fun x => (x.1, x.2.1, true)) } }
    let s := (s.count AUTH_CNT_GRANTED).keyEntry d i old 2
    let hit := finsWhere (fun k : Fin 2 => s.pk[k].auth == .pass && s.pk[k].slot == some i)
    (s.loadB4.each hit (fun t k => t.authDue k)).done d 0 0 0

/-- KEY_READ_DONE (R203, R216): the bytes at KADDR, byte j in bits 8j + 7 to 8j; the SEALED conditions hold at the evaluation.
With Bus Master Enable clear the bytes are discarded and come again (R261). -/
def execKeyReadDone (key : BitVec 512) (s : State) : Host.Outcome State Fault Refusal :=
  .next (
    if !s.on HIF_LNK_BME then s
    else match s.aon.keyLoad with
    | [] => s
    | d :: l =>
      let i := d.authSlot
      let s := { s with aon := { s.aon with keyLoad := l } }
      if s.sealedReason ≠ 0 then s.fail d 2 3 s.sealedQual s.sealedReason
      else if s.slotState i ≠ 0 ∨ keyOnCurve key = false then s.fail d 2 2 0 0
      else
        let s := { s with aon := { s.aon with keys := vmod s.aon.keys i (fun _ => (key, true, false)) } }
        ((s.count AUTH_CNT_GRANTED).keyEntry d i 0 1).loadB4.done d 0 0 0)

end Sys2Proof.Machine
end

