-- ==== Sys2Proof/Machine/Pack.lean ====
section
/-! DEFINITION. The pack ports (ch. 7): presence, identity, the FETs and their protection, coulomb counting with its offset
(R341, R342), authentication runs, life accounting and the always-on tick of Doldrums (R213 to R215, R329). -/

namespace Sys2Proof.Machine

/-! ### Charge and capacity -/

/-- Publish SOC (R200). -/
def State.setSoc (s : State) (k : Fin 2) (pct : Rat) : State :=
  let x := clampR pct 0 100
  (s.modPk k (fun p => { p with soc := x })).setCode (PK_STAT_SOC k) (100 * x)

/-- SOH = FCC / CAP in % (R200); not advanced without a CAP. -/
def State.syncSoh (s : State) (k : Fin 2) : State :=
  if s.packCap k = 0 then s else s.setCode (PK_FCC_SOH k) (divR (s.fld (PK_FCC_FCC k) * 10 : Nat) (s.packCap k))

/-- Publish FCC, 0.01 Ah, and SOH. -/
def State.setFcc (s : State) (k : Fin 2) (c : Rat) : State := (s.setCode (PK_FCC_FCC k) c).syncSoh k

/-- A CAP became known (R200): an FCC set from a default takes it. -/
def State.capKnown (s : State) (k : Fin 2) : State :=
  if s.pk[k].fccDefault && s.packCap k != 0 then
    (s.modPk k (fun p => { p with fccDefault := false })).setFcc k (10 * s.packCap k : Nat)
  else s.syncSoh k

/-- A reference (R200): FULL or EMPTY. After the other one, FCC becomes the charge counted since, within 5 % of the old FCC. -/
def State.socRef (s : State) (k : Fin 2) (full : Bool) : State :=
  let p := s.pk[k]
  let old : Rat := s.fld (PK_FCC_FCC k)
  let counted : Rat := (if full then p.refQ else -p.refQ) / 36000000
  let s := if p.lastRef = some (!full) then s.setFcc k (clampR counted (old * 95 / 100) (old * 105 / 100)) else s
  let s := s.modPk k (fun p => { p with lastRef := some full, refQ := 0 })
  let s := (s.setSoc k (if full then 100 else 0)).setFld (PK_STAT_SOCSRC k) 0
  (s.syncPack k).checkWorn k

/-- FULL: a record is due as well (R210). -/
def State.fullRef (s : State) (k : Fin 2) : State := (s.socRef k true).wbDue k

/-- Publish QOUT and EFC; each sticks at its maximum and sets LSAT (R208). -/
def State.syncThroughput (s : State) (k : Fin 2) : State :=
  let a := s.pk[k].qout / 36000000
  let e := s.pk[k].efc
  let s := (s.setCode (PK_QOUT_VALUE k) a).setCode (PK_EFC_VALUE k) e
  if (2 ^ 32 - 1 : Rat) ≤ a ∨ (2 ^ 32 - 1 : Rat) ≤ e then s.setOn (PK_TPK_LSAT k) true else s

/-- Publish PKn_Q, µC in 64 bits. -/
def State.syncQ (s : State) (k : Fin 2) : State :=
  let w := unsigned 64 s.pk[k].q.floor
  (s.setWord (PK_Q_LO k) (BitVec.ofNat 32 w)).setWord (PK_Q_HI k) (BitVec.ofNat 32 (w / 2 ^ 32))

/-! ### Presence and identity -/

/-- PACK_INSERTED (R65, R190, R192): 50 consecutive samples low, once start-up has ended. -/
def State.inserted (s : State) (k : Fin 2) : State :=
  let s := (s.setOn (PK_STAT_PRES k) true).setPk k .ident
  let s := s.modPk k (fun p => { p with thSeen := 0, noTemp := false, rx := RxData.none })
  let s := { s with aon := { s.aon with present := s.aon.present.set k true, removed := s.aon.removed.set k false } }
  let s := s.modTw ⟨k.val + 1, by omega⟩ (fun t => { t with check := true })
  (s.syncPack k).chgWake k

/-- PACK_INSERTED. -/
def execPackInserted (k : Fin 2) (s : State) : Host.Outcome State Fault Refusal :=
  .next (if s.pkSt k = .empty ∧ s.awake ∧ s.fld SYS_STATE_STEP = 12 then s.inserted k else s)

/-- A pack the island knew of has left (R190, R199, R208): REM, and its charge count and its days end. -/
def State.packLeft (s : State) (k : Fin 2) : State :=
  let s := ((s.modPk k (fun p => { p with q := 0 })).syncQ k).evt (PK_EVT_REM k)
  { s with aon := { s.aon with
      age := vmod s.aon.age k (fun _ => (0, 0)), removed := s.aon.removed.set k false, present := s.aon.present.set k false } }

/-- PACK_REMOVED (R170, R179, R190, R192, R199, R201, R216, R217, R316): 5 consecutive samples high. The island keeps a removal in a device
reset for step 11; a port that step 11 took as empty may still have held its pack (R191). -/
def execPackRemoved (k : Fin 2) (s : State) : Host.Outcome State Fault Refusal :=
  .next (
    if !s.awake then
      (if s.powered && s.aon.present[k] then { s with aon := { s.aon with removed := s.aon.removed.set k true } } else s)
    else if s.pkSt k = .empty then (if s.aon.present[k] then s.packLeft k else s)
    else
      let s := ((s.openPort k).leaveHoldup k).leaveGust k
      let s := (s.enterStage k .off).setCmd k 0
      let s := (s.abortJoined k).packLeft k
      let s := s.modPk k (fun p => { PkH.reset with shorted := p.shorted })
      let s := { s with aon := { s.aon with b4certs := s.aon.b4certs.set k none } }
      let s := s.each [PK_STAT k, PK_ID k 0, PK_ID k 1, PK_ID k 2, PK_ID k 3, PK_CTR k, PK_I k, PK_Q_LO k, PK_Q_HI k, PK_FCC k,
        PK_QOUT k, PK_EFC k, PK_AGE k, PK_TPK k] (fun t off => t.setWord off 0)
      let s := (s.setOn (TW_PK_STAT_SLOW k) false).setOn (TW_PK_CTL_BUSCLR k) false
      let s := s.modTw ⟨k.val + 1, by omega⟩ (fun t => { t with check := false })
      (((s.setPk k .empty).syncPack k).syncElig k).stopWrote k)

/-- The LIFE record in use: the valid slot with the higher SEQ (R209). -/
def lifeOf (i : Ident) : Option (Fin 2 × Life) :=
  match LifeRec.life i.slots[0], LifeRec.life i.slots[1] with
  | some a, some b => if a.seq < b.seq then some (1, b) else some (0, a)
  | some a, none => some (0, a)
  | none, some b => some (1, b)
  | none, none => none

/-- The LIFE record that governs, taken over; with none the pack starts at the defaults (R209, R210). -/
def State.lifeTaken (s : State) (k : Fin 2) (i : Ident) : State :=
  match lifeOf i with
  | some (slot, l) =>
    let s := s.modPk k (fun p => { p with
      lifeSlot := slot, lifeSeq := l.seq, qout := (l.qout : Rat) * 36000000, efc := l.efc, fccDefault := l.fcc == 0 && s.packCap k == 0 })
    let s := (s.setFld (PK_AGE_AGE k) (min 65535 (l.age + s.aon.age[k].2))).setFld (PK_AGE_TEXPH k) l.texph
    let s := (s.setSfld (PK_TPK_TPEAK k) l.tpeak).setFld (PK_STAT_SOCSRC k) 1
    (s.setSoc k l.soc).setFcc k (if l.fcc = 0 then 10 * s.packCap k else 10 * l.fcc : Nat)
  | none =>
    let s := { s with aon := { s.aon with age := vmod s.aon.age k (fun a => (a.1, 0)) } }
    let s := s.modPk k (fun p => { p with lifeSlot := 1, lifeSeq := 0, qout := 0, efc := 0, fccDefault := s.packCap k == 0 })
    (((s.setSoc k 50).setFld (PK_STAT_SOCSRC k) 2)).setFcc k (10 * s.packCap k : Nat)

/-- A pack whose data area was read: its identity, its counter and its LIFE record (R209).
DEDUCED, log entries 75 and 81. -/
def State.identRead (s : State) (k : Fin 2) (i : Ident) : State :=
  let s := s.each (List.finRange 4) (fun t j => t.setWord (PK_ID k j.val) (BitVec.ofNat 32 (i.id.toNat / 2 ^ (32 * j.val))))
  let s := s.setFld (PK_CTR_CTR k) i.ctr.toNat
  let s := s.lifeTaken k i
  let whole := s.pk[k].efc.floor.toNat / 1000
  let ctr := i.ctr.toNat
  let s := if whole < ctr then (s.modPk k (fun p => { p with efc := (1000 * ctr : Nat) })).evt (PK_EVT_LIFEMIS k)
    else if ctr < whole then s.evt (PK_EVT_LIFEMIS k)
    else s
  (((s.syncThroughput k).checkWorn k).authDue k).syncElig k

/-- The identity read ends (R192, R200, R202, R208, R209, R216): none after the third failed attempt; an AUTHENTICATE that came meanwhile
has its run then too; on a held port every attempt fails (R314). The days of AGE that the island counted since the record was written are
added to it; a counter below EFC makes INC_CTR due. DEDUCED, log entries 75 and 81. -/
def State.identDone (s : State) (k : Fin 2) (r : Option Ident) : State :=
  if s.pkSt k ≠ .ident then s
  else
    let r := if s.on (TW_PK_STAT_HELD k) then none else r
    let s := (s.modPk k (fun p => { p with ident := r, read := true })).setPk k .open
    match r with
    | none =>
      let s := s.fault srcPACK_BUS k.val
      let s := s.modPk k (fun p => { p with fccDefault := s.packCap k == 0 })
      let s := ((s.setSoc k 50).setFld (PK_STAT_SOCSRC k) 2).setFcc k (10 * s.packCap k : Nat)
      let s := if s.pk[k].joined.isEmpty then s.syncPack k else s.authDue k
      s.syncElig k
    | some i => s.identRead k i

/-- The pack port carries Rarex transactions: not in SAFE_TALK (R315), and not before a check of SDA that is due, which a held port
waits for (R312, R314). DEDUCED, log entry 102. -/
def State.pkReady (s : State) (k : Fin 2) : Bool := !s.safeTalk && (!s.tw[(⟨k.val + 1, by omega⟩ : Fin 3)].check || s.on (TW_PK_STAT_HELD k))

/-- PACK_IDENT_DONE. -/
def execPackIdentDone (k : Fin 2) (r : Option Ident) (s : State) : Host.Outcome State Fault Refusal :=
  .next (if s.pkReady k then s.identDone k r else s)

/-! ### Close -/

/-- A soft close begins (R194): the charge gate is on, the discharge gate regulated; a trip of the other side ends with it.
DESIGN CHOICE, log entry 143. -/
def State.startClose (s : State) (k : Fin 2) : State :=
  let s := s.modPk k (fun p => { p with closeAt := none, probing := false, reopened := false, ovOff := false, uvOff := false, otOff := false })
  (s.setPk k .closing).setGates k true false

/-- A soft close unless the pack is below 4.5 V: such a pack never closes, and DEAD is set (R193, R194). -/
def State.tryClose (s : State) (k : Fin 2) : State := if s.pk[k].v < 9 / 2 then s.evt (PK_EVT_DEAD k) else s.startClose k

/-- The close conditions of R193 but for 4.5 V, with the 1 s after a failed close (R192), the boost-leg short (R70) and the
extraction stop (R108). -/
def State.mayClose (s : State) (k : Fin 2) : Bool :=
  let p := s.pk[k]
  s.pkSt k == .open && s.packIn k && p.read && s.on SYS_STATE_PHOK && s.running && s.on (CHG_STAT_PROFOK k) &&
  decide (p.v < s.ovh k) &&
  (match s.packT k with
    | some t => decide (t < (s.fld (PK_LIM_THARD k) : Int))
    | none => true) &&
  (match p.closeAt with
    | some t => decide (100000000 ≤ (s.devtime - t).toNat)
    | none => true) &&
  !p.shorted && !s.on FEED_GSTAT_EXSTOP

/-- PACK_CLOSE_START (R193, R194): a pack below 4.5 V never closes. -/
def execPackCloseStart (k : Fin 2) (s : State) : Host.Outcome State Fault Refusal :=
  .next (if s.mayClose k then s.tryClose k else s)

/-- PACK_CLOSE_DONE (R192, R194): the discharge gate is fully enhanced; its reopening waits for the boost-leg probes. -/
def execPackCloseDone (k : Fin 2) (s : State) : Host.Outcome State Fault Refusal :=
  .next (
    if s.pkSt k ≠ .closing then s
    else
      let s := (s.setPk k .closed).setGates k true true
      ((s.modPk k (fun p => { p with probing := true })).dsgAfterClose k).syncElig k)

/-- A close fails (R192): both FETs open, PACK_CLOSE, OPEN; it is tried again after 1 s. -/
def State.closeFail (s : State) (k : Fin 2) : State :=
  let s := (s.openPort k).modPk k (fun p => { p with closeAt := some s.devtime })
  (s.evt (PK_EVT_CLOSEF k)).fault srcPACK_CLOSE k.val

/-- PACK_CLOSE_TIMEOUT (R192). -/
def execPackCloseTimeout (k : Fin 2) (s : State) : Host.Outcome State Fault Refusal :=
  .next (if s.pkSt k = .closing then s.closeFail k else s)

/-- PKn_VS has stayed above 1.01 × UVH for 1 s, 100,000 samples (R194, R196). -/
def State.above1s (s : State) (k : Fin 2) : Bool := decide (100000 ≤ s.pk[k].aboveN)

/-- The discharge FET of a CLOSED port closes again where R194 and R196 allow. -/
def State.dsgReclose (s : State) (k : Fin 2) : State :=
  if s.pkSt k = .closed ∧ s.pk[k].reopened ∧ s.stage k ≠ .precharge ∧ s.above1s k ∧ s.pk[k].uvOff = false then
    ((s.modPk k (fun p => { p with reopened := false })).setGates k (s.on (PK_STAT_CHGON k)) true).syncElig k
  else s

/-- PACK_DSG_RECLOSE (R194). -/
def execPackDsgReclose (k : Fin 2) (s : State) : Host.Outcome State Fault Refusal := .next (s.dsgReclose k)

/-- The close conditions cease for a reason other than protection (R192): the pack voltage is below 4.5 V, or the port may not be
closed any more. DEDUCED, log entry 135. -/
def State.checkClosed (s : State) (k : Fin 2) : State :=
  if s.pkSt k = .closed ∧ (s.pk[k].v < 9 / 2 ∨ !s.on (CHG_STAT_PROFOK k) ∨ !s.on SYS_STATE_PHOK) then
    ((((s.leaveHoldup k).leaveGust k).setCmd k 0).openPort k).syncElig k
  else s

/-! ### Protection -/

/-- A sample of PKn_VS, V (R194, R196): how many in a row lie above 1.01 × UVH and below 0.99 × OVH. -/
def State.packSample (s : State) (k : Fin 2) (v : Rat) : State :=
  (s.modPk k (fun p => { p with
    v := v
    aboveN := if s.uvh k * 101 / 100 < v then min 100000 (p.aboveN + 1) else 0
    belowN := if v < s.ovh k * 99 / 100 then min 100000 (p.belowN + 1) else 0 })).checkClosed k

/-- Does the port take part in trips: CLOSING, CLOSED, or TRIPPED with a gate still on (R196)? -/
def State.guarded (s : State) (k : Fin 2) : Bool :=
  s.pkSt k == .closing || s.pkSt k == .closed || (s.pkSt k == .tripped && (s.on (PK_STAT_CHGON k) || s.on (PK_STAT_DSGON k)))

/-- A trip that takes the port to TRIPPED, or, while CLOSING, back to OPEN as a failed close (R192, R196).
DEDUCED, log entry 71. -/
def State.tripPort (s : State) (k : Fin 2) (t : PkTrip) (chg dsg : Bool) : State :=
  if s.pkSt k = .closing then s.closeFail k
  else
    let s := s.modPk k (fun p => { p with trip := t, tripAt := s.devtime, probing := false, reopened := false })
    let s := ((s.setPk k .tripped).setGates k chg dsg)
    (s.gustLoss k).syncElig k

/-- A close of the port has failed in this ACLK cycle (R217). -/
def State.failedNow (s : State) (k : Fin 2) : Bool := s.pkSt k == .open && s.pk[k].closeAt == some s.devtime

/-- A trip of a pack port that its comparator reports sets its flag and its fault; one that EVFILT keeps from the report sets neither (R324,
R326). -/
def State.packFlag (s : State) (k : Fin 2) (told : Bool) (f : Fld) (src : Fin 64) : State :=
  if told then (s.evt f).fault src k.val else s

/-- A short circuit of a pack port (R179, R196, R217): both gates go off; the third trip within 10 s latches; one in the cycle of another
trip that ended a close is flagged and counted all the same. -/
def State.packShort (s : State) (k : Fin 2) (told : Bool) : State :=
    if !s.guarded k && !s.failedNow k then s
    else
      let s := s.packFlag k told (PK_EVT_SC k) srcPACK_SC
      let recent := s.pk[k].scAt.filter (fun t => decide ((s.devtime - t).toNat < 1000000000)) ++ [s.devtime]
      let s := (s.modPk k (fun p => { p with scAt := recent })).leaveHoldup k
      let s := if s.failedNow k then s else s.tripPort k .sc false false
      if 3 ≤ recent.length then ((s.setPk k .latched).fault srcPACK_LATCHED k.val).syncPack k else s

/-- PACK_SHORT_CIRCUIT (R179, R196, R217): the output lasts `w` ns; its report may be filtered (R326). -/
def execPackShortCircuit (k : Fin 2) (w : Nat) (s : State) : Host.Outcome State Fault Refusal :=
  .next (
    let (told, s) := s.cmpRow (24 + k) false w
    s.packShort k told)

/-- A charge overcurrent of a pack port (R196): the charge gate goes off. -/
def State.packOcc (s : State) (k : Fin 2) (told : Bool) : State :=
  if !s.guarded k || s.pkSt k == .tripped then s
  else (s.packFlag k told (PK_EVT_OCC k) srcPACK_OCC).tripPort k .occ false (s.on (PK_STAT_DSGON k))

/-- PACK_CHARGE_OVERCURRENT (R196): the output lasts `w` ns; its report may be filtered (R326). -/
def execPackChargeOvercurrent (k : Fin 2) (w : Nat) (s : State) : Host.Outcome State Fault Refusal :=
  .next (
    let (told, s) := s.cmpRow (24 + k) true w
    s.packOcc k told)

/-- The port has taken a short-circuit trip in this ACLK cycle (R217). -/
def State.shortNow (s : State) (k : Fin 2) : Bool :=
  (s.pkSt k == .tripped || s.pkSt k == .latched || s.failedNow k) && s.pk[k].scAt.getLast? == some s.devtime

/-- An overvoltage of a pack port (R196, R217): the charge gate goes off and the port stays CLOSED; with a short circuit of the same cycle
only the flags remain to be set. -/
def State.packOv (s : State) (k : Fin 2) (told : Bool) : State :=
  if s.shortNow k then s.packFlag k told (PK_EVT_OV k) srcPACK_OV
  else if !s.guarded k || !s.on (PK_STAT_CHGON k) then s
  else
    let s := s.packFlag k told (PK_EVT_OV k) srcPACK_OV
    if s.pkSt k = .closing then s.closeFail k
    else (((s.modPk k (fun p => { p with ovOff := true })).setGates k false (s.on (PK_STAT_DSGON k))).gustLoss k).syncElig k

/-- PACK_OV (R196, R217): the output lasts `w` ns; a timer may hold it (R325), and its report may be filtered (R326). -/
def execPackOv (k : Fin 2) (w : Nat) (s : State) : Host.Outcome State Fault Refusal :=
  .next (
    let held := s.cmpHeld (26 + k) true
    let (told, s) := s.cmpRow (26 + k) true w
    if held then s else s.packOv k told)

/-- An undervoltage of a pack port (R179, R196): the discharge gate goes off, the charge FET stays as it is; a port in HOLDUP leaves at
once. -/
def State.packUv (s : State) (k : Fin 2) (told : Bool) : State :=
  if !(s.pkSt k == .closing || (s.guarded k && s.on (PK_STAT_DSGON k))) then s
  else
    let s := s.packFlag k told (PK_EVT_UV k) srcPACK_UV
    if s.pkSt k = .closing then s.closeFail k
    else
      let s := (s.modPk k (fun p => { p with uvOff := true })).setGates k (s.on (PK_STAT_CHGON k)) false
      ((s.leaveHoldup k).gustLoss k).syncElig k

/-- PACK_UV (R179, R196): the output lasts `w` ns; a timer may hold it (R325), and its report may be filtered (R326). -/
def execPackUv (k : Fin 2) (w : Nat) (s : State) : Host.Outcome State Fault Refusal :=
  .next (
    let held := s.cmpHeld (26 + k) false
    let (told, s) := s.cmpRow (26 + k) false w
    if held then s else s.packUv k told)

/-- PACK_OVERTEMP (R179, R196): THARD or above for 1 s; both gates go off. -/
def execPackOvertemp (k : Fin 2) (s : State) : Host.Outcome State Fault Refusal :=
  .next (
    if !(s.pkSt k == .closing || s.pkSt k == .closed || (s.pkSt k == .tripped && !s.pk[k].otOff)) || s.pk[k].hotN < 1000 then s
    else
      let s := ((s.evt (PK_EVT_OT k)).fault srcPACK_OT k.val).leaveHoldup k
      if s.pkSt k = .closing then s.closeFail k
      else (s.modPk k (fun p => { p with otOff := true })).tripPort k .ot false false)

/-- PACK_TRIP_RETRY (R196): the retry time or condition of a trip is met: 100 ms since a current trip, 60 s below THARD − 5 °C, 1 s of PKn_VS
past the other limit. -/
def execPackTripRetry (k : Fin 2) (t : PkTrip) (s : State) : Host.Outcome State Fault Refusal :=
  .next (
    let p := s.pk[k]
    let tripped := s.pkSt k == .tripped && p.trip == t && s.running && s.packIn k && !p.shorted
    match t with
    | .sc | .occ => if tripped && decide (10000000 ≤ (s.devtime - p.tripAt).toNat) then s.tryClose k else s
    | .ot => if tripped && decide (60000 ≤ p.coolN) then s.tryClose k else s
    | .ov =>
      if p.ovOff && decide (100000 ≤ p.belowN) then
        let s := s.modPk k (fun p => { p with ovOff := false })
        (s.setGates k (s.pkSt k == .closed) (s.on (PK_STAT_DSGON k))).syncElig k
      else s
    | .uv =>
      if p.uvOff && s.above1s k then
        let s := s.modPk k (fun p => { p with uvOff := false, reopened := s.pkSt k == .closed && s.stage k == .precharge })
        (s.setGates k (s.on (PK_STAT_CHGON k)) (s.pkSt k == .closed && s.stage k != .precharge)).syncElig k
      else s)

/-- PKn_CFG.CLR written 1 (R192). -/
def State.clearLatch (s : State) (k : Fin 2) : State :=
  if s.pkSt k = .latched then ((s.modPk k (fun p => { p with scAt := [], closeAt := none })).setPk k .open).syncPack k else s

/-! ### Coulomb counting -/

/-- Amperes per code of a port's converter (R199). -/
def State.perCode (s : State) (k : Fin 2) : Rat := divR 100000 (2 ^ 23 * s.fld (PK_CFG_RPK k) : Nat)

/-- One sample of charge, µC, is counted (R199, R200, R208); a whole cycle that EFC gains makes INC_CTR due (R210). -/
def State.countCharge (s : State) (k : Fin 2) (a : Rat) : State :=
  let c := 250 * a
  let p := s.pk[k]
  let out := max 0 (-c)
  let cap := s.packCap k
  let fcc : Rat := s.fld (PK_FCC_FCC k)
  let efc := if cap = 0 then p.efc else min (2 ^ 32 - 1) (p.efc + out * 1000 / (cap * 360000000 : Nat))
  let s := s.modPk k (fun p => { p with
    q := p.q + c, refQ := p.refQ + c, qout := min ((2 ^ 32 - 1) * 36000000) (p.qout + out), efc := efc, iSum := p.iSum + a, iCnt := p.iCnt + 1 })
  let s := (s.syncQ k).syncThroughput k
  let s := if fcc = 0 then s else s.setSoc k (p.soc + divR (100 * c) (fcc * 36000000))
  if s.pk[k].iCnt = 40 then
    let mean := s.pk[k].iSum / 40
    (s.setScode (PK_I_I k) (1000 * mean)).modPk k (fun p => { p with iSum := 0, iCnt := 0 })
  else s

/-- COULOMB_SAMPLE (R160, R183, R199, R200, R208, R210, R341, R342): a code of the converter before its range is applied.
DESIGN CHOICE, log entry 72. -/
def execCoulombSample (k : Fin 2) (code : Int) (s : State) : Host.Outcome State Fault Refusal :=
  .next (
    if !s.awake then s
    else
      let lim := max (-8388608) (min 8388607 code)
      let s := if lim = code then s else s.evt (COUL_STAT_ORNG k)
      let fix := lim - s.sfld (COUL_OFS_OFS k)
      let s := s.setSfld (COUL_RAW_CODE k) fix
      let a := (fix : Rat) * s.perCode k
      let s := s.cmpSee ⟨24 + k.val, by omega⟩ (512 + ((lim : Rat) * 500 / 2 ^ 23).floor)
      let shut := !s.on (PK_STAT_CHGON k) && !s.on (PK_STAT_DSGON k)
      let run := s.on (COUL_STAT_OFSRUN k)
      let s := s.modPk k (fun p => { p with
        openN := if shut then min 8000 (p.openN + 1) else 0
        ofsCnt := if run then p.ofsCnt + 1 else 0
        ofsSum := if run then p.ofsSum + lim else 0 })
      let s := s.modChg k (fun c => { c with ipack := a })
      let n := s.pk[k].ofsN + 1
      let s := if n = 240000 ∧ s.on (COUL_OFS_MEAS k) then s.count (COUL_STAT_OFSAGE k) else s
      let s := s.modPk k (fun p => { p with ofsN := if n = 240000 then 0 else n })
      if s.on (COUL_STAT_OFSRUN k) || !s.packIn k then s
      else
        let s := s.countCharge k a
        let s := if s.role k = .gust ∧ s.soc k ≤ s.fld (CHG_GUST_GFLOOR k) ∧ s.chg[k].gdrop = false then s.evt (CHG_EVT_GFLOOR k) else s
        s.gustLoss k)

/-- COULOMB_OFFSET_START (R342): both FETs have been open for 2 s. -/
def execCoulombOffsetStart (k : Fin 2) (s : State) : Host.Outcome State Fault Refusal :=
  .next (
    if s.awake && s.on (COUL_CFG_OFSAUTO k) && !s.on (PK_STAT_CHGON k) && !s.on (PK_STAT_DSGON k) && s.pk[k].openN == 8000 then
      (s.modPk k (fun p => { p with ofsCnt := 0, ofsSum := 0 })).setOn (COUL_STAT_OFSRUN k) true
    else s)

/-- COULOMB_OFFSET_DONE (R342): the mean output of the 1 s, 4,000 samples, is the new offset, in codes. -/
def execCoulombOffsetDone (k : Fin 2) (s : State) : Host.Outcome State Fault Refusal :=
  .next (
    if s.awake && s.on (COUL_STAT_OFSRUN k) && decide (4000 ≤ s.pk[k].ofsCnt) then
      let mean : Int := ((s.pk[k].ofsSum : Rat) / s.pk[k].ofsCnt + 1 / 2).floor
      let s := (s.modPk k (fun p => { p with ofsN := 0 })).setOn (COUL_STAT_OFSRUN k) false
      ((s.setSfld (COUL_OFS_OFS k) mean).setOn (COUL_OFS_MEAS k) true).setFld (COUL_STAT_OFSAGE k) 0
    else s)

/-! ### Authentication runs -/

/-- AUTH_RUN_START (R205): a run falls due by REAUTH or 1 minute after BUS, or a waiting run finds its profile. -/
def execAuthRunStart (k : Fin 2) (s : State) : Host.Outcome State Fault Refusal := .next (s.authDue k)

/-- NCELL and CHEM of the pack certificate equal those of the profile (R204). -/
def State.certMatches (s : State) (k : Fin 2) (i : Ident) : Bool :=
  match s.prof k with
  | some p => i.cert.ncell == p.ncell && i.cert.chem == p.chem
  | none => false

/-- The fleet slot whose key the top certificate names (R203, R204). -/
def State.issuerSlot (s : State) (i : Ident) : Option (Fin 4) :=
  (List.finRange 4).find? (fun j => match s.aon.b4[j] with
    | some key => keyId key == i.top.issuerKid
    | none => false)

/-- The certificates hang together under a fleet key (R204): every signature verifies, a pack certificate under an issuer certificate names
the issuer's key, and index 0 is a pack certificate for the pack's own ID. -/
def certsOk (i : Ident) (key : BitVec 512) : Bool :=
  ecdsaOk key i.top.signed i.top.sig &&
  (match i.issuer with
    | some c => ecdsaOk c.pubkey i.cert.signed i.cert.sig && keyId c.pubkey == i.cert.issuerKid
    | none => true) &&
  i.cert.type == 1 && i.cert.subject == i.id

/-- The result of a run (R203, R204): the first failing check; with no key and in BLANK and RETURNED every run ends NO_KEY. The pack's part
is none where a Rarex transaction failed. DEDUCED, log entry 121. -/
def State.runResult (s : State) (k : Fin 2) (r : Option RunIn) : AuthRes × Option (Fin 4) :=
  if s.lifecycle ≠ 1 ∧ s.lifecycle ≠ 2 then (.noKey, none)
  else match s.pk[k].ident, r with
    | some i, some r =>
      match s.issuerSlot i with
      | none => (.noKey, none)
      | some j =>
        if !(s.aon.b4[j].any (certsOk i)) then (.chain, none)
        else if !s.certMatches k i then (.mismatch, none)
        else if ecdsaOk i.cert.pubkey (blockBytes r.challenge 0 32 ++ blockBytes i.id 0 16 ++ leBytes (s.fld (PK_CTR_CTR k)) 4) r.sig then
          (.pass, some j)
        else (.sig, none)
    | _, _ => (.bus, none)

/-- AUTH_RUN_DONE (R203 to R205, R216, R217): a result takes effect at once but for BUS, which takes effect the third time in a row. A held
port fails its transactions (R314). A run that found the chain good leaves the certificates in B4 (R375). -/
def execAuthRunDone (k : Fin 2) (r : Option RunIn) (s : State) : Host.Outcome State Fault Refusal :=
  .next (
    if !s.pk[k].running || !s.pkReady k then s
    else
      let (res, slot) := s.runResult k (if s.on (TW_PK_STAT_HELD k) then none else r)
      let good := res == .pass || res == .sig || res == .mismatch
      let s : State := { s with aon := { s.aon with
          b4certs := if good then s.aon.b4certs.set k (s.pk[k].ident.map (fun (i : Ident) => (i.cert, i.issuer))) else s.aon.b4certs } }
      let n := if res = .bus then s.pk[k].busN + 1 else 0
      let s := s.modPk k (fun p => { p with running := false, busN := if 3 ≤ n then 0 else n })
      let s := if res = .bus ∧ n < 3 then s.syncPack k
        else
          let s := (s.modPk k (fun p => { p with slot := slot })).setAuth k res
          if res = .pass ∨ s.bypass k then s else s.evt (PK_EVT_AUTHF k)
      s.endJoined k res)

/-! ### Life -/

/-- LIFE_WRITEBACK (R108, R210, R212): PUT_LIFE of a record that is due, or of the one of every WBINT minutes; a stop sequence goes on. -/
def execLifeWriteback (k : Fin 2) (ok : Bool) (s : State) : Host.Outcome State Fault Refusal :=
  .next (if s.pkReady k then (s.lifeWrite k ok).stopWrote k else s)

/-- Count one AON tick toward AGE and TEXPH of a port (R208): 86,400,000 ticks to a day, 3,600,000 to an hour. AGE is the island's count,
and goes on in Doldrums and over a device reset. -/
def State.ageTick (s : State) (k : Fin 2) : State :=
  let p := s.pk[k]
  if !s.aon.present[k] then s
  else
    let hot := s.awake && s.packIn k && (match s.packT k with
      | some t => decide (s.sfld (PK_LIM_TEXP k) ≤ t)
      | none => false)
    let day := s.aon.age[k].1 + 1 == 86400000
    let hour := hot && p.texpTicks + 1 == 3600000
    let s : State := { s with aon := { s.aon with age := vmod s.aon.age k (fun a => if day then (0, a.2 + 1) else (a.1 + 1, a.2)) } }
    let s := s.modPk k (fun p => { p with texpTicks := if hour then 0 else if hot then p.texpTicks + 1 else p.texpTicks })
    let s := if day && s.packIn k then s.count (PK_AGE_AGE k) else s
    let s := if hour then s.count (PK_AGE_TEXPH k) else s
    let s := if s.fld (PK_AGE_AGE k) = 65535 ∨ s.fld (PK_AGE_TEXPH k) = 65535 then s.setOn (PK_TPK_LSAT k) true else s
    if day && s.awake then s.checkWorn k else s

/-- One port's press-to-wake of a tick in Doldrums (R214): the ticks high, and low after them; above 2 s it is a removal. -/
def State.pressTick (s : State) (k : Fin 2) (high : Bool) : State :=
  let (h, l) := s.aon.press[k]
  let next : Nat × Nat := if high then (if l = 0 then (h + 1, 0) else (1, 0)) else if h = 0 then (0, 0) else (h, l + 1)
  let gone := high && decide (2000 < next.1)
  { s with aon := { s.aon with press := s.aon.press.set k next, removed := if gone then s.aon.removed.set k true else s.aon.removed } }

/-- The four sentinels on the feed and pack voltages, V (R213): S0 and S1 above FWAKE, S2 and S3 below SHIPCUT. -/
def State.sentinels (s : State) (fd : Vector Rat 4) (pk : Vector Rat 2) : BitVec 4 :=
  let wake : Rat := s.fld PK_SHIP_FWAKE
  let cut : Rat := (s.fld PK_SHIP_SHIPCUT : Rat) / 4
  let b (i : Nat) (x : Bool) : Nat := if x then 2 ^ i else 0
  BitVec.ofNat 4 (b 0 (decide (wake < max fd[0] fd[1])) + b 1 (decide (wake < max fd[2] fd[3])) + b 2 (decide (pk[0] < cut)) +
    b 3 (decide (pk[1] < cut)))

/-- AON_TICK (R208, R213 to R215, R329): the voltages at FDn_VS and PKn_VS, WAKE_N low, and PKn_PRES_N high per port. -/
def execAonTick (fd : Vector Rat 4) (pk : Vector Rat 2) (wakeLow : Bool) (presHigh : BitVec 2) (s : State) : Host.Outcome State Fault Refusal :=
  .next (
    let sent := s.sentinels fd pk
    let s := (s.ageTick 0).ageTick 1
    let s := (s.setFld CMP_SENT_S sent.toNat).setOn CMP_SENT_VALID true
    if !s.sys.doldrums then s
    else
      let n := s.aon.tick.val
      let s := { s with aon := { s.aon with
        cycles := s.aon.cycles + BitVec.ofNat 48 (4096 * (n + 1) / 125 - 4096 * n / 125), tick := s.aon.tick + 1
        sent := Vector.ofFn (fun i : Fin 4 => if sent.getLsbD i.val then s.aon.sent[i] + 1 else 0),
        wakeTicks := if wakeLow then s.aon.wakeTicks + 1 else 0 } }
      (s.pressTick 0 (presHigh.getLsbD 0)).pressTick 1 (presHigh.getLsbD 1))

end Sys2Proof.Machine
end

