-- ==== Sys2Proof/Machine/Charge.lean ====
section
/-! DEFINITION. Charging, hold-up and Gust (ch. 6): the feed-limit loop, the charge stages and loops, CREST, profiles, Sounding,
the hold-up loop and its ends. Currents are in A, powers in W, voltages in V. -/

namespace Sys2Proof.Machine

/-! ### The feed-limit loop -/

/-- PEX of R151 over the active group. -/
def State.pex (s : State) : Rat :=
  let g := finsWhere s.active
  let i (n : Fin 4) : Rat := max 0 s.feed[n].ifeed
  let r := g.foldl (fun a n => max a (divR (i n) (s.iman n))) 0
  if r = 0 then -(s.phg.vbus * g.foldl (fun a n => a + s.iman n) 0)
  else s.phg.vbus * g.foldl (fun a n => a + i n) 0 * (r - 1) / r

/-- A port enters GUST (R170, R181, R182). -/
def State.enterGust (s : State) (k : Fin 2) : State :=
  if s.role k = .gust then s else ((s.abortSounding k 8).setRole k .gust).modChg k (fun c => { c with gzero := 0 })

/-- Gust works on BUS: a feed is ON, or hold-up runs (R94). -/
def State.busFed (s : State) : Bool := s.feedOn || s.on CHG_GSTAT_HURUN

/-- PG is shared among the Gust-eligible ports (R94, R182, R183): a port with a share takes role GUST, one in GUST that lost its
eligibility keeps its falling share; an ONLINE test ends with Gust entry (R79). -/
def State.shareGust (s : State) (pg : Rat) : State :=
  let ports := finsWhere s.gustEligible
  let sh := s.shares ports s.pgmax pg
  let ports := ports.filter (fun k => s.role k != .holdup)
  if !s.busFed then s else
  let first := decide (0 < pg) && !s.on CHG_GSTAT_GUSTRUN && ports.any (fun k => decide (0 < sh k))
  let s := s.each ports (fun t k =>
    if t.role k = .gust ∨ 0 < sh k then
      (t.enterGust k).modChg k (fun c => { c with gshare := sh k, gdrop := false })
    else t)
  if first && s.fld SYS_BIST_SCOPE == 1 then s.endTest 2 5 else s

/-- FEED_LIMIT_UPDATE (R23, R79, R94, R99, R151 to R153, R181, R182): every 10 µs. -/
def execFeedLimitUpdate (s : State) : Host.Outcome State Fault Refusal :=
  .next (
    let s := s.each (List.finRange 2) (fun t k => t.modChg k (fun c => { c with held := false }))
    if s.lostFeeds || !s.running then s
    else
      let py := s.pchgy
      let gcap := min (s.fld CHG_GALLOW_GALLOW : Rat) s.sumPgmax
      let kfl : Rat := (s.fld CHG_FL_KFL : Rat) / 16
      let pfl := clampR (s.chgg.pfl + kfl * s.pex) 0 (py + gcap)
      let s := s.setPfl pfl
      let pg := min (max 0 (pfl - py)) gcap
      ({ s with chgg := { s.chgg with pg := pg } }).shareGust pg)

/-! ### Charge targets -/

/-- The unauthenticated caps of R161 are in force. -/
def State.unacap (s : State) (k : Fin 2) : Bool := s.on (CHG_STAT_UNACAP k)
/-- VCV in force, 0.1 mV per cell (R161). -/
def State.vcvNow (s : State) (k : Fin 2) (p : Profile) : Nat := if s.unacap k then p.vuna else p.vcv
/-- VRECHG in force, 0.1 mV per cell (R161). -/
def State.vrechgNow (s : State) (k : Fin 2) (p : Profile) : Nat := if s.unacap k then p.vuna - (p.vcv - p.vrechg) else p.vrechg
/-- ICC, reduced for a WORN pack (R207). -/
def State.iccNow (s : State) (k : Fin 2) (p : Profile) : Rat :=
  if s.on (PK_STAT_WORN k) then p.amps p.icc * s.fld (PK_WORN_WORNDER k) / 100 else p.amps p.icc
/-- The pack temperature lies within TCMIN to TCMAX; without a valid reading it does not (R197). -/
def State.tempIn (s : State) (k : Fin 2) : Bool :=
  match s.prof k, s.packT k with
  | some p, some t => decide (p.tcmin ≤ t ∧ t ≤ p.tcmax)
  | _, _ => false

/-- The thermal derates of R350 and R353. -/
def State.thermalTerms (s : State) (k : Fin 2) (p : Profile) : List (Nat × Rat) :=
  let icc := p.amps p.icc
  let die := if 3 ≤ s.fld THM_STAT_LEVEL then [(3, icc * s.fld THM_ACT_CHGDER / 100)] else []
  let tpkd := s.sfld THM_PK_TPKD
  match s.packT k with
  | some t =>
    if tpkd ≤ t ∧ tpkd < p.tcmax then
      die ++ [(3, icc * max 0 (((p.tcmax - t : Int) : Rat) / ((p.tcmax - tpkd : Int) : Rat)))]
    else die
  | none => die

/-- sin of a quarter turn's part `r` of 0 to 1, by its series. -/
def sinQuarter (r : Rat) : Rat :=
  let a := r * 1570796326795 / 1000000000000
  let b := a * a
  a * (1 - b / 6 * (1 - b / 20 * (1 - b / 42 * (1 - b / 72 * (1 - b / 110 * (1 - b / 156))))))

/-- sin of an angle in turns, to the nearest 10⁻⁹. DESIGN CHOICE, log entry 120. -/
def sinTurn (x : Rat) : Rat :=
  let y := 4 * (x - x.floor)
  let r := y - y.floor
  let v := if y < 1 then sinQuarter r else if y < 2 then sinQuarter (1 - r) else if y < 3 then -sinQuarter r else -sinQuarter (1 - r)
  ((v * 1000000000 + 1 / 2).floor : Rat) / 1000000000

/-- The accumulator of a Sounding run after `n` samples, in turns (R168): FREQ is in 0.01 Hz, FS is 64 kS/s. -/
def Sounding.turns (r : Sounding) (n : Nat) : Rat := (n * Desc.sndFreq r.d : Nat) / 6400000
/-- The first NSET periods have passed after `n` samples (R168). -/
def Sounding.settled (r : Sounding) (n : Nat) : Bool := decide ((Desc.sndNset r.d : Rat) ≤ r.turns n)
/-- The accumulator has completed the NMEAS-th period of the window (R168). -/
def Sounding.complete (r : Sounding) : Bool := decide ((Desc.sndNset r.d + Desc.sndNmeas r.d : Nat) ≤ r.turns r.n)
/-- The modulated pack current of a run, A: about IHOLD, in REST about 0.05 ICC (R166). -/
def Sounding.tone (r : Sounding) : Rat := (if r.fromRest then r.ia else r.ihold) + r.ia * sinTurn (r.turns r.n)

/-- The terms of R158 with their LIMSRC codes; a Sounding run's tone stands for the stage target, in CREST for IPB (R166).
DEDUCED, log entry 131. -/
def State.chgTerms (s : State) (k : Fin 2) (p : Profile) : List (Nat × Rat) :=
  let icc := s.iccNow k p
  let c := s.chg[k]
  let ipb : Rat := match c.ipb with
    | some i => min i icc
    | none => icc
  let stage : List (Nat × Rat) := match c.snd, s.stage k with
    | some r, .crest => [(1, r.tone)]
    | some r, _ => [(0, r.tone)]
    | none, .precharge => [(0, p.amps p.ipre)]
    | none, .crest => [(1, ipb)]
    | none, .cv | none, .topoff => [(0, c.cv)]
    | none, .rest => [(0, 0)]
    | none, _ => [(0, icc)]
  let pack : Rat := (s.fld (PK_LIM_ICHG k) : Rat) / 10
  let pack := match s.pk[k].ident with
    | some i => if s.authInForce k = .pass then min pack ((i.cert.ichmax : Rat) / 10) else pack
    | none => pack
  stage ++ [(2, pack)] ++ s.thermalTerms k p ++ (if s.unacap k then [(4, p.oneC / 20)] else [])

/-- The least term, the first of equals. DESIGN CHOICE, log entry 132. -/
def leastTerm : List (Nat × Rat) → Nat × Rat
  | [] => (0, 0)
  | [x] => x
  | x :: l =>
    let y := leastTerm l
    if x.2 ≤ y.2 then x else y

/-- May the port's command charge: running on a feed, its charge gate closed, no hold-up, and Gust nowhere but for Drizzle (R23,
R157, R174). -/
def State.mayCharge (s : State) (k : Fin 2) : Bool :=
  s.running && s.feedOn && !s.lostFeeds && s.pkSt k == .closed && s.on (PK_STAT_CHGON k) &&
  !(s.role 0 == .holdup || s.role 1 == .holdup) && (s.role k == .drizzle || !(s.role 0 == .gust || s.role 1 == .gust))

/-- Count 1 µs toward the minutes of a stage, a pause and a Sounding result (R156, R164, R173).
DESIGN CHOICE, log entry 76. -/
def State.chgTick (s : State) (k : Fin 2) : State :=
  let minute := 60000000
  let paused := s.on (CHG_STAT_PAUSED k)
  let counts := !paused && (s.role k == .charge || s.role k == .drizzle || (s.stage k == .rest && s.role k == .none))
  let c := s.chg[k]
  let st := if counts then c.stageUs + 1 else c.stageUs
  let pa := if paused then c.pauseUs + 1 else 0
  let z := if s.on (CHG_ZINFO_ZVALID k) then c.zUs + 1 else 0
  let s := if counts && st == minute then s.count (CHG_TIME_TSTAGE k) else s
  let s := if pa = minute then s.count (CHG_TIME_TPAUSE k) else s
  let s := if z = minute then s.count (CHG_ZINFO_AGE k) else s
  s.modChg k (fun c => { c with
    stageUs := if st = minute then 0 else st, pauseUs := if pa = minute then 0 else pa, zUs := if z = minute then 0 else z,
    zuseUs := if c.zuse.isSome then c.zuseUs + 1 else 0 })

/-- The pause of R173 begins or ends; a Sounding run ends with it (R170), and charging resumes from 0 (R159). It is judged once a PYIELD
answers the port's claim. DEDUCED, log entry 119. -/
def State.setPause (s : State) (k : Fin 2) : State :=
  let low := match s.prof k with
    | some p => s.role k == .charge && s.chg[k].claim == 2 && decide (s.chg[k].allowed < p.oneC / 100 * s.chg[k].vpack)
    | none => false
  if low && !s.on (CHG_STAT_PAUSED k) then
    (((s.abortSounding k 8).setOn (CHG_STAT_PAUSED k) true).count (CHG_CNT_PAUSEN k)).setItgt k 0
  else if !low && s.on (CHG_STAT_PAUSED k) then
    (s.setOn (CHG_STAT_PAUSED k) false).setFld (CHG_TIME_TPAUSE k) 0
  else s

/-- The claim of a port in CHARGE (R171): the power its least term would draw, before the rise limit and without PALLOW, with the
power it draws now (R225). -/
def State.claimCharge (s : State) (k : Fin 2) : State :=
  match s.role k, s.prof k with
  | .charge, some p =>
    let req := divR (leastTerm (s.chgTerms k p)).2 (s.kout k) * s.kin k * s.phg.vbus
    (s.modChg k (fun c => { c with
      pchgreq := req, pchgm := s.php[k].i10 * s.kin k * s.phg.vbus, claim := max 1 c.claim })).setCode (CHG_PWR_PCHGREQ k) req
  | _, _ => s

/-- The allowed charge power of each port (R153, R172). -/
def State.shareAllowed (s : State) : State :=
  let py := s.pchgy
  let total := max 0 (py - s.chgg.pfl)
  s.each (List.finRange 2) (fun t k => t.modChg k (fun c => { c with allowed := divR (total * s.pchgyOf k) py }))

/-- The command of a charging port (R152, R157, R158, R166, R169, R173): in a Sounding run ITGT follows the tone, and a term other than the
stage target that limits it in the window sets CLIP. A paused port's ITGT is 0, and its terms are judged for LIMSRC as R158 gives them.
Outside CHARGE and DRIZZLE LIMSRC keeps its last value. DEDUCED, log entries 119 and 131. DESIGN CHOICE, log entry 150. -/
def State.chargeCmd (s : State) (k : Fin 2) (p : Profile) : State :=
  let drizzle := s.role k == .drizzle
  let s := if drizzle then s else s.setPause k
  let (code, least) := leastTerm (s.chgTerms k p)
  let s := if s.chg[k].snd.isSome then s.setItgt k least else s
  let pmax : Rat := 10 * s.fld (CHG_LIM_PCHGMAX k)
  let pallow := if drizzle then pmax else min pmax s.chg[k].allowed
  let paused := s.on (CHG_STAT_PAUSED k)
  let tlim := divR (if paused then least else s.chg[k].itgt) (s.kout k)
  let plim := divR pallow (s.phg.vbus * s.kin k)
  let src := if tlim ≤ plim then code
    else if drizzle || decide (pmax ≤ s.chg[k].allowed) then 5
    else if 0 < s.chgg.pfl then 7 else 6
  let s := s.setFld (CHG_STAT_LIMSRC k) src
  let s := if s.fld (CHG_ZINFO_SSTATE k) = 2 ∧ 2 ≤ src then
      s.modChg k (fun c => { c with snd := c.snd.map (fun r => { r with clip := true }) })
    else s
  let cmd := if s.mayCharge k && !paused then min tlim plim else 0
  s.setCmd k (if s.chg[k].held then min cmd (s.iport k) else cmd)

/-- The command of a port in GUST (R94, R107, R182, R183): a lost share falls at GRAMP, 100 W/ms per code; without a feed ON and without
hold-up there is none. -/
def State.gustCmd (s : State) (k : Fin 2) : State :=
  let c := s.chg[k]
  let share := if s.eject || !s.busFed then 0
    else if c.gdrop then max 0 (c.gshare - (orZero 1 (s.fld CHG_FL_GRAMP) : Rat) / 10)
    else c.gshare
  let s := s.modChg k (fun c => { c with gshare := share, gzero := if share = 0 then c.gzero + 1 else 0 })
  (s.setCmd k (divR share (s.phg.vbus * s.kout k))).setPout k

/-- ZCELL, µΩ, with TZ: the Sounding result in use while it is at most ZAGE minutes old, else ZDEF (R164). -/
def State.zcell (s : State) (k : Fin 2) (p : Profile) : Bool × Rat × Rat :=
  match s.chg[k].zuse with
  | some (z, t) =>
    if s.chg[k].zuseUs ≤ p.zage * 60000000 then (true, (z : Rat) / 1000 / p.ncell, t) else (false, p.zdef, p.tref)
  | none => (false, p.zdef, p.tref)

/-- Report whether a Sounding result is in use (R164). -/
def State.syncCrest (s : State) (k : Fin 2) : State :=
  s.setOn (CHG_ZINFO_CRESTUSE k) (match s.prof k with
    | some p => (s.zcell k p).1
    | none => false)

/-- A port at the start of a 1 µs update (R155, R156, R164, R170): its times, a charge stage whose role was taken by a stop gets it back
with a feed ON, and REST ends when its time and temperature allow. -/
def State.chgStep (s : State) (k : Fin 2) : State :=
  let s := (s.chgTick k).syncCrest k
  let s := if s.role k = .none ∧ stageRole (s.stage k) ≠ .none ∧ s.running ∧ s.feedOn ∧ !s.lostFeeds then
      s.setRole k (stageRole (s.stage k))
    else s
  if s.stage k = .rest ∧ s.role k = .none ∧ s.chg[k].restDue ∧ s.tempIn k then s.enterStage k .qualify else s

/-- CHARGE_COMMAND_UPDATE (R149, R153, R156 to R158, R164, R166, R169 to R174, R182, R183): every 1 µs, both ports. -/
def execChargeCommandUpdate (s : State) : Host.Outcome State Fault Refusal :=
  .next (
    let s := (s.chgStep 0).chgStep 1
    let s := ((s.claimCharge 0).claimCharge 1).shareAllowed
    s.each (List.finRange 2) (fun s k =>
      let s := match s.role k, s.prof k with
        | .charge, some p | .drizzle, some p => s.chargeCmd k p
        | .gust, _ => s.gustCmd k
        | .holdup, _ => s
        | _, _ => s.setCmd k 0
      s.syncElig k))

/-- Enter CV (R159, R170): a Sounding run is aborted, and the loop's output starts at the ITGT in force. -/
def State.enterCv (s : State) (k : Fin 2) : State :=
  ((s.abortSounding k 8).modChg k (fun c => { c with cv := c.itgt })).enterStage k .cv

/-- Count one update toward the 10 s dwell of CV, TOPOFF and MAINTAIN (R155, R160, R173): the pack current, or VPACK.
DEDUCED, log entry 136. -/
def State.chgDwell (s : State) (k : Fin 2) (p : Profile) : State :=
  let c := s.chg[k]
  let charging := s.role k == .charge && !s.on (CHG_STAT_PAUSED k)
  let holds : Bool := match s.stage k with
    | .cv => charging && decide (c.ipack < p.amps p.iterm)
    | .topoff => charging && decide (c.ipack < p.amps p.iterm / 2)
    | .maintain => decide (c.vpack < p.packV (s.vrechgNow k p))
    | _ => false
  s.modChg k (fun c => { c with dwellN := if holds then min 40000 (c.dwellN + 1) else 0 })

/-- CHARGE_LOOP_UPDATE (R155, R159 to R161, R165, R170, R184, R333): every 250 µs, on the mean of the PKn_VS samples since the last; a
pause holds the loop but not the way to CV, and a Sounding run holds the rise. DESIGN CHOICE, log entry 128. -/
def execChargeLoopUpdate (k : Fin 2) (s : State) : Host.Outcome State Fault Refusal :=
  .next (
    let ch : Fin 48 := if k = 0 then 13 else 14
    let v := meanOr s.meas.v[ch] s.meas.pack[k]
    let s := s.modChg k (fun c => { c with vpack := v })
    match s.prof k with
    | none => s
    | some p =>
      let s := s.chgDwell k p
      let full := p.packV (s.vcvNow k p)
      let charging := s.role k == .charge || s.role k == .drizzle
      let s := if charging ∧ (s.stage k = .cc ∨ s.stage k = .crest) ∧ full ≤ v then s.enterCv k else s
      if !charging || s.on (CHG_STAT_PAUSED k) then s
      else
        let g := s.stage k
        let up := p.oneC / 400000
        let s := if g = .cv ∨ g = .topoff then
            let mv := (v - full) * 1000 / p.ncell
            let move := clampR (-(mv * p.oneC / 2000)) (-(p.oneC / 500)) (p.oneC / 500)
            s.modChg k (fun c => { c with cv := max 0 (c.cv + min move up) })
          else s
        let least := (leastTerm (s.chgTerms k p)).2
        let now := s.chg[k].itgt
        s.setItgt k (if least ≤ now || s.chg[k].snd.isSome then least else min least (now + up)))

/-! ### Stages -/

/-- A sample of PKn_VS, V, for the charger (R155, R174, R179): the 100 ms mean per cell, which no current of GUST or HOLDUP may disturb, with
its count at or above VQUAL, and the count below NCELL × VCUT. -/
def State.chgSample (s : State) (k : Fin 2) (v : Rat) : State :=
  match s.prof k with
  | none => s
  | some p =>
    let busy := s.role k == .gust || s.role k == .holdup
    s.modChg k (fun c =>
      let c := { c with cutN := if v < p.packV p.vcut then min 100 (c.cutN + 1) else 0 }
      if busy then { c with vSum := 0, vN := 0, vcell := none, qualN := 0 }
      else if c.vN + 1 < 10000 then { c with vSum := c.vSum + v, vN := c.vN + 1 }
      else
        let cell := (c.vSum + v) / 10000 / p.ncell
        { c with vSum := 0, vN := 0, vcell := some cell, qualN := if (p.vqual : Rat) / 10000 ≤ cell then min 10 (c.qualN + 1) else 0 })

/-- CHG_QUALIFY_END (R155, R157, R161, R405): 100 ms of measurement with zero current have given VCELL. -/
def execChgQualifyEnd (k : Fin 2) (s : State) : Host.Outcome State Fault Refusal :=
  .next (
    match s.prof k, s.chg[k].vcell with
    | some p, some cell =>
      if s.safeState ∨ s.stage k ≠ .qualify ∨ s.role k = .gust ∨ s.role k = .holdup then s
      else
        let v := cell * 10000
        if !s.tempIn k then s.enterStage k .rest
        else if v < p.vqual then
          let s := s.enterStage k .precharge
          if s.pkSt k = .closed then
            ((s.modPk k (fun x => { x with reopened := true, probing := false })).setGates k (s.on (PK_STAT_CHGON k)) false).syncElig k
          else s.syncElig k
        else if v < s.vrechgNow k p then s.enterStage k .cc
        else s.enterStage k .maintain
    | _, _ => s)

/-- CHG_PRECHARGE_EXIT (R155, R194, R405): ten 100 ms means at or above VQUAL make the 1 s; the discharge FET closes where R194 allows. -/
def execChgPrechargeExit (k : Fin 2) (s : State) : Host.Outcome State Fault Refusal :=
  .next (if !s.safeState ∧ s.stage k = .precharge ∧ 10 ≤ s.chg[k].qualN then ((s.enterStage k .cc).dsgReclose k).syncElig k else s)

/-- The stage's time limit has passed; its timer stands outside CHARGE and DRIZZLE and in a pause (R156), and the stage in the safe state
(R405). -/
def State.stageOver (s : State) (k : Fin 2) : Bool :=
  match s.prof k with
  | some p =>
    !s.safeState && (s.role k == .charge || s.role k == .drizzle) && !s.on (CHG_STAT_PAUSED k) &&
      (p.limit (s.stage k)).any (fun m => decide (m ≤ s.fld (CHG_TIME_TSTAGE k)))
  | none => false

/-- CHG_STAGE_TIMEOUT (R155, R156, R200, R210): TPRE, TCC or TCV has elapsed and the port faults, or TTOP ends TOPOFF at the FULL
reference. -/
def execChgStageTimeout (k : Fin 2) (s : State) : Host.Outcome State Fault Refusal :=
  .next (
    if !s.stageOver k then s
    else match s.stage k with
      | .precharge => ((s.evt (CHG_EVT_PRETO k)).fault srcCHG_PRE_TIMEOUT k.val).enterStage k .fault
      | .cc | .crest => ((s.evt (CHG_EVT_CCTO k)).fault srcCHG_CC_TIMEOUT k.val).enterStage k .fault
      | .cv => ((s.evt (CHG_EVT_CVTO k)).fault srcCHG_CV_TIMEOUT k.val).enterStage k .fault
      | .topoff => (s.enterStage k .maintain).fullRef k
      | _ => s)

/-- CHG_DWELL_EXPIRE (R155, R173, R200, R405): 10 s of the present stage's condition are complete, 40,000 loop updates or 100 of CREST. -/
def execChgDwellExpire (k : Fin 2) (s : State) : Host.Outcome State Fault Refusal :=
  .next (
    let due := s.chg[k].dwellN == 40000
    if s.safeState then s else
    match s.stage k with
    | .crest => if s.chg[k].crestN = 100 then s.enterStage k .cc else s
    | .cv => if due then s.enterStage k .topoff else s
    | .topoff => if due then (s.enterStage k .maintain).fullRef k else s
    | .maintain => if due && s.role k == .none then s.enterStage k .cc else s
    | _ => s)

/-- CHG_TEMP_OUT (R155, R405): the temperature has been out of range for 1 s. -/
def execChgTempOut (k : Fin 2) (s : State) : Host.Outcome State Fault Refusal :=
  .next (
    if s.safeState ∨ s.chg[k].tempN < 1000 then s
    else match s.stage k with
      | .precharge | .cc | .crest | .cv | .topoff | .maintain => (s.evt (CHG_EVT_TEMP k)).enterStage k .rest
      | _ => s)

/-- The time in REST has reached TREST (R155, R156). -/
def State.restOver (s : State) (k : Fin 2) : Bool :=
  match s.prof k with
  | some p => decide (p.trest * 1000000 ≤ s.fld (CHG_TIME_TSTAGE k) * 60000000 + s.chg[k].stageUs)
  | none => false

/-- CHG_REST_END (R155, R156, R170, R405): TREST has elapsed in role NONE, or in the CHARGE of a Sounding run; the temperature or the run may
still hold the port in REST. -/
def execChgRestEnd (k : Fin 2) (s : State) : Host.Outcome State Fault Refusal :=
  .next (
    if s.safeState ∨ s.stage k ≠ .rest ∨ s.restOver k = false ∨ ¬ (s.role k = .none ∨ s.role k = .charge) then s
    else if s.tempIn k && s.chg[k].snd.isNone then s.enterStage k .qualify
    else s.modChg k (fun c => { c with restDue := true }))

/-- CHG_STARVE (R173): the pause has lasted STARVE minutes; 0 disables the check. -/
def execChgStarve (k : Fin 2) (s : State) : Host.Outcome State Fault Refusal :=
  .next (
    if s.on (CHG_STAT_PAUSED k) && s.on CHG_FL_STARVE && decide (s.fld CHG_FL_STARVE ≤ s.fld (CHG_TIME_TPAUSE k)) then
      s.evt (CHG_EVT_STARVE k)
    else s)

/-- A CHGk_CTL write (R155): EN = 0 takes the port to OFF, EN = 1 may leave it, CLR leaves FAULT. -/
def State.chgCtl (s : State) (k : Fin 2) (clr : Bool) : State :=
  let s := if !s.on (CHG_CTL_EN k) then (if s.stage k = .off then s else (s.enterStage k .off))
    else if clr && s.stage k == .fault then s.enterStage k .qualify
    else s.chgWake k
  s.syncElig k

/-! ### CREST -/

/-- CREST_UPDATE (R155, R162 to R165, R405): every 100 ms. Where ZT is 0 or less the manual gives no polarisation bound, and the model
draws it. DESIGN CHOICE, log entry 74. -/
def execCrestUpdate (s : State) : Host.Outcome State Fault Refusal :=
  .next (
    s.each (List.finRange 2) (fun s k =>
      match s.prof k, s.packT k with
      | some p, some t =>
        if s.safeState ∨ (s.stage k ≠ .cc ∧ s.stage k ≠ .crest) then s
        else
          let t : Rat := t
          let soc := s.soc k
          let (_, z, tz) := s.zcell k p
          let zt := z * p.ktAt t / p.ktAt tz
          let rate := p.table2 p.imax t soc * p.cap / 10000
          let (pol, s) : Rat × State := if 0 < zt then (p.table2 p.dvlim t soc * 100 / zt, s)
            else
              let (w, s) := s.free
              ((w.toNat : Rat) / 100, s)
          let ipb := min rate pol
          let high := decide (s.iccNow k p ≤ ipb)
          let s := s.modChg k (fun c => { c with
            ipb := if high then none else some ipb, crestN := if high ∧ s.stage k = .crest then min 100 (c.crestN + 1) else 0 })
          let s := s.setFld (CHG_CUR_IPB k) (if high then 0xFFFF else min 0xFFFE (100 * ipb).floor.toNat)
          if s.stage k = .cc ∧ high = false then s.enterStage k .crest else s
      | _, _ => s))

/-! ### Profiles -/

/-- The new profile needs the presence window (R187). -/
def State.profGuarded (s : State) (k : Fin 2) (p : Profile) : Bool :=
  s.on FEED_LOCK_LOCK && (match s.prof k with
    | some q => p.loosens q
    | none => true)

/-- A profile is applied (R154, R155, R184, R185, R200, R205): in force, journalled, authentication due; outside GUST and HOLDUP the
command goes to 0 and QUALIFY follows. -/
def State.applyProfile (s : State) (k : Fin 2) (p : Profile) (o : Origin) (cls : Nat) : State :=
  let old := s.chg[k].crc
  let new := BitVec.ofNat 32 p.crc
  let s := s.modChg k (fun c => { c with prof := some p, crc := new })
  let s := ((s.setOn (CHG_STAT_PROFOK k) true).setFld (CHG_STAT_CHEM k) p.chem).setFld (CHG_STAT_NCELL k) p.ncell
  let s := s.journal (s.stamp cls false (o.word CHG_PLOAD) 0x05 (k.val + p.ncell * 2 ^ 8 + p.chem * 2 ^ 16) old new 0)
  let s := s.capKnown k
  let s := if s.stage k = .off then s.chgWake k
    else if s.role k = .gust ∨ s.role k = .holdup then s.modChg k (fun c => { c with requal := true })
    else (s.enterStage k .qualify).setCmd k 0
  (((s.authDue k).checkWorn k).syncPack k).syncElig k

/-- SET_PROFILE at its start (R185): the read of the block is issued. -/
def State.startSetProfile (s : State) (d : Desc) : State :=
  if d.plen ≠ 0x160 ∨ d.paddr % 64 ≠ 0 then s.refuse d 0 2 0 0
  else s.modChg d.profPort (fun c => { c with load := c.load ++ [d] })

/-- PROFILE_READ_DONE (R185, R187, R274, R420): the block of the oldest SET_PROFILE of a port; with Bus Master
Enable clear it is discarded and comes again (R261).
DEDUCED, log entry 77. DEDUCED, log entry 127. -/
def execProfileReadDone (k : Fin 2) (p : Profile) (s : State) : Host.Outcome State Fault Refusal :=
  .next (
    if !s.on HIF_LNK_BME then s
    else match s.chg[k].load with
    | [] => s
    | d :: l =>
      let s := s.modChg k (fun c => { c with load := l })
      let guarded := s.profGuarded k p
      let qual := (if s.present then 0 else 1) + (if s.stalled then 8 else 0)
      if !p.crcOk || !p.valid then (s.evt (CHG_EVT_PROFREJ k)).fail d 0 2 0 0
      else if guarded && qual != 0 then
        (s.evt (CHG_EVT_PROFREJ k)).fail d 1 3 qual (if s.present then 4 else 1)
      else
        let s := if guarded then s.count AUTH_CNT_GRANTED else s
        (s.applyProfile k p (adminOrigin d) (if guarded then 1 else 0)).done d 0 0 0)

/-- The block in CHG_PSTAGE (R186). -/
def State.staged (s : State) : Profile :=
  BitVec.ofNat 2816 ((List.range 88).foldl (fun a i => a + (s.word (CHG_PSTAGE i)).toNat * 2 ^ (32 * i)) 0)

/-- Does the staged block need the presence window on the port (R187)? One that fails its CRC or R187 is rejected first.
DEDUCED, log entry 50. -/
def State.stagedGuarded (s : State) (k : Fin 2) : Bool := s.staged.crcOk && s.staged.valid && s.profGuarded k s.staged

/-- CHG_PLOAD.GO (R185, R187), its write accepted: validate and apply the staging area; RESULT tells the outcome. -/
def State.stagedLoad (s : State) (o : Origin) : State :=
  let k : Fin 2 := if s.on CHG_PLOAD_PORT then 1 else 0
  let p := s.staged
  if !p.crcOk then (s.evt (CHG_EVT_PROFREJ k)).setFld CHG_PLOAD_RESULT 2
  else if !p.valid then (s.evt (CHG_EVT_PROFREJ k)).setFld CHG_PLOAD_RESULT 3
  else (s.applyProfile k p o (if s.profGuarded k p then 1 else 0)).setFld CHG_PLOAD_RESULT 1

/-! ### Sounding -/

/-- SOUNDING at its start (R166, R170, R188). -/
def State.startSounding (s : State) (d : Desc) : State :=
  let k := d.sndPort
  let g := s.stage k
  let bad := decide (d.sndFreq < 10) || decide (200000 < d.sndFreq) || d.sndNset == 0 || d.sndNmeas == 0
  let place := (g = .cc ∨ g = .crest ∨ g = .rest) ∧ (s.role k = .charge ∨ s.role k = .none) ∧ s.feedOn
  if bad then s.refuse d 0 2 0 0
  else match s.prof k with
    | none => s.refuse d 0 4 0 0
    | some p =>
      if ¬ place then s.refuse d 0 4 0 0
      else
        let s := s.abortSounding k 7
        let hold := s.iport k * s.kout k
        let rest := decide (g = .rest)
        let half := p.amps p.icc / 20
        let s := if rest then s.setRole k .charge else s
        let run : Sounding := ⟨d, hold, if rest then half else hold / 20, rest, false, false, 0, LockIn.zero⟩
        ((s.modChg k (fun c => { c with snd := some run })).setItgt k run.tone).setFld (CHG_ZINFO_SSTATE k) 1

/-- A 64 kS/s sample of a running Sounding (R167 to R169): current in A, voltage in V and the QUAL of its conversion; the first NSET periods
are discarded, and nothing follows the sample that completes the NMEAS-th. -/
def State.lockIn (s : State) (k : Fin 2) (i v : Rat) (q : Nat) : State :=
  match s.chg[k].snd with
  | none => s
  | some r =>
    if r.complete then s
    else
      let n := r.n + 1
      let x := r.turns n
      let r := if r.settled r.n then
          { r with sums := r.sums.add i v (sinTurn x) (sinTurn (x + 1 / 4)), suspect := r.suspect || q == 1, n := n }
        else { r with n := n }
      (s.modChg k (fun c => { c with snd := some r })).setFld (CHG_ZINFO_SSTATE k) (if r.settled n then 2 else 1)

/-- A signal's two sums after its least-squares line a + b n is taken out (R168). -/
def cleanSums (l : LockIn) (sx cx x0 x1 : Rat) : Rat × Rat :=
  let m : Rat := l.m
  let n1 := m * (m - 1) / 2
  let n2 := m * (m - 1) * (2 * m - 1) / 6
  let b := divR (m * x1 - n1 * x0) (m * n2 - n1 * n1)
  let a := divR (x0 - b * n1) m
  (sx - a * l.rs - b * l.ns, cx - a * l.rc - b * l.nc)

/-- SOUNDING_WINDOW_END (R164, R166, R168 to R170, R188): the window is complete, ZRE, ZIM and the flags are written and the command
completes. Where the cleaned current is 0 the manual gives no impedance, and without a valid thermistor no temperature: the model draws
them. DESIGN CHOICE, log entry 73. -/
def execSoundingWindowEnd (k : Fin 2) (s : State) : Host.Outcome State Fault Refusal :=
  .next (
    match s.chg[k].snd with
    | none => s
    | some r =>
      if !r.complete then s else
      let l := r.sums
      let (si, ci) := cleanSums l l.si l.ci l.i0 l.i1
      let (sv, cv) := cleanSums l l.sv l.cv l.v0 l.v1
      let den := si * si + ci * ci
      let (zre, zim, s) : Int × Int × State :=
        if den = 0 then
          let (a, s) := s.free
          let (b, s) := s.free
          (a.toInt, b.toInt, s)
        else (((sv * si + cv * ci) / den * 1000000000).floor, ((cv * si - sv * ci) / den * 1000000000).floor, s)
      let m : Rat := l.m
      let lowamp := decide (divR (4 * den) (m * m) < (r.ia * 8 / 10) * (r.ia * 8 / 10))
      let flags := (if lowamp then 4 else 0) + (if r.clip then 2 else 0) + (if r.suspect then 1 else 0)
      let (t, s) : Int × State := match s.packT k with
        | some t => (t, s)
        | none =>
          let (w, s) := s.free
          (signed 8 w.toNat, s)
      let s := (s.setSfld ⟨CHG_ZRE k, 31, 0⟩ zre).setSfld ⟨CHG_ZIM k, 31, 0⟩ zim
      let s := (s.setOn (CHG_ZINFO_ZVALID k) true).setFld ⟨CHG_ZINFO k, 29, 27⟩ flags
      let s := (s.setSfld (CHG_ZINFO_TZ k) t).setFld (CHG_ZINFO_AGE k) 0
      let s := s.setFld (CHG_ZFREQ_FREQ k) (Desc.sndFreq r.d)
      let good := Desc.sndCrest r.d && flags == 0
      let s := s.modChg k (fun c => { c with
        zUs := 0, zuse := if good then some (zre, t) else c.zuse, zuseUs := if good then 0 else c.zuseUs })
      let s := (s.restoreLoop k r).syncCrest k
      let s := if r.fromRest ∧ s.role k = Role.charge then s.setRole k .none else s
      let result := (s.word (CHG_ZRE k)).toNat + (s.word (CHG_ZIM k)).toNat * 2 ^ 32
      let s := s.finish r.d 0 flags result
      if r.fromRest && s.chg[k].restDue && s.tempIn k then s.enterStage k .qualify else s)

/-! ### Hold-up -/

/-- A used sample of BUS_VS, V, for the hold-up monitor (R178): how many in a row lie below VREF × HULOW / 100 and above VREF ×
(HULOW + 2) / 100. -/
def State.busSample (s : State) (v : Rat) : State :=
  let vref : Rat := (s.fld PH_VREF_VREF : Rat) / 10000
  let pct : Rat := s.fld CHG_HB_HULOW
  { s with chgg := { s.chgg with
    lowN := if v < vref * pct / 100 then min 20 (s.chgg.lowN + 1) else 0
    highN := if vref * (pct + 2) / 100 < v then min 1000 (s.chgg.highN + 1) else 0 } }

/-- A port that R179 cuts: its share falls to 0 over 1 ms, and with 0 it leaves. -/
def State.cutShare (s : State) (k : Fin 2) : State :=
  match s.chg[k].cut with
  | none => s
  | some step =>
    let w := max 0 (s.chg[k].hshare - step)
    let s := ((s.modChg k (fun c => { c with hshare := w })).setCmd k (divR w (s.kout k))).setPout k
    if w = 0 then s.leaveHoldup k else s

/-- HOLDUP_LOOP_UPDATE (R175 to R177, R179): every 1 µs, on its conversion of BUS_VS; ports that R179 cuts take what is left of their shares,
and the others share the rest. A port without a running phase joins once one has completed TWAKE. -/
def execHoldupLoopUpdate (s : State) : Host.Outcome State Fault Refusal :=
  .next (
    let s := (s.cutShare 0).cutShare 1
    let all := finsWhere (fun k : Fin 2 => s.role k == .holdup)
    if all.isEmpty then s
    else
      let ports := finsWhere s.holdsUp
      let vref : Rat := (s.fld PH_VREF_VREF : Rat) / 10000
      let vbus := s.meas.v[12]
      let e := vref - vbus
      let preset := s.chgg.preset && decide (vref < vbus)
      let floor := if preset then s.chgg.ifloor else 0
      let cap (k : Fin 2) : Rat := s.ipl k * s.kout k
      let icap := ports.foldl (fun a k => a + cap k) 0
      let raw := s.chgg.int + (orZero 1 (s.fld CHG_HU_KP) : Rat) * e
      let ihu := clampR raw floor icap
      let free := !preset && decide (floor < ihu) && decide (ihu < icap)
      let int := if free then s.chgg.int + (s.fld CHG_HU_KI : Rat) * e / 1000 else s.chgg.int
      let s := { s with chgg := { s.chgg with ihu := ihu, int := int, ifloor := floor, preset := preset } }
      let stay := ports.filter (fun (k : Fin 2) => s.chg[k].cut.isNone)
      let gone := ports.foldl (fun (a : Rat) (k : Fin 2) => if s.chg[k].cut.isSome then a + s.chg[k].hshare else a) 0
      let sh := s.shares stay cap (max 0 (ihu - gone))
      s.each (all.filter (fun k => s.chg[k].cut.isNone)) (fun t k =>
        ((t.modChg k (fun c => { c with hshare := sh k })).setCmd k (divR (sh k) (t.kout k))).setPout k))

/-- HULOW_ASSERT (R178, R244): BUS has stayed below VREF × HULOW / 100 for 20 µs during hold-up. -/
def execHulowAssert (s : State) : Host.Outcome State Fault Refusal :=
  .next (
    if !s.on CHG_GSTAT_HURUN || s.chgg.lowN < 20 then s
    else
      let s := { s with chgg := { s.chgg with hulow := true } }
      let s := s.setOn CHG_GSTAT_HULOWACT true
      (s.each (finsWhere (fun k : Fin 2 => s.role k == .holdup)) (fun t k => t.evt (CHG_EVT_HULOW k))).syncThr)

/-- HULOW_RELEASE (R178): BUS has stayed above VREF × (HULOW + 2) / 100 for 1 ms. -/
def execHulowRelease (s : State) : Host.Outcome State Fault Refusal :=
  .next (
    if s.chgg.highN < 1000 then s
    else (({ s with chgg := { s.chgg with hulow := false } }).setOn CHG_GSTAT_HULOWACT false).syncThr)

/-- HOLDUP_CUT (R155, R179, R200): VPACK has stayed below NCELL × VCUT for 1 ms; the command starts to fall, at the EMPTY reference. A port
without a share leaves at once. -/
def execHoldupCut (k : Fin 2) (s : State) : Host.Outcome State Fault Refusal :=
  .next (
    if s.role k ≠ .holdup ∨ s.chg[k].cutN < 100 ∨ s.chg[k].cut.isSome then s
    else
      let s := (s.evt (CHG_EVT_HUCUT k)).socRef k false
      if s.chg[k].hshare = 0 then s.leaveHoldup k
      else s.modChg k (fun c => { c with cut := some (c.hshare / 1000) }))

/-- HOLDUP_END_STOP (R108, R179): FEEDS_LOST with no port in HOLDUP, and no Doldrums entry. -/
def execHoldupEndStop (s : State) : Host.Outcome State Fault Refusal :=
  .next (
    if s.lostFeeds && !(s.role 0 == .holdup || s.role 1 == .holdup) && !s.sys.doldrums && s.sys.seq.isNone then s.extractionStop 0x0C else s)

/-- GUST_HOLD_END (R183): the share has been 0 for GHOLD. -/
def execGustHoldEnd (k : Fin 2) (s : State) : Host.Outcome State Fault Refusal :=
  .next (
    if s.role k = .gust ∧ s.chg[k].gshare = 0 ∧ 1000 * orZero 1 (s.fld (CHG_GUST_GHOLD k)) ≤ s.chg[k].gzero then s.leaveGust k else s)

end Sys2Proof.Machine
end

