-- ==== Sys2Proof/Machine/Feed.lean ====
section
/-! DEFINITION. The feeds (ch. 4): presence and pre-start check, qualification, inrush, the thermal model, trips, the droop
derate, selection and extraction. -/

namespace Sys2Proof.Machine

/-! ### Shared operations -/

/-- Put a feed in a state. -/
def State.setFeed (s : State) (n : Fin 4) (st : FeedSt) : State := s.setFld (FEED_STAT_STATE n) st.code

/-- Record a result of the pre-start check (R67). -/
def State.setChk (s : State) (n : Fin 4) (r : ChkRes) : State := s.setFld ⟨SYS_FEEDCHK, 4 * n.val + 3, 4 * n.val⟩ r.code

/-- Is any feed qualified? -/
def State.anyQual (s : State) : Bool := (List.finRange 4).any s.qual

/-- After a change of qualification or state: health, selection, hand-back given up with no qualified feed (R184), FEEDS_LOST. -/
def State.feedChanged (s : State) : State :=
  let s := s.syncFeeds
  let s := if s.lostFeeds && !s.anyQual then s.handbackOver else s
  s.checkFeeds

/-- In PRIORITY, feeds outside the group go to STANDBY: a QUALIFIED one at once, an ON one once every member of the group conducts
(R88, R105, R106). -/
def State.settleGroup (s : State) : State :=
  if !s.priorityMode then s
  else
    let group := finsWhere s.active
    let up := !group.isEmpty && group.all (fun n => s.feedSt n == .on)
    s.each (List.finRange 4) (fun t n =>
      if t.active n then t
      else if t.feedSt n = .qualified then t.setFeed n .standby
      else if up && t.feedSt n == .on then (t.gatesOff n).setFeed n .standby
      else t)

/-- A feed qualifies (R90): VFQ is the mean of VFEED over the last 1 ms; QUAL, selection, and hand-back while hold-up runs. -/
def State.qualify (s : State) (n : Fin 4) : State :=
  let s := ((s.setCode (FEED_EFF_VFQ n) (100 * meanOr s.meas.v[n.castAdd 44] s.feed[n].volts)).setFeed n .qualified).setQual n true
  ((s.modFeed n (fun f => { f with stable := true })).feedChanged.settleGroup).handbackStart n

/-- A feed's pre-start check passed: DEBOUNCE, or QUALIFIED where its window was stable already; CHECK while R63 does not allow the
debounce. -/
def State.checkPassed (s : State) (n : Fin 4) : State :=
  let s := s.setChk n .pass
  let f := s.feed[n]
  if !f.proved then s
  else if f.window && f.stable then s.qualify n
  else s.setFeed n .debounce

/-- A feed's pre-start check failed (R67): its result, and the fault; the feed neither qualifies nor conducts until a device reset checks
it again. -/
def State.checkFailed (s : State) (n : Fin 4) (r : ChkRes) : State :=
  ((s.setChk n r).modFeed n (fun f => { f with failed := true })).fault srcFEED_PRESTART n.val

/-- What has just taken the feed out, and the state it took it from, where that happened within a span of DEVTIME counts (R112). -/
def State.lately (s : State) (n : Fin 4) (span : Nat) : Option (FeedGone × FeedSt) :=
  match s.feed[n].gone with
  | some (t, w, st) => if (s.devtime - t).toNat ≤ span then some (w, st) else none
  | none => none

/-- Note what takes a feed out of the state it is in (R112). -/
def State.noteGone (s : State) (n : Fin 4) (w : FeedGone) : State :=
  let st := s.feedSt n
  s.modFeed n (fun f => { f with gone := some (s.devtime, w, st) })

/-- Qualification is lost (R88, R91): a COOL feed stays, any other leaves for DEBOUNCE with both gates off. -/
def State.disqualify (s : State) (n : Fin 4) : State :=
  let st := s.feedSt n
  let s := s.modFeed n (fun f => { f with window := false, stable := false })
  if st = .qualified ∨ st = .inrush ∨ st = .on ∨ st = .standby ∨ st = .hwonly then
    (((s.gatesOff n).setQual n false).setFeed n .debounce).feedChanged.budgetDrop
  else if st = .cool then (s.setQual n false).feedChanged.budgetDrop
  else s

/-- A trip to COOL, or to LATCHED where the retries are used up (R97, R102). -/
def State.feedTrip (s : State) (n : Fin 4) (sc : Bool) : State :=
  let was := s.feedSt n
  let s := (s.gatesOff n).count (FEED_STAT_RETRIES n)
  let s := s.modFeed n (fun f =>
    { f with
      scTrips := if sc then f.scTrips + 1 else f.scTrips,
      thTrips := if sc then f.thTrips else f.thTrips + 1,
      coolSc := sc, holdoff := false, ready := false, halve := !sc && was == .inrush })
  let f := s.feed[n]
  let used := if sc then decide (s.fld (FEED_CFG_SCRETRY n) < f.scTrips) else decide (s.fld (FEED_TML_RETRYMAX n) < f.thTrips)
  if used then (((s.setFeed n .latched).setQual n false).fault srcFEED_LATCHED n.val).feedChanged.budgetDrop
  else (s.setFeed n .cool).feedChanged

/-- A thermal trip (R97). -/
def State.thermalTrip (s : State) (n : Fin 4) : State :=
  let s := (s.noteGone n .thermal).modFeed n (fun f => { f with before := (s.fld (FEED_CNT_THCNT n), s.fld (FEED_STAT_RETRIES n), s.qual n) })
  (s.count (FEED_CNT_THCNT n)).feedTrip n false

/-- A short-circuit trip (R102). -/
def State.shortTrip (s : State) (n : Fin 4) : State :=
  (((s.noteGone n .sc).evt (FEED_EVT_SC n)).count (FEED_CNT_SCCNT n)).feedTrip n true

/-- The thermal trip of the same model interval does not count beside a short-circuit trip (R112): its counts go back, and a latch by it
with its fault, where the collector has not taken that yet. DEDUCED, log entry 147. -/
def State.uncountThermal (s : State) (n : Fin 4) : State :=
  let (c, r, q) := s.feed[n].before
  let s := s.modFeed n (fun f => { f with thTrips := f.thTrips - 1 })
  let s := (s.setFld (FEED_CNT_THCNT n) c).setFld (FEED_STAT_RETRIES n) r
  if s.feedSt n = .latched then
    let rest := s.flt.lines.filter (fun (e : FltEvent) => !(e.src == srcFEED_LATCHED && e.addr == BitVec.ofNat 32 n.val))
    ({ s with flt := { s.flt with lines := rest } }).setQual n q
  else s

/-- ΔT of the model, K (R95). -/
def State.feedDT (s : State) (n : Fin 4) : Rat := s.feed[n].dT[0] + s.feed[n].dT[1] + s.feed[n].dT[2]

/-- Leave COOL, or become ready for R93, once the retry conditions are met (R88, R97, R102). -/
def State.coolCheck (s : State) (n : Fin 4) : State :=
  let f := s.feed[n]
  if s.feedSt n = .cool ∧ s.feedDT n < s.fld (FEED_TML_TRETRY n) ∧ (f.coolSc = false ∨ f.holdoff = true) then
    if s.qual n then s.modFeed n (fun f => { f with ready := true })
    else (s.setFeed n (if f.present then .debounce else .absent)).modFeed n (fun f => { f with stable := false })
  else s

/-- Does the feed wait for R93? -/
def State.waits (s : State) (n : Fin 4) : Bool :=
  s.qual n && !s.feed[n].ejected &&
  ((s.feedSt n == .cool && s.feed[n].ready) || ((s.feedSt n == .qualified || s.feedSt n == .standby) && s.active n))

/-- Does R93 admit the feed: while BUS is below 90 % of the lowest VFQ of the qualified feeds, one at a time by PRIO and index? -/
def State.admits (s : State) (n : Fin 4) : Bool :=
  let quals := finsWhere s.qual
  let low := !quals.isEmpty && quals.all (fun m => decide (s.phg.vbus < (s.fld (FEED_EFF_VFQ m) : Rat) * 9 / 1000))
  s.waits n && s.on SYS_STATE_INRUSHOK &&
  (!low || (!(List.finRange 4).any (fun m => s.feedSt m == .inrush) &&
    (finsWhere s.waits).all (fun m =>
      decide (s.fld (FEED_CFG_PRIO n) < s.fld (FEED_CFG_PRIO m)) ||
      (s.fld (FEED_CFG_PRIO n) == s.fld (FEED_CFG_PRIO m) && decide (n ≤ m)))))

/-- A feed turned on or off by FEEDn_CFG.EN (R88, R92). DEDUCED, log entry 113. -/
def State.feedEnable (s : State) (n : Fin 4) : State :=
  let en := s.on (FEED_CFG_EN n)
  if en && s.feedSt n == .off then s.setFeed n (if s.feed[n].present then .check else .absent)
  else if !en && s.feedSt n != .off then
    (((s.gatesOff n).setQual n false).setFeed n .off).feedChanged.budgetDrop
  else s

/-- The safe state or SAFE_TALK begins: a feed that is ON goes to HWONLY, one in INRUSH completes it (R111, R405). -/
def State.feedsHwOnly (s : State) : State :=
  (s.each (finsWhere (fun n => s.feedSt n == .on)) (fun t n => t.setFeed n .hwonly)).syncFeeds

/-! ### Presence and check -/

/-- FEED_PRESENT (R22, R88): FDn_VS rises to 1 V or more. -/
def execFeedPresent (n : Fin 4) (s : State) : Host.Outcome State Fault Refusal :=
  .next (
    if !s.powered then s
    else
      let s := (s.modFeed n (fun f => { f with present := true })).cmpForget (16 + n)
      if s.feedSt n = .absent ∧ s.awake then s.setFeed n .check else s)

/-- FEED_CHECK_DONE (R67, R88): the check of a feed in CHECK ends; after an Anvil fuse failure it reports NOT_RUN (R66), and a feed whose
check has failed since the last device reset is not checked again. DEDUCED, log entry 113. -/
def execFeedCheckDone (n : Fin 4) (c : FeedChecks) (s : State) : Host.Outcome State Fault Refusal :=
  .next (
    if !s.powered || s.feedSt n != .check || s.feed[n].failed then s
    else if s.sys.noCheck then s.setChk n .notRun
    else if c.result = .pass then s.checkPassed n
    else (s.checkFailed n c.result).setFeed n .failed)

/-- FEED_ABSENT (R22, R88): FDn_VS falls below 1 V; OFF, FAILED, LATCHED and COOL keep their state. -/
def execFeedAbsent (n : Fin 4) (s : State) : Host.Outcome State Fault Refusal :=
  .next (
    if !s.powered then s
    else
      let s := (s.modFeed n (fun f => { f with present := false, window := false, stable := false })).cmpForget (16 + n)
      let st := s.feedSt n
      if st = .off ∨ st = .failed ∨ st = .latched ∨ st = .cool then s
      else
        let s := (((s.gatesOff n).setQual n false).setFeed n .absent).feedChanged
        if st = .check ∨ st = .debounce ∨ st = .absent then s else s.budgetDrop)

/-! ### Window -/

/-- The UV output of a feed reaches qualification (R88, R91, R112). -/
def State.feedUv (s : State) (n : Fin 4) : State :=
  (((s.noteGone n .uv).evt (FEED_EVT_UV n)).count (FEED_CNT_UVCNT n)).disqualify n

/-- FEED_UV (R88, R91, R112, R325, R326): the output lasts `w` ns. -/
def execFeedUv (n : Fin 4) (w : Nat) (s : State) : Host.Outcome State Fault Refusal :=
  .next (
    if !s.powered then s
    else
      let (told, s) := s.cmpRow (16 + n) false w
      if told then s.feedUv n else s)

/-- The OV output of a feed reaches qualification (R88, R91, R112): FEED_OV is recorded only for a feed in INRUSH, ON or STANDBY, also
where a short circuit of the same ACLK cycle has just taken it from there. -/
def State.feedOv (s : State) (n : Fin 4) : State :=
  let st := match s.lately n 2 with
    | some (.sc, st) => st
    | _ => s.feedSt n
  let s := s.evt (FEED_EVT_OV n)
  let s := if s.feedSt n = .cool then s else s.noteGone n .ov
  let s := if st = .inrush ∨ st = .on ∨ st = .standby then s.fault srcFEED_OV n.val else s
  s.disqualify n

/-- FEED_OV (R88, R91, R112, R325, R326): the output lasts `w` ns. -/
def execFeedOv (n : Fin 4) (w : Nat) (s : State) : Host.Outcome State Fault Refusal :=
  .next (
    if !s.powered then s
    else
      let (told, s) := s.cmpRow (16 + n) true w
      if told then s.feedOv n else s)

/-- FEED_WINDOW_ENTER (R90, R321, R322): both outputs release and the debounce period starts; not while the voltage as last seen lies in a
band or outside (log entry 146). -/
def execFeedWindowEnter (n : Fin 4) (s : State) : Host.Outcome State Fault Refusal :=
  .next (
    let c : Fin 48 := ⟨16 + n.val, by omega⟩
    if !s.powered || !s.cmpInside c then s
    else (s.cmpRelease c).modFeed n (fun f => { f with window := true, stable := false }))

/-- FEED_QUALIFIED (R22, R63, R88, R90, R109): the debounce period ends with the window stable; a feed still in CHECK only notes it, one
that FEED_EJECT.ACT turned off waits for EJECT to go. -/
def execFeedQualified (n : Fin 4) (s : State) : Host.Outcome State Fault Refusal :=
  .next (
    let f := s.feed[n]
    if !s.powered || !f.window || !f.proved || f.ejected || f.failed then s
    else if s.feedSt n = .debounce then s.qualify n
    else if s.feedSt n = .check then s.modFeed n (fun f => { f with stable := true })
    else s)

/-! ### Inrush -/

/-- INRUSH_START (R88, R93, R97, R104): DVDT, or half of the last attempt's after a thermal trip in INRUSH, not below 0.1 V/ms. -/
def execInrushStart (n : Fin 4) (s : State) : Host.Outcome State Fault Refusal :=
  .next (
    if !s.powered || !s.admits n then s
    else
      let f := s.feed[n]
      let half := s.feedSt n == .cool && f.halve
      let rate := if half then max (1 / 10) (f.dvdt / 2) else s.dvdt n
      let s := s.modFeed n (fun f => { f with dvdt := rate, ready := false })
      let s := (s.setFeed n .inrush).setOn (FEED_STAT_ORON n) true
      (s.setOn (FEED_STAT_INRHALF n) half).feedChanged)

/-- INRUSH_COMPLETE (R88, R92, R94, R106, R111, R180): the feed enters ON, or HWONLY in the safe state and SAFE_TALK.
DEDUCED, log entry 63. -/
def execInrushComplete (n : Fin 4) (s : State) : Host.Outcome State Fault Refusal :=
  .next (
    if !s.powered || s.feedSt n != .inrush then s
    else
      let hw := s.safeState || s.safeTalk
      let s := (s.setFeed n (if hw then .hwonly else .on)).setOn (FEED_STAT_HSON n) true
      let s := (s.setOn (FEED_STAT_INRHALF n) false).modFeed n (fun f => { f with halve := false })
      let s := if hw then s else s.feedsBack
      s.feedChanged.settleGroup)

/-- INRUSH_TIMEOUT (R88, R94): longer than TMAX, a thermal trip. -/
def execInrushTimeout (n : Fin 4) (s : State) : Host.Outcome State Fault Refusal :=
  .next (if s.powered && s.feedSt n == .inrush then (s.evt (FEED_EVT_TMAXE n)).thermalTrip n else s)

/-! ### Model, trips and derate -/

/-- FEED_MODEL_UPDATE (R95, R97, R102, R337): the hot-swap VDS and the shunt voltage of this interval as converted, clamped or not; a feed
whose rise reaches TLIM trips, one in COOL may become ready. RTH = 0 is 0 K/W. DESIGN CHOICE, log entry 114. -/
def execFeedModelUpdate (n : Fin 4) (s : State) : Host.Outcome State Fault Refusal :=
  .next (
    if !s.powered then s
    else
      let p := s.meas.raw[Fin.ofNat 48 (4 + n)] * max 0 (divR s.meas.raw[Fin.ofNat 48 (8 + n)] (s.rsns n))
      let step (k : Fin 3) : Rat :=
        let d := s.feed[n].dT[k]
        d + (p * s.fld (FEED_POLE_RTH n (k.val + 1)) / 1000 - d) * 10 / max 10 (s.fld (FEED_POLE_TAU n (k.val + 1)) : Rat)
      let s := s.modFeed n (fun f => { f with dT := Vector.ofFn step })
      let s := s.setCode (FEED_STAT_DT n) (s.feedDT n)
      let s := if s.fld (FEED_STAT_DTPEAK n) < s.fld (FEED_STAT_DT n) then s.setFld (FEED_STAT_DTPEAK n) (s.fld (FEED_STAT_DT n)) else s
      if conducts (s.feedSt n) && decide ((s.fld (FEED_TML_TLIM n) : Rat) ≤ s.feedDT n) then
        (s.evt (FEED_EVT_THERM n)).thermalTrip n
      else s.coolCheck n)

/-- The short-circuit output of a feed acts (R102, R112): a trip also where OV of the same ACLK cycle or the thermal model of the same
interval, in COOL or LATCHED by its last retry, has just taken the feed out, which then counts as a short circuit only. -/
def State.feedShort (s : State) (n : Fin 4) : State :=
  if conducts (s.feedSt n) then s.shortTrip n
  else
    match s.lately n 2, s.lately n 1000 with
    | some (.ov, st), _ => if conducts st && s.feedSt n == .debounce then s.shortTrip n else s
    | _, some (.thermal, _) => if s.feedSt n = .cool ∨ s.feedSt n = .latched then (s.uncountThermal n).shortTrip n else s
    | _, _ => s

/-- FEED_SHORT_CIRCUIT (R102, R112): the output lasts `w` ns; its report may be filtered (R326). -/
def execFeedShortCircuit (n : Fin 4) (w : Nat) (s : State) : Host.Outcome State Fault Refusal :=
  .next (if !s.powered then s else (s.cmpReport (20 + n) true w).feedShort n)

/-- FEED_SC_HOLDOFF_END (R102): 10 ms have passed since the trip. -/
def execFeedScHoldoffEnd (n : Fin 4) (s : State) : Host.Outcome State Fault Refusal :=
  .next (
    if s.powered && s.feedSt n == .cool then (s.modFeed n (fun f => { f with holdoff := true })).coolCheck n else s)

/-- The reverse-current output of a feed acts (R89, R103, R112): the ORing gate goes off; the hot-swap FET stays on and the feed stays
qualified, unless UV of the same ACLK cycle has just taken it out. -/
def State.feedReverse (s : State) (n : Fin 4) : State :=
  let uv := match s.lately n 2 with
    | some (.uv, st) => conducts st
    | _ => false
  if conducts (s.feedSt n) || uv then
    let s := ((s.setOn (FEED_STAT_ORON n) false).evt (FEED_EVT_REV n)).count (FEED_CNT_REVCNT n)
    (s.modFeed n (fun f => { f with degraded := true })).syncFeeds
  else s

/-- FEED_REVERSE_CURRENT (R89, R103, R112): the output lasts `w` ns (R326). -/
def execFeedReverseCurrent (n : Fin 4) (w : Nat) (s : State) : Host.Outcome State Fault Refusal :=
  .next (if !s.powered then s else (s.cmpReport (20 + n) false w).feedReverse n)

/-- ORING_REENABLE (R103, R104). -/
def execOringReenable (n : Fin 4) (s : State) : Host.Outcome State Fault Refusal :=
  .next (
    if !s.powered then s
    else
      let s := s.cmpRelease ⟨20 + n.val, by omega⟩
      if conducts (s.feedSt n) then s.setOn (FEED_STAT_ORON n) true else s)

/-- DROOP_UPDATE (R98, R100, R101, R333): on the VFEED and IFEED of the last 10 µs; ILIM_EFF falls at once and rises by at most
1 % of ILIM per 1 ms. DESIGN CHOICE, log entry 64. -/
def execDroopUpdate (n : Fin 4) (s : State) : Host.Outcome State Fault Refusal :=
  .next (
    if !s.powered then s
    else
      let vfeed := s.meas.v[n.castAdd 44]
      let ifeed := divR s.meas.v[Fin.ofNat 48 (8 + n)] (s.rsns n)
      let ilim := s.ilim n
      let vfq : Rat := (s.fld (FEED_EFF_VFQ n) : Rat) / 100
      let knee := vfq * s.fld (FEED_DROOP_KNEE n) / 100
      let want :=
        if knee ≤ vfeed then ilim
        else max (ilim * s.fld (FEED_DROOP_FLOOR n) / 100)
          (ilim * (1 - s.fld (FEED_DROOP_GAIN n) * 100 * divR (knee - vfeed) vfq / 100))
      let eff := min want (s.feed[n].ilimEff + ilim / 10000)
      let amp := min eff (divR (5 / 100) (s.rsns n))
      let s := s.modFeed n (fun f => { f with ilimEff := eff, vfeed := vfeed, ifeed := ifeed })
      let s := (s.setCode (FEED_MEAS_VFEED n) (100 * vfeed)).setScode (FEED_MEAS_IFEED n) (8 * ifeed)
      let s := s.setCode (FEED_EFF_ILIM_EFF n) (8 * eff)
      let s := if 5 / 100 < eff * s.rsns n then s.evt (FEED_EVT_CLAMPL n) else s
      let s := if 1 / 10 < s.scmult n * eff * s.rsns n then s.evt (FEED_EVT_SCCLAMP n) else s
      let s := s.setOn (FEED_STAT_DERATE n) (decide (eff < ilim))
      let cl := conducts (s.feedSt n) && decide (amp ≤ ifeed)
      let s := s.setOn (FEED_STAT_CLACT n) cl
      (s.modFeed n (fun f => { f with degraded := f.degraded || cl || decide (eff < ilim) })).syncFeeds)

/-- NEAR_ASSERT (R99, R152): a feed of the active group reaches 97 % of IMAN; the command of every port in CHARGE stops rising. -/
def execNearAssert (n : Fin 4) (s : State) : Host.Outcome State Fault Refusal :=
  .next (
    if !s.powered || !s.active n then s
    else
      let s := s.modFeed n (fun f => { f with near := true })
      s.each (finsWhere (fun k : Fin 2 => s.role k == .charge)) (fun t k => t.modChg k (fun c => { c with held := true })))

/-- NEAR_RELEASE (R99). -/
def execNearRelease (s : State) : Host.Outcome State Fault Refusal :=
  .next (s.each (List.finRange 4) (fun t n => t.modFeed n (fun f => { f with near := false })))

/-- FEED_HEALTH_EXPIRE (R89): 1 s without a DEGRADED condition. -/
def execFeedHealthExpire (n : Fin 4) (s : State) : Host.Outcome State Fault Refusal :=
  .next (
    if s.on (FEED_STAT_DERATE n) || s.on (FEED_STAT_CLACT n) then s
    else (s.modFeed n (fun f => { f with degraded := false })).syncFeeds)

/-- FEED_TRIP_COUNT_CLEAR (R88): 1 s spent in ON. -/
def execFeedTripCountClear (n : Fin 4) (s : State) : Host.Outcome State Fault Refusal :=
  .next (
    if s.powered && s.feedSt n == .on then
      (s.modFeed n (fun f => { f with thTrips := 0, scTrips := 0 })).setFld (FEED_STAT_RETRIES n) 0
    else s)

/-! ### Selection and extraction -/

/-- FEED_GROUP_CHANGE (R105, R106): DWELL has passed and the policy picks another group. -/
def execFeedGroupChange (s : State) : Host.Outcome State Fault Refusal :=
  .next (if s.powered && s.priorityMode then (s.syncFeeds.setGroup s.groupNow).settleGroup else s)

/-- EJECT_ASSERT (R107, R108, R183): Gust is denied, a NOTICE goes to every bound ring, and with FEEDS_LOST the hold starts. -/
def execEjectAssert (s : State) : Host.Outcome State Fault Refusal :=
  .next (
    if s.eject || !s.powered then s
    else
      let s := s.setOn FEED_GSTAT_EJECT true
      let s := s.each (finsWhere (fun k : Fin 2 => s.role k == .gust)) (fun t k =>
        (((t.modChg k (fun c => { c with gshare := 0, gdrop := false })).setCmd k 0).setPout k))
      let s := (s.syncElig 0).syncElig 1
      let s := s.notice 1 0
      if s.lostFeeds && !s.on FEED_GSTAT_EXSTOP then
        (if s.fld FEED_EJECT_EXHOLD = 0 then s.extractionStop 0x0B else s.setOn FEED_GSTAT_HOLDRUN true)
      else s)

/-- EJECT_DEASSERT (R109). -/
def execEjectDeassert (s : State) : Host.Outcome State Fault Refusal :=
  .next (
    let s := (s.setOn FEED_GSTAT_EJECT false).setOn FEED_GSTAT_HOLDRUN false
    let s := s.each (finsWhere (fun (n : Fin 4) => s.feed[n].ejected)) (fun t n =>
      t.modFeed n (fun f => { f with ejected := false, stable := false }))
    (s.syncElig 0).syncElig 1)

/-- EJECT_FEED_OFF (R107, R109): with ACT = 1, EJDELAY after the assertion every feed path turns off; it requalifies in full. -/
def execEjectFeedOff (s : State) : Host.Outcome State Fault Refusal :=
  .next (
    if !s.powered || !s.eject || !s.on FEED_EJECT_ACT then s
    else
      let s := s.each (List.finRange 4) (fun t n =>
        let t := t.modFeed n (fun f => { f with ejected := true })
        let st := t.feedSt n
        if st = .qualified ∨ st = .inrush ∨ st = .on ∨ st = .standby ∨ st = .hwonly then
          ((t.gatesOff n).setQual n false).setFeed n .debounce
        else if st = .cool then t.setQual n false
        else t)
      s.feedChanged.budgetDrop)

/-- EXTRACT_HOLD_EXPIRE (R108). -/
def execExtractHoldExpire (s : State) : Host.Outcome State Fault Refusal :=
  .next (if s.powered && s.on FEED_GSTAT_HOLDRUN then s.extractionStop 0x0B else s)

end Sys2Proof.Machine
end

