-- ==== Sys2Proof/Machine/Forecast.lean ====
section
/-! DEFINITION. The meanings of Forecast's commands and events (ch. 8). -/

namespace Sys2Proof.Machine

/-! ### Decisions -/

/-- The result word of a decision (R254). -/
def decResult (gpwr reason zone : Nat) (open_ : Bool) (hi : Nat) : Nat :=
  gpwr % 2 ^ 20 + reason * 2 ^ 20 + zone * 2 ^ 24 + (if open_ then 2 ^ 27 else 0) + hi % 2 ^ 32 * 2 ^ 32

/-- DEFHINT, µs. -/
def State.defHint (s : State) : Nat := 1000 * orZero 1 (s.fld FC_CTL_DEFHINT)

/-- The allowance of a request and its limiting term: reason, zone (R233). The first of equal terms limits.
DESIGN CHOICE, log entry 132. -/
def State.allowance (s : State) (n : Fin 64) (l : GtLine) (d : Option Rat) : Rat × Nat × Nat :=
  let pold : Rat := if l.counted then (l.gpwr : Rat) / 16 else 0
  let band := s.fld (FC_CTX_CFG_BAND n)
  let cap := s.fld (FC_CTX_CAP_CAP n)
  let terms : List (Rat × Nat × Nat) :=
    [((l.ceil : Rat) / 16, rCEIL, 0)] ++
    (if cap = 0 then [] else [((cap : Rat) / 16 - (s.sumG (fun m => s.inCtx n m.cid) - pold), rCTXCAP, 0)]) ++
    [(s.budget d * s.bandPct band / 100 - (s.sigmaG - pold), rBUDGET, 0)] ++
    (finsWhere (fun z : Fin 8 => l.zmap.getLsbD z && s.zoneUsed z)).map (fun z =>
      (s.headroom z d (s.zoneP z (fun m => m.cid != l.cid)),
        (if (s.zoneSeen z).isNone then rZONE else rTHERMAL), z.val))
  terms.tail.foldl (fun b t => if t.1 < b.1 then t else b) (terms.headD (0, 0, 0))

/-- Would the need fit with no other grant live (R234)? -/
def State.fitsAlone (s : State) (n : Fin 64) (l : GtLine) (d : Option Rat) (need : Rat) : Bool :=
  let cap := s.fld (FC_CTX_CAP_CAP n)
  decide (need ≤ (l.ceil : Rat) / 16) && (cap == 0 || decide (need ≤ (cap : Rat) / 16)) &&
  decide (need ≤ s.budget d * s.bandPct (s.fld (FC_CTX_CFG_BAND n)) / 100) &&
  (finsWhere (fun z : Fin 8 => l.zmap.getLsbD z && s.zoneUsed z)).all (fun z =>
    decide (need ≤ s.headroom z d (s.fld (FC_ZONE_ZBASE_ZBASE z))))

/-- Ticks of 10 ns from now to a 48-bit time, 0 where it is past. -/
def State.ticksTo (s : State) (t : BitVec 48) : Nat :=
  let d := (t - s.time48).toNat
  if d < 2 ^ 47 then d else 0

/-- The retry hint of a DEFER, µs (R235): of the 16 earliest-ending live timed grants in scope, the first that alone covers the
shortfall. -/
def State.hint (s : State) (n : Fin 64) (reason zone : Nat) (short : Rat) : Nat :=
  let scope (l : GtLine) := l.counted && l.gend != 0 &&
    (if reason = rCTXCAP then s.inCtx n l.cid else if reason = rTHERMAL ∨ reason = rZONE then l.zmap.getLsbD zone else true)
  let byEnd := (s.fc.lines.filter scope).mergeSort (fun a b => decide (s.ticksTo a.gend ≤ s.ticksTo b.gend))
  match (byEnd.take 16).find? (fun l => decide (short ≤ (l.gpwr : Rat) / 16)) with
  | some l => s.ticksTo l.gend / 100
  | none => s.defHint

/-- A duration in µs as seconds, 0 = open-ended. -/
def secs (us : Nat) : Option Rat := if us = 0 then none else some ((us : Rat) / 1000000)

/-- Is a 48-bit deadline past (R233)? -/
def State.past (s : State) (dl : Nat) : Bool := decide (dl ≠ 0) && s.ticksTo (BitVec.ofNat 48 dl) == 0 &&
  decide (BitVec.ofNat 48 dl ≠ s.time48)

/-- Is a context held off while FEEDS_LOST is asserted (R233, R246)? -/
def State.heldByHoldup (s : State) (n : Fin 64) : Bool :=
  s.lostFeeds && decide (s.fld FC_CTL_HUBAND < s.fld (FC_CTX_CFG_BAND n))

/-- GEND of a grant decided now (R236). -/
def State.gendFor (s : State) (us : Nat) : BitVec 48 := if us = 0 then 0 else s.time48 + BitVec.ofNat 48 (us * 100)

/-- Decide a GRANT_REQUEST on a resident entry (R233 to R236). DEDUCED, log entry 133. -/
def State.decideRequest (s : State) (n : Fin 64) (d : Desc) (l : GtLine) : State :=
  let us := d.reqD
  let o := us == 0
  let done (s : State) (st r : Nat) (hi : Nat) (z : Nat) := s.complete n d st 0 (decResult 0 r z o hi)
  if !l.valid || !(l.zmap.toNat &&& s.fld (FC_CTX_CFG_ZMASK n)) == l.zmap.toNat then s.complete n d 0x03 0x10 0
  else if l.st = .revoking ∨ l.st = .throttled then done s 0x13 rREVOKING 0 0
  else if s.past d.reqDl then done s 0x13 rDEADLINE 0 0
  else if s.heldByHoldup n then done s 0x12 rHOLDUP s.defHint 0
  else
    let p : Rat := (d.reqP : Rat) / 16
    let (a, reason, zone) := s.allowance n l (secs us)
    let grant (g st r z : Nat) : State :=
      let e := s.gendFor us
      let l' := { l.accrue s.time48 with
        gpwr := g, st := .granted, gen := d.tag, gend := e, gupd := s.time48, dirty := true, granted := s.devtime, seen := false }
      ((s.putLine l').syncLive).complete n d st 0 (decResult g r z o e.toNat)
    if p ≤ a then grant d.reqP 0x10 0 0
    else if d.allowPart && decide ((d.reqPmin : Rat) / 16 ≤ a) then grant (16 * a).floor.toNat 0x11 reason zone
    else
      let need : Rat := if d.allowPart then (d.reqPmin : Rat) / 16 else p
      if s.fitsAlone n l (secs us) need then
        let h := s.hint n reason zone (need - a)
        let dl := d.reqDl
        if dl ≠ 0 ∧ s.ticksTo (BitVec.ofNat 48 dl) < 100 * h then done s 0x13 rDEADLINE 0 0
        else done s 0x12 reason h zone
      else done s 0x13 reason 0 zone

/-- A STALE result (R254). -/
def GtLine.staleResult (l : GtLine) : Nat := l.gen.toNat + l.st.code * 2 ^ 16

/-- Qualifier of a SUCCESS release or read (R254). -/
def GtLine.qual (l : GtLine) : Nat := (if l.sat then 1 else 0) + (if l.seen then 2 else 0)

/-- GRANT_RELEASE on a resident entry, which is written back before the completion (R239, R244, R245). -/
def State.decideRelease (s : State) (n : Fin 64) (d : Desc) (l : GtLine) : State :=
  if l.st = .idle then (s.writeBack l).complete n d 0x14 0 0
  else if l.gen ≠ d.gen then (s.writeBack l).complete n d 0x15 0 l.staleResult
  else
    let l := l.accrue s.time48
    let seen := l.st == .revoking || l.st == .throttled
    let s := if l.st = .throttled then
        s.modFc (fun f => { f with claims := f.claims.map (fun c => if c.cid = l.cid then { c with live := false } else c) })
      else s
    let s := (s.putLine { l with st := .idle, gpwr := 0, dirty := true, seen := false }).syncLive
    let s := match s.line? l.cid with
      | some m => s.writeBack m
      | none => s
    s.freeClaims.complete n d 0 ({ l with seen := seen }).qual l.account

/-- GRANT_EXTEND on a resident entry (R246). -/
def State.decideExtend (s : State) (n : Fin 64) (d : Desc) (l : GtLine) : State :=
  let o := d.extD == 0
  let deny (r z : Nat) := s.complete n d 0x13 0 (decResult 0 r z o 0)
  if l.st = .idle then s.complete n d 0x14 0 0
  else if l.gen ≠ d.gen then s.complete n d 0x15 0 l.staleResult
  else if l.st = .revoking ∨ l.st = .throttled then deny rREVOKING 0
  else if s.heldByHoldup n then deny rHOLDUP 0
  else
    let (a, reason, zone) := s.allowance n l (secs d.extD)
    if (l.gpwr : Rat) / 16 ≤ a then
      let e := s.gendFor d.extD
      (s.putLine { l with gend := e, dirty := true }).complete n d 0x10 0 (decResult l.gpwr 0 0 o e.toNat)
    else deny reason zone

/-- ACCOUNT_READ on a resident entry (R239, R240, R250, R253). DESIGN CHOICE, log entry 151. -/
def State.decideRead (s : State) (n : Fin 64) (d : Desc) (l : GtLine) : State :=
  let l := { l.accrue s.time48 with seen := l.st == .revoking || l.st == .throttled }
  if d.accEvict ∧ l.st ≠ .idle then s.complete n d 0x04 0 l.account else
  let l' := if d.accClear then { l with account := 0, afrac := 0, sat := false } else l
  let s := (s.putLine { l' with dirty := true }).writeBack l'
  (if d.accEvict then s.dropLine l.cid else s).complete n d 0 l.qual l.account

/-- Perform a context command on its resident entry, which is now the one last used (R238). -/
def State.decideGrant (s : State) (n : Fin 64) (d : Desc) (l : GtLine) : State :=
  let l := { l with used := s.fc.clock }
  let s := (s.modFc (fun f => { f with clock := f.clock + 1 })).putLine l
  if d.opc = 0x20 then s.decideRequest n d l
  else if d.opc = 0x21 then s.decideRelease n d l
  else if d.opc = 0x22 then s.decideExtend n d l
  else s.decideRead n d l

/-- The checks of a context command that need no entry: the status and qualifier of the first that fails (R220, R233, R248, R405).
DEDUCED, log entry 134. -/
def State.ctxRefusal (s : State) (n : Fin 64) (d : Desc) : Option (Nat × Nat) :=
  if s.safeState then some (0x0A, 0)
  else if !s.on (FC_CTX_CFG_BOUND n) then some (0x03, 0)
  else if s.static then some (0x03, 0x20)
  else if d.opc = 0x20 ∧ (d.reqP = 0 ∨ (d.allowPart ∧ d.reqP < d.reqPmin)) then some (0x02, 0)
  else if s.nent ≤ d.cid then some (0x02, 0)
  else if !s.inCtx n d.cid then some (0x03, 0x10)
  else none

/-- Every line is pinned (R238). -/
def State.cachePinned (s : State) : Bool := decide (4096 ≤ s.fc.lines.length) && s.fc.lines.all (fun l => l.st != .idle)

/-- A miss that finds every line pinned completes DEFER (R238); for GRANT_EXTEND, DENY with the same reason (R246). -/
def State.deferPinned (s : State) (n : Fin 64) (d : Desc) : State :=
  let s := s.evt FC_EVT_CACHEFULL
  if d.opc = 0x22 then s.complete n d 0x13 0 (decResult 0 rCACHE 0 (d.extD == 0) 0)
  else s.complete n d 0x12 0 (decResult 0 rCACHE 0 (d.reqD == 0 && d.opc == 0x20) s.defHint)

/-- The other reads outstanding (R259): descriptor fetches, profile blocks, keys, and scatter lists of an ending ring.
DEDUCED, log entry 152. -/
def State.othersOut (s : State) : Nat :=
  (finsWhere (fun n : Fin 64 => s.ring[n].fetching)).length + s.chg[0].load.length + s.chg[1].load.length + s.aon.keyLoad.length +
  s.hif.lists.length

/-- The most Grant Table reads outstanding (R259). -/
def State.missMax (s : State) : Nat := if s.hif.cfg.extTag then 32 else 24

/-- May a ring's next descriptor be taken at all: the ring ACTIVE with two free completion entries, no request of its own waiting
for an entry, and no read beyond those that may be outstanding (R237, R259, R276)? -/
def State.mayTake (s : State) (n : Fin 64) (d : Desc) : Bool :=
  s.powered && n.val != 0 && s.ringSt n == 1 && s.takes n && !s.missOut n &&
  ((decide (s.fc.misses.length < s.missMax) && (s.hif.cfg.extTag || decide (s.fc.misses.length + s.othersOut < 32))) ||
    (s.ctxRefusal n d).isSome || (s.line? d.cid).isSome || s.cachePinned)

/-- A bound ring with a consumed descriptor that could be taken (R221). -/
def State.ctxWaits (s : State) (m : Fin 64) : Bool :=
  s.on (FC_CTX_CFG_BOUND m) &&
  (match s.ring[m].sq with
    | ⟨d :: _, none, _⟩ :: _ => s.mayTake m d
    | _ => false)

/-- DEVTIME since when a ring's oldest descriptor has waited; a ring with none waits from now. -/
def State.waitsSince (s : State) (m : Fin 64) : BitVec 56 :=
  match s.ring[m].sq with
  | i :: _ => i.at_
  | [] => s.devtime

/-- A ring has had its share of the present round: WEIGHT decisions (R221). -/
def State.hadShare (s : State) (m : Fin 64) : Bool := decide (s.fld (FC_CTX_CFG_WEIGHT m) ≤ s.fc.served[m])

/-- Does the decision slot go to ring `n` (R221)? Every 64th goes to the longest wait; the others to the most important band with
something to decide and, within it, to a ring with a share left in the round. DESIGN CHOICE, log entry 96. -/
def State.mayDecide (s : State) (n : Fin 64) : Bool :=
  let others := finsWhere (fun m : Fin 64 => m != n && s.ctxWaits m)
  let band (m : Fin 64) := s.fld (FC_CTX_CFG_BAND m)
  !s.on (FC_CTX_CFG_BOUND n) ||
  (if s.fc.slot = 63 then others.all (fun m => decide ((s.waitsSince n).toNat ≤ (s.waitsSince m).toNat))
   else others.all (fun m => decide (band n < band m) || (band n == band m && (!s.hadShare n || s.hadShare m))))

/-- Count the slot that ring `n` takes, and outside the 64th its share of the round; a ring that has had its share begins a new
round of its band (R221). -/
def State.takeSlot (s : State) (n : Fin 64) : State :=
  let band (m : Fin 64) := s.fld (FC_CTX_CFG_BAND m)
  let served : Vector Nat 64 :=
    if s.fc.slot = 63 ∨ s.on (FC_CTX_CFG_BOUND n) = false then s.fc.served
    else
      let v : Vector Nat 64 := if s.hadShare n then Vector.ofFn (fun m => if band m = band n then 0 else s.fc.served[m]) else s.fc.served
      v.set n (v[n] + 1)
  s.modFc (fun f => { f with slot := (f.slot + 1) % 64, served := served })

/-- Take the run at the front of a context ring; what stands behind it waits for its completion (R221). -/
def State.popCtx (s : State) (n : Fin 64) (d : Desc) : Option State :=
  match s.ring[n].sq with
  | [] => some s
  | h :: t => if h.ds = [d] ∧ h.err = none then some (s.modRing n (fun r => { r with sq := t })) else none

/-- A decision has been made: it counts (R255), and what failed behind it completes. -/
def State.decided (s : State) (n : Fin 64) : State := (s.modFc (fun f => { f with decN := f.decN + 1 })).flush n

/-- Take a context command for decision (R221, R233, R237, R238, R276): its ring may be served and has the slot; then the checks that
need no entry; then the entry, resident or by a fill. -/
def State.ctxCommand (s : State) (n : Fin 64) (d : Desc) : State :=
  if !s.mayTake n d || !s.mayDecide n then s
  else match s.popCtx n d with
    | none => s
    | some t =>
      let t := t.takeSlot n
      match t.ctxRefusal n d with
      | some (status, qual) => (t.complete n d status qual 0).decided n
      | none =>
        match t.line? d.cid with
        | some l => (t.decideGrant n d l).decided n
        | none =>
          if t.cachePinned then (t.deferPinned n d).decided n
          else t.modFc (fun f => { f with misses := f.misses ++ [⟨n, d⟩], missN := f.missN + 1 })

/-- GRANT_REQUEST (R233). -/
def execGrantRequest (n : Fin 64) (d : Desc) (s : State) : Host.Outcome State Fault Refusal :=
  .next (s.ctxCommand n (d &&& ~~~ 0xFF ||| 0x20))

/-- GRANT_RELEASE (R245). -/
def execGrantRelease (n : Fin 64) (d : Desc) (s : State) : Host.Outcome State Fault Refusal :=
  .next (s.ctxCommand n (d &&& ~~~ 0xFF ||| 0x21))

/-- GRANT_EXTEND (R246). -/
def execGrantExtend (n : Fin 64) (d : Desc) (s : State) : Host.Outcome State Fault Refusal :=
  .next (s.ctxCommand n (d &&& ~~~ 0xFF ||| 0x22))

/-- ACCOUNT_READ (R240). -/
def execAccountRead (n : Fin 64) (d : Desc) (s : State) : Host.Outcome State Fault Refusal :=
  .next (s.ctxCommand n (d &&& ~~~ 0xFF ||| 0x23))

/-- The request of a miss whose entry has come: the checks of the moment, then the decision (R237, R238, R250).
DEDUCED, log entry 97. -/
def State.decideMiss (s : State) (n : Fin 64) (d : Desc) : State :=
  (match s.ctxRefusal n d with
    | some (status, qual) => s.complete n d status qual 0
    | none =>
      match s.line? d.cid with
      | some l => s.decideGrant n d l
      | none => s.deferPinned n d).decided n

/-- CACHE_FILL_DONE (R237, R261): with Bus Master Enable clear the completion is discarded and the read comes again. The requests that miss
this consumer get its entry, oldest first; a context unbound meanwhile completes NOT_PERMITTED (R250), and nothing is cached where no
request may use it or every line is pinned by now. `g` of its two rows of B1 the starvation guard granted (R379). -/
def execCacheFillDone (c : Nat) (e : BitVec 512) (g : Fin 3) (s : State) : Host.Outcome State Fault Refusal :=
  .next (
    if !s.on HIF_LNK_BME then s
    else
    let s := s.guardGrants 1 g.val
    let mine := s.fc.misses.filter (fun x => x.d.cid == c)
    let s := s.modFc (fun f => { f with misses := f.misses.filter (fun x => x.d.cid != c) })
    let wanted := mine.any (fun x => (s.ctxRefusal x.ring x.d).isNone)
    let s := if wanted && (s.line? c).isNone && !s.cachePinned then s.fillLine c e else s
    s.each mine (fun t x => t.decideMiss x.ring x.d))

/-- ACCOUNT_WRITEBACK (R239): a dirty line's device part is accrued and written; `late` says that WBPER was exceeded, `g` how many of its two
rows of B1 the starvation guard granted (R379). -/
def execAccountWriteback (c : Nat) (late : Bool) (g : Fin 3) (s : State) : Host.Outcome State Fault Refusal :=
  .next (
    let s := s.guardGrants 1 g.val
    let s := if late then s.evt FC_EVT_WBLATE else s
    match s.line? c with
    | some l => if l.dirty || (l.acct && l.counted) then s.writeBack l else s
    | none => s)

/-- GRANT_EXPIRE (R243): DEVTIME has reached GEND of a GRANTED entry, which enters REVOKING with reason EXPIRED. -/
def execGrantExpire (c : Nat) (s : State) : Host.Outcome State Fault Refusal :=
  .next (
    match s.line? c with
    | some l =>
      if l.st = .granted ∧ l.gend ≠ 0 ∧ (s.time48 - l.gend).toNat < 2 ^ 47 then (s.revoke l rEXPIRED).syncLive else s
    | none => s)

/-- REVOKE_DEADLINE (R224, R243): the deadline of an entry in REVOKING is reached: it becomes THROTTLED: accrued, GPWR 0, its pins claimed,
a NOTICE, a journal entry. -/
def execRevokeDeadline (c : Nat) (s : State) : Host.Outcome State Fault Refusal :=
  .next (
    match s.line? c with
    | some l =>
      if l.st = .revoking ∧ (s.devtime - l.due).toNat < 2 ^ 55 then
        let s := s.putLine { l.accrue s.time48 with st := .throttled, gpwr := 0, dirty := true, seen := true }
        let s := s.modFc (fun f => { f with claims := f.claims ++ [⟨c, l.thrmask, true, s.devtime⟩] })
        let s := (s.count FC_CNT_THROTTLES).syncThr
        let ctx := s.ctxOf c
        let s := match ctx with
          | some n => s.noticeOn n 5 c
          | none => s
        (s.jevent .fc 0x0A c (l.gen.setWidth 32) (l.thrmask.setWidth 32)
          (BitVec.ofNat 32 (match ctx with
            | some n => n.val
            | none => 0))).syncLive
      else s
    | none => s)

/-- THROTTLE_RELEASE (R244): THRMIN after the assertion of its pins, the claim of an entry that is no longer THROTTLED ends. -/
def execThrottleRelease (c : Nat) (s : State) : Host.Outcome State Fault Refusal :=
  .next ((s.modFc (fun f => { f with claims := f.claims.filter (fun x =>
    x.live || x.cid != c || decide ((s.devtime - x.at_).toNat < s.thrminTicks)) })).syncThr)

/-- FC_ZONEz_HT.AGE counted up to now (R255); at 255 it sticks. -/
def State.htAge (s : State) (z : Fin 8) : State :=
  if s.fld (FC_ZONE_HT_AGE z) = 255 then s
  else s.setFld (FC_ZONE_HT_AGE z) (min 255 ((s.devtime - s.fc.htAt[z]).toNat / 100000))

/-- ZONE_HOST_STALE (R230): the host temperature of a zone is older than 100 ms. -/
def execZoneHostStale (z : Fin 8) (s : State) : Host.Outcome State Fault Refusal :=
  .next (
    let s := s.htAge z
    if s.fld (FC_ZONE_CFG_SRC z) = 0x30 ∧ 100 < s.fld (FC_ZONE_HT_AGE z) then (s.evt FC_EVT_ZSTALE).setFld (FC_ZONE_STAT_HEAD z) 0 else s)

/-! ### The snapshot -/

/-- PLOAD from the measurements (R225). -/
def State.loadNow (s : State) : Rat :=
  s.phg.vbus * sumWhere (fun _ : Fin 4 => true) (fun n => s.feed[n].ifeed) +
  sumWhere (fun _ : Fin 2 => true) (fun k => (s.fld (CHG_DPWR_POUT k) : Rat)) -
  sumWhere (fun k : Fin 2 => s.role k == .charge) (fun k => s.chg[k].pchgm)

/-- ENFWIN, in snapshots. -/
def State.enfwin (s : State) : Nat := s.fld FC_ENF_ENFWIN

/-- The zone shortfall with the present PZ (R242); none is raised from a source that gives no temperature (R250). -/
def State.zoneShort (s : State) (z : Fin 8) (p : GtLine → Bool) : Bool :=
  s.zoneUsed z && (s.zoneSeen z).isSome && decide (s.headroom z (some s.shor) (s.zoneP z p) < 0)

/-- The static pin policy of one pin (R247): asserted once the condition has held for ENFWIN, released once it has been false for
THRMIN, and no sooner than THRMIN after assertion; THRMIN in snapshots. DESIGN CHOICE, log entry 155. -/
def State.staticPin (s : State) (p : Fin 8) : State :=
  let pct := if h : p.val < 4 then
      s.fld ([FC_SPOL0_SPCT0, FC_SPOL0_SPCT1, FC_SPOL0_SPCT2, FC_SPOL0_SPCT3][p.val]'(by simpa using h))
    else s.fld ([FC_SPOL1_SPCT0, FC_SPOL1_SPCT1, FC_SPOL1_SPCT2, FC_SPOL1_SPCT3][p.val - 4]'(by simp; omega))
  let thrmin := 100 * orZero 1 (s.fld FC_HOR_THRMIN)
  let cond := decide (pct ≠ 0) && decide (s.budget (some s.shor) * pct / 100 < s.fc.pload)
  let isOn := s.fc.statOn.getLsbD p
  let n := s.fc.statN[p]
  if isOn then
    if cond then s.modFc (fun f => { f with statN := f.statN.set p 0 })
    else if thrmin ≤ n ∧ 1000 * thrmin ≤ (s.devtime - s.fc.statAt[p]).toNat ∨ pct = 0 then
      s.modFc (fun f => { f with statN := f.statN.set p 0, statOn := f.statOn &&& ~~~ (1#8 <<< p.val) })
    else s.modFc (fun f => { f with statN := f.statN.set p (n + 1) })
  else if cond then
    if s.enfwin ≤ n then
      s.modFc (fun f => { f with statN := f.statN.set p 0, statOn := f.statOn ||| (1#8 <<< p.val), statAt := f.statAt.set p s.devtime })
    else s.modFc (fun f => { f with statN := f.statN.set p (n + 1) })
  else s.modFc (fun f => { f with statN := f.statN.set p 0 })

/-- Outside static mode the static policy asserts nothing: a pin it holds is released once THRMIN has passed (R247). -/
def State.staticDrop (s : State) (p : Fin 8) : State :=
  let past := s.fc.statOn.getLsbD p && decide (s.thrminTicks ≤ (s.devtime - s.fc.statAt[p]).toNat)
  s.modFc (fun f => { f with statN := f.statN.set p 0, statOn := if past then f.statOn &&& ~~~ (1#8 <<< p.val) else f.statOn })

/-- Grants whose GEND is reached expire before the selection (R243, R250). -/
def State.expireDue (s : State) : State :=
  s.each (s.fc.lines.filter (fun l => l.st == .granted && l.gend != 0 && decide ((s.time48 - l.gend).toNat < 2 ^ 47)))
    (fun t l => t.revoke l rEXPIRED)

/-- Enforcement at a snapshot (R241, R242, R250): the overrun, the shortfall and the zone shortfalls, then one selection pass.
DEDUCED, log entry 62. DESIGN CHOICE, log entry 154. -/
def State.enforce (s : State) : State :=
  let fuel := s.fc.lines.length
  let x := s.fc.pload - s.fc.pbase - s.sigmaG
  let exceeds := decide ((s.fld FC_ENF_ENFMARG : Rat) < x)
  let overN := if exceeds then s.fc.overN + 1 else 0
  let overIn := decide (s.enfwin < overN)
  let b := s.budget (some s.shor)
  let short := decide (b < s.sigmaG)
  let shortN := if short then s.fc.shortN + 1 else 0
  let shortIn := decide (s.enfwin < shortN)
  let zone (z : Fin 8) := if s.zoneShort z (fun _ => true) then s.fc.zoneN[z] + 1 else 0
  let zin := finsWhere (fun z : Fin 8 => decide (s.enfwin < zone z))
  let s := s.modFc (fun f => { f with overN := overN, shortN := shortN, zoneN := Vector.ofFn zone })
  let s := s.setOn FC_STAT_OVERRUN overIn
  let s := s.setOn FC_STAT_SHORT (shortIn || !zin.isEmpty)
  let s := if overIn || shortIn then
      let need := max (if overIn then x else 0) (if shortIn then s.sigmaG - b else 0)
      s.selectUntil (fun t => decide (need ≤ t.revoking (fun _ => true))) none (if overIn then rOVERRUN else rSHORTFALL) fuel
    else s
  let s := s.each zin (fun t z =>
    t.selectUntil (fun u => !u.zoneShort z (fun l => l.st != .revoking)) (some z) rZONE fuel)
  s.syncLive

/-- FORECAST_SNAPSHOT (R225 to R231, R241, R242, R247). -/
def execForecastSnapshot (s : State) : Host.Outcome State Fault Refusal :=
  .next (
    let now := s.snapNow
    let s := s.modFc (fun f => { f with pload := s.loadNow, snap := now })
    let s := if s.static then
        s.each (List.finRange 8) (fun t p => t.staticPin p)
      else ((s.each (List.finRange 8) (fun t p => t.staticDrop p)).expireDue).enforce
    let tau : Rat := (orZero 1 (s.fld FC_BASE_BASETAU) : Rat) / 100
    let g := if s.static then 0 else s.sigmaG
    let s := if s.on FC_STAT_OVERRUN then s
      else s.modFc (fun f => { f with pbase := max (s.fld FC_BASE_BASEMIN) (f.pbase + (f.pload - g - f.pbase) * (1 / 100000) / tau) })
    let ms := s.devtime.toNat / 100000
    let s := if ms = s.fc.rateMs then s
      else ((s.setFld FC_RATE_DEC (min 65535 (s.fc.decN / 1000))).setFld FC_RATE_MISS (min 65535 s.fc.missN)).modFc
        (fun f => { f with decN := 0, missN := 0, rateMs := ms })
    let s := s.each (List.finRange 8) (fun t z => t.htAge z)
    let s := s.each (List.finRange 2) (fun t k => t.modChg k (fun c => { c with claim := if c.claim = 0 then 0 else 2 }))
    s.fcTerms.syncThr)

end Sys2Proof.Machine
end

