-- ==== Sys2Proof/Machine/Fault.lean ====
section
/-! DEFINITION. The fault collector (ch. 15): recording, grace, the safe state, FAULT_N, and the events that stop a die (R16, R17,
R29, R355). -/

namespace Sys2Proof.Machine

/-! ### FAULT_N -/

/-- CFGCLASS is Full. -/
def State.fullClass (s : State) : Bool := s.on SYS_STRAP_CFGCLASS
/-- Start-up has ended: phases permitted or SAFE_TALK (R402). -/
def State.started (s : State) : Bool := s.fld SYS_STATE_STEP == 12
/-- Any PEND bit is set. -/
def State.anyPend (s : State) : Bool := s.word FLT_PEND_LO != 0 || s.word FLT_PEND_HI != 0
/-- Drive FAULT_N low or release it. -/
def State.setFaultN (s : State) (low : Bool) : State := s.setOn FLT_PIN_LOW low
/-- FAULT_N held low: SAFE_TALK and the safe state (R76, R407). -/
def State.faultHeld (s : State) : State :=
  (({ s with flt := { s.flt with pulse := false } }).setOn FLT_PIN_HBRUN false).setFaultN true

/-- Time on FAULT_N counts from now (R407). -/
def State.pinNow (s : State) : State := { s with flt := { s.flt with pinAt := s.devtime } }
/-- `n` ticks of 10 ns have passed on FAULT_N (R407). -/
def State.pinPast (s : State) (n : Nat) : Bool := decide (n ≤ (s.devtime - s.flt.pinAt).toNat)
/-- The heartbeat starts from its low half (R407). -/
def State.heartbeat (s : State) : State := ((s.setOn FLT_PIN_HBRUN true).setFaultN true).pinNow

/-- Outside start-up, SAFE_TALK and the safe state FAULT_N follows CFGCLASS (R407). -/
def State.faultRun (s : State) : State := if s.fullClass then s.heartbeat else s.setFaultN (s.on FLT_PIN_DRIVE)

/-- A class qualifies for the pin (R407). -/
def State.qualifies (s : State) (c : FltClass) : Bool := decide (min 2 (s.fld FLT_CFG_PINCLASS) ≤ c.code)

/-- A qualifying event acts on FAULT_N (R407). -/
def State.faultPulse (s : State) : State :=
  if !s.running then s
  else if s.fullClass then (s.setOn FLT_PIN_HBRUN false).setFaultN true
  else (({ s with flt := { s.flt with pulse := true } }).setFaultN true).pinNow

/-! ### The safe state -/

/-- Every port gives up its role and command, the phases stop and the pack FETs open (R354, R404, R405). -/
def State.portsOff (s : State) : State :=
  let s := s.each (List.finRange 2) (fun t k => ((((t.abortSounding k 8).leaveHoldup k).leaveGust k).setRole k .none).setCmd k 0)
  let s := s.stopPhases
  s.each (List.finRange 2) (fun t k => ((t.openPort k).turn k .idle).syncElig k)

/-- The safe-state level asserts (R17, R404 to R406, R412): phases, ports, pack FETs, feeds, Forecast, throttles, FAULT_N; MODE reads 3 once
start-up has ended. Hold-up ends, charge stages freeze, and a running stop sequence ends where it is. DEDUCED, log entry 80. -/
def State.safeEntry (s : State) : State :=
  if s.flt.level then s
  else
    let s := { s with flt := { s.flt with level := true }, sys := { s.sys with seq := none } }
    let s := s.setOn THM_STAT_STOPPING false
    let s := if s.started then s.setFld SYS_STATE_MODE 3 else s
    let s := (s.faultHeld.endTest 4 8).portsOff.feedsHwOnly
    (s.endAll true true).syncThr

/-- The journal entry of the safe state (R404, R424). -/
def State.fatalEntry (s : State) (src : Nat) : State := s.jevent .flt 0x0F src 0 (s.word FLT_FIRST) (s.word FLT_FADDR)

/-! ### Recording -/

/-- The register and bit of a source. -/
def State.setSrc (s : State) (lo hi : Nat) (src : Fin 64) : State :=
  if src.val < 32 then s.setFlags lo (1 <<< src.val) else s.setFlags hi (1 <<< (src.val - 32))
/-- Read the bit of a source. -/
def State.srcBit (s : State) (lo hi : Nat) (src : Fin 64) : Bool :=
  if src.val < 32 then (s.word lo).getLsbD src.val else (s.word hi).getLsbD (src.val - 32)

/-- Count a source (R394). -/
def State.countSrc (s : State) (src : Fin 64) : State :=
  s.count ⟨FLT_CNT (src.val / 4), 8 * (src.val % 4) + 7, 8 * (src.val % 4)⟩

/-- Which of two events of one cycle is chosen (R397): class, real over injected, lowest source. -/
def eventBeats (a b : FltEvent) : Bool :=
  decide (b.cls.code < a.cls.code) ||
  (a.cls == b.cls && ((!a.inj && b.inj) || (a.inj == b.inj && decide (a.src < b.src))))

/-- The event R397 chooses. -/
def bestEvent : List FltEvent → Option FltEvent
  | [] => none
  | e :: l => match bestEvent l with
    | none => some e
    | some f => if eventBeats f e then some f else some e

/-- Injected events that meet a real one of their source in the cycle are one event with it (R411). -/
def mergeEvents (l : List FltEvent) : List FltEvent :=
  l.filter (fun e => !(e.inj && l.any (fun f => !f.inj && f.src == e.src)))

/-- Take out the first of an event. -/
def dropEvent (e : FltEvent) : List FltEvent → List FltEvent
  | [] => []
  | f :: l => if f = e then l else f :: dropEvent e l

/-- The first-error capture (R395). -/
def State.capture (s : State) (e : FltEvent) : State :=
  let s := ((s.setOn FLT_FIRST_INJ e.inj).setOn FLT_FIRST_MULTI false).setFld FLT_FIRST_CLASS e.cls.code
  let s := ((s.setFld FLT_FIRST_MASTER e.master.toNat).setFld FLT_FIRST_ACCESS e.access.toNat).setFld FLT_FIRST_SRC e.src.val
  let s := (s.setWord FLT_FADDR e.addr).setWord FLT_FTIME_LO (s.devtime.setWidth 32)
  (s.setWord FLT_FTIME_HI ((s.devtime >>> 32).setWidth 32)).evt FLT_FIRST_VALID

/-- The first FATAL capture (R398). DEDUCED, log entry 78. -/
def State.captureFatal (s : State) (e : FltEvent) : State :=
  if s.on FLT_FATAL_VALID then s
  else
    let s := ((s.setOn FLT_FATAL_INJ e.inj).setFld FLT_FATAL_TIMEHI (s.time48.toNat / 2 ^ 32)).setFld FLT_FATAL_SRC e.src.val
    let s := s.setFld FLT_FATAL_ESCSRC (if e.src = srcGRACE_EXP then e.addr.toNat else 0x3F)
    (s.setWord FLT_FATIME (s.devtime.setWidth 32)).evt FLT_FATAL_VALID

/-- The grace timer of a source starts, one that runs is not restarted (R400). -/
def State.startGrace (s : State) (src : Fin 64) : State :=
  if s.flt.timers.getLsbD src.val then s
  else { s with flt := { s.flt with timers := s.flt.timers ||| (1 <<< src.val), graceAt := s.flt.graceAt.set src s.devtime } }

/-- Record the events of one SAFE cycle (R394, R395, R397, R398, R400, R402, R404, R407, R412). -/
def State.recordEvents (s : State) (raw : List FltEvent) : State :=
  let l := mergeEvents raw
  let fatal := bestEvent (l.filter (fun e => e.cls == .fatal))
  let s := s.each raw (fun t e => (t.setSrc FLT_STATUS_LO FLT_STATUS_HI e.src).countSrc e.src)
  let grace := s.started && s.running && fatal.isNone
  let s := s.each (l.filter (fun e => e.cls == .contained)) (fun t e =>
    let t := t.setSrc FLT_PEND_LO FLT_PEND_HI e.src
    if grace then t.startGrace e.src else t)
  let first := if s.on FLT_FIRST_VALID then none else bestEvent l
  let rest := match first with
    | some e => dropEvent e l
    | none => l
  let s := match first with
    | some e => s.capture e
    | none => s
  let s := s.each rest (fun t _ => (t.setOn FLT_FIRST_MULTI true).count FLT_MULTI_MULTICNT)
  let s := match fatal with
    | some e => s.captureFatal e
    | none => s
  let s := if l.any (fun e => s.qualifies e.cls) then s.faultPulse else s
  match fatal with
  | some e => if s.flt.level then s else s.safeEntry.fatalEntry e.src.val
  | none => s

/-- Record in one SAFE cycle what is at the collector inputs; a step of start-up does so at its end (R392, R402, R412).
DEDUCED, log entry 141. -/
def State.collect (s : State) : State :=
  if s.flt.lines.isEmpty then s else ({ s with flt := { s.flt with lines := [] } }).recordEvents s.flt.lines

/-- FAULT_EVENT (R392 to R398, R400, R402, R404): every event at the collector inputs is recorded in one SAFE cycle. -/
def execFaultEvent (s : State) : Host.Outcome State Fault Refusal :=
  .next s.collect

/-- One hardware event recorded in its own cycle. -/
def State.recordFault (s : State) (src : Fin 64) (addr : Nat) (master : Byte := 0) : State :=
  s.recordEvents [⟨src, fltClass src, BitVec.ofNat 32 addr, master, 0, false⟩]

/-! ### Grace -/

/-- Both words of FLT_PEND as one. -/
def State.pend (s : State) : BitVec 64 := s.word FLT_PEND_HI ++ s.word FLT_PEND_LO

/-- Clear PEND bits and stop their timers. -/
def State.clearPend (s : State) (m : BitVec 64) : State :=
  let p := s.pend &&& ~~~ m
  let s := (s.setWord FLT_PEND_LO (p.setWidth 32)).setWord FLT_PEND_HI ((p >>> 32).setWidth 32)
  { s with flt := { s.flt with timers := s.flt.timers &&& ~~~ m } }

/-- The grace timer of a pending source may have run out: GRACE µs have passed, less the 1 % by which SAFE may run fast (R356, R400).
DEDUCED, log entry 123. -/
def State.graceOver (s : State) (i : Fin 64) : Bool :=
  s.flt.timers.getLsbD i.val && s.pend.getLsbD i.val &&
  decide (99 * orZero 1 (s.fld FLT_CFG_GRACE) ≤ (s.devtime - s.flt.graceAt[i]).toNat)

/-- GRACE_EXPIRE (R400 to R402): the timers that expire in one cycle as SAFE has timed them; the lowest source is named. DEDUCED, log
entry 123. -/
def execGraceExpire (mask : BitVec 64) (s : State) : Host.Outcome State Fault Refusal :=
  .next (
    let due := finsWhere (fun i : Fin 64 => mask.getLsbD i.val && s.graceOver i)
    if !s.running then s
    else match due with
      | [] => s
      | i :: _ => (s.each due (fun t i => t.clearPend (1#64 <<< i.val))).recordFault srcGRACE_EXP i.val)

/-- FLT_AUTO_ACK (R400): the owning block of a source with its FLT_AUTO bit set reports that containment has ended. -/
def execFltAutoAck (src : Fin 64) (s : State) : Host.Outcome State Fault Refusal :=
  .next (if s.srcBit FLT_AUTO_LO FLT_AUTO_HI src then s.clearPend (1 <<< src.val) else s)

/-! ### FAULT_N events -/

/-- FAULT_PULSE_END (R407): PULSEW, at least 10 µs, has passed. -/
def execFaultPulseEnd (s : State) : Host.Outcome State Fault Refusal :=
  .next (
    if s.flt.pulse && s.running && s.pinPast (1000 * orZero 1 (s.fld FLT_CFG_PULSEW)) then
      ({ s with flt := { s.flt with pulse := false } }).setFaultN (s.on FLT_PIN_DRIVE)
    else s)

/-- FAULT_N_HEARTBEAT (R356, R407): 500 µs, within 1 %, since its last edge. -/
def execFaultNHeartbeat (s : State) : Host.Outcome State Fault Refusal :=
  .next (if s.on FLT_PIN_HBRUN && s.pinPast 49500 then (s.setFaultN (!s.on FLT_PIN_LOW)).pinNow else s)

/-- A write to FLT_PIN (R407): RESUME restarts the heartbeat from its low half while no PEND bit is set; DRIVE acts in Compact. -/
def State.pinWrite (s : State) (resume : Bool) : State :=
  if !s.running then s
  else if s.fullClass then
    (if resume && !s.anyPend then s.heartbeat else s)
  else if s.flt.pulse then s else s.setFaultN (s.on FLT_PIN_DRIVE)

/-! ### The collector and its clocks -/

/-- WATCHDOG_EXPIRE (R408): frozen while a debugger halts the control processor. -/
def execWatchdogExpire (s : State) : Host.Outcome State Fault Refusal :=
  .next (if s.flt.halted || !s.powered then s else s.recordFault srcCP_WDT 0)

/-- A parity error or uncorrectable error in the collector (R398, R409): outside grace and the first-error capture, but the FATAL capture takes
it. -/
def State.collectorBad (s : State) (w : Byte) : State :=
  let s := { s with flt := { s.flt with upset := none } }
  let s := ((s.setOn FLT_SELF_ERR true).setFld FLT_SELF_WORD w.toNat).setSrc FLT_STATUS_LO FLT_STATUS_HI srcFLT_SELF
  let s := s.captureFatal ⟨srcFLT_SELF, .fatal, 0, 0, 0, false⟩
  if s.flt.level then s else s.safeEntry.fatalEntry srcFLT_SELF.val

/-- An access to a collector register checks its word (R409). DESIGN CHOICE, log entry 156. -/
def State.checkWord (s : State) (off : Nat) : State :=
  match s.flt.upset with
  | some w => if 0x0800 ≤ off ∧ off < 0x1000 ∧ (off - 0x0800) / 4 = w.toNat then s.collectorBad w else s
  | none => s

/-- COLLECTOR_SELF_CHECK (R409): the scan of every 100 µs, with the failing word if there is one. -/
def execCollectorSelfCheck (bad : CollScan) (s : State) : Host.Outcome State Fault Refusal :=
  .next (
    if !s.powered then s
    else match bad, s.flt.upset with
      | .found w, _ => s.collectorBad w
      | _, some w => s.collectorBad w
      | .later w, none => { s with flt := { s.flt with upset := some w } }
      | .clean, none => s)

/-- SAFE_CLOCK_LOSS (R410): no event is recorded. -/
def execSafeClockLoss (s : State) : Host.Outcome State Fault Refusal :=
  .next (if s.powered then (s.setOn FLT_SELF_SAFECLK true).safeEntry.faultHeld else s)

/-- D2D_RETRY (R16, R392): the first retry in any 1 ms raises the event. -/
def execD2dRetry (s : State) : Host.Outcome State Fault Refusal :=
  .next (
    let recent := match s.flt.retryAt with
      | some t => decide ((s.devtime - t).toNat < 100000)
      | none => false
    if recent || !s.sys.d2d then s
    else ({ s with flt := { s.flt with retryAt := some s.devtime } }).fault srcD2D_RETRY 0)

/-- Anvil's safe state holds every trip wire in the trip state (R17). -/
def State.tripAll (s : State) : State := s.each (List.finRange 16) (fun t n => t.modPh n (fun p => { p with trip := true }))

/-- D2D_LINK_LOSS (R17, R396): each die takes the safe state, Anvil holding every trip wire in the trip state; the master is the link. -/
def execD2dLinkLoss (s : State) : Host.Outcome State Fault Refusal :=
  .next (
    if s.sys.d2d then
      ({ s with sys := { s.sys with d2d := false } }).tripAll.recordFault srcD2D_LINK 0 0x07
    else s)

/-- A window of 16 µs in which REF counted more than 5 % off its nominal 400 cycles (R27, R29). -/
def refOff (count : Nat) : Bool := decide (count < 380) || decide (420 < count)

/-- REF_LOSS (R29): the REF cycles counted in two consecutive windows. -/
def execRefLoss (c0 c1 : Nat) (s : State) : Host.Outcome State Fault Refusal :=
  .next (if s.powered && refOff c0 && refOff c1 then s.recordFault srcREF_LOSS c1 else s)

/-- ANVIL_OVERTEMP (R17, R355): Anvil takes the safe state on its own authority, and reports where the link is up. -/
def execAnvilOvertemp (s : State) : Host.Outcome State Fault Refusal :=
  .next (if !s.powered then s else if s.sys.d2d then s.tripAll.recordFault srcTHM_ANVIL 0 else s.tripAll.safeEntry)

end Sys2Proof.Machine
end

