-- ==== Sys2Proof/Machine/Thermal.lean ====
section
/-! DEFINITION. Temperature sensing and thermal management (ch. 12). Sensor codes are in 0.0625 °C. -/

namespace Sys2Proof.Machine

/-! ### The die -/

/-- Sensors of a die: 0 to 3 Anvil, 4 to 8 Cirrus (R345). -/
def dieSensors (cirrus : Bool) : List (Fin 9) := (List.finRange 9).filter (fun i => decide (4 ≤ i.val) == cirrus)

/-- A sensor is VALID. -/
def State.tsValid (s : State) (i : Fin 9) : Bool := s.fld (THM_TS_STATE i) == 0
/-- Its last reading, 0.0625 °C. -/
def State.tsCode (s : State) (i : Fin 9) : Int := s.sfld (THM_TS_T i)

/-- Insert into a rising list. -/
def insertInt (x : Int) : List Int → List Int
  | [] => [x]
  | y :: l => if x ≤ y then x :: y :: l else y :: insertInt x l

/-- The median of a list, the mean of the middle two of an even number (R348). -/
def medianOf (l : List Int) : Option Rat :=
  let r := l.foldr insertInt []
  let n := r.length
  match r[(n - 1) / 2]?, r[n / 2]? with
  | some a, some b => some (((a + b : Int) : Rat) / 2)
  | _, _ => none

/-- The highest of some readings, 0 of none. -/
def highest (l : List Int) : Int := l.foldl max (l.headD 0)

/-- Compare one sensor with the median of the valid others of its die (R348). `ok` says which sensors were VALID before this set of
readings. -/
def State.crossCheck (s : State) (ok : Fin 9 → Bool) (i : Fin 9) : State :=
  let others := (dieSensors (decide (4 ≤ i.val))).filter (fun j => j != i && ok j)
  match medianOf (others.map s.tsCode) with
  | none => if s.fld (THM_TS_STATE i) = 2 then s.setFld (THM_TS_STATE i) 0 else s
  | some m =>
    let d := (s.tsCode i : Rat) - m
    let far := decide (128 < d) || decide (d < -128)
    let near := decide (-64 ≤ d) && decide (d ≤ 64)
    let s := s.setScode (THM_TS_DEV i) (d / 16)
    let s := { s with
      thm := { s.thm with
        diff := vmod s.thm.diff i (fun n => if far then n + 1 else 0), good := vmod s.thm.good i (fun n => if near then n + 1 else 0) } }
    if s.fld (THM_TS_STATE i) = 1 then
      (if 100 ≤ s.thm.good[i] then s.setFld (THM_TS_STATE i) 0 else s)
    else if 3 ≤ s.thm.diff[i] then
      let s := { s with thm := { s.thm with good := vmod s.thm.good i (fun _ => 0) } }
      (((s.setFld (THM_TS_STATE i) 1).evt THM_EVT_SUSPECT).count THM_CNT_SUSPN).fault srcTHM_SUSPECT i.val
    else s.setFld (THM_TS_STATE i) 0

/-- Valid sensors of a die. -/
def State.dieValid (s : State) (cirrus : Bool) : List (Fin 9) := (dieSensors cirrus).filter s.tsValid

/-- The temperature of a die by the sensors that were not SUSPECT when the reading came (R349, R357). -/
def State.dieT (s : State) (ok : Fin 9 → Bool) (cirrus : Bool) : Int :=
  let v := (dieSensors cirrus).filter ok
  highest ((if v.length < 2 then dieSensors cirrus else v).map s.tsCode)

/-- THM_NOXCHK as a die comes to have fewer than two VALID sensors (R349). -/
def State.noXchk (s : State) (cirrus had : Bool) : State :=
  if had && decide ((s.dieValid cirrus).length < 2) then
    (s.evt THM_EVT_NOXCHK).fault srcTHM_NOXCHK (if cirrus then 1 else 0)
  else s

/-- The threshold of a die level, °C: one below the level beneath it acts as that (R350). -/
def State.dieThr (s : State) : Nat → Nat
  | 0 => 0
  | 1 => s.fld THM_DIE_T1
  | 2 => max (s.fld THM_DIE_T1) (s.fld THM_DIE_T2)
  | 3 => max (max (s.fld THM_DIE_T1) (s.fld THM_DIE_T2)) (s.fld THM_DIE_T3)
  | 4 => max (max (max (s.fld THM_DIE_T1) (s.fld THM_DIE_T2)) (s.fld THM_DIE_T3)) (s.fld THM_DIE_T4)
  | _ => max (max (max (max (s.fld THM_DIE_T1) (s.fld THM_DIE_T2)) (s.fld THM_DIE_T3)) (s.fld THM_DIE_T4)) (s.fld THM_STOP_TSTOP)

/-- The highest level in force at a TJ (R350). -/
def State.dieLevel (s : State) (tj : Int) : Nat :=
  let now := s.fld THM_STAT_LEVEL
  let holds (l : Nat) : Bool :=
    let t : Int := 16 * s.dieThr l
    if l ≤ now then decide (t - 16 * orZero 1 (s.fld THM_STOP_HYS) ≤ tj) else decide (t ≤ tj)
  (([5, 4, 3, 2, 1].find? holds).getD 0)

/-- The least-squares slope of readings 1 ms apart, newest first, in codes per ms (R354). -/
def slopeOf (l : List Int) : Option Rat :=
  let n := l.length
  if n < 2 then none
  else
    let ys : List (Rat × Rat) := (l.zip (List.range n)).map (fun p => (-(p.2 : Rat), (p.1 : Rat)))
    let sx := ys.foldl (fun a p => a + p.1) 0
    let sy := ys.foldl (fun a p => a + p.2) 0
    let sxy := ys.foldl (fun a p => a + p.1 * p.2) 0
    let sxx := ys.foldl (fun a p => a + p.1 * p.1) 0
    some (divR ((n : Rat) * sxy - sx * sy) ((n : Rat) * sxx - sx * sx))

/-- TTRIP in ms, none where it is unbounded (R354). -/
def State.ttrip (s : State) (tj : Int) : Option Rat :=
  match slopeOf s.thm.hist with
  | some c => if 1 / 20 < c / 16 then some ((2400 - tj) / c) else none
  | none => none

/-- The orderly stop (R354, R357): throttles, phases and pack FETs, the pending entries and THERMAL_STOP, then THM_STOP, recorded in its
cycle; a running stop sequence goes to its end first. DEDUCED, log entry 142. -/
def State.orderlyStop (s : State) (tj : Int) (trip : Nat) : State :=
  match s.sys.seq with
  | some q => ({ s with sys := { s.sys with seq := some { q with tstop := some (tj / 16, trip) } } }).setOn THM_STAT_STOPPING true
  | none => ((s.setOn THM_STAT_STOPPING true).portsOff.thermalEnd (tj / 16) trip).collect

/-- A VALID sensor reads 150 °C or more (R354). -/
def State.hardTrip (s : State) : Bool := (List.finRange 9).any (fun i => s.tsValid i && decide (2400 ≤ s.tsCode i))

/-- The level of a TJ takes effect: LEVEL, the clock throttle, and the blocks that follow it (R350, R351, R353). -/
def State.setLevel (s : State) (tj : Int) : State :=
  let old := s.fld THM_STAT_LEVEL
  let new := s.dieLevel tj
  let s := s.setFld THM_STAT_LEVEL new
  let s := if old < new then s.evt THM_EVT_LEVEL else s
  let clk := decide (4 ≤ new) && !(s.fld THM_ACT_CORESEL == 3 && s.fld THM_ACT_FCSEL == 3)
  let s := if clk && !s.thm.clk then (s.evt THM_EVT_CLK).count THM_CNT_CLKN else s
  let s := { s with thm := { s.thm with clk := clk } }
  if old = new then s else (s.each (List.finRange 2) (fun t k => t.gustLoss k)).budgetDrop

/-- TTRIP as THM_STAT codes it (R354). -/
def ttripCode : Option Rat → Nat
  | some x => if x < 0 then 0 else if 254 < x then 255 else x.floor.toNat
  | none => 255

/-- The actions of a TJ (R350, R354): its level, TTRIP, and the shutdown of a hard trip, whatever else is in progress, or of TSTOP reached. -/
def State.dieActions (s : State) (tj : Int) : State :=
  let old := s.fld THM_STAT_LEVEL
  let s := s.setLevel tj
  let t := s.ttrip tj
  let s := s.setFld THM_STAT_TTRIP (ttripCode t)
  let reached := old != 5 && s.fld THM_STAT_LEVEL == 5
  let soon := match t with
    | some x => decide (x ≤ 2)
    | none => false
  let deg := (BitVec.ofInt 32 (tj / 16)).toNat
  let s := if reached then s.evt THM_EVT_STOP else s
  if s.hardTrip || (reached && soon) then s.fault srcTHM_TRIP deg
  else if reached then s.orderlyStop tj (ttripCode t)
  else s

/-- ADCB has converted TS0 to TS3, channels 38 to 41, since the last reset (R331, R345). -/
def State.anvilRead (s : State) : Bool := [38, 39, 40, 41].all (fun c => s.meas.seen.getLsbD c)

/-- DIE_TEMP_READING (R345, R348 to R351, R353, R354, R357): every 1 ms; the voltages of TS0 to TS3 after fuse trim, once they have been
converted, and the codes of TS4 to TS8. DESIGN CHOICE, log entry 129. -/
def execDieTempReading (tc : Vector Int 5) (s : State) : Host.Outcome State Fault Refusal :=
  .next (
    if !s.awake then s
    else
      let read : List Rat :=
        (List.range 4).map (fun i => 16 * (25 + (7 / 10 - s.meas.v[Fin.ofNat 48 (38 + i)]) * 500)) ++ tc.toList.map (fun (c : Int) => (c : Rat))
      let all := s.anvilRead
      let on : List (Fin 9) := if all then List.finRange 9 else dieSensors true
      let s := s.each (((List.finRange 9).zip read).filter (fun p => on.contains p.1)) (fun t p => t.setScode (THM_TS_T p.1) p.2)
      let ok (i : Fin 9) : Bool := s.fld (THM_TS_STATE i) != 1
      let had (d : Bool) : Bool := decide (2 ≤ (s.dieValid d).length) || (dieSensors d).all (fun i => s.fld (THM_TS_STATE i) == 2)
      let hadA := all && had false
      let hadC := had true
      let s := s.each on (fun t i => t.crossCheck ok i)
      let s := (s.noXchk false hadA).noXchk true hadC
      let a := s.dieT ok false
      let c := s.dieT ok true
      let tj := if all then max a c else c
      let s := { s with thm := { s.thm with hist := (tj :: s.thm.hist).take 8 } }
      let s := ((s.setSfld THM_SUM_TJ (tj / 16)).setSfld THM_SUM_TJA (a / 16)).setSfld THM_SUM_TJC (c / 16)
      let s := if (s.fld THM_SUM_PEAK : Int) < tj / 16 then s.setFld THM_SUM_PEAK (min 255 (tj / 16).toNat) else s
      s.dieActions tj)

/-! ### Stages -/

/-- A phase is excluded (R346, R352): it stops and is unavailable, IPL falls, and power is cut where the port carries more. -/
def State.exclude (s : State) (n : Fin 16) : State :=
  if s.thm.excl.getLsbD n then s
  else
    let port := if s.fld (PH_CFG_PORT n) = 0 then some (0 : Fin 2) else if s.fld (PH_CFG_PORT n) = 1 then some 1 else none
    let before := fun (k : Fin 2) => s.ipl k
    let s := { s with thm := { s.thm with excl := s.thm.excl ||| (1 <<< n.val) } }
    let s := s.evt THM_EVT_EXCL
    let s := if s.phSwitching n || s.phSt n == .waking || s.phSt n == .test then s.setPh n (s.restPh n) else s
    match port with
    | none => s
    | some k =>
      let s := s.syncPort k
      let s := if s.ipl k < before k then s.evt (PHP_EVT_LIMSCALE k) else s
      ((s.cutPower k).gustLoss k).syncElig k

/-- A running phase's stage has reached TSTG2 and not been released, which holds a port's cap down (R352). -/
def State.capped (s : State) (k : Fin 2) : Bool := (finsWhere (s.phRun k)).any (fun n => s.thm.cap.getLsbD n)

/-- Does a running phase's stage stand at TSTG2 or above (R352)? -/
def State.capHot (s : State) (k : Fin 2) : Bool :=
  (finsWhere (s.phRun k)).any (fun n => decide ((s.fld THM_STG_TSTG2 : Int) ≤ s.sfld (PH_STAT_TSTAGE n)))

/-- NCAP falls by one, down to 1, and the phases above it shed at once (R136, R352). -/
def State.capFall (s : State) (k : Fin 2) : State :=
  let now := min (s.fld (PHP_SHED_NMAX k)) s.php[k].ncap
  if now ≤ 1 then s
  else
    let s := (((s.modPhp k (fun p => { p with ncap := now - 1, ncapAt := s.devtime })).evt THM_EVT_CAP).count THM_CNT_CAPN).syncPort k
    (s.capShed k 16).syncElig k

/-- A valid stage temperature acts (R346, R352): it ends an exclusion for want of one, not one by TSTG3 that stands. -/
def State.stageActions (s : State) (n : Fin 16) (t : Rat) : State :=
  let port := if s.fld (PH_CFG_PORT n) = 0 then some (0 : Fin 2) else if s.fld (PH_CFG_PORT n) = 1 then some 1 else none
  let run := s.phSwitching n
  let past (was : Bool) (f : Fld) (hys : Rat) : Bool :=
    let thr : Rat := s.fld f
    if was then decide (thr - hys ≤ t) else decide (thr ≤ t)
  let put (m : BitVec 16) (b : Bool) : BitVec 16 := if b then m ||| (1#16 <<< n.val) else m &&& ~~~ (1#16 <<< n.val)
  let skip := run && past (s.thm.skip.getLsbD n) THM_STG_TSTG1 5
  let wasCap := s.thm.cap.getLsbD n
  let cap := past wasCap THM_STG_TSTG2 5
  let hot := past (s.thm.hot.getLsbD n) THM_STG_TSTG3 10
  let wasPort := match port with
    | some k => s.capped k
    | none => true
  let s := { s with thm := { s.thm with
      skip := put s.thm.skip skip, cap := put s.thm.cap cap, hot := put s.thm.hot hot
      stgBad := vmod s.thm.stgBad n (fun _ => 0) } }
  let s := s.setFld THM_STAT_SKIPMAP s.thm.skip.toNat
  let s := match port with
    | some k =>
      if !wasPort && s.capped k then s.capFall k
      else if wasPort && !s.capped k then s.modPhp k (fun p => { p with ncapAt := s.devtime })
      else s
    | none => s
  if hot then s.exclude n
  else if s.thm.excl.getLsbD n then
    ({ s with thm := { s.thm with excl := put s.thm.excl false } }).syncPorts
  else s

/-- STAGE_TEMP_READING (R117, R346, R352): the TFLT voltage of a phase as ADCB has read it. -/
def execStageTempReading (n : Fin 16) (s : State) : Host.Outcome State Fault Refusal :=
  .next (
    let v := s.meas.tflt[n]
    if !s.awake || !s.meas.tseen.getLsbD n then s
    else if 12 / 5 < v then s
    else if v < 28 / 100 then
      let s := { s with thm := { s.thm with stgBad := vmod s.thm.stgBad n (fun b => b + 1) } }
      let s := s.evt THM_EVT_STGINV
      if s.thm.stgBad[n] = 10 then s.exclude n else s
    else
      let t : Rat := if 9 / 5 ≤ v then 150 else 25 + (v - 8 / 10) * 125
      (s.setScode (PH_STAT_TSTAGE n) t).stageActions n t)

/-- NCAP_STEP (R352): 10 ms at TSTG2, or 100 ms after the release, have passed since the last step; between the release and TSTG2 NCAP
stays. -/
def execNcapStep (k : Fin 2) (s : State) : Host.Outcome State Fault Refusal :=
  .next (
    let ago := (s.devtime - s.php[k].ncapAt).toNat
    if s.capped k then (if ago < 1000000 ∨ s.capHot k = false then s else s.capFall k)
    else if ago < 10000000 then s
    else if s.php[k].ncap < s.fld (PHP_SHED_NMAX k) then (s.modPhp k (fun p => { p with ncap := p.ncap + 1, ncapAt := s.devtime })).syncPort k
    else (s.modPhp k (fun p => { p with ncap := 16 })).syncPort k)

/-! ### Compensation -/

/-- The temperature a correction follows (R345, R356): TS0, TS2, TS4 or TS2, °C, or the median of its die while that sensor is
SUSPECT; none while no sensor of the die is VALID. -/
def State.compTemp (s : State) (q : Fin 4) : Option Rat :=
  let i : Fin 9 := match q with
    | 0 => 0
    | 2 => 4
    | _ => 2
  if s.tsValid i then some ((s.tsCode i : Rat) / 16) else (medianOf ((s.dieValid (q == 2)).map s.tsCode)).map (· / 16)

/-- One update moves a correction toward the code its coefficients ask for, by at most `lim` codes (R356). -/
def toward (now want lim : Int) : Int := now + max (-lim) (min lim (want - now))

/-- THERMAL_COMP_UPDATE (R356): bandgap, REF, SAFE or AON, toward the code the fuse coefficients ask for at the temperature of the
sensor beside it; a step is at most 40 µV, 0.25 ppm, 0.05 % or 0.1 %. With no VALID sensor on the die it holds its last value. DESIGN
CHOICE, log entry 79. -/
def execThermalCompUpdate (q : Fin 4) (s : State) : Host.Outcome State Fault Refusal :=
  .next (
    if !s.awake then s
    else
      let s := s.setOn THM_COMP_HOLD ((List.finRange 4).any (fun i => (s.compTemp i).isNone))
      match s.compTemp q with
      | none => s
      | some t =>
        let want := Config.compCode q.val t
        let step (f : Fld) (lim : Int) : State := s.setSfld f (toward (s.sfld f) want lim)
        match q with
        | 0 => step THM_COMP_BG 2
        | 1 => if s.on SYS_STRAP_XOSEL then s else step THM_COMP_REF 1
        | 2 => step THM_COMP_SAFE 1
        | 3 => { s with aon := { s.aon with trim := toward s.aon.trim want 1 } })

/-! ### The clock throttle -/

/-- The share of its rate a clock keeps under a setting of CORESEL or FCSEL (R353, R358): ÷2; ÷4; one cycle skipped in SKIPN; none. -/
def throttled (sel skipn : Nat) : Rat :=
  match sel with
  | 0 => 1 / 2
  | 1 => 1 / 4
  | 2 =>
    let n := if skipn = 0 then 16 else max 2 skipn
    1 - 1 / (n : Rat)
  | _ => 1

/-- The share of their rates CORE and FCLK keep now (R350, R353): all of them below level 4. -/
def State.coreRate (s : State) : Rat := if s.thm.clk then throttled (s.fld THM_ACT_CORESEL) (s.fld THM_ACT_SKIPN) else 1
@[inherit_doc State.coreRate] def State.fclkRate (s : State) : Rat :=
  if s.thm.clk then throttled (s.fld THM_ACT_FCSEL) (s.fld THM_ACT_SKIPN) else 1

end Sys2Proof.Machine
end

