-- ==== Sys2Proof/Machine/Analog.lean ====
section
/-! DEFINITION. The window comparators and the conversion subsystem (ch. 11), with what an ADCB pass brings to the packs (R197, R208,
R347) and to the seal (R416, R417). Conversion times are in ns. -/

namespace Sys2Proof.Machine

/-! ### Comparators -/

/-- Where an asserted output of comparator c goes (R318, R324): to its feed, its pack port, its phase, the collector, the trigger matrix. -/
def State.cmpRoute (s : State) (c : Fin 48) (upper : Bool) : State :=
  if c.val < 16 then s
  else if h : c.val < 20 then (if upper then s.feedOv ⟨c.val - 16, by omega⟩ else s.feedUv ⟨c.val - 16, by omega⟩)
  else if h : c.val < 24 then (if upper then s.feedShort ⟨c.val - 20, by omega⟩ else s.feedReverse ⟨c.val - 20, by omega⟩)
  else if h : c.val < 26 then (if upper then s.packOcc ⟨c.val - 24, by omega⟩ true else s.packShort ⟨c.val - 24, by omega⟩ true)
  else if h : c.val < 28 then (if upper then s.packOv ⟨c.val - 26, by omega⟩ true else s.packUv ⟨c.val - 26, by omega⟩ true)
  else if c.val = 28 then (if upper then s else s.fault srcBUS_UV 0)
  else if h : c.val < 45 then
    (if upper then (s.evt (PH_EVT_STAGEF (c.val - 29))).markLost ⟨c.val - 29, by omega⟩ 4 else s)
  else if c.val = 45 then s.fault (if upper then srcBIAS_OV else srcBIAS_LOW) 0
  else
    let s := s.sourceEdge (if upper then c.val - 37 else c.val - 35)
    if s.on (CMP_CFG_FLTEN c) then s.fault srcCMP_GP c.val else s

/-- The input of a comparator is at code `x`: each output that does not hold its state follows it; a newly asserted one is reported and
goes where R324 sends it, and any other moment may swap a stage in (R321, R324, R343). -/
def State.cmpInput (s : State) (c : Fin 48) (x : Int) : State :=
  let s := s.modCmp c (fun m => { m with x := some x })
  let (lo, hi) := s.thr c
  let new (upper : Bool) (d : Int) : Nat :=
    let st := s.fld (if upper then CMP_STAT_HISTATE c else CMP_STAT_LOSTATE c)
    if s.cmpHeld c upper then st else cmpNext (s.cmpHys c) st d
  let nlo := new false (lo - x)
  let nhi := new true (x - hi)
  let rlo := nlo == 1 && s.fld (CMP_STAT_LOSTATE c) == 0
  let rhi := nhi == 1 && s.fld (CMP_STAT_HISTATE c) == 0
  let s := if rlo then s.cmpAssert c false else s.setFld (CMP_STAT_LOSTATE c) nlo
  let s := if rhi then s.cmpAssert c true else s.setFld (CMP_STAT_HISTATE c) nhi
  let s := if rlo then s.cmpRoute c false else s
  let s := if rhi then s.cmpRoute c true else s
  if rlo || rhi then s else s.trySwap c

/-- Blanking or settling ends: the outputs take the state of the input at once, an assertion that came meanwhile where it still lasts
(R323, R325, R343). -/
def State.cmpFollow (s : State) (c : Fin 48) : State :=
  match s.cmp[c].late, s.cmp[c].x with
  | some (up, till), _ =>
    let s := s.modCmp c (fun m => { m with late := none })
    if s.devtime < till && !s.cmpHeld c up then (if s.cmpOut c up then s else (s.cmpAssert c up).cmpRoute c up) else s.trySwap c
  | none, some x => s.cmpInput c x
  | none, none => s.trySwap c

/-- A threshold or the hysteresis of comparator c has changed: its input as last seen is held against it (R343). -/
def State.rethresh (s : State) (c : Fin 48) : State :=
  match s.cmp[c].x with
  | some x => s.cmpInput c x
  | none => s

/-- The code of a mux channel's voltage at its scaled node, as comparators 46 and 47 see it (R318, R319). -/
def gpCode (gain v : Rat) : Int := (v * gain * 1024 / (5 / 2)).floor

/-- The comparator that watches the node of a mux channel, with the code of a voltage there: no phase current, whose rows bring its every
crossing (R318, R319, R331). -/
def cmpNode (ch : Nat) (alt : Bool) (v : Rat) : Option (Fin 48 × Int) :=
  if h : ch < 4 then some (⟨16 + ch, by omega⟩, (v * 10).floor)
  else if h : 8 ≤ ch ∧ ch < 12 then some (⟨12 + ch, by omega⟩, 200 + (v * 8000).floor)
  else if ch = 12 then some (28, (v * 100 / 8).floor)
  else if h : ch = 13 ∨ ch = 14 then some (⟨13 + ch, by omega⟩, (v * 10).floor)
  else if h : 15 ≤ ch ∧ ch < 31 then (if alt then some (⟨14 + ch, by omega⟩, (v * 250).floor) else none)
  else if ch = 44 then some (45, (v * 125).floor)
  else none

/-- What a conversion of a mux channel, `v` volts at its ball, shows the comparators on that node, 46 and 47 among them where INSEL names the
channel (R318, R324). DESIGN CHOICE, log entry 146. -/
def State.nodeSeen (s : State) (ch : Nat) (alt : Bool) (gain v : Rat) : State :=
  let s := match cmpNode ch alt v with
    | some (c, x) => s.cmpSee c x
    | none => s
  s.each [(46 : Fin 48), 47] (fun t c => if t.fld (CMP_CFG_INSEL c) = ch ∧ !alt then t.cmpInput c (gpCode gain v) else t)

/-- CMP_GP_EVENT (R318, R321, R323 to R325): the input of comparator 46 or 47, the node INSEL names, is at DAC code `x` for `w` ns; one
shorter than the filter is suppressed (R326). -/
def execCmpGpEvent (g : Fin 2) (x : Int) (w : Nat) (s : State) : Host.Outcome State Fault Refusal :=
  .next (
    let c : Fin 48 := ⟨46 + g.val, by omega⟩
    if !s.awake || !s.heard c w then s else s.cmpInput c x)

/-- An output that only reports asserts for `w` ns, with its fault (R318, R324 to R326). -/
def State.cmpFault (s : State) (c : Fin 48) (upper : Bool) (w : Nat) : State :=
  if !s.awake then s
  else
    let (told, s) := s.cmpRow c upper w
    if told then s.cmpRoute c upper else s

/-- BUS_UV (R318). -/
def execBusUv (w : Nat) (s : State) : Host.Outcome State Fault Refusal := .next (s.cmpFault 28 false w)
/-- BIAS_LOW (R318). -/
def execBiasLow (w : Nat) (s : State) : Host.Outcome State Fault Refusal := .next (s.cmpFault 45 false w)
/-- BIAS_OV (R318). -/
def execBiasOv (w : Nat) (s : State) : Host.Outcome State Fault Refusal := .next (s.cmpFault 45 true w)

/-- Timer blanking of a comparator begins or ends (R325). -/
def State.blank (s : State) (c : Fin 48) (on : Bool) : State :=
  if on then (s.modCmp c (fun m => { m with blankAt := s.devtime, late := none })).setOn (CMP_STAT_BLANK c) true
  else if s.on (CMP_STAT_BLANK c) then (s.setOn (CMP_STAT_BLANK c) false).cmpFollow c
  else s

/-- A comparator that timers can blank (R325). -/
def blanks (c : Nat) : Bool := blankable c true || blankable c false

/-- The blanking output of timer `n` changes for the comparators whose BLKSRC names it (R325). -/
def State.blankBy (s : State) (n : Fin 8) (on : Bool) : State :=
  s.each (finsWhere (fun c : Fin 48 => blanks c.val && s.fld (CMP_CFG_BLKSRC c.val) == n.val + 1)) (fun t c => t.blank c on)

/-- BLKSRC of a comparator names another timer, or none: its blanking follows that one's output (R325). -/
def State.reblank (s : State) (c : Fin 48) : State :=
  let n := s.fld (CMP_CFG_BLKSRC c)
  s.blank c (blanks c && (if h : 1 ≤ n ∧ n ≤ 8 then s.tmr[(⟨n - 1, by omega⟩ : Fin 8)].blk else false))

/-- BLANKING_INTERVAL_END (R325): 1.0 µs after it began, on a comparator other than 46 and 47; its input is at code `x`. -/
def execBlankingIntervalEnd (c : Fin 48) (x : Int) (s : State) : Host.Outcome State Fault Refusal :=
  .next (if c.val < 46 && s.on (CMP_STAT_BLANK c) && decide (100 ≤ (s.devtime - s.cmp[c].blankAt).toNat) then
    ((s.modCmp c (fun m => { m with late := none })).setOn (CMP_STAT_BLANK c) false).cmpInput c x
    else s)

/-- MODE of comparator 46 or 47 has changed from `was`: its outputs hold until it settles, 500 ns to a faster mode and 100 ns to a slower
one (R323, R343). -/
def State.modeChanged (s : State) (c : Fin 48) (was : Nat) : State :=
  let now := s.fld (CMP_CFG_MODE c)
  if now = was then s
  else s.modCmp c (fun m => { m with settle := some (s.devtime + (if now < was then 50 else 10)), late := none })

/-- The comparators whose settling ends at this count of DEVTIME follow their inputs (R323, R343). -/
def State.settled (s : State) : State :=
  s.each (finsWhere (fun c : Fin 48 => s.cmp[c].settle == some s.devtime)) (fun t c =>
    (t.modCmp c (fun m => { m with settle := none })).cmpFollow c)

/-- INSEL of comparator 46 or 47 names another channel (R318): its input is that channel's voltage as last converted. -/
def State.inselChanged (s : State) (c : Fin 48) (gain : Rat) : State :=
  let ch := min 47 (s.fld (CMP_CFG_INSEL c))
  let i : Fin 48 := Fin.ofNat 48 ch
  if s.meas.seen.getLsbD ch then s.cmpInput c (gpCode gain s.meas.raw[i]) else s.cmpForget c

/-- COMPARATOR_AUTOZERO (R327, R328): the spare stage of a comparator is nulled at a trim with the input at code `x`, and swapped in once
both stages agree; a failed one is not. DEDUCED, log entry 83. -/
def execComparatorAutozero (c : Fin 48) (trim x : Int) (s : State) : Host.Outcome State Fault Refusal :=
  .next (
    if !s.awake then s
    else
      let toB := !s.on (CMP_STAT_LIVE c)
      let f := if toB then CMP_STAT_TRIMB c else CMP_STAT_TRIMA c
      let old := s.sfld f
      let trim := max (-31) (min 31 trim)
      let bad := decide (31 ≤ trim) || decide (trim ≤ -31) || decide (4 < trim - old) || decide (trim - old < -4)
      let s := s.setSfld f trim
      let note (h : CmpH) : CmpH :=
        let h := { h with x := some x, swap := !bad }
        if toB then { h with failB := if bad then h.failB + 1 else 0 }
        else { h with failA := if bad then h.failA + 1 else 0 }
      let s := s.modCmp c note
      if bad then
        let s := (s.evt (CMP_EVT_AZERR c)).fault srcCMP_AZ c.val
        if (if toB then s.cmp[c].failB else s.cmp[c].failA) = 3 then (s.count CMP_GSTAT_AZFAILN).fault srcCMP_STAGE c.val else s
      else s.trySwap c)

/-! ### Conversions -/

/-- Type and gain of a mux channel: differential, gain, ratiometric to VDDA (R331). -/
def adcChan (ch : Nat) (alt : Bool) : Bool × Rat × Bool :=
  if ch < 4 then (false, 1 / 40, false)
  else if ch < 8 then (true, 1 / 80, false)
  else if ch < 12 then (true, 10, false)
  else if ch < 15 then (false, 1 / 40, false)
  else if ch < 31 then (!alt, 1 / 2, false)
  else if ch < 35 then (false, 1, true)
  else if ch = 35 then (false, 1, false)
  else if ch = 36 then (false, 1 / 2, false)
  else if ch < 42 then (false, 1, false)
  else if ch < 44 then (false, 1 / 2, false)
  else if ch = 44 then (false, 1 / 4, false)
  else if ch = 45 then (false, 1, false)
  else if ch = 46 then (false, 1 / 8, false)
  else (false, 1 / 40, false)

/-- The code of an input, clamped, and whether it was out of range (R330, R338). -/
def adcCode (diff : Bool) (gain vref v : Rat) : Nat × Bool :=
  let x := v * gain / vref * 65536
  if diff then
    if x < -32768 then (0x8000, true) else if 32768 < x then (0x7FFF, true)
    else (unsigned 16 (min 32767 x.floor), false)
  else if x < 0 then (0, true) else if 65536 < x then (65535, true) else ((min 65535 x.floor).toNat, false)

/-- The quantity at the ball that a code stands for (R330). -/
def adcValue (diff : Bool) (gain vref : Rat) (code : Nat) : Rat :=
  (if diff then (signed 16 code : Rat) else (code : Rat)) * vref / 65536 / gain

/-- The references by number: is its REFRDY set (R339)? -/
def State.refReady (s : State) (r : Nat) : Bool := s.on (if r = 0 then ADC_REF_BGRDY else if r = 1 then ADC_REF_XRDY else ADC_REF_SRDY)

/-- Nominal VREF, V (R339). -/
def vrefOf (r : Nat) : Rat := if r = 2 then 33 / 10 else 5 / 2

/-- An entry's word A with the channel its scan has reached. -/
def State.entryAt (s : State) (x : Fin 2) (i : Fin 36) : Entry :=
  let a : Nat := if i.val < 32 then ADC_SEQ_A x i else ADC_INJ_A x (i - 32)
  let w := s.word a
  let ch := Fld.extract ⟨a, 21, 16⟩ w
  let last := max ch (Fld.extract ⟨a, 13, 8⟩ w)
  let pos := ch + s.adc[x].scan[i]
  ⟨min 47 (if w.getLsbD 30 ∧ pos ≤ last then pos else ch), w.getLsbD 29, w.getLsbD 28, Fld.extract ⟨a, 5, 0⟩ w⟩

/-- The scan of an entry steps (R332). -/
def State.scanStep (s : State) (x : Fin 2) (i : Fin 36) : State :=
  let a : Nat := if i.val < 32 then ADC_SEQ_A x i else ADC_INJ_A x (i - 32)
  let w := s.word a
  let ch := Fld.extract ⟨a, 21, 16⟩ w
  let pos := s.adc[x].scan[i] + 1
  let next := if w.getLsbD 30 ∧ ch + pos ≤ Fld.extract ⟨a, 13, 8⟩ w then pos else 0
  s.modAdc x (fun h => { h with scan := vmod h.scan i (fun _ => next) })

/-- The duration of a conversion, ns (R330). -/
def Entry.time (e : Entry) : Rat := (e.smp + 4 : Nat) * (25 / 2) + 150

/-- When its sampling ends, for a conversion that starts at `t` (R330). -/
def Entry.smpEnd (e : Entry) (t : Rat) : Rat := t + (e.smp + 4 : Nat) * (25 / 2)

/-- A recovery window opens on both converters; those long past are forgotten (R338). -/
def State.openWindow (s : State) (from_ till : Rat) : State :=
  s.each (List.finRange 2) (fun t x => t.modAdc x (fun h =>
    { h with wins := (from_, till) :: h.wins.filter (fun w => decide (from_ ≤ w.2 + 10000)) }))

/-- The window that an abandoned conversion opened goes where its sampling had not ended (R338). -/
def State.shutWindow (s : State) (from_ : Rat) : State :=
  s.each (List.finRange 2) (fun t x => t.modAdc x (fun h => { h with wins := h.wins.filter (fun w => w.1 != from_) }))

/-- A sampling that ends at `t` ends inside a recovery window (R338). -/
def AdcH.recovers (h : AdcH) (t : Rat) : Bool := h.wins.any (fun w => decide (w.1 ≤ t ∧ t ≤ w.2))

/-- One conversion that starts at `t`: its result goes to `res`. Answers its quality, its code, the voltage the code stands for and the
state (R330, R337, R338). -/
def State.convert (s : State) (x : Fin 2) (e : Entry) (res : Nat) (inp : AdcIn) (t : Rat) : Nat × Nat × Rat × State :=
  let (diff, gain, ratio) := adcChan e.ch e.alt
  let r := if e.ref || ratio then 2 else s.fld (ADC_STAT_REFUSE x)
  let v : Rat := if e.alt && decide (15 ≤ e.ch) && decide (e.ch < 31) then inp.tflt.toList.getD (e.ch - 15) 0 else inp.v.toList.getD e.ch 0
  let (code, out) := adcCode diff gain (vrefOf r) v
  let smpEnd := e.smpEnd t
  let q := if out then 2 else if !s.refReady r then 3 else if s.adc[x].recovers smpEnd then 1 else 0
  let s :=
    if out then
      let f := if e.ch < 32 then ADC_ORNG0 else ADC_ORNG1
      let s := (s.setWord f (s.word f ||| (1 <<< (e.ch % 32)))).evt (ADC_EVT_ORNG x)
      s.openWindow smpEnd (smpEnd + (if inp.big.getLsbD e.ch then 1200 else 300))
    else s
  let s := if q = 1 then s.count (ADC_CNT_SUSP x) else s
  let s := s.setWord res (BitVec.ofNat 32 (q * 2 ^ 30 + e.ch * 2 ^ 24 + s.fld (ADC_STAT_PASS x) % 256 * 2 ^ 16 + code))
  (q, code, adcValue diff gain (vrefOf r) code, s.nodeSeen e.ch e.alt gain v)

/-- An owner among the control loops or PLOAD takes a result: a fourth in a row that is not GOOD is used as it stands and noted;
answers whether the value is used (R337). -/
def State.owner (s : State) (x : Fin 2) (ch : Nat) (q : Nat) : Bool × State :=
  if h : ch < 48 then
    let i : Fin 48 := ⟨ch, h⟩
    if q = 0 then (true, s.modAdc x (fun h => { h with bad := vmod h.bad i (fun _ => 0) }))
    else
      let s := s.modAdc x (fun h => { h with bad := vmod h.bad i (fun b => min 4 (b + 1)) })
      if s.adc[x].bad[i] = 4 then (true, s.evt (ADC_EVT_SUSPECT x)) else (false, s)
  else (true, s)

/-! ### Pack voltage and thermistors -/

/-- ln x for x > 0 by its series, x first brought to 2/3 to 4/3 in at most `n` steps. DESIGN CHOICE, log entry 86. -/
def lnRat : Nat → Rat → Rat
  | 0, _ => 0
  | n + 1, x =>
    if 4 / 3 < x then lnRat n (x / 2) + 69314718056 / 100000000000
    else if x < 2 / 3 then lnRat n (2 * x) - 69314718056 / 100000000000
    else
      let z := (x - 1) / (x + 1)
      let y := z * z
      2 * z * (1 + y / 3 + y * y / 5 + y * y * y / 7 + y * y * y * y / 9)

/-- The temperature of a thermistor code, °C; none = invalid (R347, R197). -/
def State.ntc (s : State) (code : Nat) : Option Int :=
  let nom : Rat := s.fld THM_NTC_NOM
  let beta : Rat := s.fld THM_NTC_BETA
  let rt := (s.fld THM_NTC_PU : Rat) * code / (65536 - code)
  if nom = 0 ∨ beta = 0 ∨ rt = 0 then none
  else
    let inv := 20 / 5963 + lnRat 40 (rt / nom) / beta
    if inv ≤ 0 then none
    else
      let t := 1 / inv - 5463 / 20
      if t < -40 ∨ 150 < t then none else some t.floor

/-- The pack temperature as it stands each 1 ms (R155, R196): how long it has been out of TCMIN to TCMAX, at or above THARD, and below THARD
− 5 °C. -/
def State.tempSample (s : State) (k : Fin 2) : State :=
  let hard : Int := s.fld (PK_LIM_THARD k)
  let is (p : Int → Bool) : Bool := (s.packT k).any p
  let s := s.modChg k (fun c => { c with tempN := if s.tempIn k then 0 else min 1000 (c.tempN + 1) })
  s.modPk k (fun p => { p with
    hotN := if is (fun t => decide (hard ≤ t)) then min 1000 (p.hotN + 1) else 0
    coolN := if is (fun t => decide (t < hard - 5)) then min 60000 (p.coolN + 1) else 0 })

/-- A thermistor reading of a port (R155, R196, R197, R208): NOTEMP is set once both have been read and neither is valid. -/
def State.thermistor (s : State) (k : Fin 2) (second : Bool) (code : Nat) : State :=
  let t := s.ntc code
  let s := s.modPk k (fun p => if second then { p with t1 := t, thSeen := p.thSeen ||| 2 } else { p with t0 := t, thSeen := p.thSeen ||| 1 })
  let lo := 8 * (2 * k.val + if second then 1 else 0)
  let s := s.setFld ⟨THM_PKT, lo + 7, lo⟩ (match t with
    | some x => unsigned 8 (min 127 x)
    | none => 0x80)
  let none_ := (s.packT k).isNone && s.pk[k].thSeen == 3 && s.packIn k
  let s := if none_ && !s.pk[k].noTemp then s.evt (PK_EVT_NOTEMP k) else s
  let s := s.modPk k (fun p => { p with noTemp := none_ })
  let s := if second then s.tempSample k else s
  let s := match s.packT k with
    | some x =>
      if s.packIn k && decide (s.sfld (PK_TPK_TPEAK k) < x) then
        (if 127 < x then s.setOn (PK_TPK_LSAT k) true else s).setSfld (PK_TPK_TPEAK k) x
      else s
    | none => s
  ((s.syncPack k).gustLoss k).syncElig k

/-! ### The seal -/

/-- What a seal opening brings (R417): `wiped` for one found by the loop's readings, not at step 7. -/
def State.sealOpened (s : State) (wiped : Bool) : State :=
  let s := ((s.setOn AUTH_SEAL_INTACT false).setOn AUTH_SEAL_TAMPER true).count AUTH_SEAL_OPENS
  let s := s.fault srcSEAL_OPEN 0
  let s := s.journal (s.stamp 3 false ((Origin.pin .seal).word 0) 0x14 0 1 0 (BitVec.ofNat 32 (s.fld AUTH_SEAL_RLOOP)))
  let s := s.evt JNL_EVT_SEAL
  if wiped then s.wipe 1 else s

/-- RLOOP of the voltage of channel 37, Ω: above 20 kΩ it reads 0xFFFF (R416). -/
def rloopOf (v : Rat) : Nat :=
  let r : Rat := v * 10000
  if 20000 < r then 0xFFFF else r.floor.toNat

/-- Does a loop resistance lie in the window (R417)? -/
def State.sealInside (s : State) (r : Nat) : Bool := decide (s.fld AUTH_CFG_RMIN ≤ r) && decide (r ≤ s.fld AUTH_CFG_RMAX)

/-- A reading of the seal loop after step 7 (R416, R417). DEDUCED, log entry 87. -/
def State.sealReading (s : State) (r : Nat) : State :=
  let s := s.setFld AUTH_SEAL_RLOOP r
  let intact := s.on AUTH_SEAL_INTACT
  let n := if s.sealInside r == intact then 0 else s.auth.sealRun + 1
  if n < 3 then { s with auth := { s.auth with sealRun := n } }
  else
    let s := { s with auth := { s.auth with sealRun := 0 } }
    if intact then s.sealOpened true else s.setOn AUTH_SEAL_INTACT true

/-! ### Passes -/

/-- The entries a pass finds due: those whose DIV divides pass − OFS, and those armed (R332, R334). -/
def State.dueNow (s : State) (x : Fin 2) (pass : Nat) : BitVec 32 :=
  (List.range 32).foldl (fun m e =>
    let trig := s.fld (ADC_SEQ_A_TRIG x e)
    let div := orZero 1 (s.fld (ADC_SEQ_B_DIV x e))
    let byTrig := decide (1 ≤ trig ∧ trig ≤ 8)
    let is := if byTrig then s.adc[x].armed.getLsbD e else ((pass : Int) - s.fld (ADC_SEQ_B_OFS x e)) % (div : Int) == 0
    if is && s.on (ADC_SEQ_A_EN x e) then m ||| (1 <<< e) else m) 0

/-- Keep a result where its owner reads it: the voltage as converted, and, where it may use it, the one it works with. -/
def State.measure (s : State) (ch : Nat) (v : Rat) (use : Bool) : State :=
  if h : ch < 48 then
    let i : Fin 48 := ⟨ch, h⟩
    { s with meas := { s.meas with
      raw := s.meas.raw.set i v, v := if use then s.meas.v.set i v else s.meas.v, seen := s.meas.seen ||| (1 <<< ch) } }
  else s

/-- The voltage the owner of a channel works with (R337). -/
def State.used (s : State) (ch : Nat) : Rat := if h : ch < 48 then s.meas.v[ch] else 0

/-- An owner's part in a result of an entry 0 to 15: its quality, code and voltage (R25, R333, R337). -/
def State.served (s : State) (x : Fin 2) (e : Entry) (q code : Nat) (v : Rat) : State :=
  let ch := e.ch
  if h : 15 ≤ ch ∧ ch < 31 then
    (if e.alt then
      { s with meas := { s.meas with tflt := s.meas.tflt.set (ch - 15) v (by omega), tseen := s.meas.tseen ||| (1 <<< (ch - 15)) } }
    else s)
  else
    let loop := decide (ch < 4) || (decide (8 ≤ ch) && decide (ch ≤ 14))
    let (use, s) := if loop then s.owner x ch q else (true, s)
    let s := s.measure ch v use
    if h : ch < 4 then s.modFeed ⟨ch, h⟩ (fun f => { f with volts := (s.used ch :: f.volts).take 100 })
    else if ch = 12 then
      ({ s with meas := { s.meas with bus := (s.used ch :: s.meas.bus).take 10 } }).busSample (s.used ch)
    else if 13 ≤ ch ∧ ch ≤ 14 then
      let k : Fin 2 := if ch = 13 then 0 else 1
      let v := s.used ch
      let s := { s with meas := { s.meas with pack := vmod s.meas.pack k (fun l => (v :: l).take 25) } }
      (s.chgSample k v).packSample k v
    else if 31 ≤ ch ∧ ch ≤ 34 then s.thermistor (if ch < 33 then 0 else 1) (ch % 2 == 0) code
    else if ch = 37 then s.sealReading (rloopOf v)
    else s

/-- What the owner of a channel holds, before a result: for the channels whose owner keeps it and no more (R336). -/
def State.taken (s : State) (x : Fin 2) (e : Entry) : Option Taken :=
  if h : e.ch < 13 ∧ !e.alt then
    let i : Fin 48 := ⟨e.ch, by omega⟩
    let list := if h : e.ch < 4 then s.feed[(⟨e.ch, h⟩ : Fin 4)].volts else s.meas.bus
    some ⟨s.meas.v[i], s.meas.raw[i], list, s.chgg.lowN, s.chgg.highN, s.adc[x].bad[i]⟩
  else none

/-- A result that is discarded is taken back from its owner (R336). -/
def State.untake (s : State) (x : Fin 2) (e : Entry) (k : Taken) : State :=
  if h : e.ch < 13 then
    let i : Fin 48 := ⟨e.ch, by omega⟩
    let s := { s with meas := { s.meas with v := s.meas.v.set i k.v, raw := s.meas.raw.set i k.raw } }
    let s := s.modAdc x (fun h => { h with bad := vmod h.bad i (fun _ => k.bad) })
    if h : e.ch < 4 then s.modFeed ⟨e.ch, h⟩ (fun f => { f with volts := k.list })
    else if e.ch = 12 then
      { s with meas := { s.meas with bus := k.list }, chgg := { s.chgg with lowN := k.low, highN := k.high } }
    else s
  else s

/-- Convert an entry from `t` and serve its owner; answers when it ends. -/
def State.convertEntry (s : State) (x : Fin 2) (i : Fin 32) (e : Entry) (inp : AdcIn) (t : Rat) (serve : Bool) : Rat × State :=
  let was := s.taken x e
  let word := s.word (ADC_RES x i)
  let s := s.setFld (ADC_STAT_ENTRY x) i.val
  let (q, code, v, s) := s.convert x e (ADC_RES x i) inp t
  let s := s.modAdc x (fun h => { h with runs := h.runs ++ [⟨i, e, t, t + e.time, word, was⟩] })
  (t + e.time, if serve then s.served x e q code v else s)

/-- Run one entry from `t`; answers when it ends. -/
def State.runEntry (s : State) (x : Fin 2) (i : Fin 32) (inp : AdcIn) (t : Rat) : Rat × State :=
  let j : Fin 36 := ⟨i.val, by omega⟩
  let (stop, s) := s.convertEntry x i (s.entryAt x j) inp t (decide (i.val < 16))
  let s := s.scanStep x j
  (stop, s.modAdc x (fun h =>
    { h with due := h.due &&& ~~~ (1#32 <<< i.val), armed := h.armed &&& ~~~ (1#32 <<< i.val) }))

/-- A tick at `t` (R332 to R335): lost while an earlier one is still pending; otherwise one pass, from the tick or, pending, from the
end of the pass before, when ADCA runs its entry 0 only. DESIGN CHOICE, log entry 84. -/
def State.adcTick (s : State) (x : Fin 2) (inp : AdcIn) (t : Rat) : State :=
  let h := s.adc[x]
  if !s.awake || !s.sys.d2d then s
  else if t < h.passFrom then (s.count (ADC_CNT_TRIGLOST x)).evt (ADC_EVT_TRIGOVR x)
  else
    let late := decide (t < h.passEnd)
    let start := max t h.passEnd
    let pass := (s.fld (ADC_STAT_PASS x) + 1) % 65536
    let s := s.setFld (ADC_STAT_PASS x) pass
    let s := s.modAdc x (fun h => { h with due := h.due ||| s.dueNow x pass, runs := h.runs.filter (fun r => decide (t < r.stop)) })
    let ready (e : Fin 32) : Bool := s.adc[x].due.getLsbD e && s.on (ADC_SEQ_A_EN x e)
    let run :=
      if late && x == 0 then [(0 : Fin 32)].filter ready
      else finsWhere (fun e : Fin 32 => decide (e.val < 16) && ready e) ++ (finsWhere (fun e : Fin 32 => decide (16 ≤ e.val) && ready e)).take 1
    let (stop, s) := run.foldl (fun (p : Rat × State) e => p.2.runEntry x e inp p.1) (start, s)
    (s.modAdc x (fun h => { h with passFrom := start, passEnd := stop })).sourceEdge (16 + x.val)

/-- ADCA_PASS (R332 to R335, R337, R338): the 1 µs tick at `t`. -/
def execAdcaPass (inp : AdcIn) (t : Rat) (s : State) : Host.Outcome State Fault Refusal := .next (s.adcTick 0 inp t)

/-- ADCB_PASS (R197, R208, R332 to R335, R337, R338, R347, R416, R417): the 10 µs tick at `t`. -/
def execAdcbPass (inp : AdcIn) (t : Rat) (s : State) : Host.Outcome State Fault Refusal := .next (s.adcTick 1 inp t)

/-- What is not over at `t` is discarded: results, windows of samplings not yet ended, what the owners took (R336, R338). -/
def State.discardRun (s : State) (x : Fin 2) (t : Rat) (r : AdcRun) : State :=
  let s := if Fld.extract ⟨ADC_RES x r.i, 31, 30⟩ (s.word (ADC_RES x r.i)) = 1 ∧ s.fld (ADC_CNT_SUSP x) < 255
    then s.setFld (ADC_CNT_SUSP x) (s.fld (ADC_CNT_SUSP x) - 1) else s
  let s := s.setWord (ADC_RES x r.i) r.word
  let s := if t < r.e.smpEnd r.start then s.shutWindow (r.e.smpEnd r.start) else s
  match r.was with
  | some k => s.untake x r.e k
  | none => s

/-- The pass resumes at `at_` after an injection that came at `t` (R336): what was not over is discarded and runs again in order, from its
sampling, on the inputs as the injection finds them. An owner that does more with a result than keep it is not served twice.
DESIGN CHOICE, log entry 84. -/
def State.resume (s : State) (x : Fin 2) (inp : AdcIn) (t at_ : Rat) : State :=
  let open_ := s.adc[x].runs.filter (fun r => decide (t < r.stop))
  let s := s.each open_.reverse (fun s r => s.discardRun x t r)
  let s := s.modAdc x (fun h => { h with runs := h.runs.filter (fun r => decide (r.stop ≤ t)) })
  let (stop, s) := open_.foldl (fun (p : Rat × State) r =>
    p.2.convertEntry x r.i r.e inp p.1 (decide (r.i.val < 16) && r.was.isSome)) (at_, s)
  s.modAdc x (fun h =>
    let end_ := if t < h.passEnd then max stop (if open_.isEmpty then h.passEnd + (at_ - t) else stop) else h.passEnd
    { h with passFrom := if t < h.passFrom then h.passFrom + (end_ - h.passEnd) else h.passFrom, passEnd := end_ })

/-- Injected entry `k` runs at `t` (R336, R337): after a device injection under way; the device's at once, abandoning a conversion in flight
and a system injection, which runs again after it. Answers its quality and voltage. DESIGN CHOICE, log entry 84. -/
def State.inject (s : State) (x : Fin 2) (k : Fin 4) (e : Entry) (inp : AdcIn) (t : Rat) : Nat × Rat × State :=
  let h := s.adc[x]
  let dev := decide (k.val < 2)
  let cutSys := if dev then h.sysRun.filter (fun r => decide (t < r.stop)) else none
  let start := match cutSys with
    | some r => max t r.start
    | none => max t h.injEnd
  let flying := decide (h.injEnd ≤ t) && h.runs.any (fun r => decide (r.start ≤ t ∧ t < r.stop))
  let s := if flying || cutSys.any (fun r => decide (r.start ≤ t)) then s.count (ADC_CNT_ABANDON x) else s
  let s := match cutSys with
    | some r => if t < r.e.smpEnd r.start then s.shutWindow (r.e.smpEnd r.start) else s
    | none => s
  let (q, _, v, s) := s.convert x e (ADC_INJR x k) inp start
  let s := s.scanStep x ⟨32 + k.val, by omega⟩
  let stop := start + e.time
  let s := s.modAdc x (fun h =>
    { h with injFrom := if t < h.injEnd then h.injFrom else start, injEnd := stop, injSys := !dev
             sysRun := if dev then h.sysRun else some ⟨k, e, start, stop⟩ })
  let s := match cutSys with
    | some r =>
      let s := (s.convert x r.e (ADC_INJR x r.k) inp stop).2.2.2
      s.modAdc x (fun h => { h with injEnd := stop + r.e.time, sysRun := some { r with start := stop, stop := stop + r.e.time } })
    | none => s
  (q, v, s.resume x inp t s.adc[x].injEnd)

/-- i0 or i1 of ADCA for a port (R116, R118, R140, R337): the current of its next running phase at the midpoint of its interval. -/
def State.injectAmp (s : State) (k : Fin 2) (e : Entry) (inp : AdcIn) (t : Rat) : State :=
  match s.nextAmp k with
  | none => s
  | some n =>
    let ch := 15 + n.val
    let (q, v, s) := s.inject 0 ⟨k.val, by omega⟩ { e with ch := ch } inp t
    let (use, s) := s.owner 0 ch q
    let a := divR (v * 1000000) (s.fld (PH_CFG_KSNS n))
    let s := s.modPhp k (fun p => { p with rot := n })
    s.ampSample n (if s.dir k = .dis then -a else a) use

/-- i0 or i1 of ADCB for a running Sounding (R167 to R169): PKn_VS with the code of the coulomb converter that belongs to it. -/
def State.injectPack (s : State) (k : Fin 2) (e : Entry) (inp : AdcIn) (pair : Int) (t : Rat) : State :=
  match s.chg[k].snd with
  | none => s
  | some _ =>
    let (q, v, s) := s.inject 1 ⟨k.val, by omega⟩ e inp t
    let code := max (-8388608) (min 8388607 pair) - s.sfld (COUL_OFS_OFS k)
    s.lockIn k ((code : Rat) * s.perCode k) v q

/-- ADC_INJECTION (R118, R140, R167 to R169, R333, R334, R336 to R338): the device's, for a port's phases on ADCA or its Sounding on ADCB,
where `pair` is the 64 kS/s code of the port's coulomb converter; or the system's, triggered by its timer.
DESIGN CHOICE, log entry 73. -/
def execAdcInjection (x : Fin 2) (k : Fin 4) (inp : AdcIn) (pair : Int) (t : Rat) (s : State) : Host.Outcome State Fault Refusal :=
  .next (
    let e := s.entryAt x ⟨32 + k.val, by omega⟩
    if !s.awake || !s.sys.d2d then s
    else if h : k.val < 2 then
      if x = 0 then s.injectAmp ⟨k.val, h⟩ e inp t else s.injectPack ⟨k.val, h⟩ e inp pair t
    else if s.adc[x].inj.contains k then
      let s := s.modAdc x (fun h => { h with inj := h.inj.filter (fun j => j != k) })
      if s.on (ADC_INJ_A_EN x k) then (s.inject x k e inp t).2.2 else s
    else s)

/-- The trigger output of a timer (R334, R335, R364, R366): it feeds the matrix, arms the entries with TRIG = n + 1 and triggers such
injections; one that is already armed is lost. -/
def State.trigger (s : State) (n : Fin 8) : State :=
  (s.sourceEdge (n.val + 1)).each (List.finRange 2) (fun s x =>
    let s := s.each ((List.range 16).map (· + 16)) (fun t e =>
      if t.on (ADC_SEQ_A_EN x e) && t.fld (ADC_SEQ_A_TRIG x e) == n.val + 1 then
        if t.adc[x].armed.getLsbD e then (t.count (ADC_CNT_TRIGLOST x)).evt (ADC_EVT_TRIGOVR x)
        else t.modAdc x (fun h => { h with armed := h.armed ||| (1 <<< e) })
      else t)
    s.each [(2 : Fin 4), 3] (fun t k =>
      if t.on (ADC_INJ_A_EN x k) && t.fld (ADC_INJ_A_TRIG x k) == n.val + 1 then
        if t.adc[x].inj.contains k then (t.count (ADC_CNT_TRIGLOST x)).evt (ADC_EVT_TRIGOVR x)
        else t.modAdc x (fun h => { h with inj := if k = 2 then k :: h.inj else h.inj ++ [k] })
      else t))

/-- A write to a system entry disarms it (R343). -/
def State.disarm (s : State) (x : Fin 2) (e : Nat) : State :=
  s.modAdc x (fun h =>
    { h with
      due := h.due &&& ~~~ (1#32 <<< e)
      armed := h.armed &&& ~~~ (1#32 <<< e)
      scan := if lt : e < 36 then vmod h.scan ⟨e, lt⟩ (fun _ => 0) else h.scan })

/-! ### References -/

/-- Fallback to the bandgap (R339); the fault names the converter. -/
def State.refFall (s : State) (x : Fin 2) : State :=
  (((s.setFld (ADC_STAT_REFUSE x) 0).setOn (ADC_STAT_REFFB x) true).evt (ADC_EVT_REFFB x)).fault srcADC_REF x.val

/-- The REFRDY bit of a reference. -/
def refBit (r : Fin 3) : Fld := match r with
  | 0 => ADC_REF_BGRDY
  | 1 => ADC_REF_XRDY
  | 2 => ADC_REF_SRDY

/-- The entry in flight at the present DEVTIME takes QUAL = NOREF, unless it is ORNG, and its owner a result that is not GOOD (R337, R339).
DEDUCED, log entry 85. -/
def State.noRef (s : State) (x : Fin 2) : State :=
  let now : Rat := 10 * s.devtime.toNat
  match s.adc[x].runs.find? (fun r => decide (r.start < now + 10 ∧ now < r.stop)) with
  | none => s
  | some r =>
    let a := ADC_RES x r.i
    let q := Fld.extract ⟨a, 31, 30⟩ (s.word a)
    if 2 ≤ q then s
    else
      let v := if h : r.e.ch < 48 then s.meas.raw[r.e.ch] else 0
      let s := s.setFld ⟨a, 31, 30⟩ 3
      match r.was with
      | some k => if r.i.val < 16 then (s.untake x r.e k).served x r.e 3 0 v else s
      | none => s

/-- REFERENCE_LOSS (R339): `busy` names the converters with a conversion in flight. DEDUCED, log entry 85. -/
def execReferenceLoss (r : Fin 3) (busy : BitVec 2) (s : State) : Host.Outcome State Fault Refusal :=
  .next (
    if !s.on (refBit r) then s
    else
      let s := s.setOn (refBit r) false
      s.each (List.finRange 2) (fun t x =>
        if t.fld (ADC_STAT_REFUSE x) = r.val then
          (if busy.getLsbD x then t.noRef x else t).refFall x
        else t))

/-- REFERENCE_READY (R339). -/
def execReferenceReady (r : Fin 3) (s : State) : Host.Outcome State Fault Refusal := .next (s.setOn (refBit r) true)

/-- REFSEL was written (R339): the named reference is in use and a fallback ends; 3 acts as 0. -/
def State.refSelect (s : State) (x : Fin 2) : State :=
  (s.setFld (ADC_STAT_REFUSE x) (s.fld (ADC_CFG_REFSEL x) % 3)).setOn (ADC_STAT_REFFB x) false

/-- Two voltages given by codes of one converter agree: a/b within pct/1000 of p/q. -/
def refAgree (a b p q tol : Nat) : Bool :=
  let d : Int := (a * q : Nat) - (b * p : Nat)
  decide (d.natAbs * 1000 ≤ b * p * tol)

/-- ADC_CROSS_CHECK (R340): the codes of channels 42, 43 and 36 on one converter. VREFX against VDDA takes the 3 % of VDDA. -/
def execAdcCrossCheck (x : Fin 2) (c42 c43 c36 : BitVec 16) (s : State) : Host.Outcome State Fault Refusal :=
  .next (
    if !s.awake || !s.sys.d2d then s
    else
      let xr := s.on ADC_REF_XRDY
      let bx := refAgree c36.toNat c42.toNat 1 1 5
      let bv := refAgree c43.toNat c42.toNat 33 25 30
      let xv := refAgree c43.toNat c36.toNat 33 25 30
      let s := s.setFld (if x = 0 then ADC_XCHK_ACODE else ADC_XCHK_BCODE) c42.toNat
      let agree := bv && (!xr || bx)
      let s := if agree then s else (s.count ADC_REF_XFAIL).evt (ADC_EVT_XCHK x)
      let out (r : Fin 3) : Bool := xr && (match r with
        | 0 => !bx && !bv
        | 1 => !bx && !xv
        | 2 => !bv && !xv)
      let s := s.modAdc x (fun h => { h with refBad := Vector.ofFn (fun r => if out r then h.refBad[r] + 1 else 0) })
      let addr := (s.word ADC_XCHK).toNat
      let s := if !xr && !bv then s.fault srcADC_XCHK addr else s
      let s := s.each (List.finRange 3) (fun t r =>
        if t.adc[x].refBad[r] = 3 then
          let t := (t.setOn ⟨ADC_REF, 24 + r.val, 24 + r.val⟩ true).fault srcADC_XCHK addr
          t.each (List.finRange 2) (fun u y => if u.fld (ADC_STAT_REFUSE y) = r.val then u.refFall y else u)
        else t)
      let s := s.modAdc x (fun h => { h with checked := true })
      let a := s.fld ADC_XCHK_ACODE
      let b := s.fld ADC_XCHK_BCODE
      let apart := s.adc[0].checked && s.adc[1].checked && decide (8 < max a b - min a b)
      let s := if apart && agree then s.evt (ADC_EVT_XCHK x) else s
      let s := s.modAdc x (fun h => { h with convBad := if apart && agree then h.convBad + 1 else 0 })
      if s.adc[x].convBad = 3 then s.fault srcADC_MISMATCH addr else s)

end Sys2Proof.Machine
end

