-- ==== Sys2Proof/Machine/Measure.lean ====
section
/-! DEFINITION. What start-up and the self-tests measure: the straps and PHCNT (R49 to R56), the references, converters and comparators of
step 7 (R61, R66), the seal at step 7 (R417). -/

namespace Sys2Proof

/-! ### Straps -/

/-- The phase count a mean voltage in mV stands for, 0 where it is out of range (R53). -/
def phcntOf (mv : Rat) : Nat := if 125 ≤ mv ∧ mv < 2125 then (mv / 125).floor.toNat else 0
/-- The mean of eight conversions. -/
def meanMv (v : Vector Rat 8) : Rat := v.toList.foldl (· + ·) 0 / 8
/-- The reading is ambiguous (R53): a conversion in another bin than the mean, or a mean within 10 mV of a bin edge.
DEDUCED, log entry 17. -/
def phcntAmbig (v : Vector Rat 8) : Bool :=
  let m := meanMv v
  v.toList.any (fun x => (x / 125).floor != (m / 125).floor) ||
  (List.range 17).any (fun i => decide (((125 * (i + 1) : Nat) : Rat) - 10 ≤ m ∧ m ≤ ((125 * (i + 1) : Nat) : Rat) + 10))
/-- A digital strap from its three samples (R50): 0 where they disagree. -/
def strapBit (b : BitVec 3) : Bool := b == 7
/-- A digital strap is ambiguous (R50). -/
def strapAmbig (b : BitVec 3) : Bool := b != 7 && b != 0

/-- SYS_STRAP as step 3 latches it (R49 to R56). A count that is out of range conflicts with no class: CONFLICT stays 0.
DESIGN CHOICE, log entry 108. -/
def Boot.strapWord (r : Boot) : Word :=
  let m := meanMv r.phcnt
  let n := phcntOf m
  let bit (i : Fin 7) : Nat := if strapBit r.straps[i] then 1 else 0
  let range := n = 0
  let ambig := phcntAmbig r.phcnt || r.straps.toList.any strapAmbig
  let conflict := decide (n ≠ 0) && (if strapBit r.straps[0] then decide (n < 9) else decide (8 < n))
  let b (x : Bool) (i : Nat) : Nat := if x then 2 ^ i else 0
  BitVec.ofNat 32 (b (!range && !ambig && !conflict) 31 + b conflict 30 + b ambig 29 + b range 28 +
    (min 4095 m.floor.toNat) * 2 ^ 16 + bit 3 * 2 ^ 13 + bit 2 * 2 ^ 12 + bit 1 * 2 ^ 11 + bit 6 * 2 ^ 10 + bit 5 * 2 ^ 9 +
    bit 4 * 2 ^ 8 + bit 0 * 2 ^ 5 + n)

/-- The references agree within 0.5 % of nominal, VREFX among them where it is connected (R66). DEDUCED, log entry 109. -/
def RefMeas.refOk (m : RefMeas) : Bool :=
  let l := [m.refs[0], m.refs[2]] ++ (if m.vrefx then [m.refs[1]] else [])
  l.all (fun a => l.all (fun b => decide (a - b ≤ 5 / 1000)))
/-- ADCA and ADCB agree within 8 LSB on the bandgap and on the divided VB5 (R66). -/
def RefMeas.adcOk (m : RefMeas) : Bool :=
  let near (v : Vector Nat 2) : Bool := decide (v[0] ≤ v[1] + 8 ∧ v[1] ≤ v[0] + 8)
  near m.adcBg && near m.adcVb5
/-- Every threshold of a comparator trips within ±2 DAC codes of its setting (R66). -/
def RefMeas.cmpOk (m : RefMeas) (c : Fin 48) : Bool := decide (m.cmpErr[c] ≤ 2)

/-- The 4,096 test flits of step 6 have passed without a CRC error (R61, R66). -/
def Boot.linked (r : Boot) : Bool := decide (4096 ≤ r.flits)

namespace Machine

/-- The seal at step 7 (R61, R388, R416, R417): B4 is loaded only if all three readings lie in the window. -/
def State.bootSeal (s : State) (r : RefMeas) : State :=
  let was := s.on AUTH_SEAL_INTACT
  let s := s.setFld AUTH_SEAL_RLOOP r.sealR[2]
  let s := { s with auth := { s.auth with sealRun := 0 } }
  if r.sealR.toList.all s.sealInside then
    let s := (s.setOn AUTH_SEAL_INTACT true).setOn AUTH_SEAL_TAMPER false
    ({ s with aon := { s.aon with sealedOut := false } }).loadB4
  else
    let s := { s with aon := { s.aon with sealedOut := true } }
    let s := if was then s.sealOpened false
      else
        let s := s.setOn AUTH_SEAL_TAMPER true
        s.journal (s.stamp 3 false ((Origin.pin .seal).word 0) 0x14 0 0 0 (BitVec.ofNat 32 r.sealR[2]))
    s.loadB4

/-- The references of step 7 and of an OFFLINE run (R61, R339): REFSEL as kept is in use but for a fallback in force. -/
def State.setRefs (s : State) (m : RefMeas) : State :=
  let s := s.each (List.finRange 2) (fun t x => if t.on (ADC_STAT_REFFB x) then t else t.refSelect x)
  let s := (s.setOn ADC_REF_BGRDY true).setOn ADC_REF_SRDY (decide (97 / 100 ≤ m.refs[2] ∧ m.refs[2] ≤ 103 / 100))
  s.setOn ADC_REF_XRDY (m.vrefx && decide (98 / 100 ≤ m.refs[1] ∧ m.refs[1] ≤ 102 / 100))

/-- PHCNT is read again by the method of R53 (R55): a reading that is ambiguous, out of range or of another N sets AMBIG. -/
def State.phcntAgain (s : State) (v : Vector Rat 8) : State :=
  let m := meanMv v
  let s := s.setFld SYS_STRAP_PHCNT_MV (min 4095 m.floor.toNat)
  if phcntAmbig v || phcntOf m == 0 || phcntOf m != s.fld SYS_STRAP_PHCNT then
    (s.setOn SYS_STRAP_AMBIG true).setOn SYS_STRAP_STRAPOK false
  else s

end Machine

end Sys2Proof
end

