-- ==== Sys2Proof/Machine/Rings.lean ====
section
/-! DEFINITION. The host link, the ring pairs, their doorbells and push slots, completions and MSI-X (R258 to R276, R290 to
R293). Admin commands stand in Admin.lean. -/

namespace Sys2Proof

/-- The 16 bytes of an entry (R271). -/
def Compl.bytes (c : Compl) (sqhead phase : Nat) : List Byte :=
  leBytes c.result.toNat 8 ++ leBytes c.tag.toNat 2 ++ [c.status, c.qual] ++ leBytes sqhead 2 ++ [c.opc, BitVec.ofNat 8 phase]

namespace Machine

/-! ### Configuration space (R256, R257) -/

/-- Class Code: other system peripheral (R257). -/
def classCode : BitVec 24 := 0x088000
/-- Revision ID (R257): SYS_ID.CIRREV. -/
def revisionId : Byte := Config.cirRev.setWidth 8
/-- The bytes BAR0, non-prefetchable, and BAR2, prefetchable, map (R257): the registers, and 64 slots of 128 B (R262). -/
def bar0Size : Nat := 64 * 1024
@[inherit_doc bar0Size] def bar2Size : Nat := 64 * 128
/-- Where in BAR0 the MSI-X table and the PBA lie, and how many vectors there are (R256, R257). -/
def msixTable : Nat := MSIX_ADDR_LO 0
@[inherit_doc msixTable] def msixPba : Nat := MSIX_PBA_LO
@[inherit_doc msixTable] def msixVectors : Nat := 64

/-- The low word of a 64-bit memory BAR: bits below its size read 0 but for the type, and bit 3 says prefetchable. -/
def barLow (base : BitVec 64) (size : Nat) (prefetch : Bool) : Word :=
  BitVec.ofNat 32 (base.toNat / size * size % 2 ^ 32 + 4 + if prefetch then 8 else 0)

/-- A double word of the configuration header as it reads (R257). The layout is PCI Express's: PRESUMED, log entry 37. -/
def State.cfgHeader (s : State) (off : Nat) : Word :=
  let c := s.hif.cfg
  if off = 0x00 then Config.pciIds[1] ++ Config.pciIds[0]
  else if off = 0x04 then
    BitVec.ofNat 32 (0x100000 + (c.command &&& 0xFFFB).toNat + if s.on HIF_LNK_BME then 4 else 0)
  else if off = 0x08 then classCode ++ revisionId
  else if off = 0x10 then barLow c.bar0 bar0Size false
  else if off = 0x14 then BitVec.ofNat 32 (c.bar0.toNat / 2 ^ 32)
  else if off = 0x18 then barLow c.bar2 bar2Size true
  else if off = 0x1C then BitVec.ofNat 32 (c.bar2.toNat / 2 ^ 32)
  else if off = 0x2C then Config.pciIds[3] ++ Config.pciIds[2]
  else 0

/-- The second and third double word of the MSI-X capability: offset and BIR 0 of the table and of the PBA (R257). -/
def msixCap : Word × Word := (BitVec.ofNat 32 msixTable, BitVec.ofNat 32 msixPba)

/-- The first double word of the MSI-X capability, less its header: the enable, the function mask and the vectors less one (R256). -/
def State.msixControl (s : State) : BitVec 16 :=
  BitVec.ofNat 16 ((if s.hif.cfg.msixOn then 2 ^ 15 else 0) + (if s.hif.cfg.msixMask then 2 ^ 14 else 0) + (msixVectors - 1))

/-- The longest read request: the programmed size, at most 512 B (R256). -/
def State.readMax (s : State) : Nat := min 512 (128 * 2 ^ s.hif.cfg.mrrs.val)

/-! ### BAR2 (R258, R262) -/

/-- What a BAR2 write reaches. -/
inductive Bar2Target
  /-- The SQ tail doorbell of a slot. -/
  | sqTail (n : Fin 64)
  /-- The CQ head doorbell of a slot. -/
  | cqHead (n : Fin 64)
  /-- A byte of the push slot: half 0 then half 1. -/
  | push (n : Fin 64) (i : Fin 64)
  /-- Anything else in a slot. -/
  | invalid (n : Fin 64)
deriving DecidableEq, Repr

/-- The target of a write of `len` bytes at a BAR2 offset (R258, R262): slot n lies at 0x80 × n, and a push write of 1 to 16 DW stays
within its slot. -/
def bar2Target (off : BitVec 13) (len : Nat) : Bar2Target :=
  let n : Fin 64 := Fin.ofNat 64 (off.toNat / 0x80)
  let r := off.toNat % 0x80
  if r = 0 ∧ len = 4 then .sqTail n
  else if r = 8 ∧ len = 4 then .cqHead n
  else if 0x40 ≤ r ∧ 1 ≤ len ∧ r + len ≤ 0x80 then .push n (Fin.ofNat 64 (r - 0x40))
  else .invalid n

/-- A BAR2 read of up to 16 DW returns 0 (R258). -/
def bar2Read (len : Nat) : List Byte := List.replicate len 0

/-- The host's memory requests reach the function: it is powered, the link is up and the function in D0 (R256, R261, R386). -/
def State.hostUp (s : State) : Bool := s.powered && s.on HIF_LNK_LINKUP && !s.hif.d3

/-! ### Sizes and states -/

/-- Entries of the submission ring (R267). -/
def State.sqSize (s : State) (n : Fin 64) : Nat := 2 ^ s.fld (HIF_CFG_SQSZ n)
/-- Pending descriptors: (tail − SQHEAD) mod SQ size (R263). -/
def State.sqPending (s : State) (n : Fin 64) : Nat :=
  (s.fld (HIF_STAT_SQTAIL n) + s.sqSize n - s.fld (HIF_STAT_SQHEAD n)) % s.sqSize n
/-- The pending indices, in ring order. -/
def State.pendingIdx (s : State) (n : Fin 64) : List Nat :=
  (List.range (s.sqPending n)).map (fun i => (s.fld (HIF_STAT_SQHEAD n) + i) % s.sqSize n)

/-- Drop what a ring has taken and not started; for RP0 the held commands go with it. -/
def State.dropTaken (s : State) (n : Fin 64) : State :=
  let s := s.modRing n (fun r => { r with copies := [], rung := [], sq := [] })
  if n = 0 then { s with hif := { s.hif with held := [] } } else s

/-- Drop the entries that wait for a ring; for RP0 a JOURNAL_DRAIN whose completion is among them releases nothing (R286). -/
def State.noPost (s : State) (n : Fin 64) : State :=
  let s := s.modRing n (fun r => { r with cq := [], notices := 0, counted := 0, since := none })
  if n = 0 then { s with hif := { s.hif with drain := none } } else s

/-- A ring error (R267): no descriptor is fetched and no entry is posted; commands started finish and their completions are
discarded (R293). DESIGN CHOICE, log entry 33. -/
def State.haltRing (s : State) (n : Fin 64) (err : Nat) : State :=
  let s := (s.setFld (HIF_STAT_STATE n) 3).setFld (HIF_STAT_ERR n) err
  (s.dropTaken n).noPost n

/-! ### Runs (R269, R270) -/

/-- The first failing check of a run that ended before the tail, as status, qualifier and result; `head` is the index of its first
descriptor (R269, R270, R273, R274). DEDUCED, log entry 34. -/
def runError (ctxRing : Bool) (head size : Nat) (run : List Desc) : Option (Nat × Nat × Nat) :=
  let numbered := run.zip (List.range run.length)
  match run with
  | [] => none
  | h :: _ =>
    if 15 < run.length then some (6, 2, run.length)
    else match numbered.find? (fun p => decide (p.1.ridx ≠ (head + p.2) % size)) with
      | some p => some (2, 16 + p.1.cidx, 0)
      | none =>
        match numbered.find? (fun p => decide (p.1.opc ≠ h.opc ∨ p.1.tag ≠ h.tag ∨ p.1.cidx ≠ p.2)) with
        | some p => some (2, 32 + p.1.cidx, 0)
        | none =>
          let chains := !ctxRing && (h.opc == 2 || h.opc == 4)
          if 1 < run.length && !chains then some (2, 33, 0)
          else if ctxRing then (if 0x20 ≤ h.opc ∧ h.opc ≤ 0x23 then none else some (1, 0, 0))
          else if 1 ≤ h.opc ∧ h.opc ≤ 0x0C then none else some (1, 0, 0)

/-- Split a list after its first descriptor without CONT: the run, and whether it ended. -/
def takeRun : List Desc → List Desc × Bool
  | [] => ([], false)
  | d :: l => if d.cont then (let (r, e) := takeRun l; (d :: r, e)) else ([d], true)

/-- The copies at hand from the head on, up to the first index that has none. -/
def copiesFrom (copies : List (Nat × Desc)) : List Nat → List Desc
  | [] => []
  | i :: l => match copies.find? (fun p => p.1 == i) with
    | some p => p.2 :: copiesFrom copies l
    | none => []

/-- Consume the runs at the head of a ring as far as their descriptors are at hand (R270, R271); `fuel` bounds the runs. -/
def State.consumeRuns (n : Fin 64) : Nat → State → State
  | 0, s => s
  | fuel + 1, s =>
    let idx := s.pendingIdx n
    let head := s.fld (HIF_STAT_SQHEAD n)
    let have_ := copiesFrom s.ring[n].copies idx
    let (run, ended) := takeRun have_
    if run.isEmpty || (!ended && decide (have_.length < idx.length)) then s
    else
      let err := if ended then runError (n != 0) head (s.sqSize n) run else some (6, 1, run.length)
      let used := idx.take run.length
      let s := s.setFld (HIF_STAT_SQHEAD n) ((head + run.length) % s.sqSize n)
      let since := ((s.ring[n].rung.find? (fun p => p.1 == head)).map (fun p => p.2)).getD s.devtime
      let s := s.modRing n (fun r => { r with
        copies := r.copies.filter (fun p => !used.contains p.1)
        rung := r.rung.filter (fun p => !used.contains p.1)
        sq := r.sq ++ [⟨run, err, since⟩] })
      State.consumeRuns n fuel s

/-- Consume what is at hand, and complete the failed runs that nothing stands before. -/
def State.consume (s : State) (n : Fin 64) : State := (State.consumeRuns n (s.sqPending n) s).flush n

/-- The pending indices that have no copy, in ring order (R263, R264). -/
def State.missing (s : State) (n : Fin 64) : List Nat :=
  (s.pendingIdx n).filter (fun i => !(s.ring[n].copies.any (fun p => p.1 == i)))

/-- The indices one fetch reads: from the first missing one on, without a gap, up to 16 descriptors or the longest read, not past the
end of the ring and not across a 4 KiB boundary (R256, R259). -/
def State.fetchRun (s : State) (n : Fin 64) : List Nat :=
  match s.missing n with
  | [] => []
  | i :: l =>
    let room := min (s.readMax / 32) (128 - i % 128)
    (((i :: l).zip (List.range room)).filter (fun p => p.1 == i + p.2)).map (fun p => p.1)

/-- One more read beside the Grant Table's may go out (R259). -/
def State.readRoom (s : State) : Bool := decide (s.othersOut + (if s.hif.cfg.extTag then 0 else s.fc.misses.length) < 32)

/-- Start a ring's fetch where it misses descriptors and a read may go out (R259, R263). -/
def State.startFetch (s : State) (n : Fin 64) : State :=
  if s.ringSt n = 1 ∧ s.ring[n].fetching = false ∧ s.readRoom ∧ s.missing n ≠ [] then s.modRing n (fun r => { r with fetching := true })
  else s

/-- A read has ended: the rings that wait start their fetches, by rising number, as far as reads may go out (R259). DEDUCED, log entry 152. -/
def State.startFetches (s : State) : State := s.each (List.finRange 64) (fun t n => t.startFetch n)

/-! ### Doorbells and push slots -/

/-- A push half at an accepted doorbell (R264): `i` is the half, `newly` the newly pending indices that have no copy yet.
DESIGN CHOICE, log entry 32. -/
def State.latchHalf (s : State) (n : Fin 64) (i : Nat) (newly : List Nat) : State :=
  let bytes := (s.ring[n].push.toList.drop (32 * i)).take 32
  if bytes.all (fun b => b.isNone) then s
  else
    let d : Desc := BitVec.ofNat 256 (bytes.reverse.foldl (fun a b => a * 256 + (b.getD 0).toNat) 0)
    if bytes.all (fun b => b.isSome) && newly.contains d.ridx && !(s.ring[n].copies.any (fun p => p.1 == d.ridx)) then
      (s.modRing n (fun r => { r with copies := r.copies ++ [(d.ridx, d)] })).count (HIF_CNT_PUSHUSE n)
    else s.count (HIF_CNT_PUSHMISS n)

/-- SQ_TAIL_DOORBELL (R263, R264, R270). -/
def execSqTailDoorbell (n : Fin 64) (v : Word) (s : State) : Host.Outcome State Fault Refusal :=
  .next (
    if !s.hostUp then s
    else if s.ringSt n ≠ 1 then s.count (HIF_CNT_DBDROP n)
    else
      let size := s.sqSize n
      let tail := v.toNat % 4096
      if size ≤ tail then s.haltRing n 1
      else
        let old := s.fld (HIF_STAT_SQTAIL n)
        let newly := (List.range ((tail + size - old) % size)).map (fun i => (old + i) % size)
        let s := s.setFld (HIF_STAT_SQTAIL n) tail
        let s := s.modRing n (fun r => { r with
          copies := r.copies.filter (fun p => !newly.contains p.1)
          rung := r.rung.filter (fun p => !newly.contains p.1) ++ newly.map (fun i => (i, s.devtime)) })
        let s := (s.latchHalf n 0 newly).latchHalf n 1 newly
        ((s.modRing n (fun r => { r with push := Vector.replicate 64 none })).consume n).startFetch n)

/-- CQ_HEAD_DOORBELL (R265, R276): accepted while ACTIVE or DRAINING; out of range, or past CQTAIL, it halts the ring. Failed runs that waited
for room complete. -/
def execCqHeadDoorbell (n : Fin 64) (v : Word) (s : State) : Host.Outcome State Fault Refusal :=
  .next (
    if !s.hostUp then s
    else if s.ringSt n = 0 ∨ s.ringSt n = 3 then s.count (HIF_CNT_DBDROP n)
    else
      let size := s.cqSize n
      let h := v.toNat % 4096
      if size ≤ h ∨ s.cqUsed n < (h + size - s.fld (HIF_CQP_CQHEAD n)) % size then s.haltRing n 2
      else (s.setFld (HIF_CQP_CQHEAD n) h).flush n)

/-- PUSH_SLOT_WRITE (R264): each byte is kept with its valid bit; `ws` gives offsets into the two halves. -/
def execPushSlotWrite (n : Fin 64) (ws : List (Fin 64 × Byte)) (s : State) : Host.Outcome State Fault Refusal :=
  .next (if s.hostUp then s.modRing n (fun r => { r with push := ws.foldl (fun p w => p.set w.1 (some w.2)) r.push }) else s)

/-- BAR2_INVALID_WRITE (R258, R262): a write of `len` bytes that is neither a doorbell nor in a push slot counts in its slot. -/
def execBar2InvalidWrite (off : BitVec 13) (len : Nat) (s : State) : Host.Outcome State Fault Refusal :=
  .next (
    match bar2Target off len with
    | .invalid n => if s.hostUp then s.count (HIF_CNT_DBDROP n) else s
    | _ => s)

/-- DESCRIPTOR_FETCH_DONE (R259, R261, R263, R269, R270): the fetch in flight of a ring returns its descriptors; with Bus Master Enable clear
it is discarded and comes again. -/
def execDescriptorFetchDone (n : Fin 64) (ds : List Desc) (s : State) : Host.Outcome State Fault Refusal :=
  .next (
    if !s.on HIF_LNK_BME ∨ s.ring[n].fetching = false then s
    else
      let want := s.fetchRun n
      let s := s.modRing n (fun r => { r with fetching := false })
      (if s.ringSt n = 1 then (s.modRing n (fun r => { r with copies := r.copies ++ want.zip ds })).consume n else s).startFetches)

/-! ### Enabling -/

/-- The GET_TELEMETRY runs taken whose lists are being read: started commands in the sense of R267 (R260). -/
def State.listReads (s : State) : List (List Desc) :=
  let runs := s.hif.held ++ (s.ring[(0 : Fin 64)].sq.filter (fun i => i.err.isNone)).map (fun i => i.ds)
  runs.filter (fun ds => (ds.head?.map Desc.opc) == some 4)

/-- A ring pair's own state starts afresh; what RP0 started runs on without a completion (R267, R290). -/
def State.freshRing (s : State) (n : Fin 64) : State :=
  let l := if n = 0 then s.ring[(0 : Fin 64)].started else []
  { s.modRing n (fun _ => RingH.reset) with hif := { s.hif with lost := s.hif.lost ++ l } }

/-- Unsolicited entries of a ring that is not ACTIVE are not posted (R267). -/
def State.dropUnsolicited (s : State) (n : Fin 64) : State :=
  s.modRing n (fun r => { r with cq := r.cq.filter (fun c => !c.unsolicited), notices := 0 })

/-- EN of a ring pair changed (R267); with HOSTSEL = 1 there are no rings (R51). -/
def State.enChanged (s : State) (n : Fin 64) (was : Bool) : State :=
  let now := s.on (HIF_CFG_EN n)
  if was = now then s
  else if now && s.on SYS_STRAP_HOSTSEL then s
  else if now then
    let ok (f : Fld) : Bool := decide (4 ≤ s.fld f ∧ s.fld f ≤ 12)
    let aligned := (s.word (HIF_SQA_LO n)).toNat % 4096 == 0 && (s.word (HIF_CQA_LO n)).toNat % 4096 == 0
    let s := ((s.dropTaken n).noPost n).freshRing n
    if ok (HIF_CFG_SQSZ n) && ok (HIF_CFG_CQSZ n) && aligned then
      (s.setWord (HIF_STAT n) 0x10000000).setWord (HIF_CQP n) 0x80000000
    else (s.setFld (HIF_STAT_STATE n) 3).setFld (HIF_STAT_ERR n) 5
  else if s.ringSt n = 1 then
    let s := if n = 0 then { s with hif := { s.hif with lists := s.listReads } } else s
    ((s.setFld (HIF_STAT_STATE n) 2).dropTaken n).dropUnsolicited n
  else
    let s := s.modFc (fun f => { f with misses := f.misses.filter (fun m => m.ring != n) })
    (s.setFld (HIF_STAT_STATE n) 0).freshRing n

/-- RING_DRAINED (R267): nothing started is left and everything is posted. -/
def execRingDrained (n : Fin 64) (s : State) : Host.Outcome State Fault Refusal :=
  .next (
    let r := s.ring[n]
    if s.ringSt n = 2 ∧ r.started = [] ∧ r.cq = [] ∧ (n = 0 → s.hif.lists = []) ∧ s.fc.misses.all (fun m => m.ring != n) then
      (s.setFld (HIF_STAT_STATE n) 0).modRing n (fun _ => RingH.reset)
    else s)

/-! ### Completions and messages -/

/-- Send the ring's message and start its count again (R291). -/
def State.ringMessage (s : State) (n : Fin 64) : State :=
  (s.msix (s.fld (HIF_CFG_VEC n))).modRing n (fun r => { r with counted := 0, since := none })

/-- Count an entry for the ring's message (R291): a REVOKE sends it at once. -/
def State.countEntry (s : State) (n : Fin 64) (c : Compl) : State :=
  if c.counted then
    let s := s.modRing n (fun r => { r with counted := r.counted + 1, since := r.since <|> some s.devtime })
    if s.on (HIF_CFG_IEN n) && (c.status == 0x20 || decide (orZero 1 (s.fld (HIF_CFG_ICNT n)) ≤ s.ring[n].counted)) then
      s.ringMessage n
    else s
  else s

/-- A drain's completion has been issued: where it is that of the drain with FREE, the entries it copied and that are still held are released
(R286, R426). -/
def State.drainRelease (s : State) (c : Compl) : State :=
  match s.hif.drain with
  | some r =>
    if isDrain c = false then s
    else if 0 < r.ahead then { s with hif := { s.hif with drain := some { r with ahead := r.ahead - 1 } } }
    else
      let k := (s.jnl.entries.takeWhile (fun e => decide ((e.seq - r.first).toNat < r.count))).length
      ({ s with hif := { s.hif with drain := none } }).release k (.ring 0 c.tag)
  | none => s

/-- Write the oldest entry at CQTAIL (R271, R272, R276, R291); a REVOKE posted counts (R255). -/
def State.postOne (s : State) (n : Fin 64) : State :=
  match s.ring[n].cq with
  | [] => s
  | c :: l =>
    let tail := s.fld (HIF_CQP_CQTAIL n)
    let base := (s.word (HIF_CQA_HI n)).toNat * 2 ^ 32 + (s.word (HIF_CQA_LO n)).toNat
    let s := s.modRing n (fun r => { r with
      cq := l
      notices := if c.status = 0x21 ∧ c.result.toNat % 256 ≠ 5 then r.notices - 1 else r.notices })
    let s := s.send (.write (BitVec.ofNat 64 (base + 16 * tail))
      (c.bytes (s.fld (HIF_STAT_SQHEAD n)) (s.fld (HIF_CQP_PHASE n))))
    let next := (tail + 1) % s.cqSize n
    let s := s.setFld (HIF_CQP_CQTAIL n) next
    let s := if next = 0 then s.setOn (HIF_CQP_PHASE n) (!s.on (HIF_CQP_PHASE n)) else s
    let s := if c.status = 0x20 then s.count FC_CNT_REVOKES else s
    let s := s.countEntry n c
    if n = 0 then s.drainRelease c else s

/-- The journal still has a record of the command whose entry is the ring's oldest (R275). -/
def State.recordWaits (s : State) (n : Fin 64) : Bool :=
  n == 0 && (s.ring[n].cq.head?).any (fun c => s.jnl.queue.any (fun r => r.origin == (Origin.ring 0 c.tag).word 0))

/-- COMPLETION_POST (R261, R272, R275): room in the ring, ACTIVE or DRAINING, Bus Master Enable set, and the command's records in the
journal. -/
def execCompletionPost (n : Fin 64) (s : State) : Host.Outcome State Fault Refusal :=
  .next (
    if s.awake && s.on HIF_LNK_BME && (s.ringSt n == 1 || s.ringSt n == 2) && !s.recordWaits n &&
        (s.fld (HIF_CQP_CQTAIL n) + 1) % s.cqSize n != s.fld (HIF_CQP_CQHEAD n) then s.postOne n
    else s)

/-- ITIME µs, if not 0, have passed since the first counted entry after the ring's last message (R291). -/
def State.itimeOver (s : State) (n : Fin 64) : Bool :=
  s.fld (HIF_CFG_ITIME n) != 0 && s.ring[n].since.any (fun t => decide (100 * s.fld (HIF_CFG_ITIME n) ≤ (s.devtime - t).toNat))

/-- MSIX_TIMER_EXPIRE (R291): ITIME has passed since the first counted entry. -/
def execMsixTimerExpire (n : Fin 64) (s : State) : Host.Outcome State Fault Refusal :=
  .next (if s.on (HIF_CFG_IEN n) && s.itimeOver n then s.ringMessage n else s)

/-- Is the pending bit of a vector set? -/
def State.pba (s : State) (v : Fin 64) : Bool :=
  if v.val < 32 then (s.word MSIX_PBA_LO).getLsbD v else (s.word MSIX_PBA_HI).getLsbD (v - 32)

/-- An unmasked vector whose pending bit is set sends its message, and the bit clears (R291). -/
def State.firePending (s : State) (v : Fin 64) : State :=
  if s.pba v && !s.on (MSIX_CTL_MASK v) && !s.hif.cfg.msixMask && s.hif.cfg.msixOn && s.on HIF_LNK_BME then
    let off := if v.val < 32 then MSIX_PBA_LO else MSIX_PBA_HI
    (s.setWord off (s.word off &&& ~~~ (1#32 <<< (v.val % 32)))).msix v
  else s

/-! ### Link and power events (R261) -/

/-- Put the registers from `lo` up to `hi` back to their power-on values. -/
def State.resetRange (s : State) (lo hi : Nat) : State :=
  let within (p : Nat × Word) : Bool := decide (lo ≤ p.1 ∧ p.1 < hi)
  { s with regs := (powerOnRegs.filter within).foldl (fun r p => r.set p.1 p.2) (s.regs.filter (fun p => !within p)) }

/-- Does a started command run on after a link loss (R290)? Reads of profiles and keys end with their commands, as telemetry and drains do. -/
def goesOn (d : Desc) : Bool := !(d.opc == 3 || d.opc == 4 || d.opc == 5 || (d.opc == 7 && d.authOp == 1))

/-- HIFn, the MSI-X table, the PBA and configuration space but for its sticky bits return to reset; queued entries, held commands and
requests are discarded (R261, R294). -/
def State.hifReset (s : State) : State :=
  let s := (s.resetRange 0x3000 0x3800).resetRange 0x3A00 0x3E08
  { s with
    ring := Vector.replicate 64 RingH.reset
    hif := { s.hif with
      held := [], tel := none, drain := none, heldOut := [], lists := [], cfg := PciCfg.reset
      lost := s.hif.lost ++ s.ring[(0 : Fin 64)].started.filter goesOn } }

/-- The loss of the link as R261, R248 and R290 give it: reads in flight end with their commands, an ONLINE test stops, Forecast
ends its grants. DEDUCED, log entry 38. -/
def State.linkLost (s : State) : State :=
  let s := (s.setOn HIF_LNK_BME false).setOn HIF_LNK_L1 false
  let s := s.hifReset
  let s := { s with aon := { s.aon with keyLoad := [] } }
  let s := s.each (List.finRange 2) (fun t k => t.modChg k (fun c => { c with load := [] }))
  let s := if s.fld SYS_BIST_SCOPE = 1 then s.endTest 4 8 else s
  s.endAll false (s.on FC_CTL_LDTHR)

/-- The link itself goes: a loss counts where it was up. DEDUCED, log entry 36. -/
def State.linkDown (s : State) : State :=
  let s := if s.on HIF_LNK_LINKUP then s.count HIF_LNK_LINKDN else s
  let s := ((s.setOn HIF_LNK_LINKUP false).setFld HIF_LNK_SPEED 0).linkLost
  { s with hif := { s.hif with d3 := false } }

/-- PE_PERST_N_ASSERT (R248, R261, R290). -/
def execPePerstNAssert (s : State) : Host.Outcome State Fault Refusal := .next s.linkDown

/-- LINK_DOWN (R248, R261, R290). -/
def execLinkDown (s : State) : Host.Outcome State Fault Refusal := .next s.linkDown

/-- FUNCTION_LEVEL_RESET (R261): as PE_PERST_N, the link stays trained. -/
def execFunctionLevelReset (s : State) : Host.Outcome State Fault Refusal := .next s.linkLost

/-- D3HOT_ENTRY (R256, R261): as FUNCTION_LEVEL_RESET, and in D3hot no memory request is served. -/
def execD3hotEntry (s : State) : Host.Outcome State Fault Refusal :=
  .next { s.linkLost with hif := { s.linkLost.hif with d3 := true } }

/-- LINK_UP (R64, R261): the link is held in Detect while the device has no bias, and is not used with HOSTSEL = 1 (R51); `g` is
the speed less 1.
PRESUMED, log entry 37. -/
def execLinkUp (g : Fin 3) (s : State) : Host.Outcome State Fault Refusal :=
  .next (if s.powered && !s.on SYS_STRAP_HOSTSEL then (s.setOn HIF_LNK_LINKUP true).setFld HIF_LNK_SPEED (g.val + 1) else s)

/-- BUS_MASTER_DISABLE (R261, R293): no request is issued; a running GET_TELEMETRY is ABORTED. -/
def execBusMasterDisable (s : State) : Host.Outcome State Fault Refusal := .next (s.setOn HIF_LNK_BME false).abortTel

/-- BUS_MASTER_ENABLE (R256, R261): held requests are issued in order, then the messages that wait; `c` is what the host has programmed in
configuration space by then, D0 included. PRESUMED, log entry 37. -/
def execBusMasterEnable (c : PciCfg) (s : State) : Host.Outcome State Fault Refusal :=
  .next (
    if s.on HIF_LNK_LINKUP then
      let s := s.setOn HIF_LNK_BME true
      let l := s.hif.heldOut
      let s := { s with hif := { s.hif with heldOut := [], cfg := c, d3 := false } }
      let s := s.each l (fun t o => t.send o)
      s.each (List.finRange 64) (fun t v => t.firePending v)
    else s)

/-- ASPM_L1_ENTRY (R261): where the host has enabled it. -/
def execAspmL1Entry (s : State) : Host.Outcome State Fault Refusal :=
  .next (if s.on HIF_LNK_LINKUP && s.hif.cfg.aspmL1 then s.setOn HIF_LNK_L1 true else s)

/-- ASPM_L1_EXIT (R261). -/
def execAspmL1Exit (s : State) : Host.Outcome State Fault Refusal := .next (s.setOn HIF_LNK_L1 false)

end Machine
end Sys2Proof
end

