-- ==== Sys2Proof/Machine/Memory.lean ====
section
/-! DEFINITION. The patrol scrubber and the errors it finds (R381 to R383). -/

namespace Sys2Proof.Machine

/-- Discard the unsaved account of a line that is lost (R383). -/
def State.loseAccount (s : State) (l : GtLine) : State :=
  if l.dirty || (l.acct && l.counted) then (s.count FC_CNT_ACCLOST).evt FC_EVT_ACCLOST else s

/-- An uncorrectable error by what it hit (R383), with the class of its event.
DESIGN CHOICE, log entries 26 and 27. -/
def State.memLoss (s : State) (l : MemLoss) : State × FltClass :=
  match l with
  | .b0 => (s, .fatal)
  | .line c => match s.line? c with
    | none => (s, .corrected)
    | some g =>
      if g.st = .idle ∧ g.dirty = false then (s.dropLine c, .corrected)
      else ((((s.loseAccount g).endGrant g (s.on FC_CTL_LDTHR)).dropLine c).syncLive.syncThr, .contained)
  | .ring n => (if s.ringSt n = 0 then s else s.haltRing n 3, .contained)
  | .tagOne => (s, .corrected)
  | .tagBoth =>
    let s := s.each s.fc.lines (fun t g => (t.loseAccount g).endGrant g (t.on FC_CTL_LDTHR))
    ((s.modFc (fun f => { f with lines := [] })).syncLive.syncThr, .contained)
  | .lru => (s.modFc (fun f => { f with lines := f.lines.map (fun g => { g with used := g.slot }), clock := max 4096 f.clock }), .corrected)
  | .record q =>
    ({ s with hif := { s.hif with history := s.hif.history.map (fun r => if r.seq = q then { r with bad := true } else r) } }, .corrected)
  | .entry i =>
    let blank : JRec := ⟨0, 0, false, false, false, false, 0, 0xFE, 0, 0, 0, 0⟩
    ({ s with jnl := { s.jnl with
        entries := s.jnl.entries.mapIdx (fun j e => if j = i then { e with body := blank } else e) } }, .corrected)
  | .b4 => (s.wipe 3, .contained)

/-- MEM_UEADDR bits 30:0: bank, lane, master, offset of the row. -/
def memAddr (b : Fin 5) (lane : Fin 4) (m : MemMaster) (off : BitVec 19) : Nat :=
  b.val * 2 ^ 28 + lane.val * 2 ^ 26 + m.code * 2 ^ 24 + off.toNat

/-- A corrected error: counted, and its event (R382). -/
def State.memCe (s : State) (b : Fin 5) (x : MemAcc) (a : Nat) : State :=
  ((s.setFlags MEM_EVT (1#32 <<< b.val)).count (MEM_CNT_CE b)).event
    ⟨srcMEM_CE, .corrected, BitVec.ofNat 32 a, x.m.fault, x.code, false⟩

/-- An uncorrectable error at an address: counted, its address kept, its effect by bank, and its event (R383). A partial-lane write
whose read half meets one is not performed (R378). -/
def State.memUe (s : State) (l : MemLoss) (x : MemAcc) (a : Nat) : State :=
  let b := l.bank
  let s := (s.setFlags MEM_EVT (1#32 <<< (5 + b.val))).count (MEM_CNT_UE b)
  let s := if s.on MEM_UEADDR_VALID then s else s.setWord MEM_UEADDR (BitVec.ofNat 32 (2 ^ 31 + a))
  let (s, c) := s.memLoss l
  s.event ⟨if c = .fatal then srcMEM_UE_CP else srcMEM_UE, c, BitVec.ofNat 32 a, x.m.fault, x.code, false⟩

/-- Does the bank serve the access: one that is ACTIVE, and B4 while EMPTY the control processor's (R375, R386, R387)? -/
def State.bankServes (s : State) (b : Fin 5) (m : MemMaster) : Bool :=
  let st := s.fld ⟨MEM_STAT, 4 * b.val + 3, 4 * b.val⟩
  st == 0 || (b == 4 && st == 3 && m == .cp)

/-- PATROL_SCRUB (R375, R378, R379, R381 to R383): one row of an active bank; `last` ends a pass over all active banks, `late` says that the
bank's pass overran SCRUBPER. An error that another master's access meets, and an access the starvation guard grants, come by this row too,
the table having none for them. DESIGN CHOICE, log entry 27. -/
def execPatrolScrub (r : Scrub) (off : BitVec 19) (lane : Fin 4) (last late : Bool) (s : State) : Host.Outcome State Fault Refusal :=
  .next (
    let b := r.bank
    let patrol := r.acc.m == .scrubber
    if !s.awake || (patrol && !s.on MEM_CFG_SCRUBEN) || !r.acc.on b || !rowOk b off lane || !s.bankServes b r.acc.m then s
    else
      let a := memAddr b lane r.acc.m off
      let s := match r with
        | .clean _ => s
        | .ce _ x => s.memCe b x a
        | .ue l x => s.memUe l x a
        | .guard b m => if m = .scrubber then s else s.guardGrants b 1
      let s := if late && patrol then s.evt MEM_EVT_PATROL else s
      if last && patrol then s.count MEM_SCRUB_PASSES else s)

end Sys2Proof.Machine
end

