-- ==== Sys2Proof/Machine/Timer.lean ====
section
/-! DEFINITION. Timers and device time (ch. 13). The prescaler is not tracked: TIMER_INCREMENT is its roll-over; in EXTCLK its edges
are counted. -/

namespace Sys2Proof.Machine

/-- A source code of timer `n` that names a source (R364): not 0, not the timer itself, not above 17. -/
def srcNamed (n : Fin 8) (code : Nat) : Bool := decide (1 ≤ code ∧ code ≤ 17) && decide (code ≠ n.val + 1)

/-- The level of a source (R364). -/
def State.srcLevel (s : State) (n : Fin 8) (code : Nat) : Bool :=
  if !srcNamed n code then false
  else if h : 1 ≤ code ∧ code ≤ 8 then s.tmr[(⟨code - 1, by omega⟩ : Fin 8)].blk
  else if code = 9 then s.cmpOut 46 true else if code = 10 then s.cmpOut 47 true
  else if code = 11 then s.cmpOut 46 false else if code = 12 then s.cmpOut 47 false
  else if code = 13 then s.tmr[n].sync else false

/-- The timer counts now: EN set, gate open, not frozen (R359, R365, R368). -/
def State.tmrRun (s : State) (n : Fin 8) : Bool :=
  s.on (TMR_CTL_EN n) && !(s.on (TMR_CTL_FREEZE n) && s.flt.halted) &&
  (decide (s.fld (TMR_CTL_SMODE n) ≠ 1) || s.srcLevel n (s.fld (TMR_CTL_TRGSEL n)))

/-- The blanking output takes a level, and the comparators under it follow (R325, R366). -/
def State.setBlk (s : State) (n : Fin 8) (b : Bool) : State :=
  if s.tmr[n].blk = b then s else (s.modTmr n (fun t => { t with blk := b })).blankBy n b

/-- EN rises: the prescaler restarts, and TRGO may carry it (R359, R366). -/
def State.tmrRise (s : State) (n : Fin 8) : State :=
  let s := s.modTmr n (fun t => { t with ext := 0, psc := s.fld (TMR_CTL_PSC n) })
  if s.fld (TMR_CTL_TRGO n) = 5 then s.trigger n else s

/-- The prescaler rolls over, with PSC as it is now from here on, and CNT increments (R359, R360, R362, R366). -/
def State.tmrStep (s : State) (n : Fin 8) : State :=
  let s := s.modTmr n (fun t => { t with ext := 0, psc := s.fld (TMR_CTL_PSC n) })
  let cnt := s.fld (TMR_CNT_CNT n)
  let wrap := decide (s.fld (TMR_TOP_TOP n) ≤ cnt)
  let new := if wrap then 0 else cnt + 1
  let s := s.setFld (TMR_CNT_CNT n) new
  let s := if wrap then s.setFlags (TMR_EVT n) 1 else s
  let hit (c : Fin 4) : Bool := s.chMode n c == 1 && s.fld (TMR_CCR_CCR n c) == new
  let stop := wrap && s.on (TMR_CTL_OPM n)
  let s := s.each (finsWhere hit) (fun t c => t.setFlags (TMR_EVT n) (1 <<< (1 + c.val)))
  let s := if stop then s.setOn (TMR_CTL_EN n) false else s
  let s := if hit 1 || stop then s.setBlk n false else if hit 0 then s.setBlk n true else s
  let out := match s.fld (TMR_CTL_TRGO n) with
    | 1 => hit 0
    | 2 => hit 1
    | 3 => hit 2
    | 4 => hit 3
    | 5 => false
    | _ => wrap
  if out then s.trigger n else s

/-- TIMER_INCREMENT (R359, R360, R362 to R366, R368): the prescaler rolls over; `sync` is the level of SYNC_IN.
DESIGN CHOICE, log entry 88. -/
def execTimerIncrement (n : Fin 8) (sync : Bool) (s : State) : Host.Outcome State Fault Refusal :=
  .next (
    let s := s.modTmr n (fun t => { t with sync := sync })
    if s.awake && s.tmrRun n && s.fld (TMR_CTL_SMODE n) != 4 then s.tmrStep n else s)

/-- A source that is named has given an edge: the device's own as they occur, and SYNC_IN, a ball, with the row itself (R364).
DESIGN CHOICE, log entry 88. -/
def edgeGiven (n : Fin 8) (sel : Nat) (edge : Option Nat) : Bool := srcNamed n sel && (decide (sel = 13) || edge == some sel)

/-- TIMER_TRIGGER_EDGE (R364, R365, R373): the edge the slave-mode source has given acts. -/
def execTimerTriggerEdge (n : Fin 8) (s : State) : Host.Outcome State Fault Refusal :=
  .next (
    if !s.awake || !edgeGiven n (s.fld (TMR_CTL_TRGSEL n)) s.tmr[n].edge then s
    else
      let s := s.modTmr n (fun t => { t with edge := none })
      match s.fld (TMR_CTL_SMODE n) with
      | 2 => (s.setFld (TMR_CNT_CNT n) 0).modTmr n (fun t => { t with ext := 0 })
      | 3 => if s.on (TMR_CTL_EN n) then s else (s.setOn (TMR_CTL_EN n) true).tmrRise n
      | 4 =>
        if !s.tmrRun n then s
        else if s.tmr[n].ext + 1 < 2 ^ s.tmr[n].psc then s.modTmr n (fun t => { t with ext := t.ext + 1 })
        else s.tmrStep n
      | _ => s)

/-- TIMER_CAPTURE (R363, R364): the edge a channel's capture source has given; a third unread entry replaces the newer. -/
def execTimerCapture (n : Fin 8) (c : Fin 4) (s : State) : Host.Outcome State Fault Refusal :=
  .next (
    if !s.awake || s.chMode n c != 2 || !edgeGiven n (s.capSel n c) s.tmr[n].capEdge[c] then s
    else
      let q := s.tmr[n].cap[c]
      let v := s.word (TMR_CNT n)
      let s := s.modTmr n (fun t => { t with cap := vmod t.cap c (fun q => q.take 1 ++ [v]), capEdge := vmod t.capEdge c (fun _ => none) })
      s.setFlags (TMR_EVT n) ((1 <<< (5 + c.val)) ||| (if 2 ≤ q.length then 1 <<< (9 + c.val) else 0)))

/-- A read of CCR (R363): a capture channel gives and consumes its oldest unread entry, or gives the last value read. -/
def State.ccrRead (s : State) (n : Fin 8) (c : Fin 4) : Word × State :=
  if s.chMode n c != 2 then (s.word (TMR_CCR n c), s)
  else match s.tmr[n].cap[c] with
    | v :: q => (v, s.modTmr n (fun t => { t with cap := vmod t.cap c (fun _ => q), last := vmod t.last c (fun _ => v) }))
    | [] => (s.tmr[n].last[c], s)

/-- A write to CNT (R361). -/
def State.cntWrite (s : State) (n : Fin 8) (v : Word) : State :=
  (s.setWord (TMR_CNT n) v).modTmr n (fun t => { t with ext := 0 })

/-- A write to CCR (R362, R363): ignored in capture mode; one at or below the present count waits through the wrap. -/
def State.ccrWrite (s : State) (n : Fin 8) (c : Fin 4) (v : Word) : State :=
  if s.chMode n c = 2 then s
  else
    let s := s.setWord (TMR_CCR n c) v
    if s.chMode n c = 1 ∧ v ≤ s.word (TMR_CNT n) then s.setFlags (TMR_EVT n) (1 <<< (13 + c.val)) else s

/-- What follows a write to CTL (R359, R366): EN rose or was cleared. -/
def State.ctlWritten (s : State) (n : Fin 8) (was : Bool) : State :=
  let now := s.on (TMR_CTL_EN n)
  if now && !was then s.tmrRise n else if !now then s.setBlk n false else s

/-! ### Device time -/

/-- The wrap of DEVTIME (R370): the entry carries the wrapped value. -/
def State.timeWrap (s : State) : State :=
  let old := s.word DEVTIME_EPOCH &&& 0xFF
  let s := ({ s with devtime := 0 }).count DEVTIME_EPOCH_EPOCH
  s.jevent .tmr 0x12 0 old (s.word DEVTIME_EPOCH &&& 0xFF) 0

/-- One DEVTIME tick of 10 ns (R13, R370); a comparator whose settling ends with it follows its input (R323). -/
def State.timeTick (s : State) : State :=
  (if s.devtime = BitVec.allOnes 56 then s.timeWrap else { s with devtime := s.devtime + 1 }).settled

/-- DEVTIME_WRAP (R370): the tick after the largest count. -/
def execDevtimeWrap (s : State) : Host.Outcome State Fault Refusal :=
  .next (if s.powered && s.devtime == BitVec.allOnes 56 then s.timeWrap else s)

/-- CP_DEBUG_HALT (R82, R368, R408): a halt exists in BLANK and RETURNED only. -/
def execCpDebugHalt (s : State) : Host.Outcome State Fault Refusal :=
  .next (if s.lifecycle = 0 ∨ s.lifecycle = 3 then { s with flt := { s.flt with halted := true } } else s)

/-- CP_DEBUG_RESUME (R368, R408). -/
def execCpDebugResume (s : State) : Host.Outcome State Fault Refusal :=
  .next { s with flt := { s.flt with halted := false } }

end Sys2Proof.Machine
end

