-- ==== Sys2Proof/Machine/TwPort.lean ====
section
/-! DEFINITION. The bus side of the two-wire ports: 0 = M; 1 = PK0; 2 = PK1 (R298, R299, R306, R307, R312, R313, R316). -/

namespace Sys2Proof.Machine

/-- The pack port of a two-wire port. -/
def twPack (p : Fin 3) : Fin 2 := if p = 1 then 0 else 1
/-- The event register of a port: bit 0 = BUSERR; 1 = TO_SCL; 2 = TO_SDA in both layouts. -/
def twEvt (p : Fin 3) : Nat := if p = 0 then TW_M_EVT else TW_PK_EVT (twPack p)
/-- HELD of a port. -/
def twHeld (p : Fin 3) : Fld := if p = 0 then TW_M_STAT_HELD else TW_PK_STAT_HELD (twPack p)
/-- BUSCLR of a port: it reads 1 while the bus clear it asked for is pending. -/
def twClr (p : Fin 3) : Fld := if p = 0 then TW_M_CTL_BUSCLR else TW_PK_CTL_BUSCLR (twPack p)

/-- The filtered levels of SCL and SDA, as the port's status shows them (R298). DEDUCED, log entry 57. -/
def State.setLines (s : State) (p : Fin 3) (scl sda : Bool) : State :=
  if p = 0 then (s.setOn TW_M_STAT_SCL scl).setOn TW_M_STAT_SDA sda
  else (s.setOn (TW_PK_STAT_SCL (twPack p)) scl).setOn (TW_PK_STAT_SDA (twPack p)) sda

/-- The bus of a port is busy or free, with both lines high (R299); TW_M_STAT.BUSY shows M's. -/
def State.setBusy (s : State) (p : Fin 3) (b : Bool) : State :=
  let s := s.modTw p (fun t => { t with busy := b })
  let s := if p = 0 then s.setOn TW_M_STAT_BUSY b else s
  if b then s else s.setLines p true true

/-- M leaves the transaction it serves: nothing is committed (R306). -/
def State.twAbandon (s : State) (p : Fin 3) : State :=
  let s := s.modTw p (fun t => { t with part := none })
  if p = 0 then s.setFld TW_M_STAT_ROLE 0 else s

/-- A bus error, timeout or PEC error of M is counted. -/
def State.twCount (s : State) (p : Fin 3) : State := if p = 0 then s.count TW_M_CNT_ERRS else s

/-- The ports work: after step 3 for M, for PK0 and PK1 outside a device reset (R315). -/
def State.twUp (s : State) (p : Fin 3) : Bool := s.awake && (p != 0 || s.sys.strapsRead)

/-- A failed Rarex transaction (R201): two in a row bring 100 kHz until the pack is removed. -/
def State.txFailed (s : State) (k : Fin 2) : State :=
  let s := (s.count (TW_PK_CNT_FAIL k)).modPk k (fun h => { h with txFails := h.txFails + 1 })
  if 2 ≤ s.pk[k].txFails then s.setOn (TW_PK_STAT_SLOW k) true else s

/-- The transaction that a port carries as controller is ended by an event of its bus and counts as failed (R309, R313): on a pack bus one of
the pack in the port, on M an attempt of a pending Host Notify, for which the bus was free. DEDUCED, log entry 144. -/
def State.twLost (s : State) (p : Fin 3) : State :=
  let t := s.tw[p]
  if p = 0 then
    if t.hnPend && !t.busy && s.fld TW_M_STAT_ROLE == 0 then s.modTw 0 (fun t => { t with hnFails := t.hnFails + 1, hnTry := s.devtime }) else s
  else if s.packIn (twPack p) then (s.count (TW_PK_CNT_XFER (twPack p))).txFailed (twPack p) else s

/-- A START or a STOP that the port did not make ends what it does (R299, R306, R311 to R313): a START leaves SDA low and the bus busy, a
STOP both lines high and the bus free; the row does not say which it is. SDA is checked before the port's next transaction as
controller. DESIGN CHOICE, log entry 145. -/
def State.twStray (s : State) (p : Fin 3) : State :=
  let (w, s) := s.free
  let s := if w.getLsbD 0 then s.setBusy p false else (s.setBusy p true).setLines p true false
  s.modTw p (fun t => { t with check := true })

/-- TW_BUS_ERROR (R306, R312, R313): what caused the error begins no transaction. On PK0 and PK1 it is another controller. -/
def execTwBusError (p : Fin 3) (s : State) : Host.Outcome State Fault Refusal :=
  .next (
    if s.twUp p then (((s.twAbandon p).setFlags (twEvt p) (if p = 0 then 1 else 0x21)).twCount p).twLost p |>.twStray p
    else s)

/-- A timeout of a port (R307, R313): the transaction is abandoned; SDA is checked before the next one (R312). -/
def State.twTimeout (s : State) (p : Fin 3) (sda : Bool) : State :=
  let s := (((s.twAbandon p).setFlags (twEvt p) (if sda then 4 else 2)).twCount p).fault srcTW_TIMEOUT p.val
  (s.setLines p sda (!sda)).modTw p (fun t => { t with check := true })

/-- TW_SCL_TIMEOUT (R307, R312, R313). -/
def execTwSclTimeout (p : Fin 3) (s : State) : Host.Outcome State Fault Refusal :=
  .next (if s.twUp p then (s.twLost p).twTimeout p false else s)

/-- TW_SDA_TIMEOUT (R307, R312, R313). -/
def execTwSdaTimeout (p : Fin 3) (s : State) : Host.Outcome State Fault Refusal :=
  .next (if s.twUp p then (s.twLost p).twTimeout p true else s)

/-- TW_BUS_FREE (R299): both lines high for 50 µs. -/
def execTwBusFree (p : Fin 3) (s : State) : Host.Outcome State Fault Refusal :=
  .next (if s.awake then s.setBusy p false else s)

/-- The check of SDA before a transaction (R312): SDA reads high, at once or after pulses and a STOP, and both lines are high; or it is still
low after nine, and the port is held. -/
def State.sdaCheck (s : State) (p : Fin 3) (c : SdaCheck) : State :=
  let s := s.setOn (twClr p) false
  match c with
  | some n =>
    let s := (s.setOn (twHeld p) false).modTw p (fun t => { t with check := false })
    if n = 0 then s.setLines p true true else s.setBusy p false
  | none => ((((s.setLines p true false).setFlags (twEvt p) 4).setOn (twHeld p) true)).fault srcTW_STUCK p.val

/-- TW_BUS_CLEAR (R312, R316): a held port waits for BUSCLR; an empty pack port has no transaction to check for. -/
def execTwBusClear (p : Fin 3) (pulses : Option (Fin 10)) (s : State) : Host.Outcome State Fault Refusal :=
  .next (
    if !s.twUp p || !s.tw[p].check || (s.on (twHeld p) && !s.on (twClr p)) || (p != 0 && !s.packIn (twPack p) && !s.on (twClr p)) then s
    else s.sdaCheck p pulses)

/-- BUSCLR written 1 (R312, R316): ignored unless the port is held. -/
def State.busClr (s : State) (p : Fin 3) : State :=
  if s.on (twHeld p) then (s.setOn (twClr p) true).modTw p (fun t => { t with check := true }) else s

/-- RST written 1 (R299, R316): the transaction is abandoned, the bus starts as busy, SDA is checked before the next one. Registers, an
alert and a pending Host Notify stay. DEDUCED, log entry 57. -/
def State.portReset (s : State) (p : Fin 3) : State :=
  ((s.twAbandon p).setBusy p true).modTw p (fun t => { t with check := true })

end Sys2Proof.Machine
end

