-- ==== Sys2Proof/Machine/Startup.lean ====
section
/-! DEFINITION. Bias, the start-up sequence step by step (R57 to R70), resets (R71 to R74), SAFE_TALK (R75, R76) and the
wake from Doldrums (R214, R215). -/

namespace Sys2Proof.Machine

/-! ### Steps -/

/-- Step `k` fails with a code, 0 for a step that has none (R66): CODE keeps the first failure in step order.
DEDUCED, log entry 110. DEDUCED, log entry 137. -/
def State.bootFail (s : State) (k code : Nat) : State :=
  let s := s.setFlags SYS_BOOT (1#32 <<< (3 + k))
  if s.fld SYS_BOOT_CODE = 0 ∨ k = 3 then s.setFld SYS_BOOT_CODE code else s

/-- Set the step in progress. -/
def State.setStep (s : State) (k : Nat) : State := s.setFld SYS_STATE_STEP k

/-- The strap fault of R56. DEDUCED, log entry 137. -/
def State.strapFault (s : State) : State := (s.fault srcSTRAP_FAULT (s.word SYS_STRAP).toNat).bootFail 3 0x31

/-- Step 3 (R49 to R57): straps, their entries, the phases strapped, the M port's address; with HOSTSEL = 1 there is no host link.
DEDUCED, log entry 16. -/
def State.bootStraps (s : State) (r : Boot) : State :=
  let w := r.strapWord
  let s := (s.setStep 3).setWord SYS_STRAP w
  let s := if s.on SYS_STRAP_STRAPOK then s else s.strapFault
  let pin := (Origin.pin .straps).word 0
  let s := if s.sys.strapCopy = w then s else s.journal (s.stamp 3 false pin 0x02 0 s.sys.strapCopy w 0)
  let s := if s.on SYS_STRAP_TESTEN then s.journal (s.stamp 3 false pin 0x16 0 0 w 0) else s
  let s := s.setFld TW_M_STAT_ADDR (0x30 + s.fld SYS_STRAP_TWADDR)
  let s := s.each (finsWhere (fun n : Fin 16 => decide (s.fld SYS_STRAP_PHCNT ≤ n.val))) (fun t n =>
    (t.setFld (PH_CFG_PORT n) 2).setFld ⟨PH_PMAP, 2 * n.val + 1, 2 * n.val⟩ 2)
  let s := if s.on SYS_STRAP_HOSTSEL && s.on HIF_LNK_LINKUP then s.linkDown else s
  { s with sys := { s.sys with strapCopy := w, strapsRead := true } }

/-- Trims from the Anvil fuses, or the default ones where its CRC fails (R7, R61, R66). DESIGN CHOICE, log entry 18. -/
def State.loadTrims (s : State) (ok : Bool) : State :=
  let s := s.each (List.range 48) (fun t c =>
    let w := if ok then Config.cmpTrim c else Config.cmpTrimDefault c
    (t.setFld (CMP_STAT_TRIMA c) (w.toNat % 64)).setFld (CMP_STAT_TRIMB c) (w.toNat / 64))
  s.each [0, 1] (fun t k => t.setFld (COUL_OFS_OFS k) (if ok then Config.coulTrim k else Config.coulTrimDefault k).toNat)

/-- Step 4 (R61, R66, R81): fuses, trims and the life-cycle state. -/
def State.bootFuses (s : State) (r : Boot) : State :=
  let s := s.setStep 4
  let s := (s.setFld SYS_ID_ANVREV Config.anvRev.toNat).setFld SYS_ID_CIRREV Config.cirRev.toNat
  let s := s.setFld SYS_LC_STATE s.lifecycle
  let s := s.each (List.finRange 5) (fun t b => t.setFld (MEM_REP_FUSE b.val) (t.mem.fuseSpares[b]))
  let s := s.loadTrims r.anvilCrc
  let s := { s with sys := { s.sys with noCheck := !r.anvilCrc } }
  let s := if r.anvilCrc then s else s.bootFail 4 0x41
  let s := if r.cirrusCrc then s else s.bootFail 4 0x42
  if s.lifecycle == 0 && !s.on SYS_STRAP_TESTEN then s.bootFail 4 0x01 else s

/-- A bank's march test: `bad` failing columns beyond the fused ones are repaired from the spares left of its four (R61, R385). -/
def State.marchBank (s : State) (b : Fin 5) (bad : Nat) : State :=
  let left := 4 - s.fld (MEM_REP_FUSE b.val)
  (s.setFld (MEM_REP_SOFT b.val) (min left bad)).setOn (MEM_REP_FAIL b.val) (decide (left < bad))

/-- Step 5 (R61, R66, R74, R382, R383, R385): the march repairs from the spares left; a warm start scrubs B3 in its place. -/
def State.bootSram (s : State) (r : Boot) (cold : Bool) : State :=
  let s := s.setStep 5
  let s := s.each ((List.finRange 5).filter (fun b => cold || b != 3)) (fun t b => t.marchBank b r.sram[b])
  let s := if (List.range 5).any (fun b => s.on (MEM_REP_FAIL b)) then s.bootFail 5 0x51 else s
  let s := (s.setWord MEM_STAT 0).setFld MEM_STAT_B4 3
  let s := s.setOn SYS_BOOT_WARM (!cold)
  let s := { s with mem := { s.mem with b0 := [] } }
  if cold then s
  else
    let s := s.each r.b3ce (fun t e => t.memCe 3 ⟨.scrubber, false⟩ (memAddr 3 e.1 .scrubber e.2))
    s.each r.b3bad (fun t e => t.memUe (.entry e.1) ⟨.scrubber, false⟩ (memAddr 3 e.2.1 .scrubber e.2.2))

/-- Step 6 (R61, R66): with the link up Anvil drives the trip wires (R17, R18), and each comparator shows what its input has released
(R322). -/
def State.bootLink (s : State) (r : Boot) : State :=
  let s := s.setStep 6
  let s := { s with sys := { s.sys with d2d := r.linked, anvilUp := true } }
  let s := s.each (List.finRange 16) (fun t n => t.modPh n (fun p => { p with trip := !r.linked || p.wireOpen }))
  let s := s.each (List.finRange 48) (fun t c => t.cmpSee c r.cmpIn[c])
  if r.linked then s else s.bootFail 6 0x61

/-- Step 7 (R55, R61, R63, R66): references, converters, comparators, PHCNT again, the seal. -/
def State.bootRefs (s : State) (r : Boot) : State :=
  let m := r.refs
  let s := (s.setStep 7).setRefs m
  let s := if m.refOk then s else s.bootFail 7 0x71
  let s := if m.adcOk then s else s.bootFail 7 0x72
  let s := if (List.finRange 48).all m.cmpOk then s else s.bootFail 7 0x73
  let s := s.each (List.finRange 4) (fun t n =>
    t.modFeed n (fun f => { f with proved := f.proved || (m.cmpOk (Fin.ofNat 48 (16 + n)) && m.cmpOk (Fin.ofNat 48 (20 + n))) }))
  let first := s.on SYS_STRAP_STRAPOK
  let s := s.phcntAgain m.phcnt
  let s := if first && !s.on SYS_STRAP_STRAPOK then s.strapFault else s
  s.bootSeal m

/-- Step 8 (R61, R66). -/
def State.bootLoop (s : State) (r : Boot) : State :=
  let s := s.setStep 8
  if (List.finRange 16).any (fun n => decide (n.val < s.fld SYS_STRAP_PHCNT) && r.loopBad.getLsbD n.val) then s.bootFail 8 0x81 else s

/-- Step 9 (R61, R66, R67, R72): `up` where the result reaches Cirrus. A feed turned off by EN and a LATCHED one keep their state. A
conducting feed reports IN_SERVICE also where the Anvil fuses fail, and a failing feed is a failure of the step. DEDUCED, log entries 21
and 110. -/
def State.bootFeeds (s : State) (r : Boot) (up : Bool) : State :=
  s.setStep 9 |>.each (List.finRange 4) (fun t n =>
    let c := r.feedChk[n]
    let t := t.modFeed n (fun f => { f with present := c.here })
    let wait := t.feedSt n == .absent || t.feedSt n == .off
    let t := if wait && t.on (FEED_CFG_EN n) then t.setFeed n (if c.here then .check else .absent) else t
    if !up then t
    else if conducts (t.feedSt n) then t.setChk n .inService
    else if t.sys.noCheck then t.setChk n .notRun
    else if !c.here then t.setChk n .absent
    else if c.result = .pass then (if t.feedSt n = .check then t.checkPassed n else t.setChk n .pass)
    else
      let t := (t.bootFail 9 0).checkFailed n c.result
      if t.feedSt n = .check then t.setFeed n .failed else t)

/-- Step 10 (R61, R68, R69): each leg of each populated phase with 4.5 V across it is probed; the others are PENDING. A short is a failure
of the step (log entry 110). -/
def State.bootLegs (s : State) (r : Boot) : State :=
  s.setStep 10 |>.each (finsWhere (fun n : Fin 16 => decide (n.val < s.fld SYS_STRAP_PHCNT))) (fun t n =>
    let t := t.modPh n (fun p => { p with legB := .pending, legK := .pending })
    let t := (t.setPh n (t.restPh n)).syncProbe n
    let t := t.probeLive n r.legs
    if t.phSt n = .shorted then t.bootFail 10 0 else t)

/-- PKn_PRES_N at step 11 from its samples, newest first, true = low (R191). -/
def lowSpan (l : List Bool) : Bool := decide (5 ≤ l.length) && (l.take 50).all (fun b => b)

/-- Five samples of a port in a row were high (R190). -/
def goneSpan : List Bool → Bool
  | [] => false
  | b :: l => (decide (4 ≤ l.length) && !b && (l.take 4).all (fun b => !b)) || goneSpan l

/-- Step 11 (R61, R66, R190 to R192, R312): a present pack whose identity cannot be read is a failure of the step (log entry 110). -/
def State.bootPacks (s : State) (r : Boot) : State :=
  s.setStep 11 |>.each (List.finRange 2) (fun t k =>
    let t := if t.aon.present[k] && (t.aon.removed[k] || goneSpan r.packs[k]) then t.packLeft k else t
    if lowSpan r.packs[k] then
      let t := ((t.inserted k).sdaCheck ⟨k.val + 1, by omega⟩ r.sda[k]).identDone k r.ident[k]
      if t.pk[k].ident.isSome then t else t.bootFail 11 0
    else t)

/-- The end of the sequence (R61, R63, R66, R76, R111, R407, R412): RUN, SAFE_TALK, or the safe state where its level is asserted, which
governs also where SAFE_TALK is due. DESIGN CHOICE, log entry 111. -/
def State.bootEnd (s : State) : State :=
  let s := (s.setStep 12).setOn SYS_STATE_INRUSHOK true
  let s :=
    if s.flt.level then ((s.setFld SYS_STATE_MODE 3).faultHeld).feedsHwOnly
    else if s.fld SYS_BOOT_CODE ≠ 0 then
      ((s.setFld SYS_STATE_MODE 2).faultHeld.jevent .sys 0x10 0 0 (s.word SYS_BOOT) 0).feedsHwOnly
    else
      let s := ((s.setFld SYS_STATE_MODE 1).setOn SYS_STATE_PHOK true).faultRun
      let hw := finsWhere (fun n : Fin 4 => s.feedSt n == .hwonly)
      let s := s.each hw (fun t n => t.setFeed n .on)
      let s := if hw.isEmpty then s else s.feedsBack
      (s.chgWake 0).chgWake 1
  (((s.syncFeeds.settleGroup).syncPorts).applySync.syncThr.syncElig 0).syncElig 1

/-- Steps 3 to 11 in order (R61, R66): without the link, steps 7, 8, 10 and 11 do not run.
DESIGN CHOICE, log entry 11. -/
def State.startUp (s : State) (r : Boot) (cold : Bool) : State :=
  let s := { s with sys := { s.sys with resetHeld := false } }
  let s := s.setFld SYS_STATE_MODE 0
  let s := ((s.bootStraps r).collect.bootFuses r).collect
  let s := ((s.bootSram r cold).collect.bootLink r).collect
  let s := if r.linked then
      let s := ((s.bootRefs r).collect.bootLoop r).collect
      ((s.bootFeeds r true).collect.bootLegs r).collect.bootPacks r
    else s.bootFeeds r false
  let s := s.collect
  s.bootEnd

/-! ### Bias -/

/-- BIAS_RISE (R58, R60): step 1, once an input that the ORing connects passes 4.5 V. -/
def execBiasRise (v : BiasIn) (s : State) : Host.Outcome State Fault Refusal :=
  .next (
    let src := v.pick none
    if s.sys.bias.isSome || s.sys.doldrums || decide (v.at_ src ≤ 45 / 10) then s
    else ({ s with sys := { s.sys with bias := some src } }).setStep 1)

/-- Step 2 (R61, R369): the clocks start; a wake restores DEVTIME by the AON count and names its source. -/
def State.bootClocks (s : State) (r : Boot) (wake : Bool) : State :=
  let s := { s.setStep 2 with sys := { s.sys with biasGood := true } }
  if wake then
    let cycles : Rat := (s.aon.cycles + BitVec.ofNat 48 r.aonRest.val).toNat
    let s := { s with devtime := s.aon.savedTime + BitVec.ofNat 56 (cycles * 30517578125 / 10000000).floor.toNat }
    s.setFld DEVTIME_EPOCH_RECON (if r.crystal then 1 else 2)
  else { s with devtime := 0 }

/-- BIAS_GOOD (R59 to R61): steps 2 to 11 from the first bias. -/
def execBiasGood (r : Boot) (s : State) : Host.Outcome State Fault Refusal :=
  .next (
    if s.sys.bias.isNone || s.sys.biasGood || s.sys.doldrums then s
    else (s.bootClocks r false).startUp r true)

/-- BIAS_SOURCE_CHANGE (R58): the source the inputs now call for; it interrupts nothing. -/
def execBiasSourceChange (v : BiasIn) (s : State) : Host.Outcome State Fault Refusal :=
  .next (if s.sys.bias.isNone then s else { s with sys := { s.sys with bias := some (v.pick s.sys.bias) } })

/-! ### Power-on and device reset -/

/-- A life-cycle change cut off by a loss of bias or a reset (R85): which fuses of the groups it blows are blown the manual does not say;
each group reads the old or the new state by its majority. DESIGN CHOICE, log entry 8. -/
def State.lcCut (s : State) : State :=
  match s.sys.lcTarget with
  | none => s
  | some g =>
    let (w, s) := s.free
    let cut := Vector.ofFn (fun i : Fin 3 => s.sys.fuses[i] ||| (if g.getLsbD i then w.extractLsb' (5 * i) 5 else 0))
    { s with sys := { s.sys with lcTarget := none, fuses := cut } }

/-- Everything but fuses returns to reset (R59, R71). -/
def State.powerOnReset (s : State) : State :=
  let s := s.lcCut
  { State.reset with
    sys := { State.reset.sys with fuses := s.sys.fuses }
    aon := { State.reset.aon with keys := s.aon.keys }
    mem := { s.mem with b0 := [] }
    out := s.out
    rdata := s.rdata
    freeCtr := s.freeCtr
    pending := s.pending }

/-- POWER_ON_RESET (R59, R60). -/
def execPowerOnReset (s : State) : Host.Outcome State Fault Refusal := .next s.powerOnReset

/-- The registers after a device reset or a wake (R7): each field of code K, and the values of straps and fuses, are kept, the others
take their power-on values. -/
def resetRegs (old : RegFile) : RegFile :=
  (old ++ powerOnRegs).foldl (fun r p =>
    match findReg regTable p.1 with
    | some row =>
      let m := row.keptMask
      if m = 0 then r else r.set p.1 ((RegFile.get old p.1 &&& m) ||| (RegFile.get r p.1 &&& ~~~ m))
    | none => r) powerOnRegs

/-- A feed through a device reset (R72, R88, R97): a conducting one keeps its state and its limits with its comparators (R322), and counts
as proved (R63); a LATCHED one stays so; any other starts again; the trip counts clear. DESIGN CHOICE, log entry 5. -/
def State.resetFeed (s old : State) (n : Fin 4) : State :=
  let st := old.feedSt n
  if conducts st then
    let s := s.each [FEED_STAT n, FEED_EFF n, CMP_STAT (16 + n.val), CMP_STAT (20 + n.val)] (fun t off => t.setWord off (old.word off))
    let s := s.setFld (FEED_STAT_RETRIES n) 0
    ({ s with feed := s.feed.set n { old.feed[n] with proved := true, thTrips := 0, scTrips := 0 } }).setQual n (old.qual n)
  else
    let keep := old.feed[n]
    let s := s.modFeed n (fun f => { f with dT := keep.dT, present := keep.present })
    if st = .latched then s.setFeed n .latched
    else if !s.on (FEED_CFG_EN n) then s.setFeed n .off
    else s.setFeed n .absent

/-- A pack port through a device reset or a wake: its charge count is kept (R199). -/
def State.resetPk (s old : State) (k : Fin 2) : State := (s.modPk k (fun p => { p with q := old.pk[k].q })).syncQ k

/-- A charge port through a device reset: the profile is kept (R154). -/
def State.resetChg (s old : State) (k : Fin 2) : State :=
  match old.chg[k].prof with
  | none => s
  | some p =>
    let s := s.modChg k (fun c => { c with prof := some p, crc := old.chg[k].crc })
    ((s.setOn (CHG_STAT_PROFOK k) true).setFld (CHG_STAT_CHEM k) p.chem).setFld (CHG_STAT_NCELL k) p.ncell

/-- A phase after a device reset: L_i starts at LMIN of its port (R127), and an open trip wire stays open (R20). DEDUCED, log entries 89 and
112. -/
def State.resetPh (s old : State) (n : Fin 16) : State :=
  let lmin := s.fld (PHP_INDL_LMIN 0)
  (s.modPh n (fun p => { p with li := (lmin : Rat) / 100, wireOpen := old.ph[n].wireOpen })).setFld (PH_LRN_LNH n) lmin

/-- The blocks at reset, with registers of code K, fuses, keys, the journal, the always-on island, the trained link, the levels of the
collector's inputs and the device time kept (R64, R71, R369, R399). DESIGN CHOICE, log entries 15 and 20. -/
def State.warmReset (s : State) : State :=
  let s := s.lcCut
  let t : State := { State.reset with
    regs := resetRegs s.regs
    devtime := s.devtime
    jnl := s.jnl
    flt := { State.reset.flt with lines := s.flt.lines, halted := s.flt.halted, retryAt := s.flt.retryAt }
    sys := { State.reset.sys with
      bias := s.sys.bias, biasGood := s.sys.biasGood, doldrums := s.sys.doldrums, strapCopy := s.sys.strapCopy, fuses := s.sys.fuses }
    aon := { s.aon with b4 := Vector.replicate 4 none, b4certs := Vector.replicate 2 none, keyLoad := [], wiping := none }
    hif := { State.reset.hif with telSeq := s.hif.telSeq }
    fc := { State.reset.fc with pbase := (s.fld FC_BASE_BASEMIN : Rat) }
    mem := s.mem
    out := s.out
    rdata := s.rdata
    freeCtr := s.freeCtr
    pending := s.pending }
  let t := t.setFld (MEM_REP_SOFT 3) (s.fld (MEM_REP_SOFT 3))
  let t := t.each (List.finRange 4) (fun u n =>
    (u.modFeed n (fun f => { f with ilimEff := u.ilim n })).setCode (FEED_EFF_ILIM_EFF n) (8 * u.ilim n))
  let t := t.count SYS_RST_RSTCNT
  let t := t.each (List.finRange 2) (fun u k => (u.resetChg s k).resetPk s k)
  let t := t.each (List.finRange 16) (fun u n => u.resetPh s n)
  let t := t.retarget (t.fld PH_VHOLD_VTGT) (t.fld PH_VHOLD_SLEW)
  (t.setOn FLT_PIN_LOW true).syncThr

/-- A device reset begins (R64, R71, R72, R399, R415): the window closes, what is journalled reaches B3, phases stop and pack FETs open.
DEDUCED, log entry 19. -/
def State.deviceReset (s : State) (cause : Nat) : State :=
  let s := (s.closeWindow (.hardware .sys)).flushJournal
  let t := s.warmReset
  let t := { t.setWord HIF_LNK (s.word HIF_LNK) with hif := { t.hif with cfg := s.hif.cfg, d3 := s.hif.d3, aer := s.hif.aer } }
  let t := t.each (List.finRange 4) (fun u n => u.resetFeed s n)
  let t := t.setOn FEED_GSTAT_FEEDS_LOST (s.lostFeeds || t.noFeed)
  let t := ((t.setFld SYS_RST_CAUSE cause).setStep 3).syncFeeds
  { t with sys := { t.sys with resetHeld := true } }

/-- RESET_N_ASSERT (R65, R71). DEDUCED, log entry 13. -/
def execResetNAssert (s : State) : Host.Outcome State Fault Refusal :=
  .next (if s.powered then s.deviceReset 1 else s)

/-- RESET_N_RELEASE (R65): start-up from step 3. -/
def execResetNRelease (r : Boot) (s : State) : Host.Outcome State Fault Refusal :=
  .next (if s.powered && s.sys.resetHeld then s.startUp r false else s)

/-! ### Doldrums -/

/-- A wake source has met its count of ticks (R214). DESIGN CHOICE, log entry 1. -/
def State.wakeDue (s : State) : WakeSrc → Bool
  | .s0 => decide (8 ≤ s.aon.sent[0])
  | .s1 => decide (8 ≤ s.aon.sent[1])
  | .wakeN => decide (10 ≤ s.aon.wakeTicks)
  | .press k =>
    let (h, l) := s.aon.press[k]
    s.on PK_SHIP_PWEN && s.aon.present[k] && !s.aon.removed[k] && decide (100 ≤ h ∧ h ≤ 2000 ∧ 50 ≤ l)

/-- DOLDRUMS_WAKE (R58, R60, R61, R71, R214, R248): start-up runs from step 1 on the source the inputs call for, and ARM clears; every
domain but AON and B3 has lost its state, the host link included. Registers of code K are kept. DEDUCED, log entry 14. -/
def execDoldrumsWake (w : WakeSrc) (v : BiasIn) (r : Boot) (s : State) : Host.Outcome State Fault Refusal :=
  .next (
    if !s.sys.doldrums || !s.wakeDue w then s
    else
      let lnk := s.linkDown
      let t := s.warmReset.setFld HIF_LNK_LINKDN (lnk.fld HIF_LNK_LINKDN)
      let t := t.each (List.finRange 4) (fun u n =>
        let u := u.setFeed n (if u.on (FEED_CFG_EN n) then .absent else .off)
        u.modFeed n (fun f => { f with dT := s.feed[n].dT }))
      let t := ((t.setFld SYS_RST_CAUSE 3).setOn PK_SHIP_ARM false).setStep 1
      let t := { t with sys := { t.sys with doldrums := false, bias := some (v.pick none) } }
      (t.bootClocks r true).startUp r false)

/-- SHIP_CUT (R215): S2 and S3 true, or true for every present pack, for 16 ticks, with S0 and S1 false; the next bias is a power-on. -/
def execShipCut (s : State) : Host.Outcome State Fault Refusal :=
  .next (
    let low (i : Fin 4) : Bool := decide (16 ≤ s.aon.sent[i])
    let both := low 2 && low 3
    let is (k : Fin 2) : Bool := s.aon.present[k] && !s.aon.removed[k]
    let here := (is 0 || is 1) && (!is 0 || low 2) && (!is 1 || low 3)
    if s.sys.doldrums && s.fld PK_SHIP_SHIPCUT != 0 && (both || here) && s.aon.sent[0] == 0 && s.aon.sent[1] == 0 then s.powerOnReset
    else s)

end Sys2Proof.Machine
end

