-- ==== Sys2Proof/Machine/SelfTest.lean ====
section
/-! DEFINITION. The self-tests on request (R77 to R80, R287) and the life-cycle changes (R81 to R85). -/

namespace Sys2Proof.Machine

/-! ### ONLINE -/

/-- The phases an ONLINE test takes: the populated ones, but for a phase that is SHORTED until a device reset (R70) or has an
unprobed leg (R69). DEDUCED, log entry 23. -/
def State.testList (s : State) : List (Fin 16) :=
  finsWhere (fun n => decide (n.val < s.fld SYS_STRAP_PHCNT) && s.phSt n != .shorted && s.phSt n != .pending)

/-- Take the next phase out of rotation (R78, R132): a running one sheds; the others need not. A phase that is LOST or in OCL is in no
rotation (R79). -/
def State.testNext (s : State) : State :=
  match s.sys.testLeft with
  | [] => { s with sys := { s.sys with testPhase := none } }
  | n :: l =>
    let was := if s.phSt n = .lost ∨ s.phSt n = .ocl then some (s.phSt n) else none
    let s := { s with sys := { s.sys with testPhase := some n, testWas := was, testLeft := l } }
    if s.phSwitching n then (s.setPh n .shedding).syncPorts else (s.setPh n .test).syncPorts

/-- SYS_BIST at the start or at a refusal of a run. -/
def State.setBist (s : State) (scope status : Nat) : State := s.setWord SYS_BIST (BitVec.ofNat 32 (4 * status + scope))

/-- The margin of R77 on every port with switching phases. -/
def State.allMargin (s : State) : Bool := s.margin 0 && s.margin 1

/-- SELFTEST at its start (R77, R78, R80, R275, R287). DEDUCED, log entry 24. -/
def State.startSelftest (s : State) (d : Desc) : State :=
  let bist (t : State) : Nat := (t.word SYS_BIST).toNat
  if d.scope = 0 ∨ d.scope = 3 then s.refuse d 0 2 0 0 (bist s)
  else if s.sys.test.isSome then s.refuse d 0 4 0 0 (bist s)
  else if d.scope = 1 then
    if !s.allMargin then
      let s := s.setBist 1 2
      s.refuse d 0 5 0 0 (bist s + 500 * 2 ^ 32)
    else
      let s := s.setBist 1 5
      ({ s with sys := { s.sys with test := some d, testLeft := s.testList, testFailed := false } }).testNext
  else if s.anySwitching || s.on CHG_GSTAT_GUSTRUN || !s.on SYS_MAINT_MAINT then
    let s := s.setBist 2 3
    s.refuse d 0 4 0 0 (bist s)
  else
    let s := s.setBist 2 5
    let s := s.abortTel
    { s with
      sys := { s.sys with test := some d, testLeft := [], testPhase := none, testFailed := false }
      hif := { s.hif with history := [] } }

/-- Is a SELFTEST of this scope running? -/
def State.testing (s : State) (scope : Nat) : Bool := s.sys.test.isSome && s.fld SYS_BIST_SCOPE == scope

/-- A test item has failed: the first one is kept. -/
def State.failItem (s : State) (item : Nat) : State :=
  let s := if s.fld SYS_BIST_FAILITEM = 0 then s.setFld SYS_BIST_FAILITEM item else s
  { s with sys := { s.sys with testFailed := true } }

/-- The run ends with PASS or FAIL. -/
def State.passTest (s : State) : State := if s.sys.testFailed then s.endTest 1 9 else s.endTest 0 0

/-- ONLINE_MARGIN_CHECK (R79): the port of the phase that is out has lost margin. -/
def execOnlineMarginCheck (s : State) : Host.Outcome State Fault Refusal :=
  .next (
    match s.sys.testPhase.bind s.portOf with
    | some k => if s.testing 1 && !s.margin k then s.endTest 2 5 else s
    | none => s)

/-- A leg with voltage across it shorts in its probe (R68). -/
def State.legShort (s : State) (n : Fin 16) (p : LegPulse) : Bool :=
  decide (45 / 10 ≤ p.v) && (s.probeTrip n p).any (fun t => decide (t ≤ 20))

/-- The first item of R78 that a phase fails, as FAILITEM codes it: loopback, an offset beyond ±0.8 A, a threshold more than 2 codes off, a
probe; 0 for none. DESIGN CHOICE, log entry 138. -/
def State.testItem (s : State) (n : Fin 16) (r : TestRes) : Nat :=
  if !r.loop then 1
  else if r.offset < -8 / 10 ∨ 8 / 10 < r.offset then 2
  else if 2 < r.cmpErr then 3
  else if s.legShort n r.buck || s.legShort n r.boost then 4
  else 0

/-- ONLINE_PHASE_TEST_DONE (R78, R79, R132): the phase out for test returns to IDLE, or is LOST, or SHORTED for a probe failure; after
the last one the fuse arrays and the banks tell the result. -/
def execOnlinePhaseTestDone (r : TestRes) (s : State) : Host.Outcome State Fault Refusal :=
  .next (
    if !s.testing 1 then s
    else
      let last (s : State) : State :=
        if s.sys.testLeft.isEmpty then
          let s := if r.fuseOk then s else s.failItem 5
          (if r.sramOk then s else s.failItem 6).passTest
        else s.testNext
      match s.sys.testPhase with
      | none => last s
      | some n =>
        if s.phSt n ≠ .test then s
        else
          let s := s.setWord SYS_BIST (s.word SYS_BIST ||| (1#32 <<< (16 + n.val)))
          let s := { s with sys := { s.sys with testPhase := none, testWas := none } }
          let item := s.testItem n r
          let s :=
            if item = 0 then
              let s := (s.modPh n (fun p => { p with oclAt := [], oclStuck := false })).setFld (PH_STAT_CAUSE n) 0
              ((s.setFld (PH_STAT_OCLN n) 0).setPh n (s.restPh n)).syncPorts
            else if item = 4 then
              let s := s.failItem 4
              let s := if s.legShort n r.buck then s.probeLeg n false true else s
              if s.legShort n r.boost then s.probeLeg n true true else s
            else (s.failItem item).markLost n 5
          last s)

/-! ### OFFLINE -/

/-- Step 7 in an OFFLINE run (R80): the phase and BUS comparators only. A strap fault it finds is recorded; SAFE_TALK belongs to a
start-up (R75). DEDUCED, log entry 130. DEDUCED, log entry 139. -/
def State.offlineRefs (s : State) (m : RefMeas) : State :=
  let s := s.setRefs m
  let s := if m.refOk && m.adcOk then s else s.failItem 7
  let s := if (List.finRange 48).all (fun c => !(decide (c.val < 16) || c == 28) || m.cmpOk c) then s else s.failItem 3
  let first := s.on SYS_STRAP_STRAPOK
  let s := s.phcntAgain m.phcnt
  let s := if first && !s.on SYS_STRAP_STRAPOK then s.fault srcSTRAP_FAULT (s.word SYS_STRAP).toNat else s
  s.each m.sealR.toList (fun t r => t.sealReading r)

/-- OFFLINE_DONE (R80): step 4 with its trims, step 7, the loopback of step 8, the probe of each leg with voltage across it, and the march
of B2; FAILITEM keeps the first that fails, and MODE stays. DEDUCED, log entry 130. -/
def execOfflineDone (r : OffRes) (s : State) : Host.Outcome State Fault Refusal :=
  .next (
    if !s.testing 2 then s
    else
      let ps := finsWhere (fun n : Fin 16 => decide (n.val < s.fld SYS_STRAP_PHCNT))
      let s := s.setFld SYS_BIST_PHDONE (2 ^ ps.length - 1)
      let s := s.loadTrims r.anvilCrc
      let s := if r.anvilCrc && r.cirrusCrc then s else s.failItem 5
      let s := s.offlineRefs r.refs
      let s := if ps.any (fun (n : Fin 16) => r.loopBad.getLsbD n.val) then s.failItem 1 else s
      let s := s.each (ps.filter (fun n => s.phSt n != .shorted)) (fun t n =>
        let t := if t.legShort n (r.legs.leg false n) || t.legShort n (r.legs.leg true n) then t.failItem 4 else t
        t.probeLive n r.legs)
      let s := s.marchBank 2 r.b2
      (if s.on (MEM_REP_FAIL 2) then s.failItem 6 else s).passTest)

/-! ### Life-cycle -/

/-- What follows a change of the result in force, `old` before it (R204, R206): its entry, and a port in GUST may lose its permission. -/
def State.inForceChanged (s : State) (k : Fin 2) (old : AuthRes) : State :=
  let new := s.authInForce k
  let s := if old = new then s
    else s.jevent .pack 0x06 k.val (BitVec.ofNat 32 old.code) (BitVec.ofNat 32 new.code) (s.packId0 k)
  (s.syncPack k).gustLoss k

/-- The REASON of the first failing check of a life-cycle change, 0 where all pass (R83, R84, R420). -/
def State.lcReason (s : State) (returned : Bool) (v : Word) : Nat :=
  if !s.on SYS_MAINT_MAINT then 5
  else if v.toNat / 2 ^ 24 ≠ 0xA5 then 6
  else if s.lifecycle ≠ 1 ∧ !(returned && s.lifecycle == 2) then 3
  else if !returned && !s.sealOk then 2
  else if !s.present then 1
  else if s.stalled then 4
  else if s.anySwitching then 8
  else 0

/-- A write to SYS_LC (R83 to R85, R420, R421); with both GO bits GO_RETURNED governs. One without a GO bit, and one that passes every check
while a change runs, change nothing and leave a REG entry. DESIGN CHOICE, log entry 153. -/
def State.lcWrite (s : State) (o : Origin) (v : Word) : State :=
  let returned := v.getLsbD 9
  let reason := s.lcReason returned v
  let cls := if returned then 1 else 2
  let same (cls : Nat) : State := s.journal (s.stamp cls false (o.word SYS_LC) 0x00 SYS_LC (s.word SYS_LC) (s.word SYS_LC) 0)
  if !v.getLsbD 8 && !v.getLsbD 9 then same 0
  else if reason ≠ 0 then
    let s := (s.setFld SYS_LC_RESULT 2).refusal o reason 0 SYS_LC
    s.journal (s.stamp cls true (o.word SYS_LC) 0x03 0 (BitVec.ofNat 32 s.lifecycle) (if returned then 3 else 2) (BitVec.ofNat 32 reason))
  else if s.on SYS_LC_BUSY then same cls
  else
    let s := ((s.count AUTH_CNT_GRANTED).setOn SYS_LC_BUSY true).setOn (if returned then SYS_LC_GO_RETURNED else SYS_LC_GO_FIELD) true
    let s := { s with sys := { s.sys with lcTarget := some (if returned then 6 else 2), lcOrigin := o } }
    let s := if returned then { s with aon := { s.aon with keys := s.aon.keys.map (fun x => (x.1, x.2.1, true)) } } else s
    s.wipe 2

/-- LIFECYCLE_CHANGE_DONE (R81, R85): the fuses the device re-reads as blown, of the groups it blew.
DESIGN CHOICE, log entry 22. -/
def execLifecycleChangeDone (blown : Vector (BitVec 5) 3) (s : State) : Host.Outcome State Fault Refusal :=
  .next (
    match s.sys.lcTarget with
    | none => s
    | some target =>
      let old := s.lifecycle
      let was := (s.authInForce 0, s.authInForce 1)
      let cls := if s.on SYS_LC_GO_RETURNED then 1 else 2
      let fuses := Vector.ofFn (fun i : Fin 3 => s.sys.fuses[i] ||| (if target.getLsbD i then blown[i] else 0))
      let s := { s with sys := { s.sys with fuses := fuses, lcTarget := none } }
      let ok := (List.finRange 3).all (fun i => !target.getLsbD i || s.group i)
      let s := ((s.setOn SYS_LC_BUSY false).setOn SYS_LC_GO_FIELD false).setOn SYS_LC_GO_RETURNED false
      let s := (s.setFld SYS_LC_RESULT (if ok then 1 else 3)).setFld SYS_LC_STATE s.lifecycle
      let s := if ok then
          s.journal (s.stamp cls false (s.sys.lcOrigin.word SYS_LC) 0x03 0 (BitVec.ofNat 32 old) (BitVec.ofNat 32 s.lifecycle) 0)
        else s
      ((s.inForceChanged 0 was.1).inForceChanged 1 was.2).reloadB4)

end Sys2Proof.Machine
end

