-- ==== Sys2Proof/Machine/Fabric.lean ====
section
/-! DEFINITION. The BAR0 fabric: who may reach it, how a write is clamped, judged (R35, R114, R418 to R420), stored and journalled
(R10, R421, R424), what each register's write does beyond storing, and reads (R8, R9). -/

namespace Sys2Proof.Machine

/-! ### Fields and their changes -/

/-- The quantity a code stands for (R114). -/
def Quant.of (q : Quant) (n : Nat) : Int :=
  match q with
  | .plain => n
  | .capAt c => min n c
  | .zeroIs z => if n = 0 then z else n
  | .signed w => Sys2Proof.signed w n

/-- Does a change of a field loosen protection (R114)? -/
def Loose.hits (l : Loose) (old new : Nat) : Bool :=
  match l with
  | .none => false
  | .raise q => decide (q.of old < q.of new)
  | .lower q => decide (q.of new < q.of old)
  | .change q => decide (q.of old ≠ q.of new)
  | .setsBit => new &&& (old ^^^ new) != 0
  | .fromNone => (old == 0 || decide (8 < old)) && decide (1 ≤ new ∧ new ≤ 8)

/-- A field of a word. -/
def FieldRow.get (f : FieldRow) (w : Word) : Nat := Fld.extract ⟨0, f.hi, f.lo⟩ w
/-- A word with a field set. -/
def FieldRow.put (f : FieldRow) (w : Word) (v : Nat) : Word := Fld.insert ⟨0, f.hi, f.lo⟩ w v
/-- Does the field hold what is written to it? -/
def FieldRow.stores (f : FieldRow) : Bool := f.acc == .rw || f.acc == .rwg || f.acc == .rws
/-- The field as its range clamps it. -/
def FieldRow.clamped (f : FieldRow) (v : Nat) : Nat :=
  match f.clamp with
  | some (lo, hi) => max lo (min hi v)
  | none => v
/-- The field after a write (R8): a W1S or WO field stores nothing, its action follows. -/
def FieldRow.after (f : FieldRow) (old v : Word) : Nat :=
  if f.stores then f.clamped (f.get v)
  else if f.acc == .w1c then f.get (old &&& ~~~v)
  else f.get old

/-- The register after a write (R8, R11): reserved bits stay 0. -/
def RegRow.after (r : RegRow) (old v : Word) : Word := r.fields.foldl (fun w f => f.put w (f.after old v)) old

/-- Would a write change an operational field, or take an operational action (R35)? DEDUCED, log entry 48. -/
def RegRow.operates (r : RegRow) (old new v : Word) : Bool :=
  r.fields.any (fun f => f.oper && (f.get old != f.get new || ((f.acc == .w1s || f.acc == .wo) && f.get v != 0)))

/-- Does a write loosen a field whose class is GUARDED, with or without FEED_LOCK.LOCK (R114, R419)? -/
def RegRow.loosens (r : RegRow) (lock : Bool) (old new : Word) : Bool :=
  r.fields.any (fun f => (f.always || lock) && f.loose.hits (f.get old) (f.get new))

/-- Has the register a field a write can act on (R8)? -/
def RegRow.writable (r : RegRow) : Bool := r.fields.any (fun f => f.acc != .ro && f.acc != .rc)

/-- The place of an offset in a family at `base + step * i`, i below n. -/
def famIdx (off base step n : Nat) : Option (Fin n) :=
  if h : base ≤ off ∧ (off - base) % step = 0 ∧ (off - base) / step < n then some ⟨(off - base) / step, h.2.2⟩ else none

/-- Ranges one field sets for another: RMAX bounds RMIN (R429), TLIM bounds TRETRY (R97); LOCK clears at power-on reset alone (R114); a
capture channel ignores a CCR write (R363). DESIGN CHOICE, log entry 52. -/
def State.settleWord (s : State) (off : Nat) (old w : Word) : Word :=
  if off = AUTH_CFG then AUTH_CFG_RMIN.insert w (max 20 (min (AUTH_CFG_RMAX.extract w) (AUTH_CFG_RMIN.extract w)))
  else if off = FEED_LOCK then old ||| w
  else match famIdx off (FEED_TML 0) 0x100 4 with
    | some _ =>
      let tl := Fld.extract ⟨0, 7, 0⟩ w
      Fld.insert ⟨0, 15, 8⟩ w (max 5 (min (tl - 5) (Fld.extract ⟨0, 15, 8⟩ w)))
    | none =>
      if 0x2000 ≤ off ∧ off < 0x2200 ∧ 0x10 ≤ off % 0x40 ∧ off % 0x40 < 0x20 then
        let n : Fin 8 := ⟨(off - 0x2000) / 0x40 % 8, Nat.mod_lt _ (by decide)⟩
        let c : Fin 4 := ⟨(off % 0x40 - 0x10) / 4 % 4, Nat.mod_lt _ (by decide)⟩
        if s.chMode n c = 2 then old else w
      else w

/-! ### Who reaches what -/

/-- Does an access of this origin arrive (R51, R64, R315)? -/
def State.reachable (s : State) (o : Origin) : Bool :=
  match o with
  | .bar0 _ => s.powered && s.on HIF_LNK_LINKUP && !s.hif.d3
  | .twoWire _ _ => s.awake && s.sys.strapsRead
  | _ => s.powered

/-- Blocks on Anvil (R32). -/
def onAnvil (off : Nat) : Bool :=
  decide (0x4000 ≤ off ∧ off < 0x5000) || decide (0x6400 ≤ off ∧ off < 0x6600) || decide (0x8000 ≤ off ∧ off < 0xA000)

/-- Anvil answers: step 6 has ended and the link is up (R17, R64). DESIGN CHOICE, log entry 47. -/
def State.anvilAnswers (s : State) : Bool := s.sys.anvilUp && s.sys.d2d

/-- The order in which accesses that wait together are served: control processor, host link, M (R34). -/
def Origin.rank : Origin → Nat
  | .cp => 0
  | .bar0 _ | .ring _ _ => 1
  | _ => 2

/-- A held access takes its place before those of a later rank (R34, R421). -/
def holdAcc (h : Held) : List Held → List Held
  | [] => [h]
  | a :: l => if Origin.rank a.origin ≤ Origin.rank h.origin then a :: holdAcc h l else h :: a :: l

/-! ### Judging a write (R420) -/

/-- The class of a write: GUARDED or OPEN. A staged profile takes the class R187 gives it. -/
def State.guardedWrite (s : State) (off : Nat) (r : RegRow) (old new v : Word) : Bool :=
  r.loosens (s.on FEED_LOCK_LOCK) old new ||
  (off == CHG_PLOAD && v.getLsbD 0 && s.stagedGuarded (if v.getLsbD 1 then 1 else 0))

/-- Is SYS_MAINT needed: an operational write through BAR0 or M (R35), DEVRST (R71), arming Doldrums (R212)? -/
def State.needsMaint (o : Origin) (off : Nat) (r : RegRow) (old new v : Word) : Bool :=
  let outside := match o with
    | .bar0 _ | .twoWire _ _ => true
    | _ => false
  (outside && r.operates old new v) || (off == SYS_RST && v.getLsbD 0) ||
  (off == PK_SHIP && !old.getLsbD 0 && new.getLsbD 0)

/-- The REASON of the first failing check, 0 where all pass. DEDUCED, log entry 49. -/
def State.writeReason (s : State) (o : Origin) (off : Nat) (r : RegRow) (old new v : Word) : Nat :=
  let guarded := s.guardedWrite off r old new v
  if State.needsMaint o off r old new v && !s.on SYS_MAINT_MAINT then 5
  else if off = PK_SHIP ∧ old.getLsbD 0 = false ∧ new.getLsbD 0 = true ∧ v.toNat / 2 ^ 24 ≠ 0xA5 then 6
  else if off = FLT_INJ ∧ ¬ (s.lifecycle = 0 ∧ s.on SYS_STRAP_TESTEN = true) then 7
  else if guarded && !s.present then 1
  else if guarded && s.stalled then 4
  else 0

/-- Does a write touch what its enabled ring has locked (R267): the bases, or SQSZ and CQSZ by a change of theirs? -/
def State.ringBusy (s : State) (off : Nat) (old new : Word) : Bool :=
  if 0x3000 ≤ off ∧ off < 0x3800 then
    let n := (off - 0x3000) / 0x20
    s.on (HIF_CFG_EN n) && (decide (off % 0x20 < 0x10) || (off % 0x20 == 0x10 && (old ^^^ new) &&& 0xFF != 0))
  else false

/-- A word with SQSZ and CQSZ as they were (R267). -/
def keepSizes (old new : Word) : Word := (new &&& ~~~ 0xFF#32) ||| (old &&& 0xFF#32)

/-! ### What a write does beyond storing; `p` is the state before it -/

/-- FLT registers. DESIGN CHOICE, log entry 55. -/
def State.wroteFlt (s : State) (off : Nat) (v : Word) : State :=
  if off = FLT_PEND_LO then s.clearPend (v.setWidth 64)
  else if off = FLT_PEND_HI then s.clearPend (v.setWidth 64 <<< 32)
  else if off = FLT_FIRST then (if v.getLsbD 31 then s.setOn FLT_FIRST_MULTI false else s)
  else if off = FLT_PIN then s.pinWrite (v.getLsbD 1)
  else if off = FLT_INJ then
    let src : Fin 64 := ⟨s.fld FLT_INJ_SRC % 64, Nat.mod_lt _ (by decide)⟩
    if v.getLsbD 31 && decide (src < 50) then s.event ⟨src, if src = 22 then .contained else fltClass src, 0, 0, 0, true⟩ else s
  else s

/-- TMR registers. -/
def State.wroteTmr (s p : State) (off : Nat) (v : Word) : State :=
  if h : (off - 0x2000) / 0x40 < 8 then
    let n : Fin 8 := ⟨(off - 0x2000) / 0x40, h⟩
    let r := off % 0x40
    if r = 0 then s.ctlWritten n (p.on (TMR_CTL_EN n))
    else if r = 4 then s.cntWrite n v
    else if 0x10 ≤ r ∧ r < 0x20 then s.ccrWrite n ⟨(r - 0x10) / 4 % 4, Nat.mod_lt _ (by decide)⟩ v
    else s
  else s

/-- HIFn and the MSI-X table. -/
def State.wroteHif (s p : State) (off : Nat) : State :=
  match famIdx off 0x3010 0x20 64 with
  | some n => s.enChanged n (p.on (HIF_CFG_EN n))
  | none =>
    match famIdx off 0x3A0C 0x10 64 with
    | some v => s.firePending v
    | none => s

/-- FEED registers. -/
def State.wroteFeed (s : State) (off : Nat) : State :=
  match famIdx off (FEED_CFG 0) 0x100 4 with
  | some n => (s.feedEnable n).syncFeeds.settleGroup
  | none => if off = FEED_SEL then s.syncFeeds.settleGroup else s

/-- PH and PHP registers. -/
def State.wrotePh (s : State) (off : Nat) : State :=
  if off = PH_SYNC then s.applySync
  else if off = PH_VHOLD then s.newTarget
  else if off < 0x5A00 then
    let s := match (List.finRange 2).find? (fun k => decide (PHP_MAP k.val 1 ≤ off ∧ off < PHP_MAP k.val 17)) with
      | some k => if s.mapOk k then s else s.evt (PHP_EVT_MAPERR k)
      | none => s
    (s.syncPorts.syncElig 0).syncElig 1
  else s

/-- CHG registers. -/
def State.wroteChg (s : State) (o : Origin) (off : Nat) (v : Word) : State :=
  if off = CHG_PLOAD then (if v.getLsbD 0 then s.stagedLoad o else s)
  else match famIdx off (CHG_CTL 0) 0x100 2, famIdx off (CHG_GUST 0) 0x100 2 with
    | some k, _ => s.chgCtl k (v.getLsbD 4)
    | none, some k => s.syncElig k
    | none, none => s

/-- PACK registers. -/
def State.wrotePk (s p : State) (off : Nat) (v : Word) : State :=
  if off = PK_SHIP then { s with aon := { s.aon with busyAt := some s.devtime } }
  else if h : (off - 0x6400) / 0x100 < 2 then
    let k : Fin 2 := ⟨(off - 0x6400) / 0x100, h⟩
    let r := off % 0x100
    if r = 0 then
      let s := if v.getLsbD 17 then s.clearLatch k else s
      s.inForceChanged k (p.authInForce k)
    else if r = 4 ∨ r = 8 then s.syncPack k
    else if r = 0x10 ∨ r = 0x14 then s.checkWorn k
    else s
  else s

/-- ADC registers: a new reference (R339), or a new system entry, whose armed state and scan start again (R334). -/
def State.wroteAdc (s : State) (off : Nat) : State :=
  if 0x8800 ≤ off then s
  else
    let x : Fin 2 := if off < 0x8400 then 0 else 1
    let r := off % 0x400
    if r = 0 then s.refSelect x
    else if 0x100 ≤ r ∧ r < 0x200 then s.disarm x ((r - 0x100) / 8)
    else if 0x280 ≤ r ∧ r < 0x2A0 then s.disarm x (32 + (r - 0x280) / 8)
    else s

/-- CMPc_CFG (R318, R321, R323, R325): another mode settles, another channel or hysteresis is held against the input, another timer blanks. -/
def State.wroteCmp (s p : State) (c : Fin 48) : State :=
  let gp := decide (46 ≤ c.val)
  let s := if gp then s.modeChanged c (p.fld (CMP_CFG_MODE c)) else s
  let s := if gp && s.fld (CMP_CFG_INSEL c) != p.fld (CMP_CFG_INSEL c) then
      s.inselChanged c (adcChan (min 47 (s.fld (CMP_CFG_INSEL c))) false).2.1
    else if s.fld (CMP_CFG_HYS c) != p.fld (CMP_CFG_HYS c) then s.rethresh c else s
  if s.fld (CMP_CFG_BLKSRC c) = p.fld (CMP_CFG_BLKSRC c) then s else s.reblank c

/-- A register of a feed, a pack port or a charge port from which thresholds are computed has been written: those comparators' inputs are
held against them (R319, R343). -/
def State.rethreshOf (s : State) (off : Nat) : State :=
  let at_ (s : State) (c : Nat) : State := s.rethresh (Fin.ofNat 48 c)
  if 0x4000 ≤ off ∧ off < 0x4400 then (let n := (off - 0x4000) / 0x100; at_ (at_ s (16 + n)) (20 + n))
  else if 0x6400 ≤ off ∧ off < 0x6600 then (let k := (off - 0x6400) / 0x100; at_ (at_ s (24 + k)) (26 + k))
  else if 0x6000 ≤ off ∧ off < 0x6200 then at_ s (26 + (off - 0x6000) / 0x100)
  else if off = CHG_PLOAD then at_ (at_ s 26) 27
  else s

/-- TW registers. -/
def State.wroteTw (s : State) (off : Nat) (v : Word) : State :=
  let act (p : Fin 3) : State :=
    let s := if v.getLsbD 0 then s.portReset p else s
    if v.getLsbD 1 then s.busClr p else s
  if off = TW_M_CTL then act 0 else if off = TW_PK_CTL 0 then act 1 else if off = TW_PK_CTL 1 then act 2 else s

/-- What a write does before it is journalled, by block. -/
def State.wrote (s p : State) (o : Origin) (off : Nat) (v : Word) : State :=
  if off < 0x0800 then s
  else if off < 0x1000 then s.wroteFlt off v
  else if off < 0x2000 then (if off = AUTH_PRES && v.getLsbD 0 then s.closeWindow o else s)
  else if off < 0x2800 then s.wroteTmr p off v
  else if off < 0x3000 then s
  else if off < 0x4000 then s.wroteHif p off
  else if off < 0x5000 then s.wroteFeed off
  else if off < 0x6000 then s.wrotePh off
  else if off < 0x6400 then s.wroteChg o off v
  else if off < 0x7000 then s.wrotePk p off v
  else if off < 0x8000 then
    (match famIdx off (FC_ZONE_HT 0) 0x20 8 with
      | some z => (s.setFld (FC_ZONE_HT_AGE z) 0).modFc (fun f => { f with htAt := f.htAt.set z s.devtime })
      | none => s)
  else if off < 0x9000 then s.wroteAdc off
  else if off < 0xA000 then
    (match famIdx off (CMP_THR 0) 0x10 48, famIdx off (CMP_CFG 0) 0x10 48 with
      | some c, _ => s.rethresh c
      | none, some c => s.wroteCmp p c
      | none, none => s)
  else s.wroteTw off v

/-- What a write starts after it is journalled: a device reset, the Doldrums entry of a card without feeds.
DESIGN CHOICE, log entry 12. -/
def State.after (s : State) (off : Nat) (v : Word) : State :=
  if off = SYS_RST then (if v.getLsbD 0 then s.deviceReset 2 else s)
  else if off = PK_SHIP then (if s.on PK_SHIP_ARM && s.lostFeeds then s.doldrumsEntry else s)
  else s

/-! ### What registers read as -/

/-- Comparators with a threshold INBAND (R322). -/
def State.inBandN (s : State) : Nat :=
  ((List.range 48).filter (fun c => s.fld (CMP_STAT_HISTATE c) == 2 || s.fld (CMP_STAT_LOSTATE c) == 2)).length

/-- A write to the AON island is in progress for 3 AON cycles (R30). DESIGN CHOICE, log entry 115. -/
def State.aonBusy (s : State) : Bool :=
  match s.aon.busyAt with
  | some t => decide ((s.devtime - t).toNat < 9155)
  | none => false

/-- BUSY, PEND and INJ of a converter at the present DEVTIME (R335, R344). DESIGN CHOICE, log entry 84. -/
def State.adcStat (s : State) (x : Fin 2) : Word :=
  let h := s.adc[x]
  let now : Rat := 10 * s.devtime.toNat
  let b (p : Bool) (i : Nat) : Nat := if p then 2 ^ i else 0
  BitVec.ofNat 32 (b (decide (now < h.passFrom) || decide (h.passFrom ≤ now ∧ now < h.passEnd)) 31 + b (decide (now < h.passFrom)) 30 +
    b (decide (h.injFrom ≤ now ∧ now < h.injEnd)) 29)

/-- What a register reads as: most as stored, some computed from the state they show (R30, R267, R292, R302, R319, R335, R366, R369, R414,
R425, R427). DESIGN CHOICE, log entry 25. -/
def State.view (s : State) (off : Nat) : Word :=
  let w := s.word off
  let b (x : Bool) (i : Nat) : Nat := if x then 2 ^ i else 0
  if off = SYS_STATE then SYS_STATE_AON_BUSY.insert w (if s.aonBusy then 1 else 0)
  else if off = AUTH_PRES then AUTH_PRES_REMAIN.insert w s.remain
  else if 0x3000 ≤ off ∧ off < 0x3800 ∧ (off % 0x20 = 0 ∨ off % 0x20 = 8) then w &&& ~~~ 0xFFF
  else if off = JNL_STAT then BitVec.ofNat 32 (b s.stalled 31 + b (s.occ == 4096) 30 + s.occ)
  else if off = JNL_SEQ then s.jnl.seq
  else if off = JNL_OLDEST then (match s.jnl.entries with
    | e :: _ => e.seq
    | [] => s.jnl.seq)
  else if off = HIF_ISTAT then BitVec.ofNat 32 ((List.range 16).foldl (fun a i => a + b (s.line i) i) 0)
  else if off = DEVTIME_LO then s.devtime.setWidth 32
  else if off = DEVTIME_HI then (s.devtime >>> 32).setWidth 32
  else if off = TW_M_STAT then TW_M_STAT_COMMIT.insert w (if s.heldAcc.any (fun h => Origin.kind h.origin == 3) then 1 else 0)
  else if off = CMP_GSTAT then CMP_GSTAT_INBANDN.insert w s.inBandN
  else if off = ADC_STAT 0 then w ||| s.adcStat 0
  else if off = ADC_STAT 1 then w ||| s.adcStat 1
  else match famIdx off (TMR_STAT 0) 0x40 8 with
    | some n =>
      let q := s.tmr[n].cap
      BitVec.ofNat 32 (b s.tmr[n].blk 13 + b (s.tmrRun n) 12 +
        (List.finRange 4).foldl (fun a c => a + b (!q[c].isEmpty) (8 + c.val) + (min 2 q[c].length) * 4 ^ c.val) 0)
    | none =>
      if h : 0x9000 ≤ off ∧ off < 0x9300 then
        let c := (off - 0x9000) / 0x10
        if off % 0x10 = 0 then (let (lo, hi) := s.thr c; (CMP_THR_UPPER c).insert ((CMP_THR_LOWER c).insert 0 lo) hi)
        else if off % 0x10 = 4 then (CMP_CFG_MODE c).insert w (s.cmpMode c)
        else if off % 0x10 = 8 then
          let leb := if h : c < 16 then s.ph[c].onTime && !s.ph[c].blanked else false
          (CMP_STAT_BLANK c).insert ((CMP_STAT_MODE c).insert w (s.cmpMode c)) (if leb || s.on (CMP_STAT_BLANK c) then 1 else 0)
        else w
      else w

/-! ### Serving a write -/

/-- A refused write leaves the register as it was (R10); CHG_PLOAD says why in RESULT. -/
def State.refuseWrite (s : State) (o : Origin) (off : Nat) (v : Word) (reason : Nat) (guarded : Bool) : State :=
  let old := s.view off
  let r := s.stamp (if guarded then 1 else 0) true (o.word off) 0x00 off old v (BitVec.ofNat 32 reason)
  let s := (s.refusal o reason 0 off).journal r
  if off = CHG_PLOAD then
    if reason = 5 then s.setFld CHG_PLOAD_RESULT 5
    else (s.evt (CHG_EVT_PROFREJ (if v.getLsbD 1 then 1 else 0))).setFld CHG_PLOAD_RESULT 4
  else s

/-- Store a register and let its block act; a source line that the store itself raises interrupts (R292). -/
def State.applyWord (s : State) (o : Origin) (off : Nat) (new v : Word) : State :=
  let t := s.setWord off new
  let t := match lineOf off with
    | some src => lineRise src s t
    | none => t
  (t.wrote s o off v).rethreshOf off

/-- An accepted write: stored, acted on and journalled with the register as it read before and as it reads after (R424).
DEDUCED, log entry 51. -/
def State.acceptWrite (s : State) (o : Origin) (off : Nat) (new v : Word) (guarded : Bool) : State :=
  let t := s.applyWord o off new v
  let t := if guarded then t.count AUTH_CNT_GRANTED else t
  let r := s.stamp (if guarded then 1 else 0) false (o.word off) 0x00 off (s.view off) (t.view off) 0
  (t.journal r).after off v

/-- One write as the fabric serves it (R10, R12, R33 to R35, R64, R267, R409, R420, R421, R426).
DESIGN CHOICE, log entries 10 and 47. -/
def State.serveWrite (s : State) (o : Origin) (off : Nat) (v : Word) : State :=
  let s := s.checkWord off
  if onAnvil off && !s.sys.anvilUp then s
  else match findReg regTable off with
    | none => s.regFault o off
    | some row =>
      if !row.writable || (onAnvil off && !s.anvilAnswers) then s
      else if off = SYS_LC then s.lcWrite o v
      else if off = JNL_RDIDX then s.latchEntry (v.toNat % 4096)
      else if off = JNL_REL then s.release (v.toNat % 8192) o
      else
        let old := s.word off
        let new := s.settleWord off old (row.after old v)
        let busy := s.ringBusy off old new
        let s := if busy then s.regFault o off else s
        if busy ∧ off % 0x20 < 0x10 then s
        else
          let new := if busy then keepSizes old new else new
          let guarded := s.guardedWrite off row old new v
          let reason := s.writeReason o off row old new v
          if reason = 0 then s.acceptWrite o off new v guarded else s.refuseWrite o off v reason guarded

/-- A write reaches the fabric: it waits while the journal queue holds 64 records (R421).
DESIGN CHOICE, log entry 53. -/
def State.fabricWrite (s : State) (o : Origin) (off : Nat) (v : Word) : State :=
  let off := off / 4 * 4
  if !s.reachable o then s
  else if 64 ≤ s.jnl.queue.length ∨ s.heldAcc ≠ [] then { s with heldAcc := holdAcc ⟨o, off, v⟩ s.heldAcc }
  else s.serveWrite o off v

/-- The accesses held are served in their order (R34) as far as the queue has room. -/
def State.serveHeld (s : State) : State :=
  match s.heldAcc with
  | [] => s
  | h :: l =>
    if 64 ≤ s.jnl.queue.length then s
    else ({ s with heldAcc := l }).serveWrite h.origin h.off h.val

/-! ### Reads -/

/-- The mask of the fields of a register that read 0 or clear: WO, and RC. -/
def RegRow.accMask (r : RegRow) (a : Access) : Word :=
  r.fields.foldl (fun m f => if f.acc == a then m ||| bitMask f.hi f.lo else m) 0

/-- One word read (R8, R9, R12, R33, R64): RC fields clear, a capture channel gives its oldest unread entry (R363). -/
def State.readReg (s : State) (off : Nat) : Word × State :=
  if onAnvil off && !s.anvilAnswers then (0, s)
  else match findReg regTable off with
    | none => (0, s)
    | some row =>
      if 0x2000 ≤ off ∧ off < 0x2200 ∧ 0x10 ≤ off % 0x40 ∧ off % 0x40 < 0x20 then
        s.ccrRead ⟨(off - 0x2000) / 0x40 % 8, Nat.mod_lt _ (by decide)⟩ ⟨(off % 0x40 - 0x10) / 4 % 4, Nat.mod_lt _ (by decide)⟩
      else
        let m := row.accMask .rc
        (s.view off &&& ~~~ row.accMask .wo, if m = 0 then s else s.setWord off (s.word off &&& ~~~m))

end Sys2Proof.Machine
end

