-- ==== Sys2Proof/Machine/Admin.lean ====
section
/-! DEFINITION. The admin ring (R277 to R290): starting and holding commands, the commands that belong to no other block, telemetry,
and DMA errors (R260). -/

namespace Sys2Proof

/-- A descriptor with its opcode set. -/
def Desc.withOpc (d : Desc) (opc : Nat) : Desc := d &&& ~~~ 0xFF ||| BitVec.ofNat 256 opc
/-- A descriptor with bits of byte 8 set. -/
def Desc.withByte8 (d : Desc) (mask v : Nat) : Desc :=
  d &&& ~~~ (BitVec.ofNat 256 mask <<< 64) ||| (BitVec.ofNat 256 v <<< 64)

namespace Machine

/-! ### IDENTIFY -/

/-- The identity word of R281: SYS_ID, firmware level, patch level. -/
def State.identity (s : State) : Nat :=
  (s.word SYS_ID).toNat + Config.fwLevel.toNat * 2 ^ 32 + Config.patchLevel.toNat * 2 ^ 48

/-- The identity block of R281. -/
def State.identityBlock (s : State) : List Byte :=
  leBytes s.identity 8 ++ leBytes (s.word SYS_STRAP).toNat 4 ++ [BitVec.ofNat 8 s.lifecycle, 0, 0, 0] ++
  leBytes Config.serial.toNat 8 ++ [64, 63] ++ leBytes 4096 2 ++ leBytes 262144 4 ++ List.replicate 32 0

/-- IDENTIFY at its start (R281). -/
def State.startIdentify (s : State) (d : Desc) : State :=
  if d.iaddr % 64 ≠ 0 then s.refuse d 0 2 0 0
  else
    let s := if d.iaddr = 0 then s else s.send (.write (BitVec.ofNat 64 d.iaddr) s.identityBlock)
    s.done d 0 0 s.identity

/-! ### SET_LIMITS -/

/-- The bits of a register SET_LIMITS may write: RW and RWG (R283). -/
def RegRow.limMask (r : RegRow) : Word := r.accMask .rw ||| r.accMask .rwg

/-- A record is empty, or names a listed register and only its RW and RWG bits (R282, R283). -/
def LimRec.ok (r : LimRec) : Bool :=
  r.mask == 0 || (decide (r.offset.toNat % 4 = 0) && match findReg regTable r.offset.toNat with
    | some row => row.lim && r.mask &&& ~~~ row.limMask == 0
    | none => false)

/-- Merge one record into the set: a later record wins bit by bit (R283). -/
def mergeRec (l : List (Nat × Word × Word)) (r : LimRec) : List (Nat × Word × Word) :=
  let off := r.offset.toNat
  if r.mask = 0 then l
  else if l.any (fun e => e.1 == off) then
    l.map (fun e => if e.1 = off then (off, e.2.1 ||| r.mask, (e.2.2 &&& ~~~ r.mask) ||| (r.value &&& r.mask)) else e)
  else l ++ [(off, r.mask, r.value &&& r.mask)]

/-- The value a merged register asks for, and the one it would hold, clamped (R283). -/
def State.limAsk (s : State) (e : Nat × Word × Word) : Word := (s.word e.1 &&& ~~~ e.2.1) ||| e.2.2
@[inherit_doc State.limAsk] def State.limNew (s : State) (e : Nat × Word × Word) : Word :=
  match findReg regTable e.1 with
  | some row => s.settleWord e.1 (s.word e.1) (row.after (s.word e.1) (s.limAsk e))
  | none => s.word e.1

/-- Does a merged register need the presence window (R114, R283)? DEDUCED, log entry 44. -/
def State.limGuarded (s : State) (e : Nat × Word × Word) : Bool :=
  match findReg regTable e.1 with
  | some row => row.loosens (s.on FEED_LOCK_LOCK) (s.word e.1) (s.limNew e)
  | none => false

/-- SET_LIMITS at its start: steps 1 to 3 of R283. -/
def State.startSetLimits (s : State) (ds : List Desc) (d : Desc) : State :=
  let recs := ds.flatMap (fun x => x.limRecs)
  match (recs.zip (List.range recs.length)).find? (fun p => !LimRec.ok p.1) with
  | some p => s.refuse d 0 2 (p.2 / 2) 0
  | none =>
    let regs := recs.foldl mergeRec []
    let guarded := regs.any s.limGuarded
    let qual := (if s.present then 0 else 1) + (if s.stalled then 8 else 0)
    if guarded && qual != 0 then s.refuse d 1 3 qual (if s.present then 4 else 1)
    else
      let s := if guarded then s.count AUTH_CNT_GRANTED else s
      { s with hif := { s.hif with limits := s.hif.limits ++ [⟨d, if guarded then 1 else 0, regs, recs⟩] } }

/-- Was a field of a record clamped (R283)? -/
def State.recClamped (s : State) (regs : List (Nat × Word × Word)) (r : LimRec) : Bool :=
  r.mask != 0 && r.offset.toNat != FEED_LOCK &&
  match regs.find? (fun e => e.1 == r.offset.toNat), findReg regTable r.offset.toNat with
  | some e, some row => row.fields.any (fun f =>
      f.stores && (r.mask &&& bitMask f.hi f.lo != 0) && f.get (s.limAsk e) != f.get (s.limNew e))
  | _, _ => false

/-- Apply a validated set: every field together, then what follows from each, one REG entry for each changed register (R283, R424). -/
def State.applyLimits (s : State) (l : LimSet) : State :=
  let o := adminOrigin l.d
  let bits := (l.recs.zip (List.range l.recs.length)).foldl (fun a p => a + if s.recClamped l.regs p.1 then 2 ^ p.2 else 0) 0
  let n := (l.recs.filter (fun r => r.mask != 0)).length
  let news := l.regs.map (fun e => (e.1, s.limNew e))
  let t := s.each news (fun t e => t.setWord e.1 e.2)
  let t := t.each (news.filter (fun e => s.word e.1 != e.2)) (fun t e => (t.wrote s o e.1 e.2).rethreshOf e.1)
  (t.regDiff s (news.map (fun e => e.1)) o l.cls).done l.d 0 0 (n + bits * 2 ^ 32)

/-- SET_LIMITS_APPLY (R283): the next snapshot boundary takes every waiting set, oldest first. -/
def execSetLimitsApply (s : State) : Host.Outcome State Fault Refusal :=
  .next (
    let l := s.hif.limits
    let s := { s with hif := { s.hif with limits := [] } }
    s.each l (fun t x => t.applyLimits x))

/-! ### Telemetry -/

/-- The 64 bytes of a record (R284). -/
def recBytes (r : TelRec) : List Byte :=
  let l := leBytes (r.time.toNat + r.cls.val * 2 ^ 48) 8 ++ leBytes r.seq.toNat 4 ++ r.payload
  l ++ List.replicate (64 - l.length) 0

/-- The host address of byte `i` of a buffer described by scatter elements (R285). -/
def elemAddr : List (BitVec 64) → Nat → Option Nat
  | [], _ => none
  | e :: l, i =>
    let size := (e.toNat % 4096 + 1) * 4096
    if i < size then some (e.toNat / 4096 * 4096 + i) else elemAddr l (i - size)

/-- The first of the elements a transfer of `n` bytes uses that has address 0, or is not there (R285), counted from `i`. -/
def badElem (i : Nat) : List (BitVec 64) → Nat → Option Nat
  | _, 0 => none
  | [], _ => some i
  | e :: l, n => if e.toNat / 4096 = 0 then some i else badElem (i + 1) l (n - (e.toNat % 4096 + 1) * 4096)

/-- Do the elements serve a transfer of `n` bytes (R285)? -/
def elemsFor (l : List (BitVec 64)) (n : Nat) : Bool := (badElem 0 l n).isNone

/-- CIDX of the descriptor of a chain whose list holds element `i` (R274, R285): LIST0 and LIST1 are the head's, 16 elements each. -/
def elemCidx (ds : List Desc) (d : Desc) (i : Nat) : Nat :=
  let head := if Desc.bytes d 16 8 = 0 then 16 else 32
  min (ds.length - 1) (if i < head then 0 else (i - head) / 16 + 1)

/-- Write record `i` of a transfer. -/
def State.sendRec (s : State) (elems : List (BitVec 64)) (i : Nat) (r : TelRec) : State :=
  match elemAddr elems (64 * i) with
  | some a => s.send (.write (BitVec.ofNat 64 a) (recBytes r))
  | none => s

/-- Is a record's class among the selected ones? -/
def classIn (m : Nat) (r : TelRec) : Bool := m.testBit r.cls.val

/-- The first `n` good records, and whether a discarded one stood among them (R383). -/
def goodRecs : Nat → List TelRec → List TelRec × Bool
  | _, [] => ([], false)
  | 0, _ => ([], false)
  | n + 1, r :: l => if r.bad then ((goodRecs (n + 1) l).1, true) else
      let (g, b) := goodRecs n l
      (r :: g, b)

/-- History mode (R285). DEDUCED, log entry 39. -/
def State.telHistory (s : State) (d : Desc) (elems : List (BitVec 64)) : State :=
  let from_ : BitVec 32 := BitVec.ofNat 32 d.fromSeq
  let old := match s.hif.history with
    | r :: _ => r.seq
    | [] => s.hif.telSeq
  let older := (from_ - old).toInt < 0
  let want := s.hif.history.filter (fun r => classIn d.telClass r && (decide older || decide (0 ≤ (r.seq - from_).toInt)))
  let (recs, bad) := goodRecs d.nrec want
  let next := match recs.getLast? with
    | some r => if recs.length = d.nrec then r.seq + 1 else s.hif.telSeq
    | none => s.hif.telSeq
  let s := s.each (recs.zip (List.range recs.length)) (fun t p => t.sendRec elems p.2 p.1)
  s.done d 0 (if older ∨ bad then 1 else 0) (recs.length + next.toNat * 2 ^ 32)

/-- The parameters of a GET_TELEMETRY chain that are out of range: the status qualifier of the first (R274, R285).
DEDUCED, log entry 46. -/
def telBad (ds : List Desc) (d : Desc) : Option Nat :=
  if d.nrec < 1 ∨ 16384 < d.nrec ∨ d.telClass = 0 ∨ Desc.bytes d 8 8 % 64 ≠ 0 ∨ Desc.bytes d 16 8 % 64 ≠ 0 then some 0
  else ((ds.zip (List.range ds.length)).find? (fun p => decide (1 ≤ p.2 ∧ Desc.bytes p.1 8 8 % 64 ≠ 0))).map (fun p => p.2)

/-- GET_TELEMETRY at its start (R285, R376): `elems` are the elements of its lists, in order. -/
def State.startTelemetry (s : State) (ds : List Desc) (d : Desc) (elems : List (BitVec 64)) : State :=
  match telBad ds d with
  | some q => s.refuse d 0 2 q 0
  | none =>
    if s.hif.tel.isSome then s.refuse d 0 4 0 0
    else match badElem 0 elems (64 * d.nrec) with
    | some i => s.refuse d 0 2 (elemCidx ds d i) 0
    | none =>
    if !d.telCapture then s.telHistory d elems
    else
      let h := s.hif.history
      let h := h.drop (h.length - 3584)
      { s with hif := { s.hif with tel := some ⟨d, elems, 0, false, s.hif.telSeq⟩, history := h } }

/-- The payload of a SAMPLE record (R284). -/
def State.samplePayload (s : State) : List Byte :=
  let two (i : Int) : List Byte := leBytes (unsigned 16 i) 2
  let fs := List.range 4
  let ks := List.range 2
  leBytes (s.phg.vbus * 100).floor.toNat 2 ++
  fs.flatMap (fun n => leBytes (s.fld (FEED_MEAS_VFEED n)) 2) ++ fs.flatMap (fun n => two (s.sfld (FEED_MEAS_IFEED n))) ++
  ks.flatMap (fun k => leBytes (s.word (PK_I k)).toNat 4) ++ ks.flatMap (fun k => leBytes (s.fld (PK_STAT_SOC k)) 2) ++
  ks.map (fun k => BitVec.ofNat 8 (s.fld (CHG_STAT_STAGE k) * 16 + s.fld (CHG_STAT_ROLE k))) ++
  ks.map (fun k => BitVec.ofNat 8 (s.fld (PHP_STAT_NACT k))) ++ [BitVec.ofNat 8 (s.fld THM_SUM_TJ)]

/-- The payload of a BUDGET record (R284). -/
def State.budgetPayload (s : State) : List Byte :=
  [FC_P0, FC_P1, FC_P2, FC_P3, FC_STAT].flatMap (fun off => leBytes (s.word off).toNat 4)

/-- The payload of a periodic class. -/
def State.periodic (s : State) (c : Fin 3) : List Byte := if c = 0 then s.samplePayload else s.budgetPayload

/-- One record of a capture is written, or skipped where the staging is full (R285). -/
def State.capRec (s : State) (skip : Bool) (rec_ : TelRec) : State :=
  match s.hif.tel with
  | none => s
  | some r =>
    if skip || rec_.bad then { s with hif := { s.hif with tel := some { r with gap := true } } }
    else
      let s := s.sendRec r.elems r.done rec_
      if r.done + 1 < r.d.nrec then { s with hif := { s.hif with tel := some { r with done := r.done + 1 } } }
      else
        ({ s with hif := { s.hif with tel := none } }).done r.d 0 (if r.gap then 1 else 0)
          (r.d.nrec + (rec_.seq + 1).toNat * 2 ^ 32)

/-- A capture period: the EVENT records taken since the last one, then one of each periodic class (R284, R285). -/
def State.capTick (s : State) (skip : Bool) : State :=
  match s.hif.tel with
  | none => s
  | some r =>
    let evs := s.hif.history.filter (fun e => e.cls == 1 && classIn r.d.telClass e && decide (0 ≤ (e.seq - r.next).toInt))
    let s := s.each evs (fun t e => t.capRec skip e)
    let s := s.each ([0, 2].filter (fun c : Fin 3 => r.d.telClass.testBit c.val)) (fun t c =>
      let e : TelRec := ⟨t.time48, c, t.hif.telSeq, t.periodic c, false⟩
      ({ t with hif := { t.hif with telSeq := t.hif.telSeq + 1 } }).capRec skip e)
    match s.hif.tel with
    | some q => { s with hif := { s.hif with tel := some { q with next := s.hif.telSeq } } }
    | none => s

/-- TELEMETRY_RECORD (R284, R285): TELPER has passed for history, or CAPPER for the running capture, whose staging may be full. -/
def execTelemetryRecord (capture skip : Bool) (s : State) : Host.Outcome State Fault Refusal :=
  .next (
    if !s.awake then s
    else if capture then s.capTick skip
    else if s.fld HIF_TEL_TELPER = 0 then s
    else s.each ([0, 2].filter (fun c : Fin 3 => (s.fld HIF_TEL_CLASS).testBit c.val)) (fun t c => t.telAdd c (t.periodic c)))

/-! ### JOURNAL_DRAIN -/

/-- JOURNAL_DRAIN at its start (R286); where no entry is held the manual gives no first sequence number, and the model draws it.
DESIGN CHOICE, log entry 41. -/
def State.startDrain (s : State) (d : Desc) : State :=
  if d.daddr % 32 ≠ 0 ∨ d.maxn < 1 ∨ 4096 < d.maxn then s.refuse d 0 2 0 0
  else if s.hif.drain.isSome then s.refuse d 0 4 0 0
  else
    let l := s.jnl.entries.take d.maxn
    match l with
    | [] =>
      let (w, s) := s.free
      s.done d 0 0 (w.toNat * 2 ^ 32)
    | e :: _ =>
      let s := s.each (l.zip (List.range l.length)) (fun t p =>
        t.send (.write (BitVec.ofNat 64 (d.daddr + 32 * p.2)) (JEntry.bytes p.1)))
      let ahead := (s.ring[(0 : Fin 64)].cq.filter isDrain).length
      let s := if d.drainFree then { s with hif := { s.hif with drain := some ⟨e.seq, l.length, ahead⟩ } } else s
      s.done d 0 0 (l.length + e.seq.toNat * 2 ^ 32)

/-! ### Contexts and the Grant Table -/

/-- Has a context live grants (R251)? -/
def State.ctxLive (s : State) (n : Fin 64) : Bool :=
  s.on (FC_CTX_CFG_BOUND n) && s.fc.lines.any (fun l => l.st != .idle && s.inCtx n l.cid)

/-- Does a range overlap that of another bound context (R220)? -/
def State.overlaps (s : State) (n : Fin 64) (lo cnt : Nat) : Bool :=
  s.boundRings.any (fun m => m != n && decide (lo < s.fld (FC_CTX_CIDBASE_CIDBASE m) + s.fld (FC_CTX_CIDCNT_CIDCNT m)) &&
    decide (s.fld (FC_CTX_CIDBASE_CIDBASE m) < lo + cnt))

/-- Set the four words of a context. -/
def State.putCtx (s : State) (n : Fin 64) (cfg base cnt cap : Nat) : State :=
  (((s.setWord (FC_CTX_CFG n) (BitVec.ofNat 32 cfg)).setWord (FC_CTX_CIDBASE n) (BitVec.ofNat 32 base)).setWord
    (FC_CTX_CIDCNT n) (BitVec.ofNat 32 cnt)).setWord (FC_CTX_CAP n) (BitVec.ofNat 32 cap)

/-- BIND_CONTEXT at its start (R251, R424). DEDUCED, log entry 42. -/
def State.startBind (s : State) (d : Desc) : State :=
  let n := d.ctx
  let bind := !d.unbind
  if n = 0 then s.refuse d 0 2 0 0
  else if bind && s.nent == 0 then s.refuse d 0 3 0x20 0
  else if bind && (d.weight == 0 || d.cidCnt == 0 || decide (s.nent < d.cidBase + d.cidCnt) || s.overlaps n d.cidBase d.cidCnt ||
      s.ringSt n != 1) then s.refuse d 0 2 0 0
  else if s.ctxLive n then s.refuse d 0 4 0 0
  else
    let old := s.word (FC_CTX_CFG n)
    let s := if bind then
        (s.putCtx n (2 ^ 31 + d.band * 2 ^ 29 + d.weight * 2 ^ 16 + d.zmask * 2 ^ 8) d.cidBase d.cidCnt d.cap).modFc
          (fun f => { f with rvkdl := f.rvkdl.set n d.rvkdl })
      else s.putCtx n 0 0 0 0
    let s := s.syncLive
    (s.journal (s.stamp 0 false ((adminOrigin d).word 0) 0x08 n.val old (s.word (FC_CTX_CFG n)) 0)).done d 0 0 0

/-- GRANT_TABLE_SETUP at its start (R239, R247, R252, R424): dirty lines are written back before the cache is invalidated.
DEDUCED, log entry 43. -/
def State.startTable (s : State) (d : Desc) : State :=
  if d.nent ≠ 0 ∧ (d.gtaddr % 4096 ≠ 0 ∨ d.nent % 64 ≠ 0 ∨ 262144 < d.nent) then s.refuse d 0 2 0 0
  else if !s.boundRings.isEmpty then s.refuse d 0 4 0 0
  else
    let old := s.nent
    let s := s.each (s.fc.lines.filter (fun l => l.dirty)) (fun t l => t.writeBack l)
    let s := s.modFc (fun f => { f with lines := [], overN := 0, shortN := 0, zoneN := Vector.replicate 8 0 })
    let a := if d.nent = 0 then 0 else d.gtaddr
    let s := ((s.setFld FC_GTA_LO_GTADDR (a % 2 ^ 32)).setFld FC_GTA_HI_GTADDR (a / 2 ^ 32)).setFld FC_GTN_NENT d.nent
    let s := s.setOn FC_STAT_STATIC (d.nent == 0 || s.on SYS_STRAP_HOSTSEL)
    let s := if s.static then (s.setOn FC_STAT_OVERRUN false).setOn FC_STAT_SHORT false else s.each (List.finRange 8) (fun t p => t.staticDrop p)
    let s := s.syncLive.syncThr
    (s.journal (s.stamp 0 false ((adminOrigin d).word 0) 0x09 0 (BitVec.ofNat 32 old) (BitVec.ofNat 32 d.nent)
      (BitVec.ofNat 32 a))).done d 0 0 0

/-! ### Starting and holding (R64, R76, R277, R278) -/

/-- IDENTIFY, GET_TELEMETRY and JOURNAL_DRAIN. -/
def alwaysRuns (d : Desc) : Bool := d.opc == 1 || d.opc == 4 || d.opc == 5

/-- Phases are not yet permitted, and the device is in neither SAFE_TALK nor the safe state. -/
def State.starting (s : State) : Bool := !s.on SYS_STATE_PHOK && !s.safeTalk && !s.safeState

/-- Does the run read scatter lists: a GET_TELEMETRY that is neither refused nor BUSY (R285)? -/
def State.readsLists (s : State) (ds : List Desc) : Bool :=
  match ds with
  | d :: _ => d.opc == 4 && (telBad ds d).isNone && s.hif.tel.isNone
  | [] => false

/-- May a command start behind the held ones `prior`? With Bus Master Enable clear a list read waits (R261). -/
def State.mayStart (s : State) (prior : List (List Desc)) (ds : List Desc) : Bool :=
  match ds with
  | [] => false
  | d :: _ =>
    let fenced := prior.any (fun l => (l.head?.map Desc.fence).getD false)
    let passes := s.starting && alwaysRuns d && !fenced
    s.powered && (!s.readsLists ds || s.on HIF_LNK_BME) && s.takes 0 && (prior.isEmpty || passes) && (!s.starting || alwaysRuns d) &&
    (!d.fence || (prior.isEmpty && s.ring[(0 : Fin 64)].started.isEmpty))

/-- Start a command: SAFE_TALK and the safe state refuse what R76 does not list; then each opcode's own rules. -/
def State.startAdmin (s : State) (ds : List Desc) (elems : List (BitVec 64)) : State :=
  match ds with
  | [] => s
  | d :: _ =>
    let s := s.modRing 0 (fun r => { r with started := r.started ++ [d] })
    if (s.safeTalk || s.safeState) && !alwaysRuns d then s.refuse d (if d.opc = 7 ∧ d.authOp ≠ 0 then 2 else 0) 0x0A 0 0
    else match d.opc with
      | 1 => s.startIdentify d
      | 2 => s.startSetLimits ds d
      | 3 => s.startSetProfile d
      | 4 => s.startTelemetry ds d elems
      | 5 => s.startDrain d
      | 6 => s.startSelftest d
      | 7 => s.startPackAuth d
      | 8 => s.startVtarget d
      | 9 => s.startBind d
      | 10 => s.startTable d
      | 11 => s.startSounding d
      | 12 => s.startPhaseMap d
      | _ => s.refuse d 0 1 0 0

/-- The admin ring takes a run: it starts or is held (R277, R278); a DRAINING ring ends the GET_TELEMETRY whose lists were being read (R260,
R267). DEDUCED, log entry 31. -/
def State.admin (s : State) (ds : List Desc) (elems : List (BitVec 64)) : State :=
  if !s.powered then s
  else if s.ringSt 0 = 2 ∧ ds ∈ s.hif.lists ∧ s.on HIF_LNK_BME ∧ s.takes 0 then
    ({ s with hif := { s.hif with lists := s.hif.lists.erase ds } }).startAdmin ds elems
  else if s.ringSt 0 ≠ 1 ∨ s.on SYS_STRAP_HOSTSEL = true then s
  else match s.popSq 0 ds with
    | none => s
    | some t =>
      if t.mayStart t.hif.held ds then t.startAdmin ds elems
      else { t with hif := { t.hif with held := t.hif.held ++ [ds] } }

/-- The first held command that may start, with those before and after it. -/
def State.firstReady (s : State) : List (List Desc) → List (List Desc) → Option (List (List Desc) × List Desc × List (List Desc))
  | _, [] => none
  | prior, ds :: l => if s.mayStart prior ds then some (prior, ds, l) else s.firstReady (prior ++ [ds]) l

/-- ADMIN_DEFERRED_START (R64, R277, R278): the first held command that may start does; `elems` serve a GET_TELEMETRY. -/
def execAdminDeferredStart (elems : List (BitVec 64)) (s : State) : Host.Outcome State Fault Refusal :=
  .next (
    match s.firstReady [] s.hif.held with
    | some (a, ds, b) => ({ s with hif := { s.hif with held := a ++ b } }).startAdmin ds elems
    | none => s)

/-! ### The commands -/

/-- IDENTIFY. -/
def execIdentify (d : Desc) (s : State) : Host.Outcome State Fault Refusal := .next (s.admin [d.withOpc 1] [])
/-- SET_LIMITS: the run of a chain. -/
def execSetLimits (ds : List Desc) (s : State) : Host.Outcome State Fault Refusal := .next (s.admin (ds.map (·.withOpc 2)) [])
/-- SET_PROFILE. -/
def execSetProfile (d : Desc) (s : State) : Host.Outcome State Fault Refusal := .next (s.admin [d.withOpc 3] [])
/-- GET_TELEMETRY: the run of a chain, with the elements its lists hold. -/
def execGetTelemetry (ds : List Desc) (elems : List (BitVec 64)) (s : State) : Host.Outcome State Fault Refusal :=
  .next (s.admin (ds.map (·.withOpc 4)) elems)
/-- JOURNAL_DRAIN. -/
def execJournalDrain (d : Desc) (s : State) : Host.Outcome State Fault Refusal := .next (s.admin [d.withOpc 5] [])
/-- SELFTEST with SCOPE 1; SCOPE 0 and 3 are INVALID_PARAM (R287). -/
def execSelftestOnline (d : Desc) (s : State) : Host.Outcome State Fault Refusal :=
  .next (s.admin [if d.scope = 2 then (d.withOpc 6).withByte8 3 1 else d.withOpc 6] [])
/-- SELFTEST with SCOPE 2; SCOPE 0 and 3 are INVALID_PARAM (R287). -/
def execSelftestOffline (d : Desc) (s : State) : Host.Outcome State Fault Refusal :=
  .next (s.admin [if d.scope = 1 then (d.withOpc 6).withByte8 3 2 else d.withOpc 6] [])
/-- PACK_AUTH AUTHENTICATE; OP 3 to 7 is INVALID_PARAM (R216). -/
def execPackAuthenticate (d : Desc) (s : State) : Host.Outcome State Fault Refusal :=
  .next (s.admin [if d.authOp < 3 then (d.withOpc 7).withByte8 0xE 0 else d.withOpc 7] [])
/-- PACK_AUTH LOAD_KEY. -/
def execLoadKey (d : Desc) (s : State) : Host.Outcome State Fault Refusal := .next (s.admin [(d.withOpc 7).withByte8 0xE 2] [])
/-- PACK_AUTH VOID_KEY. -/
def execVoidKey (d : Desc) (s : State) : Host.Outcome State Fault Refusal := .next (s.admin [(d.withOpc 7).withByte8 0xE 4] [])
/-- SET_VTARGET. -/
def execSetVtarget (d : Desc) (s : State) : Host.Outcome State Fault Refusal := .next (s.admin [d.withOpc 8] [])
/-- BIND_CONTEXT with UNBIND = 0. -/
def execBindContext (d : Desc) (s : State) : Host.Outcome State Fault Refusal := .next (s.admin [(d.withOpc 9).withByte8 0x40 0] [])
/-- BIND_CONTEXT with UNBIND = 1. -/
def execUnbindContext (d : Desc) (s : State) : Host.Outcome State Fault Refusal :=
  .next (s.admin [(d.withOpc 9).withByte8 0x40 0x40] [])
/-- GRANT_TABLE_SETUP. -/
def execGrantTableSetup (d : Desc) (s : State) : Host.Outcome State Fault Refusal := .next (s.admin [d.withOpc 10] [])
/-- SOUNDING. -/
def execSounding (d : Desc) (s : State) : Host.Outcome State Fault Refusal := .next (s.admin [d.withOpc 11] [])
/-- PHASE_MAP. -/
def execPhaseMap (d : Desc) (s : State) : Host.Outcome State Fault Refusal := .next (s.admin [d.withOpc 12] [])

/-! ### DMA errors -/

/-- The record of a DMA error (R260, R396): the fault with its ring, and the capture. -/
def State.dmaError (s : State) (n : Fin 64) (kind : Nat) (t : Fin 3) (addr : Word) : State :=
  let s := (s.aer t).event ⟨srcHOST_DMA, .corrected, addr, BitVec.ofNat 8 (0x40 + n.val), 4, false⟩
  if s.on HIF_DMAERR_VALID then s
  else s.setWord HIF_DMAERR (BitVec.ofNat 32 (2 ^ 31 + kind * 2 ^ 16 + (t.val + 1) * 2 ^ 8 + n.val))

/-- Take a run out of the ring, or out of the held commands, where it may start. -/
def State.takeReady (s : State) (ds : List Desc) : Option State :=
  match s.firstReady [] s.hif.held with
  | some (a, x, b) => if x = ds then some { s with hif := { s.hif with held := a ++ b } } else none
  | none =>
    match s.popSq 0 ds with
    | some t => if t.mayStart t.hif.held ds then some t else none
    | none => none

/-- DMA_READ_ERROR (R260): `t` = 0 completion timeout; 1 = Unsupported Request or Completer Abort; 2 = poisoned.
With Bus Master Enable clear the read is abandoned and comes again (R261); a completion timeout needs one to be set (R256).
DEDUCED, log entry 45. -/
def execDmaReadError (r : DmaRead) (t : Fin 3) (addr : Word) (s : State) : Host.Outcome State Fault Refusal :=
  let q := t.val + 1
  .next (
    if !s.on HIF_LNK_BME || (t == 0 && s.hif.cfg.ctoOff) then s
    else match r with
    | .desc n =>
      if !s.ring[n].fetching then s
      else
        let s := (s.dmaError n 1 t addr).modRing n (fun r => { r with fetching := false })
        (if s.ringSt n = 1 then s.haltRing n 3 else s).startFetches
    | .grant c =>
      match s.fc.misses.find? (fun m => m.d.cid == c) with
      | none => s
      | some m =>
        let s := s.modFc (fun f => { f with misses := f.misses.erase m })
        ((s.dmaError m.ring 2 t addr).complete m.ring m.d 0x0B q 0).flush m.ring
    | .profile k =>
      match s.chg[k].load with
      | [] => s
      | d :: l => ((s.modChg k (fun c => { c with load := l })).dmaError 0 3 t addr).fail d 0 0x0B q 0
    | .key =>
      match s.aon.keyLoad with
      | [] => s
      | d :: l => (({ s with aon := { s.aon with keyLoad := l } }).dmaError 0 3 t addr).fail d 2 0x0B q 0
    | .list ds =>
      match ds with
      | [] => s
      | d :: _ =>
        if ds ∈ s.hif.lists then
          let u := { s with hif := { s.hif with lists := s.hif.lists.erase ds } }
          let u := u.modRing 0 (fun x => { x with started := x.started ++ [d] })
          (u.dmaError 0 3 t addr).refuse d 0 0x0B q 0
        else if s.ringSt 0 ≠ 1 ∨ d.opc ≠ 4 ∨ telBad ds d ≠ none ∨ s.hif.tel.isSome = true then s
        else match s.takeReady ds with
          | none => s
          | some u =>
            let u := u.modRing 0 (fun x => { x with started := x.started ++ [d] })
            (u.dmaError 0 3 t addr).refuse d 0 0x0B q 0)

end Machine
end Sys2Proof
end

