-- ==== Sys2Proof/Machine/TwoWire.lean ====
section
/-! DEFINITION. What the two-wire ports carry: the pointer protocol of M into BAR0 (R300 to R305), alerts and Host Notify (R308 to
R310), and Rarex transactions (R201, R313, R314). -/

namespace Sys2Proof

/-- One step of the SMBus CRC-8 of a byte, polynomial 0x07. -/
def crc8Bits : Nat → Byte → Byte
  | 0, c => c
  | n + 1, c => crc8Bits n (if c.getLsbD 7 then (c <<< 1) ^^^ 0x07 else c <<< 1)

/-- The PEC over a list of bytes, initial value 0. PRESUMED, log entry 59. -/
def crc8 (l : List Byte) : Byte := l.foldl (fun c b => crc8Bits 8 (c ^^^ b)) 0

/-- A little-endian word from its bytes. -/
def wordOf (l : List Byte) : Word := BitVec.ofNat 32 (l.reverse.foldl (fun a b => a * 256 + b.toNat) 0)

namespace Machine

/-! ### M as target -/

/-- The address byte of M, for a write (R300). -/
def State.mAddr (s : State) : Byte := BitVec.ofNat 8 (2 * s.fld TW_M_STAT_ADDR)
/-- The origin of a write through M (R305). -/
def State.mOrigin (s : State) : Origin := .twoWire 0 (BitVec.ofNat 7 (s.fld TW_M_STAT_ADDR))
/-- The pointer. -/
def State.mPtr (s : State) : Nat := s.fld TW_M_STAT_PTR
/-- PEC is required. -/
def State.pec (s : State) : Bool := s.on TW_M_CFG_PECEN

/-- Write one committed word (R302). -/
def State.mWord (s : State) (off : Nat) (v : Word) : State :=
  if s.twUp 0 then (s.count TW_M_CNT_WORDS).fabricWrite s.mOrigin off v else s

/-- Write whole words in ascending order; `fuel` bounds them. -/
def State.mWords (off : Nat) (l : List Byte) : Nat → State → State
  | 0, s => s
  | fuel + 1, s => if l.length < 4 then s else State.mWords (off + 4) (l.drop 4) fuel (s.mWord off (wordOf (l.take 4)))

/-- Commit buffered bytes from an address: whole words are written, a part of a word is discarded (R302). -/
def State.mCommit (s : State) (a : Nat) (l : List Byte) : State :=
  let skip := (4 - a % 4) % 4
  let rest := l.drop skip
  let part := !l.isEmpty && (skip != 0 || rest.length % 4 != 0)
  let s := if part then s.setFlags TW_M_EVT 0x20 else s
  State.mWords (a + skip) rest 16 s

/-- A byte was NACKed at the end of the page (R302). -/
def State.mNack (s : State) : State := (s.setFlags TW_M_EVT 0x08).count TW_M_CNT_NACKS
/-- A PEC error (R303). -/
def State.mPecErr (s : State) : State := (s.setFlags TW_M_EVT 0x10).count TW_M_CNT_ERRS

/-- The bytes of the transaction before its present part (R303). -/
def State.mHead (s : State) : List Byte := s.tw[(0 : Fin 3)].part.getD []

/-- The end of a transaction, or of its part of these bytes: a STOP frees the bus, a repeated START goes on with it. -/
def State.mEnd (s : State) (l : List Byte) (stop : Bool) : State :=
  let s := s.modTw 0 (fun t => { t with part := if stop then none else some (s.mHead ++ l) })
  (s.setFld TW_M_STAT_ROLE (if stop then 0 else 1)).setBusy 0 (!stop)

/-- A word of M waits to be committed (R302). -/
def State.mPending (s : State) : Bool := s.heldAcc.any (fun h => Origin.kind h.origin == 3)

/-- A transaction addressed to M during a commit is stretched until the commit has ended (R304): the journal writer makes room and the words
held are served; `fuel` bounds them. -/
def State.mStretch : Nat → State → State
  | 0, s => s
  | fuel + 1, s => if s.mPending then State.mStretch fuel s.flushJournal.serveHeld else s

/-- M answers its address once no commit runs (R304). -/
def State.mStart (s : State) : State := State.mStretch s.heldAcc.length s

/-- A write transaction of M: every byte after the address byte, and whether a STOP or a repeated START ends it (R300, R302, R303); the commit
follows it. DESIGN CHOICE, log entry 90. -/
def State.mWrite (s : State) (l : List Byte) (stop : Bool) : State :=
  let all := s.mHead ++ s.mAddr :: l
  let s := s.mEnd (s.mAddr :: l) stop
  let ptr := match l with
    | h :: b :: _ => h.toNat * 256 + b.toNat
    | _ => 0
  let data := l.drop 2
  let room := 64 - ptr % 64
  if s.pec then
    let s := if room + 1 < data.length then s.mNack else s
    if stop then
      if l.length < 3 then s.mPecErr
      else if room + 1 < data.length then s
      else if crc8 all.dropLast ≠ all.getLastD 0 then s.mPecErr
      else
        let d := data.dropLast
        (s.setFld TW_M_STAT_PTR (ptr + d.length)).mCommit ptr d
    else
      let s := if l.length < 2 then s else s.setFld TW_M_STAT_PTR ptr
      if data.isEmpty then s else s.mPecErr
  else if l.length < 2 then s
  else
    let d := data.take room
    let s := if room < data.length then s.mNack else s
    (s.setFld TW_M_STAT_PTR (ptr + d.length)).mCommit ptr d

/-- TW_M_WRITE (R300, R302, R303, R305): `bytes` are all bytes after the address byte, PEC included. -/
def execTwMWrite (bytes : List Byte) (stop : Bool) (s : State) : Host.Outcome State Fault Refusal :=
  .next (if s.twUp 0 then s.mStart.mWrite bytes stop else s)

/-- TW_M_POINTER_SET (R300, R303). DEDUCED, log entry 56. -/
def execTwMPointerSet (ptr : BitVec 16) (pec : Option Byte) (stop : Bool) (s : State) : Host.Outcome State Fault Refusal :=
  .next (
    if s.twUp 0 then s.mStart.mWrite ([(ptr >>> 8).setWidth 8, ptr.setWidth 8] ++ pec.toList) stop else s)

/-- Bytes streamed from the pointer: the word is read when its first byte is due (R301, R409). `w` is the latched word. -/
def State.mStream : Nat → Bool → Word → List Byte → State → List Byte × State
  | 0, _, _, acc, s => (acc.reverse, s)
  | n + 1, first, w, acc, s =>
    let p := s.mPtr
    let (w, s) := if first || p % 4 == 0 then (s.checkWord (p / 4 * 4)).readReg (p / 4 * 4) else (w, s)
    let b : Byte := (w >>> (8 * (p % 4))).setWidth 8
    State.mStream n false w (b :: acc) (s.setFld TW_M_STAT_PTR (p + 1))

/-- A read transaction of M of `n` bytes (R301, R303): with PEC and RDLEN, RDLEN data bytes, the PEC, then 0xFF. -/
def State.mRead (s : State) (n : Nat) (stop : Bool) : State :=
  let len := min 64 (s.fld TW_M_CFG_RDLEN)
  let head := s.mHead ++ [s.mAddr ||| 1]
  let (bytes, t) :=
    if s.pec && len != 0 then
      let (d, t) := State.mStream (min n len) true 0 [] s
      let t := if len + 1 < n then t.setFlags TW_M_EVT 0x400 else t
      (d ++ (if len < n then [crc8 (head ++ d)] else []) ++ List.replicate (n - len - 1) 0xFF, t)
    else State.mStream n true 0 [] s
  (t.modTw 0 (fun h => { h with sent := bytes })).mEnd ((s.mAddr ||| 1) :: bytes) stop

/-- TW_M_READ (R300, R301, R303). -/
def execTwMRead (n : Nat) (stop : Bool) (s : State) : Host.Outcome State Fault Refusal :=
  .next (if s.twUp 0 then s.mStart.mRead n stop else s)

/-! ### Alerts and Host Notify -/

/-- ALERT_RAISE (R308, R309): the alerts that have fallen due are raised. -/
def execAlertRaise (s : State) : Host.Outcome State Fault Refusal :=
  .next (
    if !s.twUp 0 then s
    else
      let t := s.tw[(0 : Fin 3)]
      let s := s.modTw 0 (fun t => { t with dueAlert := false, dueNotify := false })
      let s := if t.dueAlert then s.setOn TW_M_ALERT_PEND true else s
      if t.dueNotify then s.modTw 0 (fun t => { t with hnPend := true, hnFails := 0, hnAt := s.devtime }) else s)

/-- ALERT_RESPONSE (R303, R308): a read at 0x0C; `lost` where arbitration is lost within the address byte. -/
def execAlertResponse (lost : Bool) (s : State) : Host.Outcome State Fault Refusal :=
  .next (
    if !s.twUp 0 || !s.on TW_M_ALERT_PEND || lost then s
    else
      let bytes := [s.mAddr] ++ (if s.pec then [crc8 [0x19, s.mAddr]] else [])
      ((s.setOn TW_M_ALERT_PEND false).modTw 0 (fun t => { t with sent := bytes })).setFlags TW_M_EVT 0x200)

/-- The enabled and asserted source lines (R309). -/
def State.alertWord (s : State) : Word :=
  BitVec.ofNat 32 ((List.range 16).foldl (fun a i => a + if s.line i then 2 ^ i else 0) 0 &&& s.fld TW_M_ALERT_AMASK)

/-- One attempt of a Host Notify (R309): the bus is free, SDA has been checked, and no BUSCLR is awaited. -/
def State.hostNotify (s : State) (acked : Bool) : State :=
  let t := s.tw[(0 : Fin 3)]
  if !s.twUp 0 || !t.hnPend || t.busy || t.check || s.on TW_M_STAT_HELD then s
  else if acked then
    let w := s.alertWord
    let l := [BitVec.ofNat 8 (2 * s.fld TW_M_HN_HNADDR), s.mAddr, w.setWidth 8, (w >>> 8).setWidth 8]
    let l := if s.pec then l ++ [crc8 l] else l
    (s.setFld TW_M_HN_LASTDATA w.toNat).modTw 0 (fun t => { t with hnPend := false, sent := l })
  else s.modTw 0 (fun t => { t with hnFails := t.hnFails + 1, hnTry := s.devtime })

/-- HOST_NOTIFY (R309): the first attempt; lost arbitration leaves it the first. -/
def execHostNotify (acked : Bool) (s : State) : Host.Outcome State Fault Refusal :=
  .next (if s.tw[(0 : Fin 3)].hnFails = 0 then s.hostNotify acked else s)

/-- HOST_NOTIFY_RETRY (R309): the second and the third attempt, 1 ms after the one before. -/
def execHostNotifyRetry (acked : Bool) (s : State) : Host.Outcome State Fault Refusal :=
  .next (
    let t := s.tw[(0 : Fin 3)]
    if (t.hnFails = 1 ∨ t.hnFails = 2) ∧ 100000 ≤ (s.devtime - t.hnTry).toNat then s.hostNotify acked else s)

/-- HOST_NOTIFY_DROP (R309): 100 ms after the alert. -/
def execHostNotifyDrop (s : State) : Host.Outcome State Fault Refusal :=
  .next (
    if s.twUp 0 && s.tw[(0 : Fin 3)].hnPend && decide (10000000 ≤ (s.devtime - s.tw[(0 : Fin 3)].hnAt).toNat) then
      (s.modTw 0 (fun t => { t with hnPend := false })).setFlags TW_M_EVT 0x100
    else s)

/-- TW_ARB_LOST (R310, R311, R313): on M, in a Host Notify; `own` where the winner addresses the SK1663, which then serves it as
target. On PK0 and PK1 another controller is a bus error. -/
def execTwArbLost (p : Fin 3) (own : Bool) (s : State) : Host.Outcome State Fault Refusal :=
  .next (
    if !s.twUp p then s
    else if p ≠ 0 then
      ((s.setFlags (twEvt p) 0x21).twLost p).setLines p true false |>.modTw p (fun t => { t with busy := true, check := true })
    else if s.tw[(0 : Fin 3)].hnPend then
      ((s.setFlags TW_M_EVT (if own then 0xC0 else 0x40)).setFld TW_M_STAT_ROLE (if own then 1 else 0)).setBusy 0 true
    else s)

/-! ### Rarex -/

/-- What one failed attempt leaves (R201, R313). -/
def State.rarexFail (s : State) (p : Fin 3) (e : TwErr) : State :=
  match e with
  | .nack => (s.setFlags (twEvt p) 0x08).setBusy p false
  | .pec => (s.setFlags (twEvt p) 0x10).setBusy p false
  | .scl _ => s.twTimeout p false
  | .sda _ => s.twTimeout p true
  | .bus _ | .arb _ => ((s.setFlags (twEvt p) 0x21).setLines p true false).modTw p (fun t => { t with busy := true, check := true })

/-- What the device writes after the command and length bytes of a Rarex transaction (R201, R210): INC_CTR expects the present counter,
PUT_LIFE takes the slot that does not hold the newest record. -/
def State.rarexPayload (s : State) (k : Fin 2) : Rarex → List Byte
  | .getId | .getSig => []
  | .getCert i b => [BitVec.ofNat 8 i.val, BitVec.ofNat 8 b.val]
  | .challenge c => blockBytes c 0 32
  | .incCtr => leBytes (s.fld (PK_CTR_CTR k)) 4
  | .getLife i => [BitVec.ofNat 8 i.val]
  | .putLife => BitVec.ofNat 8 (1 - s.pk[k].lifeSlot).val :: blockBytes (s.lifeRecord k) 0 32

/-- The bytes of a Rarex transaction on the bus from the device (R201): address 0x5A, command, length, payload, then the PEC, or for a read
the address after a repeated START, the pack sending payload and PEC. -/
def State.rarexSent (s : State) (k : Fin 2) (cmd : Rarex) : List Byte :=
  let d := s.rarexPayload k cmd
  let head := [0xB4, BitVec.ofNat 8 cmd.code, BitVec.ofNat 8 d.length] ++ d
  head ++ [if cmd.readLen = 0 then crc8 head else 0xB5]

/-- The attempts of a transaction (R201, R312, R313): a failed one is retried twice, after a check of SDA where it was abandoned; a check that
finds SDA stuck holds the port and ends it. Answers whether an attempt succeeds; `n` retries are left. -/
def State.rarexTries (s : State) (k : Fin 2) (p : Fin 3) : Nat → List TwErr → Bool × State
  | _, [] => (true, s.setBusy p false)
  | 0, e :: _ => (false, s.rarexFail p e)
  | n + 1, e :: l =>
    let s := s.rarexFail p e
    let s := match e.check with
      | some c => s.sdaCheck p c
      | none => s
    if s.on (twHeld p) then (false, s) else (s.count (TW_PK_CNT_RETRY k)).rarexTries k p n l

/-- A little-endian number from its bytes. -/
def leNat (l : List Byte) : Nat := l.foldr (fun b a => b.toNat + 256 * a) 0

/-- What a read payload brings (R201, R209 to R211): the identity, a block of a certificate, the signature once Ready is not 0, a LIFE slot; the
counter of INC_CTR takes effect. A challenge starts a new signature. -/
def State.rarexReply (s : State) (k : Fin 2) (cmd : Rarex) (reply : List Byte) : State :=
  let rx (f : RxData → RxData) : State := s.modPk k (fun h => { h with rx := f h.rx })
  let num (i n : Nat) : Nat := leNat ((reply.drop i).take n)
  match cmd with
  | .getId => rx (fun d =>
      { d with id := some ⟨BitVec.ofNat 128 (num 0 16), BitVec.ofNat 32 (num 16 4), BitVec.ofNat 8 (num 20 1), BitVec.ofNat 8 (num 21 1)⟩ })
  | .getCert i b => rx (fun d =>
      let m : Cert := BitVec.ofNat 1536 (2 ^ 256 - 1) <<< (256 * b.val)
      { d with cert := d.cert.set i ((d.cert[i] &&& ~~~ m) ||| (BitVec.ofNat 1536 (num 0 32) <<< (256 * b.val))) })
  | .challenge c => rx (fun d => { d with challenge := c, sig := none })
  | .getSig => rx (fun d => { d with sig := if num 0 1 = 0 then none else some (BitVec.ofNat 512 (num 1 64)) })
  | .incCtr => s.incCtr k (wordOf (reply.take 4))
  | .getLife i => rx (fun d => { d with life := d.life.set i (BitVec.ofNat 256 (num 0 32)) })
  | .putLife => s

/-- A Rarex transaction (R201, R210, R313, R314, R405): the attempts that failed before it succeeded, at most two retries; a held port leaves
it failed. SDA has been checked, and INC_CTR is issued where it is due. `reply` is the read payload. The identity as a whole comes with
PACK_IDENT_DONE, the signature a run judges with AUTH_RUN_DONE. DESIGN CHOICE, log entry 58. DEDUCED, log entry 102. -/
def State.rarex (s : State) (k : Fin 2) (cmd : Rarex) (fails : List TwErr) (reply : List Byte) : State :=
  let p : Fin 3 := if k = 0 then 1 else 2
  if !(s.running || s.safeState) || !s.packIn k || (s.tw[p].check && !s.on (twHeld p)) || (cmd == .incCtr && !s.incDue k) then s
  else
    let s := s.count (TW_PK_CNT_XFER k)
    if s.on (twHeld p) then s.txFailed k
    else
      let (ok, s) := (s.modTw p (fun t => { t with sent := s.rarexSent k cmd })).rarexTries k p 2 fails
      if ok then (s.modPk k (fun h => { h with txFails := 0 })).rarexReply k cmd reply else s.txFailed k

/-- RAREX_TRANSACTION (R201, R210, R211, R314). -/
def execRarexTransaction (k : Fin 2) (cmd : Rarex) (fails : List TwErr) (reply : List Byte) (s : State) : Host.Outcome State Fault Refusal :=
  .next (s.rarex k cmd fails reply)

/-- GET_SIG_POLL (R201): a poll of a running authentication whose signature is not ready; Ready still reads 0. The poll that finds it ready
comes as a RAREX_TRANSACTION. -/
def execGetSigPoll (k : Fin 2) (fails : List TwErr) (s : State) : Host.Outcome State Fault Refusal :=
  .next (if s.pk[k].running && s.pk[k].rx.sig.isNone then s.rarex k .getSig fails [0] else s)

end Machine
end Sys2Proof
end

