-- ==== Sys2Proof/Machine/Writes.lean ====
section
/-! DEFINITION. The commands that are one access to BAR0: a write of a named register, a write of any other, a read, and the journal
writer. Each goes through the fabric (Fabric.lean), which knows what the register's write does. -/

namespace Sys2Proof.Machine

/-- GO_FIELD (R83): the bit is set in the word written. -/
def execGoField (o : Origin) (v : Word) (s : State) : Host.Outcome State Fault Refusal :=
  .next (s.fabricWrite o SYS_LC (SYS_LC_GO_FIELD.insert v 1))
/-- GO_RETURNED (R84). -/
def execGoReturned (o : Origin) (v : Word) (s : State) : Host.Outcome State Fault Refusal :=
  .next (s.fabricWrite o SYS_LC (SYS_LC_GO_RETURNED.insert v 1))

/-- DEVRST (R71): with SYS_MAINT the device resets and start-up runs from step 3; without, the write is refused. -/
def execDevrst (o : Origin) (v : Word) (r : Boot) (s : State) : Host.Outcome State Fault Refusal :=
  .next (
    let t := s.fabricWrite o SYS_RST (SYS_RST_DEVRST.insert v 1)
    if t.sys.resetHeld && !s.sys.resetHeld then t.startUp r false else t)

/-- FEED_LOCK_SET (R114). -/
def execFeedLockSet (o : Origin) (v : Word) (s : State) : Host.Outcome State Fault Refusal :=
  .next (s.fabricWrite o FEED_LOCK (FEED_LOCK_LOCK.insert v 1))
/-- PH_VHOLD_WRITE (R145). -/
def execPhVholdWrite (o : Origin) (v : Word) (s : State) : Host.Outcome State Fault Refusal := .next (s.fabricWrite o PH_VHOLD v)
/-- CHG_FAULT_CLEAR (R155). -/
def execChgFaultClear (k : Fin 2) (o : Origin) (v : Word) (s : State) : Host.Outcome State Fault Refusal :=
  .next (s.fabricWrite o (CHG_CTL k) ((CHG_CTL_CLR k).insert v 1))
/-- PROFILE_STAGED_LOAD (R185). -/
def execProfileStagedLoad (o : Origin) (v : Word) (s : State) : Host.Outcome State Fault Refusal :=
  .next (s.fabricWrite o CHG_PLOAD (CHG_PLOAD_GO.insert v 1))
/-- PACK_LATCH_CLEAR (R192). -/
def execPackLatchClear (k : Fin 2) (o : Origin) (v : Word) (s : State) : Host.Outcome State Fault Refusal :=
  .next (s.fabricWrite o (PK_CFG k) ((PK_CFG_CLR k).insert v 1))
/-- AUTHDIS_WRITE (R206). -/
def execAuthdisWrite (k : Fin 2) (o : Origin) (v : Word) (s : State) : Host.Outcome State Fault Refusal :=
  .next (s.fabricWrite o (PK_CFG k) v)
/-- PK_SHIP_ARM (R212). -/
def execPkShipArm (o : Origin) (v : Word) (s : State) : Host.Outcome State Fault Refusal :=
  .next (s.fabricWrite o PK_SHIP (PK_SHIP_ARM.insert v 1))
/-- RING_ENABLE (R267). -/
def execRingEnable (n : Fin 64) (o : Origin) (v : Word) (s : State) : Host.Outcome State Fault Refusal :=
  .next (s.fabricWrite o (HIF_CFG n) ((HIF_CFG_EN n).insert v 1))
/-- RING_DISABLE (R267). -/
def execRingDisable (n : Fin 64) (o : Origin) (v : Word) (s : State) : Host.Outcome State Fault Refusal :=
  .next (s.fabricWrite o (HIF_CFG n) ((HIF_CFG_EN n).insert v 0))
/-- MSIX_UNMASK (R291). -/
def execMsixUnmask (v : Fin 64) (o : Origin) (w : Word) (s : State) : Host.Outcome State Fault Refusal :=
  .next (s.fabricWrite o (MSIX_CTL v) ((MSIX_CTL_MASK v).insert w 0))
/-- TW_BUSCLR (R312, R316). -/
def execTwBusclr (p : Fin 3) (o : Origin) (v : Word) (s : State) : Host.Outcome State Fault Refusal :=
  .next (s.fabricWrite o (if p = 0 then TW_M_CTL else TW_PK_CTL (twPack p)) (TW_M_CTL_BUSCLR.insert v 1))
/-- TW_PORT_RESET (R299, R312, R316). -/
def execTwPortReset (p : Fin 3) (o : Origin) (v : Word) (s : State) : Host.Outcome State Fault Refusal :=
  .next (s.fabricWrite o (if p = 0 then TW_M_CTL else TW_PK_CTL (twPack p)) (TW_M_CTL_RST.insert v 1))
/-- REFSEL_WRITE (R339). -/
def execRefselWrite (x : Fin 2) (o : Origin) (v : Word) (s : State) : Host.Outcome State Fault Refusal :=
  .next (s.fabricWrite o (ADC_CFG x) v)
/-- TIMER_CNT_WRITE (R361). -/
def execTimerCntWrite (n : Fin 8) (o : Origin) (v : Word) (s : State) : Host.Outcome State Fault Refusal :=
  .next (s.fabricWrite o (TMR_CNT n) v)
/-- TIMER_CCR_WRITE (R362, R363). -/
def execTimerCcrWrite (n : Fin 8) (c : Fin 4) (o : Origin) (v : Word) (s : State) : Host.Outcome State Fault Refusal :=
  .next (s.fabricWrite o (TMR_CCR n c) v)
/-- TIMER_ENABLE (R359). -/
def execTimerEnable (n : Fin 8) (o : Origin) (v : Word) (s : State) : Host.Outcome State Fault Refusal :=
  .next (s.fabricWrite o (TMR_CTL n) ((TMR_CTL_EN n).insert v 1))
/-- FAULT_ACK (R400): `hi` names the register; a word of 0 acknowledges nothing. -/
def execFaultAck (hi : Bool) (o : Origin) (v : Word) (s : State) : Host.Outcome State Fault Refusal :=
  .next (s.fabricWrite o (if hi then FLT_PEND_HI else FLT_PEND_LO) v)
/-- FIRST_ERROR_REARM (R395). -/
def execFirstErrorRearm (o : Origin) (v : Word) (s : State) : Host.Outcome State Fault Refusal :=
  .next (s.fabricWrite o FLT_FIRST (FLT_FIRST_VALID.insert v 1))
/-- FAULT_INJECT (R411). -/
def execFaultInject (o : Origin) (v : Word) (s : State) : Host.Outcome State Fault Refusal :=
  .next (s.fabricWrite o FLT_INJ (FLT_INJ_GO.insert v 1))
/-- HEARTBEAT_RESUME (R407). -/
def execHeartbeatResume (o : Origin) (v : Word) (s : State) : Host.Outcome State Fault Refusal :=
  .next (s.fabricWrite o FLT_PIN (FLT_PIN_RESUME.insert v 1))
/-- PRESENCE_CLOSE (R415). -/
def execPresenceClose (o : Origin) (v : Word) (s : State) : Host.Outcome State Fault Refusal :=
  .next (s.fabricWrite o AUTH_PRES (AUTH_PRES_CLOSE.insert v 1))
/-- JNL_RDIDX_WRITE (R426). -/
def execJnlRdidxWrite (o : Origin) (v : Word) (s : State) : Host.Outcome State Fault Refusal := .next (s.fabricWrite o JNL_RDIDX v)
/-- JNL_REL_WRITE (R426). -/
def execJnlRelWrite (o : Origin) (v : Word) (s : State) : Host.Outcome State Fault Refusal := .next (s.fabricWrite o JNL_REL v)

/-- REGISTER_WRITE (R8 to R12, R33 to R35, R258, R418 to R421): a host write with partial byte enables is dropped and recorded, one of more than
2 DW reported as an Unsupported Request. DESIGN CHOICE, log entry 54. -/
def execRegisterWrite (o : Origin) (off : BitVec 16) (v : Word) (f : Bar0Form) (s : State) : Host.Outcome State Fault Refusal :=
  .next (
    if !o.isHost || f == .whole then s.fabricWrite o off.toNat v
    else if !s.reachable o then s
    else if f = .gaps then s.regFault o (off.toNat / 4 * 4)
    else s.unsupported false)

/-- One word read through the fabric (R409); `rdata` holds what it returned. DEDUCED, log entry 94. -/
def State.fabricRead (s : State) (o : Origin) (off : Nat) : State :=
  if s.reachable o then
    let (w, t) := (s.checkWord (off / 4 * 4)).readReg (off / 4 * 4)
    { t with rdata := [w] }
  else s

/-- TIMER_CAPTURE_READ (R363). -/
def execTimerCaptureRead (n : Fin 8) (c : Fin 4) (o : Origin) (s : State) : Host.Outcome State Fault Refusal :=
  .next (s.fabricRead o (TMR_CCR n c))
/-- REGISTER_READ (R8, R9, R12, R258): a host read of more than 2 DW (`long`) gets an Unsupported Request completion. -/
def execRegisterRead (o : Origin) (off : BitVec 16) (long : Bool) (s : State) : Host.Outcome State Fault Refusal :=
  .next (
    if !o.isHost || !long then s.fabricRead o off.toNat
    else if s.reachable o then s.unsupported true else s)

/-- JOURNAL_WRITE (R421, R425): the writer stores one record, and an access the full queue held is served. -/
def execJournalWrite (s : State) : Host.Outcome State Fault Refusal :=
  .next (if s.powered then s.writeRecord.serveHeld else s)

end Sys2Proof.Machine
end

