-- ==== Sys2Proof/Machine/Dispatch.lean ====
section
/-! DEFINITION. One arm per command: the call of its meaning. -/

namespace Sys2Proof.Machine

/-- What a command does to everything but the queue. -/
def exec (i : Instr) (s : State) : Host.Outcome State Fault Refusal :=
  match i with
  | .biasRise v => Sys2Proof.Machine.execBiasRise v s
  | .biasGood r => Sys2Proof.Machine.execBiasGood r s
  | .powerOnReset => Sys2Proof.Machine.execPowerOnReset s
  | .biasSourceChange v => Sys2Proof.Machine.execBiasSourceChange v s
  | .resetNAssert => Sys2Proof.Machine.execResetNAssert s
  | .resetNRelease r => Sys2Proof.Machine.execResetNRelease r s
  | .devrst o v r => Sys2Proof.Machine.execDevrst o v r s
  | .goField o v => Sys2Proof.Machine.execGoField o v s
  | .goReturned o v => Sys2Proof.Machine.execGoReturned o v s
  | .lifecycleChangeDone blown => Sys2Proof.Machine.execLifecycleChangeDone blown s
  | .selftestOnline d => Sys2Proof.Machine.execSelftestOnline d s
  | .onlineMarginCheck => Sys2Proof.Machine.execOnlineMarginCheck s
  | .onlinePhaseTestDone r => Sys2Proof.Machine.execOnlinePhaseTestDone r s
  | .selftestOffline d => Sys2Proof.Machine.execSelftestOffline d s
  | .offlineDone r => Sys2Proof.Machine.execOfflineDone r s
  | .feedPresent n => Sys2Proof.Machine.execFeedPresent n s
  | .feedCheckDone n c => Sys2Proof.Machine.execFeedCheckDone n c s
  | .feedAbsent n => Sys2Proof.Machine.execFeedAbsent n s
  | .feedUv n w => Sys2Proof.Machine.execFeedUv n w s
  | .feedOv n w => Sys2Proof.Machine.execFeedOv n w s
  | .feedWindowEnter n => Sys2Proof.Machine.execFeedWindowEnter n s
  | .feedQualified n => Sys2Proof.Machine.execFeedQualified n s
  | .inrushStart n => Sys2Proof.Machine.execInrushStart n s
  | .inrushComplete n => Sys2Proof.Machine.execInrushComplete n s
  | .inrushTimeout n => Sys2Proof.Machine.execInrushTimeout n s
  | .feedModelUpdate n => Sys2Proof.Machine.execFeedModelUpdate n s
  | .feedShortCircuit n w => Sys2Proof.Machine.execFeedShortCircuit n w s
  | .feedScHoldoffEnd n => Sys2Proof.Machine.execFeedScHoldoffEnd n s
  | .feedReverseCurrent n w => Sys2Proof.Machine.execFeedReverseCurrent n w s
  | .oringReenable n => Sys2Proof.Machine.execOringReenable n s
  | .droopUpdate n => Sys2Proof.Machine.execDroopUpdate n s
  | .nearAssert n => Sys2Proof.Machine.execNearAssert n s
  | .nearRelease => Sys2Proof.Machine.execNearRelease s
  | .feedHealthExpire n => Sys2Proof.Machine.execFeedHealthExpire n s
  | .feedTripCountClear n => Sys2Proof.Machine.execFeedTripCountClear n s
  | .feedGroupChange => Sys2Proof.Machine.execFeedGroupChange s
  | .feedLockSet o v => Sys2Proof.Machine.execFeedLockSet o v s
  | .ejectAssert => Sys2Proof.Machine.execEjectAssert s
  | .ejectDeassert => Sys2Proof.Machine.execEjectDeassert s
  | .ejectFeedOff => Sys2Proof.Machine.execEjectFeedOff s
  | .extractHoldExpire => Sys2Proof.Machine.execExtractHoldExpire s
  | .pwmCycleStart n => Sys2Proof.Machine.execPwmCycleStart n s
  | .tripWireEvent n e at_ trunc w => Sys2Proof.Machine.execTripWireEvent n e at_ trunc w s
  | .maxDutyEnd n => Sys2Proof.Machine.execMaxDutyEnd n s
  | .hardSwitchReport n at_ w => Sys2Proof.Machine.execHardSwitchReport n at_ w s
  | .modeEvaluate k => Sys2Proof.Machine.execModeEvaluate k s
  | .directionChange k d => Sys2Proof.Machine.execDirectionChange k d s
  | .inductanceLearn n => Sys2Proof.Machine.execInductanceLearn n s
  | .deadtimeAdapt n => Sys2Proof.Machine.execDeadtimeAdapt n s
  | .tripMismatch n reported => Sys2Proof.Machine.execTripMismatch n reported s
  | .phaseAdd k => Sys2Proof.Machine.execPhaseAdd k s
  | .phaseShed k => Sys2Proof.Machine.execPhaseShed k s
  | .phaseWakeDone n => Sys2Proof.Machine.execPhaseWakeDone n s
  | .phaseShedDone n => Sys2Proof.Machine.execPhaseShedDone n s
  | .slowOverload n => Sys2Proof.Machine.execSlowOverload n s
  | .oclCoolEnd n => Sys2Proof.Machine.execOclCoolEnd n s
  | .phaseLoss n cause w => Sys2Proof.Machine.execPhaseLoss n cause w s
  | .legProbe n boost p => Sys2Proof.Machine.execLegProbe n boost p s
  | .syncLost => Sys2Proof.Machine.execSyncLost s
  | .syncRelock => Sys2Proof.Machine.execSyncRelock s
  | .phaseMap d => Sys2Proof.Machine.execPhaseMap d s
  | .phaseMapDrainDone => Sys2Proof.Machine.execPhaseMapDrainDone s
  | .setVtarget d => Sys2Proof.Machine.execSetVtarget d s
  | .vholdRefUpdate => Sys2Proof.Machine.execVholdRefUpdate s
  | .phVholdWrite o v => Sys2Proof.Machine.execPhVholdWrite o v s
  | .busovUpdate => Sys2Proof.Machine.execBusovUpdate s
  | .feedLimitUpdate => Sys2Proof.Machine.execFeedLimitUpdate s
  | .chargeCommandUpdate => Sys2Proof.Machine.execChargeCommandUpdate s
  | .chargeLoopUpdate k => Sys2Proof.Machine.execChargeLoopUpdate k s
  | .chgQualifyEnd k => Sys2Proof.Machine.execChgQualifyEnd k s
  | .chgPrechargeExit k => Sys2Proof.Machine.execChgPrechargeExit k s
  | .chgStageTimeout k => Sys2Proof.Machine.execChgStageTimeout k s
  | .chgDwellExpire k => Sys2Proof.Machine.execChgDwellExpire k s
  | .chgTempOut k => Sys2Proof.Machine.execChgTempOut k s
  | .chgRestEnd k => Sys2Proof.Machine.execChgRestEnd k s
  | .chgFaultClear k o v => Sys2Proof.Machine.execChgFaultClear k o v s
  | .crestUpdate => Sys2Proof.Machine.execCrestUpdate s
  | .chgStarve k => Sys2Proof.Machine.execChgStarve k s
  | .setProfile d => Sys2Proof.Machine.execSetProfile d s
  | .profileReadDone k p => Sys2Proof.Machine.execProfileReadDone k p s
  | .profileStagedLoad o v => Sys2Proof.Machine.execProfileStagedLoad o v s
  | .sounding d => Sys2Proof.Machine.execSounding d s
  | .soundingWindowEnd k => Sys2Proof.Machine.execSoundingWindowEnd k s
  | .holdupLoopUpdate => Sys2Proof.Machine.execHoldupLoopUpdate s
  | .hulowAssert => Sys2Proof.Machine.execHulowAssert s
  | .hulowRelease => Sys2Proof.Machine.execHulowRelease s
  | .holdupCut k => Sys2Proof.Machine.execHoldupCut k s
  | .holdupEndStop => Sys2Proof.Machine.execHoldupEndStop s
  | .gustHoldEnd k => Sys2Proof.Machine.execGustHoldEnd k s
  | .packInserted k => Sys2Proof.Machine.execPackInserted k s
  | .packRemoved k => Sys2Proof.Machine.execPackRemoved k s
  | .packIdentDone k r => Sys2Proof.Machine.execPackIdentDone k r s
  | .packCloseStart k => Sys2Proof.Machine.execPackCloseStart k s
  | .packCloseDone k => Sys2Proof.Machine.execPackCloseDone k s
  | .packCloseTimeout k => Sys2Proof.Machine.execPackCloseTimeout k s
  | .packDsgReclose k => Sys2Proof.Machine.execPackDsgReclose k s
  | .packShortCircuit k w => Sys2Proof.Machine.execPackShortCircuit k w s
  | .packChargeOvercurrent k w => Sys2Proof.Machine.execPackChargeOvercurrent k w s
  | .packOv k w => Sys2Proof.Machine.execPackOv k w s
  | .packUv k w => Sys2Proof.Machine.execPackUv k w s
  | .packOvertemp k => Sys2Proof.Machine.execPackOvertemp k s
  | .packTripRetry k t => Sys2Proof.Machine.execPackTripRetry k t s
  | .packLatchClear k o v => Sys2Proof.Machine.execPackLatchClear k o v s
  | .coulombSample k code => Sys2Proof.Machine.execCoulombSample k code s
  | .coulombOffsetStart k => Sys2Proof.Machine.execCoulombOffsetStart k s
  | .coulombOffsetDone k => Sys2Proof.Machine.execCoulombOffsetDone k s
  | .rarexTransaction k cmd fails reply => Sys2Proof.Machine.execRarexTransaction k cmd fails reply s
  | .getSigPoll k fails => Sys2Proof.Machine.execGetSigPoll k fails s
  | .authRunStart k => Sys2Proof.Machine.execAuthRunStart k s
  | .authRunDone k r => Sys2Proof.Machine.execAuthRunDone k r s
  | .packAuthenticate d => Sys2Proof.Machine.execPackAuthenticate d s
  | .loadKey d => Sys2Proof.Machine.execLoadKey d s
  | .keyReadDone key => Sys2Proof.Machine.execKeyReadDone key s
  | .voidKey d => Sys2Proof.Machine.execVoidKey d s
  | .authdisWrite k o v => Sys2Proof.Machine.execAuthdisWrite k o v s
  | .lifeWriteback k ok => Sys2Proof.Machine.execLifeWriteback k ok s
  | .pkShipArm o v => Sys2Proof.Machine.execPkShipArm o v s
  | .aonTick fd pk wakeLow presHigh => Sys2Proof.Machine.execAonTick fd pk wakeLow presHigh s
  | .doldrumsWake w v r => Sys2Proof.Machine.execDoldrumsWake w v r s
  | .shipCut => Sys2Proof.Machine.execShipCut s
  | .forecastSnapshot => Sys2Proof.Machine.execForecastSnapshot s
  | .grantRequest n d => Sys2Proof.Machine.execGrantRequest n d s
  | .grantRelease n d => Sys2Proof.Machine.execGrantRelease n d s
  | .grantExtend n d => Sys2Proof.Machine.execGrantExtend n d s
  | .accountRead n d => Sys2Proof.Machine.execAccountRead n d s
  | .cacheFillDone c e g => Sys2Proof.Machine.execCacheFillDone c e g s
  | .accountWriteback c late g => Sys2Proof.Machine.execAccountWriteback c late g s
  | .grantExpire c => Sys2Proof.Machine.execGrantExpire c s
  | .revokeDeadline c => Sys2Proof.Machine.execRevokeDeadline c s
  | .throttleRelease c => Sys2Proof.Machine.execThrottleRelease c s
  | .zoneHostStale z => Sys2Proof.Machine.execZoneHostStale z s
  | .bindContext d => Sys2Proof.Machine.execBindContext d s
  | .unbindContext d => Sys2Proof.Machine.execUnbindContext d s
  | .grantTableSetup d => Sys2Proof.Machine.execGrantTableSetup d s
  | .pePerstNAssert => Sys2Proof.Machine.execPePerstNAssert s
  | .linkDown => Sys2Proof.Machine.execLinkDown s
  | .functionLevelReset => Sys2Proof.Machine.execFunctionLevelReset s
  | .d3hotEntry => Sys2Proof.Machine.execD3hotEntry s
  | .busMasterDisable => Sys2Proof.Machine.execBusMasterDisable s
  | .busMasterEnable c => Sys2Proof.Machine.execBusMasterEnable c s
  | .aspmL1Entry => Sys2Proof.Machine.execAspmL1Entry s
  | .sqTailDoorbell n v => Sys2Proof.Machine.execSqTailDoorbell n v s
  | .cqHeadDoorbell n v => Sys2Proof.Machine.execCqHeadDoorbell n v s
  | .pushSlotWrite n ws => Sys2Proof.Machine.execPushSlotWrite n ws s
  | .bar2InvalidWrite off len => Sys2Proof.Machine.execBar2InvalidWrite off len s
  | .descriptorFetchDone n ds => Sys2Proof.Machine.execDescriptorFetchDone n ds s
  | .dmaReadError r t addr => Sys2Proof.Machine.execDmaReadError r t addr s
  | .ringEnable n o v => Sys2Proof.Machine.execRingEnable n o v s
  | .ringDisable n o v => Sys2Proof.Machine.execRingDisable n o v s
  | .ringDrained n => Sys2Proof.Machine.execRingDrained n s
  | .completionPost n => Sys2Proof.Machine.execCompletionPost n s
  | .msixTimerExpire n => Sys2Proof.Machine.execMsixTimerExpire n s
  | .msixUnmask v o w => Sys2Proof.Machine.execMsixUnmask v o w s
  | .adminDeferredStart elems => Sys2Proof.Machine.execAdminDeferredStart elems s
  | .identify d => Sys2Proof.Machine.execIdentify d s
  | .setLimits ds => Sys2Proof.Machine.execSetLimits ds s
  | .setLimitsApply => Sys2Proof.Machine.execSetLimitsApply s
  | .getTelemetry ds elems => Sys2Proof.Machine.execGetTelemetry ds elems s
  | .telemetryRecord capture skip => Sys2Proof.Machine.execTelemetryRecord capture skip s
  | .journalDrain d => Sys2Proof.Machine.execJournalDrain d s
  | .twMPointerSet ptr pec stop => Sys2Proof.Machine.execTwMPointerSet ptr pec stop s
  | .twMWrite bytes stop => Sys2Proof.Machine.execTwMWrite bytes stop s
  | .twMRead n stop => Sys2Proof.Machine.execTwMRead n stop s
  | .twBusError p => Sys2Proof.Machine.execTwBusError p s
  | .twSclTimeout p => Sys2Proof.Machine.execTwSclTimeout p s
  | .twSdaTimeout p => Sys2Proof.Machine.execTwSdaTimeout p s
  | .twBusFree p => Sys2Proof.Machine.execTwBusFree p s
  | .alertRaise => Sys2Proof.Machine.execAlertRaise s
  | .alertResponse lost => Sys2Proof.Machine.execAlertResponse lost s
  | .hostNotify acked => Sys2Proof.Machine.execHostNotify acked s
  | .hostNotifyRetry acked => Sys2Proof.Machine.execHostNotifyRetry acked s
  | .hostNotifyDrop => Sys2Proof.Machine.execHostNotifyDrop s
  | .twArbLost p own => Sys2Proof.Machine.execTwArbLost p own s
  | .twBusClear p pulses => Sys2Proof.Machine.execTwBusClear p pulses s
  | .twBusclr p o v => Sys2Proof.Machine.execTwBusclr p o v s
  | .twPortReset p o v => Sys2Proof.Machine.execTwPortReset p o v s
  | .cmpGpEvent g x w => Sys2Proof.Machine.execCmpGpEvent g x w s
  | .busUv w => Sys2Proof.Machine.execBusUv w s
  | .biasLow w => Sys2Proof.Machine.execBiasLow w s
  | .biasOv w => Sys2Proof.Machine.execBiasOv w s
  | .comparatorAutozero c trim x => Sys2Proof.Machine.execComparatorAutozero c trim x s
  | .adcaPass inp t => Sys2Proof.Machine.execAdcaPass inp t s
  | .adcbPass inp t => Sys2Proof.Machine.execAdcbPass inp t s
  | .adcInjection x k inp pair t => Sys2Proof.Machine.execAdcInjection x k inp pair t s
  | .referenceLoss r busy => Sys2Proof.Machine.execReferenceLoss r busy s
  | .refselWrite x o v => Sys2Proof.Machine.execRefselWrite x o v s
  | .adcCrossCheck x c42 c43 c36 => Sys2Proof.Machine.execAdcCrossCheck x c42 c43 c36 s
  | .dieTempReading tc => Sys2Proof.Machine.execDieTempReading tc s
  | .anvilOvertemp => Sys2Proof.Machine.execAnvilOvertemp s
  | .stageTempReading n => Sys2Proof.Machine.execStageTempReading n s
  | .ncapStep k => Sys2Proof.Machine.execNcapStep k s
  | .thermalCompUpdate q => Sys2Proof.Machine.execThermalCompUpdate q s
  | .timerIncrement n sync => Sys2Proof.Machine.execTimerIncrement n sync s
  | .timerCapture n c => Sys2Proof.Machine.execTimerCapture n c s
  | .timerCaptureRead n c o => Sys2Proof.Machine.execTimerCaptureRead n c o s
  | .timerCntWrite n o v => Sys2Proof.Machine.execTimerCntWrite n o v s
  | .timerCcrWrite n c o v => Sys2Proof.Machine.execTimerCcrWrite n c o v s
  | .timerEnable n o v => Sys2Proof.Machine.execTimerEnable n o v s
  | .timerTriggerEdge n => Sys2Proof.Machine.execTimerTriggerEdge n s
  | .devtimeWrap => Sys2Proof.Machine.execDevtimeWrap s
  | .cpDebugHalt => Sys2Proof.Machine.execCpDebugHalt s
  | .patrolScrub r off lane last late => Sys2Proof.Machine.execPatrolScrub r off lane last late s
  | .b4WipeDone => Sys2Proof.Machine.execB4WipeDone s
  | .faultEvent => Sys2Proof.Machine.execFaultEvent s
  | .graceExpire mask => Sys2Proof.Machine.execGraceExpire mask s
  | .faultAck hi o v => Sys2Proof.Machine.execFaultAck hi o v s
  | .fltAutoAck src => Sys2Proof.Machine.execFltAutoAck src s
  | .firstErrorRearm o v => Sys2Proof.Machine.execFirstErrorRearm o v s
  | .watchdogExpire => Sys2Proof.Machine.execWatchdogExpire s
  | .collectorSelfCheck bad => Sys2Proof.Machine.execCollectorSelfCheck bad s
  | .safeClockLoss => Sys2Proof.Machine.execSafeClockLoss s
  | .faultInject o v => Sys2Proof.Machine.execFaultInject o v s
  | .faultPulseEnd => Sys2Proof.Machine.execFaultPulseEnd s
  | .heartbeatResume o v => Sys2Proof.Machine.execHeartbeatResume o v s
  | .d2dRetry => Sys2Proof.Machine.execD2dRetry s
  | .d2dLinkLoss => Sys2Proof.Machine.execD2dLinkLoss s
  | .refLoss c0 c1 => Sys2Proof.Machine.execRefLoss c0 c1 s
  | .attendPress => Sys2Proof.Machine.execAttendPress s
  | .attendRelease => Sys2Proof.Machine.execAttendRelease s
  | .presenceTimeout => Sys2Proof.Machine.execPresenceTimeout s
  | .presenceClose o v => Sys2Proof.Machine.execPresenceClose o v s
  | .journalWrite => Sys2Proof.Machine.execJournalWrite s
  | .jnlRdidxWrite o v => Sys2Proof.Machine.execJnlRdidxWrite o v s
  | .jnlRelWrite o v => Sys2Proof.Machine.execJnlRelWrite o v s
  | .registerWrite o off v f => Sys2Proof.Machine.execRegisterWrite o off v f s
  | .registerRead o off long => Sys2Proof.Machine.execRegisterRead o off long s
  | .referenceReady r => Sys2Proof.Machine.execReferenceReady r s
  | .linkUp g => Sys2Proof.Machine.execLinkUp g s
  | .aspmL1Exit => Sys2Proof.Machine.execAspmL1Exit s
  | .cpDebugResume => Sys2Proof.Machine.execCpDebugResume s
  | .blankingIntervalEnd c x => Sys2Proof.Machine.execBlankingIntervalEnd c x s
  | .faultNHeartbeat => Sys2Proof.Machine.execFaultNHeartbeat s

end Sys2Proof.Machine
end

