-- ==== Sys2Proof/Machine/Step.lean ====
section
/-! DEFINITION. One step: the command at the front of the queue, or with an empty queue the passing of one 10 ns count of DEVTIME. -/

namespace Sys2Proof.Machine

/-- A step. With no command waiting, DEVTIME counts while the device is powered, and nothing else happens (R13, R323).
DESIGN CHOICE, log entry 2. -/
def step (s : State) : Host.Outcome State Fault Refusal :=
  match s.pending with
  | [] => .next (if s.powered then s.timeTick else s)
  | c :: l => exec c { s with pending := l }

/-- The state with the command a word spells put at the front of the queue. DESIGN CHOICE, log entry 93. -/
def State.withFetchWord (s : State) (nbits w : Nat) : State :=
  match decodeTableWord nbits w with
  | some c => { s with pending := c :: s.pending }
  | none => s

end Sys2Proof.Machine
end

