-- ==== Sys2Proof/Safety.lean ====
section
/-! DEFINITION. What counts as a sound state and as a lawful change of state: the terms in which claims about every command are
stated. -/

namespace Sys2Proof.Machine

/-- A sound state: the registers are in their canonical form, and the journal holds at most its 4,096 entries (R425). -/
structure State.Sound (s : State) : Prop where
  regs : s.regs.wf = true
  journal : s.jnl.entries.length ≤ 4096

/-- What one-time fuses allow between two states: a blown life-cycle group stays blown (R81), a fleet key once fused stays the
same key, and a void fuse once blown stays blown (R203). -/
structure FusesHold (s t : State) : Prop where
  groups : ∀ (i : Fin 3) (j : Nat), s.sys.fuses[i].getLsbD j = true → t.sys.fuses[i].getLsbD j = true
  valid : ∀ i : Fin 4, s.aon.keys[i].2.1 = true → t.aon.keys[i].2.1 = true ∧ t.aon.keys[i].1 = s.aon.keys[i].1
  void : ∀ i : Fin 4, s.aon.keys[i].2.2 = true → t.aon.keys[i].2.2 = true

/-- What an effect of any command may do to the queue, to the soundness of the state and to the fuses. -/
structure Keeps (s t : State) : Prop where
  queue : t.pending = s.pending
  sound : s.Sound → t.Sound
  fuses : FusesHold s t

/-! ### What an effect may change -/

/-- A place of the state: a register by its offset, or one of the structures that hold what software cannot read. -/
inductive Place
  | reg (off : Nat)
  | devtime | jnl | heldAcc | flt | sys | auth
  | feed (n : Fin 4)
  | ph (n : Fin 16)
  | php (k : Fin 2)
  | phg | meas
  | chg (k : Fin 2)
  | chgg
  | pk (k : Fin 2)
  | aon | fc
  | ring (n : Fin 64)
  | hif
  | tw (p : Fin 3)
  | cmp (c : Fin 48)
  | adc (x : Fin 2)
  | tmr (n : Fin 8)
  | thm | mem | out | rdata | freeCtr
deriving DecidableEq, Repr

/-- The place holds the same in both states. -/
def Place.Same (s t : State) : Place → Prop
  | .reg off => t.word off = s.word off
  | .devtime => t.devtime = s.devtime
  | .jnl => t.jnl = s.jnl
  | .heldAcc => t.heldAcc = s.heldAcc
  | .flt => t.flt = s.flt
  | .sys => t.sys = s.sys
  | .auth => t.auth = s.auth
  | .feed n => t.feed[n] = s.feed[n]
  | .ph n => t.ph[n] = s.ph[n]
  | .php k => t.php[k] = s.php[k]
  | .phg => t.phg = s.phg
  | .meas => t.meas = s.meas
  | .chg k => t.chg[k] = s.chg[k]
  | .chgg => t.chgg = s.chgg
  | .pk k => t.pk[k] = s.pk[k]
  | .aon => t.aon = s.aon
  | .fc => t.fc = s.fc
  | .ring n => t.ring[n] = s.ring[n]
  | .hif => t.hif = s.hif
  | .tw p => t.tw[p] = s.tw[p]
  | .cmp c => t.cmp[c] = s.cmp[c]
  | .adc x => t.adc[x] = s.adc[x]
  | .tmr n => t.tmr[n] = s.tmr[n]
  | .thm => t.thm = s.thm
  | .mem => t.mem = s.mem
  | .out => t.out = s.out
  | .rdata => t.rdata = s.rdata
  | .freeCtr => t.freeCtr = s.freeCtr

/-- `t` differs from `s` at the places of `P` alone: every other register and every other structure holds what it held. -/
def OnlyAt (P : Place → Prop) (s t : State) : Prop := ∀ l, ¬ P l → l.Same s t

/-! ### What a command gives -/

/-- The command answers a next state, and the next state is as `Q` says. -/
def Gives (c : Instr) (s : State) (Q : State → Prop) : Prop := ∃ t, exec c s = .next t ∧ Q t

/-- A counter has gone up by one, or stands at its field's maximum. -/
def Counted (s t : State) (f : Fld) : Prop := t.fld f = min (2 ^ f.width - 1) (s.fld f + 1)

/-- A hardware event of a source stands at the collector's inputs (R393, R396). -/
def Raised (t : State) (src : Fin 64) (addr : Nat) : Prop :=
  (⟨src, fltClass src, BitVec.ofNat 32 addr, 0, 0, false⟩ : FltEvent) ∈ t.flt.lines

/-- The fabric serves an access of this origin at once: it arrives (R51, R64), no access is held, and the journal queue has room
(R421). -/
def State.serves (s : State) (o : Origin) : Prop := s.reachable o = true ∧ s.jnl.queue.length < 64 ∧ s.heldAcc = []

/-- The admin ring starts a command at once: RUN, the rings strapped (R51), the ring ACTIVE with room in its completion ring, and no other
command taken, held or started, the logic powered (R64, R76, R277, R278). -/
def State.adminReady (s : State) : Prop :=
  s.powered = true ∧ s.ringSt 0 = 1 ∧ s.on SYS_STRAP_HOSTSEL = false ∧ s.running = true ∧ s.on SYS_STATE_PHOK = true ∧ s.takes 0 = true ∧
  s.ring[(0 : Fin 64)].sq = [] ∧ s.ring[(0 : Fin 64)].started = [] ∧ s.hif.held = []

/-- The completion of a descriptor waits on its ring (R271), with its status, qualifier and result. -/
def Completed (t : State) (n : Fin 64) (d : Desc) (status qual result : Nat) : Prop :=
  (⟨BitVec.ofNat 64 result, d.tag, BitVec.ofNat 8 status, BitVec.ofNat 8 qual, BitVec.ofNat 8 d.opc, !d.noirq, false⟩ : Compl) ∈
    t.ring[n].cq

/-- A context command on a resident entry is decided at once (R221, R237): its ring is ACTIVE, not RP0, with room and nothing waiting,
no request of its own that misses, and has the decision slot; outside the safe state and static mode; the context bound, the consumer
in its range and in the table. -/
def State.ctxReady (s : State) (n : Fin 64) (c : Nat) (l : GtLine) : Prop :=
  s.powered = true ∧ n ≠ 0 ∧ s.ringSt n = 1 ∧ s.ring[n].sq = [] ∧ s.takes n = true ∧ s.missOut n = false ∧
  s.mayDecide n = true ∧ s.safeState = false ∧
  s.on (FC_CTX_CFG_BOUND n) = true ∧ s.static = false ∧ c < s.nent ∧ s.inCtx n c = true ∧ s.line? c = some l

end Sys2Proof.Machine
end

