-- ==== Sys2Proof/Footprint.lean ====
section
/-! DEFINITION. The frame of each command: the places it may change, or, for the resets and the wake, which put whole blocks back, the
places they leave as they were. -/

namespace Sys2Proof.Machine

/-- Every place of a family. -/
def fam {n : Nat} (f : Fin n → Place) : List Place := (List.finRange n).map f
/-- The registers of a family. -/
def regs (n : Nat) (f : Nat → Nat) : List Place := (List.range n).map (fun i => .reg (f i))
/-- The HIFn registers, the MSI-X table and the PBA. -/
def hifRegs : List Place := regs 512 (fun i => 0x3000 + 4 * i) ++ regs 258 (fun i => 0x3A00 + 4 * i)

/-! ### What the common operations touch -/

/-- What `State.reloadB4` may touch whatever its operands. -/
def Foot.reloadB4 : List Place := [.aon, .reg MEM_STAT] ++ fam Place.pk ++ regs 2 CHG_STAT ++ regs 2 PK_STAT

/-- What `State.countEntry` may touch whatever its operands. -/
def Foot.countEntry : List Place := [.hif, .out, .reg HIF_LNK, .reg MSIX_PBA_HI, .reg MSIX_PBA_LO]

/-- What a posted message, a held one and the waking of the link touch (R259, R261, R291), with the rises that alerts look at (R308). -/
def Foot.irq : List Place := [.tw 0] ++ Foot.countEntry

/-- What `State.stopPhases` may touch whatever its operands. -/
def Foot.stopPhases : List Place := [.reg (PHP_CMD 0), .reg (PHP_CMD 1), .reg (PHP_STAT 0), .reg (PHP_STAT 1), .reg PH_GSTAT] ++
  fam Place.ph ++ regs 16 PH_STAT

/-- What `State.packFlag` may touch whatever its operands. -/
def Foot.packFlag : List Place := [.flt] ++ Foot.irq

/-- What `State.setRole` may touch whatever its operands. -/
def Foot.setRole : List Place := [.reg CHG_GSTAT, .reg PH_GSTAT] ++ Foot.irq ++ fam Place.ph

/-- What `State.fail` may touch whatever its operands. -/
def Foot.fail : List Place := [.jnl, .reg AUTH_CNT, .reg AUTH_LAST, .reg JNL_EVT, .ring 0] ++ Foot.irq

/-- What `State.abortSounding` may touch whatever its operands. -/
def Foot.abortSounding : List Place := [.jnl, .ring 0] ++ Foot.setRole

/-- What any write through the fabric may touch beside its own register (R12, R420, R421). -/
def Foot.fabric : List Place := [.heldAcc, .jnl, .reg AUTH_CNT, .reg AUTH_LAST, .reg JNL_EVT] ++ Foot.packFlag

/-- What `State.ctxCommand` may touch whatever its operands. -/
def Foot.ctxCommand : List Place := [.fc, .jnl, .reg FC_EVT, .reg FC_STAT, .reg FC_THR] ++ Foot.irq ++ regs 64 FC_CTX_STAT

/-- What `State.applyProfile` may touch whatever its operands. -/
def Foot.applyProfile : List Place := [.jnl, .reg FC_EVT] ++ Foot.setRole ++ fam Place.ring

/-- What `State.budgetDrop` may touch whatever its operands. -/
def Foot.budgetDrop : List Place := [.fc, .reg CHG_GALLOW, .reg FC_EVT, .reg FC_P0, .reg FC_P1, .reg FC_P2, .reg FC_P3, .reg
  FC_STAT] ++ Foot.irq ++ fam Place.chg ++ regs 2 CHG_PWR ++ regs 8 FC_ZONE_STAT

/-- What `State.oclLatch` may touch whatever its operands. -/
def Foot.oclLatch : List Place := [.flt, .phg, .reg PH_GSTAT] ++ Foot.fail ++ fam Place.ph ++ regs 16 PH_STAT ++ regs 2 PHP_CMD ++
  regs 2 PHP_EVT ++ regs 2 PHP_STAT

/-- What `State.stopNext` may touch whatever its operands. -/
def Foot.stopNext : List Place := [.aon, .auth, .fc, .jnl, .mem, .reg AUTH_PRES, .reg JNL_EVT, .reg JNL_LOST, .reg MEM_STAT,
  .reg PK_SHIP, .reg THM_STAT, .sys] ++ Foot.packFlag ++ fam Place.ring ++ regs 2 COUL_STAT

/-- What `State.shareGust` may touch whatever its operands. -/
def Foot.shareGust : List Place := [.reg SYS_BIST, .sys] ++ Foot.abortSounding ++ fam Place.chg ++ fam Place.php ++ regs 16 PH_STAT
  ++ regs 2 CHG_CNT ++ regs 2 CHG_CUR ++ regs 2 CHG_DPWR ++ regs 2 CHG_EVT ++ regs 2 CHG_PWR ++ regs 2 CHG_STAT ++ regs 2
  CHG_TIME ++ regs 2 CHG_ZINFO ++ regs 2 PHP_CMD ++ regs 2 PHP_EVT ++ regs 2 PHP_STAT

/-- What `State.portsOff` may touch whatever its operands. -/
def Foot.portsOff : List Place := Foot.applyProfile ++ fam Place.chg ++ fam Place.php ++ fam Place.pk ++ regs 16 PH_STAT ++ regs 2
  CHG_CNT ++ regs 2 CHG_CUR ++ regs 2 CHG_DPWR ++ regs 2 CHG_EVT ++ regs 2 CHG_PWR ++ regs 2 CHG_STAT ++ regs 2 CHG_TIME ++ regs
  2 CHG_ZINFO ++ regs 2 COUL_STAT ++ regs 2 PHP_CMD ++ regs 2 PHP_EVT ++ regs 2 PHP_STAT ++ regs 2 PK_STAT

/-- What `State.noRef` may touch whatever its operands. -/
def Foot.noRef : List Place := [.auth, .chgg, .flt, .meas, .reg ADC_ORNG0, .reg ADC_ORNG1, .reg AUTH_SEAL, .reg JNL_EVT, .reg
  MEM_WIPE, .reg THM_PKT] ++ Foot.applyProfile ++ Foot.reloadB4 ++ fam Place.chg ++ fam Place.feed

/-- What `State.safeEntry` may touch whatever its operands. -/
def Foot.safeEntry : List Place := [.flt, .reg FC_CNT, .reg FC_GTA_HI, .reg FC_GTA_LO, .reg FC_GTN, .reg FEED_GSTAT, .reg
  FLT_PIN, .reg SYS_BIST, .reg SYS_STATE, .reg THM_STAT, .sys] ++ Foot.portsOff ++ Foot.ctxCommand ++ regs 4 FEED_STAT

/-- What `State.checkWord` may touch whatever its operands. -/
def Foot.checkWord : List Place := [.reg FLT_FATAL, .reg FLT_FATIME, .reg FLT_SELF, .reg FLT_STATUS_HI, .reg FLT_STATUS_LO] ++
  Foot.safeEntry

/-- What `State.disqualify` may touch whatever its operands. -/
def Foot.disqualify : List Place := [.chgg, .phg, .reg FC_THR, .reg FEED_GSTAT, .reg PH_VREF, .reg SYS_BIST] ++ Foot.portsOff ++
  Foot.stopNext ++ Foot.budgetDrop ++ regs 4 FEED_STAT

/-- What `State.collect` may touch whatever its operands. -/
def Foot.collect : List Place := [.reg FLT_FADDR, .reg FLT_FATAL, .reg FLT_FATIME, .reg FLT_FIRST, .reg FLT_FTIME_HI, .reg
  FLT_FTIME_LO, .reg FLT_MULTI, .reg FLT_PEND_HI, .reg FLT_PEND_LO, .reg FLT_STATUS_HI, .reg FLT_STATUS_LO] ++ Foot.safeEntry ++ regs
  16 FLT_CNT

/-- What `State.blank` may touch whatever its operands. -/
def Foot.blank : List Place := [.reg AUTH_CNT, .reg AUTH_LAST] ++ Foot.disqualify ++ fam Place.feed ++ fam Place.tmr ++ regs 16
  PH_EVT ++ regs 2 PK_EVT ++ regs 4 FEED_CNT ++ regs 4 FEED_EVT

/-- What `State.blankBy` may touch whatever its operands. -/
def Foot.blankBy : List Place := Foot.blank ++ fam Place.cmp ++ regs 48 CMP_EVT ++ regs 48 CMP_STAT

/-- What `State.startUp` may touch whatever its operands. -/
def Foot.startUp : List Place := [.auth, .chgg, .fc, .flt, .jnl, .mem, .phg, .reg (twClr 0).off, .reg (twClr 1).off, .reg (twClr
  2).off, .reg (twEvt 0), .reg (twEvt 1), .reg (twEvt 2), .reg (twHeld 0).off, .reg (twHeld 1).off, .reg (twHeld 2).off, .reg
  ADC_REF, .reg AUTH_PRES, .reg AUTH_SEAL, .reg CHG_GALLOW, .reg CHG_GSTAT, .reg FC_CNT, .reg FC_EVT, .reg FC_GTA_HI, .reg
  FC_GTA_LO, .reg FC_GTN, .reg FC_P0, .reg FC_P1, .reg FC_P2, .reg FC_P3, .reg FC_STAT, .reg FC_THR, .reg FEED_GSTAT, .reg
  FLT_FADDR, .reg FLT_FATAL, .reg FLT_FATIME, .reg FLT_FIRST, .reg FLT_FTIME_HI, .reg FLT_FTIME_LO, .reg FLT_MULTI, .reg
  FLT_PEND_HI, .reg FLT_PEND_LO, .reg FLT_PIN, .reg FLT_STATUS_HI, .reg FLT_STATUS_LO, .reg JNL_EVT, .reg JNL_LOST, .reg
  MEM_EVT, .reg MEM_UEADDR, .reg MEM_WIPE, .reg PH_GSTAT, .reg PH_PMAP, .reg PH_VREF, .reg PK_SHIP, .reg SYS_BIST, .reg
  SYS_BOOT, .reg SYS_FEEDCHK, .reg SYS_ID, .reg SYS_LC, .reg SYS_PROBE, .reg SYS_STATE, .reg SYS_STRAP, .reg THM_STAT, .reg
  TW_M_STAT, .sys] ++ Foot.reloadB4 ++ Foot.countEntry ++ fam Place.chg ++ fam Place.cmp ++ fam Place.feed ++ fam Place.ph ++ fam
  Place.php ++ fam Place.ring ++ fam Place.tw ++ hifRegs ++ regs 16 FLT_CNT ++ regs 16 PH_CFG ++ regs 16 PH_STAT ++ regs 2
  ADC_STAT ++ regs 2 CHG_CNT ++ regs 2 CHG_CUR ++ regs 2 CHG_DPWR ++ regs 2 CHG_EVT ++ regs 2 CHG_PWR ++ regs 2 CHG_TIME ++ regs
  2 CHG_ZINFO ++ regs 2 COUL_OFS ++ regs 2 COUL_STAT ++ regs 2 PHP_CMD ++ regs 2 PHP_EVT ++ regs 2 PHP_STAT ++ regs 2 PK_AGE ++
  regs 2 PK_CTR ++ regs 2 PK_EFC ++ regs 2 PK_EVT ++ regs 2 PK_FCC ++ regs 2 PK_QOUT ++ regs 2 PK_Q_HI ++ regs 2 PK_Q_LO ++ regs
  2 PK_TPK ++ regs 2 TW_PK_STAT ++ regs 4 (PK_ID 0) ++ regs 4 (PK_ID 1) ++ regs 4 FEED_EFF ++ regs 4 FEED_STAT ++ regs 48
  CMP_STAT ++ regs 5 MEM_CNT ++ regs 5 MEM_REP ++ regs 64 FC_CTX_STAT ++ regs 64 HIF_STAT ++ regs 8 FC_ZONE_STAT

/-- What a device reset does beyond putting the registers back (R64, R71, R72). -/
def Foot.reset : List Place := [.aon, .auth, .fc, .freeCtr, .jnl, .phg, .reg (MEM_REP 3), .reg AUTH_PRES, .reg FC_THR, .reg
  FEED_GSTAT, .reg FLT_PIN, .reg JNL_EVT, .reg JNL_LOST, .reg PH_VREF, .reg SYS_RST, .reg SYS_STATE, .sys] ++ Foot.packFlag ++
  fam Place.chg ++ fam Place.feed ++ fam Place.ph ++ fam Place.pk ++ regs 16 PH_LRN ++ regs 2 CHG_STAT ++ regs 2 PK_Q_HI ++ regs
  2 PK_Q_LO ++ regs 4 FEED_EFF ++ regs 4 FEED_STAT ++ regs 48 CMP_STAT

/-- What storing a register by its offset may set off in its block. -/
def Foot.wrote (off : Nat) : List Place :=
  if off < 0x0800 then if off = SYS_LC then [.jnl, .reg AUTH_CNT, .reg AUTH_LAST, .reg JNL_EVT, .reg MEM_WIPE, .reg SYS_LC, .sys]
    ++ Foot.irq ++ Foot.reloadB4 ++ fam Place.chg else []
  else if off < 0x1000 then [.reg FLT_FIRST, .reg FLT_PEND_HI, .reg FLT_PEND_LO] ++ Foot.checkWord
  else if off < 0x2000 then if off = AUTH_PRES then [.auth] else if off = JNL_RDIDX then regs 8 JNL_WIN else []
  else if off < 0x3000 then Foot.blankBy ++ fam Place.adc ++ regs 2 ADC_CNT ++ regs 2 ADC_EVT ++ regs 4 (TMR_CCR 0) ++ regs 4
    (TMR_CCR 1) ++ regs 4 (TMR_CCR 2) ++ regs 4 (TMR_CCR 3) ++ regs 4 (TMR_CCR 4) ++ regs 4 (TMR_CCR 5) ++ regs 4 (TMR_CCR 6) ++
    regs 4 (TMR_CCR 7) ++ regs 8 TMR_CNT ++ regs 8 TMR_EVT
  else if off < 0x4000 then [.fc] ++ Foot.countEntry ++ fam Place.ring ++ regs 64 HIF_CQP ++ regs 64 HIF_STAT
  else if off < 0x5000 then Foot.blankBy
  else if off < 0x6000 then [.jnl, .phg, .reg (CHG_STAT 0), .reg (CHG_STAT 1), .reg (PHP_CMD 0), .reg (PHP_CMD 1), .reg (PHP_STAT
    0), .reg (PHP_STAT 1), .reg PH_GSTAT, .reg PH_VREF, .ring 0] ++ Foot.irq ++ regs 2 PHP_EVT
  else if off < 0x6400 then [.reg CHG_PLOAD] ++ Foot.blankBy ++ regs 2 PK_FCC
  else if off < 0x7000 then Foot.blankBy
  else if off < 0x8000 then .fc :: regs 8 FC_ZONE_HT
  else if off < 0x9000 then fam Place.adc ++ regs 2 ADC_STAT
  else if off < 0xA000 then Foot.blankBy
  else [.reg (twClr 0).off, .reg (twClr 1).off, .reg (twClr 2).off, .reg TW_M_STAT] ++ fam Place.tw ++ regs 2 TW_PK_STAT

/-- What a write of a register through the fabric may touch; DEVRST resets the device and has a frame of its own. -/
def Foot.write (off : Nat) : Option (List Place) :=
  let off := off / 4 * 4
  if off = SYS_RST then none else some (.reg off :: Foot.fabric ++ Foot.wrote off)

/-- What the journal writer may touch as it stores a record (R425). -/
def Foot.record : List Place := [.jnl, .reg JNL_EVT, .reg JNL_LOST] ++ Foot.packFlag

/-- What serving the accesses held may touch (R304, R421). -/
def Foot.held (s : State) : Option (List Place) :=
  (s.heldAcc.mapM (fun h => Foot.write h.off)).map (fun l => Foot.record ++ l.flatten)

/-- The words with a field that clears on a read (R9). -/
def Foot.cleared : List Place :=
  regTable.flatMap (fun r => if r.accMask .rc = 0 then [] else
    (List.range r.n1).flatMap (fun i => regs r.n2 (fun j => r.base + r.s1 * i + r.s2 * j)))

/-- What M’s own registers and its bus may show of a transaction. -/
def Foot.target : List Place := [.reg (TW_PK_STAT (twPack 0)), .reg TW_M_CNT, .reg TW_M_EVT, .reg TW_M_STAT] ++ Foot.irq

end Sys2Proof.Machine

namespace Sys2Proof
open Sys2Proof.Machine

/-- What each command of the feed paths and the phase engine may change. -/
def Instr.powerPlaces : Instr → Option (List Place)
  | .feedPresent n => some ([.feed n, .reg (FEED_STAT n.val)] ++ fam Place.cmp)
  | .feedCheckDone n _ => some ([.feed n, .reg (FEED_EFF n.val), .reg SYS_FEEDCHK] ++ Foot.disqualify)
  | .feedAbsent n => some ([.feed n] ++ Foot.disqualify ++ fam Place.cmp)
  | .feedUv n _ => some ([.feed n, .reg (CMP_EVT (16 + n.val)), .reg (CMP_STAT (16 + n.val)), .reg (FEED_CNT n.val), .reg
      (FEED_EVT n.val)] ++ Foot.disqualify ++ fam Place.cmp)
  | .feedOv n _ => some ([.feed n, .reg (CMP_EVT (16 + n.val)), .reg (CMP_STAT (16 + n.val)), .reg (FEED_EVT n.val)] ++
      Foot.disqualify ++ fam Place.cmp)
  | .feedWindowEnter n => some ([.cmp (⟨16 + n.val, by omega⟩), .feed n, .reg (CMP_STAT (16 + n.val))] ++ regs 48 CMP_STAT)
  | .feedQualified n => some ([.feed n, .reg (FEED_EFF n.val)] ++ Foot.disqualify)
  | .inrushStart n => some ([.feed n] ++ Foot.disqualify)
  | .inrushComplete n => some ([.feed n] ++ Foot.disqualify)
  | .inrushTimeout n => some ([.feed n, .reg (FEED_CNT n.val), .reg (FEED_EVT n.val)] ++ Foot.disqualify)
  | .feedModelUpdate n => some ([.feed n, .reg (FEED_CNT n.val), .reg (FEED_EVT n.val)] ++ Foot.disqualify)
  | .feedShortCircuit n _ => some ([.feed n, .reg (CMP_EVT (20 + n.val)), .reg (CMP_STAT (20 + n.val)), .reg (FEED_CNT n.val),
      .reg (FEED_EVT n.val)] ++ Foot.disqualify ++ fam Place.cmp)
  | .feedScHoldoffEnd n => some ([.feed n, .reg (FEED_STAT n.val)])
  | .feedReverseCurrent n _ => some ([.feed n, .reg (CMP_EVT (20 + n.val)), .reg (CMP_STAT (20 + n.val)), .reg (FEED_CNT n.val),
      .reg (FEED_EVT n.val), .reg FEED_GSTAT] ++ Foot.irq ++ fam Place.cmp ++ regs 4 FEED_STAT)
  | .oringReenable n => some ([.cmp (⟨20 + n.val, by omega⟩), .reg (CMP_STAT (20 + n.val)), .reg (FEED_STAT n.val)] ++ regs 48
      CMP_STAT)
  | .droopUpdate n => some ([.feed n, .reg (FEED_EFF n.val), .reg (FEED_EVT n.val), .reg (FEED_MEAS n.val), .reg FEED_GSTAT] ++
      Foot.irq ++ regs 4 FEED_STAT)
  | .nearAssert n => some ([.feed n] ++ fam Place.chg)
  | .nearRelease => some (fam Place.feed)
  | .feedHealthExpire n => some ([.feed n, .reg FEED_GSTAT] ++ regs 4 FEED_STAT)
  | .feedTripCountClear n => some ([.feed n, .reg (FEED_STAT n.val)])
  | .feedGroupChange => some ([.reg FEED_GSTAT] ++ regs 4 FEED_STAT)
  | .ejectAssert => some ([.reg FC_THR, .reg FEED_GSTAT] ++ Foot.portsOff ++ Foot.stopNext)
  | .ejectDeassert => some ([.reg (CHG_STAT 0), .reg (CHG_STAT 1), .reg FEED_GSTAT] ++ fam Place.feed)
  | .ejectFeedOff => some (Foot.disqualify ++ fam Place.feed)
  | .extractHoldExpire => some ([.reg FC_THR, .reg FEED_GSTAT] ++ Foot.portsOff ++ Foot.stopNext)
  | .pwmCycleStart n => some ([.reg (PH_LRN n.val), .reg PH_GSTAT] ++ fam Place.ph ++ fam Place.php ++ fam Place.tmr ++ regs 2
      PHP_CMD ++ regs 2 PHP_STAT)
  | .tripWireEvent n _ _ _ _ => some ([.reg (CMP_EVT 28), .reg (CMP_EVT n.val), .reg (CMP_STAT 28), .reg (CMP_STAT n.val), .reg
      (PH_CNT n.val), .reg (PH_EVT n.val), .reg (PH_MEAS n.val)] ++ Foot.oclLatch ++ fam Place.cmp ++ regs 2 PHP_CNT)
  | .maxDutyEnd n => some ([.ph n, .reg (PH_CNT n.val), .reg (PH_MEAS n.val), .reg (PH_STAT n.val)])
  | .hardSwitchReport n _ _ => some ([.ph n, .reg (CMP_EVT (29 + n.val)), .reg (CMP_STAT (29 + n.val))] ++ Foot.irq ++ fam
      Place.cmp)
  | .modeEvaluate k => some ([.phg, .php k, .reg (PHP_EVT k.val), .reg (PHP_STAT k.val)] ++ Foot.irq)
  | .directionChange k _ => some ([.php k, .reg (PHP_CMD k.val), .reg (PHP_EVT k.val), .reg (PHP_STAT k.val), .reg PH_GSTAT] ++
      Foot.irq ++ fam Place.ph)
  | .inductanceLearn n => some ([.ph n, .reg (PH_EVT n.val), .reg (PH_LRN n.val)] ++ Foot.irq)
  | .deadtimeAdapt n => some ([.ph n, .reg (PH_DT n.val), .reg (PH_EVT n.val)] ++ Foot.irq)
  | .tripMismatch n _ => some ([.chgg, .reg (PH_EVT n.val), .reg CHG_GSTAT, .reg SYS_BIST, .sys] ++ Foot.oclLatch ++
      Foot.budgetDrop ++ fam Place.php ++ regs 2 CHG_CUR ++ regs 2 CHG_DPWR)
  | .phaseAdd k => some ([.php k, .reg (CHG_STAT k.val), .reg (PHP_CMD k.val), .reg (PHP_CNT k.val), .reg (PHP_EVT k.val), .reg
      (PHP_STAT k.val), .reg PH_GSTAT] ++ Foot.irq ++ fam Place.ph ++ regs 16 PH_STAT)
  | .phaseShed k => some ([.php k, .reg (CHG_STAT k.val), .reg (PHP_CMD k.val), .reg (PHP_CNT k.val), .reg (PHP_STAT k.val), .reg
      PH_GSTAT] ++ fam Place.ph ++ regs 16 PH_STAT)
  | .phaseWakeDone n => some ([.ph n, .reg (PH_STAT n.val), .reg PH_GSTAT] ++ fam Place.php ++ regs 2 CHG_STAT ++ regs 2 PHP_CMD
      ++ regs 2 PHP_STAT)
  | .phaseShedDone _ => some ([.phg, .reg PH_GSTAT] ++ Foot.fail ++ fam Place.ph ++ fam Place.php ++ regs 16 PH_STAT ++ regs 2
      CHG_STAT ++ regs 2 PHP_CMD ++ regs 2 PHP_EVT ++ regs 2 PHP_STAT)
  | .slowOverload n => some ([.reg (PH_CNT n.val), .reg (PH_EVT n.val)] ++ Foot.oclLatch)
  | .oclCoolEnd n => some ([.ph n, .reg (PHP_CMD 0), .reg (PHP_CMD 1), .reg (PHP_STAT 0), .reg (PHP_STAT 1), .reg (PH_STAT n.val),
      .reg PH_GSTAT])
  | .phaseLoss n _ _ => some ([.chgg, .reg (CMP_EVT (29 + n.val)), .reg (CMP_STAT (29 + n.val)), .reg (PH_EVT n.val), .reg
      CHG_GSTAT, .reg SYS_BIST, .sys] ++ Foot.oclLatch ++ Foot.budgetDrop ++ fam Place.cmp ++ fam Place.php ++ regs 2 CHG_CUR ++
      regs 2 CHG_DPWR)
  | .legProbe n _ _ => some ([.flt, .reg (PH_STAT n.val), .reg SYS_PROBE] ++ Foot.applyProfile ++ fam Place.chg ++ fam Place.php
      ++ fam Place.pk ++ regs 2 CHG_CNT ++ regs 2 CHG_CUR ++ regs 2 CHG_DPWR ++ regs 2 CHG_EVT ++ regs 2 CHG_PWR ++ regs 2
      CHG_STAT ++ regs 2 CHG_TIME ++ regs 2 CHG_ZINFO ++ regs 2 COUL_STAT ++ regs 2 PHP_CMD ++ regs 2 PHP_EVT ++ regs 2 PHP_STAT
      ++ regs 2 PK_STAT)
  | .syncLost => some ([.phg, .reg PH_GSTAT] ++ Foot.packFlag)
  | .syncRelock => some ([.phg, .reg PH_GSTAT])
  | .phaseMapDrainDone => some ([.phg, .reg PH_PMAP] ++ Foot.fail ++ Foot.stopPhases ++ regs 16 PH_CFG)
  | .vholdRefUpdate => some ([.hif, .jnl, .phg, .reg PH_VREF, .ring 0])
  | .busovUpdate => some ([.phg])
  | _ => none

/-- What each command of the charger, hold-up, Gust and the packs may change. -/
def Instr.chargePlaces : Instr → Option (List Place)
  | .feedLimitUpdate => some ([.chgg] ++ Foot.shareGust)
  | .chargeCommandUpdate => some (Foot.abortSounding ++ fam Place.chg ++ fam Place.php ++ regs 2 CHG_CNT ++ regs 2 CHG_CUR ++ regs
      2 CHG_DPWR ++ regs 2 CHG_EVT ++ regs 2 CHG_PWR ++ regs 2 CHG_STAT ++ regs 2 CHG_TIME ++ regs 2 CHG_ZINFO ++ regs 2 PHP_CMD
      ++ regs 2 PHP_EVT ++ regs 2 PHP_STAT)
  | .chargeLoopUpdate k => some ([.chg k, .php k, .reg (CHG_CNT k.val), .reg (CHG_CUR k.val), .reg (CHG_DPWR k.val), .reg (CHG_EVT
      k.val), .reg (CHG_PWR k.val), .reg (CHG_STAT k.val), .reg (CHG_TIME k.val), .reg (CHG_ZINFO k.val), .reg (PHP_CMD k.val),
      .reg (PHP_EVT k.val), .reg (PHP_STAT k.val)] ++ Foot.abortSounding)
  | .chgQualifyEnd k => some ([.chg k, .php k, .pk k, .reg (CHG_CNT k.val), .reg (CHG_CUR k.val), .reg (CHG_DPWR k.val), .reg
      (CHG_EVT k.val), .reg (CHG_PWR k.val), .reg (CHG_STAT k.val), .reg (CHG_TIME k.val), .reg (CHG_ZINFO k.val), .reg
      (COUL_STAT k.val), .reg (PHP_CMD k.val), .reg (PHP_EVT k.val), .reg (PHP_STAT k.val), .reg (PK_STAT k.val)] ++
      Foot.abortSounding)
  | .chgPrechargeExit k => some ([.chg k, .php k, .pk k, .reg (CHG_CNT k.val), .reg (CHG_CUR k.val), .reg (CHG_DPWR k.val), .reg
      (CHG_EVT k.val), .reg (CHG_PWR k.val), .reg (CHG_STAT k.val), .reg (CHG_TIME k.val), .reg (CHG_ZINFO k.val), .reg
      (COUL_STAT k.val), .reg (PHP_CMD k.val), .reg (PHP_EVT k.val), .reg (PHP_STAT k.val), .reg (PK_STAT k.val)] ++
      Foot.abortSounding)
  | .chgStageTimeout k => some ([.chg k, .flt, .php k, .pk k, .reg (CHG_CNT k.val), .reg (CHG_CUR k.val), .reg (CHG_DPWR k.val),
      .reg (CHG_EVT k.val), .reg (CHG_PWR k.val), .reg (CHG_STAT k.val), .reg (CHG_TIME k.val), .reg (CHG_ZINFO k.val), .reg
      (PHP_CMD k.val), .reg (PHP_EVT k.val), .reg (PHP_STAT k.val), .reg (PK_FCC k.val), .reg (PK_STAT k.val)] ++
      Foot.applyProfile)
  | .chgDwellExpire k => some ([.chg k, .php k, .pk k, .reg (CHG_CNT k.val), .reg (CHG_CUR k.val), .reg (CHG_DPWR k.val), .reg
      (CHG_EVT k.val), .reg (CHG_PWR k.val), .reg (CHG_STAT k.val), .reg (CHG_TIME k.val), .reg (CHG_ZINFO k.val), .reg (PHP_CMD
      k.val), .reg (PHP_EVT k.val), .reg (PHP_STAT k.val), .reg (PK_FCC k.val), .reg (PK_STAT k.val)] ++ Foot.applyProfile)
  | .chgTempOut k => some ([.chg k, .php k, .reg (CHG_CNT k.val), .reg (CHG_CUR k.val), .reg (CHG_DPWR k.val), .reg (CHG_EVT
      k.val), .reg (CHG_PWR k.val), .reg (CHG_STAT k.val), .reg (CHG_TIME k.val), .reg (CHG_ZINFO k.val), .reg (PHP_CMD k.val),
      .reg (PHP_EVT k.val), .reg (PHP_STAT k.val)] ++ Foot.abortSounding)
  | .chgRestEnd k => some ([.chg k, .php k, .reg (CHG_CNT k.val), .reg (CHG_CUR k.val), .reg (CHG_DPWR k.val), .reg (CHG_EVT
      k.val), .reg (CHG_PWR k.val), .reg (CHG_STAT k.val), .reg (CHG_TIME k.val), .reg (CHG_ZINFO k.val), .reg (PHP_CMD k.val),
      .reg (PHP_EVT k.val), .reg (PHP_STAT k.val)] ++ Foot.abortSounding)
  | .crestUpdate => some ([.freeCtr] ++ Foot.abortSounding ++ fam Place.chg ++ fam Place.php ++ regs 2 CHG_CNT ++ regs 2 CHG_CUR
      ++ regs 2 CHG_DPWR ++ regs 2 CHG_EVT ++ regs 2 CHG_PWR ++ regs 2 CHG_STAT ++ regs 2 CHG_TIME ++ regs 2 CHG_ZINFO ++ regs 2
      PHP_CMD ++ regs 2 PHP_EVT ++ regs 2 PHP_STAT)
  | .chgStarve k => some ([.reg (CHG_EVT k.val)] ++ Foot.irq)
  | .profileReadDone k _ => some ([.chg k, .php k, .pk k, .reg (CHG_CNT k.val), .reg (CHG_CUR k.val), .reg (CHG_DPWR k.val), .reg
      (CHG_EVT k.val), .reg (CHG_PWR k.val), .reg (CHG_STAT k.val), .reg (CHG_TIME k.val), .reg (CHG_ZINFO k.val), .reg (PHP_CMD
      k.val), .reg (PHP_EVT k.val), .reg (PHP_STAT k.val), .reg (PK_FCC k.val), .reg (PK_STAT k.val), .reg AUTH_CNT, .reg
      AUTH_LAST, .reg JNL_EVT] ++ Foot.applyProfile)
  | .soundingWindowEnd k => some ([.chg k, .freeCtr, .php k, .reg (CHG_CNT k.val), .reg (CHG_CUR k.val), .reg (CHG_DPWR k.val),
      .reg (CHG_EVT k.val), .reg (CHG_PWR k.val), .reg (CHG_STAT k.val), .reg (CHG_TIME k.val), .reg (CHG_ZFREQ k.val), .reg
      (CHG_ZIM k.val), .reg (CHG_ZINFO k.val), .reg (CHG_ZRE k.val), .reg (PHP_CMD k.val), .reg (PHP_EVT k.val), .reg (PHP_STAT
      k.val)] ++ Foot.abortSounding)
  | .holdupLoopUpdate => some ([.chgg, .reg (CHG_CNT 0), .reg (CHG_CNT 1), .reg (CHG_CUR 0), .reg (CHG_CUR 1), .reg (CHG_EVT 0),
      .reg (CHG_EVT 1), .reg (CHG_PWR 0), .reg (CHG_PWR 1), .reg (CHG_STAT 0), .reg (CHG_STAT 1), .reg (CHG_TIME 0), .reg
      (CHG_TIME 1), .reg (CHG_ZINFO 0), .reg (CHG_ZINFO 1), .reg (PHP_EVT 0), .reg (PHP_EVT 1)] ++ Foot.applyProfile ++ fam
      Place.chg ++ fam Place.php ++ regs 2 CHG_DPWR ++ regs 2 PHP_CMD ++ regs 2 PHP_STAT)
  | .hulowAssert => some ([.chgg, .reg CHG_GSTAT, .reg FC_THR] ++ Foot.irq ++ regs 2 CHG_EVT)
  | .hulowRelease => some ([.chgg, .reg CHG_GSTAT, .reg FC_THR] ++ Foot.irq)
  | .holdupCut k => some ([.chg k, .php k, .pk k, .reg (CHG_CNT k.val), .reg (CHG_CUR k.val), .reg (CHG_DPWR k.val), .reg (CHG_EVT
      k.val), .reg (CHG_PWR k.val), .reg (CHG_STAT k.val), .reg (CHG_TIME k.val), .reg (CHG_ZINFO k.val), .reg (PHP_CMD k.val),
      .reg (PHP_EVT k.val), .reg (PHP_STAT k.val), .reg (PK_FCC k.val), .reg (PK_STAT k.val)] ++ Foot.applyProfile)
  | .holdupEndStop => some ([.reg FC_THR, .reg FEED_GSTAT] ++ Foot.portsOff ++ Foot.stopNext)
  | .gustHoldEnd k => some ([.chg k, .php k, .reg (CHG_CNT k.val), .reg (CHG_CUR k.val), .reg (CHG_DPWR k.val), .reg (CHG_EVT
      k.val), .reg (CHG_PWR k.val), .reg (CHG_STAT k.val), .reg (CHG_TIME k.val), .reg (CHG_ZINFO k.val), .reg (PHP_CMD k.val),
      .reg (PHP_EVT k.val), .reg (PHP_STAT k.val)] ++ Foot.abortSounding)
  | .packInserted k => some ([.aon, .chg k, .php k, .pk k, .reg (CHG_CNT k.val), .reg (CHG_CUR k.val), .reg (CHG_DPWR k.val), .reg
      (CHG_EVT k.val), .reg (CHG_PWR k.val), .reg (CHG_STAT k.val), .reg (CHG_TIME k.val), .reg (CHG_ZINFO k.val), .reg (PHP_CMD
      k.val), .reg (PHP_EVT k.val), .reg (PHP_STAT k.val), .reg (PK_STAT k.val), .tw (⟨k.val + 1, by omega⟩)] ++
      Foot.abortSounding)
  | .packRemoved k => some ([.chg k, .php k, .pk k, .reg (CHG_CNT k.val), .reg (CHG_CUR k.val), .reg (CHG_DPWR k.val), .reg
      (CHG_EVT k.val), .reg (CHG_PWR k.val), .reg (CHG_STAT k.val), .reg (CHG_TIME k.val), .reg (CHG_ZINFO k.val), .reg
      (COUL_STAT k.val), .reg (PHP_CMD k.val), .reg (PHP_EVT k.val), .reg (PHP_STAT k.val), .reg (PK_AGE k.val), .reg (PK_CTR
      k.val), .reg (PK_EFC k.val), .reg (PK_EVT k.val), .reg (PK_FCC k.val), .reg (PK_I k.val), .reg (PK_ID k.val 0), .reg
      (PK_ID k.val 1), .reg (PK_ID k.val 2), .reg (PK_ID k.val 3), .reg (PK_QOUT k.val), .reg (PK_Q_HI k.val), .reg (PK_Q_LO
      k.val), .reg (PK_STAT k.val), .reg (PK_TPK k.val), .reg (TW_PK_CTL k.val), .reg (TW_PK_STAT k.val), .ring 0, .tw (⟨k.val +
      1, by omega⟩)] ++ Foot.stopNext ++ Foot.applyProfile ++ hifRegs)
  | .packIdentDone k _ => some ([.aon, .chg k, .jnl, .pk k, .reg (CHG_STAT k.val), .reg (PK_AGE k.val), .reg (PK_CTR k.val), .reg
      (PK_EFC k.val), .reg (PK_EVT k.val), .reg (PK_FCC k.val), .reg (PK_QOUT k.val), .reg (PK_STAT k.val), .reg (PK_TPK k.val),
      .reg FC_EVT] ++ Foot.packFlag ++ fam Place.ring ++ regs 4 (PK_ID k.val))
  | .packCloseStart k => some ([.pk k, .reg (CHG_STAT k.val), .reg (COUL_STAT k.val), .reg (PK_EVT k.val), .reg (PK_STAT k.val)]
      ++ Foot.irq)
  | .packCloseDone k => some ([.pk k, .reg (CHG_STAT k.val), .reg (COUL_STAT k.val), .reg (PK_STAT k.val)])
  | .packCloseTimeout k => some ([.pk k, .reg (CHG_STAT k.val), .reg (COUL_STAT k.val), .reg (PK_EVT k.val), .reg (PK_STAT k.val)]
      ++ Foot.packFlag)
  | .packDsgReclose k => some ([.pk k, .reg (CHG_STAT k.val), .reg (COUL_STAT k.val), .reg (PK_STAT k.val)])
  | .packShortCircuit k _ => some ([.chg k, .flt, .php k, .pk k, .reg (CHG_CNT k.val), .reg (CHG_CUR k.val), .reg (CHG_DPWR
      k.val), .reg (CHG_EVT k.val), .reg (CHG_PWR k.val), .reg (CHG_STAT k.val), .reg (CHG_TIME k.val), .reg (CHG_ZINFO k.val),
      .reg (CMP_EVT (24 + k.val)), .reg (CMP_STAT (24 + k.val)), .reg (COUL_STAT k.val), .reg (PHP_CMD k.val), .reg (PHP_EVT
      k.val), .reg (PHP_STAT k.val), .reg (PK_EVT k.val), .reg (PK_STAT k.val)] ++ Foot.applyProfile ++ fam Place.cmp)
  | .packChargeOvercurrent k _ => some ([.chg k, .pk k, .reg (CHG_STAT k.val), .reg (CMP_EVT (24 + k.val)), .reg (CMP_STAT (24 +
      k.val)), .reg (COUL_STAT k.val), .reg (PK_EVT k.val), .reg (PK_STAT k.val)] ++ Foot.packFlag ++ fam Place.cmp)
  | .packOv k _ => some ([.chg k, .pk k, .reg (CHG_STAT k.val), .reg (CMP_EVT (26 + k.val)), .reg (CMP_STAT (26 + k.val)), .reg
      (COUL_STAT k.val), .reg (PK_EVT k.val), .reg (PK_STAT k.val)] ++ Foot.packFlag ++ fam Place.cmp)
  | .packUv k _ => some ([.chg k, .flt, .php k, .pk k, .reg (CHG_CNT k.val), .reg (CHG_CUR k.val), .reg (CHG_DPWR k.val), .reg
      (CHG_EVT k.val), .reg (CHG_PWR k.val), .reg (CHG_STAT k.val), .reg (CHG_TIME k.val), .reg (CHG_ZINFO k.val), .reg (CMP_EVT
      (26 + k.val)), .reg (CMP_STAT (26 + k.val)), .reg (COUL_STAT k.val), .reg (PHP_CMD k.val), .reg (PHP_EVT k.val), .reg
      (PHP_STAT k.val), .reg (PK_EVT k.val), .reg (PK_STAT k.val)] ++ Foot.applyProfile ++ fam Place.cmp)
  | .packOvertemp k => some ([.chg k, .flt, .php k, .pk k, .reg (CHG_CNT k.val), .reg (CHG_CUR k.val), .reg (CHG_DPWR k.val), .reg
      (CHG_EVT k.val), .reg (CHG_PWR k.val), .reg (CHG_STAT k.val), .reg (CHG_TIME k.val), .reg (CHG_ZINFO k.val), .reg
      (COUL_STAT k.val), .reg (PHP_CMD k.val), .reg (PHP_EVT k.val), .reg (PHP_STAT k.val), .reg (PK_EVT k.val), .reg (PK_STAT
      k.val)] ++ Foot.applyProfile)
  | .packTripRetry k _ => some ([.pk k, .reg (CHG_STAT k.val), .reg (COUL_STAT k.val), .reg (PK_EVT k.val), .reg (PK_STAT k.val)]
      ++ Foot.irq)
  | .coulombSample k _ => some ([.chg k, .cmp (⟨24 + k.val, by omega⟩), .pk k, .reg (CHG_EVT k.val), .reg (CHG_STAT k.val), .reg
      (COUL_RAW k.val), .reg (COUL_STAT k.val), .reg (PK_EFC k.val), .reg (PK_I k.val), .reg (PK_QOUT k.val), .reg (PK_Q_HI
      k.val), .reg (PK_Q_LO k.val), .reg (PK_STAT k.val), .reg (PK_TPK k.val)] ++ Foot.irq ++ regs 48 CMP_STAT)
  | .coulombOffsetStart k => some ([.pk k, .reg (COUL_STAT k.val)])
  | .coulombOffsetDone k => some ([.pk k, .reg (COUL_OFS k.val), .reg (COUL_STAT k.val)])
  | .authRunStart k => some ([.pk k, .reg (CHG_STAT k.val), .reg (PK_STAT k.val)])
  | .authRunDone k _ => some ([.aon, .chg k, .jnl, .pk k, .reg (CHG_STAT k.val), .reg (PK_EVT k.val), .reg (PK_STAT k.val), .ring
      0] ++ Foot.irq)
  | .keyReadDone _ => some ([.aon, .reg MEM_STAT] ++ Foot.fail)
  | .lifeWriteback k _ => some ([.pk k, .reg (PK_EVT k.val)] ++ Foot.stopNext)
  | .aonTick _ _ _ _ => some ([.aon, .chg 0, .chg 1, .jnl, .pk 0, .pk 1, .reg (CHG_STAT 0), .reg (CHG_STAT 1), .reg (PK_AGE 0),
      .reg (PK_AGE 1), .reg (PK_STAT 0), .reg (PK_STAT 1), .reg (PK_TPK 0), .reg (PK_TPK 1), .reg CMP_SENT, .reg FC_EVT] ++
      Foot.irq ++ fam Place.ring)
  | .b4WipeDone => some ([.jnl, .reg MEM_EVT, .reg MEM_WIPE] ++ Foot.irq ++ Foot.reloadB4)
  | _ => none

/-- What each command of the Forecast and the host rings may change. -/
def Instr.hostPlaces : Instr → Option (List Place)
  | .selftestOnline _ => some ([.reg SYS_BIST, .sys] ++ Foot.fail ++ Foot.stopPhases)
  | .selftestOffline _ => some ([.reg SYS_BIST, .sys] ++ Foot.fail ++ Foot.stopPhases)
  | .phaseMap _ => some ([.phg, .reg PH_PMAP] ++ Foot.fail ++ Foot.stopPhases ++ regs 16 PH_CFG)
  | .setVtarget _ => some ([.phg, .reg PH_VHOLD, .reg PH_VREF] ++ Foot.fail)
  | .setProfile d => some ([.chg (d.withOpc 3).profPort] ++ Foot.fail)
  | .sounding d => some ([.chg (d.withOpc 11).sndPort, .php (d.withOpc 11).sndPort, .reg (CHG_CNT (d.withOpc 11).sndPort.val),
      .reg (CHG_CUR (d.withOpc 11).sndPort.val), .reg (CHG_DPWR (d.withOpc 11).sndPort.val), .reg (CHG_EVT (d.withOpc
      11).sndPort.val), .reg (CHG_PWR (d.withOpc 11).sndPort.val), .reg (CHG_STAT (d.withOpc 11).sndPort.val), .reg (CHG_TIME
      (d.withOpc 11).sndPort.val), .reg (CHG_ZINFO (d.withOpc 11).sndPort.val), .reg (PHP_CMD (d.withOpc 11).sndPort.val), .reg
      (PHP_EVT (d.withOpc 11).sndPort.val), .reg (PHP_STAT (d.withOpc 11).sndPort.val)] ++ Foot.fail ++ Foot.abortSounding)
  | .packAuthenticate _ => some (Foot.fail ++ Foot.reloadB4)
  | .loadKey _ => some (Foot.fail ++ Foot.reloadB4)
  | .voidKey _ => some (Foot.fail ++ Foot.reloadB4)
  | .forecastSnapshot => some ([.reg FC_RATE, .reg FC_THR] ++ Foot.budgetDrop ++ fam Place.ring ++ regs 64 FC_CTX_STAT ++ regs 8
      FC_ZONE_HT)
  | .grantRequest n _ => some ([.ring n] ++ Foot.ctxCommand)
  | .grantRelease n _ => some ([.ring n] ++ Foot.ctxCommand)
  | .grantExtend n _ => some ([.ring n] ++ Foot.ctxCommand)
  | .accountRead n _ => some ([.ring n] ++ Foot.ctxCommand)
  | .cacheFillDone _ _ _ => some ([.reg (MEM_CNT 1), .reg MEM_EVT] ++ Foot.ctxCommand ++ fam Place.ring)
  | .accountWriteback _ _ _ => some ([.fc, .reg (MEM_CNT 1), .reg FC_EVT, .reg MEM_EVT] ++ Foot.irq)
  | .grantExpire _ => some ([.fc, .reg FC_STAT] ++ fam Place.ring ++ regs 64 FC_CTX_STAT)
  | .revokeDeadline _ => some ([.reg FC_CNT] ++ Foot.ctxCommand ++ fam Place.ring)
  | .throttleRelease _ => some ([.fc, .reg FC_THR] ++ Foot.irq)
  | .zoneHostStale z => some ([.reg (FC_ZONE_HT z.val), .reg (FC_ZONE_STAT z.val), .reg FC_EVT] ++ Foot.irq)
  | .bindContext d => some ([.fc, .reg (FC_CTX_CAP ((d.withOpc 9).withByte8 0x40 0).ctx.val), .reg (FC_CTX_CFG ((d.withOpc
      9).withByte8 0x40 0).ctx.val), .reg (FC_CTX_CIDBASE ((d.withOpc 9).withByte8 0x40 0).ctx.val), .reg (FC_CTX_CIDCNT
      ((d.withOpc 9).withByte8 0x40 0).ctx.val), .reg FC_STAT] ++ Foot.fail ++ regs 64 FC_CTX_STAT)
  | .unbindContext d => some ([.fc, .reg (FC_CTX_CAP ((d.withOpc 9).withByte8 0x40 0x40).ctx.val), .reg (FC_CTX_CFG ((d.withOpc
      9).withByte8 0x40 0x40).ctx.val), .reg (FC_CTX_CIDBASE ((d.withOpc 9).withByte8 0x40 0x40).ctx.val), .reg (FC_CTX_CIDCNT
      ((d.withOpc 9).withByte8 0x40 0x40).ctx.val), .reg FC_STAT] ++ Foot.fail ++ regs 64 FC_CTX_STAT)
  | .grantTableSetup _ => some ([.fc, .reg FC_GTA_HI, .reg FC_GTA_LO, .reg FC_GTN, .reg FC_STAT, .reg FC_THR] ++ Foot.fail ++ regs
      64 FC_CTX_STAT)
  | .pePerstNAssert => some ([.aon, .reg FC_CNT, .reg FC_GTA_HI, .reg FC_GTA_LO, .reg FC_GTN, .reg SYS_BIST, .sys] ++
      Foot.ctxCommand ++ Foot.stopPhases ++ fam Place.chg ++ fam Place.ring ++ hifRegs)
  | .linkDown => some ([.aon, .reg FC_CNT, .reg FC_GTA_HI, .reg FC_GTA_LO, .reg FC_GTN, .reg SYS_BIST, .sys] ++ Foot.ctxCommand ++
      Foot.stopPhases ++ fam Place.chg ++ fam Place.ring ++ hifRegs)
  | .functionLevelReset => some ([.aon, .reg FC_CNT, .reg FC_GTA_HI, .reg FC_GTA_LO, .reg FC_GTN, .reg SYS_BIST, .sys] ++
      Foot.ctxCommand ++ Foot.stopPhases ++ fam Place.chg ++ fam Place.ring ++ hifRegs)
  | .d3hotEntry => some ([.aon, .reg FC_CNT, .reg FC_GTA_HI, .reg FC_GTA_LO, .reg FC_GTN, .reg SYS_BIST, .sys] ++ Foot.ctxCommand
      ++ Foot.stopPhases ++ fam Place.chg ++ fam Place.ring ++ hifRegs)
  | .busMasterDisable => some ([.hif, .reg HIF_LNK, .ring 0])
  | .busMasterEnable _ => some (Foot.countEntry)
  | .aspmL1Entry => some ([.reg HIF_LNK])
  | .sqTailDoorbell n _ => some ([.hif, .jnl, .reg (HIF_CNT n.val), .reg (HIF_STAT n.val), .ring n])
  | .cqHeadDoorbell n _ => some ([.hif, .jnl, .reg (HIF_CNT n.val), .reg (HIF_CQP n.val), .reg (HIF_STAT n.val), .ring n])
  | .pushSlotWrite n _ => some ([.ring n])
  | .bar2InvalidWrite _ _ => some (regs 64 HIF_CNT)
  | .descriptorFetchDone n _ => some ([.jnl, .reg (HIF_STAT n.val)] ++ fam Place.ring)
  | .dmaReadError _ _ _ => some ([.aon, .fc, .jnl, .reg AUTH_CNT, .reg AUTH_LAST, .reg HIF_DMAERR, .reg JNL_EVT] ++ Foot.packFlag
      ++ fam Place.chg ++ fam Place.ring ++ regs 64 HIF_STAT)
  | .ringDrained n => some ([.reg (HIF_STAT n.val), .ring n])
  | .completionPost n => some ([.jnl, .reg (HIF_CQP n.val), .reg FC_CNT, .ring n] ++ Foot.countEntry)
  | .msixTimerExpire n => some ([.ring n] ++ Foot.countEntry)
  | .adminDeferredStart _ => some ([.fc, .freeCtr, .phg, .reg FC_GTA_HI, .reg FC_GTA_LO, .reg FC_GTN, .reg FC_STAT, .reg FC_THR,
      .reg PH_PMAP, .reg PH_VHOLD, .reg PH_VREF] ++ Foot.shareGust ++ Foot.fail ++ Foot.reloadB4 ++ regs 16 PH_CFG ++ regs 64
      FC_CTX_CAP ++ regs 64 FC_CTX_CFG ++ regs 64 FC_CTX_CIDBASE ++ regs 64 FC_CTX_CIDCNT ++ regs 64 FC_CTX_STAT)
  | .identify _ => some (Foot.fail)
  | .setLimits _ => some (Foot.fail)
  | .getTelemetry _ _ => some (Foot.fail)
  | .telemetryRecord _ _ => some ([.hif, .out, .reg HIF_LNK, .ring 0])
  | .journalDrain _ => some ([.freeCtr] ++ Foot.fail)
  | .linkUp _ => some ([.reg HIF_LNK])
  | .aspmL1Exit => some ([.reg HIF_LNK])
  | _ => none

/-- What each command of the two-wire ports, the analog front, temperatures and the timers may change. -/
def Instr.analogPlaces : Instr → Option (List Place)
  | .rarexTransaction k _ _ _ => some ([.chg k, .jnl, .pk k, .reg ((twClr (if k = 0 then 1 else 2)).off), .reg ((twHeld (if k = 0
      then 1 else 2)).off), .reg (CHG_STAT k.val), .reg (PK_CTR k.val), .reg (PK_STAT k.val), .reg (TW_PK_CNT k.val), .reg
      (TW_PK_STAT (twPack (if k = 0 then 1 else 2))), .reg (TW_PK_STAT k.val), .reg (twEvt (if k = 0 then 1 else 2)), .reg
      FC_EVT, .reg TW_M_CNT, .reg TW_M_STAT, .tw (if k = 0 then 1 else 2)] ++ Foot.packFlag ++ fam Place.ring)
  | .getSigPoll k _ => some ([.chg k, .jnl, .pk k, .reg ((twClr (if k = 0 then 1 else 2)).off), .reg ((twHeld (if k = 0 then 1
      else 2)).off), .reg (CHG_STAT k.val), .reg (PK_CTR k.val), .reg (PK_STAT k.val), .reg (TW_PK_CNT k.val), .reg (TW_PK_STAT
      (twPack (if k = 0 then 1 else 2))), .reg (TW_PK_STAT k.val), .reg (twEvt (if k = 0 then 1 else 2)), .reg FC_EVT, .reg
      TW_M_CNT, .reg TW_M_STAT, .tw (if k = 0 then 1 else 2)] ++ Foot.packFlag ++ fam Place.ring)
  | .twBusError p => some ([.freeCtr, .pk (twPack p), .reg (TW_PK_CNT (twPack p)), .reg (TW_PK_STAT (twPack p)), .reg (twEvt p),
      .reg TW_M_CNT, .reg TW_M_STAT, .tw p] ++ Foot.irq)
  | .twSclTimeout p => some ([.pk (twPack p), .reg (TW_PK_CNT (twPack p)), .reg (TW_PK_STAT (twPack p)), .reg (twEvt p), .reg
      TW_M_CNT, .reg TW_M_STAT, .tw p] ++ Foot.packFlag)
  | .twSdaTimeout p => some ([.pk (twPack p), .reg (TW_PK_CNT (twPack p)), .reg (TW_PK_STAT (twPack p)), .reg (twEvt p), .reg
      TW_M_CNT, .reg TW_M_STAT, .tw p] ++ Foot.packFlag)
  | .twBusFree p => some ([.reg (TW_PK_STAT (twPack p)), .reg TW_M_STAT, .tw p])
  | .alertRaise => some ([.reg TW_M_ALERT, .tw 0])
  | .alertResponse _ => some ([.reg TW_M_ALERT, .reg TW_M_EVT] ++ Foot.irq)
  | .hostNotify _ => some ([.reg TW_M_HN, .tw 0])
  | .hostNotifyRetry _ => some ([.reg TW_M_HN, .tw 0])
  | .hostNotifyDrop => some ([.reg TW_M_EVT] ++ Foot.irq)
  | .twArbLost p _ => some ([.pk (twPack p), .reg (TW_PK_CNT (twPack p)), .reg (TW_PK_STAT (twPack 0)), .reg (TW_PK_STAT (twPack
      p)), .reg (twEvt p), .reg TW_M_EVT, .reg TW_M_STAT, .tw p] ++ Foot.irq)
  | .twBusClear p _ => some ([.reg ((twClr p).off), .reg ((twHeld p).off), .reg (TW_PK_STAT (twPack p)), .reg (twEvt p), .reg
      TW_M_STAT, .tw p] ++ Foot.packFlag)
  | .cmpGpEvent g _ _ => some ([.cmp (⟨46 + g.val, by omega⟩), .reg (CMP_EVT (46 + g.val)), .reg (CMP_STAT (46 + g.val))] ++
      Foot.blank)
  | .busUv _ => some ([.reg (CMP_EVT 28), .reg (CMP_STAT 28)] ++ Foot.blank ++ fam Place.cmp)
  | .biasLow _ => some ([.reg (CMP_EVT 45), .reg (CMP_STAT 45)] ++ Foot.blank ++ fam Place.cmp)
  | .biasOv _ => some ([.reg (CMP_EVT 45), .reg (CMP_STAT 45)] ++ Foot.blank ++ fam Place.cmp)
  | .comparatorAutozero c _ _ => some ([.cmp c, .reg (CMP_EVT c.val), .reg (CMP_STAT c.val), .reg CMP_GSTAT] ++ Foot.packFlag ++
      hifRegs)
  | .adcaPass _ _ => some ([.reg (ADC_CNT 0), .reg (ADC_EVT 0), .reg (ADC_STAT 0)] ++ Foot.blankBy ++ Foot.noRef ++ fam Place.adc
      ++ regs 32 (ADC_RES 0))
  | .adcbPass _ _ => some ([.reg (ADC_CNT 1), .reg (ADC_EVT 1), .reg (ADC_STAT 1)] ++ Foot.blankBy ++ Foot.noRef ++ fam Place.adc
      ++ regs 32 (ADC_RES 1))
  | .adcInjection x _ _ _ _ => some ([.reg (ADC_CNT 0), .reg (ADC_CNT 1), .reg (ADC_CNT x.val), .reg (ADC_EVT 0), .reg (ADC_EVT
      1), .reg (ADC_EVT x.val), .reg (ADC_STAT 0), .reg (ADC_STAT 1), .reg (ADC_STAT x.val)] ++ Foot.blankBy ++ Foot.noRef ++
      fam Place.adc ++ regs 16 PH_MEAS ++ regs 32 (ADC_RES 0) ++ regs 32 (ADC_RES 1) ++ regs 32 (ADC_RES x.val) ++ regs 4
      (ADC_INJR 0) ++ regs 4 (ADC_INJR 1) ++ regs 4 (ADC_INJR x.val))
  | .referenceLoss r _ => some ([.reg ((refBit r).off)] ++ Foot.noRef ++ fam Place.adc ++ regs 2 ADC_EVT ++ regs 2 ADC_STAT ++
      regs 4 (ADC_RES 0) ++ regs 4 (ADC_RES 1))
  | .adcCrossCheck x _ _ _ => some ([.adc x, .reg ((if x = 0 then ADC_XCHK_ACODE else ADC_XCHK_BCODE).off), .reg ADC_REF] ++
      Foot.packFlag ++ regs 2 ADC_EVT ++ regs 2 ADC_STAT)
  | .dieTempReading _ => some ([.reg JNL_EVT, .reg JNL_LOST, .reg THM_CNT, .reg THM_EVT, .reg THM_SUM, .thm] ++ Foot.collect ++
      Foot.budgetDrop ++ regs 9 THM_TS)
  | .stageTempReading _ => some ([.chgg, .reg THM_CNT, .reg THM_EVT, .reg THM_STAT, .thm] ++ Foot.budgetDrop ++ Foot.setRole ++
      fam Place.php ++ regs 16 PH_STAT ++ regs 2 CHG_DPWR ++ regs 2 CHG_STAT ++ regs 2 PHP_CMD ++ regs 2 PHP_CNT ++ regs 2
      PHP_EVT ++ regs 2 PHP_STAT)
  | .ncapStep k => some ([.php k, .reg (CHG_STAT k.val), .reg (PHP_CMD k.val), .reg (PHP_CNT k.val), .reg (PHP_STAT k.val), .reg
      PH_GSTAT, .reg THM_CNT, .reg THM_EVT] ++ Foot.irq ++ fam Place.ph ++ regs 16 PH_STAT)
  | .thermalCompUpdate _ => some ([.aon, .reg THM_COMP])
  | .timerIncrement n _ => some ([.reg (TMR_CNT n.val), .reg (TMR_CTL n.val), .reg (TMR_EVT n.val)] ++ Foot.blankBy ++ fam
      Place.adc ++ regs 2 ADC_CNT ++ regs 2 ADC_EVT)
  | .timerCapture n _ => some ([.reg (TMR_EVT n.val), .tmr n] ++ Foot.irq)
  | .timerTriggerEdge n => some ([.reg (TMR_CNT n.val), .reg (TMR_CTL n.val), .reg (TMR_EVT n.val)] ++ Foot.blankBy ++ fam
      Place.adc ++ regs 2 ADC_CNT ++ regs 2 ADC_EVT)
  | .devtimeWrap => some ([.devtime, .jnl, .reg DEVTIME_EPOCH])
  | .cpDebugHalt => some ([.flt])
  | .referenceReady r => some ([.reg ((refBit r).off)])
  | .cpDebugResume => some ([.flt])
  | .blankingIntervalEnd c _ => some ([.cmp c, .reg (CMP_EVT c.val), .reg (CMP_STAT c.val)] ++ Foot.blank)
  | _ => none

/-- What each command of the start-up, self-test, faults, memory and authority may change. -/
def Instr.systemPlaces : Instr → Option (List Place)
  | .biasRise _ => some ([.reg SYS_STATE, .sys])
  | .biasGood _ => some ([.devtime, .reg DEVTIME_EPOCH] ++ Foot.startUp)
  | .biasSourceChange _ => some ([.sys])
  | .resetNRelease _ => some (Foot.startUp)
  | .lifecycleChangeDone _ => some ([.chg 0, .chg 1, .jnl, .reg SYS_LC, .sys] ++ Foot.reloadB4)
  | .onlineMarginCheck => some ([.hif, .jnl, .reg SYS_BIST, .ring 0, .sys] ++ Foot.stopPhases)
  | .onlinePhaseTestDone _ => some ([.chgg, .flt, .phg, .reg AUTH_CNT, .reg AUTH_LAST, .reg JNL_EVT, .reg SYS_BIST, .reg
      SYS_PROBE, .sys] ++ Foot.portsOff ++ Foot.budgetDrop ++ regs 16 PH_EVT)
  | .offlineDone _ => some ([.aon, .auth, .flt, .reg (MEM_REP 2), .reg ADC_REF, .reg AUTH_SEAL, .reg JNL_EVT, .reg MEM_STAT, .reg
      MEM_WIPE, .reg SYS_BIST, .reg SYS_PROBE, .reg SYS_STRAP, .sys] ++ Foot.portsOff ++ regs 2 ADC_STAT ++ regs 2 COUL_OFS ++
      regs 48 CMP_STAT)
  | .anvilOvertemp => some (Foot.collect)
  | .patrolScrub _ _ _ _ _ => some ([.flt, .reg FC_CNT, .reg MEM_EVT, .reg MEM_SCRUB, .reg MEM_UEADDR, .reg MEM_WIPE] ++
      Foot.ctxCommand ++ Foot.reloadB4 ++ fam Place.chg ++ fam Place.ring ++ regs 5 MEM_CNT ++ regs 64 HIF_STAT)
  | .faultEvent => some (Foot.collect)
  | .graceExpire _ => some (Foot.collect)
  | .fltAutoAck _ => some ([.flt, .reg FLT_PEND_HI, .reg FLT_PEND_LO])
  | .watchdogExpire => some (Foot.collect)
  | .collectorSelfCheck _ => some (Foot.checkWord)
  | .safeClockLoss => some ([.reg FLT_SELF] ++ Foot.safeEntry)
  | .faultPulseEnd => some ([.flt, .reg FLT_PIN])
  | .d2dRetry => some ([.flt])
  | .d2dLinkLoss => some (Foot.collect)
  | .refLoss _ _ => some (Foot.collect)
  | .attendPress => some ([.auth, .jnl, .reg AUTH_PRES, .reg JNL_EVT] ++ Foot.irq)
  | .attendRelease => some ([.auth, .reg AUTH_PRES])
  | .presenceTimeout => some ([.auth, .jnl, .reg AUTH_PRES])
  | .faultNHeartbeat => some ([.flt, .reg FLT_PIN])
  | _ => none

/-- What each command of the single register accesses may change: with accesses held, also what serving them may. -/
def Instr.writesPlaces (s : State) : Instr → Option (List Place)
  | .goField _ v => some ([.reg ((if BitVec.getLsbD v 9 = true then SYS_LC_GO_RETURNED else SYS_LC_GO_FIELD).off), .reg MEM_WIPE,
      .reg SYS_LC, .sys] ++ Foot.fabric ++ Foot.reloadB4 ++ fam Place.chg)
  | .goReturned _ v => some ([.reg ((if BitVec.getLsbD v 9 = true then SYS_LC_GO_RETURNED else SYS_LC_GO_FIELD).off), .reg
      MEM_WIPE, .reg SYS_LC, .sys] ++ Foot.fabric ++ Foot.reloadB4 ++ fam Place.chg)
  | .feedLockSet _ _ => some ([.reg FEED_LOCK] ++ Foot.fabric)
  | .phVholdWrite _ _ => some ([.phg, .reg PH_VHOLD, .reg PH_VREF, .ring 0] ++ Foot.fabric)
  | .chgFaultClear k _ _ => some ([.chg k, .heldAcc, .php k, .reg (CHG_CNT k.val), .reg (CHG_CTL k.val), .reg (CHG_CUR k.val),
      .reg (CHG_DPWR k.val), .reg (CHG_EVT k.val), .reg (CHG_PWR k.val), .reg (CHG_STAT k.val), .reg (CHG_TIME k.val), .reg
      (CHG_ZINFO k.val), .reg (PHP_CMD k.val), .reg (PHP_EVT k.val), .reg (PHP_STAT k.val), .ring 0] ++ Foot.blankBy)
  | .profileStagedLoad _ _ => some ([.heldAcc, .reg (CHG_EVT 0), .reg (CHG_EVT 1), .reg CHG_PLOAD] ++ Foot.blankBy ++ regs 2
      PK_FCC)
  | .packLatchClear k _ _ => some ([.chg k, .heldAcc, .pk k, .reg (CHG_STAT k.val), .reg (PK_CFG k.val), .reg (PK_STAT k.val)] ++
      Foot.blankBy)
  | .authdisWrite k _ _ => some ([.chg k, .heldAcc, .pk k, .reg (CHG_STAT k.val), .reg (PK_CFG k.val), .reg (PK_STAT k.val)] ++
      Foot.blankBy)
  | .pkShipArm _ _ => some ([.heldAcc] ++ Foot.blankBy)
  | .ringEnable n _ _ => some ([.fc, .reg (HIF_CFG n.val), .reg (HIF_CQP n.val), .reg (HIF_STAT n.val), .ring n] ++ Foot.fabric)
  | .ringDisable n _ _ => some ([.fc, .reg (HIF_CFG n.val), .reg (HIF_CQP n.val), .reg (HIF_STAT n.val), .ring n] ++ Foot.fabric)
  | .msixUnmask v _ _ => some ([.reg (MSIX_CTL v.val)] ++ Foot.fabric)
  | .twBusclr p _ _ => some ([.reg (if p = 0 then TW_M_CTL else TW_PK_CTL (twPack p).val), .reg TW_M_STAT, .tw p] ++ Foot.fabric)
  | .twPortReset p _ _ => some ([.reg (if p = 0 then TW_M_CTL else TW_PK_CTL (twPack p).val), .reg TW_M_STAT, .tw p] ++
      Foot.fabric)
  | .refselWrite x _ _ => some ([.reg (ADC_CFG x.val), .reg (ADC_STAT x.val)] ++ Foot.fabric)
  | .timerCaptureRead n _ _ => some ([.rdata, .tmr n])
  | .timerCntWrite n _ _ => some ([.reg (TMR_CNT n.val), .tmr n] ++ Foot.fabric)
  | .timerCcrWrite n c _ _ => some ([.reg (TMR_CCR n.val c.val), .reg (TMR_EVT n.val)] ++ Foot.fabric)
  | .timerEnable n _ _ => some ([.heldAcc, .reg (TMR_CTL n.val)] ++ Foot.blankBy ++ fam Place.adc ++ regs 2 ADC_CNT ++ regs 2
      ADC_EVT)
  | .faultAck _ _ _ => some ([.reg FLT_PEND_HI, .reg FLT_PEND_LO] ++ Foot.checkWord ++ Foot.fabric)
  | .firstErrorRearm _ _ => some ([.reg FLT_FIRST] ++ Foot.checkWord ++ Foot.fabric)
  | .faultInject _ _ => some ([.reg FLT_INJ] ++ Foot.checkWord ++ Foot.fabric)
  | .heartbeatResume _ _ => some (Foot.checkWord ++ Foot.fabric)
  | .presenceClose _ _ => some ([.auth, .reg AUTH_PRES] ++ Foot.fabric)
  | .jnlRdidxWrite _ _ => some ([.reg JNL_RDIDX] ++ Foot.fabric ++ regs 8 JNL_WIN)
  | .jnlRelWrite _ _ => some (Foot.fabric)
  | .registerRead _ off _ => some ([.rdata, .reg (off.toNat / 4 * 4)] ++ Foot.checkWord ++ fam Place.tmr)
  | .registerWrite _ off _ _ => Foot.write off.toNat
  | .twMWrite l _ => do
      let ptr := match l with
        | h :: b :: _ => h.toNat * 256 + b.toNat
        | _ => 0
      let page ← (List.range 16).mapM (fun i => Foot.write (ptr / 64 * 64 + 4 * i))
      return (← Foot.held s) ++ Foot.target ++ page.flatten
  | .twMPointerSet .. => (Foot.held s).map (· ++ Foot.target)
  | .twMRead .. => (Foot.held s).map (· ++ Foot.target ++ Foot.cleared ++ fam Place.tmr ++ Foot.checkWord)
  | .journalWrite => (match s.heldAcc with
      | [] => some Foot.record
      | h :: _ => (Foot.write h.off).map (Foot.record ++ ·))
  | .setLimitsApply => do
      let l ← s.hif.limits.mapM (fun x => x.regs.mapM (fun e => Foot.write e.1))
      return [.hif, .ring 0, .jnl] ++ l.flatten.flatten
  | _ => none

/-- What the resets and the wake, which put whole blocks back, leave as it was: a power-on reset what the device has sent and the words
last read; a device reset also DEVTIME. -/
def Instr.keptPlaces : Instr → Option (List Place)
  | .powerOnReset | .shipCut => some [.out, .rdata]
  | .resetNAssert => some [.devtime, .mem, .rdata]
  | .devrst .. => some [.devtime, .rdata]
  | .doldrumsWake .. => some [.rdata]
  | _ => none

/-- The places at which a device reset or a wake, and the start-up after it, act on what the table says a reset keeps (R7). -/
def Instr.resetPlaces : Instr → Option (List Place)
  | .resetNAssert => some Foot.reset
  | .devrst .. => some (Foot.reset ++ Foot.startUp ++ Foot.fabric)
  | .doldrumsWake .. => some (.reg DEVTIME_EPOCH :: Foot.reset ++ Foot.startUp)
  | _ => none

end Sys2Proof
end

