-- ==== Sys2Proof/Certificates/Slice0/Obligations.lean ====
section
/-! DEFINITION. The statements for the provers. `Gives c s Q` says that the command completes: it answers a next state, of which `Q`
holds. A premise `s.serves o` says that the fabric serves an access of origin `o` at once (R51, R64, R421), `s.adminReady` that the
admin ring starts a command at once (R277, R278), `s.ctxReady` that a context command on a resident entry is decided at once. -/

open Sys2Proof Sys2Proof.Machine

/-- A step runs the command at the front of the queue: for every command c and state s with c at the front of its queue, step of
s is exec of c on s with the queue’s rest. -/
def Obligations.StepRunsFrontCommand : Prop :=
  ∀ (s : State) (c : Instr) (l : List Instr), s.pending = c :: l → step s = exec c { s with pending := l }

/-- On an empty queue a powered device counts one 10 ns tick of DEVTIME and an unpowered one stays as it is (R13). That nothing
else happens is the model’s choice, log entry 2. -/
def Obligations.IdleStep : Prop :=
  ∀ s : State, s.pending = [] → step s = .next (if s.powered then s.timeTick else s)

/-- In every state every command answers a next state whose queue is the queue it was given: no command stops the block, and no
command queues another. That a command whose event cannot occur leaves the state as it is, and completes, is the model’s
choice, log entry 3. -/
def Obligations.EveryCommandCompletes : Prop :=
  ∀ (c : Instr) (s : State), ∃ t, exec c s = .next t ∧ t.pending = s.pending

/-- The machine after power-on reset: sound, with an empty queue, every output off (R46, R59), and fields of every block at the
power-on values of their register tables. -/
def Obligations.ResetState : Prop :=
  State.reset.Sound ∧ State.reset.pending = [] ∧ State.reset.awake = false ∧ State.reset.devtime = 0 ∧
    (∀ n : Fin 4, conducts (State.reset.feedSt n) = false ∧ State.reset.fld (FEED_CFG_SCRETRY n) = 3 ∧
      State.reset.fld (FEED_LIM_ILIM n) = 0x0A0) ∧
    (∀ k : Fin 2, State.reset.fld (PHP_EDGE_TWAKE k) = 20 ∧ State.reset.fld (PHP_MODE_SLOPEK k) = 24 ∧
      State.reset.fld (PHP_LIM_IPMAX k) = 1000 ∧ State.reset.on (CHG_CTL_ARM k) = true ∧ State.reset.fld (PK_HW_OVPCT k) = 30) ∧
    (∀ n : Fin 16, State.reset.ph[n].en = false) ∧
    (∀ n : Fin 64, State.reset.on (HIF_CFG_EN n) = false ∧ State.reset.ring[n].sq = []) ∧
    State.reset.on HIF_LNK_LINKUP = false ∧ State.reset.fld FC_CFG_HUPCT = 80 ∧ State.reset.fld FC_ENF_ENFMARG = 200 ∧
    State.reset.static = true ∧ State.reset.fld THM_DIE_T3 = 115 ∧ State.reset.fld THM_STOP_TSTOP = 135 ∧
    State.reset.fld JNL_CFG_WARN = 3072 ∧ State.reset.fld FLT_FATAL_ESCSRC = 0x3F ∧ State.reset.jnl.entries = [] ∧
    State.reset.present = false ∧ State.reset.fld (TW_M_CFG_TOSDA) = 35

/-- From every sound state a step leads to a sound state: the register file stays in its one canonical form (the model’s own),
and the journal never holds more than its 4,096 entries (R425). -/
def Obligations.StepKeepsSound : Prop :=
  ∀ s t : State, s.Sound → step s = .next t → t.Sound

/-- Whatever the command, a blown life-cycle group stays blown (R81), a fleet key once fused stays the same key, and a void fuse
once blown stays blown (R203); a power-on reset and Doldrums are no exception. -/
def Obligations.StepKeepsFuses : Prop :=
  ∀ s t : State, step s = .next t → FusesHold s t

/-- The PEC over the bytes of the worked example of R303 is 0x3F. The polynomial is the SMBus one, which the model takes from
the family, log entry 59. -/
def Obligations.PecExample : Prop :=
  crc8 [0x6A, 0x71, 0x4C, 0xDB, 0x01, 0x00, 0x00] = 0x3F

/-- BIAS_RISE with no bias yet and an input above 4.5 V connects the source that the inputs call for, and begins step 1: VAUX
above 10.8 V, else the highest of the others. BIAS_GOOD with a source connected powers the device: start-up ends at step 12
with no reset in force and DEVTIME counting from 0, where Doldrums is not armed. BIAS_SOURCE_CHANGE of a biased device
changes to the source that the inputs now call for, and nothing else. POWER_ON_RESET leaves every register and every block
as State.reset has them, but keeps the fleet keys, every blown fuse of the life-cycle groups and the spares of the memory
banks; what the device has sent, the words last read and the queue, which are the model’s own, stay too, and the count of
free values goes on. RESET_N_ASSERT on a powered device puts it in reset with CAUSE 1: the presence window closes, no phase
is enabled, no ring runs, DEVTIME goes on and every conducting feed keeps its state. RESET_N_RELEASE runs start-up to step
12. DEVRST under SYS_MAINT resets with CAUSE 2 and runs start-up to step 12. Doldrums is taken as not armed for the two
start-ups.

Rules: R58, R59, R60, R61, R65, R71, R72, R415. The model’s own choices and readings that bear on these commands: log
entries 11, 12, 13, 14, 19, 48, 49, 51, 52, 53, 141. -/
def Obligations.PowerOnAndDeviceReset : Prop :=
  (∀ (v : BiasIn) (s : State), s.sys.bias = none → s.sys.doldrums = false → 45 / 10 < v.at_ (v.pick none) → Gives (.biasRise
    v) s (fun t => t.sys.bias = some (v.pick none) ∧ t.fld SYS_STATE_STEP = 1 ∧ (108 / 10 < v.vaux → t.sys.bias = some
    .vaux))) ∧
  (∀ (r : Boot) (s : State), s.sys.bias.isSome = true → s.sys.biasGood = false → s.sys.doldrums = false → s.on PK_SHIP_ARM =
    false → Gives (.biasGood r) s (fun t => t.awake = true ∧ t.fld SYS_STATE_STEP = 12 ∧ t.devtime = 0)) ∧
  (∀ (v : BiasIn) (s : State), s.sys.bias.isSome = true → Gives (.biasSourceChange v) s (fun t => t = { s with sys := { s.sys
    with bias := some (v.pick s.sys.bias) } })) ∧
  (∀ (s : State), Gives (.powerOnReset) s (fun t => t = { State.reset with
    sys := { State.reset.sys with fuses := t.sys.fuses }, aon := { State.reset.aon with keys := s.aon.keys }, mem := { s.mem
    with b0 := [] }, out := s.out, rdata := s.rdata, freeCtr := t.freeCtr, pending := s.pending } ∧ (∀ i : Fin 3, ∀ j : Fin
    5, s.sys.fuses[i].getLsbD j = true → t.sys.fuses[i].getLsbD j = true))) ∧
  (∀ (s : State), s.powered = true → Gives (.resetNAssert) s (fun t => t.sys.resetHeld = true ∧ t.fld SYS_RST_CAUSE = 1 ∧
    t.fld SYS_STATE_STEP = 3 ∧ t.present = false ∧ t.devtime = s.devtime ∧ (∀ n : Fin 16, t.ph[n].en = false) ∧ (∀ n : Fin
    64, t.ring[n].started = []) ∧ (∀ n : Fin 4, conducts (s.feedSt n) = true → t.feedSt n = s.feedSt n))) ∧
  (∀ (r : Boot) (s : State), s.powered = true → s.sys.resetHeld = true → s.on PK_SHIP_ARM = false → Gives (.resetNRelease r) s
    (fun t => t.awake = true ∧ t.fld SYS_STATE_STEP = 12)) ∧
  (∀ (o : Origin) (v : Word) (r : Boot) (s : State), s.serves o → s.sys.resetHeld = false → s.on SYS_MAINT_MAINT = true → s.on
    PK_SHIP_ARM = false → Gives (.devrst o v r) s (fun t => t.awake = true ∧ t.fld SYS_RST_CAUSE = 2 ∧ t.fld SYS_STATE_STEP
    = 12))

/-- GO_FIELD from PROVISIONED with the seal and the presence window, and GO_RETURNED from PROVISIONED or FIELD with the presence
window, with CONFIRM 0xA5 under SYS_MAINT, no phase switching and no stall refusal: the change is in progress, BUSY and
granted, B4 is wiped, and GO_RETURNED voids every key. LIFECYCLE_CHANGE_DONE keeps every blown fuse and adds those that the
re-read shows in the groups it was to blow, clears BUSY and says in RESULT whether each of these groups now reads blown, at
least three of its five fuses. SELFTEST ONLINE with the margin of R77 on every port, and SELFTEST OFFLINE under SYS_MAINT
with nothing switching and no Gust, start a run: its descriptor is held and SYS_BIST says RUNNING with its scope.
ONLINE_MARGIN_CHECK ends an ONLINE run whose port has lost its margin with status 2. ONLINE_PHASE_TEST_DONE marks the phase
under test in PHDONE. OFFLINE_DONE ends the run with every phase of the strap marked in PHDONE: a failed fuse CRC gives
status 1, with FAILITEM 5 if it was 0.

Rules: R77, R78, R79, R80, R81, R83, R84, R85, R287. The model’s own choices and readings that bear on these commands: log
entries 12, 18, 22, 23, 24, 29, 31, 38, 48, 49, 51, 52, 53, 125, 130, 138, 139. -/
def Obligations.LifeCycleAndSelfTests : Prop :=
  (∀ (o : Origin) (v : Word) (s : State), s.serves o → s.on SYS_LC_BUSY = false → s.on SYS_MAINT_MAINT = true → v.toNat / 2 ^
    24 = 0xA5 → v.getLsbD 9 = false → s.lifecycle = 1 → s.sealOk = true → s.present = true → s.stalled = false →
    s.anySwitching = false → Gives (.goField o v) s (fun t => t.on SYS_LC_BUSY = true ∧ t.on SYS_LC_GO_FIELD = true ∧
    t.sys.lcTarget = some 2 ∧ Counted s t AUTH_CNT_GRANTED ∧ t.aon.wiping = some 2 ∧ (∀ i : Fin 4, t.aon.b4[i] = none))) ∧
  (∀ (o : Origin) (v : Word) (s : State), s.serves o → s.on SYS_LC_BUSY = false → s.on SYS_MAINT_MAINT = true → v.toNat / 2 ^
    24 = 0xA5 → (s.lifecycle = 1 ∨ s.lifecycle = 2) → s.present = true → s.stalled = false → s.anySwitching = false → Gives
    (.goReturned o v) s (fun t => t.on SYS_LC_BUSY = true ∧ t.on SYS_LC_GO_RETURNED = true ∧ t.sys.lcTarget = some 6 ∧
    Counted s t AUTH_CNT_GRANTED ∧ t.aon.wiping = some 2 ∧ (∀ i : Fin 4, t.aon.b4[i] = none) ∧ (∀ i : Fin 4,
    t.aon.keys[i].2.2 = true))) ∧
  (∀ (g : Vector (BitVec 5) 3) (x : BitVec 3) (s : State), s.sys.lcTarget = some x → Gives (.lifecycleChangeDone g) s (fun t
    => (∀ i : Fin 3, t.sys.fuses[i] = s.sys.fuses[i] ||| (if x.getLsbD i then g[i] else 0)) ∧ t.sys.lcTarget = none ∧ t.on
    SYS_LC_BUSY = false ∧ (t.fld SYS_LC_RESULT = if (∀ i : Fin 3, x.getLsbD i = true → t.group i = true) then 1 else 3) ∧
    t.fld SYS_LC_STATE = t.lifecycle)) ∧
  (∀ (d : Desc) (s : State), s.adminReady → d.scope = 1 → s.sys.test = none → s.allMargin = true → Gives (.selftestOnline d) s
    (fun t => t.sys.test = some (d.withOpc 6) ∧ t.fld SYS_BIST_SCOPE = 1 ∧ t.fld SYS_BIST_STATUS = 5)) ∧
  (∀ (d : Desc) (s : State), s.adminReady → d.scope = 2 → s.sys.test = none → s.anySwitching = false → s.on CHG_GSTAT_GUSTRUN
    = false → s.on SYS_MAINT_MAINT = true → Gives (.selftestOffline d) s (fun t => t.sys.test = some (d.withOpc 6) ∧ t.fld
    SYS_BIST_SCOPE = 2 ∧ t.fld SYS_BIST_STATUS = 5)) ∧
  (∀ (n : Fin 16) (k : Fin 2) (s : State), s.testing 1 = true → s.sys.testPhase = some n → s.portOf n = some k → s.margin k =
    false → Gives (.onlineMarginCheck) s (fun t => t.sys.test = none ∧ t.fld SYS_BIST_STATUS = 2)) ∧
  (∀ (r : TestRes) (n : Fin 16) (s : State), s.testing 1 = true → s.sys.testPhase = some n → s.phSt n = .test → Gives
    (.onlinePhaseTestDone r) s (fun t => (t.word SYS_BIST).getLsbD (16 + n.val) = true)) ∧
  (∀ (r : OffRes) (s : State), s.testing 2 = true → r.cirrusCrc = false → Gives (.offlineDone r) s (fun t => t.sys.test = none
    ∧ t.fld SYS_BIST_STATUS = 1 ∧ t.fld SYS_BIST_PHDONE = 2 ^ min 16 (s.fld SYS_STRAP_PHCNT) - 1 ∧ (s.fld SYS_BIST_FAILITEM
    = 0 → t.fld SYS_BIST_FAILITEM = 5)))

/-- FEED_PRESENT takes an awake feed in ABSENT to CHECK. FEED_CHECK_DONE of a feed in CHECK that no check has failed since the
last device reset: the first failing check is recorded in SYS_FEEDCHK, the feed goes to FAILED, to be checked again only
after a device reset, and FEED_PRESTART is raised; a pass is recorded and takes a proved feed whose window is not yet stable
to DEBOUNCE. FEED_ABSENT takes any feed but an OFF, FAILED, LATCHED or COOL one to ABSENT with both gates off and no
qualification. FEED_UV and FEED_OV of a comparator that no timer blanks and no change of mode settles, whose output lasts
through its event filter, set their event flag and comparator state, and take a feed that is QUALIFIED, in INRUSH, ON, in
STANDBY or HWONLY to DEBOUNCE, no longer qualified, its gates off; FEED_OV is raised for a feed in INRUSH, ON or STANDBY,
and UVCNT counts a FEED_UV. FEED_WINDOW_ENTER, with the input last seen inside both bands or not known, starts the debounce
period with both comparator outputs released. FEED_QUALIFIED of a proved feed in DEBOUNCE inside its window qualifies it
with VFQ captured, the mean of VFEED over the last 1 ms.

Rules: R67, R88, R90, R91. The model’s own choices and readings that bear on these commands: log entries 21, 63, 69, 95,
113, 116, 146. -/
def Obligations.FeedPresenceAndQualification : Prop :=
  (∀ (n : Fin 4) (s : State), s.feedSt n = .absent → s.awake = true → Gives (.feedPresent n) s (fun t => t.feedSt n = .check ∧
    t.feed[n].present = true)) ∧
  (∀ (n : Fin 4) (c : FeedChecks) (s : State), s.powered = true → s.feedSt n = .check → s.feed[n].failed = false →
    s.sys.noCheck = false → c.result ≠ .pass → Gives (.feedCheckDone n c) s (fun t => t.feedSt n = .failed ∧ t.fld
    ⟨SYS_FEEDCHK, 4 * n.val + 3, 4 * n.val⟩ = c.result.code ∧ Raised t srcFEED_PRESTART n.val ∧ t.feed[n].failed = true)) ∧
  (∀ (n : Fin 4) (c : FeedChecks) (s : State), s.powered = true → s.feedSt n = .check → s.feed[n].failed = false →
    s.sys.noCheck = false → s.feed[n].proved = true → s.feed[n].stable = false → c.result = .pass → Gives (.feedCheckDone n
    c) s (fun t => t.feedSt n = .debounce ∧ t.fld ⟨SYS_FEEDCHK, 4 * n.val + 3, 4 * n.val⟩ = 0)) ∧
  (∀ (n : Fin 4) (s : State), s.powered = true → s.feedSt n ≠ .off → s.feedSt n ≠ .failed → s.feedSt n ≠ .latched → s.feedSt n
    ≠ .cool → Gives (.feedAbsent n) s (fun t => t.feedSt n = .absent ∧ t.qual n = false ∧ t.on (FEED_STAT_HSON n) = false ∧
    t.on (FEED_STAT_ORON n) = false ∧ t.feed[n].present = false)) ∧
  (∀ (n : Fin 4) (w : Nat) (s : State), s.powered = true → s.cmpHeld (16 + n) false = false → 25 * s.fld (CMP_CFG_EVFILT (16 +
    n)) ≤ w → s.feedSt n ∈ [.qualified, .inrush, .on, .standby, .hwonly] → Gives (.feedUv n w) s (fun t => t.feedSt n =
    .debounce ∧ t.qual n = false ∧ t.on (FEED_STAT_HSON n) = false ∧ t.on (FEED_STAT_ORON n) = false ∧ t.on (FEED_EVT_UV n)
    = true ∧ t.fld (CMP_STAT_LOSTATE (16 + n)) = 1 ∧ Counted s t (FEED_CNT_UVCNT n))) ∧
  (∀ (n : Fin 4) (w : Nat) (s : State), s.powered = true → s.cmpHeld (16 + n) true = false → 25 * s.fld (CMP_CFG_EVFILT (16 +
    n)) ≤ w → s.feedSt n ∈ [.qualified, .inrush, .on, .standby, .hwonly] → Gives (.feedOv n w) s (fun t => t.feedSt n =
    .debounce ∧ t.qual n = false ∧ t.on (FEED_STAT_HSON n) = false ∧ t.on (FEED_STAT_ORON n) = false ∧ t.on (FEED_EVT_OV n)
    = true ∧ t.fld (CMP_STAT_HISTATE (16 + n)) = 1 ∧ (s.lately n 2 = none → s.feedSt n ∈ [.inrush, .on, .standby] → Raised t
    srcFEED_OV n.val))) ∧
  (∀ (n : Fin 4) (s : State), s.powered = true → s.cmpHeld (16 + n) true = false → s.cmpInside ⟨16 + n.val, by omega⟩ = true →
    Gives (.feedWindowEnter n) s (fun t => t.feed[n].window = true ∧ t.feed[n].stable = false ∧ t.fld (CMP_STAT_HISTATE (16
    + n)) = 0 ∧ t.fld (CMP_STAT_LOSTATE (16 + n)) = 0)) ∧
  (∀ (n : Fin 4) (s : State), s.powered = true → s.feedSt n = .debounce → s.feed[n].window = true → s.feed[n].proved = true →
    s.feed[n].ejected = false → s.feed[n].failed = false → Gives (.feedQualified n) s (fun t => t.qual n = true ∧ t.fld
    (FEED_EFF_VFQ n) = min (2 ^ 14 - 1) (100 * meanOr s.meas.v[n.castAdd 44] s.feed[n].volts).floor.toNat ∧ t.feed[n].stable
    = true ∧ (s.priorityMode = false → t.feedSt n = .qualified)))

/-- INRUSH_START of a feed that R93 admits puts it in INRUSH with its ORing on, at DVDT, or after a thermal trip in INRUSH at
half the last rate but not below 0.1 V/ms. INRUSH_COMPLETE puts a feed in INRUSH to ON with its hot-swap on, in the safe
state or SAFE_TALK to HWONLY. INRUSH_TIMEOUT is a thermal trip: TMAXE, THCNT, gates off, and the feed COOL or, with its
retries used up, LATCHED. FEED_MODEL_UPDATE moves the three poles of the model by the step of R95 on the hot-swap voltage
and the feed current of the interval. FEED_SHORT_CIRCUIT of a conducting feed sets SC, counts SCCNT, turns both gates off
and leaves the feed COOL, or LATCHED where SCRETRY is used up. FEED_SC_HOLDOFF_END of a feed in COOL ends its hold-off.
FEED_REVERSE_CURRENT of a conducting feed turns the ORing gate off, sets REV and counts it; ORING_REENABLE turns the ORing
of a conducting feed on. FEED_TRIP_COUNT_CLEAR of a feed that is ON clears its trip counts.

Rules: R88, R93, R94, R95, R97, R102, R103. The model’s own choices and readings that bear on these commands: log entries
63, 114, 116. -/
def Obligations.FeedInrushAndTrips : Prop :=
  (∀ (n : Fin 4) (s : State), s.powered = true → s.admits n = true → Gives (.inrushStart n) s (fun t => t.feedSt n = .inrush ∧
    t.on (FEED_STAT_ORON n) = true ∧ (t.feed[n].dvdt = if s.feedSt n = .cool ∧ s.feed[n].halve = true then max (1 / 10)
    (s.feed[n].dvdt / 2) else s.dvdt n))) ∧
  (∀ (n : Fin 4) (s : State), s.powered = true → s.feedSt n = .inrush → Gives (.inrushComplete n) s (fun t => (t.feedSt n = if
    s.mode = 2 ∨ s.mode = 3 then .hwonly else .on) ∧ t.on (FEED_STAT_HSON n) = true ∧ t.feed[n].halve = false)) ∧
  (∀ (n : Fin 4) (s : State), s.powered = true → s.feedSt n = .inrush → Gives (.inrushTimeout n) s (fun t => t.on
    (FEED_EVT_TMAXE n) = true ∧ Counted s t (FEED_CNT_THCNT n) ∧ t.feed[n].thTrips = s.feed[n].thTrips + 1 ∧ t.on
    (FEED_STAT_HSON n) = false ∧ t.on (FEED_STAT_ORON n) = false ∧ (t.feedSt n = if s.fld (FEED_TML_RETRYMAX n) <
    s.feed[n].thTrips + 1 then .latched else .cool))) ∧
  (∀ (n : Fin 4) (s : State), s.powered = true → Gives (.feedModelUpdate n) s (fun t => (∀ k : Fin 3, t.feed[n].dT[k] =
    s.feed[n].dT[k] + (s.meas.raw[Fin.ofNat 48 (4 + n)] * max 0 (divR s.meas.raw[Fin.ofNat 48 (8 + n)] (s.rsns n)) * s.fld
    (FEED_POLE_RTH n (k.val + 1)) / 1000 - s.feed[n].dT[k]) * 10 / max 10 (s.fld (FEED_POLE_TAU n (k.val + 1)) : Rat)))) ∧
  (∀ (n : Fin 4) (w : Nat) (s : State), s.powered = true → conducts (s.feedSt n) = true → Gives (.feedShortCircuit n w) s (fun
    t => t.on (FEED_EVT_SC n) = true ∧ Counted s t (FEED_CNT_SCCNT n) ∧ t.on (FEED_STAT_HSON n) = false ∧ t.on
    (FEED_STAT_ORON n) = false ∧ t.feed[n].scTrips = s.feed[n].scTrips + 1 ∧ (t.feedSt n = if s.fld (FEED_CFG_SCRETRY n) <
    s.feed[n].scTrips + 1 then .latched else .cool))) ∧
  (∀ (n : Fin 4) (s : State), s.powered = true → s.feedSt n = .cool → Gives (.feedScHoldoffEnd n) s (fun t =>
    t.feed[n].holdoff = true)) ∧
  (∀ (n : Fin 4) (w : Nat) (s : State), s.powered = true → conducts (s.feedSt n) = true → Gives (.feedReverseCurrent n w) s
    (fun t => t.on (FEED_STAT_ORON n) = false ∧ t.on (FEED_EVT_REV n) = true ∧ Counted s t (FEED_CNT_REVCNT n) ∧ t.on
    (FEED_STAT_HSON n) = s.on (FEED_STAT_HSON n) ∧ t.qual n = s.qual n ∧ t.feedSt n = s.feedSt n)) ∧
  (∀ (n : Fin 4) (s : State), s.powered = true → conducts (s.feedSt n) = true → Gives (.oringReenable n) s (fun t => t.on
    (FEED_STAT_ORON n) = true ∧ t.feedSt n = s.feedSt n)) ∧
  (∀ (n : Fin 4) (s : State), s.powered = true → s.feedSt n = .on → Gives (.feedTripCountClear n) s (fun t =>
    t.feed[n].thTrips = 0 ∧ t.feed[n].scTrips = 0 ∧ t.fld (FEED_STAT_RETRIES n) = 0))

/-- DROOP_UPDATE records the means of the last 10 µs and sets ILIM_EFF to the lower of what R100 wants at this voltage and the
last value plus 1 % of ILIM per 1 ms, and DERATE where it lies below ILIM. NEAR_ASSERT of a feed of the active group marks
it and holds the command of every port in CHARGE; NEAR_RELEASE clears the mark of every feed. FEED_HEALTH_EXPIRE with
neither DERATE nor CLACT clears the DEGRADED condition. FEED_GROUP_CHANGE in PRIORITY makes the group the policy picks
active. EJECT_ASSERT asserts EJECT and, with FEEDS_LOST already there, no stop running and a hold time, starts the hold
timer. EJECT_DEASSERT clears EJECT and the hold and lets every feed that FEED_EJECT.ACT turned off requalify. EJECT_FEED_OFF
with EJECT and ACT leaves no feed qualified and every conducting feed in DEBOUNCE with its gates off. EXTRACT_HOLD_EXPIRE
with the hold running begins the extraction stop: EXSTOP, no hold, both packs open and every throttle pin asserted.

Rules: R89, R99, R100, R105, R106, R107, R108, R109. The model’s own choices and readings that bear on these commands: log
entries 63, 64, 69, 95. -/
def Obligations.FeedLimitsAndExtraction : Prop :=
  (∀ (n : Fin 4) (s : State), s.powered = true → (s.fld (FEED_EFF_VFQ n) : Rat) / 100 * s.fld (FEED_DROOP_KNEE n) / 100 ≤
    s.meas.v[n.castAdd 44] → Gives (.droopUpdate n) s (fun t => t.feed[n].ilimEff = min (s.ilim n) (s.feed[n].ilimEff +
    s.ilim n / 10000) ∧ t.feed[n].vfeed = s.meas.v[n.castAdd 44] ∧ t.feed[n].ifeed = divR s.meas.v[Fin.ofNat 48 (8 + n)]
    (s.rsns n) ∧ t.on (FEED_STAT_DERATE n) = decide (t.feed[n].ilimEff < s.ilim n))) ∧
  (∀ (n : Fin 4) (s : State), s.powered = true → s.meas.v[n.castAdd 44] < (s.fld (FEED_EFF_VFQ n) : Rat) / 100 * s.fld
    (FEED_DROOP_KNEE n) / 100 → Gives (.droopUpdate n) s (fun t => t.feed[n].ilimEff = min (max (s.ilim n * s.fld
    (FEED_DROOP_FLOOR n) / 100) (s.ilim n * (1 - s.fld (FEED_DROOP_GAIN n) * 100 * divR ((s.fld (FEED_EFF_VFQ n) : Rat) /
    100 * s.fld (FEED_DROOP_KNEE n) / 100 - s.meas.v[n.castAdd 44]) ((s.fld (FEED_EFF_VFQ n) : Rat) / 100) / 100)))
    (s.feed[n].ilimEff + s.ilim n / 10000) ∧ t.on (FEED_STAT_DERATE n) = decide (t.feed[n].ilimEff < s.ilim n))) ∧
  (∀ (n : Fin 4) (s : State), s.powered = true → s.active n = true → Gives (.nearAssert n) s (fun t => t.feed[n].near = true ∧
    (∀ k : Fin 2, s.role k = .charge → t.chg[k].held = true))) ∧
  (∀ (s : State), Gives (.nearRelease) s (fun t => (∀ n : Fin 4, t.feed[n].near = false))) ∧
  (∀ (n : Fin 4) (s : State), s.on (FEED_STAT_DERATE n) = false → s.on (FEED_STAT_CLACT n) = false → Gives (.feedHealthExpire
    n) s (fun t => t.feed[n].degraded = false)) ∧
  (∀ (s : State), s.powered = true → s.priorityMode = true → Gives (.feedGroupChange) s (fun t => (∀ n : Fin 4, t.active n =
    s.groupNow.contains n))) ∧
  (∀ (s : State), s.powered = true → s.eject = false → s.lostFeeds = true → s.on FEED_GSTAT_EXSTOP = false → s.fld
    FEED_EJECT_EXHOLD ≠ 0 → Gives (.ejectAssert) s (fun t => t.eject = true ∧ t.on FEED_GSTAT_HOLDRUN = true)) ∧
  (∀ (s : State), Gives (.ejectDeassert) s (fun t => t.eject = false ∧ t.on FEED_GSTAT_HOLDRUN = false ∧ (∀ n : Fin 4,
    t.feed[n].ejected = false))) ∧
  (∀ (s : State), s.powered = true → s.eject = true → s.on FEED_EJECT_ACT = true → Gives (.ejectFeedOff) s (fun t => (∀ n :
    Fin 4, t.qual n = false ∨ s.feedSt n ∉ [FeedSt.qualified, .inrush, .on, .standby, .hwonly, .cool]) ∧ (∀ n : Fin 4,
    conducts (s.feedSt n) = true → t.feedSt n = .debounce ∧ t.on (FEED_STAT_HSON n) = false ∧ t.on (FEED_STAT_ORON n) =
    false) ∧ (∀ n : Fin 4, t.feed[n].ejected = true))) ∧
  (∀ (s : State), s.powered = true → s.on FEED_GSTAT_HOLDRUN = true → s.on FEED_GSTAT_EXSTOP = false → Gives
    (.extractHoldExpire) s (fun t => t.on FEED_GSTAT_EXSTOP = true ∧ t.on FEED_GSTAT_HOLDRUN = false ∧ (∀ k : Fin 2, t.on
    (PK_STAT_CHGON k) = false ∧ t.on (PK_STAT_DSGON k) = false ∧ t.role k = .none) ∧ t.fld FC_THR_STATE = 0xFF ∧ (∀ n : Fin
    16, t.phSwitching n = false)))

/-- PWM_CYCLE_START of a phase in RUN, or of one that sheds and has not begun its last cycle: the port's PERIOD moves toward its
target by at most 1 % where the phase leads the port; the phase blends on, or begins to blend where the port's mode differs
from its own; ICMD of its port, TPRED and VON of its mode, or in a blend cycle in which B ends at a set point of an A that
makes up for it, the slope to 0.5 A/µs, and to the nearest DAC code the lower threshold ICMD less a quarter of the predicted
ripple and the upper threshold at the start of the interval, or IPKSKIP with no slope in cycle skipping; with no positive
command or the wire held in the trip state both outputs go to high impedance. A phase that sheds and has had its last cycle
starts no pulse. A trip after blanking, below the fast limit and not driven by the BUS comparator, ends the interval, keeps
its crossing time as captured and counts the cycle in RUN; one driven by the BUS comparator counts TRUNC; one at the fast
limit counts FLCYC and FLCNT. A falling edge after blanking keeps the lower crossing time. MAX_DUTY_END ends the interval
and counts MAXD. INDUCTANCE_LEARN after 256 counted cycles, 32 or more of them valid, takes the mean of the samples held
within one sixteenth of the last value and within LMIN, at least 0.10 µH, to LMAX, and empties the window; with fewer valid
it keeps the value and sets LRNSTALE. HARD_SWITCH_REPORT of a switching phase, 10 to 40 ns wide, is noted for the latest
turn-on edge that began within 50 ns before it, and with no such edge, or of another width, it changes no report.
DEADTIME_ADAPT, not frozen, raises the code of each transition that occurred and drew a report by 4, at most 255, lowers
that of each that occurred without one by 1, at least 0, and leaves the others.

Rules: R18, R20, R117, R121, R122, R125, R126, R127, R128, R131, R132, R137, R138, R139. The model’s own choices and
readings that bear on these commands: log entries 66, 98, 99, 100, 101, 105, 116, 126. -/
def Obligations.PhaseCycleAndLearning : Prop :=
  (∀ (n : Fin 16) (k : Fin 2) (s : State), s.portOf n = some k → s.phSwitching n = true → (s.phSt n = .shedding →
    s.ph[n].shedN = 0) → Gives (.pwmCycleStart n) s (fun t => t.ph[n].icmd = s.icmd k ∧ (t.php[k].per = if s.leads k n =
    true then nextPeriod s.php[k].per (s.period k) else s.php[k].per) ∧ (t.ph[n].blend = if 8 ≤ s.ph[n].blend then 0 else if
    0 < s.ph[n].blend then s.ph[n].blend + 1 else if s.ph[n].mode = s.modeOf k then 0 else 1) ∧ (t.ph[n].mode = if
    s.ph[n].blend = 0 then s.modeOf k else s.ph[n].mode) ∧ (t.ph[n].blend = 0 → (t.ph[n].tpred, t.ph[n].von) = tripTerms
    t.ph[n].mode (t.tsw k) (s.vin k) (s.vout k) (s.dbb k)) ∧ (t.ph[n].blend ≠ 0 → t.ph[n].bEnd ≠ none → t.ph[n].bEnd.map
    (fun b => blendTerms b (t.tsw k) (s.vin k) (s.vout k)) = some (t.ph[n].tpred, t.ph[n].von)) ∧ t.ph[n].ilo = dacAmps
    (s.icmd k - divR (t.ph[n].von * t.ph[n].tpred) s.ph[n].li / 4) ∧ (¬ (s.on (PHP_MODE_SKIPEN k) = true ∧ s.ph[n].turned ≤
    1 ∧ s.icmd k < (s.fld (PHP_LIGHT_ISKIP k) : Rat) / 8) → t.ph[n].se = seOf (s.fld (PHP_MODE_SLOPEK k)) (divR (t.ph[n].von
    * t.ph[n].tpred) s.ph[n].li) (t.tsw k) t.ph[n].tpred ∧ t.ph[n].ith0 = dacAmps (s.icmd k + divR (t.ph[n].von *
    t.ph[n].tpred) s.ph[n].li / 2 + t.ph[n].se * t.ph[n].tpred)) ∧ ((s.on (PHP_MODE_SKIPEN k) = true ∧ s.ph[n].turned ≤ 1 ∧
    s.icmd k < (s.fld (PHP_LIGHT_ISKIP k) : Rat) / 8) → t.ph[n].ith0 = dacAmps ((s.fld (PHP_LIGHT_IPKSKIP k) : Rat) / 8) ∧
    t.ph[n].se = 0) ∧ (s.icmd k ≤ 0 ∨ s.wireHeld n = true → t.ph[n].onTime = false ∧ t.ph[n].pwmb = .hiZ ∧ t.ph[n].pwmk =
    .hiZ))) ∧
  (∀ (n : Fin 16) (k : Fin 2) (s : State), s.portOf n = some k → s.phSt n = .shedding → 1 ≤ s.ph[n].shedN → Gives
    (.pwmCycleStart n) s (fun t => t.ph[n].fired = false ∧ t.ph[n].icmd = s.ph[n].icmd ∧ t.ph[n].onTime = s.ph[n].onTime ∧
    t.phSt n = .shedding)) ∧
  (∀ (n : Fin 16) (k : Fin 2) (x : Rat) (w : Nat) (s : State), s.portOf n = some k → s.phSwitching n = true → s.ph[n].onTime =
    true → s.ph[n].blanked = true → s.ph[n].ith0 - s.ph[n].se * tdc x < s.ilimf n → Gives (.tripWireEvent n .rising x false
    w) s (fun t => t.ph[n].onTime = false ∧ t.ph[n].trip = true ∧ t.ph[n].tUp = some (tdc x) ∧ t.fld (PH_STAT_FLCNT n) = 0 ∧
    (t.ph[n].lCnt = if s.phSt n = .run then s.ph[n].lCnt + 1 else s.ph[n].lCnt))) ∧
  (∀ (n : Fin 16) (k : Fin 2) (x : Rat) (w : Nat) (s : State), s.portOf n = some k → s.phSwitching n = true → s.busovOn = true
    → s.ph[n].onTime = true → s.ph[n].blanked = true → Gives (.tripWireEvent n .rising x true w) s (fun t => t.ph[n].onTime
    = false ∧ Counted s t (PHP_CNT_TRUNC k) ∧ t.fld (PH_STAT_FLCNT n) = 0)) ∧
  (∀ (n : Fin 16) (k : Fin 2) (x : Rat) (w : Nat) (s : State), s.portOf n = some k → s.phSwitching n = true → s.ph[n].onTime =
    true → s.ph[n].blanked = true → s.ilimf n ≤ s.ph[n].ith0 - s.ph[n].se * tdc x → s.fld (PH_STAT_FLCNT n) < 2 → Gives
    (.tripWireEvent n .rising x false w) s (fun t => t.ph[n].onTime = false ∧ Counted s t (PH_CNT_FLCYC n) ∧ t.fld
    (PH_STAT_FLCNT n) = s.fld (PH_STAT_FLCNT n) + 1)) ∧
  (∀ (n : Fin 16) (k : Fin 2) (x : Rat) (b : Bool) (w : Nat) (s : State), s.portOf n = some k → s.phSwitching n = true → (b =
    true → s.busovOn = true) → s.cmpHeld n true = false → s.ph[n].wireOpen = false → s.ph[n].onTime = true → s.ph[n].blanked
    = true → Gives (.tripWireEvent n .falling x b w) s (fun t => t.ph[n].onTime = true ∧ t.ph[n].trip = false ∧ t.ph[n].tLo
    = some (tdc x) ∧ t.fld (CMP_STAT_HISTATE n) = 0)) ∧
  (∀ (n : Fin 16) (k : Fin 2) (s : State), s.portOf n = some k → s.phSwitching n = true → s.ph[n].onTime = true → Gives
    (.maxDutyEnd n) s (fun t => t.ph[n].onTime = false ∧ Counted s t (PH_CNT_MAXD n) ∧ t.fld (PH_STAT_FLCNT n) = 0)) ∧
  (∀ (n : Fin 16) (k : Fin 2) (s : State), s.portOf n = some k → 256 ≤ s.ph[n].lCnt → 32 ≤ s.ph[n].lValid → Gives
    (.inductanceLearn n) s (fun t => t.ph[n].li = clampR (clampR (s.ph[n].lSum / s.ph[n].lValid) (s.ph[n].li * (1 - 1 / 16))
    (s.ph[n].li * (1 + 1 / 16))) ((max 10 (s.fld (PHP_INDL_LMIN k)) : Nat) / 100) ((s.fld (PHP_INDL_LMAX k) : Rat) / 100) ∧
    t.ph[n].lCnt = 0 ∧ t.ph[n].lValid = 0 ∧ t.ph[n].lSum = 0)) ∧
  (∀ (n : Fin 16) (s : State), 256 ≤ s.ph[n].lCnt → s.ph[n].lValid < 32 → Gives (.inductanceLearn n) s (fun t => t.ph[n].li =
    s.ph[n].li ∧ t.on (PH_EVT_LRNSTALE n) = true ∧ t.ph[n].lCnt = 0 ∧ t.ph[n].lValid = 0)) ∧
  (∀ (n : Fin 16) (x : Rat) (w : Nat) (i : Fin 4) (y : Rat) (s : State), s.phSwitching n = true → 10 ≤ w → w ≤ 40 →
    (s.ph[n].turnOns.find? (fun e => decide (e.2 ≤ x)) = some (i, y)) → x - y ≤ 5 / 100 → Gives (.hardSwitchReport n x w) s
    (fun t => t.ph[n].reports = s.ph[n].reports ||| (1#4 <<< i.val) ∧ t.ph[n].edges = s.ph[n].edges)) ∧
  (∀ (n : Fin 16) (x : Rat) (w : Nat) (s : State), (s.ph[n].turnOns.all (fun e => decide (x < e.2 ∨ e.2 < x - 5 / 100)) = true
    ∨ w < 10 ∨ 40 < w) → Gives (.hardSwitchReport n x w) s (fun t => t.ph[n].reports = s.ph[n].reports)) ∧
  (∀ (n : Fin 16) (k : Fin 2) (s : State), s.portOf n = some k → s.ph[n].mode ≠ .buckboost → s.ph[n].blend = 0 → s.ph[n].light
    = false → s.ilims n / 10 ≤ s.ph[n].icmd → s.ph[n].susp = 0 → Gives (.deadtimeAdapt n) s (fun t => (∀ i : Fin 4, t.fld
    [PH_DT_BHL n, PH_DT_BLH n, PH_DT_KHL n, PH_DT_KLH n][i] = if s.ph[n].edges.getLsbD i = false then s.fld [PH_DT_BHL n,
    PH_DT_BLH n, PH_DT_KHL n, PH_DT_KLH n][i] else if s.ph[n].reports.getLsbD i = true then min 255 (s.fld [PH_DT_BHL n,
    PH_DT_BLH n, PH_DT_KHL n, PH_DT_KLH n][i] + 4) else s.fld [PH_DT_BHL n, PH_DT_BLH n, PH_DT_KHL n, PH_DT_KLH n][i] - 1) ∧
    t.ph[n].edges = 0 ∧ t.ph[n].reports = 0))

/-- MODE_EVALUATE records the 10 µs means of BUS and the pack side and the port's currents over 10 µs and 1 ms; a port with a
direction whose dwell of 64 cycles is over takes the mode that R121 gives for them. DIRECTION_CHANGE to a direction that the
role of the port allows sets it; where it differs from the present one DIRCHG sets and every switching phase of the port
starts again with 16 cycles of suspension from its next cycle start. PHASE_ADD in RUN outside the extraction stop, where the
port wants more phases than run or wake, at once or in the second port cycle of a condition of R134, wakes the coolest IDLE
phase. PHASE_SHED takes the hottest running phase to SHEDDING and counts it where the thermal cap lies below the phases that
run, where the mean command of 64 port cycles lies below SHED of the map with more phases running than must stay, and in
role DRIZZLE with more than one phase, no phase being to add. PHASE_WAKE_DONE takes a WAKING phase to RUN with 16 cycles of
suspension from its first cycle start in the mode of its port. PHASE_SHED_DONE stops a SHEDDING phase: TEST for the phase
out for test, else its rest state.

Rules: R119, R121, R123, R132, R134, R135, R136, R149. The model’s own choices and readings that bear on these commands: log
entries 100, 101, 104, 106. -/
def Obligations.PortModesAndPhaseCount : Prop :=
  (∀ (k : Fin 2) (s : State), s.dir k ≠ .idle → 64 ≤ s.php[k].dwell → Gives (.modeEvaluate k) s (fun t => t.phg.vbus = meanOr
    s.meas.v[12] s.meas.bus ∧ t.php[k].vpack = s.meas.v[Fin.ofNat 48 (13 + k)] ∧ t.php[k].i10 = s.portAmps k 1000 ∧
    t.php[k].i1m = s.portAmps k 100000 ∧ t.modeOf k = t.modeFor k (s.modeOf k))) ∧
  (∀ (k : Fin 2) (s : State), (s.role k = .gust ∨ s.role k = .holdup) → s.dir k ≠ .dis → Gives (.directionChange k .dis) s
    (fun t => t.dir k = .dis ∧ t.on (PHP_EVT_DIRCHG k) = true ∧ (∀ n : Fin 16, s.phOn k n = true → s.phSwitching n = true →
    t.ph[n].susp = 17 ∧ t.ph[n].onTime = false))) ∧
  (∀ (k : Fin 2) (s : State), (s.role k = .charge ∨ s.role k = .drizzle ∨ s.role k = .none) → s.dir k ≠ .chg → Gives
    (.directionChange k .chg) s (fun t => t.dir k = .chg ∧ t.on (PHP_EVT_DIRCHG k) = true ∧ (∀ n : Fin 16, s.phOn k n = true
    → s.phSwitching n = true → t.ph[n].susp = 17 ∧ t.ph[n].onTime = false))) ∧
  (∀ (n : Fin 16) (k : Fin 2) (s : State), s.on SYS_STATE_PHOK = true → s.running = true → s.on FEED_GSTAT_EXSTOP = false →
    (s.addAtOnce k = true ∨ 2 ≤ s.php[k].addN) → ((finsWhere (fun m => s.phOn k m && (s.phSt m == .run || s.phSt m ==
    .waking))).length < s.addWant k) → (s.coolest (finsWhere (fun m => s.phAvail k m && s.phSt m == .idle &&
    !s.ph[m].drain)) = some n) → Gives (.phaseAdd k) s (fun t => t.phSt n = .waking ∧ t.ph[n].en = true)) ∧
  (∀ (n : Fin 16) (k : Fin 2) (s : State), s.ncapOf k < s.nrun k → s.addWant k ≤ s.nrun k → s.hottest (finsWhere (s.phRun k))
    = some n → Gives (.phaseShed k) s (fun t => t.phSt n = .shedding ∧ Counted s t (PHP_CNT_SHEDS k))) ∧
  (∀ (n : Fin 16) (k : Fin 2) (s : State), s.role k = .drizzle → 1 < s.nrun k → s.hottest (finsWhere (s.phRun k)) = some n →
    Gives (.phaseShed k) s (fun t => t.phSt n = .shedding ∧ Counted s t (PHP_CNT_SHEDS k))) ∧
  (∀ (n : Fin 16) (k : Fin 2) (s : State), s.role k ≠ .drizzle → s.iport k ≠ 0 → s.on (PHP_MODE_HUALL k) = false → s.mapOk k =
    true → s.mapZero k = false → max (s.fld (PHP_SHED_NMIN k)) (max 1 (s.readyWant k)) < s.nrun k → s.php[k].cmds.length =
    64 → 4 * (s.php[k].cmds.sum / 64) < s.fld (PHP_MAP_SHED k (s.nact k)) → s.addWant k ≤ s.nrun k → s.hottest (finsWhere
    (s.phRun k)) = some n → Gives (.phaseShed k) s (fun t => t.phSt n = .shedding ∧ Counted s t (PHP_CNT_SHEDS k))) ∧
  (∀ (n : Fin 16) (k : Fin 2) (s : State), s.portOf n = some k → s.phSt n = .waking → Gives (.phaseWakeDone n) s (fun t =>
    t.phSt n = .run ∧ t.ph[n].susp = 17 ∧ t.ph[n].mode = s.modeOf k ∧ t.ph[n].en = true)) ∧
  (∀ (n : Fin 16) (s : State), s.phSt n = .shedding → Gives (.phaseShedDone n) s (fun t => (t.phSt n = if s.sys.testPhase =
    some n then .test else s.restPh n) ∧ t.ph[n].en = false ∧ t.ph[n].pwmb = .low ∧ t.ph[n].pwmk = .low))

/-- SLOW_OVERLOAD with the mean of the phase's samples over 10 ms above ILIMS times OVLD latches a switching phase in OCL with
cause 9, sets SLOW, counts OCLCNT and raises PH_OCL; OCL_COOL_END with OCAUTO takes a phase that is not held back to rest
with no cause. TRIP_MISMATCH with a reported state other than the wire's, and PHASE_LOSS of a switching phase whose cause
R141 shows, mark it LOST with their cause, set LOST and raise TRIP_MISMATCH or PHASE_LOST. LEG_PROBE of a PENDING leg above
4.5 V that trips within 20 ns makes the phase SHORTED and raises PHASE_SHORTED; a good one is noted as passed. SYNC_LOST of
a locked PLL returns it to REF: SYNCLOCK clears, SYNC_LOST sets and is raised. SYNC_RELOCK, enabled and with a derived
PERIOD in its range, locks it to SYNC_IN. BUSOV_UPDATE with OVEN and a port in DIS enables the OR on the trip wires at OVMV
above the hold-up reference where a port is in HOLDUP, else above the mean BUS voltage; with no port in DIS the OR is off.

Rules: R20, R69, R129, R132, R138, R140, R142. The model’s own choices and readings that bear on these commands: log entries
116, 125, 126, 148. -/
def Obligations.PhaseLatchesAndSync : Prop :=
  (∀ (n : Fin 16) (k : Fin 2) (s : State), s.portOf n = some k → s.phSwitching n = true → s.ilims n * s.fld (PHP_LIM_OVLD k) /
    100 < s.iavg n → Gives (.slowOverload n) s (fun t => t.phSt n = .ocl ∧ t.fld (PH_STAT_CAUSE n) = 9 ∧ t.on (PH_EVT_SLOW
    n) = true ∧ Counted s t (PH_CNT_OCLCNT n) ∧ Raised t srcPH_OCL n.val)) ∧
  (∀ (n : Fin 16) (s : State), s.phSt n = .ocl → s.on (PH_CFG_OCAUTO n) = true → s.ph[n].oclStuck = false → Gives (.oclCoolEnd
    n) s (fun t => t.phSt n = s.restPh n ∧ t.fld (PH_STAT_CAUSE n) = 0)) ∧
  (∀ (n : Fin 16) (b : Bool) (s : State), b ≠ s.ph[n].trip → s.phSt n ∉ [.unassigned, .shorted, .lost] → Gives (.tripMismatch
    n b) s (fun t => t.phSt n = .lost ∧ t.fld (PH_STAT_CAUSE n) = 6 ∧ t.on (PH_EVT_LOST n) = true ∧ Raised t
    srcTRIP_MISMATCH n.val)) ∧
  (∀ (n : Fin 16) (c : Fin 4) (w : Nat) (k : Fin 2) (s : State), s.phSwitching n = true → s.portOf n = some k → ((c = 0 → 64 ≤
    s.ph[n].openN) ∧ (c = 1 → s.ph[n].susp = 0 ∧ s.ph[n].blend = 0 ∧ 4 * s.tsw k * 1000 ≤ w) ∧ (c = 2 → 4 ≤ s.ph[n].stuckN)
    ∧ (c = 3 → 500 ≤ w ∧ s.cmpHeld (29 + n) true = false)) → Gives (.phaseLoss n c w) s (fun t => t.phSt n = .lost ∧ t.fld
    (PH_STAT_CAUSE n) = c.val + 1 ∧ t.on (PH_EVT_LOST n) = true ∧ Raised t srcPHASE_LOST n.val)) ∧
  (∀ (n : Fin 16) (b : Bool) (p : LegPulse) (s : State), 45 / 10 < p.v → ((s.probeTrip n p).any (fun x => decide (x ≤ 20)) =
    true) → ((if b then s.ph[n].legK else s.ph[n].legB) = .pending) → Gives (.legProbe n b p) s (fun t => t.phSt n =
    .shorted ∧ ((if b then t.ph[n].legK else t.ph[n].legB) = .shorted) ∧ Raised t srcPHASE_SHORTED n.val)) ∧
  (∀ (n : Fin 16) (b : Bool) (p : LegPulse) (s : State), 45 / 10 < p.v → ((s.probeTrip n p).any (fun x => decide (x ≤ 20)) =
    false) → ((if b then s.ph[n].legK else s.ph[n].legB) = .pending) → Gives (.legProbe n b p) s (fun t => ((if b then
    t.ph[n].legK else t.ph[n].legB) = .pass) ∧ (s.phSt n = .pending → t.phSt n = t.restPh n))) ∧
  (∀ (s : State), s.phg.pllSync = true → Gives (.syncLost) s (fun t => t.phg.pllSync = false ∧ t.on PH_GSTAT_SYNCLOCK = false
    ∧ t.on PH_GSTAT_SYNC_LOST = true ∧ Raised t srcSYNC_LOST 0)) ∧
  (∀ (s : State), s.on PH_SYNC_EN = true → 10667 ≤ s.syncPeriod → s.syncPeriod ≤ 128000 → Gives (.syncRelock) s (fun t =>
    t.phg.pllSync = true ∧ t.on PH_GSTAT_SYNCLOCK = true)) ∧
  (∀ (s : State), s.on PH_BUSOV_OVEN = true → (s.dir 0 = .dis ∨ s.dir 1 = .dis) → Gives (.busovUpdate) s (fun t =>
    t.phg.busovOr = true ∧ (t.phg.busov = (if s.role 0 = .holdup ∨ s.role 1 = .holdup then (s.fld PH_VREF_VREF : Rat) /
    10000 else s.phg.vbus) + (s.fld PH_BUSOV_OVMV : Rat) / 50))) ∧
  (∀ (s : State), s.dir 0 ≠ .dis → s.dir 1 ≠ .dis → Gives (.busovUpdate) s (fun t => t.phg.busovOr = false))

/-- PHASE_MAP naming populated phases and codes 0 to 2, none of which has to stop first, maps each named phase to its code and
completes OK. PHASE_MAP_DRAIN_DONE with no draining phase switching applies the waiting map. SET_VTARGET in range and
outside hand-back writes PH_VHOLD and the target, and runs until the reference stands there. VHOLD_REF_UPDATE moves the
reference by SLEW toward its target and not past it. A PH_VHOLD write that is served sets the target the register then holds
and supersedes a running SET_VTARGET.

Rules: R130, R144, R145, R288, R289. The model’s own choices and readings that bear on these commands: log entries 12, 29,
31, 48, 49, 51, 52, 53, 149. -/
def Obligations.PhaseMapAndVhold : Prop :=
  (∀ (d : Desc) (e : Desc) (s : State), s.adminReady → d.withOpc 12 = e → s.phg.map = none → (∀ n : Fin 16, e.mapSel n = true
    → n.val < s.fld SYS_STRAP_PHCNT ∧ e.mapCode n ≠ 3 ∧ s.phSwitching n = false) → Gives (.phaseMap d) s (fun t => (∀ n :
    Fin 16, e.mapSel n = true → t.fld (PH_CFG_PORT n) = e.mapCode n ∧ t.fld ⟨PH_PMAP, 2 * n.val + 1, 2 * n.val⟩ = e.mapCode
    n) ∧ Completed t 0 e 0 0 (t.word PH_PMAP).toNat)) ∧
  (∀ (d : Desc) (s : State), s.phg.map = some d → (∀ n : Fin 16, s.ph[n].drain = true → s.phSwitching n = false) → Gives
    (.phaseMapDrainDone) s (fun t => t.phg.map = none ∧ (∀ n : Fin 16, d.mapSel n = true → t.fld (PH_CFG_PORT n) = d.mapCode
    n) ∧ (∀ n : Fin 16, t.ph[n].drain = false))) ∧
  (∀ (d : Desc) (e : Desc) (s : State), s.adminReady → d.withOpc 8 = e → 1000 ≤ e.vtgt → e.vtgt ≤ 6000 → 1 ≤ e.slew → e.slew ≤
    100 → s.on CHG_GSTAT_HBRUN = false → Gives (.setVtarget d) s (fun t => t.fld PH_VHOLD_VTGT = e.vtgt ∧ t.fld
    PH_VHOLD_SLEW = e.slew ∧ t.phg.target = 100 * e.vtgt ∧ t.phg.slew = e.slew ∧ (s.fld PH_VREF_VREF ≠ 100 * e.vtgt →
    t.phg.vt = some e))) ∧
  (∀ (s : State), s.phg.target < 2 ^ 20 → Gives (.vholdRefUpdate) s (fun t => (t.fld PH_VREF_VREF = if s.fld PH_VREF_VREF <
    s.phg.target then min s.phg.target (s.fld PH_VREF_VREF + s.phg.slew) else max s.phg.target (s.fld PH_VREF_VREF -
    s.phg.slew)) ∧ t.phg.target = s.phg.target)) ∧
  (∀ (o : Origin) (v : Word) (s : State), s.serves o → s.on SYS_MAINT_MAINT = true → s.present = true → s.stalled = false →
    s.on CHG_GSTAT_HBRUN = false → Gives (.phVholdWrite o v) s (fun t => t.phg.target = 100 * t.fld PH_VHOLD_VTGT ∧
    t.phg.slew = t.fld PH_VHOLD_SLEW ∧ t.phg.vt = none ∧ (1000 ≤ PH_VHOLD_VTGT.extract v → PH_VHOLD_VTGT.extract v ≤ 6000 →
    t.fld PH_VHOLD_VTGT = PH_VHOLD_VTGT.extract v)))

/-- FEED_LIMIT_UPDATE in RUN with a feed integrates PFL from the feed excess within 0 and charge plus Gust, gives Gust what lies
above the charge power within GALLOW, and releases NEAR. CHARGE_COMMAND_UPDATE shares the allowed charge power over the
claims, reports whether a Sounding result is in use, and gives a port in CHARGE the lower of its target and its power limit
where it may charge and is not paused, else 0, and gives a port in GUST no power while it is ejected or nothing feeds the
bus, less by GRAMP / 10 W where its share is to fall. CHARGE_LOOP_UPDATE, on the mean of the pack's samples since the last,
of a port in CC or PRECHARGE below its full voltage moves ITGT to the least limit, rising by at most 1 C / 400,000 a step;
at the full voltage CC goes to CV and a Sounding run ends, paused or not.

Rules: R151, R152, R158, R159, R182. The model’s own choices and readings that bear on these commands: log entries 73, 119,
128, 131, 132, 136, 150. -/
def Obligations.FeedLimitAndCommand : Prop :=
  (∀ (s : State), s.lostFeeds = false → s.running = true → Gives (.feedLimitUpdate) s (fun t => t.chgg.pfl = clampR
    (s.chgg.pfl + (s.fld CHG_FL_KFL : Rat) / 16 * s.pex) 0 (s.pchgy + min (s.fld CHG_GALLOW_GALLOW : Rat) s.sumPgmax) ∧
    t.chgg.pg = min (max 0 (t.chgg.pfl - s.pchgy)) (min (s.fld CHG_GALLOW_GALLOW : Rat) s.sumPgmax) ∧ (∀ k : Fin 2,
    t.chg[k].held = false))) ∧
  (∀ (k : Fin 2) (p : Profile) (s : State), s.role k = .charge → s.prof k = some p → s.chg[k].held = false → s.chg[k].snd =
    none → Gives (.chargeCommandUpdate) s (fun t => t.role k = .charge ∧ t.on (CHG_ZINFO_CRESTUSE k) = (t.zcell k p).1 ∧
    t.chg[k].allowed = divR (max 0 (t.pchgy - t.chgg.pfl) * t.pchgyOf k) t.pchgy ∧ (t.php[k].cmd = if t.mayCharge k = true ∧
    t.on (CHG_STAT_PAUSED k) = false then min (divR t.chg[k].itgt (t.kout k)) (divR (min (10 * s.fld (CHG_LIM_PCHGMAX k))
    t.chg[k].allowed) (t.phg.vbus * t.kin k)) else 0))) ∧
  (∀ (k : Fin 2) (s : State), s.role k = .gust → Gives (.chargeCommandUpdate) s (fun t => (t.chg[k].gshare = if s.eject = true
    ∨ s.busFed = false then 0 else if s.chg[k].gdrop = true then max 0 (s.chg[k].gshare - (orZero 1 (s.fld CHG_FL_GRAMP) :
    Rat) / 10) else s.chg[k].gshare))) ∧
  (∀ (k : Fin 2) (p : Profile) (x : Rat) (s : State), s.prof k = some p → meanOr s.meas.v[Fin.ofNat 48 (13 + k)]
    s.meas.pack[k] = x → (s.role k = .charge ∨ s.role k = .drizzle) → (s.stage k = .precharge ∨ s.stage k = .cc) → s.on
    (CHG_STAT_PAUSED k) = false → s.chg[k].snd = none → x < p.packV (s.vcvNow k p) → Gives (.chargeLoopUpdate k) s (fun t =>
    (t.chg[k].itgt = if (leastTerm (s.chgTerms k p)).2 ≤ s.chg[k].itgt then (leastTerm (s.chgTerms k p)).2 else min
    (leastTerm (s.chgTerms k p)).2 (s.chg[k].itgt + p.oneC / 400000)) ∧ t.chg[k].vpack = x)) ∧
  (∀ (k : Fin 2) (p : Profile) (x : Rat) (s : State), s.prof k = some p → meanOr s.meas.v[Fin.ofNat 48 (13 + k)]
    s.meas.pack[k] = x → s.safeState = false → s.role k = .charge → s.stage k = .cc → p.packV (s.vcvNow k p) ≤ x → Gives
    (.chargeLoopUpdate k) s (fun t => t.stage k = .cv ∧ t.chg[k].snd = none))

/-- Outside the safe state, which freezes them: CHG_QUALIFY_END of a port that neither gives Gust nor holds up, on the 100 ms
mean per cell: REST out of temperature, else PRECHARGE below VQUAL, CC below VRECHG, MAINTAIN above. CHG_PRECHARGE_EXIT
after 1 s at or above VQUAL: CC. CHG_STAGE_TIMEOUT past the stage's limit: FAULT with its flag and its fault raised from
PRECHARGE, CC, CREST and CV, MAINTAIN from TOPOFF. CHG_DWELL_EXPIRE with the 10 s of the stage complete: CC from CREST,
TOPOFF from CV, MAINTAIN from TOPOFF; CC from MAINTAIN in role NONE. CHG_TEMP_OUT after 1 s out of range: REST. CHG_REST_END
past TREST: QUALIFY in temperature with no Sounding. These times are read as counts of the samples that judge them, log
entries 136 and 76. Outside the safe state: CHG_FAULT_CLEAR, served and with EN set in the written word, takes a port in
FAULT to QUALIFY. CREST_UPDATE in CC or CREST sets the plating boundary current to the lower of the rate and the
polarisation bound, none where it is at or above ICC, and takes CC to CREST below it. CHG_STARVE of a port paused for STARVE
minutes, not 0, sets the STARVE flag.

Rules: R155, R162, R164, R170, R173. The model’s own choices and readings that bear on these commands: log entries 12, 48,
49, 51, 52, 53, 74, 80, 136. -/
def Obligations.ChargeStagesAndPortEvents : Prop :=
  (∀ (k : Fin 2) (p : Profile) (x : Rat) (s : State), s.prof k = some p → s.safeState = false → s.chg[k].vcell = some x →
    s.stage k = .qualify → s.role k ≠ .gust → s.role k ≠ .holdup → Gives (.chgQualifyEnd k) s (fun t => (t.stage k = if
    s.tempIn k = false then .rest else if x * 10000 < p.vqual then .precharge else if x * 10000 < s.vrechgNow k p then .cc
    else .maintain))) ∧
  (∀ (k : Fin 2) (s : State), s.safeState = false → s.stage k = .precharge → 10 ≤ s.chg[k].qualN → Gives (.chgPrechargeExit k)
    s (fun t => t.stage k = .cc)) ∧
  (∀ (k : Fin 2) (s : State), s.safeState = false → s.stage k = .precharge → s.stageOver k = true → Gives (.chgStageTimeout k)
    s (fun t => t.stage k = .fault ∧ t.on (CHG_EVT_PRETO k) = true ∧ Raised t srcCHG_PRE_TIMEOUT k.val)) ∧
  (∀ (k : Fin 2) (s : State), s.safeState = false → s.stage k = .cc → s.stageOver k = true → Gives (.chgStageTimeout k) s (fun
    t => t.stage k = .fault ∧ t.on (CHG_EVT_CCTO k) = true ∧ Raised t srcCHG_CC_TIMEOUT k.val)) ∧
  (∀ (k : Fin 2) (s : State), s.safeState = false → s.stage k = .crest → s.stageOver k = true → Gives (.chgStageTimeout k) s
    (fun t => t.stage k = .fault ∧ t.on (CHG_EVT_CCTO k) = true ∧ Raised t srcCHG_CC_TIMEOUT k.val)) ∧
  (∀ (k : Fin 2) (s : State), s.safeState = false → s.stage k = .cv → s.stageOver k = true → Gives (.chgStageTimeout k) s (fun
    t => t.stage k = .fault ∧ t.on (CHG_EVT_CVTO k) = true ∧ Raised t srcCHG_CV_TIMEOUT k.val)) ∧
  (∀ (k : Fin 2) (s : State), s.safeState = false → s.stage k = .topoff → s.stageOver k = true → Gives (.chgStageTimeout k) s
    (fun t => t.stage k = .maintain)) ∧
  (∀ (k : Fin 2) (s : State), s.safeState = false → s.stage k = .crest → s.chg[k].crestN = 100 → Gives (.chgDwellExpire k) s
    (fun t => t.stage k = .cc)) ∧
  (∀ (k : Fin 2) (s : State), s.safeState = false → s.chg[k].dwellN = 40000 → s.stage k = .cv → Gives (.chgDwellExpire k) s
    (fun t => t.stage k = .topoff)) ∧
  (∀ (k : Fin 2) (s : State), s.safeState = false → s.chg[k].dwellN = 40000 → s.stage k = .topoff → Gives (.chgDwellExpire k)
    s (fun t => t.stage k = .maintain)) ∧
  (∀ (k : Fin 2) (s : State), s.safeState = false → s.chg[k].dwellN = 40000 → s.role k = .none → s.stage k = .maintain → Gives
    (.chgDwellExpire k) s (fun t => t.stage k = .cc)) ∧
  (∀ (k : Fin 2) (s : State), s.safeState = false → 1000 ≤ s.chg[k].tempN → s.stage k ∈ [.precharge, .cc, .crest, .cv,
    .topoff, .maintain] → Gives (.chgTempOut k) s (fun t => t.stage k = .rest ∧ t.on (CHG_EVT_TEMP k) = true)) ∧
  (∀ (k : Fin 2) (s : State), s.safeState = false → s.stage k = .rest → s.restOver k = true → s.role k = .none → s.tempIn k =
    true → s.chg[k].snd = none → Gives (.chgRestEnd k) s (fun t => t.stage k = .qualify)) ∧
  (∀ (k : Fin 2) (s : State), s.safeState = false → s.stage k = .rest → s.restOver k = true → (s.role k = .none ∨ s.role k =
    .charge) → s.tempIn k = false → Gives (.chgRestEnd k) s (fun t => t.chg[k].restDue = true ∧ t.stage k = .rest)) ∧
  (∀ (k : Fin 2) (o : Origin) (v : Word) (s : State), s.serves o → s.on SYS_MAINT_MAINT = true → s.present = true → s.stalled
    = false → s.safeState = false → s.stage k = .fault → v.getLsbD 0 = true → Gives (.chgFaultClear k o v) s (fun t =>
    t.stage k = .qualify)) ∧
  (∀ (k : Fin 2) (p : Profile) (x : Int) (s : State), s.safeState = false → s.prof k = some p → s.packT k = some x → (s.stage
    k = .cc ∨ s.stage k = .crest) → 0 < (s.zcell k p).2.1 * p.ktAt x / p.ktAt (s.zcell k p).2.2 → Gives (.crestUpdate) s
    (fun t => (t.chg[k].ipb = (let i := min (p.table2 p.imax x (s.soc k) * p.cap / 10000) (p.table2 p.dvlim x (s.soc k) *
    100 / ((s.zcell k p).2.1 * p.ktAt x / p.ktAt (s.zcell k p).2.2)); if s.iccNow k p ≤ i then none else some i)) ∧ (s.stage
    k = .cc → t.chg[k].ipb ≠ none → t.stage k = .crest) ∧ (s.stage k = .cc → t.chg[k].crestN = 0))) ∧
  (∀ (k : Fin 2) (s : State), s.on (CHG_STAT_PAUSED k) = true → s.on CHG_FL_STARVE = true → s.fld CHG_FL_STARVE ≤ s.fld
    (CHG_TIME_TPAUSE k) → Gives (.chgStarve k) s (fun t => t.on (CHG_EVT_STARVE k) = true))

/-- SET_PROFILE with PLEN 0x160 and an aligned address asks for its block. PROFILE_READ_DONE with Bus Master Enable set, of a
valid block, with the presence window open and no stall refusal, puts it in force, PROFOK with its chemistry and cell count,
and completes OK. PROFILE_STAGED_LOAD, served, does the same for the staging area with RESULT 1. SOUNDING of a port in CC,
CREST or REST with a feed ON starts a run. SOUNDING_WINDOW_END with a cleaned current other than 0 writes ZRE from its sums,
marks it valid and ends the run.

Rules: R164, R166, R168, R185, R187, R188. The model’s own choices and readings that bear on these commands: log entries 12,
28, 29, 31, 46, 48, 49, 51, 52, 53, 73, 74, 77, 80, 127. -/
def Obligations.ProfilesAndSounding : Prop :=
  (∀ (d : Desc) (e : Desc) (s : State), s.adminReady → d.withOpc 3 = e → e.plen = 0x160 → e.paddr % 64 = 0 → Gives
    (.setProfile d) s (fun t => t.chg[e.profPort].load = s.chg[e.profPort].load ++ [e])) ∧
  (∀ (k : Fin 2) (p : Profile) (d : Desc) (l : List Desc) (s : State), s.on HIF_LNK_BME = true → s.chg[k].load = d :: l →
    p.crcOk = true → p.valid = true → s.present = true → s.stalled = false → Gives (.profileReadDone k p) s (fun t =>
    t.chg[k].prof = some p ∧ t.chg[k].load = l ∧ t.on (CHG_STAT_PROFOK k) = true ∧ t.fld (CHG_STAT_CHEM k) = p.chem ∧ t.fld
    (CHG_STAT_NCELL k) = p.ncell ∧ (s.ring[(0 : Fin 64)].started.contains d = true → s.ringSt 0 = 1 → d ∉ s.hif.lost →
    s.chg[k].snd.all (fun r => r.d != d) = true → Completed t 0 d 0 0 0))) ∧
  (∀ (o : Origin) (v : Word) (s : State), s.serves o → s.on SYS_MAINT_MAINT = true → s.present = true → s.stalled = false →
    s.staged.crcOk = true → s.staged.valid = true → Gives (.profileStagedLoad o v) s (fun t => (t.chg[(if v.getLsbD 1 then 1
    else 0 : Fin 2)].prof = some s.staged) ∧ t.fld CHG_PLOAD_RESULT = 1)) ∧
  (∀ (d : Desc) (e : Desc) (s : State), s.adminReady → d.withOpc 11 = e → 10 ≤ e.sndFreq → e.sndFreq ≤ 200000 → e.sndNset ≠ 0
    → e.sndNmeas ≠ 0 → (s.stage e.sndPort = .cc ∨ s.stage e.sndPort = .crest ∨ s.stage e.sndPort = .rest) → (s.role
    e.sndPort = .charge ∨ s.role e.sndPort = .none) → s.feedOn = true → s.prof e.sndPort ≠ none → Gives (.sounding d) s (fun
    t => (t.chg[e.sndPort].snd.map (fun r => r.d) = some e) ∧ t.fld (CHG_ZINFO_SSTATE e.sndPort) = 1)) ∧
  (∀ (k : Fin 2) (r : Sounding) (l : LockIn) (i : Rat × Rat) (v : Rat × Rat) (s : State), s.chg[k].snd = some r → r.complete =
    true → r.sums = l → cleanSums l l.si l.ci l.i0 l.i1 = i → cleanSums l l.sv l.cv l.v0 l.v1 = v → i.1 * i.1 + i.2 * i.2 ≠
    0 → Gives (.soundingWindowEnd k) s (fun t => t.chg[k].snd = none ∧ t.on (CHG_ZINFO_ZVALID k) = true ∧ t.fld
    (CHG_ZINFO_SSTATE k) = 0 ∧ t.fld (CHG_ZFREQ_FREQ k) = Desc.sndFreq r.d % 2 ^ 18 ∧ t.sfld (CHG_ZRE_Z k) = max (-(2 ^ 31))
    (min (2 ^ 31 - 1) ((v.1 * i.1 + v.2 * i.2) / (i.1 * i.1 + i.2 * i.2) * 1000000000).floor)))

/-- HOLDUP_LOOP_UPDATE past its preset sets IHU to the proportional and integral sum held between 0 and what the ports with a
running phase can give. HULOW_ASSERT after 20 µs during hold-up asserts every throttle pin, and HULOW_RELEASE after 1 ms
takes its assertion back. HOLDUP_CUT of a port whose pack has stayed below its cut voltage for 1 ms sets HUCUT and lets its
share fall to 0 over 1 ms; with no share it leaves HOLDUP at once. HOLDUP_END_STOP with FEEDS_LOST and no port in HOLDUP
begins the extraction stop: the ports open, and with no LIFE record to write its journal entry follows. GUST_HOLD_END of a
port in GUST with no share for GHOLD and no new profile gives it the role of its stage.

Rules: R108, R176, R178, R179, R183. The model’s own choices and readings that bear on these commands: log entries 63, 65,
69, 107. -/
def Obligations.HoldUpAndGust : Prop :=
  (∀ (x : Rat) (s : State), (s.role 0 = .holdup ∨ s.role 1 = .holdup) → s.chgg.preset = false → (∀ k : Fin 2, s.chg[k].cut =
    none) → s.meas.v[12] = x → Gives (.holdupLoopUpdate) s (fun t => (t.chgg.ihu = clampR (s.chgg.int + (orZero 1 (s.fld
    CHG_HU_KP) : Rat) * ((s.fld PH_VREF_VREF : Rat) / 10000 - x)) 0 ((finsWhere s.holdsUp).foldl (fun a k => a + s.ipl k *
    s.kout k) 0)) ∧ (t.chgg.int = if 0 < t.chgg.ihu ∧ t.chgg.ihu < (finsWhere s.holdsUp).foldl (fun a k => a + s.ipl k *
    s.kout k) 0 then s.chgg.int + (s.fld CHG_HU_KI : Rat) * ((s.fld PH_VREF_VREF : Rat) / 10000 - x) / 1000 else
    s.chgg.int))) ∧
  (∀ (s : State), s.on CHG_GSTAT_HURUN = true → 20 ≤ s.chgg.lowN → Gives (.hulowAssert) s (fun t => t.chgg.hulow = true ∧ t.on
    CHG_GSTAT_HULOWACT = true ∧ t.fld FC_THR_STATE = 0xFF ∧ (∀ k : Fin 2, s.role k = .holdup → t.on (CHG_EVT_HULOW k) =
    true))) ∧
  (∀ (s : State), 1000 ≤ s.chgg.highN → Gives (.hulowRelease) s (fun t => t.chgg.hulow = false ∧ t.on CHG_GSTAT_HULOWACT =
    false ∧ (s.running = true → s.on FEED_GSTAT_EXSTOP = false → t.fld FC_THR_STATE = s.fcPins.toNat))) ∧
  (∀ (k : Fin 2) (s : State), s.role k = .holdup → 100 ≤ s.chg[k].cutN → s.chg[k].cut = none → Gives (.holdupCut k) s (fun t
    => t.on (CHG_EVT_HUCUT k) = true ∧ (s.chg[k].hshare = 0 → t.role k = .none) ∧ (s.chg[k].hshare ≠ 0 → t.role k = .holdup
    ∧ t.chg[k].cut = some (s.chg[k].hshare / 1000)))) ∧
  (∀ (s : State), s.lostFeeds = true → s.role 0 ≠ .holdup → s.role 1 ≠ .holdup → s.sys.doldrums = false → s.on
    FEED_GSTAT_EXSTOP = false → s.sys.seq = none → Gives (.holdupEndStop) s (fun t => t.on FEED_GSTAT_EXSTOP = true ∧
    (s.lifeWaits 0 = false → s.lifeWaits 1 = false → s.jnl.queue.length < t.jnl.queue.length) ∧ (s.lifeWaits 0 = true →
    t.sys.seq.isSome = true) ∧ (∀ k : Fin 2, t.on (PK_STAT_CHGON k) = false ∧ t.on (PK_STAT_DSGON k) = false ∧ t.role k =
    .none))) ∧
  (∀ (k : Fin 2) (s : State), s.role k = .gust → s.chg[k].gshare = 0 → 1000 * orZero 1 (s.fld (CHG_GUST_GHOLD k)) ≤
    s.chg[k].gzero → s.chg[k].requal = false → Gives (.gustHoldEnd k) s (fun t => t.role k = stageRole (s.stage k) ∧ t.stage
    k = s.stage k))

/-- PACK_INSERTED into an EMPTY port after start-up takes it to IDENT with PRES. PACK_REMOVED empties the port: PRES and both
gates clear, the charger OFF, REM sets. PACK_IDENT_DONE in IDENT takes a port that may carry transactions to OPEN: a good
read gives the pack ID and the identity; one that failed, or any on a held port, raises PACK_BUS with SOC at its default of
50 %. AON_TICK reports the sentinels, counts the age of a pack that the island knows of, and in Doldrums counts the cycles
of the AON clock and the ticks of each sentinel. PACK_CLOSE_START with the close conditions and 4.5 V or more takes the port
to CLOSING with the charge gate on and the discharge gate off. PACK_CLOSE_DONE takes CLOSING to CLOSED with the charge gate
on, and the discharge gate too above UVH outside PRECHARGE. PACK_CLOSE_TIMEOUT opens both, sets CLOSEF and raises
PACK_CLOSE. PACK_DSG_RECLOSE closes a reopened discharge FET outside PRECHARGE where the pack has stayed above 1.01 UVH for
1 s.

Rules: R190, R192, R193, R194, R200, R208, R329. The model’s own choices and readings that bear on these commands: log
entries 14, 65, 68, 76, 80, 81, 102, 118. -/
def Obligations.PackPresenceAndClosing : Prop :=
  (∀ (k : Fin 2) (s : State), s.pkSt k = .empty → s.awake = true → s.fld SYS_STATE_STEP = 12 → Gives (.packInserted k) s (fun
    t => t.pkSt k = .ident ∧ t.packIn k = true)) ∧
  (∀ (k : Fin 2) (s : State), s.pkSt k ≠ .empty → s.awake = true → Gives (.packRemoved k) s (fun t => t.pkSt k = .empty ∧
    t.packIn k = false ∧ t.on (PK_STAT_CHGON k) = false ∧ t.on (PK_STAT_DSGON k) = false ∧ t.stage k = .off ∧ t.role k =
    .none ∧ t.pk[k].ident = none ∧ t.on (PK_EVT_REM k) = true)) ∧
  (∀ (k : Fin 2) (i : Ident) (s : State), s.pkSt k = .ident → s.pkReady k = true → s.on (TW_PK_STAT_HELD k) = false → Gives
    (.packIdentDone k (some i)) s (fun t => t.pkSt k = .open ∧ t.pk[k].ident = some i ∧ t.pk[k].read = true ∧ (∀ j : Fin 4,
    t.word (PK_ID k j.val) = BitVec.ofNat 32 (i.id.toNat / 2 ^ (32 * j.val))))) ∧
  (∀ (k : Fin 2) (r : Option Ident) (s : State), s.pkSt k = .ident → s.pkReady k = true → (r = none ∨ s.on (TW_PK_STAT_HELD k)
    = true) → Gives (.packIdentDone k r) s (fun t => t.pkSt k = .open ∧ t.pk[k].read = true ∧ t.fld (PK_STAT_SOC k) = 5000 ∧
    t.fld (PK_STAT_SOCSRC k) = 2 ∧ Raised t srcPACK_BUS k.val)) ∧
  (∀ (k : Fin 2) (x : Vector Rat 4) (y : Vector Rat 2) (b : Bool) (c : BitVec 2) (s : State), s.aon.present[k] = true →
    s.aon.age[k].1 + 1 < 86400000 → Gives (.aonTick x y b c) s (fun t => t.fld CMP_SENT_S = (s.sentinels x y).toNat ∧ t.on
    CMP_SENT_VALID = true ∧ t.aon.age[k] = (s.aon.age[k].1 + 1, s.aon.age[k].2) ∧ (s.sys.doldrums = true → t.aon.tick =
    s.aon.tick + 1 ∧ t.aon.cycles = s.aon.cycles + BitVec.ofNat 48 (4096 * (s.aon.tick.val + 1) / 125 - 4096 *
    s.aon.tick.val / 125) ∧ ∀ i : Fin 4, t.aon.sent[i] = if (s.sentinels x y).getLsbD i.val then s.aon.sent[i] + 1 else 0))) ∧
  (∀ (k : Fin 2) (s : State), s.mayClose k = true → 9 / 2 ≤ s.pk[k].v → Gives (.packCloseStart k) s (fun t => t.pkSt k =
    .closing ∧ t.on (PK_STAT_CHGON k) = true ∧ t.on (PK_STAT_DSGON k) = false)) ∧
  (∀ (k : Fin 2) (s : State), s.pkSt k = .closing → Gives (.packCloseDone k) s (fun t => t.pkSt k = .closed ∧ t.on
    (PK_STAT_CHGON k) = true ∧ (s.uvh k < s.pk[k].v → s.stage k ≠ .precharge → t.on (PK_STAT_DSGON k) = true))) ∧
  (∀ (k : Fin 2) (s : State), s.pkSt k = .closing → Gives (.packCloseTimeout k) s (fun t => t.pkSt k = .open ∧ t.on
    (PK_STAT_CHGON k) = false ∧ t.on (PK_STAT_DSGON k) = false ∧ t.on (PK_EVT_CLOSEF k) = true ∧ Raised t srcPACK_CLOSE
    k.val)) ∧
  (∀ (k : Fin 2) (s : State), s.pkSt k = .closed → s.pk[k].reopened = true → s.stage k ≠ .precharge → 100000 ≤ s.pk[k].aboveN
    → s.pk[k].uvOff = false → Gives (.packDsgReclose k) s (fun t => t.on (PK_STAT_DSGON k) = true ∧ t.pk[k].reopened = false
    ∧ t.on (PK_STAT_CHGON k) = s.on (PK_STAT_CHGON k)))

/-- In CLOSED: PACK_SHORT_CIRCUIT turns both gates off and trips the port, the third within 10 s latching it;
PACK_CHARGE_OVERCURRENT turns the charge gate off and trips it; PACK_OV turns a closed charge gate off and PACK_UV a closed
discharge gate, the port staying CLOSED; PACK_OVERTEMP after 1 s at THARD turns both off and trips it. A timer that blanks
their comparator holds OV and UV back. Each sets its flag and raises its fault; a short circuit that EVFILT keeps from the
report opens the gates and sets no flag. PACK_TRIP_RETRY: a port in TRIPPED for a short circuit or an over-current 100 ms
ago or more, or for an over-temperature after 60 s below THARD less 5 °C, its pack present in RUN and no boost leg shorted,
goes to CLOSING, or sets DEAD and stays where the pack is below 4.5 V; an OV with 1 s below 99 % of OVH lets the charge gate
of a CLOSED port close again, and a UV with 1 s above 1.01 UVH its discharge gate outside PRECHARGE. PACK_LATCH_CLEAR,
served, takes a LATCHED port to OPEN.

Rules: R179, R192, R194, R196, R324, R326. The model’s own choices and readings that bear on these commands: log entries 12,
48, 49, 51, 52, 53, 65, 71, 116. -/
def Obligations.PackTripsAndRetries : Prop :=
  (∀ (k : Fin 2) (w : Nat) (s : State), s.pkSt k = .closed → s.cmpHeld (24 + k) false = false → s.heard (24 + k) w = true →
    Gives (.packShortCircuit k w) s (fun t => (t.pkSt k = if 2 ≤ (s.pk[k].scAt.filter (fun x => decide ((s.devtime -
    x).toNat < 1000000000))).length then .latched else .tripped) ∧ t.on (PK_STAT_CHGON k) = false ∧ t.on (PK_STAT_DSGON k) =
    false ∧ t.on (PK_EVT_SC k) = true ∧ Raised t srcPACK_SC k.val)) ∧
  (∀ (k : Fin 2) (w : Nat) (s : State), s.pkSt k = .closed → s.heard (24 + k) w = false → Gives (.packShortCircuit k w) s (fun
    t => t.on (PK_STAT_CHGON k) = false ∧ t.on (PK_STAT_DSGON k) = false ∧ t.on (PK_EVT_SC k) = s.on (PK_EVT_SC k))) ∧
  (∀ (k : Fin 2) (w : Nat) (s : State), s.pkSt k = .closed → s.cmpHeld (24 + k) true = false → s.heard (24 + k) w = true →
    Gives (.packChargeOvercurrent k w) s (fun t => t.pkSt k = .tripped ∧ t.on (PK_STAT_CHGON k) = false ∧ t.on
    (PK_STAT_DSGON k) = s.on (PK_STAT_DSGON k) ∧ t.on (PK_EVT_OCC k) = true ∧ Raised t srcPACK_OCC k.val)) ∧
  (∀ (k : Fin 2) (w : Nat) (s : State), s.pkSt k = .closed → s.cmpHeld (26 + k) true = false → s.heard (26 + k) w = true →
    s.on (PK_STAT_CHGON k) = true → Gives (.packOv k w) s (fun t => t.pkSt k = .closed ∧ t.on (PK_STAT_CHGON k) = false ∧
    t.on (PK_STAT_DSGON k) = s.on (PK_STAT_DSGON k) ∧ t.pk[k].ovOff = true ∧ t.on (PK_EVT_OV k) = true ∧ Raised t srcPACK_OV
    k.val)) ∧
  (∀ (k : Fin 2) (w : Nat) (s : State), s.pkSt k = .closed → s.cmpHeld (26 + k) false = false → s.heard (26 + k) w = true →
    s.on (PK_STAT_DSGON k) = true → Gives (.packUv k w) s (fun t => t.pkSt k = .closed ∧ t.on (PK_STAT_DSGON k) = false ∧
    t.on (PK_STAT_CHGON k) = s.on (PK_STAT_CHGON k) ∧ t.pk[k].uvOff = true ∧ t.role k ≠ .holdup ∧ t.on (PK_EVT_UV k) = true
    ∧ Raised t srcPACK_UV k.val)) ∧
  (∀ (k : Fin 2) (s : State), s.pkSt k = .closed → 1000 ≤ s.pk[k].hotN → Gives (.packOvertemp k) s (fun t => t.pkSt k =
    .tripped ∧ t.on (PK_STAT_CHGON k) = false ∧ t.on (PK_STAT_DSGON k) = false ∧ t.pk[k].otOff = true ∧ t.role k ≠ .holdup ∧
    t.on (PK_EVT_OT k) = true ∧ Raised t srcPACK_OT k.val)) ∧
  (∀ (k : Fin 2) (x : PkTrip) (s : State), (x = .sc ∨ x = .occ) → s.pkSt k = .tripped → s.pk[k].trip = x → 10000000 ≤
    (s.devtime - s.pk[k].tripAt).toNat → s.running = true → s.packIn k = true → s.pk[k].shorted = false → 9 / 2 ≤ s.pk[k].v
    → Gives (.packTripRetry k x) s (fun t => t.pkSt k = .closing ∧ t.on (PK_STAT_CHGON k) = true)) ∧
  (∀ (k : Fin 2) (x : PkTrip) (s : State), (x = .sc ∨ x = .occ) → s.pkSt k = .tripped → s.pk[k].trip = x → 10000000 ≤
    (s.devtime - s.pk[k].tripAt).toNat → s.running = true → s.packIn k = true → s.pk[k].shorted = false → s.pk[k].v < 9 / 2
    → Gives (.packTripRetry k x) s (fun t => t.pkSt k = .tripped ∧ t.on (PK_EVT_DEAD k) = true)) ∧
  (∀ (k : Fin 2) (s : State), s.pk[k].ovOff = true → 100000 ≤ s.pk[k].belowN → s.pkSt k = .closed → Gives (.packTripRetry k
    .ov) s (fun t => t.pk[k].ovOff = false ∧ t.on (PK_STAT_CHGON k) = true)) ∧
  (∀ (k : Fin 2) (s : State), s.pk[k].uvOff = true → 100000 ≤ s.pk[k].aboveN → s.pkSt k = .closed → s.stage k ≠ .precharge →
    Gives (.packTripRetry k .uv) s (fun t => t.pk[k].uvOff = false ∧ t.on (PK_STAT_DSGON k) = true)) ∧
  (∀ (k : Fin 2) (s : State), 60000 ≤ s.pk[k].coolN → s.pkSt k = .tripped → s.pk[k].trip = .ot → s.running = true → s.packIn k
    = true → s.pk[k].shorted = false → 9 / 2 ≤ s.pk[k].v → Gives (.packTripRetry k .ot) s (fun t => t.pkSt k = .closing ∧
    t.pk[k].otOff = false)) ∧
  (∀ (k : Fin 2) (o : Origin) (v : Word) (s : State), s.serves o → s.on SYS_MAINT_MAINT = true → s.present = true → s.stalled
    = false → s.anvilAnswers = true → s.pkSt k = .latched → Gives (.packLatchClear k o v) s (fun t => t.pkSt k = .open ∧
    t.pk[k].scAt = []))

/-- COULOMB_SAMPLE of an awake device with a pack and no offset measurement, its code in range, adds 250 µs of the corrected
current to the charge. COULOMB_OFFSET_START with OFSAUTO and both gates off for 2 s, 8,000 samples, starts a measurement;
COULOMB_OFFSET_DONE of an awake device after 4,000 samples ends it with their mean as the offset, held to 24 bits, and MEAS
set. LIFE_WRITEBACK, on a port that may carry transactions, takes the other slot and the next sequence number where it
succeeds; one that fails, or any on a held port, is counted and the third in a row sets LIFEWB. RAREX_TRANSACTION in RUN or
the safe state, with a pack on a bus that is neither held nor to be checked, counts XFER; INC_CTR only where it is due. With
fewer than three failed attempts and no check that finds SDA stuck it succeeds, the bytes of R201 stand as sent, and INC_CTR
gives the pack counter the reply; with three, or a check that finds SDA stuck between two attempts, it fails, FAIL counts,
and the second failed transaction in a row brings SLOW. GET_SIG_POLL of a running authentication whose signature is not
ready does the same for its poll.

Rules: R199, R201, R209, R210, R312, R313, R314, R342, R405. The model’s own choices and readings that bear on these
commands: log entries 58, 67, 72, 75, 76, 81, 82, 102, 117, 118, 146. -/
def Obligations.CoulombsAndRarex : Prop :=
  (∀ (k : Fin 2) (c : Int) (s : State), s.awake = true → s.packIn k = true → s.on (COUL_STAT_OFSRUN k) = false → -8388608 ≤ c
    → c ≤ 8388607 → Gives (.coulombSample k c) s (fun t => t.pk[k].q = s.pk[k].q + 250 * (((c - s.sfld (COUL_OFS_OFS k) :
    Int) : Rat) * s.perCode k) ∧ t.chg[k].ipack = ((c - s.sfld (COUL_OFS_OFS k) : Int) : Rat) * s.perCode k ∧ t.sfld
    (COUL_RAW_CODE k) = c - s.sfld (COUL_OFS_OFS k))) ∧
  (∀ (k : Fin 2) (s : State), s.awake = true → s.on (COUL_CFG_OFSAUTO k) = true → s.on (PK_STAT_CHGON k) = false → s.on
    (PK_STAT_DSGON k) = false → s.pk[k].openN = 8000 → Gives (.coulombOffsetStart k) s (fun t => t.on (COUL_STAT_OFSRUN k) =
    true ∧ t.pk[k].ofsCnt = 0)) ∧
  (∀ (k : Fin 2) (m : Int) (s : State), s.awake = true → s.on (COUL_STAT_OFSRUN k) = true → 4000 ≤ s.pk[k].ofsCnt →
    ((s.pk[k].ofsSum : Rat) / s.pk[k].ofsCnt + 1 / 2).floor = m → Gives (.coulombOffsetDone k) s (fun t => t.on
    (COUL_STAT_OFSRUN k) = false ∧ t.on (COUL_OFS_MEAS k) = true ∧ t.fld (COUL_STAT_OFSAGE k) = 0 ∧ t.sfld (COUL_OFS_OFS k)
    = max (-8388608) (min 8388607 m))) ∧
  (∀ (k : Fin 2) (s : State), s.packIn k = true → s.pk[k].ident ≠ none → s.pkReady k = true → s.on (TW_PK_STAT_HELD k) = false
    → Gives (.lifeWriteback k true) s (fun t => t.pk[k].lifeSlot = 1 - s.pk[k].lifeSlot ∧ t.pk[k].lifeSeq = (s.pk[k].lifeSeq
    + 1) % 2 ^ 32 ∧ t.pk[k].wbFails = 0)) ∧
  (∀ (k : Fin 2) (b : Bool) (s : State), s.packIn k = true → s.pk[k].ident ≠ none → s.pkReady k = true → (b = false ∨ s.on
    (TW_PK_STAT_HELD k) = true) → Gives (.lifeWriteback k b) s (fun t => t.pk[k].wbFails = s.pk[k].wbFails + 1 ∧
    (s.pk[k].wbFails = 2 → t.on (PK_EVT_LIFEWB k) = true) ∧ t.pk[k].lifeSeq = s.pk[k].lifeSeq)) ∧
  (∀ (k : Fin 2) (cmd : Rarex) (fails : List TwErr) (bs : List Byte) (s : State), (s.running = true ∨ s.safeState = true) →
    s.packIn k = true → (s.tw[(if k = 0 then 1 else 2 : Fin 3)].check = false) → (s.on (twHeld (if k = 0 then 1 else 2 : Fin
    3)) = false) → (cmd = .incCtr → s.incDue k = true) → (∀ e ∈ fails, e.check ≠ some none) → fails.length < 3 → Gives
    (.rarexTransaction k cmd fails bs) s (fun t => t.pk[k].txFails = 0 ∧ (t.tw[(if k = 0 then 1 else 2 : Fin 3)].sent =
    s.rarexSent k cmd) ∧ (cmd = .incCtr → t.word (PK_CTR k) = wordOf (bs.take 4)) ∧ (cmd ≠ .incCtr → t.word (PK_CTR k) =
    s.word (PK_CTR k)) ∧ Counted s t (TW_PK_CNT_XFER k))) ∧
  (∀ (k : Fin 2) (cmd : Rarex) (fails : List TwErr) (bs : List Byte) (s : State), (s.running = true ∨ s.safeState = true) →
    s.packIn k = true → (s.tw[(if k = 0 then 1 else 2 : Fin 3)].check = false) → (s.on (twHeld (if k = 0 then 1 else 2 : Fin
    3)) = false) → (cmd = .incCtr → s.incDue k = true) → (3 ≤ fails.length ∨ ∃ e ∈ fails.take 2, e.check = some none) →
    Gives (.rarexTransaction k cmd fails bs) s (fun t => t.pk[k].txFails = s.pk[k].txFails + 1 ∧ (1 ≤ s.pk[k].txFails → t.on
    (TW_PK_STAT_SLOW k) = true) ∧ Counted s t (TW_PK_CNT_FAIL k) ∧ Counted s t (TW_PK_CNT_XFER k))) ∧
  (∀ (k : Fin 2) (fails : List TwErr) (s : State), s.pk[k].running = true → s.pk[k].rx.sig = none → (s.running = true ∨
    s.safeState = true) → s.packIn k = true → (s.tw[(if k = 0 then 1 else 2 : Fin 3)].check = false) → (s.on (twHeld (if k =
    0 then 1 else 2 : Fin 3)) = false) → (∀ e ∈ fails, e.check ≠ some none) → fails.length < 3 → Gives (.getSigPoll k fails)
    s (fun t => t.pk[k].txFails = 0 ∧ Counted s t (TW_PK_CNT_XFER k)))

/-- AUTH_RUN_START of a pack past its identity read with a profile starts a run. AUTH_RUN_DONE of a running one, on a port that
may carry transactions and is not held, ends it, and a result other than BUS is in force with every joined command
completed. PACK_AUTHENTICATE joins a port that holds a pack. Under SEALED conditions LOAD_KEY for an empty slot asks for its
key, KEY_READ_DONE with Bus Master Enable set and a point on the curve fuses it, VOID_KEY voids its slot. AUTHDIS_WRITE,
served, gives AUTHDIS the bit written.

Rules: R203, R204, R205, R206, R216. The model’s own choices and readings that bear on these commands: log entries 12, 28,
29, 31, 48, 49, 51, 52, 53, 61, 68, 70, 102, 121. -/
def Obligations.PackAuthentication : Prop :=
  (∀ (k : Fin 2) (s : State), s.packIn k = true → s.pkSt k ≠ .empty → s.pkSt k ≠ .ident → s.prof k ≠ none → Gives
    (.authRunStart k) s (fun t => t.pk[k].running = true)) ∧
  (∀ (k : Fin 2) (r : Option RunIn) (s : State), s.pk[k].running = true → s.pkReady k = true → s.on (TW_PK_STAT_HELD k) =
    false → (s.runResult k r).1 ≠ .bus → Gives (.authRunDone k r) s (fun t => t.pk[k].running = false ∧ t.pk[k].auth =
    (s.runResult k r).1 ∧ t.pk[k].slot = (s.runResult k r).2 ∧ t.pk[k].joined = [])) ∧
  (∀ (d : Desc) (e : Desc) (s : State), s.adminReady → (d.withOpc 7).withByte8 0xE 0 = e → d.authOp < 3 → s.pkSt e.authPort ≠
    .empty → Gives (.packAuthenticate d) s (fun t => t.pk[e.authPort].joined = s.pk[e.authPort].joined ++ [e])) ∧
  (∀ (d : Desc) (e : Desc) (s : State), s.adminReady → (d.withOpc 7).withByte8 0xE 2 = e → s.sealedReason = 0 → s.slotState
    e.authSlot = 0 → Desc.bytes e 16 8 % 64 = 0 → Gives (.loadKey d) s (fun t => t.aon.keyLoad = s.aon.keyLoad ++ [e])) ∧
  (∀ (key : BitVec 512) (d : Desc) (l : List Desc) (s : State), s.on HIF_LNK_BME = true → s.aon.keyLoad = d :: l →
    s.sealedReason = 0 → s.slotState d.authSlot = 0 → keyOnCurve key = true → Gives (.keyReadDone key) s (fun t =>
    t.aon.keyLoad = l ∧ t.aon.keys[d.authSlot] = (key, true, false) ∧ Counted s t AUTH_CNT_GRANTED)) ∧
  (∀ (d : Desc) (s : State), s.adminReady → s.sealedReason = 0 → Gives (.voidKey d) s (fun t => t.aon.keys[((d.withOpc
    7).withByte8 0xE 4).authSlot].2.2 = true ∧ Counted s t AUTH_CNT_GRANTED)) ∧
  (∀ (k : Fin 2) (o : Origin) (v : Word) (s : State), s.serves o → s.on SYS_MAINT_MAINT = true → s.present = true → s.stalled
    = false → s.anvilAnswers = true → Gives (.authdisWrite k o v) s (fun t => t.on (PK_CFG_AUTHDIS k) = v.getLsbD 16))

/-- PK_SHIP_ARM, served, with CONFIRM 0xA5 under SYS_MAINT arms Doldrums; with FEEDS_LOST the entry follows at once, and where
no pack is to have a LIFE record it ends: the clocks stop, no bias, DEVTIME saved in the island. DOLDRUMS_WAKE of a source
whose ticks are met, with ARM clear after it, starts the device again with CAUSE 3 from the source that the inputs call for,
to step 12. SHIP_CUT in Doldrums with SHIPCUT on, both pack sentinels true for 16 ticks and no feed, is a power-on reset.

Rules: R212, R214, R215. The model’s own choices and readings that bear on these commands: log entries 1, 5, 11, 12, 14, 15,
20, 36, 48, 49, 51, 52, 53, 141. -/
def Obligations.DoldrumsAndShip : Prop :=
  (∀ (o : Origin) (v : Word) (s : State), s.serves o → s.on SYS_MAINT_MAINT = true → s.anvilAnswers = true → v.toNat / 2 ^ 24
    = 0xA5 → s.lostFeeds = false → Gives (.pkShipArm o v) s (fun t => t.on PK_SHIP_ARM = true ∧ t.sys.doldrums =
    s.sys.doldrums)) ∧
  (∀ (o : Origin) (v : Word) (s : State), s.serves o → s.on SYS_MAINT_MAINT = true → s.anvilAnswers = true → v.toNat / 2 ^ 24
    = 0xA5 → s.lostFeeds = true → s.lifeWaits 0 = false → s.lifeWaits 1 = false → s.sys.seq = none → Gives (.pkShipArm o v)
    s (fun t => t.sys.doldrums = true ∧ t.sys.biasGood = false ∧ t.sys.bias = none ∧ t.aon.savedTime = s.devtime)) ∧
  (∀ (w : WakeSrc) (v : BiasIn) (r : Boot) (s : State), s.sys.doldrums = true → s.wakeDue w = true → Gives (.doldrumsWake w v
    r) s (fun t => t.awake = true ∧ t.sys.bias = some (v.pick none) ∧ t.fld SYS_STATE_STEP = 12 ∧ t.fld SYS_RST_CAUSE = 3 ∧
    t.on PK_SHIP_ARM = false)) ∧
  (∀ (s : State), s.sys.doldrums = true → s.fld PK_SHIP_SHIPCUT ≠ 0 → 16 ≤ s.aon.sent[2] → 16 ≤ s.aon.sent[3] → s.aon.sent[0]
    = 0 → s.aon.sent[1] = 0 → Gives (.shipCut) s (fun t => t.regs = State.reset.regs ∧ t.sys.bias = none ∧ t.sys.doldrums =
    false ∧ t.aon.keys = s.aon.keys))

/-- On a resident entry that its ring may use at once: GRANT_REQUEST of a valid entry, IDLE or GRANTED, before its deadline and
not held back by hold-up, for no more than the allowance grants P with its TAG as GEN and GEND from D, and completes GRANT.
GRANT_EXTEND of a live grant under its GEN that still fits moves GEND. GRANT_RELEASE under its GEN returns the entry to IDLE
with GPWR 0 and completes with the accrued account. ACCOUNT_READ without EVICT on a resident entry completes with the
account accrued to now, and CLEAR leaves 0. CACHE_FILL_DONE, with Bus Master Enable set, of the one waiting request, a
GRANT_RELEASE that no check refuses, makes the entry resident as IDLE with GPWR 0 and completes NO_GRANT. ACCOUNT_WRITEBACK
of a dirty line outside static mode, with Bus Master Enable, writes its accrued device part to its place in the Grant Table
and leaves the line clean.

Rules: R223, R233, R234, R236, R237, R239, R240, R245, R246. The model’s own choices and readings that bear on these
commands: log entries 10, 26, 97, 134. -/
def Obligations.GrantsAndAccounts : Prop :=
  (∀ (n : Fin 64) (d : Desc) (l : GtLine) (s : State), s.ctxReady n (d &&& ~~~ 0xFF ||| 0x20).cid l → (d &&& ~~~ 0xFF |||
    0x20).reqP ≠ 0 → (d &&& ~~~ 0xFF ||| 0x20).allowPart = false → l.valid = true → l.zmap.toNat &&& s.fld (FC_CTX_CFG_ZMASK
    n) = l.zmap.toNat → (l.st = .idle ∨ l.st = .granted) → s.past (d &&& ~~~ 0xFF ||| 0x20).reqDl = false → s.heldByHoldup n
    = false → ((d &&& ~~~ 0xFF ||| 0x20).reqP : Rat) / 16 ≤ (s.allowance n l (secs (d &&& ~~~ 0xFF ||| 0x20).reqD)).1 →
    Gives (.grantRequest n d) s (fun t => ((t.line? (d &&& ~~~ 0xFF ||| 0x20).cid).map (fun m => (m.st, m.gpwr, m.gen,
    m.gend)) = some (.granted, (d &&& ~~~ 0xFF ||| 0x20).reqP, (d &&& ~~~ 0xFF ||| 0x20).tag, s.gendFor (d &&& ~~~ 0xFF |||
    0x20).reqD)) ∧ Completed t n (d &&& ~~~ 0xFF ||| 0x20) 0x10 0 (decResult (d &&& ~~~ 0xFF ||| 0x20).reqP 0 0 ((d &&& ~~~
    0xFF ||| 0x20).reqD == 0) (s.gendFor (d &&& ~~~ 0xFF ||| 0x20).reqD).toNat))) ∧
  (∀ (n : Fin 64) (d : Desc) (l : GtLine) (s : State), s.ctxReady n (d &&& ~~~ 0xFF ||| 0x22).cid l → l.st = .granted → l.gen
    = (d &&& ~~~ 0xFF ||| 0x22).gen → s.heldByHoldup n = false → (l.gpwr : Rat) / 16 ≤ (s.allowance n l (secs (d &&& ~~~
    0xFF ||| 0x22).extD)).1 → Gives (.grantExtend n d) s (fun t => ((t.line? (d &&& ~~~ 0xFF ||| 0x22).cid).map (fun m =>
    (m.st, m.gpwr, m.gen, m.gend)) = some (.granted, l.gpwr, l.gen, s.gendFor (d &&& ~~~ 0xFF ||| 0x22).extD)) ∧ Completed t
    n (d &&& ~~~ 0xFF ||| 0x22) 0x10 0 (decResult l.gpwr 0 0 ((d &&& ~~~ 0xFF ||| 0x22).extD == 0) (s.gendFor (d &&& ~~~
    0xFF ||| 0x22).extD).toNat))) ∧
  (∀ (n : Fin 64) (d : Desc) (l : GtLine) (s : State), s.ctxReady n (d &&& ~~~ 0xFF ||| 0x21).cid l → l.st ≠ .idle → l.gen =
    (d &&& ~~~ 0xFF ||| 0x21).gen → Gives (.grantRelease n d) s (fun t => ((t.line? (d &&& ~~~ 0xFF ||| 0x21).cid).map (fun
    m => (m.st, m.gpwr)) = some (.idle, 0)) ∧ Completed t n (d &&& ~~~ 0xFF ||| 0x21) 0 (GtLine.qual { l.accrue s.time48
    with seen := l.st == .revoking || l.st == .throttled }) (l.accrue s.time48).account)) ∧
  (∀ (n : Fin 64) (d : Desc) (l : GtLine) (s : State), s.ctxReady n (d &&& ~~~ 0xFF ||| 0x23).cid l → (d &&& ~~~ 0xFF |||
    0x23).accEvict = false → Gives (.accountRead n d) s (fun t => ((t.line? (d &&& ~~~ 0xFF ||| 0x23).cid).map (fun m =>
    m.account) = some (if (d &&& ~~~ 0xFF ||| 0x23).accClear = true then 0 else (l.accrue s.time48).account)) ∧ Completed t
    n (d &&& ~~~ 0xFF ||| 0x23) 0 (GtLine.qual { l.accrue s.time48 with seen := l.st == .revoking || l.st == .throttled })
    (l.accrue s.time48).account)) ∧
  (∀ (n : Fin 64) (d : Desc) (e : BitVec 512) (g : Fin 3) (s : State), s.on HIF_LNK_BME = true → s.fc.misses = [⟨n, d⟩] →
    d.opc = 0x21 → s.ctxRefusal n d = none → s.line? d.cid = none → s.fc.lines.length < 4096 → s.ring[n].sq = [] → s.ringSt
    n = 1 → Gives (.cacheFillDone d.cid e g) s (fun t => t.fc.misses = [] ∧ ((t.line? d.cid).map (fun m => (m.st, m.gpwr)) =
    some (.idle, 0)) ∧ Completed t n d 0x14 0 0)) ∧
  (∀ (c : Nat) (b : Bool) (l : GtLine) (g : Fin 3) (s : State), s.line? c = some l → l.dirty = true → s.static = false → s.on
    HIF_LNK_BME = true → Gives (.accountWriteback c b g) s (fun t => ((t.line? c).map (fun m => m.dirty) = some false) ∧
    HostOut.write (BitVec.ofNat 64 (s.gtaddr + 64 * c + 8)) (l.accrue s.time48).device ∈ t.out))

/-- GRANT_EXPIRE of a timed grant whose GEND has come takes it to REVOKING. REVOKE_DEADLINE of a REVOKING entry whose deadline
is reached takes it to THROTTLED with GPWR 0, claims and asserts its throttle pins and counts it. THROTTLE_RELEASE ends the
claims of the consumer that are no longer THROTTLED and whose pins asserted THRMIN ago or more, and the pins then follow the
claims left unless every pin is held. ZONE_HOST_STALE counts the age of the zone's host temperature up to now, and a zone
that uses a host value older than 100 ms has no headroom. FORECAST_SNAPSHOT takes PLOAD from the measurements and, in static
mode outside an overrun, takes the inputs of the budget as they stand and moves PBASE toward it by one step of BASETAU, not
below BASEMIN; HOLD shows FEEDS_LOST, under which GALLOW is 0.

Rules: R224, R225, R226, R228, R230, R231, R243, R244. The model’s own choices and readings that bear on these commands: log
entries 62, 69, 95, 154, 155. -/
def Obligations.GrantEnforcementAndSnapshot : Prop :=
  (∀ (c : Nat) (l : GtLine) (s : State), s.line? c = some l → l.st = .granted → l.gend ≠ 0 → (s.time48 - l.gend).toNat < 2 ^
    47 → Gives (.grantExpire c) s (fun t => ((t.line? c).map (fun m => (m.st, m.rvn)) = some (.revoking, min 65535 (l.rvn +
    1))))) ∧
  (∀ (c : Nat) (l : GtLine) (s : State), s.line? c = some l → l.st = .revoking → (s.devtime - l.due).toNat < 2 ^ 55 → Gives
    (.revokeDeadline c) s (fun t => ((t.line? c).map (fun m => (m.st, m.gpwr)) = some (.throttled, 0)) ∧ (⟨c, l.thrmask,
    true, s.devtime⟩ : ThrClaim) ∈ t.fc.claims ∧ BitVec.ofNat 8 (t.fld FC_THR_STATE) &&& l.thrmask = l.thrmask ∧ Counted s t
    FC_CNT_THROTTLES)) ∧
  (∀ (c : Nat) (s : State), Gives (.throttleRelease c) s (fun t => (t.fc.claims = s.fc.claims.filter (fun x => x.live || x.cid
    != c || decide ((s.devtime - x.at_).toNat < s.thrminTicks))) ∧ (s.running = true → s.chgg.hulow = false → s.on
    FEED_GSTAT_EXSTOP = false → t.fld FC_THR_STATE = t.fcPins.toNat))) ∧
  (∀ (z : Fin 8) (s : State), Gives (.zoneHostStale z) s (fun t => (t.fld (FC_ZONE_HT_AGE z) = if s.fld (FC_ZONE_HT_AGE z) =
    255 then 255 else min 255 ((s.devtime - s.fc.htAt[z]).toNat / 100000)) ∧ (s.fld (FC_ZONE_CFG_SRC z) = 0x30 → 100 < t.fld
    (FC_ZONE_HT_AGE z) → t.fld (FC_ZONE_STAT_HEAD z) = 0 ∧ t.on FC_EVT_ZSTALE = true))) ∧
  (∀ (s : State), s.static = true → s.on FC_STAT_OVERRUN = false → Gives (.forecastSnapshot) s (fun t => t.fc.pload =
    s.loadNow ∧ t.fc.snap = s.snapNow ∧ t.fc.pbase = max (s.fld FC_BASE_BASEMIN : Rat) (s.fc.pbase + (s.loadNow - 0 -
    s.fc.pbase) * (1 / 100000) / ((orZero 1 (s.fld FC_BASE_BASETAU) : Rat) / 100)) ∧ t.on FC_STAT_HOLD = s.lostFeeds ∧
    (s.lostFeeds = true → t.fld CHG_GALLOW_GALLOW = 0))) ∧
  (∀ (s : State), Gives (.forecastSnapshot) s (fun t => t.fc.pload = s.loadNow ∧ t.on FC_STAT_HOLD = s.lostFeeds ∧
    (s.lostFeeds = true → t.fld CHG_GALLOW_GALLOW = 0)))

/-- BIND_CONTEXT with every parameter in range, its ring ACTIVE and the context without live grants binds the context with its
band, weight, range and cap. UNBIND_CONTEXT of a context without live grants unbinds it. GRANT_TABLE_SETUP in range with no
context bound sets NENT, empties the cache, and leaves static mode on only with no entries or with HOSTSEL. Each completes
OK.

Rules: R220, R251, R252. The model’s own choices and readings that bear on these commands: log entries 29, 31, 42, 43. -/
def Obligations.ContextsAndGrantTable : Prop :=
  (∀ (d : Desc) (e : Desc) (s : State), s.adminReady → (d.withOpc 9).withByte8 0x40 0 = e → e.ctx ≠ 0 → e.weight ≠ 0 →
    e.cidCnt ≠ 0 → e.cidBase + e.cidCnt ≤ s.nent → s.overlaps e.ctx e.cidBase e.cidCnt = false → s.ringSt e.ctx = 1 →
    s.ctxLive e.ctx = false → Gives (.bindContext d) s (fun t => t.on (FC_CTX_CFG_BOUND e.ctx) = true ∧ t.fld
    (FC_CTX_CFG_BAND e.ctx) = e.band ∧ t.fld (FC_CTX_CFG_WEIGHT e.ctx) = e.weight ∧ t.fld (FC_CTX_CIDBASE_CIDBASE e.ctx) =
    e.cidBase ∧ t.fld (FC_CTX_CIDCNT_CIDCNT e.ctx) = e.cidCnt ∧ t.fld (FC_CTX_CAP_CAP e.ctx) = e.cap ∧ Completed t 0 e 0 0
    0)) ∧
  (∀ (d : Desc) (e : Desc) (s : State), s.adminReady → (d.withOpc 9).withByte8 0x40 0x40 = e → e.ctx ≠ 0 → s.ctxLive e.ctx =
    false → Gives (.unbindContext d) s (fun t => t.on (FC_CTX_CFG_BOUND e.ctx) = false ∧ t.fld (FC_CTX_CIDCNT_CIDCNT e.ctx)
    = 0 ∧ Completed t 0 e 0 0 0)) ∧
  (∀ (d : Desc) (e : Desc) (s : State), s.adminReady → d.withOpc 10 = e → (e.nent = 0 ∨ (e.gtaddr % 4096 = 0 ∧ e.nent % 64 = 0
    ∧ e.nent ≤ 262144)) → s.boundRings = [] → Gives (.grantTableSetup d) s (fun t => t.fld FC_GTN_NENT = e.nent ∧ t.fc.lines
    = [] ∧ (t.static = decide (e.nent = 0 ∨ s.on SYS_STRAP_HOSTSEL = true)) ∧ Completed t 0 e 0 0 0))

/-- PE_PERST_N_ASSERT and LINK_DOWN take the link down and count it where it was up; FUNCTION_LEVEL_RESET and D3HOT_ENTRY leave
it as it was. Each clears Bus Master Enable and L1, puts every ring pair back to reset with its queued entries and held
requests discarded, drops the key loads, a capture and a drain, and takes Forecast to static mode with nothing resident and
no Grant Table. LINK_UP on a powered device without HOSTSEL brings the link up at the speed named. ASPM_L1_ENTRY of a link
that is up, where the host has enabled it, enters L1 and ASPM_L1_EXIT leaves it. BUS_MASTER_DISABLE clears BME, and a
running GET_TELEMETRY completes ABORTED with the records written and the next sequence number. BUS_MASTER_ENABLE on a link
that is up takes what the host has programmed in configuration space, sets BME and issues the held requests in order after
what has been sent.

Rules: R248, R259, R261, R290, R294. The model’s own choices and readings that bear on these commands: log entries 35, 36,
37, 38. -/
def Obligations.HostLink : Prop :=
  (∀ (s : State), s.regs.wf = true → Gives (.pePerstNAssert) s (fun t => t.on HIF_LNK_BME = false ∧ t.on HIF_LNK_L1 = false ∧
    t.ring = State.reset.ring ∧ t.hif.held = [] ∧ t.hif.tel = none ∧ t.hif.drain = none ∧ t.hif.heldOut = [] ∧ t.aon.keyLoad
    = [] ∧ t.static = true ∧ t.fc.lines = [] ∧ t.fld FC_GTN_NENT = 0 ∧ (∀ n : Fin 64, t.ringSt n = 0) ∧ t.on HIF_LNK_LINKUP
    = false ∧ (s.on HIF_LNK_LINKUP = true → Counted s t HIF_LNK_LINKDN))) ∧
  (∀ (s : State), s.regs.wf = true → Gives (.linkDown) s (fun t => t.on HIF_LNK_BME = false ∧ t.on HIF_LNK_L1 = false ∧ t.ring
    = State.reset.ring ∧ t.hif.held = [] ∧ t.hif.tel = none ∧ t.hif.drain = none ∧ t.hif.heldOut = [] ∧ t.aon.keyLoad = [] ∧
    t.static = true ∧ t.fc.lines = [] ∧ t.fld FC_GTN_NENT = 0 ∧ (∀ n : Fin 64, t.ringSt n = 0) ∧ t.on HIF_LNK_LINKUP = false
    ∧ (s.on HIF_LNK_LINKUP = true → Counted s t HIF_LNK_LINKDN))) ∧
  (∀ (s : State), s.regs.wf = true → Gives (.functionLevelReset) s (fun t => t.on HIF_LNK_BME = false ∧ t.on HIF_LNK_L1 =
    false ∧ t.ring = State.reset.ring ∧ t.hif.held = [] ∧ t.hif.tel = none ∧ t.hif.drain = none ∧ t.hif.heldOut = [] ∧
    t.aon.keyLoad = [] ∧ t.static = true ∧ t.fc.lines = [] ∧ t.fld FC_GTN_NENT = 0 ∧ (∀ n : Fin 64, t.ringSt n = 0) ∧ t.on
    HIF_LNK_LINKUP = s.on HIF_LNK_LINKUP)) ∧
  (∀ (s : State), s.regs.wf = true → Gives (.d3hotEntry) s (fun t => t.on HIF_LNK_BME = false ∧ t.on HIF_LNK_L1 = false ∧
    t.ring = State.reset.ring ∧ t.hif.held = [] ∧ t.hif.tel = none ∧ t.hif.drain = none ∧ t.hif.heldOut = [] ∧ t.aon.keyLoad
    = [] ∧ t.static = true ∧ t.fc.lines = [] ∧ t.fld FC_GTN_NENT = 0 ∧ (∀ n : Fin 64, t.ringSt n = 0) ∧ t.on HIF_LNK_LINKUP
    = s.on HIF_LNK_LINKUP)) ∧
  (∀ (g : Fin 3) (s : State), s.powered = true → s.on SYS_STRAP_HOSTSEL = false → Gives (.linkUp g) s (fun t => t.on
    HIF_LNK_LINKUP = true ∧ t.fld HIF_LNK_SPEED = g.val + 1)) ∧
  (∀ (s : State), s.on HIF_LNK_LINKUP = true → s.hif.cfg.aspmL1 = true → Gives (.aspmL1Entry) s (fun t => t.on HIF_LNK_L1 =
    true)) ∧
  (∀ (s : State), Gives (.aspmL1Exit) s (fun t => t.on HIF_LNK_L1 = false)) ∧
  (∀ (s : State), s.hif.tel = none → Gives (.busMasterDisable) s (fun t => t.on HIF_LNK_BME = false ∧ t.hif = s.hif ∧ t.ring =
    s.ring ∧ t.out = s.out)) ∧
  (∀ (r : TelRun) (s : State), s.hif.tel = some r → s.ringSt 0 = 1 → r.d ∈ s.ring[(0 : Fin 64)].started → r.d ∉ s.hif.lost →
    Gives (.busMasterDisable) s (fun t => t.on HIF_LNK_BME = false ∧ t.hif.tel = none ∧ Completed t 0 r.d 8 0 (r.done +
    r.next.toNat * 2 ^ 32))) ∧
  (∀ (c : PciCfg) (s : State), s.on HIF_LNK_LINKUP = true → Gives (.busMasterEnable c) s (fun t => t.on HIF_LNK_BME = true ∧
    t.hif.cfg = c ∧ t.hif.d3 = false ∧ t.hif.heldOut = [] ∧ s.out ++ s.hif.heldOut <+: t.out))

/-- On a link that is up in D0: SQ_TAIL_DOORBELL of an ACTIVE ring takes a tail in range and clears the push slot; a tail out of
range halts the ring with error 1; on a ring that is not ACTIVE it is dropped and counted. PUSH_SLOT_WRITE leaves each byte
as the last write of it. BAR2_INVALID_WRITE counts DBDROP of the slot that its offset lies in.

Rules: R258, R263, R264. The model’s own choices and readings that bear on these commands: log entries 32, 33, 152. -/
def Obligations.DoorbellsAndPush : Prop :=
  (∀ (n : Fin 64) (v : Word) (s : State), s.hostUp = true → s.ringSt n = 1 → v.toNat % 4096 < s.sqSize n → Gives
    (.sqTailDoorbell n v) s (fun t => t.fld (HIF_STAT_SQTAIL n) = v.toNat % 4096 ∧ t.ringSt n = 1 ∧ t.ring[n].push =
    State.reset.ring[n].push)) ∧
  (∀ (n : Fin 64) (v : Word) (s : State), s.hostUp = true → s.ringSt n = 1 → s.sqSize n ≤ v.toNat % 4096 → Gives
    (.sqTailDoorbell n v) s (fun t => t.ringSt n = 3 ∧ t.fld (HIF_STAT_ERR n) = 1 ∧ t.ring[n].copies = [] ∧ t.ring[n].sq =
    [] ∧ t.ring[n].cq = [])) ∧
  (∀ (n : Fin 64) (v : Word) (s : State), s.hostUp = true → s.ringSt n ≠ 1 → Gives (.sqTailDoorbell n v) s (fun t => Counted s
    t (HIF_CNT_DBDROP n) ∧ t.ring = s.ring)) ∧
  (∀ (n : Fin 64) (ws : List (Fin 64 × Byte)) (s : State), s.hostUp = true → Gives (.pushSlotWrite n ws) s (fun t => (∀ i :
    Fin 64, t.ring[n].push[i] = ((ws.filter (fun w => w.1 == i)).getLast?.map (fun w => w.2)).or s.ring[n].push[i]))) ∧
  (∀ (off : BitVec 13) (len : Nat) (n : Fin 64) (s : State), s.hostUp = true → bar2Target off len = .invalid n → Gives
    (.bar2InvalidWrite off len) s (fun t => Counted s t (HIF_CNT_DBDROP n) ∧ t.ring = s.ring))

/-- CQ_HEAD_DOORBELL that the host link brings takes its new head from bits 11:0. On an ACTIVE or DRAINING ring a head below the
CQ size that does not pass CQTAIL becomes CQHEAD and the ring goes on; a head at or above the CQ size, or one that passes
CQTAIL, halts the ring with ERR = 2. On a DISABLED or HALTED ring it is dropped and counted in DBDROP, and CQHEAD stays
unchanged. -/
def Obligations.CqHeadDoorbell : Prop :=
  (∀ (n : Fin 64) (v : Word) (s : State), s.hostUp = true → (s.ringSt n = 1 ∨ s.ringSt n = 2) → v.toNat % 4096 < s.cqSize n →
    (v.toNat % 4096 + s.cqSize n - s.fld (HIF_CQP_CQHEAD n)) % s.cqSize n ≤ s.cqUsed n → Gives (.cqHeadDoorbell n v) s (fun
    t => t.fld (HIF_CQP_CQHEAD n) = v.toNat % 4096 ∧ t.ringSt n = s.ringSt n ∧ (s.ring[n].sq.head?.all (fun i =>
    i.err.isNone) = true → t.ring = s.ring))) ∧
  (∀ (n : Fin 64) (v : Word) (s : State), s.hostUp = true → (s.ringSt n = 1 ∨ s.ringSt n = 2) → (s.cqSize n ≤ v.toNat % 4096 ∨
    s.cqUsed n < (v.toNat % 4096 + s.cqSize n - s.fld (HIF_CQP_CQHEAD n)) % s.cqSize n) → Gives (.cqHeadDoorbell n v) s (fun
    t => t.ringSt n = 3 ∧ t.fld (HIF_STAT_ERR n) = 2)) ∧
  (∀ (n : Fin 64) (v : Word) (s : State), s.hostUp = true → (s.ringSt n = 0 ∨ s.ringSt n = 3) → Gives (.cqHeadDoorbell n v) s
    (fun t => Counted s t (HIF_CNT_DBDROP n) ∧ t.fld (HIF_CQP_CQHEAD n) = s.fld (HIF_CQP_CQHEAD n) ∧ t.ring = s.ring))

/-- DESCRIPTOR_FETCH_DONE of an ACTIVE ring whose fetch is in flight, with Bus Master Enable, its one pending descriptor a sound
run with nothing waiting, consumes it: SQHEAD moves past it and the run waits its turn. DMA_READ_ERROR with Bus Master
Enable set, a timeout only where completion timeouts are not disabled, of each kind of read: that of a descriptor fetch in
flight halts its ring with error 3; that of a Grant Table entry completes its context command, of a profile block its
SET_PROFILE, of a key its LOAD_KEY, and of a scatter list its GET_TELEMETRY, DMA_ERROR. Each is reported through AER on a
link that is up, records HOST_DMA with its ring, and captures the first in HIF_DMAERR. RING_ENABLE, served and with the
rings strapped, of a ring pair that is not enabled, its sizes 16 to 4,096 entries and its ring addresses 4 KiB aligned,
makes it ACTIVE with pointers 0, PHASE 1 and nothing held. RING_DISABLE, served with the sizes kept, takes an ACTIVE pair to
DRAINING with what it took and did not start dropped and its unsolicited entries with it, and a HALTED one to DISABLED.
RING_DRAINED takes a DRAINING pair with nothing started or waiting to DISABLED.

Rules: R256, R259, R260, R263, R267, R269, R270, R396. The model’s own choices and readings that bear on these commands: log
entries 12, 28, 30, 33, 45, 46, 48, 49, 51, 52, 53, 97, 152. -/
def Obligations.DescriptorsAndRingStates : Prop :=
  (∀ (n : Fin 64) (d : Desc) (s : State), s.ringSt n = 1 → s.on HIF_LNK_BME = true → s.ring[n].fetching = true → s.sqPending n
    = 1 → s.ring[n].copies = [] → s.ring[n].sq = [] → d.cont = false → runError (n != 0) (s.fld (HIF_STAT_SQHEAD n))
    (s.sqSize n) [d] = none → Gives (.descriptorFetchDone n [d]) s (fun t => t.fld (HIF_STAT_SQHEAD n) = (s.fld
    (HIF_STAT_SQHEAD n) + 1) % s.sqSize n ∧ t.ring[n].copies = [] ∧ (t.ring[n].sq.map (fun i => (i.ds, i.err)) = [([d],
    none)]) ∧ t.ring[n].fetching = false)) ∧
  (∀ (n : Fin 64) (e : Fin 3) (addr : Word) (s : State), s.on HIF_LNK_BME = true → (s.hif.cfg.ctoOff = false ∨ e ≠ 0) →
    s.ring[n].fetching = true → s.ringSt n = 1 → Gives (.dmaReadError (.desc n) e addr) s (fun t => t.ringSt n = 3 ∧ t.fld
    (HIF_STAT_ERR n) = 3 ∧ (⟨srcHOST_DMA, .corrected, addr, BitVec.ofNat 8 (0x40 + n.val), 4, false⟩ : FltEvent) ∈
    t.flt.lines ∧ (s.on HIF_LNK_LINKUP = true → HostOut.aer e ∈ t.out) ∧ t.hif.aer = s.hif.aer ||| 1 <<< e.val ∧ (t.word
    HIF_DMAERR = if s.on HIF_DMAERR_VALID then s.word HIF_DMAERR else BitVec.ofNat 32 (2 ^ 31 + 1 * 2 ^ 16 + (e.val + 1) * 2
    ^ 8 + n.val)))) ∧
  (∀ (m : Miss) (c : Nat) (e : Fin 3) (addr : Word) (s : State), s.on HIF_LNK_BME = true → (s.hif.cfg.ctoOff = false ∨ e ≠ 0)
    → (s.fc.misses.find? (fun x => x.d.cid == c) = some m) → s.ringSt m.ring = 1 → Gives (.dmaReadError (.grant c) e addr) s
    (fun t => t.fc.misses = s.fc.misses.erase m ∧ Completed t m.ring m.d 0x0B (e.val + 1) 0 ∧ (⟨srcHOST_DMA, .corrected,
    addr, BitVec.ofNat 8 (0x40 + m.ring.val), 4, false⟩ : FltEvent) ∈ t.flt.lines ∧ (s.on HIF_LNK_LINKUP = true →
    HostOut.aer e ∈ t.out) ∧ t.hif.aer = s.hif.aer ||| 1 <<< e.val ∧ (t.word HIF_DMAERR = if s.on HIF_DMAERR_VALID then
    s.word HIF_DMAERR else BitVec.ofNat 32 (2 ^ 31 + 2 * 2 ^ 16 + (e.val + 1) * 2 ^ 8 + m.ring.val)))) ∧
  (∀ (k : Fin 2) (e : Fin 3) (addr : Word) (d : Desc) (l : List Desc) (s : State), s.on HIF_LNK_BME = true → (s.hif.cfg.ctoOff
    = false ∨ e ≠ 0) → s.chg[k].load = d :: l → s.ringSt 0 = 1 → d ∈ s.ring[(0 : Fin 64)].started → d ∉ s.hif.lost → Gives
    (.dmaReadError (.profile k) e addr) s (fun t => t.chg[k].load = l ∧ Completed t 0 d 0x0B (e.val + 1) 0 ∧ (⟨srcHOST_DMA,
    .corrected, addr, BitVec.ofNat 8 0x40, 4, false⟩ : FltEvent) ∈ t.flt.lines ∧ (s.on HIF_LNK_LINKUP = true → HostOut.aer e
    ∈ t.out) ∧ t.hif.aer = s.hif.aer ||| 1 <<< e.val ∧ (t.word HIF_DMAERR = if s.on HIF_DMAERR_VALID then s.word HIF_DMAERR
    else BitVec.ofNat 32 (2 ^ 31 + 3 * 2 ^ 16 + (e.val + 1) * 2 ^ 8 + 0)))) ∧
  (∀ (e : Fin 3) (addr : Word) (d : Desc) (l : List Desc) (s : State), s.on HIF_LNK_BME = true → (s.hif.cfg.ctoOff = false ∨ e
    ≠ 0) → s.aon.keyLoad = d :: l → s.ringSt 0 = 1 → d ∈ s.ring[(0 : Fin 64)].started → d ∉ s.hif.lost → Gives
    (.dmaReadError .key e addr) s (fun t => t.aon.keyLoad = l ∧ Completed t 0 d 0x0B (e.val + 1) 0 ∧ (⟨srcHOST_DMA,
    .corrected, addr, BitVec.ofNat 8 0x40, 4, false⟩ : FltEvent) ∈ t.flt.lines ∧ (s.on HIF_LNK_LINKUP = true → HostOut.aer e
    ∈ t.out) ∧ t.hif.aer = s.hif.aer ||| 1 <<< e.val ∧ (t.word HIF_DMAERR = if s.on HIF_DMAERR_VALID then s.word HIF_DMAERR
    else BitVec.ofNat 32 (2 ^ 31 + 3 * 2 ^ 16 + (e.val + 1) * 2 ^ 8 + 0)))) ∧
  (∀ (e : Fin 3) (addr : Word) (d : Desc) (s : State), s.on HIF_LNK_BME = true → (s.hif.cfg.ctoOff = false ∨ e ≠ 0) →
    s.adminReady → d.opc = 4 → telBad [d] d = none → s.hif.tel = none → [d] ∉ s.hif.lists → d.fence = false → Gives
    (.dmaReadError (.list [d]) e addr) s (fun t => Completed t 0 d 0x0B (e.val + 1) 0 ∧ t.hif.tel = none ∧ (⟨srcHOST_DMA,
    .corrected, addr, BitVec.ofNat 8 0x40, 4, false⟩ : FltEvent) ∈ t.flt.lines ∧ (s.on HIF_LNK_LINKUP = true → HostOut.aer e
    ∈ t.out) ∧ t.hif.aer = s.hif.aer ||| 1 <<< e.val ∧ (t.word HIF_DMAERR = if s.on HIF_DMAERR_VALID then s.word HIF_DMAERR
    else BitVec.ofNat 32 (2 ^ 31 + 3 * 2 ^ 16 + (e.val + 1) * 2 ^ 8 + 0)))) ∧
  (∀ (n : Fin 64) (o : Origin) (v : Word) (s : State), s.serves o → s.on SYS_STRAP_HOSTSEL = false → s.on (HIF_CFG_EN n) =
    false → 4 ≤ (HIF_CFG_SQSZ n).extract v → (HIF_CFG_SQSZ n).extract v ≤ 12 → 4 ≤ (HIF_CFG_CQSZ n).extract v →
    (HIF_CFG_CQSZ n).extract v ≤ 12 → (s.word (HIF_SQA_LO n)).toNat % 4096 = 0 → (s.word (HIF_CQA_LO n)).toNat % 4096 = 0 →
    Gives (.ringEnable n o v) s (fun t => t.ringSt n = 1 ∧ t.on (HIF_CFG_EN n) = true ∧ t.fld (HIF_STAT_SQTAIL n) = 0 ∧
    t.fld (HIF_STAT_SQHEAD n) = 0 ∧ t.word (HIF_CQP n) = 0x80000000 ∧ t.ring[n] = State.reset.ring[n])) ∧
  (∀ (n : Fin 64) (o : Origin) (v : Word) (s : State), s.serves o → s.on (HIF_CFG_EN n) = true → s.ringSt n = 1 → (v ^^^
    s.word (HIF_CFG n)) &&& 0xFF = 0 → Gives (.ringDisable n o v) s (fun t => t.ringSt n = 2 ∧ t.on (HIF_CFG_EN n) = false ∧
    t.ring[n].copies = [] ∧ t.ring[n].sq = [] ∧ (t.ring[n].cq = s.ring[n].cq.filter (fun c => !c.unsolicited)))) ∧
  (∀ (n : Fin 64) (o : Origin) (v : Word) (s : State), s.serves o → s.on (HIF_CFG_EN n) = true → s.ringSt n = 3 → (v ^^^
    s.word (HIF_CFG n)) &&& 0xFF = 0 → Gives (.ringDisable n o v) s (fun t => t.ringSt n = 0 ∧ t.on (HIF_CFG_EN n) = false ∧
    t.ring[n] = State.reset.ring[n])) ∧
  (∀ (n : Fin 64) (s : State), s.ringSt n = 2 → s.ring[n].started = [] → s.ring[n].cq = [] → (n = 0 → s.hif.lists = []) →
    (s.fc.misses.all (fun m => m.ring != n) = true) → Gives (.ringDrained n) s (fun t => t.ringSt n = 0 ∧ t.ring[n] =
    State.reset.ring[n]))

/-- COMPLETION_POST of an awake device with Bus Master Enable, the ring ACTIVE or DRAINING with room, no record of the entry’s
command still waiting for the journal: the oldest waiting entry is written at CQTAIL with SQHEAD and PHASE, CQTAIL moves on,
and PHASE turns where it wraps. MSIX_TIMER_EXPIRE, ITIME µs after the first counted entry and with IEN, sends the ring
message and starts the count again. MSIX_UNMASK, served, of a pending vector with Bus Master Enable and MSI-X enabled and
not masked as a whole sends its message.

Rules: R271, R272, R276, R291. The model’s own choices and readings that bear on these commands: log entries 12, 48, 49, 51,
52, 53. -/
def Obligations.CompletionsAndMessages : Prop :=
  (∀ (n : Fin 64) (c : Compl) (l : List Compl) (s : State), s.awake = true → s.on HIF_LNK_BME = true → (s.ringSt n = 1 ∨
    s.ringSt n = 2) → s.recordWaits n = false → (s.fld (HIF_CQP_CQTAIL n) + 1) % s.cqSize n ≠ s.fld (HIF_CQP_CQHEAD n) →
    s.ring[n].cq = c :: l → Gives (.completionPost n) s (fun t => t.fld (HIF_CQP_CQTAIL n) = (s.fld (HIF_CQP_CQTAIL n) + 1)
    % s.cqSize n ∧ (t.on (HIF_CQP_PHASE n) = s.on (HIF_CQP_PHASE n) ↔ t.fld (HIF_CQP_CQTAIL n) ≠ 0) ∧ t.ring[n].cq = l ∧
    HostOut.write (BitVec.ofNat 64 ((s.word (HIF_CQA_HI n)).toNat * 2 ^ 32 + (s.word (HIF_CQA_LO n)).toNat + 16 * s.fld
    (HIF_CQP_CQTAIL n))) (c.bytes (s.fld (HIF_STAT_SQHEAD n)) (s.fld (HIF_CQP_PHASE n))) ∈ t.out)) ∧
  (∀ (n : Fin 64) (x : BitVec 56) (s : State), s.ring[n].since = some x → s.on (HIF_CFG_IEN n) = true → s.fld (HIF_CFG_ITIME
    n) ≠ 0 → 100 * s.fld (HIF_CFG_ITIME n) ≤ (s.devtime - x).toNat → Gives (.msixTimerExpire n) s (fun t => t.ring[n].since
    = none ∧ t.ring[n].counted = 0 ∧ (t = (s.msix (s.fld (HIF_CFG_VEC n))).modRing n (fun r => { r with counted := 0, since
    := none })))) ∧
  (∀ (v : Fin 64) (o : Origin) (w : Word) (s : State), s.serves o → s.pba v = true → s.on HIF_LNK_BME = true →
    s.hif.cfg.msixOn = true → s.hif.cfg.msixMask = false → Gives (.msixUnmask v o w) s (fun t => t.on (MSIX_CTL_MASK v) =
    false ∧ t.pba v = false ∧ HostOut.message v (s.word (MSIX_ADDR_HI v) ++ s.word (MSIX_ADDR_LO v)) (s.word (MSIX_DATA v))
    ∈ t.out))

/-- IDENTIFY on a ready admin ring with a 64-byte aligned address completes OK with the identity word, and with an address other
than 0 and Bus Master Enable writes the identity block there. ADMIN_DEFERRED_START starts the first held command that may
start: an IDENTIFY so started leaves the held commands and completes. SET_LIMITS on a ready admin ring, every record naming
RW or RWG bits of a listed register and none loosening a guarded field, waits for the snapshot boundary as one merged set.
SET_LIMITS_APPLY takes every waiting set: a set of FC_BASE alone leaves it at its merged, clamped value and completes OK.

Rules: R277, R278, R281, R282, R283. The model’s own choices and readings that bear on these commands: log entries 29, 31,
44. -/
def Obligations.IdentifyAndSetLimits : Prop :=
  (∀ (d : Desc) (e : Desc) (s : State), s.adminReady → d.withOpc 1 = e → e.iaddr % 64 = 0 → e ∉ s.hif.lost → Gives (.identify
    d) s (fun t => Completed t 0 e 0 0 s.identity ∧ (e.iaddr ≠ 0 → s.on HIF_LNK_BME = true → HostOut.write (BitVec.ofNat 64
    e.iaddr) s.identityBlock ∈ t.out))) ∧
  (∀ (elems : List (BitVec 64)) (d : Desc) (a : List (List Desc)) (b : List (List Desc)) (s : State), s.firstReady []
    s.hif.held = some (a, [d], b) → d.opc = 1 → d.iaddr % 64 = 0 → s.ringSt 0 = 1 → d ∉ s.hif.lost → Gives
    (.adminDeferredStart elems) s (fun t => t.hif.held = a ++ b ∧ Completed t 0 d 0 0 s.identity)) ∧
  (∀ (ds : List Desc) (d : Desc) (l : List Desc) (s : State), s.adminReady → (ds.map (fun x => x.withOpc 2) = d :: l) → (((d
    :: l).flatMap (fun x => x.limRecs)).all LimRec.ok = true) → ((((d :: l).flatMap (fun x => x.limRecs)).foldl mergeRec
    []).any s.limGuarded = false) → Gives (.setLimits ds) s (fun t => (t.hif.limits = s.hif.limits ++ [⟨d, 0, ((d ::
    l).flatMap (fun x => x.limRecs)).foldl mergeRec [], (d :: l).flatMap (fun x => x.limRecs)⟩]))) ∧
  (∀ (d : Desc) (c : Nat) (m : Word) (w : Word) (r : List LimRec) (s : State), s.hif.limits = [⟨d, c, [(FC_BASE, m, w)], r⟩] →
    s.ringSt 0 = 1 → d ∈ s.ring[(0 : Fin 64)].started → d ∉ s.hif.lost → Gives (.setLimitsApply) s (fun t => t.hif.limits =
    [] ∧ t.word FC_BASE = s.limNew (FC_BASE, m, w) ∧ (t.ring[(0 : Fin 64)].cq.any (fun e => e.tag == d.tag && e.status == 0)
    = true)))

/-- TELEMETRY_RECORD for history of an awake device with TELPER keeps one record of each selected periodic class. GET_TELEMETRY
with Bus Master Enable and sound parameters and lists starts a capture; from history it writes the good records of the
selected classes from FROM_SEQ on to the buffer and completes OK. TELEMETRY_RECORD for a running capture of SAMPLE records
writes the record to its place in the buffer, and the last one wanted completes the command with the count, the next
sequence number, and whether one was skipped. JOURNAL_DRAIN with an aligned address and 1 to 4,096 entries wanted writes the
oldest entries to the host and completes OK with the count and the first sequence number, the journal as it was; with none
held the count is 0. COMPLETION_POST of the completion of a drain with FREE releases the entries it copied.

Rules: R284, R285, R286. The model’s own choices and readings that bear on these commands: log entries 29, 31, 39, 40, 41. -/
def Obligations.TelemetryAndDrain : Prop :=
  (∀ (skip : Bool) (s : State), s.awake = true → s.fld HIF_TEL_TELPER ≠ 0 → Gives (.telemetryRecord false skip) s (fun t =>
    ((s.fld HIF_TEL_CLASS).testBit 0 = true → (⟨s.time48, 0, s.hif.telSeq, s.samplePayload, false⟩ : TelRec) ∈
    t.hif.history) ∧ ((s.fld HIF_TEL_CLASS).testBit 2 = true → (⟨s.time48, 2, s.hif.telSeq + (if (s.fld
    HIF_TEL_CLASS).testBit 0 then 1 else 0), s.budgetPayload, false⟩ : TelRec) ∈ t.hif.history) ∧ (t.hif.telSeq =
    s.hif.telSeq + BitVec.ofNat 32 ((if (s.fld HIF_TEL_CLASS).testBit 0 then 1 else 0) + (if (s.fld HIF_TEL_CLASS).testBit 2
    then 1 else 0))))) ∧
  (∀ (d : Desc) (elems : List (BitVec 64)) (e : Desc) (s : State), s.adminReady → d.withOpc 4 = e → s.on HIF_LNK_BME = true →
    telBad [e] e = none → s.hif.tel = none → elemsFor elems (64 * e.nrec) = true → e.telCapture = true → Gives
    (.getTelemetry [d] elems) s (fun t => t.hif.tel = some ⟨e, elems, 0, false, s.hif.telSeq⟩ ∧ t.hif.telSeq =
    s.hif.telSeq)) ∧
  (∀ (d : Desc) (elems : List (BitVec 64)) (e : Desc) (s : State), s.adminReady → d.withOpc 4 = e → s.on HIF_LNK_BME = true →
    telBad [e] e = none → s.hif.tel = none → elemsFor elems (64 * e.nrec) = true → e.telCapture = false → e ∉ s.hif.lost →
    (s.hif.history.all (fun x => !x.bad) = true) → (∀ x ∈ s.hif.history.head?, 0 ≤ (BitVec.ofNat 32 e.fromSeq -
    x.seq).toInt) → Gives (.getTelemetry [d] elems) s (fun t => t.hif.tel = none ∧ (t.ring[(0 : Fin 64)].cq.getLast?.any
    (fun x => x.tag == d.tag && x.status == 0 && x.qual == 0 && x.result.toNat % 2 ^ 32 == ((s.hif.history.filter (fun (x :
    TelRec) => e.telClass.testBit x.cls.val && decide (0 ≤ (x.seq - BitVec.ofNat 32 e.fromSeq).toInt))).take e.nrec).length)
    = true) ∧ (∀ p ∈ ((s.hif.history.filter (fun (x : TelRec) => e.telClass.testBit x.cls.val && decide (0 ≤ (x.seq -
    BitVec.ofNat 32 e.fromSeq).toInt))).take e.nrec).zipIdx, (elemAddr elems (64 * p.2)).all (fun a => t.out.contains
    (HostOut.write (BitVec.ofNat 64 a) (recBytes p.1))) = true) ∧ t.ring[(0 : Fin 64)].cq.length = s.ring[(0 : Fin
    64)].cq.length + 1)) ∧
  (∀ (r : TelRun) (a : Nat) (s : State), s.awake = true → s.on HIF_LNK_BME = true → s.hif.tel = some r → r.d.telClass = 1 →
    elemAddr r.elems (64 * r.done) = some a → r.done + 1 < r.d.nrec → Gives (.telemetryRecord true false) s (fun t =>
    HostOut.write (BitVec.ofNat 64 a) (recBytes ⟨s.time48, 0, s.hif.telSeq, s.samplePayload, false⟩) ∈ t.out ∧ t.hif.tel =
    some { r with done := r.done + 1, next := s.hif.telSeq + 1 } ∧ t.hif.telSeq = s.hif.telSeq + 1)) ∧
  (∀ (r : TelRun) (a : Nat) (s : State), s.awake = true → s.on HIF_LNK_BME = true → s.hif.tel = some r → r.d.telClass = 1 →
    elemAddr r.elems (64 * r.done) = some a → r.done + 1 = r.d.nrec → s.ringSt 0 = 1 → r.d ∈ s.ring[(0 : Fin 64)].started →
    r.d ∉ s.hif.lost → Gives (.telemetryRecord true false) s (fun t => HostOut.write (BitVec.ofNat 64 a) (recBytes
    ⟨s.time48, 0, s.hif.telSeq, s.samplePayload, false⟩) ∈ t.out ∧ t.hif.tel = none ∧ (Completed t 0 r.d 0 (if r.gap then 1
    else 0) (r.d.nrec + (s.hif.telSeq + 1).toNat * 2 ^ 32)))) ∧
  (∀ (d : Desc) (e : JEntry) (l : List JEntry) (s : State), s.adminReady → s.on HIF_LNK_BME = true → (d.withOpc 5).daddr % 32
    = 0 → 1 ≤ (d.withOpc 5).maxn → (d.withOpc 5).maxn ≤ 4096 → s.hif.drain = none → s.jnl.entries = e :: l → (d.withOpc 5) ∉
    s.hif.lost → Gives (.journalDrain d) s (fun t => Completed t 0 (d.withOpc 5) 0 0 (min (d.withOpc 5).maxn (l.length + 1)
    + e.seq.toNat * 2 ^ 32) ∧ (∀ p ∈ ((e :: l).take (d.withOpc 5).maxn).zipIdx, HostOut.write (BitVec.ofNat 64 ((d.withOpc
    5).daddr + 32 * p.2)) (JEntry.bytes p.1) ∈ t.out) ∧ ((d.withOpc 5).drainFree = true → ∃ r ∈ t.hif.drain, r.first = e.seq
    ∧ r.count = min (d.withOpc 5).maxn (l.length + 1)) ∧ ((d.withOpc 5).drainFree = false → t.hif.drain = none) ∧ t.jnl =
    s.jnl)) ∧
  (∀ (d : Desc) (e : Desc) (s : State), s.adminReady → d.withOpc 5 = e → e.daddr % 32 = 0 → 1 ≤ e.maxn → e.maxn ≤ 4096 →
    s.hif.drain = none → s.jnl.entries = [] → e ∉ s.hif.lost → Gives (.journalDrain d) s (fun t => (t.ring[(0 : Fin
    64)].cq.any (fun e => e.tag == d.tag && e.status == 0 && e.result.toNat % 2 ^ 32 == 0) = true) ∧ t.hif.drain = none)) ∧
  (∀ (r : Drain) (c : Compl) (cs : List Compl) (s : State), s.awake = true → s.on HIF_LNK_BME = true → s.ringSt 0 = 1 →
    s.recordWaits 0 = false → (s.fld (HIF_CQP_CQTAIL 0) + 1) % s.cqSize 0 ≠ s.fld (HIF_CQP_CQHEAD 0) → s.ring[(0 : Fin
    64)].cq = c :: cs → c.opc = 5 → c.status = 0 → c.unsolicited = false → s.hif.drain = some r → r.ahead = 0 → Gives
    (.completionPost 0) s (fun t => t.hif.drain = none ∧ (t.jnl.entries = s.jnl.entries.dropWhile (fun e => decide ((e.seq -
    r.first).toNat < r.count))) ∧ t.ring[(0 : Fin 64)].cq = cs))

/-- On M, no access held: TW_M_POINTER_SET sets the pointer, with PEC on where its PEC over the whole transaction is right.
TW_M_WRITE with PEC off, of a pointer to any register that has a field to write and that REGISTER_WRITE speaks of, and of
four bytes, writes the word they make, low byte first, through the fabric as an access of M, counts the word and leaves the
pointer behind it: where its checks pass each field that holds what is written takes the word as its range clamps it, and
the write is journalled; where they fail the register stays, and the refusal is counted and journalled. TW_M_READ with PEC
off of four bytes at a word boundary sends the word read there, low byte first, and the pointer moves by four. With PEC on a
write with a wrong PEC changes no register of the fabric, sets PECERR and counts an error.

Rules: R300, R301, R302, R303, R305, R419, R420. The model’s own choices and readings that bear on these commands: log
entries 12, 48, 49, 51, 52, 53, 56, 90. -/
def Obligations.TwoWireTarget : Prop :=
  (∀ (ptr : BitVec 16) (stop : Bool) (s : State), s.twUp 0 = true → s.pec = false → s.heldAcc = [] → Gives (.twMPointerSet ptr
    none stop) s (fun t => t.mPtr = ptr.toNat ∧ t.tw[(0 : Fin 3)].busy = !stop ∧ t.jnl = s.jnl)) ∧
  (∀ (ptr : BitVec 16) (s : State), s.twUp 0 = true → s.pec = true → s.heldAcc = [] → Gives (.twMPointerSet ptr (some (crc8
    (s.mHead ++ [s.mAddr, (ptr >>> 8).setWidth 8, ptr.setWidth 8]))) true) s (fun t => t.mPtr = ptr.toNat ∧ t.jnl = s.jnl ∧
    t.tw[(0 : Fin 3)].part = none)) ∧
  (∀ (ptr : BitVec 16) (a : Byte) (b : Byte) (c : Byte) (d : Byte) (stop : Bool) (row : RegRow) (s : State), s.twUp 0 = true →
    s.pec = false → s.heldAcc = [] → s.jnl.queue.length < 64 → ptr.toNat % 4 = 0 → findReg regTable ptr.toNat = some row →
    row.writable = true → (onAnvil ptr.toNat = true → s.anvilAnswers = true) → s.flt.upset = none → ptr.toNat ≠ SYS_LC →
    ptr.toNat ≠ JNL_RDIDX → ptr.toNat ≠ JNL_REL → s.ringBusy ptr.toNat (s.word ptr.toNat) (s.settleWord ptr.toNat (s.word
    ptr.toNat) (row.after (s.word ptr.toNat) (BitVec.ofNat 32 (a.toNat + 256 * b.toNat + 65536 * c.toNat + 16777216 *
    d.toNat)))) = false → ptr.toNat ≠ SYS_RST → ptr.toNat ≠ PK_SHIP → s.writeReason s.mOrigin ptr.toNat row (s.word
    ptr.toNat) (s.settleWord ptr.toNat (s.word ptr.toNat) (row.after (s.word ptr.toNat) (BitVec.ofNat 32 (a.toNat + 256 *
    b.toNat + 65536 * c.toNat + 16777216 * d.toNat)))) (BitVec.ofNat 32 (a.toNat + 256 * b.toNat + 65536 * c.toNat +
    16777216 * d.toNat)) = 0 → Gives (.twMWrite [(ptr >>> 8).setWidth 8, ptr.setWidth 8, a, b, c, d] stop) s (fun t =>
    t.word ptr.toNat &&& row.limMask = (s.settleWord ptr.toNat (s.word ptr.toNat) (row.after (s.word ptr.toNat)
    (BitVec.ofNat 32 (a.toNat + 256 * b.toNat + 65536 * c.toNat + 16777216 * d.toNat)))) &&& row.limMask ∧
    s.jnl.queue.length < t.jnl.queue.length ∧ t.mPtr = (ptr.toNat + 4) % 65536 ∧ Counted s t TW_M_CNT_WORDS)) ∧
  (∀ (ptr : BitVec 16) (a : Byte) (b : Byte) (c : Byte) (d : Byte) (stop : Bool) (row : RegRow) (s : State), s.twUp 0 = true →
    s.pec = false → s.heldAcc = [] → s.jnl.queue.length < 64 → ptr.toNat % 4 = 0 → findReg regTable ptr.toNat = some row →
    row.writable = true → (onAnvil ptr.toNat = true → s.anvilAnswers = true) → s.flt.upset = none → ptr.toNat ≠ SYS_LC →
    ptr.toNat ≠ JNL_RDIDX → ptr.toNat ≠ JNL_REL → s.ringBusy ptr.toNat (s.word ptr.toNat) (s.settleWord ptr.toNat (s.word
    ptr.toNat) (row.after (s.word ptr.toNat) (BitVec.ofNat 32 (a.toNat + 256 * b.toNat + 65536 * c.toNat + 16777216 *
    d.toNat)))) = false → s.writeReason s.mOrigin ptr.toNat row (s.word ptr.toNat) (s.settleWord ptr.toNat (s.word
    ptr.toNat) (row.after (s.word ptr.toNat) (BitVec.ofNat 32 (a.toNat + 256 * b.toNat + 65536 * c.toNat + 16777216 *
    d.toNat)))) (BitVec.ofNat 32 (a.toNat + 256 * b.toNat + 65536 * c.toNat + 16777216 * d.toNat)) ≠ 0 → ptr.toNat ≠
    CHG_PLOAD → Gives (.twMWrite [(ptr >>> 8).setWidth 8, ptr.setWidth 8, a, b, c, d] stop) s (fun t => t.word ptr.toNat =
    s.word ptr.toNat ∧ Counted s t AUTH_CNT_REFUSED ∧ t.jnl.queue.length = s.jnl.queue.length + 1 ∧ t.mPtr = (ptr.toNat + 4)
    % 65536 ∧ Counted s t TW_M_CNT_WORDS)) ∧
  (∀ (l : List Byte) (s : State), s.twUp 0 = true → s.pec = true → s.heldAcc = [] → 3 ≤ l.length → l.length ≤ 64 -
    (l[0]!.toNat * 256 + l[1]!.toNat) % 64 + 3 → crc8 (s.mHead ++ s.mAddr :: l.dropLast) ≠ l.getLastD 0 → Gives (.twMWrite l
    true) s (fun t => t.mPtr = s.mPtr ∧ t.jnl = s.jnl ∧ t.heldAcc = s.heldAcc ∧ (t.word TW_M_EVT).getLsbD 4 = true ∧ Counted
    s t TW_M_CNT_ERRS)) ∧
  (∀ (stop : Bool) (s : State), s.twUp 0 = true → s.pec = false → s.heldAcc = [] → s.flt.upset = none → s.mPtr % 4 = 0 → Gives
    (.twMRead 4 stop) s (fun t => t.tw[(0 : Fin 3)].sent = leBytes (s.readReg s.mPtr).1.toNat 4 ∧ t.mPtr = (s.mPtr + 4) %
    65536 ∧ t.tw[(0 : Fin 3)].busy = !stop))

/-- On a port that works, TW_BUS_ERROR sets BUSERR, on a pack port ARBLOST too with a failed transaction counted, and abandons
the transaction; TW_SCL_TIMEOUT and TW_SDA_TIMEOUT set TO_SCL and TO_SDA and raise TW_TIMEOUT; after each SDA is to be
checked. TW_BUS_FREE ends a busy bus. TW_BUS_CLEAR of a port to be checked, on a pack port with its pack or a bus clear
asked for, and not held unless one is, ends the check with both lines high, or holds the port and raises TW_STUCK.
TW_BUSCLR, served, of a held port and TW_PORT_RESET, served, ask for the check again.

Rules: R299, R306, R307, R312, R313, R316. The model’s own choices and readings that bear on these commands: log entries 12,
40, 48, 49, 51, 52, 53, 56, 57, 90, 144, 145. -/
def Obligations.TwoWireBus : Prop :=
  (∀ (p : Fin 3) (s : State), s.twUp p = true → Gives (.twBusError p) s (fun t => (t.word (twEvt p)).getLsbD 0 = true ∧
    t.tw[p].part = none ∧ t.tw[p].check = true ∧ (p ≠ 0 → (t.word (twEvt p)).getLsbD 5 = true) ∧ (p ≠ 0 → s.packIn (twPack
    p) = true → Counted s t (TW_PK_CNT_FAIL (twPack p))) ∧ (p = 0 → t.fld TW_M_STAT_ROLE = 0 ∧ Counted s t TW_M_CNT_ERRS))) ∧
  (∀ (p : Fin 3) (s : State), s.twUp p = true → Gives (.twSclTimeout p) s (fun t => (t.word (twEvt p)).getLsbD 1 = true ∧
    t.tw[p].part = none ∧ t.tw[p].check = true ∧ Raised t srcTW_TIMEOUT p.val)) ∧
  (∀ (p : Fin 3) (s : State), s.twUp p = true → Gives (.twSdaTimeout p) s (fun t => (t.word (twEvt p)).getLsbD 2 = true ∧
    t.tw[p].part = none ∧ t.tw[p].check = true ∧ Raised t srcTW_TIMEOUT p.val)) ∧
  (∀ (p : Fin 3) (s : State), s.awake = true → Gives (.twBusFree p) s (fun t => t.tw[p].busy = false ∧ (p = 0 → t.on
    TW_M_STAT_BUSY = false))) ∧
  (∀ (p : Fin 3) (n : Fin 10) (s : State), s.twUp p = true → s.tw[p].check = true → (s.on (twHeld p) = false ∨ s.on (twClr p)
    = true) → (p = 0 ∨ s.packIn (twPack p) = true ∨ s.on (twClr p) = true) → Gives (.twBusClear p (some n)) s (fun t =>
    t.tw[p].check = false ∧ t.on (twHeld p) = false ∧ t.on (twClr p) = false ∧ (p = 0 → t.on TW_M_STAT_SDA = true) ∧ (p ≠ 0
    → t.on (TW_PK_STAT_SDA (twPack p)) = true) ∧ (n ≠ 0 → t.tw[p].busy = false))) ∧
  (∀ (p : Fin 3) (s : State), s.twUp p = true → s.tw[p].check = true → (s.on (twHeld p) = false ∨ s.on (twClr p) = true) → (p
    = 0 ∨ s.packIn (twPack p) = true ∨ s.on (twClr p) = true) → Gives (.twBusClear p none) s (fun t => t.on (twHeld p) =
    true ∧ (t.word (twEvt p)).getLsbD 2 = true ∧ Raised t srcTW_STUCK p.val)) ∧
  (∀ (p : Fin 3) (o : Origin) (v : Word) (s : State), s.serves o → s.on SYS_MAINT_MAINT = true → s.present = true → s.stalled
    = false → s.on (twHeld p) = true → Gives (.twBusclr p o v) s (fun t => t.on (twClr p) = true ∧ t.tw[p].check = true)) ∧
  (∀ (p : Fin 3) (o : Origin) (v : Word) (s : State), s.serves o → s.on SYS_MAINT_MAINT = true → s.present = true → s.stalled
    = false → Gives (.twPortReset p o v) s (fun t => t.tw[p].busy = true ∧ t.tw[p].check = true ∧ t.tw[p].part = none))

/-- ALERT_RAISE raises the alerts that have fallen due: PEND, and a Host Notify; one falls due as an enabled line rises, in
modes 1 and 3 and in modes 2 and 3, with none pending: so the line of the journal block as ATTEND_PRESS opens the window.
ALERT_RESPONSE that is not lost answers with the address of M, with its PEC where PEC is on, clears PEND and sets its flag.
HOST_NOTIFY and, 1 ms after the attempt before, HOST_NOTIFY_RETRY on a free, checked bus send the notify with the asserted
enabled lines and end it, or count a failed attempt. HOST_NOTIFY_DROP 100 ms after the alert drops it. TW_ARB_LOST sets its
flags.

Rules: R292, R308, R309, R310, R311. The model’s own choices and readings that bear on these commands: log entries 40, 56,
57, 59, 90, 144. -/
def Obligations.AlertsAndHostNotify : Prop :=
  (∀ (s : State), s.twUp 0 = true → Gives (.alertRaise) s (fun t => t.tw[(0 : Fin 3)].dueAlert = false ∧ t.tw[(0 : Fin
    3)].dueNotify = false ∧ (s.tw[(0 : Fin 3)].dueAlert = true → t.on TW_M_ALERT_PEND = true) ∧ (s.tw[(0 : Fin 3)].dueNotify
    = true → t.tw[(0 : Fin 3)].hnPend = true ∧ t.tw[(0 : Fin 3)].hnFails = 0 ∧ t.tw[(0 : Fin 3)].hnAt = s.devtime))) ∧
  (∀ (s : State), s.twUp 0 = true → s.auth.held = false → s.line 2 = false → (BitVec.ofNat 16 (s.fld
    TW_M_ALERT_AMASK)).getLsbD 2 = true → Gives (.attendPress) s (fun t => (s.present = false → s.fld TW_M_ALERT_ALMODE % 2
    = 1 → s.on TW_M_ALERT_PEND = false → t.tw[(0 : Fin 3)].dueAlert = true) ∧ (s.present = false → 2 ≤ s.fld
    TW_M_ALERT_ALMODE → s.tw[(0 : Fin 3)].hnPend = false → t.tw[(0 : Fin 3)].dueNotify = true))) ∧
  (∀ (s : State), s.twUp 0 = true → s.on TW_M_ALERT_PEND = true → Gives (.alertResponse false) s (fun t => t.on
    TW_M_ALERT_PEND = false ∧ (t.tw[(0 : Fin 3)].sent = s.mAddr :: (if s.pec then [crc8 [0x19, s.mAddr]] else [])) ∧ (t.word
    TW_M_EVT).getLsbD 9 = true)) ∧
  (∀ (s : State), s.twUp 0 = true → s.tw[(0 : Fin 3)].hnPend = true → s.tw[(0 : Fin 3)].busy = false → s.tw[(0 : Fin 3)].check
    = false → s.on TW_M_STAT_HELD = false → s.tw[(0 : Fin 3)].hnFails = 0 → Gives (.hostNotify true) s (fun t => t.tw[(0 :
    Fin 3)].hnPend = false ∧ t.fld TW_M_HN_LASTDATA = s.alertWord.toNat ∧ (t.tw[(0 : Fin 3)].sent = (let l := [BitVec.ofNat
    8 (2 * s.fld TW_M_HN_HNADDR), s.mAddr, s.alertWord.setWidth 8, (s.alertWord >>> 8).setWidth 8]; if s.pec then l ++ [crc8
    l] else l)))) ∧
  (∀ (s : State), s.twUp 0 = true → s.tw[(0 : Fin 3)].hnPend = true → s.tw[(0 : Fin 3)].busy = false → s.tw[(0 : Fin 3)].check
    = false → s.on TW_M_STAT_HELD = false → s.tw[(0 : Fin 3)].hnFails = 0 → Gives (.hostNotify false) s (fun t => t.tw[(0 :
    Fin 3)].hnPend = true ∧ t.tw[(0 : Fin 3)].hnFails = 1)) ∧
  (∀ (s : State), s.twUp 0 = true → s.tw[(0 : Fin 3)].hnPend = true → s.tw[(0 : Fin 3)].busy = false → s.tw[(0 : Fin 3)].check
    = false → s.on TW_M_STAT_HELD = false → (s.tw[(0 : Fin 3)].hnFails = 1 ∨ s.tw[(0 : Fin 3)].hnFails = 2) → 100000 ≤
    (s.devtime - s.tw[(0 : Fin 3)].hnTry).toNat → Gives (.hostNotifyRetry true) s (fun t => t.tw[(0 : Fin 3)].hnPend = false
    ∧ t.fld TW_M_HN_LASTDATA = s.alertWord.toNat ∧ (t.tw[(0 : Fin 3)].sent = (let l := [BitVec.ofNat 8 (2 * s.fld
    TW_M_HN_HNADDR), s.mAddr, s.alertWord.setWidth 8, (s.alertWord >>> 8).setWidth 8]; if s.pec then l ++ [crc8 l] else
    l)))) ∧
  (∀ (s : State), s.twUp 0 = true → s.tw[(0 : Fin 3)].hnPend = true → s.tw[(0 : Fin 3)].busy = false → s.tw[(0 : Fin 3)].check
    = false → s.on TW_M_STAT_HELD = false → (s.tw[(0 : Fin 3)].hnFails = 1 ∨ s.tw[(0 : Fin 3)].hnFails = 2) → 100000 ≤
    (s.devtime - s.tw[(0 : Fin 3)].hnTry).toNat → Gives (.hostNotifyRetry false) s (fun t => t.tw[(0 : Fin 3)].hnPend = true
    ∧ t.tw[(0 : Fin 3)].hnFails = s.tw[(0 : Fin 3)].hnFails + 1)) ∧
  (∀ (s : State), s.twUp 0 = true → s.tw[(0 : Fin 3)].hnPend = true → 10000000 ≤ (s.devtime - s.tw[(0 : Fin 3)].hnAt).toNat →
    Gives (.hostNotifyDrop) s (fun t => t.tw[(0 : Fin 3)].hnPend = false ∧ (t.word TW_M_EVT).getLsbD 8 = true)) ∧
  (∀ (own : Bool) (s : State), s.twUp 0 = true → s.tw[(0 : Fin 3)].hnPend = true → Gives (.twArbLost 0 own) s (fun t =>
    (t.word TW_M_EVT).getLsbD 6 = true ∧ (own = true → (t.word TW_M_EVT).getLsbD 7 = true ∧ t.fld TW_M_STAT_ROLE = 1) ∧
    t.tw[(0 : Fin 3)].busy = true)) ∧
  (∀ (p : Fin 3) (own : Bool) (s : State), s.twUp p = true → p ≠ 0 → Gives (.twArbLost p own) s (fun t => (t.word (twEvt
    p)).getLsbD 0 = true ∧ (t.word (twEvt p)).getLsbD 5 = true))

/-- CMP_GP_EVENT of an awake device with no blanking or settling in force, lasting through the event filter: an input above the
upper threshold asserts a released upper output, counts it and, with FLTEN, raises CMP_GP; one inside the window by the
hysteresis releases both outputs. BUS_UV, BIAS_LOW and BIAS_OV under the same conditions assert their output, count it and
raise their fault. BLANKING_INTERVAL_END of comparators 0 to 45, 1.0 µs after the blanking began, ends it, and an output
that nothing else holds takes the state of its input: for comparators 24 to 28, 45 and the phases an input above the upper
threshold asserts a released upper output.

Rules: R318, R321, R323, R324, R325, R326. The model’s own choices and readings that bear on these commands: log entries 82,
116. -/
def Obligations.ComparatorEvents : Prop :=
  (∀ (g : Fin 2) (x : Int) (w : Nat) (s : State), s.awake = true → s.cmpHeld (46 + g.val) true = false → 25 * s.fld
    (CMP_CFG_EVFILT (46 + g.val)) ≤ w → ((s.thr (46 + g.val)).2 : Int) < x → s.fld (CMP_STAT_HISTATE (46 + g.val)) = 0 →
    Gives (.cmpGpEvent g x w) s (fun t => t.fld (CMP_STAT_HISTATE (46 + g.val)) = 1 ∧ t.on (CMP_EVT_HIEV (46 + g.val)) =
    true ∧ Counted s t (CMP_EVT_HICNT (46 + g.val)) ∧ (s.on (CMP_CFG_FLTEN (46 + g.val)) = true → Raised t srcCMP_GP (46 +
    g.val)))) ∧
  (∀ (g : Fin 2) (x : Int) (w : Nat) (s : State), s.awake = true → s.cmpHeld (46 + g.val) true = false → s.cmpHeld (46 +
    g.val) false = false → 25 * s.fld (CMP_CFG_EVFILT (46 + g.val)) ≤ w → ((s.thr (46 + g.val)).1 : Int) + s.cmpHys (46 +
    g.val) ≤ x → x + s.cmpHys (46 + g.val) ≤ (s.thr (46 + g.val)).2 → Gives (.cmpGpEvent g x w) s (fun t => t.fld
    (CMP_STAT_HISTATE (46 + g.val)) = 0 ∧ t.fld (CMP_STAT_LOSTATE (46 + g.val)) = 0 ∧ t.flt = s.flt)) ∧
  (∀ (w : Nat) (s : State), s.awake = true → s.cmpHeld 28 false = false → 25 * s.fld (CMP_CFG_EVFILT 28) ≤ w → Gives (.busUv
    w) s (fun t => t.fld (CMP_STAT_LOSTATE 28) = 1 ∧ Counted s t (CMP_EVT_LOCNT 28) ∧ Raised t srcBUS_UV 0)) ∧
  (∀ (w : Nat) (s : State), s.awake = true → s.cmpHeld 45 false = false → 25 * s.fld (CMP_CFG_EVFILT 45) ≤ w → Gives (.biasLow
    w) s (fun t => t.fld (CMP_STAT_LOSTATE 45) = 1 ∧ Counted s t (CMP_EVT_LOCNT 45) ∧ Raised t srcBIAS_LOW 0)) ∧
  (∀ (w : Nat) (s : State), s.awake = true → s.cmpHeld 45 true = false → 25 * s.fld (CMP_CFG_EVFILT 45) ≤ w → Gives (.biasOv
    w) s (fun t => t.fld (CMP_STAT_HISTATE 45) = 1 ∧ Counted s t (CMP_EVT_HICNT 45) ∧ Raised t srcBIAS_OV 0)) ∧
  (∀ (c : Fin 48) (x : Int) (s : State), c.val < 46 → 100 ≤ (s.devtime - s.cmp[c].blankAt).toNat → Gives (.blankingIntervalEnd
    c x) s (fun t => t.on (CMP_STAT_BLANK c) = false)) ∧
  (∀ (c : Fin 48) (x : Int) (s : State), 24 ≤ c.val → c.val < 46 → 100 ≤ (s.devtime - s.cmp[c].blankAt).toNat → s.on
    (CMP_STAT_BLANK c) = true → s.cmp[c].settle = none → ((s.thr c).2 : Int) < x → s.fld (CMP_STAT_HISTATE c) = 0 → Gives
    (.blankingIntervalEnd c x) s (fun t => t.fld (CMP_STAT_HISTATE c) = 1 ∧ t.on (CMP_EVT_HIEV c) = true ∧ t.cmp[c].x = some
    x))

/-- COMPARATOR_AUTOZERO of an awake device, for the spare stage, A or B: it fails when the trim reaches ±31 or differs by more
than 4 codes from the last trim of the stage. One that fails leaves the live stage in service, sets AZERR and raises CMP_AZ,
and the third failure in a row of the stage raises CMP_STAGE. One that does not fail raises nothing; the stage is swapped in
at once where no blanking is in force, nothing settles and both stages agree, and otherwise waits for that. That a failed
trim is kept too, held to ±31, is the model’s reading, log entry 83.

Rules: R327, R328. The model’s own choices and readings that bear on these commands: log entry 83. -/
def Obligations.ComparatorAutoZero : Prop :=
  (∀ (c : Fin 48) (trim : Int) (x : Int) (s : State), s.awake = true → s.on (CMP_STAT_LIVE c) = false → -31 < trim → trim < 31
    → (trim - s.sfld (CMP_STAT_TRIMB c)).natAbs ≤ 4 → s.on (CMP_STAT_BLANK c) = false → s.cmp[c].settle = none → ((s.modCmp
    c (fun m => { m with x := some x })).cmpAgrees c = true) → Gives (.comparatorAutozero c trim x) s (fun t => t.on
    (CMP_STAT_LIVE c) = !s.on (CMP_STAT_LIVE c) ∧ t.cmp[c].swap = false ∧ t.sfld (CMP_STAT_TRIMB c) = trim ∧ t.cmp[c].failB
    = 0 ∧ t.cmp[c].failA = s.cmp[c].failA ∧ t.flt = s.flt)) ∧
  (∀ (c : Fin 48) (trim : Int) (x : Int) (s : State), s.awake = true → s.on (CMP_STAT_LIVE c) = false → -31 < trim → trim < 31
    → (trim - s.sfld (CMP_STAT_TRIMB c)).natAbs ≤ 4 → (s.on (CMP_STAT_BLANK c) = true ∨ s.cmp[c].settle.isSome = true ∨
    (s.modCmp c (fun m => { m with x := some x })).cmpAgrees c = false) → Gives (.comparatorAutozero c trim x) s (fun t =>
    t.on (CMP_STAT_LIVE c) = s.on (CMP_STAT_LIVE c) ∧ t.cmp[c].swap = true ∧ t.sfld (CMP_STAT_TRIMB c) = trim ∧
    t.cmp[c].failB = 0 ∧ t.cmp[c].failA = s.cmp[c].failA ∧ t.flt = s.flt)) ∧
  (∀ (c : Fin 48) (trim : Int) (x : Int) (s : State), s.awake = true → s.on (CMP_STAT_LIVE c) = false → (trim ≤ -31 ∨ 31 ≤
    trim ∨ 4 < (trim - s.sfld (CMP_STAT_TRIMB c)).natAbs) → Gives (.comparatorAutozero c trim x) s (fun t => t.on
    (CMP_STAT_LIVE c) = s.on (CMP_STAT_LIVE c) ∧ t.cmp[c].swap = false ∧ t.sfld (CMP_STAT_TRIMB c) = max (-31) (min 31 trim)
    ∧ t.on (CMP_EVT_AZERR c) = true ∧ t.cmp[c].failB = s.cmp[c].failB + 1 ∧ Raised t srcCMP_AZ c.val ∧ (s.cmp[c].failB = 2 →
    Raised t srcCMP_STAGE c.val ∧ Counted s t CMP_GSTAT_AZFAILN))) ∧
  (∀ (c : Fin 48) (trim : Int) (x : Int) (s : State), s.awake = true → s.on (CMP_STAT_LIVE c) = true → -31 < trim → trim < 31
    → (trim - s.sfld (CMP_STAT_TRIMA c)).natAbs ≤ 4 → s.on (CMP_STAT_BLANK c) = false → s.cmp[c].settle = none → ((s.modCmp
    c (fun m => { m with x := some x })).cmpAgrees c = true) → Gives (.comparatorAutozero c trim x) s (fun t => t.on
    (CMP_STAT_LIVE c) = !s.on (CMP_STAT_LIVE c) ∧ t.cmp[c].swap = false ∧ t.sfld (CMP_STAT_TRIMA c) = trim ∧ t.cmp[c].failA
    = 0 ∧ t.cmp[c].failB = s.cmp[c].failB ∧ t.flt = s.flt)) ∧
  (∀ (c : Fin 48) (trim : Int) (x : Int) (s : State), s.awake = true → s.on (CMP_STAT_LIVE c) = true → -31 < trim → trim < 31
    → (trim - s.sfld (CMP_STAT_TRIMA c)).natAbs ≤ 4 → (s.on (CMP_STAT_BLANK c) = true ∨ s.cmp[c].settle.isSome = true ∨
    (s.modCmp c (fun m => { m with x := some x })).cmpAgrees c = false) → Gives (.comparatorAutozero c trim x) s (fun t =>
    t.on (CMP_STAT_LIVE c) = s.on (CMP_STAT_LIVE c) ∧ t.cmp[c].swap = true ∧ t.sfld (CMP_STAT_TRIMA c) = trim ∧
    t.cmp[c].failA = 0 ∧ t.cmp[c].failB = s.cmp[c].failB ∧ t.flt = s.flt)) ∧
  (∀ (c : Fin 48) (trim : Int) (x : Int) (s : State), s.awake = true → s.on (CMP_STAT_LIVE c) = true → (trim ≤ -31 ∨ 31 ≤ trim
    ∨ 4 < (trim - s.sfld (CMP_STAT_TRIMA c)).natAbs) → Gives (.comparatorAutozero c trim x) s (fun t => t.on (CMP_STAT_LIVE
    c) = s.on (CMP_STAT_LIVE c) ∧ t.cmp[c].swap = false ∧ t.sfld (CMP_STAT_TRIMA c) = max (-31) (min 31 trim) ∧ t.on
    (CMP_EVT_AZERR c) = true ∧ t.cmp[c].failA = s.cmp[c].failA + 1 ∧ Raised t srcCMP_AZ c.val ∧ (s.cmp[c].failA = 2 → Raised
    t srcCMP_STAGE c.val ∧ Counted s t CMP_GSTAT_AZFAILN)))

/-- ADCA_PASS and ADCB_PASS of an awake device with the die link up: a tick with no pass still running starts one and counts
PASS; a tick while an earlier one still waits is lost and counted. On ADCA an enabled entry 0 that is due on a single-ended
or differential channel puts the code of its input in its result. ADC_INJECTION of the device, any system injection that
runs being i2 or i3, converts at once: on ADCA the next running phase of the port in turn, on ADCB the pack of a running
Sounding; one of the system converts where it is triggered and enabled.

Rules: R330, R332, R334, R335, R336. The model’s own choices and readings that bear on these commands: log entries 73, 84. -/
def Obligations.ConversionPasses : Prop :=
  (∀ (inp : AdcIn) (u : Rat) (s : State), s.awake = true → s.sys.d2d = true → s.adc[(0 : Fin 2)].passEnd ≤ u → s.adc[(0 : Fin
    2)].passFrom ≤ u → Gives (.adcaPass inp u) s (fun t => t.fld (ADC_STAT_PASS (0 : Fin 2)) = (s.fld (ADC_STAT_PASS (0 :
    Fin 2)) + 1) % 65536 ∧ t.adc[(0 : Fin 2)].passFrom = u ∧ u ≤ t.adc[(0 : Fin 2)].passEnd)) ∧
  (∀ (inp : AdcIn) (u : Rat) (s : State), s.awake = true → s.sys.d2d = true → u < s.adc[(0 : Fin 2)].passFrom → Gives
    (.adcaPass inp u) s (fun t => t.adc = s.adc ∧ Counted s t (ADC_CNT_TRIGLOST (0 : Fin 2)))) ∧
  (∀ (inp : AdcIn) (u : Rat) (s : State), s.awake = true → s.sys.d2d = true → s.adc[(1 : Fin 2)].passEnd ≤ u → s.adc[(1 : Fin
    2)].passFrom ≤ u → Gives (.adcbPass inp u) s (fun t => t.fld (ADC_STAT_PASS (1 : Fin 2)) = (s.fld (ADC_STAT_PASS (1 :
    Fin 2)) + 1) % 65536 ∧ t.adc[(1 : Fin 2)].passFrom = u ∧ u ≤ t.adc[(1 : Fin 2)].passEnd)) ∧
  (∀ (inp : AdcIn) (u : Rat) (s : State), s.awake = true → s.sys.d2d = true → u < s.adc[(1 : Fin 2)].passFrom → Gives
    (.adcbPass inp u) s (fun t => t.adc = s.adc ∧ Counted s t (ADC_CNT_TRIGLOST (1 : Fin 2)))) ∧
  (∀ (inp : AdcIn) (u : Rat) (ch : Nat) (smp : Nat) (s : State), s.awake = true → s.sys.d2d = true → s.adc[(0 : Fin
    2)].passEnd ≤ u → s.adc[(0 : Fin 2)].passFrom ≤ u → (s.dueNow 0 ((s.fld (ADC_STAT_PASS 0) + 1) % 65536)).getLsbD 0 =
    true → s.entryAt 0 0 = ⟨ch, false, false, smp⟩ → ch < 31 → Gives (.adcaPass inp u) s (fun t => (t.word (ADC_RES 0
    0)).toNat % 65536 = (adcCode (adcChan ch false).1 (adcChan ch false).2.1 (vrefOf (s.fld (ADC_STAT_REFUSE 0)))
    (inp.v.toList.getD ch 0)).1 ∧ (t.word (ADC_RES 0 0)).toNat / 2 ^ 24 % 64 = ch)) ∧
  (∀ (j : Fin 2) (inp : AdcIn) (y : Int) (u : Rat) (n : Fin 16) (s : State), s.awake = true → s.sys.d2d = true → s.nextAmp j =
    some n → (s.adc[(0 : Fin 2)].sysRun.all (fun z => decide (2 ≤ z.k.val)) = true) → Gives (.adcInjection 0 (j.castAdd 2)
    inp y u) s (fun t => (t.word (ADC_INJR 0 j.val)).toNat / 2 ^ 24 % 64 = 15 + n.val ∧ t.adc[(0 : Fin 2)].injSys = false ∧
    t.php[j].rot = n.val)) ∧
  (∀ (j : Fin 2) (inp : AdcIn) (y : Int) (u : Rat) (r : Sounding) (s : State), s.awake = true → s.sys.d2d = true →
    s.chg[j].snd = some r → (s.adc[(1 : Fin 2)].sysRun.all (fun z => decide (2 ≤ z.k.val)) = true) → Gives (.adcInjection 1
    (j.castAdd 2) inp y u) s (fun t => (t.word (ADC_INJR 1 j.val)).toNat / 2 ^ 24 % 64 = (s.entryAt 1 ⟨32 + j.val, by
    omega⟩).ch ∧ t.adc[(1 : Fin 2)].injSys = false)) ∧
  (∀ (x : Fin 2) (k : Fin 4) (inp : AdcIn) (y : Int) (u : Rat) (s : State), s.awake = true → s.sys.d2d = true → 2 ≤ k.val → k
    ∈ s.adc[x].inj → s.on (ADC_INJ_A_EN x k) = true → Gives (.adcInjection x k inp y u) s (fun t => (t.word (ADC_INJR x
    k)).toNat / 2 ^ 24 % 64 = (s.entryAt x ⟨32 + k.val, by omega⟩).ch ∧ k ∉ t.adc[x].inj ∧ t.adc[x].injSys = true))

/-- REFERENCE_LOSS of a ready reference clears its bit, and each converter that used it falls back to the bandgap, notes it and
raises ADC_REF; REFERENCE_READY sets the bit. REFSEL_WRITE, served, brings the named reference into use, 3 acting as 0, and
ends a fallback. ADC_CROSS_CHECK of an awake device with the die link up stores the code of channel 42, and where the
references do not agree counts and notes it.

Rules: R339, R340. The model’s own choices and readings that bear on these commands: log entries 12, 48, 49, 51, 52, 53, 85. -/
def Obligations.References : Prop :=
  (∀ (r : Fin 3) (busy : BitVec 2) (s : State), s.on (refBit r) = true → Gives (.referenceLoss r busy) s (fun t => t.on
    (refBit r) = false ∧ (∀ x : Fin 2, s.fld (ADC_STAT_REFUSE x) = r.val → t.fld (ADC_STAT_REFUSE x) = 0 ∧ t.on
    (ADC_STAT_REFFB x) = true ∧ Raised t srcADC_REF x.val))) ∧
  (∀ (r : Fin 3) (s : State), Gives (.referenceReady r) s (fun t => t.on (refBit r) = true)) ∧
  (∀ (x : Fin 2) (o : Origin) (v : Word) (s : State), s.serves o → s.on SYS_MAINT_MAINT = true → s.present = true → s.stalled
    = false → s.anvilAnswers = true → Gives (.refselWrite x o v) s (fun t => t.fld (ADC_CFG_REFSEL x) = (ADC_CFG_REFSEL
    x).extract v ∧ t.fld (ADC_STAT_REFUSE x) = (ADC_CFG_REFSEL x).extract v % 3 ∧ t.on (ADC_STAT_REFFB x) = false)) ∧
  (∀ (x : Fin 2) (a : BitVec 16) (b : BitVec 16) (c : BitVec 16) (s : State), s.awake = true → s.sys.d2d = true → Gives
    (.adcCrossCheck x a b c) s (fun t => (t.fld (if x = 0 then ADC_XCHK_ACODE else ADC_XCHK_BCODE) = a.toNat) ∧
    t.adc[x].checked = true ∧ ((refAgree b.toNat a.toNat 33 25 30 && (!s.on ADC_REF_XRDY || refAgree c.toNat a.toNat 1 1 5))
    = false → Counted s t ADC_REF_XFAIL)))

/-- DIE_TEMP_READING of an awake device of which ADCB has converted the Anvil sensors: each sensor holds its reading, to its
range; TJA and TJC show the temperature of each die, TJ the higher, kept with the last seven for the slope. Before ADCB has
converted them the Anvil sensors hold theirs and TJ follows Cirrus (log entry 129). A sensor that this reading makes SUSPECT
still counts toward them; PEAK keeps the highest TJ. A valid sensor at 150 °C or more raises THM_TRIP, whatever else is in
progress. ANVIL_OVERTEMP of a powered device takes the safe state with every trip wire in the trip state, recorded as
THM_ANVIL where the die link is up. STAGE_TEMP_READING of an awake device and a converted voltage: one of 0.28 to 2.4 V
gives the stage temperature, one below 0.28 V is invalid and counted for the stage. NCAP_STEP, 10 ms after the last step,
lowers the cap by one while a stage of a running phase stands at TSTG2 or above and the cap is above 1, keeps it while one
that was there is not yet released, and otherwise, 100 ms after the last step, raises it by one below NMAX.
THERMAL_COMP_UPDATE moves a correction toward the code that its fuse coefficients ask for (Config.compCode, a free value:
log entry 79) at the temperature of the sensor it follows, and holds it with no valid sensor on that die; HOLD says whether
any of the four is held.

Rules: R17, R345, R346, R349, R350, R352, R354, R355, R356, R357, R358. The model’s own choices and readings that bear on
these commands: log entries 77, 79, 80, 129. -/
def Obligations.Temperatures : Prop :=
  (∀ (tc : Vector Int 5) (s : State), s.awake = true → s.anvilRead = true → Gives (.dieTempReading tc) s (fun t => (∀ i : Fin
    5, -32768 ≤ tc[i] → tc[i] ≤ 32767 → t.sfld (THM_TS_T (4 + i.val)) = tc[i]) ∧ (∀ i : Fin 4, t.sfld (THM_TS_T i.val) = max
    (-32768) (min 32767 (16 * (25 + (7 / 10 - s.meas.v[Fin.ofNat 48 (38 + i.val)]) * 500)).floor)) ∧ (t.thm.hist = (max
    (t.dieT (fun i => s.fld (THM_TS_STATE i.val) != 1) false) (t.dieT (fun i => s.fld (THM_TS_STATE i.val) != 1) true) ::
    s.thm.hist).take 8) ∧ (t.sfld THM_SUM_TJ = max (-128) (min 127 (max (t.dieT (fun i => s.fld (THM_TS_STATE i.val) != 1)
    false) (t.dieT (fun i => s.fld (THM_TS_STATE i.val) != 1) true) / 16))) ∧ (t.sfld THM_SUM_TJA = max (-128) (min 127
    (t.dieT (fun i => s.fld (THM_TS_STATE i.val) != 1) false / 16))) ∧ (t.sfld THM_SUM_TJC = max (-128) (min 127 (t.dieT
    (fun i => s.fld (THM_TS_STATE i.val) != 1) true / 16))) ∧ (t.fld THM_SUM_PEAK = if (s.fld THM_SUM_PEAK : Int) < max
    (t.dieT (fun i => s.fld (THM_TS_STATE i.val) != 1) false) (t.dieT (fun i => s.fld (THM_TS_STATE i.val) != 1) true) / 16
    then min 255 (max (t.dieT (fun i => s.fld (THM_TS_STATE i.val) != 1) false) (t.dieT (fun i => s.fld (THM_TS_STATE i.val)
    != 1) true) / 16).toNat else s.fld THM_SUM_PEAK) ∧ (t.hardTrip = true → t.flt.lines.any (fun e => e.src == srcTHM_TRIP
    && e.cls == .fatal) = true))) ∧
  (∀ (tc : Vector Int 5) (s : State), s.awake = true → s.anvilRead = false → Gives (.dieTempReading tc) s (fun t => (∀ i : Fin
    5, -32768 ≤ tc[i] → tc[i] ≤ 32767 → t.sfld (THM_TS_T (4 + i.val)) = tc[i]) ∧ (∀ i : Fin 4, t.fld (THM_TS_T i.val) =
    s.fld (THM_TS_T i.val)) ∧ (t.thm.hist = (t.dieT (fun i => s.fld (THM_TS_STATE i.val) != 1) true :: s.thm.hist).take 8) ∧
    (t.sfld THM_SUM_TJ = max (-128) (min 127 (t.dieT (fun i => s.fld (THM_TS_STATE i.val) != 1) true / 16))) ∧ t.sfld
    THM_SUM_TJC = t.sfld THM_SUM_TJ)) ∧
  (∀ (s : State), s.powered = true → s.sys.d2d = true → Gives (.anvilOvertemp) s (fun t => t.flt.level = true ∧ (∀ n : Fin 16,
    t.ph[n].trip = true) ∧ (t.word FLT_STATUS_LO).getLsbD 3 = true)) ∧
  (∀ (s : State), s.powered = true → s.sys.d2d = false → Gives (.anvilOvertemp) s (fun t => t.flt.level = true ∧ (∀ n : Fin
    16, t.ph[n].trip = true))) ∧
  (∀ (n : Fin 16) (v : Rat) (s : State), s.awake = true → s.meas.tseen.getLsbD n = true → s.meas.tflt[n] = v → 28 / 100 ≤ v →
    v ≤ 12 / 5 → Gives (.stageTempReading n) s (fun t => (t.sfld (PH_STAT_TSTAGE n) = max (-128) (min 127 (if 9 / 5 ≤ v then
    (150 : Rat) else 25 + (v - 8 / 10) * 125).floor)) ∧ t.thm.stgBad[n] = 0)) ∧
  (∀ (n : Fin 16) (v : Rat) (s : State), s.awake = true → s.meas.tseen.getLsbD n = true → s.meas.tflt[n] = v → v < 28 / 100 →
    Gives (.stageTempReading n) s (fun t => t.thm.stgBad[n] = s.thm.stgBad[n] + 1 ∧ t.on THM_EVT_STGINV = true)) ∧
  (∀ (k : Fin 2) (s : State), s.capped k = true → s.capHot k = true → 1000000 ≤ (s.devtime - s.php[k].ncapAt).toNat → 1 < min
    (s.fld (PHP_SHED_NMAX k)) s.php[k].ncap → Gives (.ncapStep k) s (fun t => t.php[k].ncap = min (s.fld (PHP_SHED_NMAX k))
    s.php[k].ncap - 1 ∧ t.on THM_EVT_CAP = true ∧ Counted s t THM_CNT_CAPN)) ∧
  (∀ (k : Fin 2) (s : State), s.capped k = true → s.capHot k = false → Gives (.ncapStep k) s (fun t => t = s)) ∧
  (∀ (k : Fin 2) (s : State), s.capped k = false → 10000000 ≤ (s.devtime - s.php[k].ncapAt).toNat → Gives (.ncapStep k) s (fun
    t => (t.php[k].ncap = if s.php[k].ncap < s.fld (PHP_SHED_NMAX k) then s.php[k].ncap + 1 else 16))) ∧
  (∀ (x : Rat) (s : State), s.awake = true → s.compTemp 0 = some x → 2 - 2 ^ (THM_COMP_BG.width - 1) ≤ s.sfld THM_COMP_BG →
    s.sfld THM_COMP_BG + 2 < 2 ^ (THM_COMP_BG.width - 1) → Gives (.thermalCompUpdate 0) s (fun t => (t.on THM_COMP_HOLD =
    (List.finRange 4).any (fun i => (s.compTemp i).isNone)) ∧ t.sfld THM_COMP_BG = toward (s.sfld THM_COMP_BG)
    (Config.compCode 0 x) 2)) ∧
  (∀ (x : Rat) (s : State), s.awake = true → s.compTemp 1 = some x → s.on SYS_STRAP_XOSEL = false → 1 - 2 ^
    (THM_COMP_REF.width - 1) ≤ s.sfld THM_COMP_REF → s.sfld THM_COMP_REF + 1 < 2 ^ (THM_COMP_REF.width - 1) → Gives
    (.thermalCompUpdate 1) s (fun t => (t.on THM_COMP_HOLD = (List.finRange 4).any (fun i => (s.compTemp i).isNone)) ∧
    t.sfld THM_COMP_REF = toward (s.sfld THM_COMP_REF) (Config.compCode 1 x) 1)) ∧
  (∀ (x : Rat) (s : State), s.awake = true → s.compTemp 2 = some x → 1 - 2 ^ (THM_COMP_SAFE.width - 1) ≤ s.sfld THM_COMP_SAFE
    → s.sfld THM_COMP_SAFE + 1 < 2 ^ (THM_COMP_SAFE.width - 1) → Gives (.thermalCompUpdate 2) s (fun t => (t.on
    THM_COMP_HOLD = (List.finRange 4).any (fun i => (s.compTemp i).isNone)) ∧ t.sfld THM_COMP_SAFE = toward (s.sfld
    THM_COMP_SAFE) (Config.compCode 2 x) 1)) ∧
  (∀ (x : Rat) (s : State), s.awake = true → s.compTemp 3 = some x → Gives (.thermalCompUpdate 3) s (fun t => (t.on
    THM_COMP_HOLD = (List.finRange 4).any (fun i => (s.compTemp i).isNone)) ∧ t.aon.trim = toward s.aon.trim
    (Config.compCode 3 x) 1)) ∧
  (∀ (q : Fin 4) (s : State), s.awake = true → s.compTemp q = none → Gives (.thermalCompUpdate q) s (fun t => t.on
    THM_COMP_HOLD = true ∧ t.fld THM_COMP_BG = s.fld THM_COMP_BG ∧ t.fld THM_COMP_REF = s.fld THM_COMP_REF ∧ t.fld
    THM_COMP_SAFE = s.fld THM_COMP_SAFE ∧ t.aon.trim = s.aon.trim))

/-- TIMER_INCREMENT of an awake, enabled timer without a slave mode that is not frozen: CNT goes up by one, or from TOP or above
to 0 with the update flag, and each compare channel that matches sets its flag; at the wrap in one-pulse mode the timer
stops. TIMER_TRIGGER_EDGE of a named source resets CNT in mode 2, enables the timer in mode 3, and counts an edge in mode 4.

Rules: R359, R360, R362, R365, R366. The model’s own choices and readings that bear on these commands: log entry 88. -/
def Obligations.TimerCounting : Prop :=
  (∀ (n : Fin 8) (x : Bool) (s : State), s.awake = true → s.on (TMR_CTL_EN n) = true → s.fld (TMR_CTL_SMODE n) = 0 → (s.on
    (TMR_CTL_FREEZE n) && s.flt.halted) = false → Gives (.timerIncrement n x) s (fun t => (t.fld (TMR_CNT_CNT n) = (if s.fld
    (TMR_TOP_TOP n) ≤ s.fld (TMR_CNT_CNT n) then 0 else s.fld (TMR_CNT_CNT n) + 1)) ∧ (s.fld (TMR_TOP_TOP n) ≤ s.fld
    (TMR_CNT_CNT n) → (t.word (TMR_EVT n)).getLsbD (0) = true ∧ (s.on (TMR_CTL_OPM n) = true → t.on (TMR_CTL_EN n) = false))
    ∧ (∀ c : Fin 4, s.chMode n c = 1 → s.fld (TMR_CCR_CCR n c) = (if s.fld (TMR_TOP_TOP n) ≤ s.fld (TMR_CNT_CNT n) then 0
    else s.fld (TMR_CNT_CNT n) + 1) → (t.word (TMR_EVT n)).getLsbD (1 + c.val) = true) ∧ t.tmr[n].sync = x)) ∧
  (∀ (n : Fin 8) (s : State), s.awake = true → edgeGiven n (s.fld (TMR_CTL_TRGSEL n)) s.tmr[n].edge = true → s.fld
    (TMR_CTL_SMODE n) = 2 → Gives (.timerTriggerEdge n) s (fun t => t.fld (TMR_CNT_CNT n) = 0 ∧ t.tmr[n].ext = 0)) ∧
  (∀ (n : Fin 8) (s : State), s.awake = true → edgeGiven n (s.fld (TMR_CTL_TRGSEL n)) s.tmr[n].edge = true → s.fld
    (TMR_CTL_SMODE n) = 3 → s.on (TMR_CTL_EN n) = false → Gives (.timerTriggerEdge n) s (fun t => t.on (TMR_CTL_EN n) = true
    ∧ t.tmr[n].ext = 0)) ∧
  (∀ (n : Fin 8) (s : State), s.awake = true → edgeGiven n (s.fld (TMR_CTL_TRGSEL n)) s.tmr[n].edge = true → s.fld
    (TMR_CTL_SMODE n) = 4 → s.on (TMR_CTL_EN n) = true → s.on (TMR_CTL_FREEZE n) = false → s.tmr[n].ext + 1 < 2 ^
    s.tmr[n].psc → Gives (.timerTriggerEdge n) s (fun t => t.tmr[n].ext = s.tmr[n].ext + 1 ∧ t.fld (TMR_CNT_CNT n) = s.fld
    (TMR_CNT_CNT n)))

/-- TIMER_CAPTURE of a capture channel with a named source keeps CNT, replacing the newer of two unread, and sets its flags;
TIMER_CAPTURE_READ returns and consumes the oldest. Served writes: CCR takes the value in compare mode, setting the past
flag where it is not above CNT, and ignores it in capture mode; EN rises with the prescaler at 0. DEVTIME_WRAP takes DEVTIME
to 0, counts the epoch and journals it.

Rules: R359, R362, R363, R368, R370. The model’s own choices and readings that bear on these commands: log entries 12, 40,
48, 49, 51, 52, 53, 88, 94. -/
def Obligations.TimerRegisters : Prop :=
  (∀ (n : Fin 8) (c : Fin 4) (s : State), s.awake = true → s.chMode n c = 2 → edgeGiven n (s.capSel n c) s.tmr[n].capEdge[c] =
    true → Gives (.timerCapture n c) s (fun t => t.tmr[n].cap[c] = s.tmr[n].cap[c].take 1 ++ [s.word (TMR_CNT n)] ∧ (t.word
    (TMR_EVT n)).getLsbD (5 + c.val) = true ∧ (2 ≤ s.tmr[n].cap[c].length → (t.word (TMR_EVT n)).getLsbD (9 + c.val) =
    true))) ∧
  (∀ (n : Fin 8) (c : Fin 4) (o : Origin) (v : Word) (q : List Word) (s : State), s.reachable o = true → s.chMode n c = 2 →
    s.tmr[n].cap[c] = v :: q → Gives (.timerCaptureRead n c o) s (fun t => t.rdata = [v] ∧ t.tmr[n].cap[c] = q ∧
    t.tmr[n].last[c] = v)) ∧
  (∀ (n : Fin 8) (c : Fin 4) (o : Origin) (v : Word) (s : State), s.serves o → s.on SYS_MAINT_MAINT = true → s.present = true
    → s.stalled = false → s.chMode n c = 1 → Gives (.timerCcrWrite n c o v) s (fun t => t.word (TMR_CCR n c) = v ∧ (v ≤
    s.word (TMR_CNT n) → (t.word (TMR_EVT n)).getLsbD (13 + c.val) = true))) ∧
  (∀ (n : Fin 8) (c : Fin 4) (o : Origin) (v : Word) (s : State), s.serves o → s.on SYS_MAINT_MAINT = true → s.present = true
    → s.stalled = false → s.chMode n c = 2 → Gives (.timerCcrWrite n c o v) s (fun t => t.word (TMR_CCR n c) = s.word
    (TMR_CCR n c) ∧ t.word (TMR_EVT n) = s.word (TMR_EVT n))) ∧
  (∀ (n : Fin 8) (o : Origin) (v : Word) (s : State), s.serves o → s.on SYS_MAINT_MAINT = true → s.present = true → s.stalled
    = false → s.on (TMR_CTL_EN n) = false → Gives (.timerEnable n o v) s (fun t => t.on (TMR_CTL_EN n) = true ∧ t.tmr[n].ext
    = 0)) ∧
  (∀ (s : State), s.powered = true → s.devtime = BitVec.allOnes 56 → Gives (.devtimeWrap) s (fun t => t.devtime = 0 ∧ Counted
    s t DEVTIME_EPOCH_EPOCH ∧ t.jnl.queue.length = s.jnl.queue.length + 1)) ∧
  (∀ (s : State), (s.lifecycle = 0 ∨ s.lifecycle = 3) → Gives (.cpDebugHalt) s (fun t => t.flt.halted = true)) ∧
  (∀ (s : State), (s.lifecycle = 1 ∨ s.lifecycle = 2) → Gives (.cpDebugHalt) s (fun t => t = s)) ∧
  (∀ (s : State), Gives (.cpDebugResume) s (fun t => t.flt.halted = false))

/-- TIMER_CNT_WRITE, served, loads CNT and restarts the prescaler; TIMER_TRIGGER_EDGE of a named source in RESET mode takes CNT
to 0; a register write, served, that clears EN leaves CNT as it is. None of them sets a match or overflow flag, moves the
blanking output by a match, or gives a trigger. -/
def Obligations.TimerLoads : Prop :=
  (∀ (n : Fin 8) (o : Origin) (v : Word) (s : State), s.serves o → s.on SYS_MAINT_MAINT = true → s.present = true → s.stalled
    = false → Gives (.timerCntWrite n o v) s (fun t => t.word (TMR_CNT n) = v ∧ t.tmr[n].ext = 0 ∧ t.tmr[n].blk =
    s.tmr[n].blk ∧ t.word (TMR_EVT n) = s.word (TMR_EVT n) ∧ t.adc = s.adc)) ∧
  (∀ (n : Fin 8) (s : State), s.awake = true → srcNamed n (s.fld (TMR_CTL_TRGSEL n)) = true → s.tmr[n].edge = some (s.fld
    (TMR_CTL_TRGSEL n)) → s.fld (TMR_CTL_SMODE n) = 2 → Gives (.timerTriggerEdge n) s (fun t => t.word (TMR_CNT n) = 0 ∧
    t.tmr[n].ext = 0 ∧ t.tmr[n].blk = s.tmr[n].blk ∧ t.word (TMR_EVT n) = s.word (TMR_EVT n) ∧ t.adc = s.adc)) ∧
  (∀ (n : Fin 8) (o : Origin) (v : Word) (s : State), s.serves o → s.on SYS_MAINT_MAINT = true → s.present = true → s.stalled
    = false → (TMR_CTL_EN n).extract v = 0 → Gives (.registerWrite o (BitVec.ofNat 16 (TMR_CTL n)) v .whole) s (fun t =>
    t.on (TMR_CTL_EN n) = false ∧ t.word (TMR_CNT n) = s.word (TMR_CNT n) ∧ t.word (TMR_EVT n) = s.word (TMR_EVT n) ∧ t.adc
    = s.adc))

/-- PATROL_SCRUB of an awake device on a row of an active bank, an access of the scrubber with scrubbing on or of another master
of the bank: a correctable error sets the flag of its bank, is counted and raises MEM_CE at its address; an uncorrectable
one does so with MEM_UE or MEM_UE_CP and the access code, and the first one is kept in MEM_UEADDR; the last row of a pass of
the scrubber counts it. B4_WIPE_DONE of a wipe ends it, counts it and journals it.

Rules: R381, R382, R383, R387. The model’s own choices and readings that bear on these commands: log entries 10, 27, 70. -/
def Obligations.ScrubAndWipe : Prop :=
  (∀ (b : Fin 5) (x : MemAcc) (off : BitVec 19) (lane : Fin 4) (last : Bool) (late : Bool) (s : State), s.awake = true → (x.m
    = .scrubber → s.on MEM_CFG_SCRUBEN = true) → x.on b = true → rowOk b off lane = true → s.fld ⟨MEM_STAT, 4 * b.val + 3, 4
    * b.val⟩ = 0 → Gives (.patrolScrub (.ce b x) off lane last late) s (fun t => (t.word MEM_EVT).getLsbD b.val = true ∧
    Counted s t (MEM_CNT_CE b) ∧ (⟨srcMEM_CE, .corrected, BitVec.ofNat 32 (memAddr b lane x.m off), x.m.fault, x.code,
    false⟩ : FltEvent) ∈ t.flt.lines ∧ (last = true → x.m = .scrubber → Counted s t MEM_SCRUB_PASSES) ∧ (last = false ∨ x.m
    ≠ .scrubber → t.fld MEM_SCRUB_PASSES = s.fld MEM_SCRUB_PASSES))) ∧
  (∀ (l : MemLoss) (x : MemAcc) (off : BitVec 19) (lane : Fin 4) (last : Bool) (late : Bool) (s : State), s.awake = true →
    (x.m = .scrubber → s.on MEM_CFG_SCRUBEN = true) → x.on l.bank = true → rowOk l.bank off lane = true → s.fld ⟨MEM_STAT, 4
    * l.bank.val + 3, 4 * l.bank.val⟩ = 0 → s.on MEM_UEADDR_VALID = false → Gives (.patrolScrub (.ue l x) off lane last
    late) s (fun t => (t.word MEM_EVT).getLsbD (5 + l.bank.val) = true ∧ Counted s t (MEM_CNT_UE l.bank) ∧ t.word MEM_UEADDR
    = BitVec.ofNat 32 (2 ^ 31 + memAddr l.bank lane x.m off) ∧ (t.flt.lines.any (fun e => (e.src == srcMEM_UE || e.src ==
    srcMEM_UE_CP) && e.addr == BitVec.ofNat 32 (memAddr l.bank lane x.m off) && e.access == x.code) = true))) ∧
  (∀ (b : Fin 5) (off : BitVec 19) (lane : Fin 4) (last : Bool) (s : State), s.awake = true → s.on MEM_CFG_SCRUBEN = true →
    rowOk b off lane = true → s.fld ⟨MEM_STAT, 4 * b.val + 3, 4 * b.val⟩ = 0 → Gives (.patrolScrub (.clean b) off lane last
    false) s (fun t => t.flt = s.flt ∧ t.word MEM_EVT = s.word MEM_EVT ∧ (last = true → Counted s t MEM_SCRUB_PASSES))) ∧
  (∀ (c : Nat) (s : State), s.aon.wiping = some c → Gives (.b4WipeDone) s (fun t => t.aon.wiping = none ∧ Counted s t
    MEM_WIPE_WIPES ∧ t.on MEM_EVT_WIPE = true ∧ s.jnl.queue.length < t.jnl.queue.length))

/-- FAULT_EVENT with events at the inputs records every one: its STATUS bit sets, PEND too where it is contained and not
injected; with no first error held the event that R397 chooses is captured, with its address, class, master and time; and a
fatal one takes the safe state. FAULT_INJECT, served with TESTEN in BLANK, puts an injected event of an implemented source
at the inputs. FAULT_ACK, served, clears the bits written 1 in its word and stops their timers; FLT_AUTO_ACK of a source
with its automatic bit set does so for it. FIRST_ERROR_REARM, served, clears VALID and MULTI.

Rules: R394, R395, R397, R400, R411. The model’s own choices and readings that bear on these commands: log entries 12, 48,
49, 51, 52, 53, 141. -/
def Obligations.FaultCollection : Prop :=
  (∀ (s : State), s.flt.lines ≠ [] → Gives (.faultEvent) s (fun t => (∀ e ∈ s.flt.lines, t.srcBit FLT_STATUS_LO FLT_STATUS_HI
    e.src = true) ∧ (∀ e ∈ s.flt.lines, e.cls = .contained → e.inj = false → t.srcBit FLT_PEND_LO FLT_PEND_HI e.src = true)
    ∧ ((∃ e ∈ s.flt.lines, e.cls = .fatal ∧ e.inj = false) → t.flt.level = true))) ∧
  (∀ (e : FltEvent) (s : State), bestEvent (mergeEvents s.flt.lines) = some e → s.on FLT_FIRST_VALID = false → Gives
    (.faultEvent) s (fun t => t.on FLT_FIRST_VALID = true ∧ t.fld FLT_FIRST_SRC = e.src.val ∧ t.fld FLT_FIRST_CLASS =
    e.cls.code ∧ t.word FLT_FADDR = e.addr ∧ t.fld FLT_FIRST_MASTER = e.master.toNat ∧ t.word FLT_FTIME_LO =
    s.devtime.setWidth 32)) ∧
  (∀ (o : Origin) (v : Word) (s : State), s.serves o → s.on SYS_MAINT_MAINT = true → s.present = true → s.stalled = false →
    s.lifecycle = 0 → s.on SYS_STRAP_TESTEN = true → FLT_INJ_SRC.extract v < 50 → FLT_INJ_SRC.extract v ≠ 22 → Gives
    (.faultInject o v) s (fun t => (∃ e ∈ t.flt.lines, e.src.val = FLT_INJ_SRC.extract v ∧ e.inj = true ∧ e.cls = fltClass
    (FLT_INJ_SRC.extract v)))) ∧
  (∀ (hi : Bool) (o : Origin) (v : Word) (s : State), s.serves o → s.on SYS_MAINT_MAINT = true → s.present = true → s.stalled
    = false → Gives (.faultAck hi o v) s (fun t => (t.word (if hi then FLT_PEND_HI else FLT_PEND_LO) = s.word (if hi then
    FLT_PEND_HI else FLT_PEND_LO) &&& ~~~ v) ∧ (t.word (if hi then FLT_PEND_LO else FLT_PEND_HI) = s.word (if hi then
    FLT_PEND_LO else FLT_PEND_HI)) ∧ (t.flt.timers = s.flt.timers &&& ~~~ (if hi then v.setWidth 64 <<< 32 else v.setWidth
    64)))) ∧
  (∀ (src : Fin 64) (s : State), s.srcBit FLT_AUTO_LO FLT_AUTO_HI src = true → Gives (.fltAutoAck src) s (fun t => t.srcBit
    FLT_PEND_LO FLT_PEND_HI src = false ∧ t.flt.timers.getLsbD src.val = false ∧ (∀ x : Fin 64, x ≠ src → t.srcBit
    FLT_PEND_LO FLT_PEND_HI x = s.srcBit FLT_PEND_LO FLT_PEND_HI x))) ∧
  (∀ (o : Origin) (v : Word) (s : State), s.serves o → s.on SYS_MAINT_MAINT = true → s.present = true → s.stalled = false →
    Gives (.firstErrorRearm o v) s (fun t => t.on FLT_FIRST_VALID = false ∧ t.on FLT_FIRST_MULTI = false))

/-- GRACE_EXPIRE in RUN, i the lowest of the sources whose timer expires with PEND still set: every one of their PEND bits
clears; exactly one GRACE_EXP event is recorded, its STATUS bit set and its count up by one, no other count changed; where
it is the first error or the first fatal one, its ADDR, FADDR or ESCSRC, is i and its class FATAL; the safe state follows. -/
def Obligations.GraceExpiry : Prop :=
  ∀ (m : BitVec 64) (i : Fin 64) (s : State), s.running = true → (m.getLsbD i.val && s.graceOver i) = true → (∀ j : Fin 64, j
    < i → (m.getLsbD j.val && s.graceOver j) = false) → Gives (.graceExpire m) s (fun t => (∀ j : Fin 64, (m.getLsbD j.val
    && s.graceOver j) = true → t.pend.getLsbD j.val = false) ∧ (t.word FLT_STATUS_LO).getLsbD 8 = true ∧ Counted s t
    (FLT_CNT_N0 2) ∧ (∀ k : Fin 16, k ≠ 2 → t.word (FLT_CNT k.val) = s.word (FLT_CNT k.val)) ∧ (s.on FLT_FIRST_VALID = false
    → t.word FLT_FADDR = BitVec.ofNat 32 i.val ∧ t.fld FLT_FIRST_SRC = 8 ∧ t.fld FLT_FIRST_CLASS = FltClass.fatal.code) ∧
    (s.on FLT_FATAL_VALID = false → t.fld FLT_FATAL_SRC = 8 ∧ t.fld FLT_FATAL_ESCSRC = i.val) ∧ t.flt.level = true ∧
    (s.flt.level = false → s.started = true → t.safeState = true))

/-- Of a powered device: WATCHDOG_EXPIRE records CP_WDT and takes the safe state, and does nothing while a debugger halts the
control processor. COLLECTOR_SELF_CHECK with a failing word holds it in FLT_SELF, sets the source FLT_SELF and takes the
safe state; a word that goes bad after the scan waits for the next one or for an access to it, and a clean scan changes
nothing. SAFE_CLOCK_LOSS, D2D_LINK_LOSS of a link that is up, which leaves every trip wire in the trip state, and REF_LOSS
of two windows in a row more than 5 % off 400 cycles take the safe state; REF_LOSS of any other two windows changes nothing.
D2D_RETRY raises D2D_RETRY once in 1 ms. FAULT_PULSE_END in RUN of a Compact pulse whose time is over ends it and FAULT_N
follows DRIVE. HEARTBEAT_RESUME, served, in RUN of a Full device with no PEND bit set starts the heartbeat from its low
half. FAULT_N_HEARTBEAT turns the pin of a running heartbeat whose half of 500 µs, less 1 %, has passed, and leaves it
without one.

Rules: R16, R17, R29, R407, R408, R409, R410. The model’s own choices and readings that bear on these commands: log entries
12, 48, 49, 51, 52, 53, 77, 78, 80, 156. -/
def Obligations.FatalEventsAndFaultPin : Prop :=
  (∀ (s : State), s.powered = true → s.flt.halted = false → Gives (.watchdogExpire) s (fun t => t.flt.level = true ∧ (t.word
    FLT_STATUS_LO).getLsbD 7 = true)) ∧
  (∀ (s : State), s.flt.halted = true → Gives (.watchdogExpire) s (fun t => t = s)) ∧
  (∀ (w : Byte) (s : State), s.powered = true → Gives (.collectorSelfCheck (.found w)) s (fun t => t.on FLT_SELF_ERR = true ∧
    t.fld FLT_SELF_WORD = w.toNat ∧ (t.word FLT_STATUS_LO).getLsbD 0 = true ∧ t.flt.level = true)) ∧
  (∀ (w : Byte) (s : State), s.powered = true → s.flt.upset = none → Gives (.collectorSelfCheck (.later w)) s (fun t =>
    t.flt.upset = some w ∧ t.regs = s.regs)) ∧
  (∀ (s : State), s.flt.upset = none → Gives (.collectorSelfCheck .clean) s (fun t => t = s)) ∧
  (∀ (s : State), s.powered = true → Gives (.safeClockLoss) s (fun t => t.on FLT_SELF_SAFECLK = true ∧ t.flt.level = true ∧
    t.on FLT_PIN_LOW = true)) ∧
  (∀ (s : State), s.sys.d2d = true → Gives (.d2dLinkLoss) s (fun t => t.sys.d2d = false ∧ t.flt.level = true ∧ (t.word
    FLT_STATUS_LO).getLsbD 1 = true ∧ (∀ n : Fin 16, t.ph[n].trip = true))) ∧
  (∀ (c0 : Nat) (c1 : Nat) (s : State), s.powered = true → (c0 < 380 ∨ 420 < c0) → (c1 < 380 ∨ 420 < c1) → Gives (.refLoss c0
    c1) s (fun t => t.flt.level = true ∧ (t.word FLT_STATUS_LO).getLsbD 2 = true)) ∧
  (∀ (c0 : Nat) (c1 : Nat) (s : State), (380 ≤ c0 ∧ c0 ≤ 420 ∨ 380 ≤ c1 ∧ c1 ≤ 420) → Gives (.refLoss c0 c1) s (fun t => t =
    s)) ∧
  (∀ (s : State), s.sys.d2d = true → s.flt.retryAt = none → Gives (.d2dRetry) s (fun t => Raised t srcD2D_RETRY 0 ∧
    t.flt.retryAt = some s.devtime)) ∧
  (∀ (x : BitVec 56) (s : State), s.flt.retryAt = some x → (s.devtime - x).toNat < 100000 → Gives (.d2dRetry) s (fun t => t =
    s)) ∧
  (∀ (s : State), s.running = true → s.flt.pulse = true → s.pinPast (1000 * orZero 1 (s.fld FLT_CFG_PULSEW)) = true → Gives
    (.faultPulseEnd) s (fun t => t.flt.pulse = false ∧ t.on FLT_PIN_LOW = s.on FLT_PIN_DRIVE)) ∧
  (∀ (o : Origin) (v : Word) (s : State), s.serves o → s.on SYS_MAINT_MAINT = true → s.present = true → s.stalled = false →
    s.running = true → s.fullClass = true → s.anyPend = false → Gives (.heartbeatResume o v) s (fun t => t.on FLT_PIN_HBRUN
    = true ∧ t.on FLT_PIN_LOW = true)) ∧
  (∀ (s : State), s.on FLT_PIN_HBRUN = true → s.pinPast 49500 = true → Gives (.faultNHeartbeat) s (fun t => t.on FLT_PIN_LOW =
    !s.on FLT_PIN_LOW ∧ t.on FLT_PIN_HBRUN = true)) ∧
  (∀ (s : State), s.on FLT_PIN_HBRUN = false → Gives (.faultNHeartbeat) s (fun t => t = s))

/-- ATTEND_PRESS of an awake device after step 3, not held, opens the window with its event, counts the press and shows HELD.
ATTEND_RELEASE of a held button starts the 60 s of an open window. PRESENCE_TIMEOUT 60 s after a release, and
PRESENCE_CLOSE, served, close the window with its ATTEND entry. JOURNAL_WRITE of a powered device with no access held stores
the oldest record of the queue with the next sequence number while fewer than 4,096 entries are held. When full it raises
JNL_LOST and counts it, and drops the oldest entry for it with POLICY 0 and the record itself with POLICY 1.
JNL_RDIDX_WRITE, served, latches the entry named into the window, or clears VALID. JNL_REL_WRITE, served, releases as many
of the oldest entries as it names.

Rules: R414, R415, R421, R425, R426. The model’s own choices and readings that bear on these commands: log entries 12, 25,
48, 49, 51, 52, 53. -/
def Obligations.PresenceAndJournal : Prop :=
  (∀ (s : State), s.awake = true → s.sys.strapsRead = true → s.auth.held = false → Gives (.attendPress) s (fun t => t.present
    = true ∧ t.on AUTH_PRES_HELD = true ∧ t.auth.held = true ∧ t.auth.relAt = none ∧ Counted s t AUTH_PRES_PRESSES ∧
    (s.present = false → t.on JNL_EVT_PRES = true ∧ t.jnl.queue.length = s.jnl.queue.length + 1))) ∧
  (∀ (s : State), s.auth.held = true → Gives (.attendRelease) s (fun t => t.auth.held = false ∧ t.on AUTH_PRES_HELD = false ∧
    (t.auth.relAt = if s.present then some s.devtime else none) ∧ t.present = s.present)) ∧
  (∀ (x : BitVec 56) (s : State), s.auth.relAt = some x → 6000000000 ≤ (s.devtime - x).toNat → s.present = true → Gives
    (.presenceTimeout) s (fun t => t.present = false ∧ t.auth.relAt = none ∧ t.jnl.queue.length = s.jnl.queue.length + 1)) ∧
  (∀ (o : Origin) (v : Word) (s : State), s.serves o → s.on SYS_MAINT_MAINT = true → s.present = true → s.stalled = false →
    Gives (.presenceClose o v) s (fun t => t.present = false ∧ t.auth.relAt = none)) ∧
  (∀ (r : JRec) (q : List JRec) (s : State), s.powered = true → s.heldAcc = [] → s.jnl.queue = r :: q → s.occ < 4096 → Gives
    (.journalWrite) s (fun t => t.jnl = ⟨q, s.jnl.entries ++ [⟨s.jnl.seq, r⟩], s.jnl.seq + 1⟩ ∧ (s.occ + 1 = 4096 → t.on
    JNL_EVT_FULL = true) ∧ (s.occ + 1 = s.fld JNL_CFG_WARN → t.on JNL_EVT_WARN = true))) ∧
  (∀ (r : JRec) (q : List JRec) (s : State), s.powered = true → s.heldAcc = [] → s.jnl.queue = r :: q → s.occ = 4096 → Gives
    (.journalWrite) s (fun t => (t.jnl = ⟨q, if s.on JNL_CFG_POLICY = true then s.jnl.entries else s.jnl.entries.drop 1 ++
    [⟨s.jnl.seq, r⟩], s.jnl.seq + 1⟩) ∧ Counted s t JNL_LOST_LOST ∧ t.on JNL_EVT_LOST = true ∧ (t.flt.lines.any (fun e =>
    e.src == srcJNL_LOST) = true))) ∧
  (∀ (o : Origin) (v : Word) (e : JEntry) (s : State), s.serves o → s.jnl.entries[v.toNat % 4096]? = some e → Gives
    (.jnlRdidxWrite o v) s (fun t => t.fld JNL_RDIDX_IDX = v.toNat % 4096 ∧ t.on JNL_RDIDX_VALID = true ∧ (∀ i : Fin 8,
    t.word (JNL_WIN i.val) = e.words.getD i.val 0) ∧ t.jnl = s.jnl)) ∧
  (∀ (o : Origin) (v : Word) (s : State), s.serves o → s.jnl.entries.length ≤ v.toNat % 4096 → Gives (.jnlRdidxWrite o v) s
    (fun t => t.fld JNL_RDIDX_IDX = v.toNat % 4096 ∧ t.on JNL_RDIDX_VALID = false ∧ (∀ i : Fin 8, t.word (JNL_WIN i.val) =
    0))) ∧
  (∀ (o : Origin) (v : Word) (s : State), s.serves o → Gives (.jnlRelWrite o v) s (fun t => t.jnl.entries = s.jnl.entries.drop
    (v.toNat % 8192) ∧ t.jnl.seq = s.jnl.seq))

/-- Every access here is one that arrives, a write one that the fabric serves at once. REGISTER_WRITE of any register of the
table that has a field to write, but the life-cycle request, the journal window and release, which have statements of their
own, and not the locked words of an enabled ring: where its checks pass, each field that holds what is written takes the
word as its range clamps it, the write is journalled, and a GUARDED one is counted as granted; SYS_RST and PK_SHIP, which
may end the run, have theirs elsewhere, and of a Forecast set-up register the whole word is given. One whose checks fail
leaves every such field as it was, counts the refusal, journals it, and AUTH_LAST names the reason where it is free. One of
an offset with no register changes no register and records REG_ACCESS with its requester. A host write with partial byte
enables does so at any offset, and a host write or read of more than 2 DW is reported as an Unsupported Request and touches
no register but HIF_LNK.L1, since the link leaves L1. REGISTER_READ returns the word with its write-only fields 0 and clears
its fields that clear on a read; it returns 0 where there is no register. FEED_LOCK_SET with a person present and SYS_MAINT
set locks, and no other field of FEED_LOCK changes.

Rules: R8, R10, R12, R33, R35, R114, R258, R419, R420. The model’s own choices and readings that bear on these commands: log
entries 12, 48, 49, 51, 52, 53, 54, 94. -/
def Obligations.RegisterAccess : Prop :=
  (∀ (o : Origin) (off : BitVec 16) (v : Word) (row : RegRow) (s : State), s.serves o → findReg regTable off.toNat = some row
    → row.writable = true → (onAnvil off.toNat = true → s.anvilAnswers = true) → s.flt.upset = none → off.toNat ≠ SYS_LC →
    off.toNat ≠ JNL_RDIDX → off.toNat ≠ JNL_REL → s.ringBusy off.toNat (s.word off.toNat) (s.settleWord off.toNat (s.word
    off.toNat) (row.after (s.word off.toNat) v)) = false → off.toNat ≠ SYS_RST → off.toNat ≠ PK_SHIP → s.writeReason o
    off.toNat row (s.word off.toNat) (s.settleWord off.toNat (s.word off.toNat) (row.after (s.word off.toNat) v)) v = 0 →
    Gives (.registerWrite o off v .whole) s (fun t => t.word off.toNat &&& row.limMask = (s.settleWord off.toNat (s.word
    off.toNat) (row.after (s.word off.toNat) v)) &&& row.limMask ∧ (0x7000 ≤ off.toNat → off.toNat < 0x7050 → t.word
    off.toNat = row.after (s.word off.toNat) v) ∧ s.jnl.queue.length < t.jnl.queue.length ∧ (s.guardedWrite off.toNat row
    (s.word off.toNat) (s.settleWord off.toNat (s.word off.toNat) (row.after (s.word off.toNat) v)) v = true → Counted s t
    AUTH_CNT_GRANTED))) ∧
  (∀ (o : Origin) (off : BitVec 16) (v : Word) (row : RegRow) (s : State), s.serves o → findReg regTable off.toNat = some row
    → row.writable = true → (onAnvil off.toNat = true → s.anvilAnswers = true) → s.flt.upset = none → off.toNat ≠ SYS_LC →
    off.toNat ≠ JNL_RDIDX → off.toNat ≠ JNL_REL → s.ringBusy off.toNat (s.word off.toNat) (s.settleWord off.toNat (s.word
    off.toNat) (row.after (s.word off.toNat) v)) = false → s.writeReason o off.toNat row (s.word off.toNat) (s.settleWord
    off.toNat (s.word off.toNat) (row.after (s.word off.toNat) v)) v ≠ 0 → Gives (.registerWrite o off v .whole) s (fun t =>
    t.word off.toNat &&& row.limMask = s.word off.toNat &&& row.limMask ∧ (off.toNat ≠ CHG_PLOAD → t.word off.toNat = s.word
    off.toNat) ∧ t.jnl.queue.length = s.jnl.queue.length + 1 ∧ Counted s t AUTH_CNT_REFUSED ∧ (s.on AUTH_LAST_VALID = false
    → t.fld AUTH_LAST_REASON = s.writeReason o off.toNat row (s.word off.toNat) (s.settleWord off.toNat (s.word off.toNat)
    (row.after (s.word off.toNat) v)) v))) ∧
  (∀ (o : Origin) (off : BitVec 16) (v : Word) (s : State), s.serves o → onAnvil off.toNat = false → s.flt.upset = none →
    off.toNat % 4 = 0 → findReg regTable off.toNat = none → Gives (.registerWrite o off v .whole) s (fun t => t.regs =
    s.regs ∧ (⟨srcREG_ACCESS, .corrected, BitVec.ofNat 32 off.toNat, BitVec.ofNat 8 o.master, 2, false⟩ : FltEvent) ∈
    t.flt.lines ∧ t.jnl = s.jnl)) ∧
  (∀ (o : Origin) (off : BitVec 16) (v : Word) (s : State), o.isHost = true → s.reachable o = true → Gives (.registerWrite o
    off v .gaps) s (fun t => t.regs = s.regs ∧ (⟨srcREG_ACCESS, .corrected, BitVec.ofNat 32 (off.toNat / 4 * 4),
    BitVec.ofNat 8 o.master, 2, false⟩ : FltEvent) ∈ t.flt.lines ∧ t.jnl = s.jnl)) ∧
  (∀ (o : Origin) (off : BitVec 16) (v : Word) (s : State), o.isHost = true → s.reachable o = true → Gives (.registerWrite o
    off v .long) s (fun t => t.out = s.out ++ [.unsupported false] ∧ t.regs = (s.setOn HIF_LNK_L1 false).regs ∧ t.flt =
    s.flt ∧ t.jnl = s.jnl)) ∧
  (∀ (o : Origin) (off : BitVec 16) (row : RegRow) (s : State), s.reachable o = true → off.toNat % 4 = 0 → s.flt.upset = none
    → findReg regTable off.toNat = some row → (onAnvil off.toNat = true → s.anvilAnswers = true) → ¬(0x2000 ≤ off.toNat ∧
    off.toNat < 0x2200 ∧ 0x10 ≤ off.toNat % 0x40 ∧ off.toNat % 0x40 < 0x20) → Gives (.registerRead o off false) s (fun t =>
    t.rdata = [s.view off.toNat &&& ~~~ row.accMask .wo] ∧ t.word off.toNat = s.word off.toNat &&& ~~~ row.accMask .rc)) ∧
  (∀ (o : Origin) (off : BitVec 16) (s : State), s.reachable o = true → onAnvil off.toNat = false → s.flt.upset = none →
    findReg regTable (off.toNat / 4 * 4) = none → Gives (.registerRead o off false) s (fun t => t.rdata = [0] ∧ t.regs =
    s.regs)) ∧
  (∀ (o : Origin) (off : BitVec 16) (s : State), o.isHost = true → s.reachable o = true → Gives (.registerRead o off true) s
    (fun t => t.out = s.out ++ [.unsupported true] ∧ t.regs = (s.setOn HIF_LNK_L1 false).regs ∧ t.rdata = s.rdata)) ∧
  (∀ (o : Origin) (v : Word) (s : State), s.serves o → s.on SYS_MAINT_MAINT = true → s.present = true → s.stalled = false →
    s.anvilAnswers = true → Gives (.feedLockSet o v) s (fun t => t.on FEED_LOCK_LOCK = true ∧ t.word FEED_LOCK = s.word
    FEED_LOCK ||| 1))

/-- From offset 0xB000 on, REGISTER_READ of a requester that arrives returns 0 and changes no register, and REGISTER_WRITE that
is served changes no register and stands at the collector as the corrected fault REG_ACCESS with its offset and requester. -/
def Obligations.ReservedSpace : Prop :=
  (∀ (o : Origin) (off : BitVec 16) (s : State), s.reachable o = true → 0xB000 ≤ off.toNat → Gives (.registerRead o off false)
    s (fun t => t.rdata = [0] ∧ t.regs = s.regs ∧ t.flt = s.flt)) ∧
  (∀ (o : Origin) (off : BitVec 16) (v : Word) (s : State), s.serves o → 0xB000 ≤ off.toNat → Gives (.registerWrite o off v
    .whole) s (fun t => t.regs = s.regs ∧ t.jnl = s.jnl ∧ t.flt.lines = s.flt.lines ++ [⟨srcREG_ACCESS, .corrected,
    BitVec.ofNat 32 (off.toNat / 4 * 4), BitVec.ofNat 8 o.master, 2, false⟩]))

/-- RESET_N_ASSERT of a powered device keeps the records, the counts and both captures of the collector, and leaves no source
pending and no grace timer running. POWER_ON_RESET clears them all.

Rules: R399. The model’s own choices and readings that bear on these commands: log entries 13, 19. -/
def Obligations.FaultRecordsOverResets : Prop :=
  (∀ (s : State), s.powered = true → Gives (.resetNAssert) s (fun t => (∀ r ∈ [FLT_STATUS_LO, FLT_STATUS_HI, FLT_FADDR,
    FLT_FTIME_LO, FLT_FTIME_HI, FLT_FATIME], t.word r = s.word r) ∧ (∀ f ∈ [FLT_FIRST_VALID, FLT_FIRST_INJ, FLT_FIRST_MULTI,
    FLT_FIRST_CLASS, FLT_FIRST_MASTER, FLT_FIRST_ACCESS, FLT_FIRST_SRC, FLT_FATAL_VALID, FLT_FATAL_INJ, FLT_FATAL_TIMEHI,
    FLT_FATAL_ESCSRC, FLT_FATAL_SRC, FLT_MULTI_MULTICNT], t.fld f = s.fld f) ∧ (∀ k : Fin 16, t.word (FLT_CNT k.val) =
    s.word (FLT_CNT k.val)) ∧ t.word FLT_PEND_LO = 0 ∧ t.word FLT_PEND_HI = 0 ∧ t.flt.timers = 0)) ∧
  (∀ (s : State), Gives (.powerOnReset) s (fun t => (∀ r ∈ [FLT_STATUS_LO, FLT_STATUS_HI, FLT_FADDR, FLT_FTIME_LO,
    FLT_FTIME_HI, FLT_FATIME, FLT_FIRST, FLT_FATAL, FLT_MULTI], t.word r = State.reset.word r) ∧ (∀ k : Fin 16, t.word
    (FLT_CNT k.val) = 0) ∧ t.word FLT_PEND_LO = 0 ∧ t.word FLT_PEND_HI = 0 ∧ t.flt.timers = 0))

/-- Frames (feed paths and the phase engine): where a command that the table lists answers a next state, every register and
every hidden structure outside the places that `Instr.powerPlaces` gives for it holds what it held. -/
def Obligations.FeedAndPhaseFrames : Prop :=
  ∀ (c : Instr) (s t : State) (l : List Place), c.powerPlaces = some l → exec c s = .next t → OnlyAt (· ∈ l) s t

/-- Frames (charger, hold-up, Gust, the packs and their keys): where a command that the table lists answers a next state, every
register and every hidden structure outside the places that `Instr.chargePlaces` gives for it holds what it held. -/
def Obligations.ChargeAndPackFrames : Prop :=
  ∀ (c : Instr) (s t : State) (l : List Place), c.chargePlaces = some l → exec c s = .next t → OnlyAt (· ∈ l) s t

/-- Frames (Forecast, the host rings and the admin commands): where a command that the table lists answers a next state, every
register and every hidden structure outside the places that `Instr.hostPlaces` gives for it holds what it held. -/
def Obligations.ForecastAndHostFrames : Prop :=
  ∀ (c : Instr) (s t : State) (l : List Place), c.hostPlaces = some l → exec c s = .next t → OnlyAt (· ∈ l) s t

/-- Frames (two-wire ports, comparators, converters, temperatures and timers): where a command that the table lists answers a
next state, every register and every hidden structure outside the places that `Instr.analogPlaces` gives for it holds what
it held. -/
def Obligations.PortAndSensorFrames : Prop :=
  ∀ (c : Instr) (s t : State) (l : List Place), c.analogPlaces = some l → exec c s = .next t → OnlyAt (· ∈ l) s t

/-- Frames (start-up, self-tests, faults, memory and the presence window): where a command that the table lists answers a next
state, every register and every hidden structure outside the places that `Instr.systemPlaces` gives for it holds what it
held. Frames of the resets and of the wake, which put whole blocks back: POWER_ON_RESET and SHIP_CUT leave what the device
has sent and the words last read; RESET_N_ASSERT leaves DEVTIME, the memory structure and the words last read; DEVRST leaves
DEVTIME and the words last read; DOLDRUMS_WAKE leaves the words last read. RESET_N_ASSERT, DEVRST and DOLDRUMS_WAKE leave
every field that the register table marks as kept over a device reset, but for the registers that Instr.resetPlaces lists,
at which the reset or the start-up after it acts. What the wake keeps of the registers is log entry 14. -/
def Obligations.SystemFrames : Prop :=
  (∀ (c : Instr) (s t : State) (l : List Place), c.systemPlaces = some l → exec c s = .next t → OnlyAt (· ∈ l) s t) ∧
  (∀ (c : Instr) (s t : State) (l : List Place), c.keptPlaces = some l → exec c s = .next t → ∀ x ∈ l, x.Same s t) ∧
  (∀ (c : Instr) (s t : State) (l : List Place), c.resetPlaces = some l → exec c s = .next t →
    ∀ (off : Nat) (row : RegRow), findReg regTable off = some row → .reg off ∉ l →
      t.word off &&& row.keptMask = s.word off &&& row.keptMask)

/-- Frames (rows that write or read one register through the fabric): where a command that the table lists answers a next state,
every register and every hidden structure outside the places that `Instr.writesPlaces` gives for it holds what it held. -/
def Obligations.RegisterWriteFrames : Prop :=
  ∀ (c : Instr) (s t : State) (l : List Place), c.writesPlaces s = some l → exec c s = .next t → OnlyAt (· ∈ l) s t
end

