-- ==== Sys2Proof/Laws/RegFile.lean ====
section
/-! SUPPORT. What reading and writing registers and fields does: a read after a write, and that every write keeps the
canonical form. -/

namespace Sys2Proof.Machine

theorem RegFile.get_of_headAbove {o p : Nat} {t : RegFile} (h : RegFile.headAbove o t = true) (hp : p ≤ o) :
    RegFile.get t p = 0 := by
  cases t with
  | nil => rfl
  | cons x t =>
    obtain ⟨a, v⟩ := x
    simp only [RegFile.headAbove, decide_eq_true_eq] at h
    have h1 : p ≠ a := by omega
    have h2 : p < a := by omega
    simp [RegFile.get, h1, h2]

theorem RegFile.get_push (o : Nat) (v : Word) (t : RegFile) (p : Nat) :
    RegFile.get (RegFile.push o v t) p = RegFile.get ((o, v) :: t) p := by
  unfold RegFile.push
  split
  · next h =>
    obtain ⟨rfl, h⟩ := h
    simp only [RegFile.get]
    split
    · next hp => rw [RegFile.get_of_headAbove h (by omega)]
    · split
      · next hp => rw [RegFile.get_of_headAbove h (by omega)]
      · rfl
  · rfl

@[simp] theorem RegFile.get_set (r : RegFile) (o : Nat) (v : Word) (p : Nat) :
    RegFile.get (RegFile.set r o v) p = if p = o then v else RegFile.get r p := by
  induction r with
  | nil =>
    simp only [RegFile.set, RegFile.get_push, RegFile.get]
    split <;> simp
  | cons x t ih =>
    obtain ⟨a, w⟩ := x
    simp only [RegFile.set]
    split
    · next h =>
      subst h
      rw [RegFile.get_push]
      simp only [RegFile.get]
      split <;> simp_all
    · split
      · rw [RegFile.get_push]
        simp only [RegFile.get]
        grind
      · simp only [RegFile.get, ih]
        grind

theorem RegFile.headAbove_push {b o : Nat} {v : Word} {t : RegFile} (h : RegFile.headAbove b t = true) (ho : b < o) :
    RegFile.headAbove b (RegFile.push o v t) = true := by
  unfold RegFile.push
  split
  · exact h
  · simpa [RegFile.headAbove] using ho

theorem RegFile.headAbove_set {b o : Nat} {v : Word} {t : RegFile} (h : RegFile.headAbove b t = true) (ho : b < o)
    (hwf : RegFile.wf t = true) : RegFile.headAbove b (RegFile.set t o v) = true := by
  cases t with
  | nil => exact RegFile.headAbove_push rfl ho
  | cons x t =>
    obtain ⟨a, w⟩ := x
    simp only [RegFile.set]
    split
    · apply RegFile.headAbove_push _ ho
      cases t with
      | nil => rfl
      | cons y t =>
        simp only [RegFile.wf, RegFile.headAbove, Bool.and_eq_true, decide_eq_true_eq] at h hwf ⊢
        omega
    · split
      · exact RegFile.headAbove_push h ho
      · exact h

theorem RegFile.wf_push {o : Nat} {v : Word} {t : RegFile} (h : RegFile.headAbove o t = true)
    (hwf : RegFile.wf t = true) : RegFile.wf (RegFile.push o v t) = true := by
  unfold RegFile.push
  split
  · exact hwf
  · next hn =>
    have hv : v ≠ 0 := fun e => hn ⟨e, h⟩
    simp only [RegFile.wf, h, hwf, Bool.and_eq_true, decide_eq_true_eq, and_true]
    exact hv

theorem RegFile.wf_set {r : RegFile} (o : Nat) (v : Word) (hwf : RegFile.wf r = true) :
    RegFile.wf (RegFile.set r o v) = true := by
  induction r with
  | nil => exact RegFile.wf_push rfl rfl
  | cons x t ih =>
    obtain ⟨a, w⟩ := x
    have hw := hwf
    simp only [RegFile.wf, Bool.and_eq_true, decide_eq_true_eq] at hw
    obtain ⟨⟨hv, ha⟩, ht⟩ := hw
    simp only [RegFile.set]
    split
    · next h => exact RegFile.wf_push (h ▸ ha) ht
    · split
      · next h => exact RegFile.wf_push (by simpa [RegFile.headAbove] using h) hwf
      · next h1 h2 =>
        simp only [RegFile.wf, Bool.and_eq_true, decide_eq_true_eq]
        exact ⟨⟨hv, RegFile.headAbove_set ha (by omega) ht⟩, ih ht⟩

theorem RegFile.wf_setFld {r : RegFile} (f : Fld) (v : Nat) (hwf : RegFile.wf r = true) :
    RegFile.wf (r.setFld f v) = true := RegFile.wf_set _ _ hwf

theorem RegFile.headAbove_trans {o a : Nat} {t : RegFile} (ho : o < a) (h : RegFile.headAbove a t = true) :
    RegFile.headAbove o t = true := by
  cases t with
  | nil => rfl
  | cons x t =>
    simp only [RegFile.headAbove, decide_eq_true_eq] at h ⊢
    omega

/-- Leaving entries out keeps the canonical form. -/
theorem RegFile.wf_filter (p : Nat × Word → Bool) {r : RegFile} (hwf : RegFile.wf r = true) :
    RegFile.wf (r.filter p) = true ∧ ∀ o, RegFile.headAbove o r = true → RegFile.headAbove o (r.filter p) = true := by
  induction r with
  | nil => exact ⟨rfl, fun _ _ => rfl⟩
  | cons x t ih =>
    obtain ⟨a, w⟩ := x
    have hw := hwf
    simp only [RegFile.wf, Bool.and_eq_true, decide_eq_true_eq] at hw
    obtain ⟨⟨hv, ha⟩, ht⟩ := hw
    obtain ⟨iw, ih⟩ := ih ht
    simp only [List.filter_cons]
    split
    · refine ⟨?_, fun o ho => ho⟩
      simp only [RegFile.wf, Bool.and_eq_true, decide_eq_true_eq]
      exact ⟨⟨hv, ih a ha⟩, iw⟩
    · refine ⟨iw, fun o ho => ih o (RegFile.headAbove_trans ?_ ha)⟩
      simpa [RegFile.headAbove] using ho

/-- A chain of effects that each keep the canonical form keeps it. -/
theorem RegFile.wf_foldl {α : Type} (f : RegFile → α → RegFile) (hf : ∀ r a, RegFile.wf r = true → RegFile.wf (f r a) = true)
    (l : List α) {r : RegFile} (hwf : RegFile.wf r = true) : RegFile.wf (l.foldl f r) = true := by
  induction l generalizing r with
  | nil => exact hwf
  | cons a l ih => exact ih (hf r a hwf)

theorem bitMask_getLsbD (hi lo i : Nat) (hhi : hi < 32) :
    (bitMask hi lo).getLsbD i = (decide (lo ≤ i) && decide (i ≤ hi)) := by
  unfold bitMask
  rw [BitVec.getLsbD_shiftLeft, BitVec.getLsbD_ofNat, Nat.testBit_two_pow_sub_one]
  grind

theorem Fld.testBit_extract (f : Fld) (w : Word) (i : Nat) :
    (f.extract w).testBit i = (decide (i < f.width) && w.getLsbD (f.lo + i)) := by
  unfold Fld.extract
  rw [Nat.testBit_mod_two_pow, ← BitVec.getLsbD, BitVec.getLsbD_ushiftRight]

theorem Fld.getLsbD_insert (f : Fld) (w : Word) (v i : Nat) (h : f.hi < 32) (hl : f.lo ≤ f.hi) (hi : i < 32) :
    (f.insert w v).getLsbD i =
      if f.lo ≤ i ∧ i ≤ f.hi then v.testBit (i - f.lo) else w.getLsbD i := by
  unfold Fld.insert
  rw [BitVec.getLsbD_or, BitVec.getLsbD_and, BitVec.getLsbD_not, bitMask_getLsbD _ _ _ h, BitVec.getLsbD_shiftLeft,
    BitVec.getLsbD_ofNat, Nat.testBit_mod_two_pow]
  unfold Fld.width
  grind

/-- A field read after it was written holds the value written, modulo its size. -/
theorem Fld.extract_insert (f : Fld) (w : Word) (v : Nat) (h : f.hi < 32) (hl : f.lo ≤ f.hi) :
    f.extract (f.insert w v) = v % 2 ^ f.width := by
  apply Nat.eq_of_testBit_eq
  intro i
  rw [Fld.testBit_extract, Nat.testBit_mod_two_pow]
  by_cases hi : i < f.width
  · have hi' := hi
    unfold Fld.width at hi'
    rw [Fld.getLsbD_insert _ _ _ _ h hl (by omega)]
    have h1 : f.lo ≤ f.lo + i ∧ f.lo + i ≤ f.hi := by omega
    simp [hi, h1]
  · simp [hi]

/-- Writing a field leaves every field of other bits of the register as it was. -/
theorem Fld.extract_insert_ne (f g : Fld) (w : Word) (v : Nat) (h : f.hi < 32) (hl : f.lo ≤ f.hi) (hg : g.hi < 32)
    (hd : g.hi < f.lo ∨ f.hi < g.lo) : g.extract (f.insert w v) = g.extract w := by
  apply Nat.eq_of_testBit_eq
  intro i
  rw [Fld.testBit_extract, Fld.testBit_extract]
  by_cases hi : i < g.width
  · have hi' := hi
    unfold Fld.width at hi'
    rw [Fld.getLsbD_insert _ _ _ _ h hl (by omega)]
    have h1 : ¬ (f.lo ≤ g.lo + i ∧ g.lo + i ≤ f.hi) := by omega
    rw [if_neg h1]
  · simp [hi]

/-- A field value fits its width. -/
theorem Fld.extract_lt (f : Fld) (w : Word) : f.extract w < 2 ^ f.width := Nat.mod_lt _ (Nat.two_pow_pos _)

/-- Reading a field after writing it. -/
theorem RegFile.fld_setFld_same (r : RegFile) (f : Fld) (v : Nat) (h : f.hi < 32) (hl : f.lo ≤ f.hi) :
    (r.setFld f v).fld f = v % 2 ^ f.width := by
  simp [RegFile.fld, RegFile.setFld, Fld.extract_insert _ _ _ h hl]

/-- Reading a field of another register after writing a field. -/
theorem RegFile.fld_setFld_off (r : RegFile) (f g : Fld) (v : Nat) (h : g.off ≠ f.off) :
    (r.setFld f v).fld g = r.fld g := by
  simp [RegFile.fld, RegFile.setFld, h]

/-- Reading other bits of the same register after writing a field. -/
theorem RegFile.fld_setFld_bits (r : RegFile) (f g : Fld) (v : Nat) (h : f.hi < 32) (hl : f.lo ≤ f.hi)
    (hg : g.hi < 32) (hd : g.hi < f.lo ∨ f.hi < g.lo) : (r.setFld f v).fld g = r.fld g := by
  simp only [RegFile.fld, RegFile.setFld, RegFile.get_set]
  split
  · next e => rw [e, Fld.extract_insert_ne _ _ _ _ h hl hg hd]
  · rfl

end Sys2Proof.Machine
end

