-- ==== Sys2Proof/Laws/Keeps.lean ====
section
/-! SUPPORT. The relation `Keeps`: reflexive, transitive, and closed under updates of what it does not speak of. -/

namespace Sys2Proof.Machine

theorem FusesHold.refl (s : State) : FusesHold s s :=
  ⟨fun _ _ h => h, fun _ h => ⟨h, rfl⟩, fun _ h => h⟩

theorem FusesHold.trans {s t u : State} (h : FusesHold s t) (k : FusesHold t u) : FusesHold s u :=
  ⟨fun i j hi => k.groups i j (h.groups i j hi),
   fun i hi => ⟨(k.valid i (h.valid i hi).1).1, (k.valid i (h.valid i hi).1).2.trans (h.valid i hi).2⟩,
   fun i hi => k.void i (h.void i hi)⟩

theorem Keeps.refl (s : State) : Keeps s s := ⟨rfl, fun h => h, FusesHold.refl s⟩

theorem Keeps.trans {s t u : State} (h : Keeps s t) (k : Keeps t u) : Keeps s u :=
  ⟨k.queue.trans h.queue, fun hs => k.sound (h.sound hs), h.fuses.trans k.fuses⟩

theorem Keeps.ite {s₀ s t : State} {c : Prop} [Decidable c] (hs : Keeps s₀ s) (ht : Keeps s₀ t) :
    Keeps s₀ (if c then s else t) := by
  split
  · exact hs
  · exact ht

theorem Keeps.of_snd {α : Type} {s₀ s : State} {p : α × State} {a : α} (e : p = (a, s)) (h : Keeps s₀ p.2) : Keeps s₀ s := by
  rw [e] at h
  exact h

theorem Keeps.of_snd2 {α β : Type} {s₀ s : State} {p : α × β × State} {a : α} {b : β} (e : p = (a, b, s))
    (h : Keeps s₀ p.2.2) : Keeps s₀ s := by
  rw [e] at h
  exact h

theorem Keeps.of_snd3 {α β γ : Type} {s₀ s : State} {p : α × β × γ × State} {a : α} {b : β} {c : γ} (e : p = (a, b, c, s))
    (h : Keeps s₀ p.2.2.2) : Keeps s₀ s := by
  rw [e] at h
  exact h

theorem Keeps.of_fst {α : Type} {s₀ s : State} {p : State × α} {a : α} (e : p = (s, a)) (h : Keeps s₀ p.1) : Keeps s₀ s := by
  rw [e] at h
  exact h

/-- An update of anything but the queue, the registers, the journal's entries and the fuses. -/
theorem Keeps.of_same {s₀ s t : State} (h : Keeps s₀ s) (hp : t.pending = s.pending) (hr : t.regs = s.regs)
    (hj : t.jnl.entries = s.jnl.entries) (hf : t.sys.fuses = s.sys.fuses) (hk : t.aon.keys = s.aon.keys) : Keeps s₀ t := by
  refine h.trans ⟨hp, fun hs => ⟨hr ▸ hs.regs, hj ▸ hs.journal⟩, ?_⟩
  refine ⟨fun i j hi => hf ▸ hi, fun i hi => ?_, fun i hi => ?_⟩ <;> rw [hk]
  · exact ⟨hi, rfl⟩
  · exact hi

/-- An update of the registers that keeps their canonical form. -/
theorem Keeps.of_regs {s₀ s t : State} (h : Keeps s₀ s) (hp : t.pending = s.pending)
    (hr : s.regs.wf = true → t.regs.wf = true) (hj : t.jnl.entries = s.jnl.entries) (hf : t.sys.fuses = s.sys.fuses)
    (hk : t.aon.keys = s.aon.keys) : Keeps s₀ t := by
  refine h.trans ⟨hp, fun hs => ⟨hr hs.regs, hj ▸ hs.journal⟩, ?_⟩
  refine ⟨fun i j hi => hf ▸ hi, fun i hi => ?_, fun i hi => ?_⟩ <;> rw [hk]
  · exact ⟨hi, rfl⟩
  · exact hi

/-- An update of the journal's entries that leaves at most 4,096. -/
theorem Keeps.of_entries {s₀ s t : State} (h : Keeps s₀ s) (hp : t.pending = s.pending) (hr : t.regs = s.regs)
    (hf : t.sys.fuses = s.sys.fuses) (hk : t.aon.keys = s.aon.keys)
    (hj : s.jnl.entries.length ≤ 4096 → t.jnl.entries.length ≤ 4096) : Keeps s₀ t := by
  refine h.trans ⟨hp, fun hs => ⟨hr ▸ hs.regs, hj hs.journal⟩, ?_⟩
  refine ⟨fun i j hi => hf ▸ hi, fun i hi => ?_, fun i hi => ?_⟩ <;> rw [hk]
  · exact ⟨hi, rfl⟩
  · exact hi

/-- Blowing more life-cycle groups. -/
theorem Keeps.of_groups {s₀ s t : State} (h : Keeps s₀ s) (hp : t.pending = s.pending) (hr : t.regs = s.regs)
    (hj : t.jnl.entries = s.jnl.entries) (hk : t.aon.keys = s.aon.keys)
    (hf : ∀ (i : Fin 3) (j : Nat), s.sys.fuses[i].getLsbD j = true → t.sys.fuses[i].getLsbD j = true) : Keeps s₀ t := by
  refine h.trans ⟨hp, fun hs => ⟨hr ▸ hs.regs, hj ▸ hs.journal⟩, ?_⟩
  refine ⟨hf, fun i hi => ?_, fun i hi => ?_⟩ <;> rw [hk]
  · exact ⟨hi, rfl⟩
  · exact hi

/-- An update of the fleet keys as fuses allow it. -/
theorem Keeps.of_keys {s₀ s t : State} (h : Keeps s₀ s) (hp : t.pending = s.pending) (hr : t.regs = s.regs)
    (hj : t.jnl.entries = s.jnl.entries) (hf : t.sys.fuses = s.sys.fuses)
    (hv : ∀ i : Fin 4, s.aon.keys[i].2.1 = true → t.aon.keys[i].2.1 = true ∧ t.aon.keys[i].1 = s.aon.keys[i].1)
    (hx : ∀ i : Fin 4, s.aon.keys[i].2.2 = true → t.aon.keys[i].2.2 = true) : Keeps s₀ t :=
  h.trans ⟨hp, fun hs => ⟨hr ▸ hs.regs, hj ▸ hs.journal⟩, ⟨fun _ _ hi => hf ▸ hi, hv, hx⟩⟩

/-- Blowing the void fuse of a slot. -/
theorem Keeps.voidKey {s₀ s : State} (h : Keeps s₀ s) (i : Fin 4) :
    Keeps s₀ { s with aon := { s.aon with keys := vmod s.aon.keys i (fun x => (x.1, x.2.1, true)) } } := by
  refine Keeps.of_keys h rfl rfl rfl rfl (fun j hj => ?_) (fun j hj => ?_)
  all_goals
    simp only [vmod, Fin.getElem_fin, Vector.getElem_set]
    split
    · next e => simp only [Fin.getElem_fin] at hj; simp [e, hj]
    · simpa using hj

/-- Blowing the void fuse of every slot. -/
theorem Keeps.voidAll {s₀ s : State} (h : Keeps s₀ s) :
    Keeps s₀ { s with aon := { s.aon with keys := s.aon.keys.map (fun x => (x.1, x.2.1, true)) } } := by
  refine Keeps.of_keys h rfl rfl rfl rfl (fun j hj => ?_) (fun j hj => ?_)
  all_goals simp only [Fin.getElem_fin, Vector.getElem_map] at hj ⊢
  exact ⟨hj, trivial⟩

/-- Fusing a key into a slot that holds none and is not void. -/
theorem Keeps.fuseKey {s₀ s : State} (h : Keeps s₀ s) (i : Fin 4) (key : BitVec 512) (hv : s.aon.keys[i].2.1 = false)
    (hx : s.aon.keys[i].2.2 = false) :
    Keeps s₀ { s with aon := { s.aon with keys := vmod s.aon.keys i (fun _ => (key, true, false)) } } := by
  refine Keeps.of_keys h rfl rfl rfl rfl (fun j hj => ?_) (fun j hj => ?_)
  all_goals
    simp only [vmod, Fin.getElem_fin, Vector.getElem_set]
    split
    · next e =>
      have e' : i = j := Fin.ext e
      subst e'
      simp_all
    · simpa using hj

/-- The same, on the literal a record update is. -/
theorem Keeps.mk_same {s₀ s : State} (h : Keeps s₀ s) {devtime : BitVec 56} {jnl : Jnl} {heldAcc : List Held} {flt :
    FltH} {sys : SysH} {auth : AuthH} {feed : Vector FeedH 4} {ph : Vector PhH 16} {php : Vector PhpH 2} {phg : PhGH} {meas : MeasH}
    {chg : Vector ChgH 2} {chgg : ChgGH} {pk : Vector PkH 2} {aon : AonH} {fc : FcH} {ring : Vector RingH 64} {hif : HifH} {tw
    : Vector TwH 3} {cmp : Vector CmpH 48} {adc : Vector AdcH 2} {tmr : Vector TmrH 8} {thm : ThmH} {mem : MemH} {out :
    List HostOut} {rdata : List Word} {freeCtr : Nat}
    (hj : jnl.entries = s.jnl.entries) (hf : sys.fuses = s.sys.fuses) (hk : aon.keys = s.aon.keys) :
    Keeps s₀ (State.mk s.regs devtime jnl heldAcc flt sys auth feed ph php phg meas chg chgg pk aon fc ring hif tw cmp adc
    tmr thm mem out rdata freeCtr s.pending) :=
  Keeps.of_same h rfl rfl hj hf hk

/-- The power-on values are in canonical form. -/
theorem powerOnRegs_wf : RegFile.wf powerOnRegs = true := by decide +kernel

end Sys2Proof.Machine
end

