-- ==== Sys2Proof/Laws/KeepsOps.lean ====
section
/-! SUPPORT. What each operation of Machine/Ops.lean may do to the queue, the soundness of the state and the fuses. -/

namespace Sys2Proof.Machine

theorem State.setWord_keeps {s₀ s : State} (h : Keeps s₀ s) (off : Nat) (w : Word) : Keeps s₀ (s.setWord off w) :=
  ⟨h.queue, fun hs => ⟨RegFile.wf_set off w (h.sound hs).regs, (h.sound hs).journal⟩, ⟨h.fuses.groups, h.fuses.valid, h.fuses.void⟩⟩

theorem State.setFld_keeps {s₀ s : State} (h : Keeps s₀ s) (f : Fld) (v : Nat) : Keeps s₀ (s.setFld f v) :=
  ⟨h.queue, fun hs => ⟨RegFile.wf_setFld f v (h.sound hs).regs, (h.sound hs).journal⟩, ⟨h.fuses.groups, h.fuses.valid, h.fuses.void⟩⟩

theorem State.setOn_keeps {s₀ s : State} (h : Keeps s₀ s) (f : Fld) (b : Bool) : Keeps s₀ (State.setOn s f b) := by
  unfold State.setOn
  repeat' first
    | with_reducible assumption
    | extract_lets
    | with_reducible apply Keeps.ite
    | with_reducible apply State.setFld_keeps

theorem State.count_keeps {s₀ s : State} (h : Keeps s₀ s) (f : Fld) : Keeps s₀ (State.count s f) := by
  unfold State.count
  repeat' first
    | with_reducible assumption
    | extract_lets
    | with_reducible apply Keeps.ite
    | with_reducible apply State.setFld_keeps

theorem State.setSfld_keeps {s₀ s : State} (h : Keeps s₀ s) (f : Fld) (i : Int) : Keeps s₀ (State.setSfld s f i) := by
  unfold State.setSfld
  repeat' first
    | with_reducible assumption
    | extract_lets
    | with_reducible apply State.setFld_keeps

theorem State.setCode_keeps {s₀ s : State} (h : Keeps s₀ s) (f : Fld) (q : Rat) : Keeps s₀ (State.setCode s f q) := by
  unfold State.setCode
  repeat' first
    | with_reducible assumption
    | extract_lets
    | with_reducible apply State.setFld_keeps

theorem State.setScode_keeps {s₀ s : State} (h : Keeps s₀ s) (f : Fld) (q : Rat) : Keeps s₀ (State.setScode s f q) := by
  unfold State.setScode
  repeat' first
    | with_reducible assumption
    | extract_lets
    | with_reducible apply State.setSfld_keeps

theorem State.modFeed_keeps {s₀ s : State} (h : Keeps s₀ s) (n : Fin 4) (f : FeedH → FeedH) : Keeps s₀ (State.modFeed s n f) := by
  unfold State.modFeed
  repeat' first
    | with_reducible assumption
    | extract_lets
    | split
    | with_reducible refine Keeps.mk_same ?_ rfl rfl rfl

theorem State.modPh_keeps {s₀ s : State} (h : Keeps s₀ s) (n : Fin 16) (f : PhH → PhH) : Keeps s₀ (State.modPh s n f) := by
  unfold State.modPh
  repeat' first
    | with_reducible assumption
    | extract_lets
    | split
    | with_reducible refine Keeps.mk_same ?_ rfl rfl rfl

theorem State.modPhp_keeps {s₀ s : State} (h : Keeps s₀ s) (k : Fin 2) (f : PhpH → PhpH) : Keeps s₀ (State.modPhp s k f) := by
  unfold State.modPhp
  repeat' first
    | with_reducible assumption
    | extract_lets
    | split
    | with_reducible refine Keeps.mk_same ?_ rfl rfl rfl

theorem State.modChg_keeps {s₀ s : State} (h : Keeps s₀ s) (k : Fin 2) (f : ChgH → ChgH) : Keeps s₀ (State.modChg s k f) := by
  unfold State.modChg
  repeat' first
    | with_reducible assumption
    | extract_lets
    | split
    | with_reducible refine Keeps.mk_same ?_ rfl rfl rfl

theorem State.modPk_keeps {s₀ s : State} (h : Keeps s₀ s) (k : Fin 2) (f : PkH → PkH) : Keeps s₀ (State.modPk s k f) := by
  unfold State.modPk
  repeat' first
    | with_reducible assumption
    | extract_lets
    | split
    | with_reducible refine Keeps.mk_same ?_ rfl rfl rfl

theorem State.modRing_keeps {s₀ s : State} (h : Keeps s₀ s) (n : Fin 64) (f : RingH → RingH) : Keeps s₀ (State.modRing s n f) := by
  unfold State.modRing
  repeat' first
    | with_reducible assumption
    | extract_lets
    | split
    | with_reducible refine Keeps.mk_same ?_ rfl rfl rfl

theorem State.modTw_keeps {s₀ s : State} (h : Keeps s₀ s) (p : Fin 3) (f : TwH → TwH) : Keeps s₀ (State.modTw s p f) := by
  unfold State.modTw
  repeat' first
    | with_reducible assumption
    | extract_lets
    | split
    | with_reducible refine Keeps.mk_same ?_ rfl rfl rfl

theorem State.modCmp_keeps {s₀ s : State} (h : Keeps s₀ s) (c : Fin 48) (f : CmpH → CmpH) : Keeps s₀ (State.modCmp s c f) := by
  unfold State.modCmp
  repeat' first
    | with_reducible assumption
    | extract_lets
    | split
    | with_reducible refine Keeps.mk_same ?_ rfl rfl rfl

theorem State.modAdc_keeps {s₀ s : State} (h : Keeps s₀ s) (x : Fin 2) (f : AdcH → AdcH) : Keeps s₀ (State.modAdc s x f) := by
  unfold State.modAdc
  repeat' first
    | with_reducible assumption
    | extract_lets
    | split
    | with_reducible refine Keeps.mk_same ?_ rfl rfl rfl

theorem State.modTmr_keeps {s₀ s : State} (h : Keeps s₀ s) (n : Fin 8) (f : TmrH → TmrH) : Keeps s₀ (State.modTmr s n f) := by
  unfold State.modTmr
  repeat' first
    | with_reducible assumption
    | extract_lets
    | split
    | with_reducible refine Keeps.mk_same ?_ rfl rfl rfl

theorem State.each_keeps {α : Type} {s₀ s : State} (h : Keeps s₀ s) (l : List α) (f : State → α → State)
    (hf : ∀ t a, Keeps s₀ t → Keeps s₀ (f t a)) : Keeps s₀ (s.each l f) := by
  unfold State.each
  induction l generalizing s with
  | nil => exact h
  | cons a l ih => exact ih (hf s a h)

theorem State.free_keeps {s₀ s : State} (h : Keeps s₀ s) : Keeps s₀ s.free.2 :=
  Keeps.of_same h rfl rfl rfl rfl rfl

theorem State.send_keeps {s₀ s : State} (h : Keeps s₀ s) (o : HostOut) : Keeps s₀ (State.send s o) := by
  unfold State.send
  repeat' first
    | with_reducible assumption
    | extract_lets
    | with_reducible apply Keeps.ite
    | with_reducible apply State.setOn_keeps
    | split
    | with_reducible refine Keeps.mk_same ?_ rfl rfl rfl

theorem State.aer_keeps {s₀ s : State} (h : Keeps s₀ s) (t : Fin 3) : Keeps s₀ (State.aer s t) := by
  unfold State.aer
  repeat' first
    | with_reducible assumption
    | extract_lets
    | with_reducible apply Keeps.ite
    | with_reducible apply State.setOn_keeps
    | split
    | with_reducible refine Keeps.mk_same ?_ rfl rfl rfl

theorem State.unsupported_keeps {s₀ s : State} (h : Keeps s₀ s) (read : Bool) : Keeps s₀ (State.unsupported s read) := by
  unfold State.unsupported
  repeat' first
    | with_reducible assumption
    | extract_lets
    | with_reducible apply Keeps.ite
    | with_reducible apply State.setOn_keeps
    | with_reducible apply State.aer_keeps
    | split
    | with_reducible refine Keeps.mk_same ?_ rfl rfl rfl

theorem State.msix_keeps {s₀ s : State} (h : Keeps s₀ s) (v : Nat) : Keeps s₀ (State.msix s v) := by
  unfold State.msix
  repeat' first
    | with_reducible assumption
    | extract_lets
    | with_reducible apply Keeps.ite
    | with_reducible apply State.setWord_keeps
    | with_reducible apply State.send_keeps
    | split

theorem State.telAdd_keeps {s₀ s : State} (h : Keeps s₀ s) (cls : Fin 3) (payload : List Byte) :
    Keeps s₀ (State.telAdd s cls payload) :=
  Keeps.of_same h rfl rfl rfl rfl rfl

theorem State.alertRise_keeps {s₀ s : State} (h : Keeps s₀ s) (src : Nat) : Keeps s₀ (State.alertRise s src) := by
  unfold State.alertRise
  repeat' first
    | with_reducible assumption
    | extract_lets
    | with_reducible apply Keeps.ite
    | with_reducible apply State.modTw_keeps

theorem lineRise_keeps {s₀ b : State} (h : Keeps s₀ b) (src : Nat) (a : State) : Keeps s₀ (lineRise src a b) := by
  have e : Keeps s₀ (b.alertRise src) := State.alertRise_keeps h _
  unfold lineRise
  extract_lets
  exact Keeps.ite (Keeps.ite (State.msix_keeps e _) e) h

theorem State.setFlags_keeps {s₀ s : State} (h : Keeps s₀ s) (off : Nat) (m : Word) : Keeps s₀ (State.setFlags s off m) := by
  unfold State.setFlags
  repeat' first
    | with_reducible assumption
    | extract_lets
    | with_reducible apply Keeps.ite
    | with_reducible apply State.setWord_keeps
    | with_reducible apply State.telAdd_keeps
    | with_reducible apply lineRise_keeps
    | split
    | with_reducible refine Keeps.mk_same ?_ rfl rfl rfl

theorem State.evt_keeps {s₀ s : State} (h : Keeps s₀ s) (f : Fld) : Keeps s₀ (State.evt s f) := by
  unfold State.evt
  repeat' first
    | with_reducible assumption
    | extract_lets
    | with_reducible apply State.setFlags_keeps

theorem State.event_keeps {s₀ s : State} (h : Keeps s₀ s) (e : FltEvent) : Keeps s₀ (State.event s e) := by
  unfold State.event
  repeat' first
    | with_reducible assumption
    | extract_lets
    | split
    | with_reducible refine Keeps.mk_same ?_ rfl rfl rfl

theorem State.fault_keeps {s₀ s : State} (h : Keeps s₀ s) (src : Fin 64) (addr : Nat) : Keeps s₀ (State.fault s src addr) := by
  unfold State.fault
  repeat' first
    | with_reducible assumption
    | extract_lets
    | with_reducible apply State.event_keeps

theorem State.regFault_keeps {s₀ s : State} (h : Keeps s₀ s) (o : Origin) (off : Nat) : Keeps s₀ (State.regFault s o off) := by
  unfold State.regFault
  repeat' first
    | with_reducible assumption
    | extract_lets
    | with_reducible apply State.event_keeps

theorem State.cmpAssert_keeps {s₀ s : State} (h : Keeps s₀ s) (c : Nat) (upper : Bool) : Keeps s₀ (State.cmpAssert s c upper) := by
  unfold State.cmpAssert
  repeat' first
    | with_reducible assumption
    | extract_lets
    | with_reducible apply Keeps.ite
    | with_reducible apply State.setFld_keeps
    | with_reducible apply State.count_keeps
    | with_reducible apply State.evt_keeps

theorem State.edgeTo_keeps {s₀ s : State} (h : Keeps s₀ s) (code : Nat) (n : Fin 8) : Keeps s₀ (State.edgeTo s code n) := by
  unfold State.edgeTo
  repeat' first
    | with_reducible assumption
    | extract_lets
    | with_reducible apply Keeps.ite
    | with_reducible apply State.modTmr_keeps

theorem State.sourceEdge_keeps {s₀ s : State} (h : Keeps s₀ s) (code : Nat) : Keeps s₀ (State.sourceEdge s code) := by
  unfold State.sourceEdge
  repeat' first
    | with_reducible assumption
    | extract_lets
    | with_reducible apply State.edgeTo_keeps
    | (with_reducible refine State.each_keeps ?_ _ _ (fun _ _ _ => ?_))

theorem State.cmpRow_keeps {s₀ s : State} (h : Keeps s₀ s) (c : Nat) (upper : Bool) (w : Nat) : Keeps s₀ (State.cmpRow s c upper w).2 := by
  unfold State.cmpRow
  repeat' first
    | with_reducible assumption
    | extract_lets
    | with_reducible apply Keeps.ite
    | with_reducible apply State.modCmp_keeps
    | with_reducible apply State.cmpAssert_keeps
    | dsimp only
    | split

theorem State.cmpReport_keeps {s₀ s : State} (h : Keeps s₀ s) (c : Nat) (upper : Bool) (w : Nat) : Keeps s₀ (State.cmpReport s c upper w) := by
  unfold State.cmpReport
  repeat' first
    | with_reducible assumption
    | extract_lets
    | with_reducible apply State.cmpRow_keeps

theorem State.cmpClear_keeps {s₀ s : State} (h : Keeps s₀ s) (c : Nat) : Keeps s₀ (State.cmpClear s c) := by
  unfold State.cmpClear
  repeat' first
    | with_reducible assumption
    | extract_lets
    | with_reducible apply Keeps.ite
    | with_reducible apply State.setFld_keeps

theorem State.cmpForget_keeps {s₀ s : State} (h : Keeps s₀ s) (c : Nat) : Keeps s₀ (State.cmpForget s c) := by
  unfold State.cmpForget
  repeat' first
    | with_reducible assumption
    | extract_lets
    | with_reducible apply State.modCmp_keeps

theorem State.journal_keeps {s₀ s : State} (h : Keeps s₀ s) (r : JRec) : Keeps s₀ (State.journal s r) := by
  unfold State.journal
  repeat' first
    | with_reducible assumption
    | extract_lets
    | split
    | with_reducible refine Keeps.mk_same ?_ rfl rfl rfl

theorem State.jevent_keeps {s₀ s : State} (h : Keeps s₀ s) (b : HwBlock) (obj detail : Nat) (old new aux : Word) : Keeps s₀ (State.jevent s b obj detail old new aux) := by
  unfold State.jevent
  repeat' first
    | with_reducible assumption
    | extract_lets
    | with_reducible apply State.journal_keeps

theorem State.postEntry_keeps {s₀ s : State} (h : Keeps s₀ s) (n : Fin 64) (c : Compl) : Keeps s₀ (State.postEntry s n c) := by
  unfold State.postEntry
  repeat' first
    | with_reducible assumption
    | extract_lets
    | with_reducible apply Keeps.ite
    | with_reducible apply State.modRing_keeps

theorem State.complete_keeps {s₀ s : State} (h : Keeps s₀ s) (n : Fin 64) (d : Desc) (status qual result : Nat) : Keeps s₀ (State.complete s n d status qual result) := by
  unfold State.complete
  repeat' first
    | with_reducible assumption
    | extract_lets
    | with_reducible apply State.postEntry_keeps

theorem State.noticeOn_keeps {s₀ s : State} (h : Keeps s₀ s) (n : Fin 64) (code data : Nat) : Keeps s₀ (State.noticeOn s n code data) := by
  unfold State.noticeOn
  repeat' first
    | with_reducible assumption
    | extract_lets
    | with_reducible apply Keeps.ite
    | with_reducible apply State.modRing_keeps
    | with_reducible apply State.evt_keeps
    | with_reducible apply State.postEntry_keeps

theorem State.notice_keeps {s₀ s : State} (h : Keeps s₀ s) (code data : Nat) : Keeps s₀ (State.notice s code data) := by
  unfold State.notice
  repeat' first
    | with_reducible assumption
    | extract_lets
    | with_reducible apply State.noticeOn_keeps
    | (with_reducible refine State.each_keeps ?_ _ _ (fun _ _ _ => ?_))

end Sys2Proof.Machine
end

