-- ==== Sys2Proof/Laws/KeepsOperands.lean ====
section
/-! SUPPORT. What each operation of Machine/Operands.lean may do to the queue, the soundness of the state and the fuses. -/

namespace Sys2Proof.Machine

end Sys2Proof.Machine
end

