-- ==== Sys2Proof/Laws/KeepsPower.lean ====
section
/-! SUPPORT. What each operation of Machine/Power.lean may do to the queue, the soundness of the state and the fuses. -/

namespace Sys2Proof.Machine

theorem State.setQual_keeps {s₀ s : State} (h : Keeps s₀ s) (n : Fin 4) (b : Bool) : Keeps s₀ (State.setQual s n b) := by
  unfold State.setQual
  repeat' first
    | with_reducible assumption
    | extract_lets
    | with_reducible apply State.setOn_keeps

theorem State.gatesOff_keeps {s₀ s : State} (h : Keeps s₀ s) (n : Fin 4) : Keeps s₀ (State.gatesOff s n) := by
  unfold State.gatesOff
  repeat' first
    | with_reducible assumption
    | extract_lets
    | with_reducible apply State.setOn_keeps

theorem State.setGroup_keeps {s₀ s : State} (h : Keeps s₀ s) (g : List (Fin 4)) : Keeps s₀ (State.setGroup s g) := by
  unfold State.setGroup
  repeat' first
    | with_reducible assumption
    | extract_lets
    | with_reducible apply State.setFld_keeps
    | with_reducible apply State.setOn_keeps
    | (with_reducible refine State.each_keeps ?_ _ _ (fun _ _ _ => ?_))

theorem State.syncFeeds_keeps {s₀ s : State} (h : Keeps s₀ s) : Keeps s₀ (State.syncFeeds s) := by
  unfold State.syncFeeds
  repeat' first
    | with_reducible assumption
    | extract_lets
    | with_reducible apply Keeps.ite
    | with_reducible apply State.setFld_keeps
    | with_reducible apply State.setGroup_keeps
    | (with_reducible refine State.each_keeps ?_ _ _ (fun _ _ _ => ?_))

theorem State.syncPort_keeps {s₀ s : State} (h : Keeps s₀ s) (k : Fin 2) : Keeps s₀ (State.syncPort s k) := by
  unfold State.syncPort
  repeat' first
    | with_reducible assumption
    | extract_lets
    | with_reducible apply State.setFld_keeps
    | with_reducible apply State.setCode_keeps

theorem State.syncPorts_keeps {s₀ s : State} (h : Keeps s₀ s) : Keeps s₀ (State.syncPorts s) := by
  unfold State.syncPorts
  repeat' first
    | with_reducible assumption
    | extract_lets
    | with_reducible apply State.syncPort_keeps

theorem State.setCmd_keeps {s₀ s : State} (h : Keeps s₀ s) (k : Fin 2) (a : Rat) : Keeps s₀ (State.setCmd s k a) := by
  unfold State.setCmd
  repeat' first
    | with_reducible assumption
    | extract_lets
    | with_reducible apply State.modPhp_keeps
    | with_reducible apply State.syncPort_keeps

theorem State.setPh_keeps {s₀ s : State} (h : Keeps s₀ s) (n : Fin 16) (st : PhSt) : Keeps s₀ (State.setPh s n st) := by
  unfold State.setPh
  repeat' first
    | with_reducible assumption
    | extract_lets
    | with_reducible apply State.setFld_keeps
    | with_reducible apply State.modPh_keeps
    | split

theorem State.stopPhases_keeps {s₀ s : State} (h : Keeps s₀ s) : Keeps s₀ (State.stopPhases s) := by
  unfold State.stopPhases
  repeat' first
    | with_reducible assumption
    | extract_lets
    | with_reducible apply State.syncPorts_keeps
    | with_reducible apply State.setPh_keeps
    | (with_reducible refine State.each_keeps ?_ _ _ (fun _ _ _ => ?_))

theorem State.turn_keeps {s₀ s : State} (h : Keeps s₀ s) (k : Fin 2) (d : Dir) : Keeps s₀ (State.turn s k d) := by
  unfold State.turn
  repeat' first
    | with_reducible assumption
    | extract_lets
    | with_reducible apply Keeps.ite
    | with_reducible apply State.setFld_keeps
    | with_reducible apply State.modPh_keeps
    | with_reducible apply State.modPhp_keeps
    | with_reducible apply State.evt_keeps
    | with_reducible apply State.syncPort_keeps
    | (with_reducible refine State.each_keeps ?_ _ _ (fun _ _ _ => ?_))

theorem State.syncRoles_keeps {s₀ s : State} (h : Keeps s₀ s) : Keeps s₀ (State.syncRoles s) := by
  unfold State.syncRoles
  repeat' first
    | with_reducible assumption
    | extract_lets
    | with_reducible apply State.setOn_keeps

theorem State.setItgt_keeps {s₀ s : State} (h : Keeps s₀ s) (k : Fin 2) (i : Rat) : Keeps s₀ (State.setItgt s k i) := by
  unfold State.setItgt
  repeat' first
    | with_reducible assumption
    | extract_lets
    | with_reducible apply State.setScode_keeps
    | with_reducible apply State.modChg_keeps

theorem State.endCharge_keeps {s₀ s : State} (h : Keeps s₀ s) (k : Fin 2) : Keeps s₀ (State.endCharge s k) := by
  unfold State.endCharge
  repeat' first
    | with_reducible assumption
    | extract_lets
    | with_reducible apply State.setFld_keeps
    | with_reducible apply State.setOn_keeps
    | with_reducible apply State.modChg_keeps

theorem State.setRole_keeps {s₀ s : State} (h : Keeps s₀ s) (k : Fin 2) (r : Role) : Keeps s₀ (State.setRole s k r) := by
  unfold State.setRole
  repeat' first
    | with_reducible assumption
    | extract_lets
    | with_reducible apply Keeps.ite
    | with_reducible apply State.setFld_keeps
    | with_reducible apply State.count_keeps
    | with_reducible apply State.modChg_keeps
    | with_reducible apply State.setCmd_keeps
    | with_reducible apply State.turn_keeps
    | with_reducible apply State.syncRoles_keeps
    | with_reducible apply State.endCharge_keeps
    | split
    | with_reducible refine Keeps.mk_same ?_ rfl rfl rfl

theorem State.setStage_keeps {s₀ s : State} (h : Keeps s₀ s) (k : Fin 2) (g : Stage) : Keeps s₀ (State.setStage s k g) := by
  unfold State.setStage
  repeat' first
    | with_reducible assumption
    | extract_lets
    | with_reducible apply Keeps.ite
    | with_reducible apply State.setFld_keeps
    | with_reducible apply State.modChg_keeps

theorem State.setPk_keeps {s₀ s : State} (h : Keeps s₀ s) (k : Fin 2) (st : PkSt) : Keeps s₀ (State.setPk s k st) := by
  unfold State.setPk
  repeat' first
    | with_reducible assumption
    | extract_lets
    | with_reducible apply State.setFld_keeps

theorem State.syncPack_keeps {s₀ s : State} (h : Keeps s₀ s) (k : Fin 2) : Keeps s₀ (State.syncPack s k) := by
  unfold State.syncPack
  repeat' first
    | with_reducible assumption
    | extract_lets
    | with_reducible apply Keeps.ite
    | with_reducible apply State.setFld_keeps
    | with_reducible apply State.setOn_keeps

theorem State.setGates_keeps {s₀ s : State} (h : Keeps s₀ s) (k : Fin 2) (chg dsg : Bool) : Keeps s₀ (State.setGates s k chg dsg) := by
  unfold State.setGates
  repeat' first
    | with_reducible assumption
    | extract_lets
    | with_reducible apply Keeps.ite
    | with_reducible apply State.setOn_keeps
    | with_reducible apply State.syncPack_keeps

theorem State.openPort_keeps {s₀ s : State} (h : Keeps s₀ s) (k : Fin 2) : Keeps s₀ (State.openPort s k) := by
  unfold State.openPort
  repeat' first
    | with_reducible assumption
    | extract_lets
    | with_reducible apply Keeps.ite
    | with_reducible apply State.modPk_keeps
    | with_reducible apply State.setPk_keeps
    | with_reducible apply State.syncPack_keeps
    | with_reducible apply State.setGates_keeps

theorem State.dsgAfterClose_keeps {s₀ s : State} (h : Keeps s₀ s) (k : Fin 2) : Keeps s₀ (State.dsgAfterClose s k) := by
  unfold State.dsgAfterClose
  repeat' first
    | with_reducible assumption
    | extract_lets
    | with_reducible apply Keeps.ite
    | with_reducible apply State.modPk_keeps
    | with_reducible apply State.setGates_keeps

theorem State.syncThr_keeps {s₀ s : State} (h : Keeps s₀ s) : Keeps s₀ (State.syncThr s) := by
  unfold State.syncThr
  repeat' first
    | with_reducible assumption
    | extract_lets
    | with_reducible apply Keeps.ite
    | with_reducible apply State.setFld_keeps
    | with_reducible apply State.setFlags_keeps

end Sys2Proof.Machine
end

