-- ==== Sys2Proof/Laws/KeepsJournal.lean ====
section
/-! SUPPORT. What each operation of Machine/Journal.lean may do to the queue, the soundness of the state and the fuses. -/

namespace Sys2Proof.Machine

theorem State.storeRecord_keeps {s₀ s : State} (h : Keeps s₀ s) (r : JRec) : Keeps s₀ (State.storeRecord s r) := by
  have h1 : Keeps s₀ { s with jnl := { s.jnl with seq := s.jnl.seq + 1 } } := Keeps.of_same h rfl rfl rfl rfl rfl
  unfold State.storeRecord
  extract_lets seq src s1 src1 s2 s3 s4 s5
  have e1 : Keeps s₀ s1 := h1
  split
  · next hlt =>
    have e2 : Keeps s₀ s2 := Keeps.of_entries e1 rfl rfl rfl rfl (fun _ => by
      have : s1.jnl.entries.length < 4096 := hlt
      simp only [s2, List.length_append, List.length_singleton]; omega)
    have e3 : Keeps s₀ s3 := by
      unfold s3; split
      · exact State.evt_keeps e2 _
      · exact e2
    split
    · exact State.evt_keeps e3 _
    · exact e3
  · have e4 : Keeps s₀ s4 := by
      unfold s4; split
      · exact e1
      · exact Keeps.of_entries e1 rfl rfl rfl rfl (fun h => by
          simp only [List.length_append, List.length_drop, List.length_singleton]; omega)
    exact State.fault_keeps (State.evt_keeps (State.count_keeps e4 _) _) _ _

theorem State.writeRecord_keeps {s₀ s : State} (h : Keeps s₀ s) : Keeps s₀ (State.writeRecord s) := by
  unfold State.writeRecord
  repeat' first
    | with_reducible assumption
    | extract_lets
    | with_reducible apply State.storeRecord_keeps
    | split
    | with_reducible refine Keeps.mk_same ?_ rfl rfl rfl

theorem State.flushJournal_keeps {s₀ s : State} (h : Keeps s₀ s) : Keeps s₀ (State.flushJournal s) := by
  unfold State.flushJournal
  repeat' first
    | with_reducible assumption
    | extract_lets
    | with_reducible apply State.writeRecord_keeps
    | (with_reducible refine State.each_keeps ?_ _ _ (fun _ _ _ => ?_))

theorem State.release_keeps {s₀ s : State} (h : Keeps s₀ s) (n : Nat) (o : Origin) : Keeps s₀ (State.release s n o) := by
  unfold State.release
  extract_lets k
  split
  · exact h
  · split
    · exact h
    · have e : Keeps s₀ { s with jnl := { s.jnl with entries := s.jnl.entries.drop k } } :=
        Keeps.of_entries h rfl rfl rfl rfl (fun hl => by
          simp only [List.length_drop]
          omega)
      exact State.journal_keeps e _

theorem State.latchEntry_keeps {s₀ s : State} (h : Keeps s₀ s) (idx : Nat) : Keeps s₀ (State.latchEntry s idx) := by
  unfold State.latchEntry
  repeat' first
    | with_reducible assumption
    | extract_lets
    | with_reducible apply State.setWord_keeps
    | with_reducible apply State.setFld_keeps
    | with_reducible apply State.setOn_keeps
    | (with_reducible refine State.each_keeps ?_ _ _ (fun _ _ _ => ?_))
    | split

theorem State.attendEntry_keeps {s₀ s : State} (h : Keeps s₀ s) (o : Origin) (old new : Bool) : Keeps s₀ (State.attendEntry s o old new) := by
  unfold State.attendEntry
  repeat' first
    | with_reducible assumption
    | extract_lets
    | with_reducible apply Keeps.ite
    | with_reducible apply State.journal_keeps

theorem State.cmdEntry_keeps {s₀ s : State} (h : Keeps s₀ s) (d : Desc) (cls : Nat) (refused : Bool) (status qual reason : Nat) : Keeps s₀ (State.cmdEntry s d cls refused status qual reason) := by
  unfold State.cmdEntry
  repeat' first
    | with_reducible assumption
    | extract_lets
    | with_reducible apply State.journal_keeps

theorem State.refusal_keeps {s₀ s : State} (h : Keeps s₀ s) (o : Origin) (reason opc off : Nat) : Keeps s₀ (State.refusal s o reason opc off) := by
  unfold State.refusal
  repeat' first
    | with_reducible assumption
    | extract_lets
    | with_reducible apply Keeps.ite
    | with_reducible apply State.setFld_keeps
    | with_reducible apply State.setOn_keeps
    | with_reducible apply State.count_keeps
    | with_reducible apply State.evt_keeps

theorem State.regDiff_keeps {s₀ s : State} (h : Keeps s₀ s) (old : State) (offs : List Nat) (o : Origin) (cls : Nat) : Keeps s₀ (State.regDiff s old offs o cls) := by
  unfold State.regDiff
  repeat' first
    | with_reducible assumption
    | extract_lets
    | with_reducible apply State.journal_keeps
    | (with_reducible refine State.each_keeps ?_ _ _ (fun _ _ _ => ?_))

theorem State.answer_keeps {s₀ s : State} (h : Keeps s₀ s) (d : Desc) (status qual result : Nat) : Keeps s₀ (State.answer s d status qual result) := by
  unfold State.answer
  repeat' first
    | with_reducible assumption
    | extract_lets
    | with_reducible apply Keeps.ite
    | with_reducible apply State.modRing_keeps
    | with_reducible apply State.complete_keeps

theorem State.done_keeps {s₀ s : State} (h : Keeps s₀ s) (d : Desc) (status qual result : Nat) : Keeps s₀ (State.done s d status qual result) := by
  unfold State.done
  repeat' first
    | with_reducible assumption
    | extract_lets
    | with_reducible apply Keeps.ite
    | with_reducible apply State.answer_keeps
    | split
    | with_reducible refine Keeps.mk_same ?_ rfl rfl rfl

theorem State.refusedEntry_keeps {s₀ s : State} (h : Keeps s₀ s) (d : Desc) (cls status qual reason : Nat) : Keeps s₀ (State.refusedEntry s d cls status qual reason) := by
  unfold State.refusedEntry
  repeat' first
    | with_reducible assumption
    | extract_lets
    | with_reducible apply Keeps.ite
    | with_reducible apply State.journal_keeps
    | with_reducible apply State.cmdEntry_keeps

theorem State.flushErrors_keeps (n : Fin 64) (l : List SqItem) {s₀ s : State} (h : Keeps s₀ s) :
    Keeps s₀ (State.flushErrors n l s) := by
  fun_induction State.flushErrors n l s with
  | case1 d ds st q r a l s ht s1 ih =>
    have e : Keeps s₀ s1 := State.complete_keeps (State.modRing_keeps h _ _) _ _ _ _ _
    exact ih (Keeps.ite (State.refusedEntry_keeps e _ _ _ _ _) e)
  | case2 => exact h
  | case3 => exact h

theorem State.flush_keeps {s₀ s : State} (h : Keeps s₀ s) (n : Fin 64) : Keeps s₀ (State.flush s n) := by
  unfold State.flush
  repeat' first
    | with_reducible assumption
    | extract_lets
    | with_reducible apply Keeps.ite
    | with_reducible apply State.flushErrors_keeps

theorem State.popSq_keeps {s₀ s t : State} (h : Keeps s₀ s) (n : Fin 64) (ds : List Desc) (ht : s.popSq n ds = some t) :
    Keeps s₀ t := by
  unfold State.popSq at ht
  split at ht
  · cases ht; exact h
  · split at ht
    · cases ht; exact State.flushErrors_keeps n _ (State.modRing_keeps h _ _)
    · cases ht

theorem State.finish_keeps {s₀ s : State} (h : Keeps s₀ s) (d : Desc) (status qual result : Nat) : Keeps s₀ (State.finish s d status qual result) := by
  unfold State.finish
  repeat' first
    | with_reducible assumption
    | extract_lets
    | with_reducible apply Keeps.ite
    | with_reducible apply State.cmdEntry_keeps
    | with_reducible apply State.done_keeps

theorem State.refused_keeps {s₀ s : State} (h : Keeps s₀ s) (d : Desc) (cls status qual reason : Nat) : Keeps s₀ (State.refused s d cls status qual reason) := by
  unfold State.refused
  repeat' first
    | with_reducible assumption
    | extract_lets
    | with_reducible apply Keeps.ite
    | with_reducible apply State.refusal_keeps
    | with_reducible apply State.refusedEntry_keeps

theorem State.refuse_keeps {s₀ s : State} (h : Keeps s₀ s) (d : Desc) (cls status qual reason : Nat) (result : Nat) : Keeps s₀ (State.refuse s d cls status qual reason result) := by
  unfold State.refuse
  repeat' first
    | with_reducible assumption
    | extract_lets
    | with_reducible apply State.answer_keeps
    | with_reducible apply State.refused_keeps

theorem State.fail_keeps {s₀ s : State} (h : Keeps s₀ s) (d : Desc) (cls status qual reason : Nat) : Keeps s₀ (State.fail s d cls status qual reason) := by
  unfold State.fail
  repeat' first
    | with_reducible assumption
    | extract_lets
    | with_reducible apply State.done_keeps
    | with_reducible apply State.refused_keeps

theorem State.abortTel_keeps {s₀ s : State} (h : Keeps s₀ s) : Keeps s₀ (State.abortTel s) := by
  unfold State.abortTel
  repeat' first
    | with_reducible assumption
    | extract_lets
    | with_reducible apply Keeps.ite
    | with_reducible apply State.done_keeps
    | split
    | with_reducible refine Keeps.mk_same ?_ rfl rfl rfl

end Sys2Proof.Machine
end

