-- ==== Sys2Proof/Laws/KeepsForecastOps.lean ====
section
/-! SUPPORT. What each operation of Machine/ForecastOps.lean may do to the queue, the soundness of the state and the fuses. -/

namespace Sys2Proof.Machine

theorem State.guardGrants_keeps {s₀ s : State} (h : Keeps s₀ s) (b : Fin 5) (n : Nat) : Keeps s₀ (State.guardGrants s b n) := by
  unfold State.guardGrants
  repeat' first
    | with_reducible assumption
    | extract_lets
    | with_reducible apply Keeps.ite
    | with_reducible apply State.setFld_keeps
    | with_reducible apply State.setFlags_keeps

theorem State.modFc_keeps {s₀ s : State} (h : Keeps s₀ s) (f : FcH → FcH) : Keeps s₀ (State.modFc s f) := by
  unfold State.modFc
  repeat' first
    | with_reducible assumption
    | extract_lets
    | split
    | with_reducible refine Keeps.mk_same ?_ rfl rfl rfl

theorem State.putLine_keeps {s₀ s : State} (h : Keeps s₀ s) (l : GtLine) : Keeps s₀ (State.putLine s l) := by
  unfold State.putLine
  repeat' first
    | with_reducible assumption
    | extract_lets
    | with_reducible apply Keeps.ite
    | with_reducible apply State.modFc_keeps

theorem State.syncLive_keeps {s₀ s : State} (h : Keeps s₀ s) : Keeps s₀ (State.syncLive s) := by
  unfold State.syncLive
  repeat' first
    | with_reducible assumption
    | extract_lets
    | with_reducible apply State.setFld_keeps
    | with_reducible apply State.setCode_keeps
    | (with_reducible refine State.each_keeps ?_ _ _ (fun _ _ _ => ?_))

theorem State.writeBack_keeps {s₀ s : State} (h : Keeps s₀ s) (l : GtLine) : Keeps s₀ (State.writeBack s l) := by
  unfold State.writeBack
  repeat' first
    | with_reducible assumption
    | extract_lets
    | with_reducible apply Keeps.ite
    | with_reducible apply State.send_keeps
    | with_reducible apply State.putLine_keeps

theorem State.dropLine_keeps {s₀ s : State} (h : Keeps s₀ s) (c : Nat) : Keeps s₀ (State.dropLine s c) := by
  unfold State.dropLine
  repeat' first
    | with_reducible assumption
    | extract_lets
    | with_reducible apply State.modFc_keeps

theorem State.fillLine_keeps {s₀ s : State} (h : Keeps s₀ s) (c : Nat) (e : BitVec 512) : Keeps s₀ (State.fillLine s c e) := by
  unfold State.fillLine
  repeat' first
    | with_reducible assumption
    | extract_lets
    | with_reducible apply Keeps.ite
    | with_reducible apply State.modFc_keeps
    | with_reducible apply State.writeBack_keeps
    | with_reducible apply State.dropLine_keeps
    | split

theorem State.revoke_keeps {s₀ s : State} (h : Keeps s₀ s) (l : GtLine) (reason : Nat) : Keeps s₀ (State.revoke s l reason) := by
  unfold State.revoke
  repeat' first
    | with_reducible assumption
    | extract_lets
    | with_reducible apply State.postEntry_keeps
    | with_reducible apply State.putLine_keeps
    | split

theorem State.selectUntil_keeps {s₀ s : State} (h : Keeps s₀ s) (covered : State → Bool) (z : Option (Fin 8)) (reason n : Nat) :
    Keeps s₀ (State.selectUntil s covered z reason n) := by
  induction n generalizing s with
  | zero => exact h
  | succ n ih =>
    unfold State.selectUntil
    split
    · exact h
    · split
      · exact ih (State.revoke_keeps h _ _)
      · exact Keeps.ite (State.evt_keeps h _) h

theorem State.fcTerms_keeps {s₀ s : State} (h : Keeps s₀ s) : Keeps s₀ (State.fcTerms s) := by
  unfold State.fcTerms
  repeat' first
    | with_reducible assumption
    | extract_lets
    | with_reducible apply Keeps.ite
    | with_reducible apply State.setOn_keeps
    | with_reducible apply State.setCode_keeps
    | with_reducible apply State.setScode_keeps
    | with_reducible apply State.modChg_keeps
    | with_reducible apply State.evt_keeps
    | (with_reducible refine State.each_keeps ?_ _ _ (fun _ _ _ => ?_))
    | split
    | with_reducible refine Keeps.mk_same ?_ rfl rfl rfl

theorem State.budgetDrop_keeps {s₀ s : State} (h : Keeps s₀ s) : Keeps s₀ (State.budgetDrop s) := by
  unfold State.budgetDrop
  repeat' first
    | with_reducible assumption
    | extract_lets
    | with_reducible apply State.modFc_keeps
    | with_reducible apply State.fcTerms_keeps

theorem State.endGrant_keeps {s₀ s : State} (h : Keeps s₀ s) (l : GtLine) (throttle : Bool) : Keeps s₀ (State.endGrant s l throttle) := by
  unfold State.endGrant
  repeat' first
    | with_reducible assumption
    | extract_lets
    | with_reducible apply Keeps.ite
    | with_reducible apply State.modFc_keeps
    | with_reducible apply State.putLine_keeps

theorem State.freeClaims_keeps {s₀ s : State} (h : Keeps s₀ s) : Keeps s₀ (State.freeClaims s) := by
  unfold State.freeClaims
  repeat' first
    | with_reducible assumption
    | extract_lets
    | with_reducible apply State.syncThr_keeps
    | with_reducible apply State.modFc_keeps

theorem State.endAll_keeps {s₀ s : State} (h : Keeps s₀ s) (save throttle : Bool) : Keeps s₀ (State.endAll s save throttle) := by
  unfold State.endAll
  repeat' first
    | with_reducible assumption
    | extract_lets
    | with_reducible apply Keeps.ite
    | with_reducible apply State.setFld_keeps
    | with_reducible apply State.setOn_keeps
    | with_reducible apply State.count_keeps
    | with_reducible apply State.evt_keeps
    | with_reducible apply State.syncThr_keeps
    | with_reducible apply State.modFc_keeps
    | with_reducible apply State.syncLive_keeps
    | with_reducible apply State.writeBack_keeps
    | with_reducible apply State.endGrant_keeps
    | (with_reducible refine State.each_keeps ?_ _ _ (fun _ _ _ => ?_))

end Sys2Proof.Machine
end

