-- ==== Sys2Proof/Laws/KeepsForecast.lean ====
section
/-! SUPPORT. What each operation of Machine/Forecast.lean may do to the queue, the soundness of the state and the fuses. -/

namespace Sys2Proof.Machine

theorem State.decideRequest_keeps {s₀ s : State} (h : Keeps s₀ s) (n : Fin 64) (d : Desc) (l : GtLine) : Keeps s₀ (State.decideRequest s n d l) := by
  unfold State.decideRequest
  repeat' first
    | with_reducible assumption
    | extract_lets
    | with_reducible apply Keeps.ite
    | with_reducible apply State.complete_keeps
    | with_reducible apply State.done_keeps
    | with_reducible apply State.putLine_keeps
    | with_reducible apply State.syncLive_keeps

theorem State.decideRelease_keeps {s₀ s : State} (h : Keeps s₀ s) (n : Fin 64) (d : Desc) (l : GtLine) : Keeps s₀ (State.decideRelease s n d l) := by
  unfold State.decideRelease
  repeat' first
    | with_reducible assumption
    | extract_lets
    | with_reducible apply Keeps.ite
    | with_reducible apply State.complete_keeps
    | with_reducible apply State.modFc_keeps
    | with_reducible apply State.putLine_keeps
    | with_reducible apply State.syncLive_keeps
    | with_reducible apply State.writeBack_keeps
    | with_reducible apply State.freeClaims_keeps
    | split
    | with_reducible refine Keeps.mk_same ?_ rfl rfl rfl

theorem State.decideExtend_keeps {s₀ s : State} (h : Keeps s₀ s) (n : Fin 64) (d : Desc) (l : GtLine) : Keeps s₀ (State.decideExtend s n d l) := by
  unfold State.decideExtend
  repeat' first
    | with_reducible assumption
    | extract_lets
    | with_reducible apply Keeps.ite
    | with_reducible apply State.complete_keeps
    | with_reducible apply State.putLine_keeps

theorem State.decideRead_keeps {s₀ s : State} (h : Keeps s₀ s) (n : Fin 64) (d : Desc) (l : GtLine) : Keeps s₀ (State.decideRead s n d l) := by
  unfold State.decideRead
  repeat' first
    | with_reducible assumption
    | extract_lets
    | with_reducible apply Keeps.ite
    | with_reducible apply State.complete_keeps
    | with_reducible apply State.putLine_keeps
    | with_reducible apply State.writeBack_keeps
    | with_reducible apply State.dropLine_keeps

theorem State.decideGrant_keeps {s₀ s : State} (h : Keeps s₀ s) (n : Fin 64) (d : Desc) (l : GtLine) : Keeps s₀ (State.decideGrant s n d l) := by
  unfold State.decideGrant
  repeat' first
    | with_reducible assumption
    | extract_lets
    | with_reducible apply Keeps.ite
    | with_reducible apply State.modFc_keeps
    | with_reducible apply State.putLine_keeps
    | with_reducible apply State.decideRequest_keeps
    | with_reducible apply State.decideRelease_keeps
    | with_reducible apply State.decideExtend_keeps
    | with_reducible apply State.decideRead_keeps

theorem State.deferPinned_keeps {s₀ s : State} (h : Keeps s₀ s) (n : Fin 64) (d : Desc) : Keeps s₀ (State.deferPinned s n d) := by
  unfold State.deferPinned
  repeat' first
    | with_reducible assumption
    | extract_lets
    | with_reducible apply Keeps.ite
    | with_reducible apply State.evt_keeps
    | with_reducible apply State.complete_keeps

theorem State.takeSlot_keeps {s₀ s : State} (h : Keeps s₀ s) (n : Fin 64) : Keeps s₀ (State.takeSlot s n) := by
  unfold State.takeSlot
  repeat' first
    | with_reducible assumption
    | extract_lets
    | with_reducible apply Keeps.ite
    | with_reducible apply State.modFc_keeps

theorem State.popCtx_keeps {s₀ s t : State} (h : Keeps s₀ s) (n : Fin 64) (d : Desc) (ht : s.popCtx n d = some t) : Keeps s₀ t := by
  unfold State.popCtx at ht
  split at ht
  · cases ht; exact h
  · split at ht
    · cases ht; exact State.modRing_keeps h _ _
    · cases ht

theorem State.decided_keeps {s₀ s : State} (h : Keeps s₀ s) (n : Fin 64) : Keeps s₀ (State.decided s n) := by
  unfold State.decided
  repeat' first
    | with_reducible assumption
    | extract_lets
    | with_reducible apply State.flush_keeps
    | with_reducible apply State.modFc_keeps

theorem State.ctxCommand_keeps {s₀ s : State} (h : Keeps s₀ s) (n : Fin 64) (d : Desc) : Keeps s₀ (State.ctxCommand s n d) := by
  unfold State.ctxCommand
  repeat' first
    | with_reducible assumption
    | extract_lets
    | with_reducible apply Keeps.ite
    | with_reducible apply State.complete_keeps
    | with_reducible apply State.modFc_keeps
    | with_reducible apply State.decideGrant_keeps
    | with_reducible apply State.deferPinned_keeps
    | with_reducible apply State.takeSlot_keeps
    | with_reducible apply State.decided_keeps
    | (with_reducible refine State.popCtx_keeps ?_ _ _ (by assumption))
    | split

theorem State.decideMiss_keeps {s₀ s : State} (h : Keeps s₀ s) (n : Fin 64) (d : Desc) : Keeps s₀ (State.decideMiss s n d) := by
  unfold State.decideMiss
  repeat' first
    | with_reducible assumption
    | extract_lets
    | with_reducible apply State.complete_keeps
    | with_reducible apply State.decideGrant_keeps
    | with_reducible apply State.deferPinned_keeps
    | with_reducible apply State.decided_keeps
    | split

theorem State.htAge_keeps {s₀ s : State} (h : Keeps s₀ s) (z : Fin 8) : Keeps s₀ (State.htAge s z) := by
  unfold State.htAge
  repeat' first
    | with_reducible assumption
    | extract_lets
    | with_reducible apply Keeps.ite
    | with_reducible apply State.setFld_keeps

theorem State.staticPin_keeps {s₀ s : State} (h : Keeps s₀ s) (p : Fin 8) : Keeps s₀ (State.staticPin s p) := by
  unfold State.staticPin
  repeat' first
    | with_reducible assumption
    | extract_lets
    | with_reducible apply Keeps.ite
    | with_reducible apply State.modFc_keeps

theorem State.staticDrop_keeps {s₀ s : State} (h : Keeps s₀ s) (p : Fin 8) : Keeps s₀ (State.staticDrop s p) := by
  unfold State.staticDrop
  repeat' first
    | with_reducible assumption
    | extract_lets
    | with_reducible apply Keeps.ite
    | with_reducible apply State.modFc_keeps

theorem State.expireDue_keeps {s₀ s : State} (h : Keeps s₀ s) : Keeps s₀ (State.expireDue s) := by
  unfold State.expireDue
  repeat' first
    | with_reducible assumption
    | extract_lets
    | with_reducible apply State.revoke_keeps
    | (with_reducible refine State.each_keeps ?_ _ _ (fun _ _ _ => ?_))

theorem State.enforce_keeps {s₀ s : State} (h : Keeps s₀ s) : Keeps s₀ (State.enforce s) := by
  unfold State.enforce
  repeat' first
    | with_reducible assumption
    | extract_lets
    | with_reducible apply Keeps.ite
    | with_reducible apply State.setOn_keeps
    | with_reducible apply State.modFc_keeps
    | with_reducible apply State.syncLive_keeps
    | with_reducible apply State.selectUntil_keeps
    | (with_reducible refine State.each_keeps ?_ _ _ (fun _ _ _ => ?_))

end Sys2Proof.Machine
end

