-- ==== Sys2Proof/Laws/KeepsAuthority.lean ====
section
/-! SUPPORT. What each operation of Machine/Authority.lean may do to the queue, the soundness of the state and the fuses. -/

namespace Sys2Proof.Machine

theorem State.closeWindow_keeps {s₀ s : State} (h : Keeps s₀ s) (o : Origin) : Keeps s₀ (State.closeWindow s o) := by
  unfold State.closeWindow
  repeat' first
    | with_reducible assumption
    | extract_lets
    | with_reducible apply Keeps.ite
    | with_reducible apply State.setOn_keeps
    | with_reducible apply State.attendEntry_keeps
    | split
    | with_reducible refine Keeps.mk_same ?_ rfl rfl rfl

end Sys2Proof.Machine
end

