-- ==== Sys2Proof/Laws/KeepsChargeOps.lean ====
section
/-! SUPPORT. What each operation of Machine/ChargeOps.lean may do to the queue, the soundness of the state and the fuses. -/

namespace Sys2Proof.Machine

theorem State.syncElig_keeps {s₀ s : State} (h : Keeps s₀ s) (k : Fin 2) : Keeps s₀ (State.syncElig s k) := by
  unfold State.syncElig
  repeat' first
    | with_reducible assumption
    | extract_lets
    | with_reducible apply Keeps.ite
    | with_reducible apply State.setOn_keeps

theorem State.setPout_keeps {s₀ s : State} (h : Keeps s₀ s) (k : Fin 2) : Keeps s₀ (State.setPout s k) := by
  unfold State.setPout
  repeat' first
    | with_reducible assumption
    | extract_lets
    | with_reducible apply State.setCode_keeps

theorem State.gustLoss_keeps {s₀ s : State} (h : Keeps s₀ s) (k : Fin 2) : Keeps s₀ (State.gustLoss s k) := by
  unfold State.gustLoss
  repeat' first
    | with_reducible assumption
    | extract_lets
    | with_reducible apply Keeps.ite
    | with_reducible apply State.modChg_keeps
    | with_reducible apply State.syncElig_keeps

theorem State.checkWorn_keeps {s₀ s : State} (h : Keeps s₀ s) (k : Fin 2) : Keeps s₀ (State.checkWorn s k) := by
  unfold State.checkWorn
  repeat' first
    | with_reducible assumption
    | extract_lets
    | with_reducible apply Keeps.ite
    | with_reducible apply State.setOn_keeps
    | with_reducible apply State.jevent_keeps
    | with_reducible apply State.notice_keeps
    | with_reducible apply State.syncPack_keeps
    | with_reducible apply State.gustLoss_keeps

theorem State.wbDue_keeps {s₀ s : State} (h : Keeps s₀ s) (k : Fin 2) : Keeps s₀ (State.wbDue s k) := by
  unfold State.wbDue
  repeat' first
    | with_reducible assumption
    | extract_lets
    | with_reducible apply Keeps.ite
    | with_reducible apply State.modPk_keeps

theorem State.lifeWrite_keeps {s₀ s : State} (h : Keeps s₀ s) (k : Fin 2) (ok : Bool) : Keeps s₀ (State.lifeWrite s k ok) := by
  unfold State.lifeWrite
  repeat' first
    | with_reducible assumption
    | extract_lets
    | with_reducible apply Keeps.ite
    | with_reducible apply State.modPk_keeps
    | with_reducible apply State.evt_keeps
    | with_reducible apply State.wbDue_keeps
    | split
    | with_reducible refine Keeps.mk_same ?_ rfl rfl rfl

theorem State.incCtr_keeps {s₀ s : State} (h : Keeps s₀ s) (k : Fin 2) (ctr : Word) : Keeps s₀ (State.incCtr s k ctr) := by
  unfold State.incCtr
  repeat' first
    | with_reducible assumption
    | extract_lets
    | with_reducible apply State.setWord_keeps
    | with_reducible apply State.checkWorn_keeps
    | with_reducible apply State.wbDue_keeps

theorem State.restoreLoop_keeps {s₀ s : State} (h : Keeps s₀ s) (k : Fin 2) (r : Sounding) : Keeps s₀ (State.restoreLoop s k r) := by
  unfold State.restoreLoop
  repeat' first
    | with_reducible assumption
    | extract_lets
    | with_reducible apply Keeps.ite
    | with_reducible apply State.setFld_keeps
    | with_reducible apply State.modChg_keeps
    | with_reducible apply State.setItgt_keeps

theorem State.abortSounding_keeps {s₀ s : State} (h : Keeps s₀ s) (k : Fin 2) (status : Nat) : Keeps s₀ (State.abortSounding s k status) := by
  unfold State.abortSounding
  repeat' first
    | with_reducible assumption
    | extract_lets
    | with_reducible apply Keeps.ite
    | with_reducible apply State.evt_keeps
    | with_reducible apply State.setRole_keeps
    | with_reducible apply State.finish_keeps
    | with_reducible apply State.restoreLoop_keeps
    | split

theorem State.enterStage_keeps {s₀ s : State} (h : Keeps s₀ s) (k : Fin 2) (g : Stage) : Keeps s₀ (State.enterStage s k g) := by
  unfold State.enterStage
  repeat' first
    | with_reducible assumption
    | extract_lets
    | with_reducible apply Keeps.ite
    | with_reducible apply State.modChg_keeps
    | with_reducible apply State.setItgt_keeps
    | with_reducible apply State.setRole_keeps
    | with_reducible apply State.setStage_keeps
    | with_reducible apply State.abortSounding_keeps

theorem State.chgWake_keeps {s₀ s : State} (h : Keeps s₀ s) (k : Fin 2) : Keeps s₀ (State.chgWake s k) := by
  unfold State.chgWake
  repeat' first
    | with_reducible assumption
    | extract_lets
    | with_reducible apply Keeps.ite
    | with_reducible apply State.enterStage_keeps

theorem State.leaveHoldup_keeps {s₀ s : State} (h : Keeps s₀ s) (k : Fin 2) : Keeps s₀ (State.leaveHoldup s k) := by
  unfold State.leaveHoldup
  repeat' first
    | with_reducible assumption
    | extract_lets
    | with_reducible apply Keeps.ite
    | with_reducible apply State.modChg_keeps
    | with_reducible apply State.fault_keeps
    | with_reducible apply State.notice_keeps
    | with_reducible apply State.setRole_keeps
    | with_reducible apply State.enterStage_keeps

theorem State.leaveGust_keeps {s₀ s : State} (h : Keeps s₀ s) (k : Fin 2) : Keeps s₀ (State.leaveGust s k) := by
  unfold State.leaveGust
  repeat' first
    | with_reducible assumption
    | extract_lets
    | with_reducible apply Keeps.ite
    | with_reducible apply State.modChg_keeps
    | with_reducible apply State.setRole_keeps
    | with_reducible apply State.enterStage_keeps

theorem State.setPfl_keeps {s₀ s : State} (h : Keeps s₀ s) (w : Rat) : Keeps s₀ (State.setPfl s w) := by
  unfold State.setPfl
  repeat' first
    | with_reducible assumption
    | extract_lets
    | with_reducible apply State.setCode_keeps
    | split
    | with_reducible refine Keeps.mk_same ?_ rfl rfl rfl

theorem State.endTest_keeps {s₀ s : State} (h : Keeps s₀ s) (code status : Nat) : Keeps s₀ (State.endTest s code status) := by
  unfold State.endTest
  repeat' first
    | with_reducible assumption
    | extract_lets
    | with_reducible apply Keeps.ite
    | with_reducible apply State.setFld_keeps
    | with_reducible apply State.syncPorts_keeps
    | with_reducible apply State.setPh_keeps
    | with_reducible apply State.finish_keeps
    | split
    | with_reducible refine Keeps.mk_same ?_ rfl rfl rfl

theorem State.stopPower_keeps {s₀ s : State} (h : Keeps s₀ s) : Keeps s₀ (State.stopPower s) := by
  unfold State.stopPower
  repeat' first
    | with_reducible assumption
    | extract_lets
    | with_reducible apply State.setOn_keeps
    | with_reducible apply State.setCmd_keeps
    | with_reducible apply State.stopPhases_keeps
    | with_reducible apply State.turn_keeps
    | with_reducible apply State.setRole_keeps
    | with_reducible apply State.openPort_keeps
    | with_reducible apply State.syncThr_keeps
    | with_reducible apply State.abortSounding_keeps
    | with_reducible apply State.leaveHoldup_keeps
    | with_reducible apply State.leaveGust_keeps
    | (with_reducible refine State.each_keeps ?_ _ _ (fun _ _ _ => ?_))

theorem State.banksOff_keeps {s₀ s : State} (h : Keeps s₀ s) : Keeps s₀ (State.banksOff s) := by
  unfold State.banksOff
  repeat' first
    | with_reducible assumption
    | extract_lets
    | with_reducible apply Keeps.ite
    | with_reducible apply State.setWord_keeps
    | split
    | with_reducible refine Keeps.mk_same ?_ rfl rfl rfl

theorem State.doldrumsEnd_keeps {s₀ s : State} (h : Keeps s₀ s) : Keeps s₀ (State.doldrumsEnd s) := by
  unfold State.doldrumsEnd
  repeat' first
    | with_reducible assumption
    | extract_lets
    | with_reducible apply State.setOn_keeps
    | with_reducible apply State.flushJournal_keeps
    | with_reducible apply State.closeWindow_keeps
    | with_reducible apply State.banksOff_keeps
    | (with_reducible refine State.each_keeps ?_ _ _ (fun _ _ _ => ?_))
    | split
    | with_reducible refine Keeps.mk_same ?_ rfl rfl rfl

theorem State.thermalEnd_keeps {s₀ s : State} (h : Keeps s₀ s) (tj : Int) (trip : Nat) : Keeps s₀ (State.thermalEnd s tj trip) := by
  unfold State.thermalEnd
  repeat' first
    | with_reducible assumption
    | extract_lets
    | with_reducible apply State.setOn_keeps
    | with_reducible apply State.fault_keeps
    | with_reducible apply State.jevent_keeps
    | with_reducible apply State.flushJournal_keeps

theorem State.stopNext_keeps {s₀ s : State} (h : Keeps s₀ s) : Keeps s₀ (State.stopNext s) := by
  unfold State.stopNext
  repeat' first
    | with_reducible assumption
    | extract_lets
    | with_reducible apply Keeps.ite
    | with_reducible apply State.setOn_keeps
    | with_reducible apply State.jevent_keeps
    | with_reducible apply State.flushJournal_keeps
    | with_reducible apply State.doldrumsEnd_keeps
    | with_reducible apply State.thermalEnd_keeps
    | split
    | with_reducible refine Keeps.mk_same ?_ rfl rfl rfl

theorem State.stopBegin_keeps {s₀ s : State} (h : Keeps s₀ s) (kind : StopKind) : Keeps s₀ (State.stopBegin s kind) := by
  unfold State.stopBegin
  repeat' first
    | with_reducible assumption
    | extract_lets
    | with_reducible apply Keeps.ite
    | with_reducible apply State.wbDue_keeps
    | with_reducible apply State.stopPower_keeps
    | with_reducible apply State.stopNext_keeps
    | (with_reducible refine State.each_keeps ?_ _ _ (fun _ _ _ => ?_))
    | split
    | with_reducible refine Keeps.mk_same ?_ rfl rfl rfl

theorem State.extractionStop_keeps {s₀ s : State} (h : Keeps s₀ s) (obj : Nat) : Keeps s₀ (State.extractionStop s obj) := by
  unfold State.extractionStop
  repeat' first
    | with_reducible assumption
    | extract_lets
    | with_reducible apply Keeps.ite
    | with_reducible apply State.stopBegin_keeps

theorem State.doldrumsEntry_keeps {s₀ s : State} (h : Keeps s₀ s) : Keeps s₀ (State.doldrumsEntry s) := by
  unfold State.doldrumsEntry
  repeat' first
    | with_reducible assumption
    | extract_lets
    | with_reducible apply State.stopBegin_keeps
    | split

theorem State.stopWrote_keeps {s₀ s : State} (h : Keeps s₀ s) (k : Fin 2) : Keeps s₀ (State.stopWrote s k) := by
  unfold State.stopWrote
  repeat' first
    | with_reducible assumption
    | extract_lets
    | with_reducible apply State.stopNext_keeps
    | split
    | with_reducible refine Keeps.mk_same ?_ rfl rfl rfl

theorem State.takeover_keeps {s₀ s : State} (h : Keeps s₀ s) : Keeps s₀ (State.takeover s) := by
  unfold State.takeover
  repeat' first
    | with_reducible assumption
    | extract_lets
    | with_reducible apply Keeps.ite
    | with_reducible apply State.modChg_keeps
    | with_reducible apply State.notice_keeps
    | with_reducible apply State.setCmd_keeps
    | with_reducible apply State.setRole_keeps
    | with_reducible apply State.setPout_keeps
    | with_reducible apply State.abortSounding_keeps
    | with_reducible apply State.leaveGust_keeps
    | (with_reducible refine State.each_keeps ?_ _ _ (fun _ _ _ => ?_))
    | split
    | with_reducible refine Keeps.mk_same ?_ rfl rfl rfl

theorem State.feedsLost_keeps {s₀ s : State} (h : Keeps s₀ s) : Keeps s₀ (State.feedsLost s) := by
  unfold State.feedsLost
  repeat' first
    | with_reducible assumption
    | extract_lets
    | with_reducible apply Keeps.ite
    | with_reducible apply State.setOn_keeps
    | with_reducible apply State.budgetDrop_keeps
    | with_reducible apply State.setPfl_keeps
    | with_reducible apply State.endTest_keeps
    | with_reducible apply State.extractionStop_keeps
    | with_reducible apply State.doldrumsEntry_keeps
    | with_reducible apply State.takeover_keeps
    | split
    | with_reducible refine Keeps.mk_same ?_ rfl rfl rfl

theorem State.checkFeeds_keeps {s₀ s : State} (h : Keeps s₀ s) : Keeps s₀ (State.checkFeeds s) := by
  unfold State.checkFeeds
  repeat' first
    | with_reducible assumption
    | extract_lets
    | with_reducible apply Keeps.ite
    | with_reducible apply State.feedsLost_keeps

theorem State.retarget_keeps {s₀ s : State} (h : Keeps s₀ s) (vtgt slew : Nat) : Keeps s₀ (State.retarget s vtgt slew) := by
  unfold State.retarget
  repeat' first
    | with_reducible assumption
    | extract_lets
    | with_reducible apply State.setOn_keeps
    | split
    | with_reducible refine Keeps.mk_same ?_ rfl rfl rfl

theorem State.handbackStart_keeps {s₀ s : State} (h : Keeps s₀ s) (n : Fin 4) : Keeps s₀ (State.handbackStart s n) := by
  unfold State.handbackStart
  repeat' first
    | with_reducible assumption
    | extract_lets
    | with_reducible apply Keeps.ite
    | with_reducible apply State.setOn_keeps
    | with_reducible apply State.retarget_keeps

theorem State.handbackOver_keeps {s₀ s : State} (h : Keeps s₀ s) : Keeps s₀ (State.handbackOver s) := by
  unfold State.handbackOver
  repeat' first
    | with_reducible assumption
    | extract_lets
    | with_reducible apply Keeps.ite
    | with_reducible apply State.setOn_keeps
    | with_reducible apply State.retarget_keeps
    | split
    | with_reducible refine Keeps.mk_same ?_ rfl rfl rfl

theorem State.feedsBack_keeps {s₀ s : State} (h : Keeps s₀ s) : Keeps s₀ (State.feedsBack s) := by
  unfold State.feedsBack
  repeat' first
    | with_reducible assumption
    | extract_lets
    | with_reducible apply Keeps.ite
    | with_reducible apply State.setOn_keeps
    | with_reducible apply State.modChg_keeps
    | with_reducible apply State.setCmd_keeps
    | with_reducible apply State.setRole_keeps
    | with_reducible apply State.syncThr_keeps
    | with_reducible apply State.setPout_keeps
    | with_reducible apply State.leaveHoldup_keeps
    | with_reducible apply State.setPfl_keeps
    | with_reducible apply State.handbackOver_keeps
    | (with_reducible refine State.each_keeps ?_ _ _ (fun _ _ _ => ?_))

end Sys2Proof.Machine
end

