-- ==== Sys2Proof/Laws/KeepsPhase.lean ====
section
/-! SUPPORT. What each operation of Machine/Phase.lean may do to the queue, the soundness of the state and the fuses. -/

namespace Sys2Proof.Machine

theorem State.legs_keeps {s₀ s : State} (h : Keeps s₀ s) (k : Fin 2) (n : Fin 16) (at_ : Rat) (inp out : PwmLvl) : Keeps s₀ (State.legs s k n at_ inp out) := by
  unfold State.legs
  repeat' first
    | with_reducible assumption
    | extract_lets
    | with_reducible apply Keeps.ite
    | with_reducible apply State.modPh_keeps

theorem State.idleDir_keeps {s₀ s : State} (h : Keeps s₀ s) (k : Fin 2) : Keeps s₀ (State.idleDir s k) := by
  unfold State.idleDir
  repeat' first
    | with_reducible assumption
    | extract_lets
    | with_reducible apply Keeps.ite
    | with_reducible apply State.turn_keeps

theorem State.blendStep_keeps {s₀ s : State} (h : Keeps s₀ s) (k : Fin 2) (n : Fin 16) : Keeps s₀ (State.blendStep s k n) := by
  unfold State.blendStep
  repeat' first
    | with_reducible assumption
    | extract_lets
    | with_reducible apply Keeps.ite
    | with_reducible apply State.setFld_keeps
    | with_reducible apply State.modPh_keeps

theorem State.portCycle_keeps {s₀ s : State} (h : Keeps s₀ s) (k : Fin 2) : Keeps s₀ (State.portCycle s k) := by
  unfold State.portCycle
  repeat' first
    | with_reducible assumption
    | extract_lets
    | with_reducible apply Keeps.ite
    | with_reducible apply State.modPh_keeps
    | with_reducible apply State.modPhp_keeps
    | with_reducible apply State.sourceEdge_keeps
    | with_reducible apply State.syncPort_keeps
    | (with_reducible refine State.each_keeps ?_ _ _ (fun _ _ _ => ?_))

theorem State.reachB_keeps {s₀ s : State} (h : Keeps s₀ s) (k : Fin 2) (n : Fin 16) (at_ : Rat) : Keeps s₀ (State.reachB s k n at_) := by
  unfold State.reachB
  repeat' first
    | with_reducible assumption
    | extract_lets
    | with_reducible apply Keeps.ite
    | with_reducible apply State.legs_keeps
    | split

theorem State.startCycle_keeps {s₀ s : State} (h : Keeps s₀ s) (k : Fin 2) (n : Fin 16) : Keeps s₀ (State.startCycle s k n) := by
  unfold State.startCycle
  repeat' first
    | with_reducible assumption
    | extract_lets
    | with_reducible apply Keeps.ite
    | with_reducible apply State.setCode_keeps
    | with_reducible apply State.modPh_keeps
    | with_reducible apply State.legs_keeps
    | split

theorem State.endOn_keeps {s₀ s : State} (h : Keeps s₀ s) (k : Fin 2) (n : Fin 16) (at_ : Rat) : Keeps s₀ (State.endOn s k n at_) := by
  unfold State.endOn
  repeat' first
    | with_reducible assumption
    | extract_lets
    | with_reducible apply Keeps.ite
    | with_reducible apply State.setScode_keeps
    | with_reducible apply State.modPh_keeps
    | with_reducible apply State.legs_keeps
    | split

theorem State.cutPower_keeps {s₀ s : State} (h : Keeps s₀ s) (k : Fin 2) : Keeps s₀ (State.cutPower s k) := by
  unfold State.cutPower
  repeat' first
    | with_reducible assumption
    | extract_lets
    | with_reducible apply Keeps.ite
    | with_reducible apply State.modChg_keeps
    | with_reducible apply State.evt_keeps
    | with_reducible apply State.setCmd_keeps
    | with_reducible apply State.budgetDrop_keeps
    | with_reducible apply State.setPout_keeps
    | with_reducible apply State.setPfl_keeps
    | (with_reducible refine State.each_keeps ?_ _ _ (fun _ _ _ => ?_))
    | split
    | with_reducible refine Keeps.mk_same ?_ rfl rfl rfl

theorem State.takeOut_keeps {s₀ s : State} (h : Keeps s₀ s) (k : Fin 2) (n : Fin 16) (st : PhSt) : Keeps s₀ (State.takeOut s k n st) := by
  unfold State.takeOut
  repeat' first
    | with_reducible assumption
    | extract_lets
    | with_reducible apply Keeps.ite
    | with_reducible apply State.evt_keeps
    | with_reducible apply State.syncPort_keeps
    | with_reducible apply State.setPh_keeps

theorem State.mapDeferred_keeps {s₀ s : State} (h : Keeps s₀ s) : Keeps s₀ (State.mapDeferred s) := by
  unfold State.mapDeferred
  repeat' first
    | with_reducible assumption
    | extract_lets
    | with_reducible apply State.modPh_keeps
    | with_reducible apply State.refuse_keeps
    | (with_reducible refine State.each_keeps ?_ _ _ (fun _ _ _ => ?_))
    | split
    | with_reducible refine Keeps.mk_same ?_ rfl rfl rfl

theorem State.drainNext_keeps {s₀ s : State} (h : Keeps s₀ s) : Keeps s₀ (State.drainNext s) := by
  unfold State.drainNext
  repeat' first
    | with_reducible assumption
    | extract_lets
    | with_reducible apply Keeps.ite
    | with_reducible apply State.syncPorts_keeps
    | with_reducible apply State.setPh_keeps
    | with_reducible apply State.mapDeferred_keeps
    | split

theorem State.oclLatch_keeps {s₀ s : State} (h : Keeps s₀ s) (n : Fin 16) (cause : Nat) : Keeps s₀ (State.oclLatch s n cause) := by
  unfold State.oclLatch
  repeat' first
    | with_reducible assumption
    | extract_lets
    | with_reducible apply Keeps.ite
    | with_reducible apply State.setFld_keeps
    | with_reducible apply State.count_keeps
    | with_reducible apply State.modPh_keeps
    | with_reducible apply State.evt_keeps
    | with_reducible apply State.fault_keeps
    | with_reducible apply State.setPh_keeps
    | with_reducible apply State.takeOut_keeps
    | with_reducible apply State.drainNext_keeps
    | split
    | with_reducible refine Keeps.mk_same ?_ rfl rfl rfl

theorem State.markLost_keeps {s₀ s : State} (h : Keeps s₀ s) (n : Fin 16) (cause : Nat) : Keeps s₀ (State.markLost s n cause) := by
  unfold State.markLost
  repeat' first
    | with_reducible assumption
    | extract_lets
    | with_reducible apply Keeps.ite
    | with_reducible apply State.setFld_keeps
    | with_reducible apply State.setScode_keeps
    | with_reducible apply State.modChg_keeps
    | with_reducible apply State.evt_keeps
    | with_reducible apply State.fault_keeps
    | with_reducible apply State.syncPort_keeps
    | with_reducible apply State.setCmd_keeps
    | with_reducible apply State.setPh_keeps
    | with_reducible apply State.budgetDrop_keeps
    | with_reducible apply State.setPfl_keeps
    | with_reducible apply State.endTest_keeps
    | with_reducible apply State.cutPower_keeps
    | with_reducible apply State.takeOut_keeps
    | with_reducible apply State.mapDeferred_keeps
    | with_reducible apply State.drainNext_keeps
    | (with_reducible refine State.each_keeps ?_ _ _ (fun _ _ _ => ?_))
    | split
    | with_reducible refine Keeps.mk_same ?_ rfl rfl rfl

theorem State.tripStop_keeps {s₀ s : State} (h : Keeps s₀ s) (k : Fin 2) (n : Fin 16) (at_ : Rat) (trunc fast : Bool) : Keeps s₀ (State.tripStop s k n at_ trunc fast) := by
  unfold State.tripStop
  repeat' first
    | with_reducible assumption
    | extract_lets
    | with_reducible apply Keeps.ite
    | with_reducible apply State.setFld_keeps
    | with_reducible apply State.count_keeps
    | with_reducible apply State.endOn_keeps
    | with_reducible apply State.oclLatch_keeps

theorem State.onTrip_keeps {s₀ s : State} (h : Keeps s₀ s) (k : Fin 2) (n : Fin 16) (e : TripEv) (at_ : Rat) (trunc : Bool) : Keeps s₀ (State.onTrip s k n e at_ trunc) := by
  unfold State.onTrip
  repeat' first
    | with_reducible assumption
    | extract_lets
    | with_reducible apply Keeps.ite
    | with_reducible apply State.modPh_keeps
    | with_reducible apply State.legs_keeps
    | with_reducible apply State.reachB_keeps
    | with_reducible apply State.tripStop_keeps
    | split

theorem State.ampSample_keeps {s₀ s : State} (h : Keeps s₀ s) (n : Fin 16) (a : Rat) (use : Bool) : Keeps s₀ (State.ampSample s n a use) := by
  unfold State.ampSample
  repeat' first
    | with_reducible assumption
    | extract_lets
    | with_reducible apply Keeps.ite
    | with_reducible apply State.setScode_keeps
    | with_reducible apply State.modPh_keeps

theorem State.addUpTo_keeps {s₀ s : State} (h : Keeps s₀ s) (k : Fin 2) (want n : Nat) :
    Keeps s₀ (State.addUpTo s k want n) := by
  induction n generalizing s with
  | zero => exact h
  | succ n ih =>
    unfold State.addUpTo
    extract_lets up
    clear_value up
    split
    · exact h
    · split
      · exact ih (State.count_keeps (State.setPh_keeps h _ _) _)
      · split
        · exact ih (State.syncPort_keeps (State.count_keeps (State.setPh_keeps h _ _) _) _)
        · exact h

theorem State.shedOne_keeps {s₀ s : State} (h : Keeps s₀ s) (k : Fin 2) : Keeps s₀ (State.shedOne s k) := by
  unfold State.shedOne
  repeat' first
    | with_reducible assumption
    | extract_lets
    | with_reducible apply State.count_keeps
    | with_reducible apply State.modPhp_keeps
    | with_reducible apply State.syncPort_keeps
    | with_reducible apply State.setPh_keeps
    | split

theorem State.capShed_keeps {s₀ s : State} (h : Keeps s₀ s) (k : Fin 2) (n : Nat) : Keeps s₀ (State.capShed s k n) := by
  induction n generalizing s with
  | zero => exact h
  | succ n ih =>
    unfold State.capShed
    extract_lets waking
    clear_value waking
    split
    · refine ih ?_
      split
      · exact State.setPh_keeps h _ _
      · exact State.shedOne_keeps h _
    · exact h

theorem State.syncProbe_keeps {s₀ s : State} (h : Keeps s₀ s) (n : Fin 16) : Keeps s₀ (State.syncProbe s n) := by
  unfold State.syncProbe
  repeat' first
    | with_reducible assumption
    | extract_lets
    | with_reducible apply Keeps.ite
    | with_reducible apply State.setFld_keeps

theorem State.probeLeg_keeps {s₀ s : State} (h : Keeps s₀ s) (n : Fin 16) (boost shorted : Bool) : Keeps s₀ (State.probeLeg s n boost shorted) := by
  unfold State.probeLeg
  repeat' first
    | with_reducible assumption
    | extract_lets
    | with_reducible apply Keeps.ite
    | with_reducible apply State.modPh_keeps
    | with_reducible apply State.modPk_keeps
    | with_reducible apply State.fault_keeps
    | with_reducible apply State.syncPorts_keeps
    | with_reducible apply State.setPh_keeps
    | with_reducible apply State.openPort_keeps
    | with_reducible apply State.dsgAfterClose_keeps
    | with_reducible apply State.leaveHoldup_keeps
    | with_reducible apply State.syncProbe_keeps
    | split

theorem State.probe_keeps {s₀ s : State} (h : Keeps s₀ s) (n : Fin 16) (boost : Bool) (p : LegPulse) : Keeps s₀ (State.probe s n boost p) := by
  unfold State.probe
  repeat' first
    | with_reducible assumption
    | extract_lets
    | with_reducible apply State.probeLeg_keeps

theorem State.probeLive_keeps {s₀ s : State} (h : Keeps s₀ s) (n : Fin 16) (l : Legs) : Keeps s₀ (State.probeLive s n l) := by
  unfold State.probeLive
  repeat' first
    | with_reducible assumption
    | extract_lets
    | with_reducible apply Keeps.ite
    | with_reducible apply State.probe_keeps
    | (with_reducible refine State.each_keeps ?_ _ _ (fun _ _ _ => ?_))

theorem State.applySync_keeps {s₀ s : State} (h : Keeps s₀ s) : Keeps s₀ (State.applySync s) := by
  unfold State.applySync
  repeat' first
    | with_reducible assumption
    | extract_lets
    | with_reducible apply Keeps.ite
    | with_reducible apply State.setOn_keeps
    | with_reducible apply State.setFlags_keeps
    | split
    | with_reducible refine Keeps.mk_same ?_ rfl rfl rfl

theorem State.applyMap_keeps {s₀ s : State} (h : Keeps s₀ s) (d : Desc) (ends : Bool) : Keeps s₀ (State.applyMap s d ends) := by
  unfold State.applyMap
  repeat' first
    | with_reducible assumption
    | extract_lets
    | with_reducible apply Keeps.ite
    | with_reducible apply State.setFld_keeps
    | with_reducible apply State.modPh_keeps
    | with_reducible apply State.syncPorts_keeps
    | with_reducible apply State.setPh_keeps
    | with_reducible apply State.regDiff_keeps
    | with_reducible apply State.finish_keeps
    | (with_reducible refine State.each_keeps ?_ _ _ (fun _ _ _ => ?_))
    | split
    | with_reducible refine Keeps.mk_same ?_ rfl rfl rfl

theorem State.startPhaseMap_keeps {s₀ s : State} (h : Keeps s₀ s) (d : Desc) : Keeps s₀ (State.startPhaseMap s d) := by
  unfold State.startPhaseMap
  repeat' first
    | with_reducible assumption
    | extract_lets
    | with_reducible apply Keeps.ite
    | with_reducible apply State.modPh_keeps
    | with_reducible apply State.refuse_keeps
    | with_reducible apply State.drainNext_keeps
    | with_reducible apply State.applyMap_keeps
    | (with_reducible refine State.each_keeps ?_ _ _ (fun _ _ _ => ?_))
    | split
    | with_reducible refine Keeps.mk_same ?_ rfl rfl rfl

theorem State.endVtarget_keeps {s₀ s : State} (h : Keeps s₀ s) (status : Nat) : Keeps s₀ (State.endVtarget s status) := by
  unfold State.endVtarget
  repeat' first
    | with_reducible assumption
    | extract_lets
    | with_reducible apply State.finish_keeps
    | split
    | with_reducible refine Keeps.mk_same ?_ rfl rfl rfl

theorem State.atTarget_keeps {s₀ s : State} (h : Keeps s₀ s) : Keeps s₀ (State.atTarget s) := by
  unfold State.atTarget
  repeat' first
    | with_reducible assumption
    | extract_lets
    | with_reducible apply Keeps.ite
    | with_reducible apply State.setOn_keeps
    | with_reducible apply State.endVtarget_keeps
    | split
    | with_reducible refine Keeps.mk_same ?_ rfl rfl rfl

theorem State.newTarget_keeps {s₀ s : State} (h : Keeps s₀ s) : Keeps s₀ (State.newTarget s) := by
  unfold State.newTarget
  repeat' first
    | with_reducible assumption
    | extract_lets
    | with_reducible apply Keeps.ite
    | with_reducible apply State.retarget_keeps
    | with_reducible apply State.endVtarget_keeps

theorem State.startVtarget_keeps {s₀ s : State} (h : Keeps s₀ s) (d : Desc) : Keeps s₀ (State.startVtarget s d) := by
  unfold State.startVtarget
  repeat' first
    | with_reducible assumption
    | extract_lets
    | with_reducible apply Keeps.ite
    | with_reducible apply State.setFld_keeps
    | with_reducible apply State.regDiff_keeps
    | with_reducible apply State.refuse_keeps
    | with_reducible apply State.atTarget_keeps
    | with_reducible apply State.newTarget_keeps
    | split
    | with_reducible refine Keeps.mk_same ?_ rfl rfl rfl

end Sys2Proof.Machine
end

