-- ==== Sys2Proof/Laws/KeepsComparator.lean ====
section
/-! SUPPORT. What each operation of Machine/Comparator.lean may do to the queue, the soundness of the state and the fuses. -/

namespace Sys2Proof.Machine

theorem State.cmpSee_keeps {s₀ s : State} (h : Keeps s₀ s) (c : Fin 48) (x : Int) : Keeps s₀ (State.cmpSee s c x) := by
  unfold State.cmpSee
  repeat' first
    | with_reducible assumption
    | extract_lets
    | with_reducible apply Keeps.ite
    | with_reducible apply State.setFld_keeps
    | with_reducible apply State.modCmp_keeps

theorem State.cmpRelease_keeps {s₀ s : State} (h : Keeps s₀ s) (c : Fin 48) : Keeps s₀ (State.cmpRelease s c) := by
  unfold State.cmpRelease
  repeat' first
    | with_reducible assumption
    | extract_lets
    | with_reducible apply State.cmpClear_keeps
    | with_reducible apply State.cmpSee_keeps
    | split

theorem State.trySwap_keeps {s₀ s : State} (h : Keeps s₀ s) (c : Fin 48) : Keeps s₀ (State.trySwap s c) := by
  unfold State.trySwap
  repeat' first
    | with_reducible assumption
    | extract_lets
    | with_reducible apply Keeps.ite
    | with_reducible apply State.setOn_keeps
    | with_reducible apply State.modCmp_keeps

end Sys2Proof.Machine
end

