-- ==== Sys2Proof/Laws/KeepsFeed.lean ====
section
/-! SUPPORT. What each operation of Machine/Feed.lean may do to the queue, the soundness of the state and the fuses. -/

namespace Sys2Proof.Machine

theorem State.setFeed_keeps {s₀ s : State} (h : Keeps s₀ s) (n : Fin 4) (st : FeedSt) : Keeps s₀ (State.setFeed s n st) := by
  unfold State.setFeed
  repeat' first
    | with_reducible assumption
    | extract_lets
    | with_reducible apply State.setFld_keeps

theorem State.setChk_keeps {s₀ s : State} (h : Keeps s₀ s) (n : Fin 4) (r : ChkRes) : Keeps s₀ (State.setChk s n r) := by
  unfold State.setChk
  repeat' first
    | with_reducible assumption
    | extract_lets
    | with_reducible apply State.setFld_keeps

theorem State.feedChanged_keeps {s₀ s : State} (h : Keeps s₀ s) : Keeps s₀ (State.feedChanged s) := by
  unfold State.feedChanged
  repeat' first
    | with_reducible assumption
    | extract_lets
    | with_reducible apply Keeps.ite
    | with_reducible apply State.syncFeeds_keeps
    | with_reducible apply State.checkFeeds_keeps
    | with_reducible apply State.handbackOver_keeps

theorem State.settleGroup_keeps {s₀ s : State} (h : Keeps s₀ s) : Keeps s₀ (State.settleGroup s) := by
  unfold State.settleGroup
  repeat' first
    | with_reducible assumption
    | extract_lets
    | with_reducible apply Keeps.ite
    | with_reducible apply State.gatesOff_keeps
    | with_reducible apply State.setFeed_keeps
    | (with_reducible refine State.each_keeps ?_ _ _ (fun _ _ _ => ?_))

theorem State.qualify_keeps {s₀ s : State} (h : Keeps s₀ s) (n : Fin 4) : Keeps s₀ (State.qualify s n) := by
  unfold State.qualify
  repeat' first
    | with_reducible assumption
    | extract_lets
    | with_reducible apply Keeps.ite
    | with_reducible apply State.setCode_keeps
    | with_reducible apply State.modFeed_keeps
    | with_reducible apply State.setQual_keeps
    | with_reducible apply State.handbackStart_keeps
    | with_reducible apply State.setFeed_keeps
    | with_reducible apply State.feedChanged_keeps
    | with_reducible apply State.settleGroup_keeps

theorem State.checkPassed_keeps {s₀ s : State} (h : Keeps s₀ s) (n : Fin 4) : Keeps s₀ (State.checkPassed s n) := by
  unfold State.checkPassed
  repeat' first
    | with_reducible assumption
    | extract_lets
    | with_reducible apply Keeps.ite
    | with_reducible apply State.setFeed_keeps
    | with_reducible apply State.setChk_keeps
    | with_reducible apply State.qualify_keeps

theorem State.checkFailed_keeps {s₀ s : State} (h : Keeps s₀ s) (n : Fin 4) (r : ChkRes) : Keeps s₀ (State.checkFailed s n r) := by
  unfold State.checkFailed
  repeat' first
    | with_reducible assumption
    | extract_lets
    | with_reducible apply State.modFeed_keeps
    | with_reducible apply State.fault_keeps
    | with_reducible apply State.setChk_keeps

theorem State.noteGone_keeps {s₀ s : State} (h : Keeps s₀ s) (n : Fin 4) (w : FeedGone) : Keeps s₀ (State.noteGone s n w) := by
  unfold State.noteGone
  repeat' first
    | with_reducible assumption
    | extract_lets
    | with_reducible apply State.modFeed_keeps

theorem State.disqualify_keeps {s₀ s : State} (h : Keeps s₀ s) (n : Fin 4) : Keeps s₀ (State.disqualify s n) := by
  unfold State.disqualify
  repeat' first
    | with_reducible assumption
    | extract_lets
    | with_reducible apply Keeps.ite
    | with_reducible apply State.modFeed_keeps
    | with_reducible apply State.setQual_keeps
    | with_reducible apply State.gatesOff_keeps
    | with_reducible apply State.budgetDrop_keeps
    | with_reducible apply State.setFeed_keeps
    | with_reducible apply State.feedChanged_keeps

theorem State.feedTrip_keeps {s₀ s : State} (h : Keeps s₀ s) (n : Fin 4) (sc : Bool) : Keeps s₀ (State.feedTrip s n sc) := by
  unfold State.feedTrip
  repeat' first
    | with_reducible assumption
    | extract_lets
    | with_reducible apply Keeps.ite
    | with_reducible apply State.count_keeps
    | with_reducible apply State.modFeed_keeps
    | with_reducible apply State.fault_keeps
    | with_reducible apply State.setQual_keeps
    | with_reducible apply State.gatesOff_keeps
    | with_reducible apply State.budgetDrop_keeps
    | with_reducible apply State.setFeed_keeps
    | with_reducible apply State.feedChanged_keeps

theorem State.thermalTrip_keeps {s₀ s : State} (h : Keeps s₀ s) (n : Fin 4) : Keeps s₀ (State.thermalTrip s n) := by
  unfold State.thermalTrip
  repeat' first
    | with_reducible assumption
    | extract_lets
    | with_reducible apply State.count_keeps
    | with_reducible apply State.modFeed_keeps
    | with_reducible apply State.noteGone_keeps
    | with_reducible apply State.feedTrip_keeps

theorem State.shortTrip_keeps {s₀ s : State} (h : Keeps s₀ s) (n : Fin 4) : Keeps s₀ (State.shortTrip s n) := by
  unfold State.shortTrip
  repeat' first
    | with_reducible assumption
    | extract_lets
    | with_reducible apply State.count_keeps
    | with_reducible apply State.evt_keeps
    | with_reducible apply State.noteGone_keeps
    | with_reducible apply State.feedTrip_keeps

theorem State.uncountThermal_keeps {s₀ s : State} (h : Keeps s₀ s) (n : Fin 4) : Keeps s₀ (State.uncountThermal s n) := by
  unfold State.uncountThermal
  repeat' first
    | with_reducible assumption
    | extract_lets
    | with_reducible apply Keeps.ite
    | with_reducible apply State.setFld_keeps
    | with_reducible apply State.modFeed_keeps
    | with_reducible apply State.setQual_keeps
    | split
    | with_reducible refine Keeps.mk_same ?_ rfl rfl rfl

theorem State.coolCheck_keeps {s₀ s : State} (h : Keeps s₀ s) (n : Fin 4) : Keeps s₀ (State.coolCheck s n) := by
  unfold State.coolCheck
  repeat' first
    | with_reducible assumption
    | extract_lets
    | with_reducible apply Keeps.ite
    | with_reducible apply State.modFeed_keeps
    | with_reducible apply State.setFeed_keeps

theorem State.feedEnable_keeps {s₀ s : State} (h : Keeps s₀ s) (n : Fin 4) : Keeps s₀ (State.feedEnable s n) := by
  unfold State.feedEnable
  repeat' first
    | with_reducible assumption
    | extract_lets
    | with_reducible apply Keeps.ite
    | with_reducible apply State.setQual_keeps
    | with_reducible apply State.gatesOff_keeps
    | with_reducible apply State.budgetDrop_keeps
    | with_reducible apply State.setFeed_keeps
    | with_reducible apply State.feedChanged_keeps

theorem State.feedsHwOnly_keeps {s₀ s : State} (h : Keeps s₀ s) : Keeps s₀ (State.feedsHwOnly s) := by
  unfold State.feedsHwOnly
  repeat' first
    | with_reducible assumption
    | extract_lets
    | with_reducible apply State.syncFeeds_keeps
    | with_reducible apply State.setFeed_keeps
    | (with_reducible refine State.each_keeps ?_ _ _ (fun _ _ _ => ?_))

theorem State.feedUv_keeps {s₀ s : State} (h : Keeps s₀ s) (n : Fin 4) : Keeps s₀ (State.feedUv s n) := by
  unfold State.feedUv
  repeat' first
    | with_reducible assumption
    | extract_lets
    | with_reducible apply Keeps.ite
    | with_reducible apply State.count_keeps
    | with_reducible apply State.evt_keeps
    | with_reducible apply State.noteGone_keeps
    | with_reducible apply State.disqualify_keeps

theorem State.feedOv_keeps {s₀ s : State} (h : Keeps s₀ s) (n : Fin 4) : Keeps s₀ (State.feedOv s n) := by
  unfold State.feedOv
  repeat' first
    | with_reducible assumption
    | extract_lets
    | with_reducible apply Keeps.ite
    | with_reducible apply State.evt_keeps
    | with_reducible apply State.fault_keeps
    | with_reducible apply State.noteGone_keeps
    | with_reducible apply State.disqualify_keeps

theorem State.feedShort_keeps {s₀ s : State} (h : Keeps s₀ s) (n : Fin 4) : Keeps s₀ (State.feedShort s n) := by
  unfold State.feedShort
  repeat' first
    | with_reducible assumption
    | extract_lets
    | with_reducible apply Keeps.ite
    | with_reducible apply State.shortTrip_keeps
    | with_reducible apply State.uncountThermal_keeps
    | split

theorem State.feedReverse_keeps {s₀ s : State} (h : Keeps s₀ s) (n : Fin 4) : Keeps s₀ (State.feedReverse s n) := by
  unfold State.feedReverse
  repeat' first
    | with_reducible assumption
    | extract_lets
    | with_reducible apply Keeps.ite
    | with_reducible apply State.setOn_keeps
    | with_reducible apply State.count_keeps
    | with_reducible apply State.modFeed_keeps
    | with_reducible apply State.evt_keeps
    | with_reducible apply State.syncFeeds_keeps

end Sys2Proof.Machine
end

