-- ==== Sys2Proof/Laws/KeepsKeys.lean ====
section
/-! SUPPORT. What each operation of Machine/Keys.lean may do to the queue, the soundness of the state and the fuses. -/

namespace Sys2Proof.Machine

theorem State.setAuth_keeps {s₀ s : State} (h : Keeps s₀ s) (k : Fin 2) (r : AuthRes) : Keeps s₀ (State.setAuth s k r) := by
  unfold State.setAuth
  repeat' first
    | with_reducible assumption
    | extract_lets
    | with_reducible apply Keeps.ite
    | with_reducible apply State.modPk_keeps
    | with_reducible apply State.jevent_keeps
    | with_reducible apply State.syncPack_keeps
    | with_reducible apply State.gustLoss_keeps

theorem State.authDue_keeps {s₀ s : State} (h : Keeps s₀ s) (k : Fin 2) : Keeps s₀ (State.authDue s k) := by
  unfold State.authDue
  repeat' first
    | with_reducible assumption
    | extract_lets
    | with_reducible apply Keeps.ite
    | with_reducible apply State.modPk_keeps
    | with_reducible apply State.syncPack_keeps

theorem State.endJoined_keeps {s₀ s : State} (h : Keeps s₀ s) (k : Fin 2) (r : AuthRes) : Keeps s₀ (State.endJoined s k r) := by
  unfold State.endJoined
  repeat' first
    | with_reducible assumption
    | extract_lets
    | with_reducible apply Keeps.ite
    | with_reducible apply State.modPk_keeps
    | with_reducible apply State.done_keeps
    | (with_reducible refine State.each_keeps ?_ _ _ (fun _ _ _ => ?_))

theorem State.abortJoined_keeps {s₀ s : State} (h : Keeps s₀ s) (k : Fin 2) : Keeps s₀ (State.abortJoined s k) := by
  unfold State.abortJoined
  repeat' first
    | with_reducible assumption
    | extract_lets
    | with_reducible apply State.modPk_keeps
    | with_reducible apply State.done_keeps
    | (with_reducible refine State.each_keeps ?_ _ _ (fun _ _ _ => ?_))

theorem State.loadB4_keeps {s₀ s : State} (h : Keeps s₀ s) : Keeps s₀ (State.loadB4 s) := by
  unfold State.loadB4
  repeat' first
    | with_reducible assumption
    | extract_lets
    | with_reducible apply Keeps.ite
    | with_reducible apply State.setFld_keeps
    | with_reducible apply State.setOn_keeps
    | split
    | with_reducible refine Keeps.mk_same ?_ rfl rfl rfl

theorem State.reloadB4_keeps {s₀ s : State} (h : Keeps s₀ s) : Keeps s₀ (State.reloadB4 s) := by
  unfold State.reloadB4
  repeat' first
    | with_reducible assumption
    | extract_lets
    | with_reducible apply Keeps.ite
    | with_reducible apply State.authDue_keeps
    | with_reducible apply State.loadB4_keeps
    | (with_reducible refine State.each_keeps ?_ _ _ (fun _ _ _ => ?_))

theorem State.wipe_keeps {s₀ s : State} (h : Keeps s₀ s) (cause : Nat) : Keeps s₀ (State.wipe s cause) := by
  unfold State.wipe
  repeat' first
    | with_reducible assumption
    | extract_lets
    | with_reducible apply Keeps.ite
    | with_reducible apply State.setFld_keeps
    | with_reducible apply State.setOn_keeps
    | with_reducible apply State.modPk_keeps
    | with_reducible apply State.setAuth_keeps
    | (with_reducible refine State.each_keeps ?_ _ _ (fun _ _ _ => ?_))
    | split
    | with_reducible refine Keeps.mk_same ?_ rfl rfl rfl

theorem State.keyEntry_keeps {s₀ s : State} (h : Keeps s₀ s) (d : Desc) (i : Fin 4) (old new : Nat) : Keeps s₀ (State.keyEntry s d i old new) := by
  unfold State.keyEntry
  repeat' first
    | with_reducible assumption
    | extract_lets
    | with_reducible apply State.journal_keeps

theorem State.startPackAuth_keeps {s₀ s : State} (h : Keeps s₀ s) (d : Desc) : Keeps s₀ (State.startPackAuth s d) := by
  unfold State.startPackAuth
  repeat' first
    | with_reducible assumption
    | extract_lets
    | with_reducible apply Keeps.ite
    | with_reducible apply State.count_keeps
    | with_reducible apply State.modPk_keeps
    | with_reducible apply State.done_keeps
    | with_reducible apply State.refuse_keeps
    | with_reducible apply State.authDue_keeps
    | with_reducible apply State.loadB4_keeps
    | with_reducible apply State.keyEntry_keeps
    | (with_reducible refine State.each_keeps ?_ _ _ (fun _ _ _ => ?_))
    | exact Keeps.voidKey h _
    | split
    | with_reducible refine Keeps.mk_same ?_ rfl rfl rfl

end Sys2Proof.Machine
end

