-- ==== Sys2Proof/Laws/KeepsPack.lean ====
section
/-! SUPPORT. What each operation of Machine/Pack.lean may do to the queue, the soundness of the state and the fuses. -/

namespace Sys2Proof.Machine

theorem State.setSoc_keeps {s₀ s : State} (h : Keeps s₀ s) (k : Fin 2) (pct : Rat) : Keeps s₀ (State.setSoc s k pct) := by
  unfold State.setSoc
  repeat' first
    | with_reducible assumption
    | extract_lets
    | with_reducible apply State.setCode_keeps
    | with_reducible apply State.modPk_keeps

theorem State.syncSoh_keeps {s₀ s : State} (h : Keeps s₀ s) (k : Fin 2) : Keeps s₀ (State.syncSoh s k) := by
  unfold State.syncSoh
  repeat' first
    | with_reducible assumption
    | extract_lets
    | with_reducible apply Keeps.ite
    | with_reducible apply State.setCode_keeps

theorem State.setFcc_keeps {s₀ s : State} (h : Keeps s₀ s) (k : Fin 2) (c : Rat) : Keeps s₀ (State.setFcc s k c) := by
  unfold State.setFcc
  repeat' first
    | with_reducible assumption
    | extract_lets
    | with_reducible apply State.setCode_keeps
    | with_reducible apply State.syncSoh_keeps

theorem State.capKnown_keeps {s₀ s : State} (h : Keeps s₀ s) (k : Fin 2) : Keeps s₀ (State.capKnown s k) := by
  unfold State.capKnown
  repeat' first
    | with_reducible assumption
    | extract_lets
    | with_reducible apply Keeps.ite
    | with_reducible apply State.modPk_keeps
    | with_reducible apply State.syncSoh_keeps
    | with_reducible apply State.setFcc_keeps

theorem State.socRef_keeps {s₀ s : State} (h : Keeps s₀ s) (k : Fin 2) (full : Bool) : Keeps s₀ (State.socRef s k full) := by
  unfold State.socRef
  repeat' first
    | with_reducible assumption
    | extract_lets
    | with_reducible apply Keeps.ite
    | with_reducible apply State.setFld_keeps
    | with_reducible apply State.modPk_keeps
    | with_reducible apply State.syncPack_keeps
    | with_reducible apply State.checkWorn_keeps
    | with_reducible apply State.setSoc_keeps
    | with_reducible apply State.setFcc_keeps

theorem State.fullRef_keeps {s₀ s : State} (h : Keeps s₀ s) (k : Fin 2) : Keeps s₀ (State.fullRef s k) := by
  unfold State.fullRef
  repeat' first
    | with_reducible assumption
    | extract_lets
    | with_reducible apply State.wbDue_keeps
    | with_reducible apply State.socRef_keeps

theorem State.syncThroughput_keeps {s₀ s : State} (h : Keeps s₀ s) (k : Fin 2) : Keeps s₀ (State.syncThroughput s k) := by
  unfold State.syncThroughput
  repeat' first
    | with_reducible assumption
    | extract_lets
    | with_reducible apply Keeps.ite
    | with_reducible apply State.setOn_keeps
    | with_reducible apply State.setCode_keeps

theorem State.syncQ_keeps {s₀ s : State} (h : Keeps s₀ s) (k : Fin 2) : Keeps s₀ (State.syncQ s k) := by
  unfold State.syncQ
  repeat' first
    | with_reducible assumption
    | extract_lets
    | with_reducible apply State.setWord_keeps

theorem State.inserted_keeps {s₀ s : State} (h : Keeps s₀ s) (k : Fin 2) : Keeps s₀ (State.inserted s k) := by
  unfold State.inserted
  repeat' first
    | with_reducible assumption
    | extract_lets
    | with_reducible apply State.setOn_keeps
    | with_reducible apply State.modPk_keeps
    | with_reducible apply State.modTw_keeps
    | with_reducible apply State.setPk_keeps
    | with_reducible apply State.syncPack_keeps
    | with_reducible apply State.chgWake_keeps
    | split
    | with_reducible refine Keeps.mk_same ?_ rfl rfl rfl

theorem State.packLeft_keeps {s₀ s : State} (h : Keeps s₀ s) (k : Fin 2) : Keeps s₀ (State.packLeft s k) := by
  unfold State.packLeft
  repeat' first
    | with_reducible assumption
    | extract_lets
    | with_reducible apply State.modPk_keeps
    | with_reducible apply State.evt_keeps
    | with_reducible apply State.syncQ_keeps
    | split
    | with_reducible refine Keeps.mk_same ?_ rfl rfl rfl

theorem State.lifeTaken_keeps {s₀ s : State} (h : Keeps s₀ s) (k : Fin 2) (i : Ident) : Keeps s₀ (State.lifeTaken s k i) := by
  unfold State.lifeTaken
  repeat' first
    | with_reducible assumption
    | extract_lets
    | with_reducible apply Keeps.ite
    | with_reducible apply State.setFld_keeps
    | with_reducible apply State.setSfld_keeps
    | with_reducible apply State.modPk_keeps
    | with_reducible apply State.setSoc_keeps
    | with_reducible apply State.setFcc_keeps
    | split
    | with_reducible refine Keeps.mk_same ?_ rfl rfl rfl

theorem State.identRead_keeps {s₀ s : State} (h : Keeps s₀ s) (k : Fin 2) (i : Ident) : Keeps s₀ (State.identRead s k i) := by
  unfold State.identRead
  repeat' first
    | with_reducible assumption
    | extract_lets
    | with_reducible apply Keeps.ite
    | with_reducible apply State.setWord_keeps
    | with_reducible apply State.setFld_keeps
    | with_reducible apply State.modPk_keeps
    | with_reducible apply State.evt_keeps
    | with_reducible apply State.syncElig_keeps
    | with_reducible apply State.checkWorn_keeps
    | with_reducible apply State.authDue_keeps
    | with_reducible apply State.syncThroughput_keeps
    | with_reducible apply State.lifeTaken_keeps
    | (with_reducible refine State.each_keeps ?_ _ _ (fun _ _ _ => ?_))

theorem State.identDone_keeps {s₀ s : State} (h : Keeps s₀ s) (k : Fin 2) (r : Option Ident) : Keeps s₀ (State.identDone s k r) := by
  unfold State.identDone
  repeat' first
    | with_reducible assumption
    | extract_lets
    | with_reducible apply Keeps.ite
    | with_reducible apply State.setFld_keeps
    | with_reducible apply State.modPk_keeps
    | with_reducible apply State.fault_keeps
    | with_reducible apply State.setPk_keeps
    | with_reducible apply State.syncPack_keeps
    | with_reducible apply State.syncElig_keeps
    | with_reducible apply State.authDue_keeps
    | with_reducible apply State.setSoc_keeps
    | with_reducible apply State.setFcc_keeps
    | with_reducible apply State.identRead_keeps
    | split
    | dsimp +zetaDelta only

theorem State.startClose_keeps {s₀ s : State} (h : Keeps s₀ s) (k : Fin 2) : Keeps s₀ (State.startClose s k) := by
  unfold State.startClose
  repeat' first
    | with_reducible assumption
    | extract_lets
    | with_reducible apply State.modPk_keeps
    | with_reducible apply State.setPk_keeps
    | with_reducible apply State.setGates_keeps

theorem State.tryClose_keeps {s₀ s : State} (h : Keeps s₀ s) (k : Fin 2) : Keeps s₀ (State.tryClose s k) := by
  unfold State.tryClose
  repeat' first
    | with_reducible assumption
    | extract_lets
    | with_reducible apply Keeps.ite
    | with_reducible apply State.evt_keeps
    | with_reducible apply State.startClose_keeps

theorem State.closeFail_keeps {s₀ s : State} (h : Keeps s₀ s) (k : Fin 2) : Keeps s₀ (State.closeFail s k) := by
  unfold State.closeFail
  repeat' first
    | with_reducible assumption
    | extract_lets
    | with_reducible apply State.modPk_keeps
    | with_reducible apply State.evt_keeps
    | with_reducible apply State.fault_keeps
    | with_reducible apply State.openPort_keeps

theorem State.dsgReclose_keeps {s₀ s : State} (h : Keeps s₀ s) (k : Fin 2) : Keeps s₀ (State.dsgReclose s k) := by
  unfold State.dsgReclose
  repeat' first
    | with_reducible assumption
    | extract_lets
    | with_reducible apply Keeps.ite
    | with_reducible apply State.modPk_keeps
    | with_reducible apply State.setGates_keeps
    | with_reducible apply State.syncElig_keeps

theorem State.checkClosed_keeps {s₀ s : State} (h : Keeps s₀ s) (k : Fin 2) : Keeps s₀ (State.checkClosed s k) := by
  unfold State.checkClosed
  repeat' first
    | with_reducible assumption
    | extract_lets
    | with_reducible apply Keeps.ite
    | with_reducible apply State.setCmd_keeps
    | with_reducible apply State.openPort_keeps
    | with_reducible apply State.syncElig_keeps
    | with_reducible apply State.leaveHoldup_keeps
    | with_reducible apply State.leaveGust_keeps

theorem State.packSample_keeps {s₀ s : State} (h : Keeps s₀ s) (k : Fin 2) (v : Rat) : Keeps s₀ (State.packSample s k v) := by
  unfold State.packSample
  repeat' first
    | with_reducible assumption
    | extract_lets
    | with_reducible apply Keeps.ite
    | with_reducible apply State.modPk_keeps
    | with_reducible apply State.checkClosed_keeps

theorem State.tripPort_keeps {s₀ s : State} (h : Keeps s₀ s) (k : Fin 2) (t : PkTrip) (chg dsg : Bool) : Keeps s₀ (State.tripPort s k t chg dsg) := by
  unfold State.tripPort
  repeat' first
    | with_reducible assumption
    | extract_lets
    | with_reducible apply Keeps.ite
    | with_reducible apply State.modPk_keeps
    | with_reducible apply State.setPk_keeps
    | with_reducible apply State.setGates_keeps
    | with_reducible apply State.syncElig_keeps
    | with_reducible apply State.gustLoss_keeps
    | with_reducible apply State.closeFail_keeps

theorem State.packFlag_keeps {s₀ s : State} (h : Keeps s₀ s) (k : Fin 2) (told : Bool) (f : Fld) (src : Fin 64) : Keeps s₀ (State.packFlag s k told f src) := by
  unfold State.packFlag
  repeat' first
    | with_reducible assumption
    | extract_lets
    | with_reducible apply Keeps.ite
    | with_reducible apply State.evt_keeps
    | with_reducible apply State.fault_keeps

theorem State.packShort_keeps {s₀ s : State} (h : Keeps s₀ s) (k : Fin 2) (told : Bool) : Keeps s₀ (State.packShort s k told) := by
  unfold State.packShort
  repeat' first
    | with_reducible assumption
    | extract_lets
    | with_reducible apply Keeps.ite
    | with_reducible apply State.modPk_keeps
    | with_reducible apply State.fault_keeps
    | with_reducible apply State.setPk_keeps
    | with_reducible apply State.syncPack_keeps
    | with_reducible apply State.leaveHoldup_keeps
    | with_reducible apply State.tripPort_keeps
    | with_reducible apply State.packFlag_keeps

theorem State.packOcc_keeps {s₀ s : State} (h : Keeps s₀ s) (k : Fin 2) (told : Bool) : Keeps s₀ (State.packOcc s k told) := by
  unfold State.packOcc
  repeat' first
    | with_reducible assumption
    | extract_lets
    | with_reducible apply Keeps.ite
    | with_reducible apply State.tripPort_keeps
    | with_reducible apply State.packFlag_keeps

theorem State.packOv_keeps {s₀ s : State} (h : Keeps s₀ s) (k : Fin 2) (told : Bool) : Keeps s₀ (State.packOv s k told) := by
  unfold State.packOv
  repeat' first
    | with_reducible assumption
    | extract_lets
    | with_reducible apply Keeps.ite
    | with_reducible apply State.modPk_keeps
    | with_reducible apply State.setGates_keeps
    | with_reducible apply State.syncElig_keeps
    | with_reducible apply State.gustLoss_keeps
    | with_reducible apply State.closeFail_keeps
    | with_reducible apply State.packFlag_keeps

theorem State.packUv_keeps {s₀ s : State} (h : Keeps s₀ s) (k : Fin 2) (told : Bool) : Keeps s₀ (State.packUv s k told) := by
  unfold State.packUv
  repeat' first
    | with_reducible assumption
    | extract_lets
    | with_reducible apply Keeps.ite
    | with_reducible apply State.modPk_keeps
    | with_reducible apply State.setGates_keeps
    | with_reducible apply State.syncElig_keeps
    | with_reducible apply State.gustLoss_keeps
    | with_reducible apply State.leaveHoldup_keeps
    | with_reducible apply State.closeFail_keeps
    | with_reducible apply State.packFlag_keeps

theorem State.clearLatch_keeps {s₀ s : State} (h : Keeps s₀ s) (k : Fin 2) : Keeps s₀ (State.clearLatch s k) := by
  unfold State.clearLatch
  repeat' first
    | with_reducible assumption
    | extract_lets
    | with_reducible apply Keeps.ite
    | with_reducible apply State.modPk_keeps
    | with_reducible apply State.setPk_keeps
    | with_reducible apply State.syncPack_keeps

theorem State.countCharge_keeps {s₀ s : State} (h : Keeps s₀ s) (k : Fin 2) (a : Rat) : Keeps s₀ (State.countCharge s k a) := by
  unfold State.countCharge
  repeat' first
    | with_reducible assumption
    | extract_lets
    | with_reducible apply Keeps.ite
    | with_reducible apply State.setScode_keeps
    | with_reducible apply State.modPk_keeps
    | with_reducible apply State.setSoc_keeps
    | with_reducible apply State.syncThroughput_keeps
    | with_reducible apply State.syncQ_keeps

theorem State.ageTick_keeps {s₀ s : State} (h : Keeps s₀ s) (k : Fin 2) : Keeps s₀ (State.ageTick s k) := by
  unfold State.ageTick
  repeat' first
    | with_reducible assumption
    | extract_lets
    | with_reducible apply Keeps.ite
    | with_reducible apply State.setOn_keeps
    | with_reducible apply State.count_keeps
    | with_reducible apply State.modPk_keeps
    | with_reducible apply State.checkWorn_keeps
    | split
    | with_reducible refine Keeps.mk_same ?_ rfl rfl rfl

theorem State.pressTick_keeps {s₀ s : State} (h : Keeps s₀ s) (k : Fin 2) (high : Bool) : Keeps s₀ (State.pressTick s k high) := by
  unfold State.pressTick
  repeat' first
    | with_reducible assumption
    | extract_lets
    | with_reducible apply Keeps.ite
    | split
    | with_reducible refine Keeps.mk_same ?_ rfl rfl rfl

end Sys2Proof.Machine
end

