-- ==== Sys2Proof/Laws/KeepsCharge.lean ====
section
/-! SUPPORT. What each operation of Machine/Charge.lean may do to the queue, the soundness of the state and the fuses. -/

namespace Sys2Proof.Machine

theorem State.enterGust_keeps {s₀ s : State} (h : Keeps s₀ s) (k : Fin 2) : Keeps s₀ (State.enterGust s k) := by
  unfold State.enterGust
  repeat' first
    | with_reducible assumption
    | extract_lets
    | with_reducible apply Keeps.ite
    | with_reducible apply State.modChg_keeps
    | with_reducible apply State.setRole_keeps
    | with_reducible apply State.abortSounding_keeps

theorem State.shareGust_keeps {s₀ s : State} (h : Keeps s₀ s) (pg : Rat) : Keeps s₀ (State.shareGust s pg) := by
  unfold State.shareGust
  repeat' first
    | with_reducible assumption
    | extract_lets
    | with_reducible apply Keeps.ite
    | with_reducible apply State.modChg_keeps
    | with_reducible apply State.endTest_keeps
    | with_reducible apply State.enterGust_keeps
    | (with_reducible refine State.each_keeps ?_ _ _ (fun _ _ _ => ?_))

theorem State.chgTick_keeps {s₀ s : State} (h : Keeps s₀ s) (k : Fin 2) : Keeps s₀ (State.chgTick s k) := by
  unfold State.chgTick
  repeat' first
    | with_reducible assumption
    | extract_lets
    | with_reducible apply Keeps.ite
    | with_reducible apply State.count_keeps
    | with_reducible apply State.modChg_keeps

theorem State.setPause_keeps {s₀ s : State} (h : Keeps s₀ s) (k : Fin 2) : Keeps s₀ (State.setPause s k) := by
  unfold State.setPause
  repeat' first
    | with_reducible assumption
    | extract_lets
    | with_reducible apply Keeps.ite
    | with_reducible apply State.setFld_keeps
    | with_reducible apply State.setOn_keeps
    | with_reducible apply State.count_keeps
    | with_reducible apply State.setItgt_keeps
    | with_reducible apply State.abortSounding_keeps

theorem State.claimCharge_keeps {s₀ s : State} (h : Keeps s₀ s) (k : Fin 2) : Keeps s₀ (State.claimCharge s k) := by
  unfold State.claimCharge
  repeat' first
    | with_reducible assumption
    | extract_lets
    | with_reducible apply State.setCode_keeps
    | with_reducible apply State.modChg_keeps
    | split

theorem State.shareAllowed_keeps {s₀ s : State} (h : Keeps s₀ s) : Keeps s₀ (State.shareAllowed s) := by
  unfold State.shareAllowed
  repeat' first
    | with_reducible assumption
    | extract_lets
    | with_reducible apply State.modChg_keeps
    | (with_reducible refine State.each_keeps ?_ _ _ (fun _ _ _ => ?_))

theorem State.chargeCmd_keeps {s₀ s : State} (h : Keeps s₀ s) (k : Fin 2) (p : Profile) : Keeps s₀ (State.chargeCmd s k p) := by
  unfold State.chargeCmd
  repeat' first
    | with_reducible assumption
    | extract_lets
    | with_reducible apply Keeps.ite
    | with_reducible apply State.setFld_keeps
    | with_reducible apply State.modChg_keeps
    | with_reducible apply State.setCmd_keeps
    | with_reducible apply State.setItgt_keeps
    | with_reducible apply State.setPause_keeps

theorem State.gustCmd_keeps {s₀ s : State} (h : Keeps s₀ s) (k : Fin 2) : Keeps s₀ (State.gustCmd s k) := by
  unfold State.gustCmd
  repeat' first
    | with_reducible assumption
    | extract_lets
    | with_reducible apply Keeps.ite
    | with_reducible apply State.modChg_keeps
    | with_reducible apply State.setCmd_keeps
    | with_reducible apply State.setPout_keeps

theorem State.syncCrest_keeps {s₀ s : State} (h : Keeps s₀ s) (k : Fin 2) : Keeps s₀ (State.syncCrest s k) := by
  unfold State.syncCrest
  repeat' first
    | with_reducible assumption
    | extract_lets
    | with_reducible apply State.setOn_keeps

theorem State.chgStep_keeps {s₀ s : State} (h : Keeps s₀ s) (k : Fin 2) : Keeps s₀ (State.chgStep s k) := by
  unfold State.chgStep
  repeat' first
    | with_reducible assumption
    | extract_lets
    | with_reducible apply Keeps.ite
    | with_reducible apply State.setRole_keeps
    | with_reducible apply State.enterStage_keeps
    | with_reducible apply State.qualify_keeps
    | with_reducible apply State.chgTick_keeps
    | with_reducible apply State.syncCrest_keeps

theorem State.enterCv_keeps {s₀ s : State} (h : Keeps s₀ s) (k : Fin 2) : Keeps s₀ (State.enterCv s k) := by
  unfold State.enterCv
  repeat' first
    | with_reducible assumption
    | extract_lets
    | with_reducible apply State.modChg_keeps
    | with_reducible apply State.abortSounding_keeps
    | with_reducible apply State.enterStage_keeps

theorem State.chgDwell_keeps {s₀ s : State} (h : Keeps s₀ s) (k : Fin 2) (p : Profile) : Keeps s₀ (State.chgDwell s k p) := by
  unfold State.chgDwell
  repeat' first
    | with_reducible assumption
    | extract_lets
    | with_reducible apply Keeps.ite
    | with_reducible apply State.modChg_keeps

theorem State.chgSample_keeps {s₀ s : State} (h : Keeps s₀ s) (k : Fin 2) (v : Rat) : Keeps s₀ (State.chgSample s k v) := by
  unfold State.chgSample
  repeat' first
    | with_reducible assumption
    | extract_lets
    | with_reducible apply Keeps.ite
    | with_reducible apply State.modChg_keeps
    | split

theorem State.chgCtl_keeps {s₀ s : State} (h : Keeps s₀ s) (k : Fin 2) (clr : Bool) : Keeps s₀ (State.chgCtl s k clr) := by
  unfold State.chgCtl
  repeat' first
    | with_reducible assumption
    | extract_lets
    | with_reducible apply Keeps.ite
    | with_reducible apply State.fault_keeps
    | with_reducible apply State.syncElig_keeps
    | with_reducible apply State.enterStage_keeps
    | with_reducible apply State.chgWake_keeps

theorem State.applyProfile_keeps {s₀ s : State} (h : Keeps s₀ s) (k : Fin 2) (p : Profile) (o : Origin) (cls : Nat) : Keeps s₀ (State.applyProfile s k p o cls) := by
  unfold State.applyProfile
  repeat' first
    | with_reducible assumption
    | extract_lets
    | with_reducible apply Keeps.ite
    | with_reducible apply State.setFld_keeps
    | with_reducible apply State.setOn_keeps
    | with_reducible apply State.modChg_keeps
    | with_reducible apply State.journal_keeps
    | with_reducible apply State.setCmd_keeps
    | with_reducible apply State.syncPack_keeps
    | with_reducible apply State.syncElig_keeps
    | with_reducible apply State.checkWorn_keeps
    | with_reducible apply State.enterStage_keeps
    | with_reducible apply State.chgWake_keeps
    | with_reducible apply State.qualify_keeps
    | with_reducible apply State.authDue_keeps
    | with_reducible apply State.capKnown_keeps

theorem State.startSetProfile_keeps {s₀ s : State} (h : Keeps s₀ s) (d : Desc) : Keeps s₀ (State.startSetProfile s d) := by
  unfold State.startSetProfile
  repeat' first
    | with_reducible assumption
    | extract_lets
    | with_reducible apply Keeps.ite
    | with_reducible apply State.modChg_keeps
    | with_reducible apply State.refuse_keeps

theorem State.stagedLoad_keeps {s₀ s : State} (h : Keeps s₀ s) (o : Origin) : Keeps s₀ (State.stagedLoad s o) := by
  unfold State.stagedLoad
  repeat' first
    | with_reducible assumption
    | extract_lets
    | with_reducible apply Keeps.ite
    | with_reducible apply State.setFld_keeps
    | with_reducible apply State.evt_keeps
    | with_reducible apply State.applyProfile_keeps

theorem State.startSounding_keeps {s₀ s : State} (h : Keeps s₀ s) (d : Desc) : Keeps s₀ (State.startSounding s d) := by
  unfold State.startSounding
  repeat' first
    | with_reducible assumption
    | extract_lets
    | with_reducible apply Keeps.ite
    | with_reducible apply State.setFld_keeps
    | with_reducible apply State.modChg_keeps
    | with_reducible apply State.setItgt_keeps
    | with_reducible apply State.setRole_keeps
    | with_reducible apply State.refuse_keeps
    | with_reducible apply State.abortSounding_keeps
    | split

theorem State.lockIn_keeps {s₀ s : State} (h : Keeps s₀ s) (k : Fin 2) (i v : Rat) (q : Nat) : Keeps s₀ (State.lockIn s k i v q) := by
  unfold State.lockIn
  repeat' first
    | with_reducible assumption
    | extract_lets
    | with_reducible apply Keeps.ite
    | with_reducible apply State.setFld_keeps
    | with_reducible apply State.modChg_keeps
    | with_reducible apply State.complete_keeps
    | with_reducible apply State.settled_keeps
    | split

theorem State.busSample_keeps {s₀ s : State} (h : Keeps s₀ s) (v : Rat) : Keeps s₀ (State.busSample s v) := by
  unfold State.busSample
  repeat' first
    | with_reducible assumption
    | extract_lets
    | with_reducible apply Keeps.ite
    | split
    | with_reducible refine Keeps.mk_same ?_ rfl rfl rfl

theorem State.cutShare_keeps {s₀ s : State} (h : Keeps s₀ s) (k : Fin 2) : Keeps s₀ (State.cutShare s k) := by
  unfold State.cutShare
  repeat' first
    | with_reducible assumption
    | extract_lets
    | with_reducible apply Keeps.ite
    | with_reducible apply State.modChg_keeps
    | with_reducible apply State.setCmd_keeps
    | with_reducible apply State.setPout_keeps
    | with_reducible apply State.leaveHoldup_keeps
    | split

end Sys2Proof.Machine
end

