-- ==== Sys2Proof/Laws/KeepsFault.lean ====
section
/-! SUPPORT. What each operation of Machine/Fault.lean may do to the queue, the soundness of the state and the fuses. -/

namespace Sys2Proof.Machine

theorem State.setFaultN_keeps {s₀ s : State} (h : Keeps s₀ s) (low : Bool) : Keeps s₀ (State.setFaultN s low) := by
  unfold State.setFaultN
  repeat' first
    | with_reducible assumption
    | extract_lets
    | with_reducible apply State.setOn_keeps

theorem State.faultHeld_keeps {s₀ s : State} (h : Keeps s₀ s) : Keeps s₀ (State.faultHeld s) := by
  unfold State.faultHeld
  repeat' first
    | with_reducible assumption
    | extract_lets
    | with_reducible apply State.setOn_keeps
    | with_reducible apply State.setFaultN_keeps
    | split
    | with_reducible refine Keeps.mk_same ?_ rfl rfl rfl

theorem State.pinNow_keeps {s₀ s : State} (h : Keeps s₀ s) : Keeps s₀ (State.pinNow s) := by
  unfold State.pinNow
  repeat' first
    | with_reducible assumption
    | extract_lets
    | split
    | with_reducible refine Keeps.mk_same ?_ rfl rfl rfl

theorem State.heartbeat_keeps {s₀ s : State} (h : Keeps s₀ s) : Keeps s₀ (State.heartbeat s) := by
  unfold State.heartbeat
  repeat' first
    | with_reducible assumption
    | extract_lets
    | with_reducible apply State.setOn_keeps
    | with_reducible apply State.setFaultN_keeps
    | with_reducible apply State.pinNow_keeps

theorem State.faultRun_keeps {s₀ s : State} (h : Keeps s₀ s) : Keeps s₀ (State.faultRun s) := by
  unfold State.faultRun
  repeat' first
    | with_reducible assumption
    | extract_lets
    | with_reducible apply Keeps.ite
    | with_reducible apply State.setFaultN_keeps
    | with_reducible apply State.heartbeat_keeps

theorem State.faultPulse_keeps {s₀ s : State} (h : Keeps s₀ s) : Keeps s₀ (State.faultPulse s) := by
  unfold State.faultPulse
  repeat' first
    | with_reducible assumption
    | extract_lets
    | with_reducible apply Keeps.ite
    | with_reducible apply State.setOn_keeps
    | with_reducible apply State.setFaultN_keeps
    | with_reducible apply State.pinNow_keeps
    | split
    | with_reducible refine Keeps.mk_same ?_ rfl rfl rfl

theorem State.portsOff_keeps {s₀ s : State} (h : Keeps s₀ s) : Keeps s₀ (State.portsOff s) := by
  unfold State.portsOff
  repeat' first
    | with_reducible assumption
    | extract_lets
    | with_reducible apply State.setCmd_keeps
    | with_reducible apply State.stopPhases_keeps
    | with_reducible apply State.turn_keeps
    | with_reducible apply State.setRole_keeps
    | with_reducible apply State.openPort_keeps
    | with_reducible apply State.syncElig_keeps
    | with_reducible apply State.abortSounding_keeps
    | with_reducible apply State.leaveHoldup_keeps
    | with_reducible apply State.leaveGust_keeps
    | (with_reducible refine State.each_keeps ?_ _ _ (fun _ _ _ => ?_))

theorem State.safeEntry_keeps {s₀ s : State} (h : Keeps s₀ s) : Keeps s₀ (State.safeEntry s) := by
  unfold State.safeEntry
  repeat' first
    | with_reducible assumption
    | extract_lets
    | with_reducible apply Keeps.ite
    | with_reducible apply State.setFld_keeps
    | with_reducible apply State.setOn_keeps
    | with_reducible apply State.syncThr_keeps
    | with_reducible apply State.endAll_keeps
    | with_reducible apply State.endTest_keeps
    | with_reducible apply State.feedsHwOnly_keeps
    | with_reducible apply State.faultHeld_keeps
    | with_reducible apply State.portsOff_keeps
    | split
    | with_reducible refine Keeps.mk_same ?_ rfl rfl rfl

theorem State.fatalEntry_keeps {s₀ s : State} (h : Keeps s₀ s) (src : Nat) : Keeps s₀ (State.fatalEntry s src) := by
  unfold State.fatalEntry
  repeat' first
    | with_reducible assumption
    | extract_lets
    | with_reducible apply State.jevent_keeps

theorem State.setSrc_keeps {s₀ s : State} (h : Keeps s₀ s) (lo hi : Nat) (src : Fin 64) : Keeps s₀ (State.setSrc s lo hi src) := by
  unfold State.setSrc
  repeat' first
    | with_reducible assumption
    | extract_lets
    | with_reducible apply Keeps.ite
    | with_reducible apply State.setFlags_keeps

theorem State.countSrc_keeps {s₀ s : State} (h : Keeps s₀ s) (src : Fin 64) : Keeps s₀ (State.countSrc s src) := by
  unfold State.countSrc
  repeat' first
    | with_reducible assumption
    | extract_lets
    | with_reducible apply State.count_keeps

theorem State.capture_keeps {s₀ s : State} (h : Keeps s₀ s) (e : FltEvent) : Keeps s₀ (State.capture s e) := by
  unfold State.capture
  repeat' first
    | with_reducible assumption
    | extract_lets
    | with_reducible apply State.setWord_keeps
    | with_reducible apply State.setFld_keeps
    | with_reducible apply State.setOn_keeps
    | with_reducible apply State.evt_keeps

theorem State.captureFatal_keeps {s₀ s : State} (h : Keeps s₀ s) (e : FltEvent) : Keeps s₀ (State.captureFatal s e) := by
  unfold State.captureFatal
  repeat' first
    | with_reducible assumption
    | extract_lets
    | with_reducible apply Keeps.ite
    | with_reducible apply State.setWord_keeps
    | with_reducible apply State.setFld_keeps
    | with_reducible apply State.setOn_keeps
    | with_reducible apply State.evt_keeps

theorem State.startGrace_keeps {s₀ s : State} (h : Keeps s₀ s) (src : Fin 64) : Keeps s₀ (State.startGrace s src) := by
  unfold State.startGrace
  repeat' first
    | with_reducible assumption
    | extract_lets
    | with_reducible apply Keeps.ite
    | split
    | with_reducible refine Keeps.mk_same ?_ rfl rfl rfl

theorem State.recordEvents_keeps {s₀ s : State} (h : Keeps s₀ s) (raw : List FltEvent) : Keeps s₀ (State.recordEvents s raw) := by
  unfold State.recordEvents
  extract_lets l fatal s1 grace s2 first rest s3 s4 s5 s6
  clear_value first fatal
  have e1 : Keeps s₀ s1 := State.each_keeps h _ _ (fun _ _ ht => State.countSrc_keeps (State.setSrc_keeps ht _ _ _) _)
  have e2 : Keeps s₀ s2 := State.each_keeps e1 _ _ (fun t e ht => by
    extract_lets t1
    have ht1 : Keeps s₀ t1 := State.setSrc_keeps ht _ _ _
    exact Keeps.ite (State.startGrace_keeps ht1 _) ht1)
  have e3 : Keeps s₀ s3 := by
    unfold s3
    split
    · exact State.capture_keeps e2 _
    · exact e2
  have e4 : Keeps s₀ s4 := State.each_keeps e3 _ _ (fun _ _ ht => State.count_keeps (State.setOn_keeps ht _ _) _)
  have e5 : Keeps s₀ s5 := by
    unfold s5
    split
    · exact State.captureFatal_keeps e4 _
    · exact e4
  have e6 : Keeps s₀ s6 := Keeps.ite (State.faultPulse_keeps e5) e5
  split
  · exact Keeps.ite e6 (State.fatalEntry_keeps (State.safeEntry_keeps e6) _)
  · exact e6

theorem State.collect_keeps {s₀ s : State} (h : Keeps s₀ s) : Keeps s₀ (State.collect s) := by
  unfold State.collect
  repeat' first
    | with_reducible assumption
    | extract_lets
    | with_reducible apply Keeps.ite
    | with_reducible apply State.recordEvents_keeps
    | split
    | with_reducible refine Keeps.mk_same ?_ rfl rfl rfl

theorem State.recordFault_keeps {s₀ s : State} (h : Keeps s₀ s) (src : Fin 64) (addr : Nat) (master : Byte) : Keeps s₀ (State.recordFault s src addr master) := by
  unfold State.recordFault
  repeat' first
    | with_reducible assumption
    | extract_lets
    | with_reducible apply State.recordEvents_keeps

theorem State.clearPend_keeps {s₀ s : State} (h : Keeps s₀ s) (m : BitVec 64) : Keeps s₀ (State.clearPend s m) := by
  unfold State.clearPend
  repeat' first
    | with_reducible assumption
    | extract_lets
    | with_reducible apply State.setWord_keeps
    | split
    | with_reducible refine Keeps.mk_same ?_ rfl rfl rfl

theorem State.pinWrite_keeps {s₀ s : State} (h : Keeps s₀ s) (resume : Bool) : Keeps s₀ (State.pinWrite s resume) := by
  unfold State.pinWrite
  repeat' first
    | with_reducible assumption
    | extract_lets
    | with_reducible apply Keeps.ite
    | with_reducible apply State.setFaultN_keeps
    | with_reducible apply State.heartbeat_keeps

theorem State.collectorBad_keeps {s₀ s : State} (h : Keeps s₀ s) (w : Byte) : Keeps s₀ (State.collectorBad s w) := by
  unfold State.collectorBad
  repeat' first
    | with_reducible assumption
    | extract_lets
    | with_reducible apply Keeps.ite
    | with_reducible apply State.setFld_keeps
    | with_reducible apply State.setOn_keeps
    | with_reducible apply State.safeEntry_keeps
    | with_reducible apply State.fatalEntry_keeps
    | with_reducible apply State.setSrc_keeps
    | with_reducible apply State.captureFatal_keeps
    | split
    | with_reducible refine Keeps.mk_same ?_ rfl rfl rfl

theorem State.checkWord_keeps {s₀ s : State} (h : Keeps s₀ s) (off : Nat) : Keeps s₀ (State.checkWord s off) := by
  unfold State.checkWord
  repeat' first
    | with_reducible assumption
    | extract_lets
    | with_reducible apply Keeps.ite
    | with_reducible apply State.collectorBad_keeps
    | split

theorem State.tripAll_keeps {s₀ s : State} (h : Keeps s₀ s) : Keeps s₀ (State.tripAll s) := by
  unfold State.tripAll
  repeat' first
    | with_reducible assumption
    | extract_lets
    | with_reducible apply State.modPh_keeps
    | (with_reducible refine State.each_keeps ?_ _ _ (fun _ _ _ => ?_))

end Sys2Proof.Machine
end

