-- ==== Sys2Proof/Laws/KeepsThermal.lean ====
section
/-! SUPPORT. What each operation of Machine/Thermal.lean may do to the queue, the soundness of the state and the fuses. -/

namespace Sys2Proof.Machine

theorem State.crossCheck_keeps {s₀ s : State} (h : Keeps s₀ s) (ok : Fin 9 → Bool) (i : Fin 9) : Keeps s₀ (State.crossCheck s ok i) := by
  unfold State.crossCheck
  repeat' first
    | with_reducible assumption
    | extract_lets
    | with_reducible apply Keeps.ite
    | with_reducible apply State.setFld_keeps
    | with_reducible apply State.count_keeps
    | with_reducible apply State.setScode_keeps
    | with_reducible apply State.evt_keeps
    | with_reducible apply State.fault_keeps
    | split
    | with_reducible refine Keeps.mk_same ?_ rfl rfl rfl

theorem State.noXchk_keeps {s₀ s : State} (h : Keeps s₀ s) (cirrus had : Bool) : Keeps s₀ (State.noXchk s cirrus had) := by
  unfold State.noXchk
  repeat' first
    | with_reducible assumption
    | extract_lets
    | with_reducible apply Keeps.ite
    | with_reducible apply State.evt_keeps
    | with_reducible apply State.fault_keeps

theorem State.orderlyStop_keeps {s₀ s : State} (h : Keeps s₀ s) (tj : Int) (trip : Nat) : Keeps s₀ (State.orderlyStop s tj trip) := by
  unfold State.orderlyStop
  repeat' first
    | with_reducible assumption
    | extract_lets
    | with_reducible apply State.setOn_keeps
    | with_reducible apply State.thermalEnd_keeps
    | with_reducible apply State.portsOff_keeps
    | with_reducible apply State.collect_keeps
    | split
    | with_reducible refine Keeps.mk_same ?_ rfl rfl rfl

theorem State.setLevel_keeps {s₀ s : State} (h : Keeps s₀ s) (tj : Int) : Keeps s₀ (State.setLevel s tj) := by
  unfold State.setLevel
  repeat' first
    | with_reducible assumption
    | extract_lets
    | with_reducible apply Keeps.ite
    | with_reducible apply State.setFld_keeps
    | with_reducible apply State.count_keeps
    | with_reducible apply State.evt_keeps
    | with_reducible apply State.budgetDrop_keeps
    | with_reducible apply State.gustLoss_keeps
    | (with_reducible refine State.each_keeps ?_ _ _ (fun _ _ _ => ?_))
    | split
    | with_reducible refine Keeps.mk_same ?_ rfl rfl rfl

theorem State.dieActions_keeps {s₀ s : State} (h : Keeps s₀ s) (tj : Int) : Keeps s₀ (State.dieActions s tj) := by
  unfold State.dieActions
  repeat' first
    | with_reducible assumption
    | extract_lets
    | with_reducible apply Keeps.ite
    | with_reducible apply State.setFld_keeps
    | with_reducible apply State.evt_keeps
    | with_reducible apply State.fault_keeps
    | with_reducible apply State.orderlyStop_keeps
    | with_reducible apply State.setLevel_keeps

theorem State.exclude_keeps {s₀ s : State} (h : Keeps s₀ s) (n : Fin 16) : Keeps s₀ (State.exclude s n) := by
  unfold State.exclude
  refine Keeps.ite h ?_
  extract_lets port before src s1 s2 s3
  clear_value port
  have e1 : Keeps s₀ s1 := Keeps.of_same h rfl rfl rfl rfl rfl
  have e2 : Keeps s₀ s2 := State.evt_keeps e1 _
  have e3 : Keeps s₀ s3 := Keeps.ite (State.setPh_keeps e2 _ _) e2
  split
  · exact e3
  · next k =>
    extract_lets s4 s5
    have e4 : Keeps s₀ s4 := State.syncPort_keeps e3 _
    have e5 : Keeps s₀ s5 := Keeps.ite (State.evt_keeps e4 _) e4
    exact State.syncElig_keeps (State.gustLoss_keeps (State.cutPower_keeps e5 _) _) _

theorem State.capFall_keeps {s₀ s : State} (h : Keeps s₀ s) (k : Fin 2) : Keeps s₀ (State.capFall s k) := by
  unfold State.capFall
  repeat' first
    | with_reducible assumption
    | extract_lets
    | with_reducible apply Keeps.ite
    | with_reducible apply State.count_keeps
    | with_reducible apply State.modPhp_keeps
    | with_reducible apply State.evt_keeps
    | with_reducible apply State.syncPort_keeps
    | with_reducible apply State.syncElig_keeps
    | with_reducible apply State.capShed_keeps

theorem State.stageActions_keeps {s₀ s : State} (h : Keeps s₀ s) (n : Fin 16) (t : Rat) :
    Keeps s₀ (State.stageActions s n t) := by
  unfold State.stageActions
  extract_lets port run past put skip wasCap cap hot wasPort src s1 s2 s3
  clear_value port hot
  have e1 : Keeps s₀ s1 := Keeps.of_same h rfl rfl rfl rfl rfl
  have e2 : Keeps s₀ s2 := State.setFld_keeps e1 _ _
  have e3 : Keeps s₀ s3 := by
    unfold s3
    split
    · exact Keeps.ite (State.capFall_keeps e2 _) (Keeps.ite (State.modPhp_keeps e2 _ _) e2)
    · exact e2
  refine Keeps.ite (State.exclude_keeps e3 _) (Keeps.ite (State.syncPorts_keeps ?_) e3)
  exact Keeps.of_same e3 rfl rfl rfl rfl rfl

end Sys2Proof.Machine
end

