-- ==== Sys2Proof/Laws/KeepsAnalog.lean ====
section
/-! SUPPORT. What each operation of Machine/Analog.lean may do to the queue, the soundness of the state and the fuses. -/

namespace Sys2Proof.Machine

theorem State.cmpRoute_keeps {s₀ s : State} (h : Keeps s₀ s) (c : Fin 48) (upper : Bool) : Keeps s₀ (State.cmpRoute s c upper) := by
  unfold State.cmpRoute
  repeat' first
    | with_reducible assumption
    | extract_lets
    | with_reducible apply Keeps.ite
    | with_reducible apply State.evt_keeps
    | with_reducible apply State.fault_keeps
    | with_reducible apply State.sourceEdge_keeps
    | with_reducible apply State.markLost_keeps
    | with_reducible apply State.feedUv_keeps
    | with_reducible apply State.feedOv_keeps
    | with_reducible apply State.feedShort_keeps
    | with_reducible apply State.feedReverse_keeps
    | with_reducible apply State.packShort_keeps
    | with_reducible apply State.packOcc_keeps
    | with_reducible apply State.packOv_keeps
    | with_reducible apply State.packUv_keeps
    | split

theorem State.cmpInput_keeps {s₀ s : State} (h : Keeps s₀ s) (c : Fin 48) (x : Int) : Keeps s₀ (State.cmpInput s c x) := by
  unfold State.cmpInput
  repeat' first
    | with_reducible assumption
    | extract_lets
    | with_reducible apply Keeps.ite
    | with_reducible apply State.setFld_keeps
    | with_reducible apply State.modCmp_keeps
    | with_reducible apply State.cmpAssert_keeps
    | with_reducible apply State.trySwap_keeps
    | with_reducible apply State.cmpRoute_keeps

theorem State.cmpFollow_keeps {s₀ s : State} (h : Keeps s₀ s) (c : Fin 48) : Keeps s₀ (State.cmpFollow s c) := by
  unfold State.cmpFollow
  repeat' first
    | with_reducible assumption
    | extract_lets
    | with_reducible apply Keeps.ite
    | with_reducible apply State.modCmp_keeps
    | with_reducible apply State.cmpAssert_keeps
    | with_reducible apply State.trySwap_keeps
    | with_reducible apply State.cmpRoute_keeps
    | with_reducible apply State.cmpInput_keeps
    | split

theorem State.rethresh_keeps {s₀ s : State} (h : Keeps s₀ s) (c : Fin 48) : Keeps s₀ (State.rethresh s c) := by
  unfold State.rethresh
  repeat' first
    | with_reducible assumption
    | extract_lets
    | with_reducible apply State.cmpInput_keeps
    | split

theorem State.nodeSeen_keeps {s₀ s : State} (h : Keeps s₀ s) (ch : Nat) (alt : Bool) (gain v : Rat) : Keeps s₀ (State.nodeSeen s ch alt gain v) := by
  unfold State.nodeSeen
  repeat' first
    | with_reducible assumption
    | extract_lets
    | with_reducible apply Keeps.ite
    | with_reducible apply State.cmpSee_keeps
    | with_reducible apply State.cmpInput_keeps
    | (with_reducible refine State.each_keeps ?_ _ _ (fun _ _ _ => ?_))
    | split
    | with_reducible refine Keeps.mk_same ?_ rfl rfl rfl

theorem State.cmpFault_keeps {s₀ s : State} (h : Keeps s₀ s) (c : Fin 48) (upper : Bool) (w : Nat) : Keeps s₀ (State.cmpFault s c upper w) := by
  unfold State.cmpFault
  repeat' first
    | with_reducible assumption
    | extract_lets
    | with_reducible apply Keeps.ite
    | with_reducible apply State.cmpRow_keeps
    | with_reducible apply State.cmpRoute_keeps

theorem State.blank_keeps {s₀ s : State} (h : Keeps s₀ s) (c : Fin 48) (on : Bool) : Keeps s₀ (State.blank s c on) := by
  unfold State.blank
  repeat' first
    | with_reducible assumption
    | extract_lets
    | with_reducible apply Keeps.ite
    | with_reducible apply State.setOn_keeps
    | with_reducible apply State.modCmp_keeps
    | with_reducible apply State.cmpFollow_keeps

theorem State.blankBy_keeps {s₀ s : State} (h : Keeps s₀ s) (n : Fin 8) (on : Bool) : Keeps s₀ (State.blankBy s n on) := by
  unfold State.blankBy
  repeat' first
    | with_reducible assumption
    | extract_lets
    | with_reducible apply State.blank_keeps
    | (with_reducible refine State.each_keeps ?_ _ _ (fun _ _ _ => ?_))

theorem State.reblank_keeps {s₀ s : State} (h : Keeps s₀ s) (c : Fin 48) : Keeps s₀ (State.reblank s c) := by
  unfold State.reblank
  repeat' first
    | with_reducible assumption
    | extract_lets
    | with_reducible apply Keeps.ite
    | with_reducible apply State.blank_keeps

theorem State.modeChanged_keeps {s₀ s : State} (h : Keeps s₀ s) (c : Fin 48) (was : Nat) : Keeps s₀ (State.modeChanged s c was) := by
  unfold State.modeChanged
  repeat' first
    | with_reducible assumption
    | extract_lets
    | with_reducible apply Keeps.ite
    | with_reducible apply State.modCmp_keeps

theorem State.settled_keeps {s₀ s : State} (h : Keeps s₀ s) : Keeps s₀ (State.settled s) := by
  unfold State.settled
  repeat' first
    | with_reducible assumption
    | extract_lets
    | with_reducible apply State.modCmp_keeps
    | with_reducible apply State.cmpFollow_keeps
    | (with_reducible refine State.each_keeps ?_ _ _ (fun _ _ _ => ?_))

theorem State.inselChanged_keeps {s₀ s : State} (h : Keeps s₀ s) (c : Fin 48) (gain : Rat) : Keeps s₀ (State.inselChanged s c gain) := by
  unfold State.inselChanged
  repeat' first
    | with_reducible assumption
    | extract_lets
    | with_reducible apply Keeps.ite
    | with_reducible apply State.cmpForget_keeps
    | with_reducible apply State.cmpInput_keeps

theorem State.scanStep_keeps {s₀ s : State} (h : Keeps s₀ s) (x : Fin 2) (i : Fin 36) : Keeps s₀ (State.scanStep s x i) := by
  unfold State.scanStep
  repeat' first
    | with_reducible assumption
    | extract_lets
    | with_reducible apply Keeps.ite
    | with_reducible apply State.modAdc_keeps

theorem State.openWindow_keeps {s₀ s : State} (h : Keeps s₀ s) (from_ till : Rat) : Keeps s₀ (State.openWindow s from_ till) := by
  unfold State.openWindow
  repeat' first
    | with_reducible assumption
    | extract_lets
    | with_reducible apply State.modAdc_keeps
    | (with_reducible refine State.each_keeps ?_ _ _ (fun _ _ _ => ?_))

theorem State.shutWindow_keeps {s₀ s : State} (h : Keeps s₀ s) (from_ : Rat) : Keeps s₀ (State.shutWindow s from_) := by
  unfold State.shutWindow
  repeat' first
    | with_reducible assumption
    | extract_lets
    | with_reducible apply State.modAdc_keeps
    | (with_reducible refine State.each_keeps ?_ _ _ (fun _ _ _ => ?_))

theorem State.convert_keeps {s₀ s : State} (h : Keeps s₀ s) (x : Fin 2) (e : Entry) (res : Nat) (inp : AdcIn) (t : Rat) : Keeps s₀ (State.convert s x e res inp t).2.2.2 := by
  unfold State.convert
  repeat' first
    | with_reducible assumption
    | extract_lets
    | with_reducible apply Keeps.ite
    | with_reducible apply State.setWord_keeps
    | with_reducible apply State.count_keeps
    | with_reducible apply State.evt_keeps
    | with_reducible apply State.nodeSeen_keeps
    | with_reducible apply State.openWindow_keeps

theorem State.owner_keeps {s₀ s : State} (h : Keeps s₀ s) (x : Fin 2) (ch : Nat) (q : Nat) : Keeps s₀ (State.owner s x ch q).2 := by
  unfold State.owner
  repeat' first
    | with_reducible assumption
    | extract_lets
    | with_reducible apply Keeps.ite
    | with_reducible apply State.modAdc_keeps
    | with_reducible apply State.evt_keeps
    | dsimp only
    | split

theorem State.tempSample_keeps {s₀ s : State} (h : Keeps s₀ s) (k : Fin 2) : Keeps s₀ (State.tempSample s k) := by
  unfold State.tempSample
  repeat' first
    | with_reducible assumption
    | extract_lets
    | with_reducible apply Keeps.ite
    | with_reducible apply State.modChg_keeps
    | with_reducible apply State.modPk_keeps

theorem State.thermistor_keeps {s₀ s : State} (h : Keeps s₀ s) (k : Fin 2) (second : Bool) (code : Nat) : Keeps s₀ (State.thermistor s k second code) := by
  unfold State.thermistor
  repeat' first
    | with_reducible assumption
    | extract_lets
    | with_reducible apply Keeps.ite
    | with_reducible apply State.setFld_keeps
    | with_reducible apply State.setOn_keeps
    | with_reducible apply State.setSfld_keeps
    | with_reducible apply State.modPk_keeps
    | with_reducible apply State.evt_keeps
    | with_reducible apply State.syncPack_keeps
    | with_reducible apply State.syncElig_keeps
    | with_reducible apply State.gustLoss_keeps
    | with_reducible apply State.tempSample_keeps
    | split
    | with_reducible refine Keeps.mk_same ?_ rfl rfl rfl

theorem State.sealOpened_keeps {s₀ s : State} (h : Keeps s₀ s) (wiped : Bool) : Keeps s₀ (State.sealOpened s wiped) := by
  unfold State.sealOpened
  repeat' first
    | with_reducible assumption
    | extract_lets
    | with_reducible apply Keeps.ite
    | with_reducible apply State.setOn_keeps
    | with_reducible apply State.count_keeps
    | with_reducible apply State.evt_keeps
    | with_reducible apply State.fault_keeps
    | with_reducible apply State.journal_keeps
    | with_reducible apply State.wipe_keeps

theorem State.sealReading_keeps {s₀ s : State} (h : Keeps s₀ s) (r : Nat) : Keeps s₀ (State.sealReading s r) := by
  unfold State.sealReading
  repeat' first
    | with_reducible assumption
    | extract_lets
    | with_reducible apply Keeps.ite
    | with_reducible apply State.setFld_keeps
    | with_reducible apply State.setOn_keeps
    | with_reducible apply State.sealOpened_keeps
    | split
    | with_reducible refine Keeps.mk_same ?_ rfl rfl rfl

theorem State.measure_keeps {s₀ s : State} (h : Keeps s₀ s) (ch : Nat) (v : Rat) (use : Bool) : Keeps s₀ (State.measure s ch v use) := by
  unfold State.measure
  repeat' first
    | with_reducible assumption
    | extract_lets
    | with_reducible apply Keeps.ite
    | split
    | with_reducible refine Keeps.mk_same ?_ rfl rfl rfl

theorem State.served_keeps {s₀ s : State} (h : Keeps s₀ s) (x : Fin 2) (e : Entry) (q code : Nat) (v : Rat) : Keeps s₀ (State.served s x e q code v) := by
  unfold State.served
  repeat' first
    | with_reducible assumption
    | extract_lets
    | with_reducible apply Keeps.ite
    | with_reducible apply State.modFeed_keeps
    | with_reducible apply State.packSample_keeps
    | with_reducible apply State.chgSample_keeps
    | with_reducible apply State.busSample_keeps
    | with_reducible apply State.owner_keeps
    | with_reducible apply State.thermistor_keeps
    | with_reducible apply State.sealReading_keeps
    | with_reducible apply State.measure_keeps
    | (with_reducible refine Keeps.of_snd (by assumption) ?_)
    | split
    | with_reducible refine Keeps.mk_same ?_ rfl rfl rfl

theorem State.untake_keeps {s₀ s : State} (h : Keeps s₀ s) (x : Fin 2) (e : Entry) (k : Taken) : Keeps s₀ (State.untake s x e k) := by
  unfold State.untake
  repeat' first
    | with_reducible assumption
    | extract_lets
    | with_reducible apply Keeps.ite
    | with_reducible apply State.modFeed_keeps
    | with_reducible apply State.modAdc_keeps
    | split
    | with_reducible refine Keeps.mk_same ?_ rfl rfl rfl

theorem State.convertEntry_keeps {s₀ s : State} (h : Keeps s₀ s) (x : Fin 2) (i : Fin 32) (e : Entry) (inp : AdcIn) (t : Rat) (serve : Bool) : Keeps s₀ (State.convertEntry s x i e inp t serve).2 := by
  unfold State.convertEntry
  repeat' first
    | with_reducible assumption
    | extract_lets
    | with_reducible apply Keeps.ite
    | with_reducible apply State.setFld_keeps
    | with_reducible apply State.modAdc_keeps
    | with_reducible apply State.convert_keeps
    | with_reducible apply State.served_keeps

theorem State.runEntry_keeps {s₀ s : State} (h : Keeps s₀ s) (x : Fin 2) (i : Fin 32) (inp : AdcIn) (t : Rat) : Keeps s₀ (State.runEntry s x i inp t).2 := by
  unfold State.runEntry
  repeat' first
    | with_reducible assumption
    | extract_lets
    | with_reducible apply State.modAdc_keeps
    | with_reducible apply State.scanStep_keeps
    | with_reducible apply State.convertEntry_keeps

theorem State.adcTick_keeps {s₀ s : State} (h : Keeps s₀ s) (x : Fin 2) (inp : AdcIn) (t : Rat) :
    Keeps s₀ (State.adcTick s x inp t) := by
  have run : ∀ (l : List (Fin 32)) (p : Rat × State), Keeps s₀ p.2 →
      Keeps s₀ (l.foldl (fun (p : Rat × State) e => p.2.runEntry x e inp p.1) p).2 := by
    intro l
    induction l with
    | nil => exact fun _ hp => hp
    | cons e l ih => exact fun p hp => ih _ (State.runEntry_keeps hp _ _ _ _)
  unfold State.adcTick
  extract_lets a late start pass s1 s2 ready l
  split
  · exact h
  · split
    · exact State.evt_keeps (State.count_keeps h _) _
    · have e2 : Keeps s₀ s2 := State.modAdc_keeps (State.setFld_keeps h _ _) _ _
      exact State.sourceEdge_keeps (State.modAdc_keeps (run l (start, s2) e2) _ _) _

theorem State.discardRun_keeps {s₀ s : State} (h : Keeps s₀ s) (x : Fin 2) (t : Rat) (r : AdcRun) : Keeps s₀ (State.discardRun s x t r) := by
  unfold State.discardRun
  repeat' first
    | with_reducible assumption
    | extract_lets
    | with_reducible apply Keeps.ite
    | with_reducible apply State.setWord_keeps
    | with_reducible apply State.setFld_keeps
    | with_reducible apply State.shutWindow_keeps
    | with_reducible apply State.untake_keeps
    | split

theorem State.resume_keeps {s₀ s : State} (h : Keeps s₀ s) (x : Fin 2) (inp : AdcIn) (t at_ : Rat) : Keeps s₀ (State.resume s x inp t at_) := by
  have run : ∀ (l : List AdcRun) (p : Rat × State), Keeps s₀ p.2 →
      Keeps s₀ (l.foldl (fun (p : Rat × State) r =>
        p.2.convertEntry x r.i r.e inp p.1 (decide (r.i.val < 16) && r.was.isSome)) p).2 := by
    intro l
    induction l with
    | nil => exact fun _ hp => hp
    | cons e l ih => exact fun p hp => ih _ (State.convertEntry_keeps hp _ _ _ _ _ _)
  unfold State.resume
  extract_lets l s1 s2
  have e1 : Keeps s₀ s1 := State.each_keeps h _ _ (fun _ _ ht => State.discardRun_keeps ht _ _ _)
  have e2 : Keeps s₀ s2 := State.modAdc_keeps e1 _ _
  exact State.modAdc_keeps (run l (at_, s2) e2) _ _

theorem State.inject_keeps {s₀ s : State} (h : Keeps s₀ s) (x : Fin 2) (k : Fin 4) (e : Entry) (inp : AdcIn) (t : Rat) :
    Keeps s₀ (State.inject s x k e inp t).2.2 := by
  unfold State.inject
  extract_lets a dev cut start flying s1 s2
  clear_value cut start flying
  have e1 : Keeps s₀ s1 := Keeps.ite (State.count_keeps h _) h
  have e2 : Keeps s₀ s2 := by
    unfold s2
    split
    · exact Keeps.ite (State.shutWindow_keeps e1 _) e1
    · exact e1
  split
  next q w v s3 hq =>
    have e3 : Keeps s₀ s3 := Keeps.of_snd3 hq (State.convert_keeps e2 _ _ _ _ _)
    extract_lets
    rename_i stop s4 s5 s6
    have e5 : Keeps s₀ s5 := State.modAdc_keeps (State.scanStep_keeps e3 _ _) _ _
    have e6 : Keeps s₀ s6 := by
      unfold s6
      split
      · exact State.modAdc_keeps (State.convert_keeps e5 _ _ _ _ _) _ _
      · exact e5
    exact State.resume_keeps e6 _ _ _ _

theorem State.injectAmp_keeps {s₀ s : State} (h : Keeps s₀ s) (k : Fin 2) (e : Entry) (inp : AdcIn) (t : Rat) : Keeps s₀ (State.injectAmp s k e inp t) := by
  unfold State.injectAmp
  repeat' first
    | with_reducible assumption
    | extract_lets
    | with_reducible apply Keeps.ite
    | with_reducible apply State.modPhp_keeps
    | with_reducible apply State.ampSample_keeps
    | with_reducible apply State.owner_keeps
    | with_reducible apply State.inject_keeps
    | (with_reducible refine Keeps.of_snd (by assumption) ?_)
    | (with_reducible refine Keeps.of_snd2 (by assumption) ?_)
    | split

theorem State.injectPack_keeps {s₀ s : State} (h : Keeps s₀ s) (k : Fin 2) (e : Entry) (inp : AdcIn) (pair : Int) (t : Rat) : Keeps s₀ (State.injectPack s k e inp pair t) := by
  unfold State.injectPack
  repeat' first
    | with_reducible assumption
    | extract_lets
    | with_reducible apply State.lockIn_keeps
    | with_reducible apply State.inject_keeps
    | (with_reducible refine Keeps.of_snd2 (by assumption) ?_)
    | split

theorem State.trigger_keeps {s₀ s : State} (h : Keeps s₀ s) (n : Fin 8) : Keeps s₀ (State.trigger s n) := by
  unfold State.trigger
  repeat' first
    | with_reducible assumption
    | extract_lets
    | with_reducible apply Keeps.ite
    | with_reducible apply State.count_keeps
    | with_reducible apply State.modAdc_keeps
    | with_reducible apply State.evt_keeps
    | with_reducible apply State.sourceEdge_keeps
    | (with_reducible refine State.each_keeps ?_ _ _ (fun _ _ _ => ?_))

theorem State.disarm_keeps {s₀ s : State} (h : Keeps s₀ s) (x : Fin 2) (e : Nat) : Keeps s₀ (State.disarm s x e) := by
  unfold State.disarm
  repeat' first
    | with_reducible assumption
    | extract_lets
    | with_reducible apply Keeps.ite
    | with_reducible apply State.modAdc_keeps

theorem State.refFall_keeps {s₀ s : State} (h : Keeps s₀ s) (x : Fin 2) : Keeps s₀ (State.refFall s x) := by
  unfold State.refFall
  repeat' first
    | with_reducible assumption
    | extract_lets
    | with_reducible apply State.setFld_keeps
    | with_reducible apply State.setOn_keeps
    | with_reducible apply State.evt_keeps
    | with_reducible apply State.fault_keeps

theorem State.noRef_keeps {s₀ s : State} (h : Keeps s₀ s) (x : Fin 2) : Keeps s₀ (State.noRef s x) := by
  unfold State.noRef
  repeat' first
    | with_reducible assumption
    | extract_lets
    | with_reducible apply Keeps.ite
    | with_reducible apply State.setFld_keeps
    | with_reducible apply State.served_keeps
    | with_reducible apply State.untake_keeps
    | split

theorem State.refSelect_keeps {s₀ s : State} (h : Keeps s₀ s) (x : Fin 2) : Keeps s₀ (State.refSelect s x) := by
  unfold State.refSelect
  repeat' first
    | with_reducible assumption
    | extract_lets
    | with_reducible apply State.setFld_keeps
    | with_reducible apply State.setOn_keeps

end Sys2Proof.Machine
end

