-- ==== Sys2Proof/Laws/KeepsTimer.lean ====
section
/-! SUPPORT. What each operation of Machine/Timer.lean may do to the queue, the soundness of the state and the fuses. -/

namespace Sys2Proof.Machine

theorem State.setBlk_keeps {s₀ s : State} (h : Keeps s₀ s) (n : Fin 8) (b : Bool) : Keeps s₀ (State.setBlk s n b) := by
  unfold State.setBlk
  repeat' first
    | with_reducible assumption
    | extract_lets
    | with_reducible apply Keeps.ite
    | with_reducible apply State.modTmr_keeps
    | with_reducible apply State.blankBy_keeps

theorem State.tmrRise_keeps {s₀ s : State} (h : Keeps s₀ s) (n : Fin 8) : Keeps s₀ (State.tmrRise s n) := by
  unfold State.tmrRise
  repeat' first
    | with_reducible assumption
    | extract_lets
    | with_reducible apply Keeps.ite
    | with_reducible apply State.modTmr_keeps
    | with_reducible apply State.trigger_keeps

theorem State.tmrStep_keeps {s₀ s : State} (h : Keeps s₀ s) (n : Fin 8) : Keeps s₀ (State.tmrStep s n) := by
  unfold State.tmrStep
  repeat' first
    | with_reducible assumption
    | extract_lets
    | with_reducible apply Keeps.ite
    | with_reducible apply State.setFld_keeps
    | with_reducible apply State.setOn_keeps
    | with_reducible apply State.modTmr_keeps
    | with_reducible apply State.setFlags_keeps
    | with_reducible apply State.trigger_keeps
    | with_reducible apply State.setBlk_keeps
    | (with_reducible refine State.each_keeps ?_ _ _ (fun _ _ _ => ?_))

theorem State.ccrRead_keeps {s₀ s : State} (h : Keeps s₀ s) (n : Fin 8) (c : Fin 4) : Keeps s₀ (State.ccrRead s n c).2 := by
  unfold State.ccrRead
  repeat' first
    | with_reducible assumption
    | extract_lets
    | with_reducible apply Keeps.ite
    | with_reducible apply State.modTmr_keeps
    | dsimp only
    | split

theorem State.cntWrite_keeps {s₀ s : State} (h : Keeps s₀ s) (n : Fin 8) (v : Word) : Keeps s₀ (State.cntWrite s n v) := by
  unfold State.cntWrite
  repeat' first
    | with_reducible assumption
    | extract_lets
    | with_reducible apply State.setWord_keeps
    | with_reducible apply State.modTmr_keeps

theorem State.ccrWrite_keeps {s₀ s : State} (h : Keeps s₀ s) (n : Fin 8) (c : Fin 4) (v : Word) : Keeps s₀ (State.ccrWrite s n c v) := by
  unfold State.ccrWrite
  repeat' first
    | with_reducible assumption
    | extract_lets
    | with_reducible apply Keeps.ite
    | with_reducible apply State.setWord_keeps
    | with_reducible apply State.setFlags_keeps

theorem State.ctlWritten_keeps {s₀ s : State} (h : Keeps s₀ s) (n : Fin 8) (was : Bool) : Keeps s₀ (State.ctlWritten s n was) := by
  unfold State.ctlWritten
  repeat' first
    | with_reducible assumption
    | extract_lets
    | with_reducible apply Keeps.ite
    | with_reducible apply State.setBlk_keeps
    | with_reducible apply State.tmrRise_keeps

theorem State.timeWrap_keeps {s₀ s : State} (h : Keeps s₀ s) : Keeps s₀ (State.timeWrap s) := by
  unfold State.timeWrap
  repeat' first
    | with_reducible assumption
    | extract_lets
    | with_reducible apply State.count_keeps
    | with_reducible apply State.jevent_keeps
    | split
    | with_reducible refine Keeps.mk_same ?_ rfl rfl rfl

theorem State.timeTick_keeps {s₀ s : State} (h : Keeps s₀ s) : Keeps s₀ (State.timeTick s) := by
  unfold State.timeTick
  repeat' first
    | with_reducible assumption
    | extract_lets
    | with_reducible apply Keeps.ite
    | with_reducible apply State.settled_keeps
    | with_reducible apply State.timeWrap_keeps
    | split
    | with_reducible refine Keeps.mk_same ?_ rfl rfl rfl

end Sys2Proof.Machine
end

