-- ==== Sys2Proof/Laws/KeepsRings.lean ====
section
/-! SUPPORT. What each operation of Machine/Rings.lean may do to the queue, the soundness of the state and the fuses. -/

namespace Sys2Proof.Machine

theorem State.dropTaken_keeps {s₀ s : State} (h : Keeps s₀ s) (n : Fin 64) : Keeps s₀ (State.dropTaken s n) := by
  unfold State.dropTaken
  repeat' first
    | with_reducible assumption
    | extract_lets
    | with_reducible apply Keeps.ite
    | with_reducible apply State.modRing_keeps
    | split
    | with_reducible refine Keeps.mk_same ?_ rfl rfl rfl

theorem State.noPost_keeps {s₀ s : State} (h : Keeps s₀ s) (n : Fin 64) : Keeps s₀ (State.noPost s n) := by
  unfold State.noPost
  repeat' first
    | with_reducible assumption
    | extract_lets
    | with_reducible apply Keeps.ite
    | with_reducible apply State.modRing_keeps
    | split
    | with_reducible refine Keeps.mk_same ?_ rfl rfl rfl

theorem State.haltRing_keeps {s₀ s : State} (h : Keeps s₀ s) (n : Fin 64) (err : Nat) : Keeps s₀ (State.haltRing s n err) := by
  unfold State.haltRing
  repeat' first
    | with_reducible assumption
    | extract_lets
    | with_reducible apply State.setFld_keeps
    | with_reducible apply State.dropTaken_keeps
    | with_reducible apply State.noPost_keeps

theorem State.consumeRuns_keeps (n : Fin 64) (fuel : Nat) {s₀ s : State} (h : Keeps s₀ s) :
    Keeps s₀ (State.consumeRuns n fuel s) := by
  induction fuel generalizing s with
  | zero => exact h
  | succ m ih =>
    unfold State.consumeRuns
    extract_lets idx head have_
    split
    split
    · exact h
    · exact ih (State.modRing_keeps (State.setFld_keeps h _ _) _ _)

theorem State.consume_keeps {s₀ s : State} (h : Keeps s₀ s) (n : Fin 64) : Keeps s₀ (State.consume s n) := by
  unfold State.consume
  repeat' first
    | with_reducible assumption
    | extract_lets
    | with_reducible apply State.flush_keeps
    | with_reducible apply State.consumeRuns_keeps

theorem State.startFetch_keeps {s₀ s : State} (h : Keeps s₀ s) (n : Fin 64) : Keeps s₀ (State.startFetch s n) := by
  unfold State.startFetch
  repeat' first
    | with_reducible assumption
    | extract_lets
    | with_reducible apply Keeps.ite
    | with_reducible apply State.modRing_keeps

theorem State.startFetches_keeps {s₀ s : State} (h : Keeps s₀ s) : Keeps s₀ (State.startFetches s) := by
  unfold State.startFetches
  repeat' first
    | with_reducible assumption
    | extract_lets
    | with_reducible apply State.startFetch_keeps
    | (with_reducible refine State.each_keeps ?_ _ _ (fun _ _ _ => ?_))

theorem State.latchHalf_keeps {s₀ s : State} (h : Keeps s₀ s) (n : Fin 64) (i : Nat) (newly : List Nat) : Keeps s₀ (State.latchHalf s n i newly) := by
  unfold State.latchHalf
  repeat' first
    | with_reducible assumption
    | extract_lets
    | with_reducible apply Keeps.ite
    | with_reducible apply State.count_keeps
    | with_reducible apply State.modRing_keeps

theorem State.freshRing_keeps {s₀ s : State} (h : Keeps s₀ s) (n : Fin 64) : Keeps s₀ (State.freshRing s n) := by
  unfold State.freshRing
  repeat' first
    | with_reducible assumption
    | extract_lets
    | with_reducible apply Keeps.ite
    | with_reducible apply State.modRing_keeps
    | split
    | with_reducible refine Keeps.mk_same ?_ rfl rfl rfl

theorem State.dropUnsolicited_keeps {s₀ s : State} (h : Keeps s₀ s) (n : Fin 64) : Keeps s₀ (State.dropUnsolicited s n) := by
  unfold State.dropUnsolicited
  repeat' first
    | with_reducible assumption
    | extract_lets
    | with_reducible apply State.modRing_keeps

theorem State.enChanged_keeps {s₀ s : State} (h : Keeps s₀ s) (n : Fin 64) (was : Bool) : Keeps s₀ (State.enChanged s n was) := by
  unfold State.enChanged
  repeat' first
    | with_reducible assumption
    | extract_lets
    | with_reducible apply Keeps.ite
    | with_reducible apply State.setWord_keeps
    | with_reducible apply State.setFld_keeps
    | with_reducible apply State.modFc_keeps
    | with_reducible apply State.dropTaken_keeps
    | with_reducible apply State.noPost_keeps
    | with_reducible apply State.freshRing_keeps
    | with_reducible apply State.dropUnsolicited_keeps
    | split
    | with_reducible refine Keeps.mk_same ?_ rfl rfl rfl

theorem State.ringMessage_keeps {s₀ s : State} (h : Keeps s₀ s) (n : Fin 64) : Keeps s₀ (State.ringMessage s n) := by
  unfold State.ringMessage
  repeat' first
    | with_reducible assumption
    | extract_lets
    | with_reducible apply State.modRing_keeps
    | with_reducible apply State.msix_keeps

theorem State.countEntry_keeps {s₀ s : State} (h : Keeps s₀ s) (n : Fin 64) (c : Compl) : Keeps s₀ (State.countEntry s n c) := by
  unfold State.countEntry
  repeat' first
    | with_reducible assumption
    | extract_lets
    | with_reducible apply Keeps.ite
    | with_reducible apply State.modRing_keeps
    | with_reducible apply State.ringMessage_keeps

theorem State.drainRelease_keeps {s₀ s : State} (h : Keeps s₀ s) (c : Compl) : Keeps s₀ (State.drainRelease s c) := by
  unfold State.drainRelease
  repeat' first
    | with_reducible assumption
    | extract_lets
    | with_reducible apply Keeps.ite
    | with_reducible apply State.count_keeps
    | with_reducible apply State.release_keeps
    | split
    | with_reducible refine Keeps.mk_same ?_ rfl rfl rfl

theorem State.postOne_keeps {s₀ s : State} (h : Keeps s₀ s) (n : Fin 64) : Keeps s₀ (State.postOne s n) := by
  unfold State.postOne
  repeat' first
    | with_reducible assumption
    | extract_lets
    | with_reducible apply Keeps.ite
    | with_reducible apply State.setFld_keeps
    | with_reducible apply State.setOn_keeps
    | with_reducible apply State.count_keeps
    | with_reducible apply State.modRing_keeps
    | with_reducible apply State.send_keeps
    | with_reducible apply State.countEntry_keeps
    | with_reducible apply State.drainRelease_keeps
    | split

theorem State.firePending_keeps {s₀ s : State} (h : Keeps s₀ s) (v : Fin 64) : Keeps s₀ (State.firePending s v) := by
  unfold State.firePending
  repeat' first
    | with_reducible assumption
    | extract_lets
    | with_reducible apply Keeps.ite
    | with_reducible apply State.setWord_keeps
    | with_reducible apply State.msix_keeps

theorem State.resetRange_keeps {s₀ s : State} (h : Keeps s₀ s) (lo hi : Nat) : Keeps s₀ (State.resetRange s lo hi) :=
  Keeps.of_regs h rfl (fun hr => RegFile.wf_foldl _ (fun _ _ hr => RegFile.wf_set _ _ hr) _ (RegFile.wf_filter _ hr).1) rfl rfl rfl

theorem State.hifReset_keeps {s₀ s : State} (h : Keeps s₀ s) : Keeps s₀ (State.hifReset s) := by
  unfold State.hifReset
  repeat' first
    | with_reducible assumption
    | extract_lets
    | with_reducible apply Keeps.ite
    | with_reducible apply State.resetRange_keeps
    | split
    | with_reducible refine Keeps.mk_same ?_ rfl rfl rfl

theorem State.linkLost_keeps {s₀ s : State} (h : Keeps s₀ s) : Keeps s₀ (State.linkLost s) := by
  unfold State.linkLost
  repeat' first
    | with_reducible assumption
    | extract_lets
    | with_reducible apply Keeps.ite
    | with_reducible apply State.setOn_keeps
    | with_reducible apply State.modChg_keeps
    | with_reducible apply State.endAll_keeps
    | with_reducible apply State.endTest_keeps
    | with_reducible apply State.hifReset_keeps
    | (with_reducible refine State.each_keeps ?_ _ _ (fun _ _ _ => ?_))
    | split
    | with_reducible refine Keeps.mk_same ?_ rfl rfl rfl

theorem State.linkDown_keeps {s₀ s : State} (h : Keeps s₀ s) : Keeps s₀ (State.linkDown s) := by
  unfold State.linkDown
  repeat' first
    | with_reducible assumption
    | extract_lets
    | with_reducible apply Keeps.ite
    | with_reducible apply State.setFld_keeps
    | with_reducible apply State.setOn_keeps
    | with_reducible apply State.count_keeps
    | with_reducible apply State.linkLost_keeps
    | split
    | with_reducible refine Keeps.mk_same ?_ rfl rfl rfl

end Sys2Proof.Machine
end

