-- ==== Sys2Proof/Laws/KeepsMemory.lean ====
section
/-! SUPPORT. What each operation of Machine/Memory.lean may do to the queue, the soundness of the state and the fuses. -/

namespace Sys2Proof.Machine

theorem State.loseAccount_keeps {s₀ s : State} (h : Keeps s₀ s) (l : GtLine) : Keeps s₀ (State.loseAccount s l) := by
  unfold State.loseAccount
  repeat' first
    | with_reducible assumption
    | extract_lets
    | with_reducible apply Keeps.ite
    | with_reducible apply State.count_keeps
    | with_reducible apply State.evt_keeps

theorem State.memLoss_keeps {s₀ s : State} (h : Keeps s₀ s) (l : MemLoss) : Keeps s₀ (State.memLoss s l).1 := by
  unfold State.memLoss
  repeat' first
    | with_reducible assumption
    | extract_lets
    | with_reducible apply Keeps.ite
    | with_reducible apply State.syncThr_keeps
    | with_reducible apply State.modFc_keeps
    | with_reducible apply State.syncLive_keeps
    | with_reducible apply State.dropLine_keeps
    | with_reducible apply State.endGrant_keeps
    | with_reducible apply State.wipe_keeps
    | with_reducible apply State.blank_keeps
    | with_reducible apply State.haltRing_keeps
    | with_reducible apply State.loseAccount_keeps
    | (with_reducible refine State.each_keeps ?_ _ _ (fun _ _ _ => ?_))
    | exact Keeps.of_entries h rfl rfl rfl rfl (fun hl => by simpa using hl)
    | dsimp only
    | split

theorem State.memCe_keeps {s₀ s : State} (h : Keeps s₀ s) (b : Fin 5) (x : MemAcc) (a : Nat) : Keeps s₀ (State.memCe s b x a) := by
  unfold State.memCe
  repeat' first
    | with_reducible assumption
    | extract_lets
    | with_reducible apply State.count_keeps
    | with_reducible apply State.setFlags_keeps
    | with_reducible apply State.event_keeps

theorem State.memUe_keeps {s₀ s : State} (h : Keeps s₀ s) (l : MemLoss) (x : MemAcc) (a : Nat) : Keeps s₀ (State.memUe s l x a) := by
  unfold State.memUe
  repeat' first
    | with_reducible assumption
    | extract_lets
    | with_reducible apply Keeps.ite
    | with_reducible apply State.setWord_keeps
    | with_reducible apply State.count_keeps
    | with_reducible apply State.setFlags_keeps
    | with_reducible apply State.event_keeps
    | with_reducible apply State.fault_keeps
    | with_reducible apply State.memLoss_keeps

end Sys2Proof.Machine
end

