-- ==== Sys2Proof/Laws/KeepsMeasure.lean ====
section
/-! SUPPORT. What each operation of Machine/Measure.lean may do to the queue, the soundness of the state and the fuses. -/

namespace Sys2Proof.Machine

theorem State.bootSeal_keeps {s₀ s : State} (h : Keeps s₀ s) (r : RefMeas) : Keeps s₀ (State.bootSeal s r) := by
  unfold State.bootSeal
  repeat' first
    | with_reducible assumption
    | extract_lets
    | with_reducible apply Keeps.ite
    | with_reducible apply State.setFld_keeps
    | with_reducible apply State.setOn_keeps
    | with_reducible apply State.journal_keeps
    | with_reducible apply State.loadB4_keeps
    | with_reducible apply State.sealOpened_keeps
    | split
    | with_reducible refine Keeps.mk_same ?_ rfl rfl rfl

theorem State.setRefs_keeps {s₀ s : State} (h : Keeps s₀ s) (m : RefMeas) : Keeps s₀ (State.setRefs s m) := by
  unfold State.setRefs
  repeat' first
    | with_reducible assumption
    | extract_lets
    | with_reducible apply Keeps.ite
    | with_reducible apply State.setOn_keeps
    | with_reducible apply State.refSelect_keeps
    | (with_reducible refine State.each_keeps ?_ _ _ (fun _ _ _ => ?_))

theorem State.phcntAgain_keeps {s₀ s : State} (h : Keeps s₀ s) (v : Vector Rat 8) : Keeps s₀ (State.phcntAgain s v) := by
  unfold State.phcntAgain
  repeat' first
    | with_reducible assumption
    | extract_lets
    | with_reducible apply Keeps.ite
    | with_reducible apply State.setFld_keeps
    | with_reducible apply State.setOn_keeps

end Sys2Proof.Machine
end

