-- ==== Sys2Proof/Laws/KeepsTwPort.lean ====
section
/-! SUPPORT. What each operation of Machine/TwPort.lean may do to the queue, the soundness of the state and the fuses. -/

namespace Sys2Proof.Machine

theorem State.setLines_keeps {s₀ s : State} (h : Keeps s₀ s) (p : Fin 3) (scl sda : Bool) : Keeps s₀ (State.setLines s p scl sda) := by
  unfold State.setLines
  repeat' first
    | with_reducible assumption
    | extract_lets
    | with_reducible apply Keeps.ite
    | with_reducible apply State.setOn_keeps

theorem State.setBusy_keeps {s₀ s : State} (h : Keeps s₀ s) (p : Fin 3) (b : Bool) : Keeps s₀ (State.setBusy s p b) := by
  unfold State.setBusy
  repeat' first
    | with_reducible assumption
    | extract_lets
    | with_reducible apply Keeps.ite
    | with_reducible apply State.setOn_keeps
    | with_reducible apply State.modTw_keeps
    | with_reducible apply State.setLines_keeps

theorem State.twAbandon_keeps {s₀ s : State} (h : Keeps s₀ s) (p : Fin 3) : Keeps s₀ (State.twAbandon s p) := by
  unfold State.twAbandon
  repeat' first
    | with_reducible assumption
    | extract_lets
    | with_reducible apply Keeps.ite
    | with_reducible apply State.setFld_keeps
    | with_reducible apply State.modTw_keeps

theorem State.twCount_keeps {s₀ s : State} (h : Keeps s₀ s) (p : Fin 3) : Keeps s₀ (State.twCount s p) := by
  unfold State.twCount
  repeat' first
    | with_reducible assumption
    | extract_lets
    | with_reducible apply Keeps.ite
    | with_reducible apply State.count_keeps

theorem State.txFailed_keeps {s₀ s : State} (h : Keeps s₀ s) (k : Fin 2) : Keeps s₀ (State.txFailed s k) := by
  unfold State.txFailed
  repeat' first
    | with_reducible assumption
    | extract_lets
    | with_reducible apply Keeps.ite
    | with_reducible apply State.setOn_keeps
    | with_reducible apply State.count_keeps
    | with_reducible apply State.modPk_keeps

theorem State.twLost_keeps {s₀ s : State} (h : Keeps s₀ s) (p : Fin 3) : Keeps s₀ (State.twLost s p) := by
  unfold State.twLost
  repeat' first
    | with_reducible assumption
    | extract_lets
    | with_reducible apply Keeps.ite
    | with_reducible apply State.count_keeps
    | with_reducible apply State.modTw_keeps
    | with_reducible apply State.txFailed_keeps

theorem State.twStray_keeps {s₀ s : State} (h : Keeps s₀ s) (p : Fin 3) : Keeps s₀ (State.twStray s p) := by
  unfold State.twStray
  repeat' first
    | with_reducible assumption
    | extract_lets
    | with_reducible apply Keeps.ite
    | with_reducible apply State.modTw_keeps
    | with_reducible apply State.free_keeps
    | with_reducible apply State.setLines_keeps
    | with_reducible apply State.setBusy_keeps

theorem State.twTimeout_keeps {s₀ s : State} (h : Keeps s₀ s) (p : Fin 3) (sda : Bool) : Keeps s₀ (State.twTimeout s p sda) := by
  unfold State.twTimeout
  repeat' first
    | with_reducible assumption
    | extract_lets
    | with_reducible apply Keeps.ite
    | with_reducible apply State.modTw_keeps
    | with_reducible apply State.setFlags_keeps
    | with_reducible apply State.fault_keeps
    | with_reducible apply State.setLines_keeps
    | with_reducible apply State.twAbandon_keeps
    | with_reducible apply State.twCount_keeps

theorem State.sdaCheck_keeps {s₀ s : State} (h : Keeps s₀ s) (p : Fin 3) (c : SdaCheck) : Keeps s₀ (State.sdaCheck s p c) := by
  unfold State.sdaCheck
  repeat' first
    | with_reducible assumption
    | extract_lets
    | with_reducible apply Keeps.ite
    | with_reducible apply State.setOn_keeps
    | with_reducible apply State.modTw_keeps
    | with_reducible apply State.setFlags_keeps
    | with_reducible apply State.fault_keeps
    | with_reducible apply State.setLines_keeps
    | with_reducible apply State.setBusy_keeps
    | split

theorem State.busClr_keeps {s₀ s : State} (h : Keeps s₀ s) (p : Fin 3) : Keeps s₀ (State.busClr s p) := by
  unfold State.busClr
  repeat' first
    | with_reducible assumption
    | extract_lets
    | with_reducible apply Keeps.ite
    | with_reducible apply State.setOn_keeps
    | with_reducible apply State.modTw_keeps

theorem State.portReset_keeps {s₀ s : State} (h : Keeps s₀ s) (p : Fin 3) : Keeps s₀ (State.portReset s p) := by
  unfold State.portReset
  repeat' first
    | with_reducible assumption
    | extract_lets
    | with_reducible apply State.modTw_keeps
    | with_reducible apply State.setBusy_keeps
    | with_reducible apply State.twAbandon_keeps

end Sys2Proof.Machine
end

