-- ==== Sys2Proof/Laws/KeepsStartup.lean ====
section
/-! SUPPORT. What each operation of Machine/Startup.lean may do to the queue, the soundness of the state and the fuses. -/

namespace Sys2Proof.Machine

theorem State.bootFail_keeps {s₀ s : State} (h : Keeps s₀ s) (k code : Nat) : Keeps s₀ (State.bootFail s k code) := by
  unfold State.bootFail
  repeat' first
    | with_reducible assumption
    | extract_lets
    | with_reducible apply Keeps.ite
    | with_reducible apply State.setFld_keeps
    | with_reducible apply State.setFlags_keeps

theorem State.setStep_keeps {s₀ s : State} (h : Keeps s₀ s) (k : Nat) : Keeps s₀ (State.setStep s k) := by
  unfold State.setStep
  repeat' first
    | with_reducible assumption
    | extract_lets
    | with_reducible apply State.setFld_keeps

theorem State.strapFault_keeps {s₀ s : State} (h : Keeps s₀ s) : Keeps s₀ (State.strapFault s) := by
  unfold State.strapFault
  repeat' first
    | with_reducible assumption
    | extract_lets
    | with_reducible apply State.fault_keeps
    | with_reducible apply State.bootFail_keeps

theorem State.bootStraps_keeps {s₀ s : State} (h : Keeps s₀ s) (r : Boot) : Keeps s₀ (State.bootStraps s r) := by
  unfold State.bootStraps
  repeat' first
    | with_reducible assumption
    | extract_lets
    | with_reducible apply Keeps.ite
    | with_reducible apply State.setWord_keeps
    | with_reducible apply State.setFld_keeps
    | with_reducible apply State.journal_keeps
    | with_reducible apply State.linkDown_keeps
    | with_reducible apply State.setStep_keeps
    | with_reducible apply State.strapFault_keeps
    | (with_reducible refine State.each_keeps ?_ _ _ (fun _ _ _ => ?_))
    | split
    | with_reducible refine Keeps.mk_same ?_ rfl rfl rfl

theorem State.loadTrims_keeps {s₀ s : State} (h : Keeps s₀ s) (ok : Bool) : Keeps s₀ (State.loadTrims s ok) := by
  unfold State.loadTrims
  repeat' first
    | with_reducible assumption
    | extract_lets
    | with_reducible apply Keeps.ite
    | with_reducible apply State.setFld_keeps
    | (with_reducible refine State.each_keeps ?_ _ _ (fun _ _ _ => ?_))

theorem State.bootFuses_keeps {s₀ s : State} (h : Keeps s₀ s) (r : Boot) : Keeps s₀ (State.bootFuses s r) := by
  unfold State.bootFuses
  repeat' first
    | with_reducible assumption
    | extract_lets
    | with_reducible apply Keeps.ite
    | with_reducible apply State.setFld_keeps
    | with_reducible apply State.bootFail_keeps
    | with_reducible apply State.setStep_keeps
    | with_reducible apply State.loadTrims_keeps
    | (with_reducible refine State.each_keeps ?_ _ _ (fun _ _ _ => ?_))
    | split
    | with_reducible refine Keeps.mk_same ?_ rfl rfl rfl

theorem State.marchBank_keeps {s₀ s : State} (h : Keeps s₀ s) (b : Fin 5) (bad : Nat) : Keeps s₀ (State.marchBank s b bad) := by
  unfold State.marchBank
  repeat' first
    | with_reducible assumption
    | extract_lets
    | with_reducible apply State.setFld_keeps
    | with_reducible apply State.setOn_keeps

theorem State.bootSram_keeps {s₀ s : State} (h : Keeps s₀ s) (r : Boot) (cold : Bool) : Keeps s₀ (State.bootSram s r cold) := by
  unfold State.bootSram
  repeat' first
    | with_reducible assumption
    | extract_lets
    | with_reducible apply Keeps.ite
    | with_reducible apply State.setWord_keeps
    | with_reducible apply State.setFld_keeps
    | with_reducible apply State.setOn_keeps
    | with_reducible apply State.memCe_keeps
    | with_reducible apply State.memUe_keeps
    | with_reducible apply State.bootFail_keeps
    | with_reducible apply State.setStep_keeps
    | with_reducible apply State.marchBank_keeps
    | (with_reducible refine State.each_keeps ?_ _ _ (fun _ _ _ => ?_))
    | split
    | with_reducible refine Keeps.mk_same ?_ rfl rfl rfl

theorem State.bootLink_keeps {s₀ s : State} (h : Keeps s₀ s) (r : Boot) : Keeps s₀ (State.bootLink s r) := by
  unfold State.bootLink
  repeat' first
    | with_reducible assumption
    | extract_lets
    | with_reducible apply Keeps.ite
    | with_reducible apply State.modPh_keeps
    | with_reducible apply State.cmpSee_keeps
    | with_reducible apply State.bootFail_keeps
    | with_reducible apply State.setStep_keeps
    | (with_reducible refine State.each_keeps ?_ _ _ (fun _ _ _ => ?_))
    | split
    | with_reducible refine Keeps.mk_same ?_ rfl rfl rfl

theorem State.bootRefs_keeps {s₀ s : State} (h : Keeps s₀ s) (r : Boot) : Keeps s₀ (State.bootRefs s r) := by
  unfold State.bootRefs
  repeat' first
    | with_reducible assumption
    | extract_lets
    | with_reducible apply Keeps.ite
    | with_reducible apply State.modFeed_keeps
    | with_reducible apply State.bootSeal_keeps
    | with_reducible apply State.setRefs_keeps
    | with_reducible apply State.phcntAgain_keeps
    | with_reducible apply State.bootFail_keeps
    | with_reducible apply State.setStep_keeps
    | with_reducible apply State.strapFault_keeps
    | (with_reducible refine State.each_keeps ?_ _ _ (fun _ _ _ => ?_))

theorem State.bootLoop_keeps {s₀ s : State} (h : Keeps s₀ s) (r : Boot) : Keeps s₀ (State.bootLoop s r) := by
  unfold State.bootLoop
  repeat' first
    | with_reducible assumption
    | extract_lets
    | with_reducible apply Keeps.ite
    | with_reducible apply State.bootFail_keeps
    | with_reducible apply State.setStep_keeps

theorem State.bootFeeds_keeps {s₀ s : State} (h : Keeps s₀ s) (r : Boot) (up : Bool) : Keeps s₀ (State.bootFeeds s r up) := by
  unfold State.bootFeeds
  repeat' first
    | with_reducible assumption
    | extract_lets
    | with_reducible apply Keeps.ite
    | with_reducible apply State.modFeed_keeps
    | with_reducible apply State.setFeed_keeps
    | with_reducible apply State.setChk_keeps
    | with_reducible apply State.checkPassed_keeps
    | with_reducible apply State.checkFailed_keeps
    | with_reducible apply State.bootFail_keeps
    | with_reducible apply State.setStep_keeps
    | (with_reducible refine State.each_keeps ?_ _ _ (fun _ _ _ => ?_))

theorem State.bootLegs_keeps {s₀ s : State} (h : Keeps s₀ s) (r : Boot) : Keeps s₀ (State.bootLegs s r) := by
  unfold State.bootLegs
  repeat' first
    | with_reducible assumption
    | extract_lets
    | with_reducible apply Keeps.ite
    | with_reducible apply State.modPh_keeps
    | with_reducible apply State.setPh_keeps
    | with_reducible apply State.legs_keeps
    | with_reducible apply State.syncProbe_keeps
    | with_reducible apply State.probeLive_keeps
    | with_reducible apply State.bootFail_keeps
    | with_reducible apply State.setStep_keeps
    | (with_reducible refine State.each_keeps ?_ _ _ (fun _ _ _ => ?_))

theorem State.bootPacks_keeps {s₀ s : State} (h : Keeps s₀ s) (r : Boot) : Keeps s₀ (State.bootPacks s r) := by
  unfold State.bootPacks
  repeat' first
    | with_reducible assumption
    | extract_lets
    | with_reducible apply Keeps.ite
    | with_reducible apply State.inserted_keeps
    | with_reducible apply State.packLeft_keeps
    | with_reducible apply State.identDone_keeps
    | with_reducible apply State.sdaCheck_keeps
    | with_reducible apply State.bootFail_keeps
    | with_reducible apply State.setStep_keeps
    | (with_reducible refine State.each_keeps ?_ _ _ (fun _ _ _ => ?_))

theorem State.bootEnd_keeps {s₀ s : State} (h : Keeps s₀ s) : Keeps s₀ (State.bootEnd s) := by
  unfold State.bootEnd
  repeat' first
    | with_reducible assumption
    | extract_lets
    | with_reducible apply Keeps.ite
    | with_reducible apply State.setFld_keeps
    | with_reducible apply State.setOn_keeps
    | with_reducible apply State.jevent_keeps
    | with_reducible apply State.syncFeeds_keeps
    | with_reducible apply State.syncPorts_keeps
    | with_reducible apply State.syncThr_keeps
    | with_reducible apply State.syncElig_keeps
    | with_reducible apply State.chgWake_keeps
    | with_reducible apply State.feedsBack_keeps
    | with_reducible apply State.applySync_keeps
    | with_reducible apply State.setFeed_keeps
    | with_reducible apply State.settleGroup_keeps
    | with_reducible apply State.feedsHwOnly_keeps
    | with_reducible apply State.faultHeld_keeps
    | with_reducible apply State.faultRun_keeps
    | with_reducible apply State.setStep_keeps
    | (with_reducible refine State.each_keeps ?_ _ _ (fun _ _ _ => ?_))

theorem State.startUp_keeps {s₀ s : State} (h : Keeps s₀ s) (r : Boot) (cold : Bool) : Keeps s₀ (State.startUp s r cold) := by
  unfold State.startUp
  repeat' first
    | with_reducible assumption
    | extract_lets
    | with_reducible apply Keeps.ite
    | with_reducible apply State.setFld_keeps
    | with_reducible apply State.collect_keeps
    | with_reducible apply State.bootStraps_keeps
    | with_reducible apply State.bootFuses_keeps
    | with_reducible apply State.bootSram_keeps
    | with_reducible apply State.bootLink_keeps
    | with_reducible apply State.bootRefs_keeps
    | with_reducible apply State.bootLoop_keeps
    | with_reducible apply State.bootFeeds_keeps
    | with_reducible apply State.bootLegs_keeps
    | with_reducible apply State.bootPacks_keeps
    | with_reducible apply State.bootEnd_keeps
    | split
    | with_reducible refine Keeps.mk_same ?_ rfl rfl rfl

theorem State.bootClocks_keeps {s₀ s : State} (h : Keeps s₀ s) (r : Boot) (wake : Bool) : Keeps s₀ (State.bootClocks s r wake) := by
  unfold State.bootClocks
  repeat' first
    | with_reducible assumption
    | extract_lets
    | with_reducible apply Keeps.ite
    | with_reducible apply State.setFld_keeps
    | with_reducible apply State.setStep_keeps
    | split
    | with_reducible refine Keeps.mk_same ?_ rfl rfl rfl

theorem State.lcCut_keeps {s₀ s : State} (h : Keeps s₀ s) : Keeps s₀ (State.lcCut s) := by
  unfold State.lcCut
  split
  · exact h
  · refine Keeps.of_groups (State.free_keeps h) rfl rfl rfl rfl (fun i j hi => ?_)
    simp only [Fin.getElem_fin, Vector.getElem_ofFn, BitVec.getLsbD_or, Bool.or_eq_true]
    exact Or.inl hi

theorem State.powerOnReset_keeps {s₀ s : State} (h : Keeps s₀ s) : Keeps s₀ (State.powerOnReset s) := by
  have e : Keeps s₀ s.lcCut := State.lcCut_keeps h
  refine e.trans ⟨rfl, fun _ => ⟨powerOnRegs_wf, Nat.zero_le _⟩, ?_⟩
  exact ⟨fun _ _ hi => hi, fun _ hi => ⟨hi, rfl⟩, fun _ hi => hi⟩

theorem State.resetFeed_keeps {s₀ s : State} (h : Keeps s₀ s) (old : State) (n : Fin 4) : Keeps s₀ (State.resetFeed s old n) := by
  unfold State.resetFeed
  repeat' first
    | with_reducible assumption
    | extract_lets
    | with_reducible apply Keeps.ite
    | with_reducible apply State.setWord_keeps
    | with_reducible apply State.setFld_keeps
    | with_reducible apply State.modFeed_keeps
    | with_reducible apply State.setQual_keeps
    | with_reducible apply State.setFeed_keeps
    | (with_reducible refine State.each_keeps ?_ _ _ (fun _ _ _ => ?_))
    | split
    | with_reducible refine Keeps.mk_same ?_ rfl rfl rfl

theorem State.resetPk_keeps {s₀ s : State} (h : Keeps s₀ s) (old : State) (k : Fin 2) : Keeps s₀ (State.resetPk s old k) := by
  unfold State.resetPk
  repeat' first
    | with_reducible assumption
    | extract_lets
    | with_reducible apply State.modPk_keeps
    | with_reducible apply State.syncQ_keeps

theorem State.resetChg_keeps {s₀ s : State} (h : Keeps s₀ s) (old : State) (k : Fin 2) : Keeps s₀ (State.resetChg s old k) := by
  unfold State.resetChg
  repeat' first
    | with_reducible assumption
    | extract_lets
    | with_reducible apply State.setFld_keeps
    | with_reducible apply State.setOn_keeps
    | with_reducible apply State.modChg_keeps
    | split

theorem State.resetPh_keeps {s₀ s : State} (h : Keeps s₀ s) (old : State) (n : Fin 16) : Keeps s₀ (State.resetPh s old n) := by
  unfold State.resetPh
  repeat' first
    | with_reducible assumption
    | extract_lets
    | with_reducible apply State.setFld_keeps
    | with_reducible apply State.modPh_keeps

theorem resetRegs_wf (old : RegFile) : RegFile.wf (resetRegs old) = true := by
  refine RegFile.wf_foldl _ (fun r a hr => ?_) _ powerOnRegs_wf
  split
  · extract_lets m
    split
    · exact hr
    · exact RegFile.wf_set _ _ hr
  · exact hr

theorem State.warmReset_keeps {s₀ s : State} (h : Keeps s₀ s) : Keeps s₀ (State.warmReset s) := by
  have e : Keeps s₀ s.lcCut := State.lcCut_keeps h
  unfold State.warmReset
  extract_lets s1 src1 src2 src3 src4 src5 src6 t0 t1 t2 t3 t4 t5 t6
  have hr : t0.regs = resetRegs s1.regs := rfl
  have e0 : Keeps s₀ t0 := Keeps.of_regs e rfl (fun _ => hr ▸ resetRegs_wf s1.regs) rfl rfl rfl
  have e1 : Keeps s₀ t1 := State.setFld_keeps e0 _ _
  have e2 : Keeps s₀ t2 := State.each_keeps e1 _ _ (fun _ _ ht => State.setCode_keeps (State.modFeed_keeps ht _ _) _ _)
  have e3 : Keeps s₀ t3 := State.count_keeps e2 _
  have e4 : Keeps s₀ t4 := State.each_keeps e3 _ _ (fun _ _ ht => State.resetPk_keeps (State.resetChg_keeps ht _ _) _ _)
  have e5 : Keeps s₀ t5 := State.each_keeps e4 _ _ (fun _ _ ht => State.resetPh_keeps ht _ _)
  have e6 : Keeps s₀ t6 := State.retarget_keeps e5 _ _
  exact State.syncThr_keeps (State.setOn_keeps e6 _ _)

theorem State.deviceReset_keeps {s₀ s : State} (h : Keeps s₀ s) (cause : Nat) : Keeps s₀ (State.deviceReset s cause) := by
  unfold State.deviceReset
  repeat' first
    | with_reducible assumption
    | extract_lets
    | with_reducible apply Keeps.ite
    | with_reducible apply State.setWord_keeps
    | with_reducible apply State.setFld_keeps
    | with_reducible apply State.setOn_keeps
    | with_reducible apply State.aer_keeps
    | with_reducible apply State.syncFeeds_keeps
    | with_reducible apply State.flushJournal_keeps
    | with_reducible apply State.closeWindow_keeps
    | with_reducible apply State.setStep_keeps
    | with_reducible apply State.resetFeed_keeps
    | with_reducible apply State.warmReset_keeps
    | (with_reducible refine State.each_keeps ?_ _ _ (fun _ _ _ => ?_))
    | split
    | with_reducible refine Keeps.mk_same ?_ rfl rfl rfl

end Sys2Proof.Machine
end

