-- ==== Sys2Proof/Laws/KeepsSelfTest.lean ====
section
/-! SUPPORT. What each operation of Machine/SelfTest.lean may do to the queue, the soundness of the state and the fuses. -/

namespace Sys2Proof.Machine

theorem State.testNext_keeps {s₀ s : State} (h : Keeps s₀ s) : Keeps s₀ (State.testNext s) := by
  unfold State.testNext
  repeat' first
    | with_reducible assumption
    | extract_lets
    | with_reducible apply Keeps.ite
    | with_reducible apply State.syncPorts_keeps
    | with_reducible apply State.setPh_keeps
    | split
    | with_reducible refine Keeps.mk_same ?_ rfl rfl rfl

theorem State.setBist_keeps {s₀ s : State} (h : Keeps s₀ s) (scope status : Nat) : Keeps s₀ (State.setBist s scope status) := by
  unfold State.setBist
  repeat' first
    | with_reducible assumption
    | extract_lets
    | with_reducible apply State.setWord_keeps

theorem State.startSelftest_keeps {s₀ s : State} (h : Keeps s₀ s) (d : Desc) : Keeps s₀ (State.startSelftest s d) := by
  unfold State.startSelftest
  repeat' first
    | with_reducible assumption
    | extract_lets
    | with_reducible apply Keeps.ite
    | with_reducible apply State.refuse_keeps
    | with_reducible apply State.abortTel_keeps
    | with_reducible apply State.testNext_keeps
    | with_reducible apply State.setBist_keeps
    | split
    | with_reducible refine Keeps.mk_same ?_ rfl rfl rfl

theorem State.failItem_keeps {s₀ s : State} (h : Keeps s₀ s) (item : Nat) : Keeps s₀ (State.failItem s item) := by
  unfold State.failItem
  repeat' first
    | with_reducible assumption
    | extract_lets
    | with_reducible apply Keeps.ite
    | with_reducible apply State.setFld_keeps
    | split
    | with_reducible refine Keeps.mk_same ?_ rfl rfl rfl

theorem State.passTest_keeps {s₀ s : State} (h : Keeps s₀ s) : Keeps s₀ (State.passTest s) := by
  unfold State.passTest
  repeat' first
    | with_reducible assumption
    | extract_lets
    | with_reducible apply Keeps.ite
    | with_reducible apply State.endTest_keeps

theorem State.offlineRefs_keeps {s₀ s : State} (h : Keeps s₀ s) (m : RefMeas) : Keeps s₀ (State.offlineRefs s m) := by
  unfold State.offlineRefs
  repeat' first
    | with_reducible assumption
    | extract_lets
    | with_reducible apply Keeps.ite
    | with_reducible apply State.fault_keeps
    | with_reducible apply State.sealReading_keeps
    | with_reducible apply State.setRefs_keeps
    | with_reducible apply State.phcntAgain_keeps
    | with_reducible apply State.failItem_keeps
    | (with_reducible refine State.each_keeps ?_ _ _ (fun _ _ _ => ?_))

theorem State.inForceChanged_keeps {s₀ s : State} (h : Keeps s₀ s) (k : Fin 2) (old : AuthRes) : Keeps s₀ (State.inForceChanged s k old) := by
  unfold State.inForceChanged
  repeat' first
    | with_reducible assumption
    | extract_lets
    | with_reducible apply Keeps.ite
    | with_reducible apply State.jevent_keeps
    | with_reducible apply State.syncPack_keeps
    | with_reducible apply State.gustLoss_keeps

theorem State.lcWrite_keeps {s₀ s : State} (h : Keeps s₀ s) (o : Origin) (v : Word) : Keeps s₀ (State.lcWrite s o v) := by
  unfold State.lcWrite
  repeat' first
    | with_reducible assumption
    | extract_lets
    | with_reducible apply Keeps.ite
    | with_reducible apply State.setFld_keeps
    | with_reducible apply State.setOn_keeps
    | with_reducible apply State.count_keeps
    | with_reducible apply State.journal_keeps
    | with_reducible apply State.refusal_keeps
    | with_reducible apply State.wipe_keeps
    | with_reducible refine Keeps.voidAll ?_
    | split
    | with_reducible refine Keeps.mk_same ?_ rfl rfl rfl

end Sys2Proof.Machine
end

