-- ==== Sys2Proof/Laws/KeepsFabric.lean ====
section
/-! SUPPORT. What each operation of Machine/Fabric.lean may do to the queue, the soundness of the state and the fuses. -/

namespace Sys2Proof.Machine

theorem State.wroteFlt_keeps {s₀ s : State} (h : Keeps s₀ s) (off : Nat) (v : Word) : Keeps s₀ (State.wroteFlt s off v) := by
  unfold State.wroteFlt
  repeat' first
    | with_reducible assumption
    | extract_lets
    | with_reducible apply Keeps.ite
    | with_reducible apply State.setOn_keeps
    | with_reducible apply State.event_keeps
    | with_reducible apply State.clearPend_keeps
    | with_reducible apply State.pinWrite_keeps

theorem State.wroteTmr_keeps {s₀ s : State} (h : Keeps s₀ s) (p : State) (off : Nat) (v : Word) : Keeps s₀ (State.wroteTmr s p off v) := by
  unfold State.wroteTmr
  repeat' first
    | with_reducible assumption
    | extract_lets
    | with_reducible apply Keeps.ite
    | with_reducible apply State.cntWrite_keeps
    | with_reducible apply State.ccrWrite_keeps
    | with_reducible apply State.ctlWritten_keeps
    | split

theorem State.wroteHif_keeps {s₀ s : State} (h : Keeps s₀ s) (p : State) (off : Nat) : Keeps s₀ (State.wroteHif s p off) := by
  unfold State.wroteHif
  repeat' first
    | with_reducible assumption
    | extract_lets
    | with_reducible apply State.enChanged_keeps
    | with_reducible apply State.firePending_keeps
    | split

theorem State.wroteFeed_keeps {s₀ s : State} (h : Keeps s₀ s) (off : Nat) : Keeps s₀ (State.wroteFeed s off) := by
  unfold State.wroteFeed
  repeat' first
    | with_reducible assumption
    | extract_lets
    | with_reducible apply Keeps.ite
    | with_reducible apply State.syncFeeds_keeps
    | with_reducible apply State.settleGroup_keeps
    | with_reducible apply State.feedEnable_keeps
    | split

theorem State.wrotePh_keeps {s₀ s : State} (h : Keeps s₀ s) (off : Nat) : Keeps s₀ (State.wrotePh s off) := by
  unfold State.wrotePh
  repeat' first
    | with_reducible assumption
    | extract_lets
    | with_reducible apply Keeps.ite
    | with_reducible apply State.evt_keeps
    | with_reducible apply State.syncPorts_keeps
    | with_reducible apply State.syncElig_keeps
    | with_reducible apply State.applySync_keeps
    | with_reducible apply State.newTarget_keeps
    | split
    | with_reducible refine Keeps.mk_same ?_ rfl rfl rfl

theorem State.wroteChg_keeps {s₀ s : State} (h : Keeps s₀ s) (o : Origin) (off : Nat) (v : Word) : Keeps s₀ (State.wroteChg s o off v) := by
  unfold State.wroteChg
  repeat' first
    | with_reducible assumption
    | extract_lets
    | with_reducible apply Keeps.ite
    | with_reducible apply State.syncElig_keeps
    | with_reducible apply State.chgCtl_keeps
    | with_reducible apply State.stagedLoad_keeps
    | split

theorem State.wrotePk_keeps {s₀ s : State} (h : Keeps s₀ s) (p : State) (off : Nat) (v : Word) : Keeps s₀ (State.wrotePk s p off v) := by
  unfold State.wrotePk
  repeat' first
    | with_reducible assumption
    | extract_lets
    | with_reducible apply Keeps.ite
    | with_reducible apply State.syncPack_keeps
    | with_reducible apply State.checkWorn_keeps
    | with_reducible apply State.clearLatch_keeps
    | with_reducible apply State.inForceChanged_keeps
    | split
    | with_reducible refine Keeps.mk_same ?_ rfl rfl rfl

theorem State.wroteAdc_keeps {s₀ s : State} (h : Keeps s₀ s) (off : Nat) : Keeps s₀ (State.wroteAdc s off) := by
  unfold State.wroteAdc
  repeat' first
    | with_reducible assumption
    | extract_lets
    | with_reducible apply Keeps.ite
    | with_reducible apply State.disarm_keeps
    | with_reducible apply State.refSelect_keeps

theorem State.wroteCmp_keeps {s₀ s : State} (h : Keeps s₀ s) (p : State) (c : Fin 48) : Keeps s₀ (State.wroteCmp s p c) := by
  unfold State.wroteCmp
  repeat' first
    | with_reducible assumption
    | extract_lets
    | with_reducible apply Keeps.ite
    | with_reducible apply State.rethresh_keeps
    | with_reducible apply State.reblank_keeps
    | with_reducible apply State.modeChanged_keeps
    | with_reducible apply State.inselChanged_keeps

theorem State.rethreshOf_keeps {s₀ s : State} (h : Keeps s₀ s) (off : Nat) : Keeps s₀ (State.rethreshOf s off) := by
  unfold State.rethreshOf
  repeat' first
    | with_reducible assumption
    | extract_lets
    | with_reducible apply Keeps.ite
    | with_reducible apply State.rethresh_keeps

theorem State.wroteTw_keeps {s₀ s : State} (h : Keeps s₀ s) (off : Nat) (v : Word) : Keeps s₀ (State.wroteTw s off v) := by
  unfold State.wroteTw
  repeat' first
    | with_reducible assumption
    | extract_lets
    | with_reducible apply Keeps.ite
    | with_reducible apply State.busClr_keeps
    | with_reducible apply State.portReset_keeps

theorem State.wrote_keeps {s₀ s : State} (h : Keeps s₀ s) (p : State) (o : Origin) (off : Nat) (v : Word) : Keeps s₀ (State.wrote s p o off v) := by
  unfold State.wrote
  repeat' first
    | with_reducible assumption
    | extract_lets
    | with_reducible apply Keeps.ite
    | with_reducible apply State.setFld_keeps
    | with_reducible apply State.modFc_keeps
    | with_reducible apply State.closeWindow_keeps
    | with_reducible apply State.rethresh_keeps
    | with_reducible apply State.wroteFlt_keeps
    | with_reducible apply State.wroteTmr_keeps
    | with_reducible apply State.wroteHif_keeps
    | with_reducible apply State.wroteFeed_keeps
    | with_reducible apply State.wrotePh_keeps
    | with_reducible apply State.wroteChg_keeps
    | with_reducible apply State.wrotePk_keeps
    | with_reducible apply State.wroteAdc_keeps
    | with_reducible apply State.wroteCmp_keeps
    | with_reducible apply State.wroteTw_keeps
    | split

theorem State.after_keeps {s₀ s : State} (h : Keeps s₀ s) (off : Nat) (v : Word) : Keeps s₀ (State.after s off v) := by
  unfold State.after
  repeat' first
    | with_reducible assumption
    | extract_lets
    | with_reducible apply Keeps.ite
    | with_reducible apply State.doldrumsEntry_keeps
    | with_reducible apply State.deviceReset_keeps

theorem State.refuseWrite_keeps {s₀ s : State} (h : Keeps s₀ s) (o : Origin) (off : Nat) (v : Word) (reason : Nat) (guarded : Bool) : Keeps s₀ (State.refuseWrite s o off v reason guarded) := by
  unfold State.refuseWrite
  repeat' first
    | with_reducible assumption
    | extract_lets
    | with_reducible apply Keeps.ite
    | with_reducible apply State.setFld_keeps
    | with_reducible apply State.evt_keeps
    | with_reducible apply State.journal_keeps
    | with_reducible apply State.refusal_keeps

theorem State.applyWord_keeps {s₀ s : State} (h : Keeps s₀ s) (o : Origin) (off : Nat) (new v : Word) : Keeps s₀ (State.applyWord s o off new v) := by
  unfold State.applyWord
  repeat' first
    | with_reducible assumption
    | extract_lets
    | with_reducible apply State.setWord_keeps
    | with_reducible apply lineRise_keeps
    | with_reducible apply State.rethreshOf_keeps
    | with_reducible apply State.wrote_keeps
    | split
    | with_reducible refine Keeps.mk_same ?_ rfl rfl rfl

theorem State.acceptWrite_keeps {s₀ s : State} (h : Keeps s₀ s) (o : Origin) (off : Nat) (new v : Word) (guarded : Bool) : Keeps s₀ (State.acceptWrite s o off new v guarded) := by
  unfold State.acceptWrite
  repeat' first
    | with_reducible assumption
    | extract_lets
    | with_reducible apply Keeps.ite
    | with_reducible apply State.count_keeps
    | with_reducible apply State.journal_keeps
    | with_reducible apply State.after_keeps
    | with_reducible apply State.applyWord_keeps

theorem State.serveWrite_keeps {s₀ s : State} (h : Keeps s₀ s) (o : Origin) (off : Nat) (v : Word) : Keeps s₀ (State.serveWrite s o off v) := by
  unfold State.serveWrite
  repeat' first
    | with_reducible assumption
    | extract_lets
    | with_reducible apply Keeps.ite
    | with_reducible apply State.regFault_keeps
    | with_reducible apply State.release_keeps
    | with_reducible apply State.latchEntry_keeps
    | with_reducible apply State.checkWord_keeps
    | with_reducible apply State.lcWrite_keeps
    | with_reducible apply State.after_keeps
    | with_reducible apply State.refuseWrite_keeps
    | with_reducible apply State.acceptWrite_keeps
    | split

theorem State.fabricWrite_keeps {s₀ s : State} (h : Keeps s₀ s) (o : Origin) (off : Nat) (v : Word) : Keeps s₀ (State.fabricWrite s o off v) := by
  unfold State.fabricWrite
  repeat' first
    | with_reducible assumption
    | extract_lets
    | with_reducible apply Keeps.ite
    | with_reducible apply State.serveWrite_keeps
    | split
    | with_reducible refine Keeps.mk_same ?_ rfl rfl rfl

theorem State.serveHeld_keeps {s₀ s : State} (h : Keeps s₀ s) : Keeps s₀ (State.serveHeld s) := by
  unfold State.serveHeld
  repeat' first
    | with_reducible assumption
    | extract_lets
    | with_reducible apply Keeps.ite
    | with_reducible apply State.serveWrite_keeps
    | split
    | with_reducible refine Keeps.mk_same ?_ rfl rfl rfl

theorem State.readReg_keeps {s₀ s : State} (h : Keeps s₀ s) (off : Nat) : Keeps s₀ (State.readReg s off).2 := by
  unfold State.readReg
  repeat' first
    | with_reducible assumption
    | extract_lets
    | with_reducible apply Keeps.ite
    | with_reducible apply State.setWord_keeps
    | with_reducible apply State.ccrRead_keeps
    | (with_reducible refine Keeps.of_snd (by assumption) ?_)
    | dsimp only
    | split

end Sys2Proof.Machine
end

