-- ==== Sys2Proof/Laws/KeepsTwoWire.lean ====
section
/-! SUPPORT. What each operation of Machine/TwoWire.lean may do to the queue, the soundness of the state and the fuses. -/

namespace Sys2Proof.Machine

theorem State.mWord_keeps {s₀ s : State} (h : Keeps s₀ s) (off : Nat) (v : Word) : Keeps s₀ (State.mWord s off v) := by
  unfold State.mWord
  repeat' first
    | with_reducible assumption
    | extract_lets
    | with_reducible apply Keeps.ite
    | with_reducible apply State.count_keeps
    | with_reducible apply State.fabricWrite_keeps

theorem State.mWords_keeps (off : Nat) (l : List Byte) (n : Nat) {s₀ s : State} (h : Keeps s₀ s) :
    Keeps s₀ (State.mWords off l n s) := by
  induction n generalizing s off l with
  | zero => exact h
  | succ n ih =>
    unfold State.mWords
    split
    · exact h
    · exact ih _ _ (State.mWord_keeps h _ _)

theorem State.mCommit_keeps {s₀ s : State} (h : Keeps s₀ s) (a : Nat) (l : List Byte) : Keeps s₀ (State.mCommit s a l) := by
  unfold State.mCommit
  repeat' first
    | with_reducible assumption
    | extract_lets
    | with_reducible apply Keeps.ite
    | with_reducible apply State.setFlags_keeps
    | with_reducible apply State.mWords_keeps

theorem State.mNack_keeps {s₀ s : State} (h : Keeps s₀ s) : Keeps s₀ (State.mNack s) := by
  unfold State.mNack
  repeat' first
    | with_reducible assumption
    | extract_lets
    | with_reducible apply State.count_keeps
    | with_reducible apply State.setFlags_keeps

theorem State.mPecErr_keeps {s₀ s : State} (h : Keeps s₀ s) : Keeps s₀ (State.mPecErr s) := by
  unfold State.mPecErr
  repeat' first
    | with_reducible assumption
    | extract_lets
    | with_reducible apply State.count_keeps
    | with_reducible apply State.setFlags_keeps

theorem State.mEnd_keeps {s₀ s : State} (h : Keeps s₀ s) (l : List Byte) (stop : Bool) : Keeps s₀ (State.mEnd s l stop) := by
  unfold State.mEnd
  repeat' first
    | with_reducible assumption
    | extract_lets
    | with_reducible apply Keeps.ite
    | with_reducible apply State.setFld_keeps
    | with_reducible apply State.modTw_keeps
    | with_reducible apply State.setBusy_keeps

theorem State.mStretch_keeps (n : Nat) {s₀ s : State} (h : Keeps s₀ s) : Keeps s₀ (State.mStretch n s) := by
  induction n generalizing s with
  | zero => exact h
  | succ n ih => exact Keeps.ite (ih (State.serveHeld_keeps (State.flushJournal_keeps h))) h

theorem State.mStart_keeps {s₀ s : State} (h : Keeps s₀ s) : Keeps s₀ (State.mStart s) := State.mStretch_keeps _ h

theorem State.mWrite_keeps {s₀ s : State} (h : Keeps s₀ s) (l : List Byte) (stop : Bool) : Keeps s₀ (State.mWrite s l stop) := by
  unfold State.mWrite
  repeat' first
    | with_reducible assumption
    | extract_lets
    | with_reducible apply Keeps.ite
    | with_reducible apply State.setFld_keeps
    | with_reducible apply State.mCommit_keeps
    | with_reducible apply State.mNack_keeps
    | with_reducible apply State.mPecErr_keeps
    | with_reducible apply State.mEnd_keeps

theorem State.mStream_keeps (n : Nat) (first : Bool) (w : Word) (acc : List Byte) {s₀ s : State} (h : Keeps s₀ s) :
    Keeps s₀ (State.mStream n first w acc s).2 := by
  induction n generalizing s first w acc with
  | zero => exact h
  | succ n ih =>
    unfold State.mStream
    extract_lets p
    have hr : Keeps s₀ ((s.checkWord (p / 4 * 4)).readReg (p / 4 * 4)).2 := State.readReg_keeps (State.checkWord_keeps h _) _
    split
    next w' s' e =>
      have hs : Keeps s₀ s' := Keeps.of_snd e (by
        split
        · exact hr
        · exact h)
      exact ih _ _ _ (State.setFld_keeps hs _ _)

theorem State.mRead_keeps {s₀ s : State} (h : Keeps s₀ s) (n : Nat) (stop : Bool) : Keeps s₀ (State.mRead s n stop) := by
  unfold State.mRead
  repeat' first
    | with_reducible assumption
    | extract_lets
    | with_reducible apply Keeps.ite
    | with_reducible apply State.modTw_keeps
    | with_reducible apply State.setFlags_keeps
    | with_reducible apply State.mEnd_keeps
    | with_reducible apply State.mStream_keeps
    | (with_reducible refine Keeps.of_snd (by assumption) ?_)
    | split

theorem State.hostNotify_keeps {s₀ s : State} (h : Keeps s₀ s) (acked : Bool) : Keeps s₀ (State.hostNotify s acked) := by
  unfold State.hostNotify
  repeat' first
    | with_reducible assumption
    | extract_lets
    | with_reducible apply Keeps.ite
    | with_reducible apply State.setFld_keeps
    | with_reducible apply State.modTw_keeps

theorem State.rarexFail_keeps {s₀ s : State} (h : Keeps s₀ s) (p : Fin 3) (e : TwErr) : Keeps s₀ (State.rarexFail s p e) := by
  unfold State.rarexFail
  repeat' first
    | with_reducible assumption
    | extract_lets
    | with_reducible apply State.modTw_keeps
    | with_reducible apply State.setFlags_keeps
    | with_reducible apply State.setLines_keeps
    | with_reducible apply State.setBusy_keeps
    | with_reducible apply State.twTimeout_keeps
    | split

theorem State.rarexTries_keeps {s₀ s : State} (h : Keeps s₀ s) (k : Fin 2) (p : Fin 3) (n : Nat) (l : List TwErr) :
    Keeps s₀ (State.rarexTries s k p n l).2 := by
  induction l generalizing s n with
  | nil => cases n <;> exact (State.setBusy_keeps h p false :)
  | cons e l ih =>
    cases n with
    | zero => exact (State.rarexFail_keeps h p e :)
    | succ n =>
      unfold State.rarexTries
      extract_lets s1 s2
      have e1 : Keeps s₀ s1 := State.rarexFail_keeps h _ _
      have e2 : Keeps s₀ s2 := by
        unfold s2
        split
        · exact State.sdaCheck_keeps e1 _ _
        · exact e1
      split
      · exact e2
      · exact ih (State.count_keeps e2 _) n

theorem State.rarexReply_keeps {s₀ s : State} (h : Keeps s₀ s) (k : Fin 2) (cmd : Rarex) (reply : List Byte) : Keeps s₀ (State.rarexReply s k cmd reply) := by
  unfold State.rarexReply
  repeat' first
    | with_reducible assumption
    | extract_lets
    | with_reducible apply Keeps.ite
    | with_reducible apply State.modPk_keeps
    | with_reducible apply State.incCtr_keeps
    | split

theorem State.rarex_keeps {s₀ s : State} (h : Keeps s₀ s) (k : Fin 2) (cmd : Rarex) (fails : List TwErr) (reply : List Byte) : Keeps s₀ (State.rarex s k cmd fails reply) := by
  unfold State.rarex
  repeat' first
    | with_reducible assumption
    | extract_lets
    | with_reducible apply Keeps.ite
    | with_reducible apply State.count_keeps
    | with_reducible apply State.modPk_keeps
    | with_reducible apply State.modTw_keeps
    | with_reducible apply State.incCtr_keeps
    | with_reducible apply State.txFailed_keeps
    | with_reducible apply State.rarexTries_keeps
    | with_reducible apply State.rarexReply_keeps

end Sys2Proof.Machine
end

