-- ==== Sys2Proof/Laws/KeepsAdmin.lean ====
section
/-! SUPPORT. What each operation of Machine/Admin.lean may do to the queue, the soundness of the state and the fuses. -/

namespace Sys2Proof.Machine

theorem State.startIdentify_keeps {s₀ s : State} (h : Keeps s₀ s) (d : Desc) : Keeps s₀ (State.startIdentify s d) := by
  unfold State.startIdentify
  repeat' first
    | with_reducible assumption
    | extract_lets
    | with_reducible apply Keeps.ite
    | with_reducible apply State.send_keeps
    | with_reducible apply State.done_keeps
    | with_reducible apply State.refuse_keeps

theorem State.startSetLimits_keeps {s₀ s : State} (h : Keeps s₀ s) (ds : List Desc) (d : Desc) : Keeps s₀ (State.startSetLimits s ds d) := by
  unfold State.startSetLimits
  repeat' first
    | with_reducible assumption
    | extract_lets
    | with_reducible apply Keeps.ite
    | with_reducible apply State.count_keeps
    | with_reducible apply State.refuse_keeps
    | split
    | with_reducible refine Keeps.mk_same ?_ rfl rfl rfl

theorem State.applyLimits_keeps {s₀ s : State} (h : Keeps s₀ s) (l : LimSet) : Keeps s₀ (State.applyLimits s l) := by
  unfold State.applyLimits
  repeat' first
    | with_reducible assumption
    | extract_lets
    | with_reducible apply Keeps.ite
    | with_reducible apply State.setWord_keeps
    | with_reducible apply State.regDiff_keeps
    | with_reducible apply State.done_keeps
    | with_reducible apply State.rethreshOf_keeps
    | with_reducible apply State.wrote_keeps
    | (with_reducible refine State.each_keeps ?_ _ _ (fun _ _ _ => ?_))

theorem State.sendRec_keeps {s₀ s : State} (h : Keeps s₀ s) (elems : List (BitVec 64)) (i : Nat) (r : TelRec) : Keeps s₀ (State.sendRec s elems i r) := by
  unfold State.sendRec
  repeat' first
    | with_reducible assumption
    | extract_lets
    | with_reducible apply State.send_keeps
    | split

theorem State.telHistory_keeps {s₀ s : State} (h : Keeps s₀ s) (d : Desc) (elems : List (BitVec 64)) : Keeps s₀ (State.telHistory s d elems) := by
  unfold State.telHistory
  repeat' first
    | with_reducible assumption
    | extract_lets
    | with_reducible apply Keeps.ite
    | with_reducible apply State.done_keeps
    | with_reducible apply State.sendRec_keeps
    | (with_reducible refine State.each_keeps ?_ _ _ (fun _ _ _ => ?_))

theorem State.startTelemetry_keeps {s₀ s : State} (h : Keeps s₀ s) (ds : List Desc) (d : Desc) (elems : List (BitVec 64)) : Keeps s₀ (State.startTelemetry s ds d elems) := by
  unfold State.startTelemetry
  repeat' first
    | with_reducible assumption
    | extract_lets
    | with_reducible apply Keeps.ite
    | with_reducible apply State.refuse_keeps
    | with_reducible apply State.telHistory_keeps
    | split
    | with_reducible refine Keeps.mk_same ?_ rfl rfl rfl

theorem State.capRec_keeps {s₀ s : State} (h : Keeps s₀ s) (skip : Bool) (rec_ : TelRec) : Keeps s₀ (State.capRec s skip rec_) := by
  unfold State.capRec
  repeat' first
    | with_reducible assumption
    | extract_lets
    | with_reducible apply Keeps.ite
    | with_reducible apply State.done_keeps
    | with_reducible apply State.sendRec_keeps
    | split
    | with_reducible refine Keeps.mk_same ?_ rfl rfl rfl

theorem State.capTick_keeps {s₀ s : State} (h : Keeps s₀ s) (skip : Bool) : Keeps s₀ (State.capTick s skip) := by
  unfold State.capTick
  repeat' first
    | with_reducible assumption
    | extract_lets
    | with_reducible apply Keeps.ite
    | with_reducible apply State.capRec_keeps
    | (with_reducible refine State.each_keeps ?_ _ _ (fun _ _ _ => ?_))
    | split
    | with_reducible refine Keeps.mk_same ?_ rfl rfl rfl

theorem State.startDrain_keeps {s₀ s : State} (h : Keeps s₀ s) (d : Desc) : Keeps s₀ (State.startDrain s d) := by
  unfold State.startDrain
  refine Keeps.ite (State.refuse_keeps h _ _ _ _ _ _) (Keeps.ite (State.refuse_keeps h _ _ _ _ _ _) ?_)
  extract_lets l s1 src
  have e1 : Keeps s₀ s1 := State.each_keeps h _ _ (fun _ _ ht => State.send_keeps ht _)
  clear_value l
  split
  · exact State.done_keeps (State.free_keeps h) _ _ _ _
  · extract_lets s2
    have e2 : Keeps s₀ s2 := Keeps.ite (Keeps.of_same e1 rfl rfl rfl rfl rfl) e1
    exact State.done_keeps e2 _ _ _ _

theorem State.putCtx_keeps {s₀ s : State} (h : Keeps s₀ s) (n : Fin 64) (cfg base cnt cap : Nat) : Keeps s₀ (State.putCtx s n cfg base cnt cap) := by
  unfold State.putCtx
  repeat' first
    | with_reducible assumption
    | extract_lets
    | with_reducible apply State.setWord_keeps

theorem State.startBind_keeps {s₀ s : State} (h : Keeps s₀ s) (d : Desc) : Keeps s₀ (State.startBind s d) := by
  unfold State.startBind
  repeat' first
    | with_reducible assumption
    | extract_lets
    | with_reducible apply Keeps.ite
    | with_reducible apply State.journal_keeps
    | with_reducible apply State.done_keeps
    | with_reducible apply State.refuse_keeps
    | with_reducible apply State.modFc_keeps
    | with_reducible apply State.syncLive_keeps
    | with_reducible apply State.putCtx_keeps

theorem State.startTable_keeps {s₀ s : State} (h : Keeps s₀ s) (d : Desc) : Keeps s₀ (State.startTable s d) := by
  unfold State.startTable
  repeat' first
    | with_reducible assumption
    | extract_lets
    | with_reducible apply Keeps.ite
    | with_reducible apply State.setFld_keeps
    | with_reducible apply State.setOn_keeps
    | with_reducible apply State.journal_keeps
    | with_reducible apply State.syncThr_keeps
    | with_reducible apply State.done_keeps
    | with_reducible apply State.refuse_keeps
    | with_reducible apply State.modFc_keeps
    | with_reducible apply State.syncLive_keeps
    | with_reducible apply State.writeBack_keeps
    | with_reducible apply State.staticDrop_keeps
    | (with_reducible refine State.each_keeps ?_ _ _ (fun _ _ _ => ?_))

theorem State.startAdmin_keeps {s₀ s : State} (h : Keeps s₀ s) (ds : List Desc) (elems : List (BitVec 64)) : Keeps s₀ (State.startAdmin s ds elems) := by
  unfold State.startAdmin
  repeat' first
    | with_reducible assumption
    | extract_lets
    | with_reducible apply Keeps.ite
    | with_reducible apply State.modRing_keeps
    | with_reducible apply State.refuse_keeps
    | with_reducible apply State.startPhaseMap_keeps
    | with_reducible apply State.startVtarget_keeps
    | with_reducible apply State.startPackAuth_keeps
    | with_reducible apply State.startSetProfile_keeps
    | with_reducible apply State.startSounding_keeps
    | with_reducible apply State.startSelftest_keeps
    | with_reducible apply State.startIdentify_keeps
    | with_reducible apply State.startSetLimits_keeps
    | with_reducible apply State.startTelemetry_keeps
    | with_reducible apply State.startDrain_keeps
    | with_reducible apply State.startBind_keeps
    | with_reducible apply State.startTable_keeps
    | split

theorem State.admin_keeps {s₀ s : State} (h : Keeps s₀ s) (ds : List Desc) (elems : List (BitVec 64)) : Keeps s₀ (State.admin s ds elems) := by
  unfold State.admin
  repeat' first
    | with_reducible assumption
    | extract_lets
    | with_reducible apply Keeps.ite
    | with_reducible apply State.startAdmin_keeps
    | (with_reducible refine State.popSq_keeps ?_ _ _ (by assumption))
    | split
    | with_reducible refine Keeps.mk_same ?_ rfl rfl rfl

theorem State.dmaError_keeps {s₀ s : State} (h : Keeps s₀ s) (n : Fin 64) (kind : Nat) (t : Fin 3) (addr : Word) : Keeps s₀ (State.dmaError s n kind t addr) := by
  unfold State.dmaError
  repeat' first
    | with_reducible assumption
    | extract_lets
    | with_reducible apply Keeps.ite
    | with_reducible apply State.setWord_keeps
    | with_reducible apply State.aer_keeps
    | with_reducible apply State.event_keeps

theorem State.takeReady_keeps {s₀ s t : State} (h : Keeps s₀ s) {ds : List Desc} (ht : s.takeReady ds = some t) :
    Keeps s₀ t := by
  unfold State.takeReady at ht
  split at ht
  · split at ht
    · cases ht
      exact Keeps.of_same h rfl rfl rfl rfl rfl
    · cases ht
  · split at ht
    · next u hu =>
      split at ht
      · cases ht
        exact State.popSq_keeps h _ _ hu
      · cases ht
    · cases ht

end Sys2Proof.Machine
end

