-- ==== Sys2Proof/Laws/KeepsWrites.lean ====
section
/-! SUPPORT. What each operation of Machine/Writes.lean may do to the queue, the soundness of the state and the fuses. -/

namespace Sys2Proof.Machine

theorem State.fabricRead_keeps {s₀ s : State} (h : Keeps s₀ s) (o : Origin) (off : Nat) : Keeps s₀ (State.fabricRead s o off) := by
  unfold State.fabricRead
  repeat' first
    | with_reducible assumption
    | extract_lets
    | with_reducible apply Keeps.ite
    | with_reducible apply State.checkWord_keeps
    | with_reducible apply State.readReg_keeps
    | (with_reducible refine Keeps.of_snd (by assumption) ?_)
    | split
    | with_reducible refine Keeps.mk_same ?_ rfl rfl rfl

end Sys2Proof.Machine
end

