-- ==== Sys2Proof/Laws/OnlyAt.lean ====
section
/-! SUPPORT. The relation `OnlyAt`: reflexive, transitive, and what each way of updating the state may change. -/

namespace Sys2Proof.Machine

variable {P : Place → Prop} {s₀ s t : State}

theorem Place.Same.rfl' (s : State) (l : Place) : l.Same s s := by cases l <;> rfl

theorem Place.Same.trans {s t u : State} {l : Place} (h : l.Same s t) (k : l.Same t u) : l.Same s u := by
  cases l <;> exact Eq.trans k h

theorem OnlyAt.refl (P : Place → Prop) (s : State) : OnlyAt P s s := fun l _ => Place.Same.rfl' s l

theorem OnlyAt.trans (h : OnlyAt P s₀ s) (k : OnlyAt P s t) : OnlyAt P s₀ t := fun l hl => (h l hl).trans (k l hl)

/-- What changes at fewer places changes at more. -/
theorem OnlyAt.mono {Q : Place → Prop} (h : OnlyAt P s t) (hPQ : ∀ l, P l → Q l) : OnlyAt Q s t :=
  fun l hl => h l (fun hp => hl (hPQ l hp))

theorem OnlyAt.ite {c : Prop} [Decidable c] (hs : OnlyAt P s₀ s) (ht : OnlyAt P s₀ t) :
    OnlyAt P s₀ (if c then s else t) := by
  split
  · exact hs
  · exact ht

theorem OnlyAt.of_snd {α : Type} {p : α × State} {a : α} (e : p = (a, s)) (h : OnlyAt P s₀ p.2) : OnlyAt P s₀ s := by
  rw [e] at h
  exact h

theorem OnlyAt.of_snd2 {α β : Type} {p : α × β × State} {a : α} {b : β} (e : p = (a, b, s)) (h : OnlyAt P s₀ p.2.2) :
    OnlyAt P s₀ s := by
  rw [e] at h
  exact h

theorem OnlyAt.of_snd3 {α β γ : Type} {p : α × β × γ × State} {a : α} {b : β} {c : γ} (e : p = (a, b, c, s))
    (h : OnlyAt P s₀ p.2.2.2) : OnlyAt P s₀ s := by
  rw [e] at h
  exact h

theorem OnlyAt.of_fst {α : Type} {p : State × α} {a : α} (e : p = (s, a)) (h : OnlyAt P s₀ p.1) : OnlyAt P s₀ s := by
  rw [e] at h
  exact h

theorem vmod_same {α : Type} {n : Nat} (v : Vector α n) (i : Fin n) (f : α → α) : (vmod v i f)[i] = f v[i] := by
  simp [vmod]

theorem vmod_ne {α : Type} {n : Nat} (v : Vector α n) {i j : Fin n} (f : α → α) (h : i ≠ j) : (vmod v i f)[j] = v[j] := by
  have h' : i.val ≠ j.val := fun e => h (Fin.ext e)
  simp [vmod, h']

/-- An update of the state other than its registers, field by field: each field is the same or one of the places. -/
theorem OnlyAt.mk_fields (h : OnlyAt P s₀ s) {devtime : BitVec 56} {jnl : Jnl} {heldAcc : List Held} {flt : FltH}
    {sys : SysH} {auth : AuthH} {feed : Vector FeedH 4} {ph : Vector PhH 16} {php : Vector PhpH 2} {phg : PhGH}
    {meas : MeasH} {chg : Vector ChgH 2} {chgg : ChgGH} {pk : Vector PkH 2} {aon : AonH} {fc : FcH} {ring : Vector RingH 64} {hif : HifH}
    {tw : Vector TwH 3} {cmp : Vector CmpH 48} {adc : Vector AdcH 2} {tmr : Vector TmrH 8} {thm : ThmH} {mem : MemH}
    {out : List HostOut} {rdata : List Word} {freeCtr : Nat} {pending : List Instr}
    (h2 : devtime = s.devtime ∨ P .devtime) (h3 : jnl = s.jnl ∨ P .jnl)
    (h4 : heldAcc = s.heldAcc ∨ P .heldAcc) (h5 : flt = s.flt ∨ P .flt) (h6 : sys = s.sys ∨ P .sys)
    (h7 : auth = s.auth ∨ P .auth) (h8 : feed = s.feed ∨ ∀ n, P (.feed n)) (h9 : ph = s.ph ∨ ∀ n, P (.ph n))
    (h10 : php = s.php ∨ ∀ n, P (.php n)) (h11 : phg = s.phg ∨ P .phg) (h12 : chg = s.chg ∨ ∀ n, P (.chg n))
    (h13 : chgg = s.chgg ∨ P .chgg) (h14 : pk = s.pk ∨ ∀ n, P (.pk n)) (h15 : aon = s.aon ∨ P .aon) (h16 : fc = s.fc ∨ P .fc)
    (h17 : ring = s.ring ∨ ∀ n, P (.ring n)) (h18 : hif = s.hif ∨ P .hif) (h19 : tw = s.tw ∨ ∀ n, P (.tw n))
    (h20 : cmp = s.cmp ∨ ∀ n, P (.cmp n)) (h21 : adc = s.adc ∨ ∀ n, P (.adc n)) (h22 : tmr = s.tmr ∨ ∀ n, P (.tmr n))
    (h23 : thm = s.thm ∨ P .thm) (h24 : mem = s.mem ∨ P .mem) (h25 : out = s.out ∨ P .out) (h26 : rdata = s.rdata ∨ P .rdata)
    (h27 : freeCtr = s.freeCtr ∨ P .freeCtr) (h28 : meas = s.meas ∨ P .meas) :
    OnlyAt P s₀ (State.mk s.regs devtime jnl heldAcc flt sys auth feed ph php phg meas chg chgg pk aon fc ring hif tw cmp adc tmr thm mem
      out rdata freeCtr pending) := by
  refine h.trans (fun l hl => ?_)
  cases l with
  | reg o => rfl
  | feed n => exact h8.elim (fun e => congrArg (·[n]) e) (fun e => absurd (e n) hl)
  | ph n => exact h9.elim (fun e => congrArg (·[n]) e) (fun e => absurd (e n) hl)
  | php n => exact h10.elim (fun e => congrArg (·[n]) e) (fun e => absurd (e n) hl)
  | chg n => exact h12.elim (fun e => congrArg (·[n]) e) (fun e => absurd (e n) hl)
  | pk n => exact h14.elim (fun e => congrArg (·[n]) e) (fun e => absurd (e n) hl)
  | ring n => exact h17.elim (fun e => congrArg (·[n]) e) (fun e => absurd (e n) hl)
  | tw n => exact h19.elim (fun e => congrArg (·[n]) e) (fun e => absurd (e n) hl)
  | cmp n => exact h20.elim (fun e => congrArg (·[n]) e) (fun e => absurd (e n) hl)
  | adc n => exact h21.elim (fun e => congrArg (·[n]) e) (fun e => absurd (e n) hl)
  | tmr n => exact h22.elim (fun e => congrArg (·[n]) e) (fun e => absurd (e n) hl)
  | devtime => exact h2.resolve_right hl
  | jnl => exact h3.resolve_right hl
  | heldAcc => exact h4.resolve_right hl
  | flt => exact h5.resolve_right hl
  | sys => exact h6.resolve_right hl
  | auth => exact h7.resolve_right hl
  | phg => exact h11.resolve_right hl
  | meas => exact h28.resolve_right hl
  | chgg => exact h13.resolve_right hl
  | aon => exact h15.resolve_right hl
  | fc => exact h16.resolve_right hl
  | hif => exact h18.resolve_right hl
  | thm => exact h23.resolve_right hl
  | mem => exact h24.resolve_right hl
  | out => exact h25.resolve_right hl
  | rdata => exact h26.resolve_right hl
  | freeCtr => exact h27.resolve_right hl

theorem State.setWord_only (h : OnlyAt P s₀ s) (off : Nat) (w : Word) (hp : P (.reg off)) : OnlyAt P s₀ (s.setWord off w) := by
  refine h.trans (fun l hl => ?_)
  cases l with
  | reg o =>
    have ho : o ≠ off := fun e => hl (e ▸ hp)
    simp [Place.Same, State.word, State.setWord, ho]
  | _ => rfl

theorem State.setFld_only (h : OnlyAt P s₀ s) (f : Fld) (v : Nat) (hp : P (.reg f.off)) : OnlyAt P s₀ (s.setFld f v) :=
  State.setWord_only h f.off _ hp

theorem State.setOn_only (h : OnlyAt P s₀ s) (f : Fld) (b : Bool) (hp : P (.reg f.off)) : OnlyAt P s₀ (s.setOn f b) :=
  State.setFld_only h f _ hp

theorem State.count_only (h : OnlyAt P s₀ s) (f : Fld) (hp : P (.reg f.off)) : OnlyAt P s₀ (s.count f) :=
  OnlyAt.ite (State.setFld_only h f _ hp) h

theorem State.setSfld_only (h : OnlyAt P s₀ s) (f : Fld) (i : Int) (hp : P (.reg f.off)) : OnlyAt P s₀ (s.setSfld f i) :=
  State.setFld_only h f _ hp

theorem State.setCode_only (h : OnlyAt P s₀ s) (f : Fld) (q : Rat) (hp : P (.reg f.off)) : OnlyAt P s₀ (s.setCode f q) :=
  State.setFld_only h f _ hp

theorem State.setScode_only (h : OnlyAt P s₀ s) (f : Fld) (q : Rat) (hp : P (.reg f.off)) : OnlyAt P s₀ (s.setScode f q) :=
  State.setFld_only h f _ hp

theorem State.each_only {α : Type} (h : OnlyAt P s₀ s) (l : List α) (f : State → α → State)
    (hf : ∀ t a, a ∈ l → OnlyAt P s₀ t → OnlyAt P s₀ (f t a)) : OnlyAt P s₀ (s.each l f) := by
  unfold State.each
  induction l generalizing s with
  | nil => exact h
  | cons a l ih => exact ih (hf s a (by simp) h) (fun t b hb => hf t b (by simp [hb]))

theorem State.free_only (h : OnlyAt P s₀ s) (hp : P .freeCtr) : OnlyAt P s₀ s.free.2 := by
  refine h.trans (fun l hl => ?_)
  cases l with
  | freeCtr => exact absurd hp hl
  | _ => rfl

theorem State.modFeed_only (h : OnlyAt P s₀ s) (n : Fin 4) (f : FeedH → FeedH) (hp : P (.feed n)) : OnlyAt P s₀ (s.modFeed n f) := by
  refine h.trans (fun l hl => ?_)
  cases l with
  | feed m => exact vmod_ne s.feed f (fun e => hl (e ▸ hp))
  | _ => rfl

theorem State.modPh_only (h : OnlyAt P s₀ s) (n : Fin 16) (f : PhH → PhH) (hp : P (.ph n)) : OnlyAt P s₀ (s.modPh n f) := by
  refine h.trans (fun l hl => ?_)
  cases l with
  | ph m => exact vmod_ne s.ph f (fun e => hl (e ▸ hp))
  | _ => rfl

theorem State.modPhp_only (h : OnlyAt P s₀ s) (n : Fin 2) (f : PhpH → PhpH) (hp : P (.php n)) : OnlyAt P s₀ (s.modPhp n f) := by
  refine h.trans (fun l hl => ?_)
  cases l with
  | php m => exact vmod_ne s.php f (fun e => hl (e ▸ hp))
  | _ => rfl

theorem State.modChg_only (h : OnlyAt P s₀ s) (n : Fin 2) (f : ChgH → ChgH) (hp : P (.chg n)) : OnlyAt P s₀ (s.modChg n f) := by
  refine h.trans (fun l hl => ?_)
  cases l with
  | chg m => exact vmod_ne s.chg f (fun e => hl (e ▸ hp))
  | _ => rfl

theorem State.modPk_only (h : OnlyAt P s₀ s) (n : Fin 2) (f : PkH → PkH) (hp : P (.pk n)) : OnlyAt P s₀ (s.modPk n f) := by
  refine h.trans (fun l hl => ?_)
  cases l with
  | pk m => exact vmod_ne s.pk f (fun e => hl (e ▸ hp))
  | _ => rfl

theorem State.modRing_only (h : OnlyAt P s₀ s) (n : Fin 64) (f : RingH → RingH) (hp : P (.ring n)) : OnlyAt P s₀ (s.modRing n f) := by
  refine h.trans (fun l hl => ?_)
  cases l with
  | ring m => exact vmod_ne s.ring f (fun e => hl (e ▸ hp))
  | _ => rfl

theorem State.modTw_only (h : OnlyAt P s₀ s) (n : Fin 3) (f : TwH → TwH) (hp : P (.tw n)) : OnlyAt P s₀ (s.modTw n f) := by
  refine h.trans (fun l hl => ?_)
  cases l with
  | tw m => exact vmod_ne s.tw f (fun e => hl (e ▸ hp))
  | _ => rfl

theorem State.modCmp_only (h : OnlyAt P s₀ s) (n : Fin 48) (f : CmpH → CmpH) (hp : P (.cmp n)) : OnlyAt P s₀ (s.modCmp n f) := by
  refine h.trans (fun l hl => ?_)
  cases l with
  | cmp m => exact vmod_ne s.cmp f (fun e => hl (e ▸ hp))
  | _ => rfl

theorem State.modAdc_only (h : OnlyAt P s₀ s) (n : Fin 2) (f : AdcH → AdcH) (hp : P (.adc n)) : OnlyAt P s₀ (s.modAdc n f) := by
  refine h.trans (fun l hl => ?_)
  cases l with
  | adc m => exact vmod_ne s.adc f (fun e => hl (e ▸ hp))
  | _ => rfl

theorem State.modTmr_only (h : OnlyAt P s₀ s) (n : Fin 8) (f : TmrH → TmrH) (hp : P (.tmr n)) : OnlyAt P s₀ (s.modTmr n f) := by
  refine h.trans (fun l hl => ?_)
  cases l with
  | tmr m => exact vmod_ne s.tmr f (fun e => hl (e ▸ hp))
  | _ => rfl

end Sys2Proof.Machine
end

