-- ==== Sys2Proof/Laws/OnlyOps.lean ====
section
/-! SUPPORT. What each operation of Machine/Ops.lean may change: `FP.x` says that its places lie in `P`. -/

namespace Sys2Proof.Machine

def FP.send (P : Place → Prop) : Prop :=
    P (.reg HIF_LNK) ∧
    P .out ∧
    P .hif

theorem State.send_only {P : Place → Prop} {s₀ s : State} (h : OnlyAt P s₀ s) (o : HostOut) (hp : FP.send P) :
    OnlyAt P s₀ (State.send s o) := by
  unfold FP.send at hp
  obtain ⟨p0, p1, p2⟩ := hp
  unfold State.send
  repeat' first
    | with_reducible assumption
    | extract_lets
    | with_reducible apply OnlyAt.ite
    | with_reducible apply State.setOn_only
    | split
    | (with_reducible refine OnlyAt.mk_fields ?_ ?_ ?_ ?_ ?_ ?_ ?_ ?_ ?_ ?_ ?_ ?_ ?_ ?_ ?_ ?_ ?_ ?_ ?_ ?_ ?_ ?_ ?_ ?_ ?_ ?_ ?_ ?_)
    | (with_reducible exact Or.inr (by assumption))
    | with_reducible exact Or.inl rfl

def FP.aer (P : Place → Prop) : Prop :=
    P .hif ∧
    P (.reg HIF_LNK) ∧
    P .out

theorem State.aer_only {P : Place → Prop} {s₀ s : State} (h : OnlyAt P s₀ s) (t : Fin 3) (hp : FP.aer P) :
    OnlyAt P s₀ (State.aer s t) := by
  unfold FP.aer at hp
  obtain ⟨p0, p1, p2⟩ := hp
  unfold State.aer
  repeat' first
    | with_reducible assumption
    | extract_lets
    | with_reducible apply OnlyAt.ite
    | with_reducible apply State.setOn_only
    | split
    | (with_reducible refine OnlyAt.mk_fields ?_ ?_ ?_ ?_ ?_ ?_ ?_ ?_ ?_ ?_ ?_ ?_ ?_ ?_ ?_ ?_ ?_ ?_ ?_ ?_ ?_ ?_ ?_ ?_ ?_ ?_ ?_ ?_)
    | (with_reducible exact Or.inr (by assumption))
    | with_reducible exact Or.inl rfl

def FP.unsupported (P : Place → Prop) : Prop :=
    P (.reg HIF_LNK) ∧
    P .hif ∧
    P .out

theorem State.unsupported_only {P : Place → Prop} {s₀ s : State} (h : OnlyAt P s₀ s) (read : Bool) (hp : FP.unsupported P) :
    OnlyAt P s₀ (State.unsupported s read) := by
  unfold FP.unsupported at hp
  obtain ⟨p0, p1, p2⟩ := hp
  unfold State.unsupported
  repeat' first
    | with_reducible assumption
    | extract_lets
    | with_reducible apply OnlyAt.ite
    | with_reducible apply State.setOn_only
    | split
    | (with_reducible refine OnlyAt.mk_fields ?_ ?_ ?_ ?_ ?_ ?_ ?_ ?_ ?_ ?_ ?_ ?_ ?_ ?_ ?_ ?_ ?_ ?_ ?_ ?_ ?_ ?_ ?_ ?_ ?_ ?_ ?_ ?_)
    | (with_reducible exact Or.inr (by assumption))
    | with_reducible exact Or.inl rfl

def FP.msix (P : Place → Prop) : Prop :=
    P (.reg MSIX_PBA_LO) ∧
    P (.reg MSIX_PBA_HI) ∧
    FP.send P

theorem State.msix_only {P : Place → Prop} {s₀ s : State} (h : OnlyAt P s₀ s) (v : Nat) (hp : FP.msix P) :
    OnlyAt P s₀ (State.msix s v) := by
  unfold FP.msix at hp
  obtain ⟨p0, p1, p2⟩ := hp
  unfold State.msix
  repeat' first
    | with_reducible assumption
    | extract_lets
    | with_reducible apply OnlyAt.ite
    | with_reducible apply State.setWord_only
    | with_reducible apply State.send_only
    | split
    | dsimp +zetaDelta only

abbrev FP.telAdd (P : Place → Prop) : Prop :=
    P .hif

theorem State.telAdd_only {P : Place → Prop} {s₀ s : State} (h : OnlyAt P s₀ s) (cls : Fin 3) (payload : List Byte) (hp : FP.telAdd P) :
    OnlyAt P s₀ (State.telAdd s cls payload) := by
  have p0 := hp
  unfold State.telAdd
  repeat' first
    | with_reducible assumption
    | extract_lets
    | with_reducible apply OnlyAt.ite
    | split
    | (with_reducible refine OnlyAt.mk_fields ?_ ?_ ?_ ?_ ?_ ?_ ?_ ?_ ?_ ?_ ?_ ?_ ?_ ?_ ?_ ?_ ?_ ?_ ?_ ?_ ?_ ?_ ?_ ?_ ?_ ?_ ?_ ?_)
    | (with_reducible exact Or.inr (by assumption))
    | with_reducible exact Or.inl rfl

abbrev FP.alertRise (P : Place → Prop) : Prop :=
    P (.tw 0)

theorem State.alertRise_only {P : Place → Prop} {s₀ s : State} (h : OnlyAt P s₀ s) (src : Nat) (hp : FP.alertRise P) :
    OnlyAt P s₀ (State.alertRise s src) := by
  have p0 := hp
  unfold State.alertRise
  repeat' first
    | with_reducible assumption
    | extract_lets
    | with_reducible apply OnlyAt.ite
    | with_reducible apply State.modTw_only

def FP.lineRise (P : Place → Prop) : Prop :=
    P (.tw 0) ∧
    FP.msix P

theorem lineRise_only {P : Place → Prop} {s₀ b : State} (h : OnlyAt P s₀ b) (src : Nat) (a : State) (hp : FP.lineRise P) :
    OnlyAt P s₀ (lineRise src a b) := by
  unfold FP.lineRise at hp
  obtain ⟨p0, p1⟩ := hp
  have e : OnlyAt P s₀ (b.alertRise src) := State.alertRise_only h _ p0
  unfold lineRise
  extract_lets
  exact OnlyAt.ite (OnlyAt.ite (State.msix_only e _ p1) e) h

def FP.setFlags (P : Place → Prop) (off : Nat) : Prop :=
    P (.reg off) ∧
    P .hif ∧
    FP.lineRise P

theorem State.setFlags_only {P : Place → Prop} {s₀ s : State} (h : OnlyAt P s₀ s) (off : Nat) (m : Word) (hp : FP.setFlags P off) :
    OnlyAt P s₀ (State.setFlags s off m) := by
  unfold FP.setFlags at hp
  obtain ⟨p0, p1, p2⟩ := hp
  unfold State.setFlags
  repeat' first
    | with_reducible assumption
    | extract_lets
    | with_reducible apply OnlyAt.ite
    | with_reducible apply State.setWord_only
    | with_reducible apply State.telAdd_only
    | with_reducible apply lineRise_only
    | split
    | dsimp +zetaDelta only

abbrev FP.evt (P : Place → Prop) (f : Nat) : Prop :=
    FP.setFlags P f

theorem State.evt_only {P : Place → Prop} {s₀ s : State} (h : OnlyAt P s₀ s) (f : Fld) (hp : FP.evt P f.off) :
    OnlyAt P s₀ (State.evt s f) := by
  have p0 := hp
  unfold State.evt
  repeat' first
    | with_reducible assumption
    | extract_lets
    | with_reducible apply State.setFlags_only

abbrev FP.event (P : Place → Prop) : Prop :=
    P .flt

theorem State.event_only {P : Place → Prop} {s₀ s : State} (h : OnlyAt P s₀ s) (e : FltEvent) (hp : FP.event P) :
    OnlyAt P s₀ (State.event s e) := by
  have p0 := hp
  unfold State.event
  repeat' first
    | with_reducible assumption
    | extract_lets
    | split
    | (with_reducible refine OnlyAt.mk_fields ?_ ?_ ?_ ?_ ?_ ?_ ?_ ?_ ?_ ?_ ?_ ?_ ?_ ?_ ?_ ?_ ?_ ?_ ?_ ?_ ?_ ?_ ?_ ?_ ?_ ?_ ?_ ?_)
    | (with_reducible exact Or.inr (by assumption))
    | with_reducible exact Or.inl rfl

abbrev FP.fault (P : Place → Prop) : Prop :=
    P .flt

theorem State.fault_only {P : Place → Prop} {s₀ s : State} (h : OnlyAt P s₀ s) (src : Fin 64) (addr : Nat) (hp : FP.fault P) :
    OnlyAt P s₀ (State.fault s src addr) := by
  have p0 := hp
  unfold State.fault
  repeat' first
    | with_reducible assumption
    | extract_lets
    | with_reducible apply State.event_only

abbrev FP.regFault (P : Place → Prop) : Prop :=
    P .flt

theorem State.regFault_only {P : Place → Prop} {s₀ s : State} (h : OnlyAt P s₀ s) (o : Origin) (off : Nat) (hp : FP.regFault P) :
    OnlyAt P s₀ (State.regFault s o off) := by
  have p0 := hp
  unfold State.regFault
  repeat' first
    | with_reducible assumption
    | extract_lets
    | with_reducible apply State.event_only

def FP.cmpAssert (P : Place → Prop) (c : Nat) : Prop :=
    P (.reg (CMP_EVT c)) ∧
    FP.evt P (CMP_EVT c) ∧
    P (.reg (CMP_STAT c))

theorem State.cmpAssert_only {P : Place → Prop} {s₀ s : State} (h : OnlyAt P s₀ s) (c : Nat) (upper : Bool) (hp : FP.cmpAssert P c) :
    OnlyAt P s₀ (State.cmpAssert s c upper) := by
  unfold FP.cmpAssert at hp
  obtain ⟨p0, p1, p2⟩ := hp
  unfold State.cmpAssert
  repeat' first
    | with_reducible assumption
    | extract_lets
    | with_reducible apply OnlyAt.ite
    | with_reducible apply State.count_only
    | with_reducible apply State.evt_only
    | with_reducible apply State.setFld_only

abbrev FP.edgeTo (P : Place → Prop) (n : Fin 8) : Prop :=
    P (.tmr n)

theorem State.edgeTo_only {P : Place → Prop} {s₀ s : State} (h : OnlyAt P s₀ s) (code : Nat) (n : Fin 8) (hp : FP.edgeTo P n) :
    OnlyAt P s₀ (State.edgeTo s code n) := by
  have p0 := hp
  unfold State.edgeTo
  repeat' first
    | with_reducible assumption
    | extract_lets
    | with_reducible apply OnlyAt.ite
    | with_reducible apply State.modTmr_only

def FP.sourceEdge (P : Place → Prop) : Prop :=
    ∀ (z0 : Fin 8), FP.edgeTo P z0

theorem State.sourceEdge_only {P : Place → Prop} {s₀ s : State} (h : OnlyAt P s₀ s) (code : Nat) (hp : FP.sourceEdge P) :
    OnlyAt P s₀ (State.sourceEdge s code) := by
  unfold FP.sourceEdge at hp
  have p0 := hp
  unfold State.sourceEdge
  repeat' first
    | with_reducible assumption
    | extract_lets
    | with_reducible apply State.edgeTo_only
    | (with_reducible refine State.each_only ?_ _ _ (fun _ _ _ _ => ?_))
    | with_reducible exact p0 _

def FP.cmpRow (P : Place → Prop) (c : Nat) : Prop :=
    P (.cmp (Fin.ofNat 48 c)) ∧
    FP.cmpAssert P c

theorem State.cmpRow_only {P : Place → Prop} {s₀ s : State} (h : OnlyAt P s₀ s) (c : Nat) (upper : Bool) (w : Nat) (hp : FP.cmpRow P c) :
    OnlyAt P s₀ (State.cmpRow s c upper w).2 := by
  unfold FP.cmpRow at hp
  obtain ⟨p0, p1⟩ := hp
  unfold State.cmpRow
  repeat' first
    | with_reducible assumption
    | extract_lets
    | with_reducible apply OnlyAt.ite
    | with_reducible apply State.modCmp_only
    | with_reducible apply State.cmpAssert_only
    | dsimp only
    | split

abbrev FP.cmpReport (P : Place → Prop) (c : Nat) : Prop :=
    FP.cmpRow P c

theorem State.cmpReport_only {P : Place → Prop} {s₀ s : State} (h : OnlyAt P s₀ s) (c : Nat) (upper : Bool) (w : Nat) (hp : FP.cmpReport P c) :
    OnlyAt P s₀ (State.cmpReport s c upper w) := by
  have p0 := hp
  unfold State.cmpReport
  repeat' first
    | with_reducible assumption
    | extract_lets
    | with_reducible apply State.cmpRow_only

abbrev FP.cmpClear (P : Place → Prop) (c : Nat) : Prop :=
    P (.reg (CMP_STAT c))

theorem State.cmpClear_only {P : Place → Prop} {s₀ s : State} (h : OnlyAt P s₀ s) (c : Nat) (hp : FP.cmpClear P c) :
    OnlyAt P s₀ (State.cmpClear s c) := by
  have p0 := hp
  unfold State.cmpClear
  repeat' first
    | with_reducible assumption
    | extract_lets
    | with_reducible apply OnlyAt.ite
    | with_reducible apply State.setFld_only

abbrev FP.cmpForget (P : Place → Prop) (c : Nat) : Prop :=
    P (.cmp (Fin.ofNat 48 c))

theorem State.cmpForget_only {P : Place → Prop} {s₀ s : State} (h : OnlyAt P s₀ s) (c : Nat) (hp : FP.cmpForget P c) :
    OnlyAt P s₀ (State.cmpForget s c) := by
  have p0 := hp
  unfold State.cmpForget
  repeat' first
    | with_reducible assumption
    | extract_lets
    | with_reducible apply State.modCmp_only

abbrev FP.journal (P : Place → Prop) : Prop :=
    P .jnl

theorem State.journal_only {P : Place → Prop} {s₀ s : State} (h : OnlyAt P s₀ s) (r : JRec) (hp : FP.journal P) :
    OnlyAt P s₀ (State.journal s r) := by
  have p0 := hp
  unfold State.journal
  repeat' first
    | with_reducible assumption
    | extract_lets
    | split
    | (with_reducible refine OnlyAt.mk_fields ?_ ?_ ?_ ?_ ?_ ?_ ?_ ?_ ?_ ?_ ?_ ?_ ?_ ?_ ?_ ?_ ?_ ?_ ?_ ?_ ?_ ?_ ?_ ?_ ?_ ?_ ?_ ?_)
    | (with_reducible exact Or.inr (by assumption))
    | with_reducible exact Or.inl rfl

abbrev FP.jevent (P : Place → Prop) : Prop :=
    P .jnl

theorem State.jevent_only {P : Place → Prop} {s₀ s : State} (h : OnlyAt P s₀ s) (b : HwBlock) (obj : Nat) (detail : Nat) (old : Word) (new : Word) (aux : Word) (hp : FP.jevent P) :
    OnlyAt P s₀ (State.jevent s b obj detail old new aux) := by
  have p0 := hp
  unfold State.jevent
  repeat' first
    | with_reducible assumption
    | extract_lets
    | with_reducible apply State.journal_only

abbrev FP.postEntry (P : Place → Prop) (n : Fin 64) : Prop :=
    P (.ring n)

theorem State.postEntry_only {P : Place → Prop} {s₀ s : State} (h : OnlyAt P s₀ s) (n : Fin 64) (c : Compl) (hp : FP.postEntry P n) :
    OnlyAt P s₀ (State.postEntry s n c) := by
  have p0 := hp
  unfold State.postEntry
  repeat' first
    | with_reducible assumption
    | extract_lets
    | with_reducible apply OnlyAt.ite
    | with_reducible apply State.modRing_only

abbrev FP.complete (P : Place → Prop) (n : Fin 64) : Prop :=
    FP.postEntry P n

theorem State.complete_only {P : Place → Prop} {s₀ s : State} (h : OnlyAt P s₀ s) (n : Fin 64) (d : Desc) (status : Nat) (qual : Nat) (result : Nat) (hp : FP.complete P n) :
    OnlyAt P s₀ (State.complete s n d status qual result) := by
  have p0 := hp
  unfold State.complete
  repeat' first
    | with_reducible assumption
    | extract_lets
    | with_reducible apply State.postEntry_only

def FP.noticeOn (P : Place → Prop) (n : Fin 64) : Prop :=
    FP.postEntry P n ∧
    FP.evt P FC_EVT ∧
    P (.ring n)

theorem State.noticeOn_only {P : Place → Prop} {s₀ s : State} (h : OnlyAt P s₀ s) (n : Fin 64) (code : Nat) (data : Nat) (hp : FP.noticeOn P n) :
    OnlyAt P s₀ (State.noticeOn s n code data) := by
  unfold FP.noticeOn at hp
  obtain ⟨p0, p1, p2⟩ := hp
  unfold State.noticeOn
  repeat' first
    | with_reducible assumption
    | extract_lets
    | with_reducible apply OnlyAt.ite
    | with_reducible apply State.postEntry_only
    | with_reducible apply State.evt_only
    | with_reducible apply State.modRing_only

def FP.notice (P : Place → Prop) : Prop :=
    ∀ (z0 : Fin 64), FP.noticeOn P z0

theorem State.notice_only {P : Place → Prop} {s₀ s : State} (h : OnlyAt P s₀ s) (code : Nat) (data : Nat) (hp : FP.notice P) :
    OnlyAt P s₀ (State.notice s code data) := by
  unfold FP.notice at hp
  have p0 := hp
  unfold State.notice
  repeat' first
    | with_reducible assumption
    | extract_lets
    | with_reducible apply State.noticeOn_only
    | (with_reducible refine State.each_only ?_ _ _ (fun _ _ _ _ => ?_))
    | with_reducible exact p0 _

end Sys2Proof.Machine
end

