-- ==== Sys2Proof/Laws/OnlyOperands.lean ====
section
/-! SUPPORT. What each operation of Machine/Operands.lean may change: `FP.x` says that its places lie in `P`. -/

namespace Sys2Proof.Machine

end Sys2Proof.Machine
end

