-- ==== Sys2Proof/Laws/OnlyPower.lean ====
section
/-! SUPPORT. What each operation of Machine/Power.lean may change: `FP.x` says that its places lie in `P`. -/

namespace Sys2Proof.Machine

abbrev FP.setQual (P : Place → Prop) : Prop :=
    P (.reg FEED_GSTAT)

theorem State.setQual_only {P : Place → Prop} {s₀ s : State} (h : OnlyAt P s₀ s) (n : Fin 4) (b : Bool) (hp : FP.setQual P) :
    OnlyAt P s₀ (State.setQual s n b) := by
  have p0 := hp
  unfold State.setQual
  repeat' first
    | with_reducible assumption
    | extract_lets
    | with_reducible apply State.setOn_only

abbrev FP.gatesOff (P : Place → Prop) (n : Fin 4) : Prop :=
    P (.reg (FEED_STAT ↑n))

theorem State.gatesOff_only {P : Place → Prop} {s₀ s : State} (h : OnlyAt P s₀ s) (n : Fin 4) (hp : FP.gatesOff P n) :
    OnlyAt P s₀ (State.gatesOff s n) := by
  have p0 := hp
  unfold State.gatesOff
  repeat' first
    | with_reducible assumption
    | extract_lets
    | with_reducible apply State.setOn_only

def FP.setGroup (P : Place → Prop) : Prop :=
    (∀ (y0 : Fin 4), P (.reg (FEED_STAT ↑y0))) ∧
    P (.reg FEED_GSTAT)

theorem State.setGroup_only {P : Place → Prop} {s₀ s : State} (h : OnlyAt P s₀ s) (g : List (Fin 4)) (hp : FP.setGroup P) :
    OnlyAt P s₀ (State.setGroup s g) := by
  unfold FP.setGroup at hp
  obtain ⟨p0, p1⟩ := hp
  unfold State.setGroup
  repeat' first
    | with_reducible assumption
    | extract_lets
    | with_reducible apply State.setOn_only
    | with_reducible apply State.setFld_only
    | (with_reducible refine State.each_only ?_ _ _ (fun _ _ _ _ => ?_))
    | with_reducible exact p0 _

def FP.syncFeeds (P : Place → Prop) : Prop :=
    (∀ (y0 : Fin 4), P (.reg (FEED_STAT ↑y0))) ∧
    FP.setGroup P

theorem State.syncFeeds_only {P : Place → Prop} {s₀ s : State} (h : OnlyAt P s₀ s)  (hp : FP.syncFeeds P) :
    OnlyAt P s₀ (State.syncFeeds s) := by
  unfold FP.syncFeeds at hp
  obtain ⟨p0, p1⟩ := hp
  unfold State.syncFeeds
  repeat' first
    | with_reducible assumption
    | extract_lets
    | with_reducible apply OnlyAt.ite
    | with_reducible apply State.setFld_only
    | with_reducible apply State.setGroup_only
    | (with_reducible refine State.each_only ?_ _ _ (fun _ _ _ _ => ?_))
    | with_reducible exact p0 _

def FP.syncPort (P : Place → Prop) (k : Fin 2) : Prop :=
    P (.reg (PHP_STAT ↑k)) ∧
    P (.reg (PHP_CMD ↑k)) ∧
    P (.reg PH_GSTAT)

theorem State.syncPort_only {P : Place → Prop} {s₀ s : State} (h : OnlyAt P s₀ s) (k : Fin 2) (hp : FP.syncPort P k) :
    OnlyAt P s₀ (State.syncPort s k) := by
  unfold FP.syncPort at hp
  obtain ⟨p0, p1, p2⟩ := hp
  unfold State.syncPort
  repeat' first
    | with_reducible assumption
    | extract_lets
    | with_reducible apply State.setFld_only
    | with_reducible apply State.setCode_only

def FP.syncPorts (P : Place → Prop) : Prop :=
    FP.syncPort P 1 ∧
    FP.syncPort P 0

theorem State.syncPorts_only {P : Place → Prop} {s₀ s : State} (h : OnlyAt P s₀ s)  (hp : FP.syncPorts P) :
    OnlyAt P s₀ (State.syncPorts s) := by
  unfold FP.syncPorts at hp
  obtain ⟨p0, p1⟩ := hp
  unfold State.syncPorts
  repeat' first
    | with_reducible assumption
    | extract_lets
    | with_reducible apply State.syncPort_only

def FP.setCmd (P : Place → Prop) (k : Fin 2) : Prop :=
    FP.syncPort P k ∧
    P (.php k)

theorem State.setCmd_only {P : Place → Prop} {s₀ s : State} (h : OnlyAt P s₀ s) (k : Fin 2) (a : Rat) (hp : FP.setCmd P k) :
    OnlyAt P s₀ (State.setCmd s k a) := by
  unfold FP.setCmd at hp
  obtain ⟨p0, p1⟩ := hp
  unfold State.setCmd
  repeat' first
    | with_reducible assumption
    | extract_lets
    | with_reducible apply State.syncPort_only
    | with_reducible apply State.modPhp_only

def FP.setPh (P : Place → Prop) (n : Fin 16) : Prop :=
    P (.reg (PH_STAT ↑n)) ∧
    P (.ph n)

theorem State.setPh_only {P : Place → Prop} {s₀ s : State} (h : OnlyAt P s₀ s) (n : Fin 16) (st : PhSt) (hp : FP.setPh P n) :
    OnlyAt P s₀ (State.setPh s n st) := by
  unfold FP.setPh at hp
  obtain ⟨p0, p1⟩ := hp
  unfold State.setPh
  repeat' first
    | with_reducible assumption
    | extract_lets
    | with_reducible apply State.setFld_only
    | with_reducible apply State.modPh_only
    | split

def FP.stopPhases (P : Place → Prop) : Prop :=
    FP.syncPorts P ∧
    (∀ (z0 : Fin 16), FP.setPh P z0)

theorem State.stopPhases_only {P : Place → Prop} {s₀ s : State} (h : OnlyAt P s₀ s)  (hp : FP.stopPhases P) :
    OnlyAt P s₀ (State.stopPhases s) := by
  unfold FP.stopPhases at hp
  obtain ⟨p0, p1⟩ := hp
  unfold State.stopPhases
  repeat' first
    | with_reducible assumption
    | extract_lets
    | with_reducible apply State.syncPorts_only
    | with_reducible apply State.setPh_only
    | (with_reducible refine State.each_only ?_ _ _ (fun _ _ _ _ => ?_))
    | with_reducible exact p1 _

def FP.turn (P : Place → Prop) (k : Fin 2) : Prop :=
    P (.reg (PHP_STAT ↑k)) ∧
    FP.evt P (PHP_EVT ↑k) ∧
    P (.php k) ∧
    (∀ (y0 : Fin 16), P (.ph y0)) ∧
    FP.syncPort P k

theorem State.turn_only {P : Place → Prop} {s₀ s : State} (h : OnlyAt P s₀ s) (k : Fin 2) (d : Dir) (hp : FP.turn P k) :
    OnlyAt P s₀ (State.turn s k d) := by
  unfold FP.turn at hp
  obtain ⟨p0, p1, p2, p3, p4⟩ := hp
  unfold State.turn
  repeat' first
    | with_reducible assumption
    | extract_lets
    | with_reducible apply OnlyAt.ite
    | with_reducible apply State.setFld_only
    | with_reducible apply State.evt_only
    | with_reducible apply State.modPhp_only
    | with_reducible apply State.modPh_only
    | with_reducible apply State.syncPort_only
    | (with_reducible refine State.each_only ?_ _ _ (fun _ _ _ _ => ?_))
    | with_reducible exact p3 _

abbrev FP.syncRoles (P : Place → Prop) : Prop :=
    P (.reg CHG_GSTAT)

theorem State.syncRoles_only {P : Place → Prop} {s₀ s : State} (h : OnlyAt P s₀ s)  (hp : FP.syncRoles P) :
    OnlyAt P s₀ (State.syncRoles s) := by
  have p0 := hp
  unfold State.syncRoles
  repeat' first
    | with_reducible assumption
    | extract_lets
    | with_reducible apply State.setOn_only

def FP.setItgt (P : Place → Prop) (k : Fin 2) : Prop :=
    P (.reg (CHG_CUR ↑k)) ∧
    P (.chg k)

theorem State.setItgt_only {P : Place → Prop} {s₀ s : State} (h : OnlyAt P s₀ s) (k : Fin 2) (i : Rat) (hp : FP.setItgt P k) :
    OnlyAt P s₀ (State.setItgt s k i) := by
  unfold FP.setItgt at hp
  obtain ⟨p0, p1⟩ := hp
  unfold State.setItgt
  repeat' first
    | with_reducible assumption
    | extract_lets
    | with_reducible apply State.setScode_only
    | with_reducible apply State.modChg_only

def FP.endCharge (P : Place → Prop) (k : Fin 2) : Prop :=
    P (.chg k) ∧
    P (.reg (CHG_TIME ↑k)) ∧
    P (.reg (CHG_STAT ↑k)) ∧
    P (.reg (CHG_PWR ↑k))

theorem State.endCharge_only {P : Place → Prop} {s₀ s : State} (h : OnlyAt P s₀ s) (k : Fin 2) (hp : FP.endCharge P k) :
    OnlyAt P s₀ (State.endCharge s k) := by
  unfold FP.endCharge at hp
  obtain ⟨p0, p1, p2, p3⟩ := hp
  unfold State.endCharge
  repeat' first
    | with_reducible assumption
    | extract_lets
    | with_reducible apply State.modChg_only
    | with_reducible apply State.setFld_only
    | with_reducible apply State.setOn_only

def FP.setRole (P : Place → Prop) (k : Fin 2) : Prop :=
    FP.endCharge P k ∧
    P (.reg (CHG_STAT ↑k)) ∧
    P (.chg k) ∧
    P (.reg (CHG_CNT ↑k)) ∧
    FP.setCmd P k ∧
    FP.turn P k ∧
    P (.reg (CHG_DPWR ↑k)) ∧
    P (.reg CHG_GSTAT)

theorem State.setRole_only {P : Place → Prop} {s₀ s : State} (h : OnlyAt P s₀ s) (k : Fin 2) (r : Role) (hp : FP.setRole P k) :
    OnlyAt P s₀ (State.setRole s k r) := by
  unfold FP.setRole at hp
  obtain ⟨p0, p1, p2, p3, p4, p5, p6, p7⟩ := hp
  unfold State.setRole
  repeat' first
    | with_reducible assumption
    | extract_lets
    | with_reducible apply OnlyAt.ite
    | with_reducible apply State.endCharge_only
    | with_reducible apply State.setFld_only
    | with_reducible apply State.modChg_only
    | with_reducible apply State.count_only
    | with_reducible apply State.setCmd_only
    | with_reducible apply State.turn_only
    | with_reducible apply State.syncRoles_only
    | split
    | dsimp +zetaDelta only

def FP.setStage (P : Place → Prop) (k : Fin 2) : Prop :=
    P (.reg (CHG_STAT ↑k)) ∧
    P (.chg k) ∧
    P (.reg (CHG_TIME ↑k))

theorem State.setStage_only {P : Place → Prop} {s₀ s : State} (h : OnlyAt P s₀ s) (k : Fin 2) (g : Stage) (hp : FP.setStage P k) :
    OnlyAt P s₀ (State.setStage s k g) := by
  unfold FP.setStage at hp
  obtain ⟨p0, p1, p2⟩ := hp
  unfold State.setStage
  repeat' first
    | with_reducible assumption
    | extract_lets
    | with_reducible apply OnlyAt.ite
    | with_reducible apply State.setFld_only
    | with_reducible apply State.modChg_only

abbrev FP.setPk (P : Place → Prop) (k : Fin 2) : Prop :=
    P (.reg (PK_STAT ↑k))

theorem State.setPk_only {P : Place → Prop} {s₀ s : State} (h : OnlyAt P s₀ s) (k : Fin 2) (st : PkSt) (hp : FP.setPk P k) :
    OnlyAt P s₀ (State.setPk s k st) := by
  have p0 := hp
  unfold State.setPk
  repeat' first
    | with_reducible assumption
    | extract_lets
    | with_reducible apply State.setFld_only

def FP.syncPack (P : Place → Prop) (k : Fin 2) : Prop :=
    P (.reg (PK_STAT ↑k)) ∧
    P (.reg (CHG_STAT ↑k))

theorem State.syncPack_only {P : Place → Prop} {s₀ s : State} (h : OnlyAt P s₀ s) (k : Fin 2) (hp : FP.syncPack P k) :
    OnlyAt P s₀ (State.syncPack s k) := by
  unfold FP.syncPack at hp
  obtain ⟨p0, p1⟩ := hp
  unfold State.syncPack
  repeat' first
    | with_reducible assumption
    | extract_lets
    | with_reducible apply OnlyAt.ite
    | with_reducible apply State.setFld_only
    | with_reducible apply State.setOn_only

def FP.setGates (P : Place → Prop) (k : Fin 2) : Prop :=
    P (.reg (COUL_STAT ↑k)) ∧
    FP.syncPack P k ∧
    P (.reg (PK_STAT ↑k))

theorem State.setGates_only {P : Place → Prop} {s₀ s : State} (h : OnlyAt P s₀ s) (k : Fin 2) (chg : Bool) (dsg : Bool) (hp : FP.setGates P k) :
    OnlyAt P s₀ (State.setGates s k chg dsg) := by
  unfold FP.setGates at hp
  obtain ⟨p0, p1, p2⟩ := hp
  unfold State.setGates
  repeat' first
    | with_reducible assumption
    | extract_lets
    | with_reducible apply OnlyAt.ite
    | with_reducible apply State.setOn_only
    | with_reducible apply State.syncPack_only

def FP.openPort (P : Place → Prop) (k : Fin 2) : Prop :=
    FP.setGates P k ∧
    P (.pk k) ∧
    FP.syncPack P k ∧
    FP.setPk P k

theorem State.openPort_only {P : Place → Prop} {s₀ s : State} (h : OnlyAt P s₀ s) (k : Fin 2) (hp : FP.openPort P k) :
    OnlyAt P s₀ (State.openPort s k) := by
  unfold FP.openPort at hp
  obtain ⟨p0, p1, p2, p3⟩ := hp
  unfold State.openPort
  repeat' first
    | with_reducible assumption
    | extract_lets
    | with_reducible apply OnlyAt.ite
    | with_reducible apply State.setGates_only
    | with_reducible apply State.modPk_only
    | with_reducible apply State.syncPack_only
    | with_reducible apply State.setPk_only

def FP.dsgAfterClose (P : Place → Prop) (k : Fin 2) : Prop :=
    P (.pk k) ∧
    FP.setGates P k

theorem State.dsgAfterClose_only {P : Place → Prop} {s₀ s : State} (h : OnlyAt P s₀ s) (k : Fin 2) (hp : FP.dsgAfterClose P k) :
    OnlyAt P s₀ (State.dsgAfterClose s k) := by
  unfold FP.dsgAfterClose at hp
  obtain ⟨p0, p1⟩ := hp
  unfold State.dsgAfterClose
  repeat' first
    | with_reducible assumption
    | extract_lets
    | with_reducible apply OnlyAt.ite
    | with_reducible apply State.modPk_only
    | with_reducible apply State.setGates_only

def FP.syncThr (P : Place → Prop) : Prop :=
    P (.reg FC_THR) ∧
    FP.setFlags P FC_THR

theorem State.syncThr_only {P : Place → Prop} {s₀ s : State} (h : OnlyAt P s₀ s)  (hp : FP.syncThr P) :
    OnlyAt P s₀ (State.syncThr s) := by
  unfold FP.syncThr at hp
  obtain ⟨p0, p1⟩ := hp
  unfold State.syncThr
  repeat' first
    | with_reducible assumption
    | extract_lets
    | with_reducible apply OnlyAt.ite
    | with_reducible apply State.setFld_only
    | with_reducible apply State.setFlags_only

end Sys2Proof.Machine
end

