-- ==== Sys2Proof/Laws/OnlyJournal.lean ====
section
/-! SUPPORT. What each operation of Machine/Journal.lean may change: `FP.x` says that its places lie in `P`. -/

namespace Sys2Proof.Machine

def FP.storeRecord (P : Place → Prop) : Prop :=
    P .jnl ∧
    FP.evt P JNL_EVT ∧
    P (.reg JNL_LOST) ∧
    P .flt

theorem State.storeRecord_only {P : Place → Prop} {s₀ s : State} (h : OnlyAt P s₀ s) (r : JRec) (hp : FP.storeRecord P) :
    OnlyAt P s₀ (State.storeRecord s r) := by
  unfold FP.storeRecord at hp
  obtain ⟨p0, p1, p2, p3⟩ := hp
  unfold State.storeRecord
  repeat' first
    | with_reducible assumption
    | extract_lets
    | with_reducible apply OnlyAt.ite
    | with_reducible apply State.evt_only
    | with_reducible apply State.count_only
    | with_reducible apply State.fault_only
    | split
    | (with_reducible refine OnlyAt.mk_fields ?_ ?_ ?_ ?_ ?_ ?_ ?_ ?_ ?_ ?_ ?_ ?_ ?_ ?_ ?_ ?_ ?_ ?_ ?_ ?_ ?_ ?_ ?_ ?_ ?_ ?_ ?_ ?_)
    | (with_reducible exact Or.inr (by assumption))
    | with_reducible exact Or.inl rfl

def FP.writeRecord (P : Place → Prop) : Prop :=
    FP.storeRecord P ∧
    P .jnl

theorem State.writeRecord_only {P : Place → Prop} {s₀ s : State} (h : OnlyAt P s₀ s)  (hp : FP.writeRecord P) :
    OnlyAt P s₀ (State.writeRecord s) := by
  unfold FP.writeRecord at hp
  obtain ⟨p0, p1⟩ := hp
  unfold State.writeRecord
  repeat' first
    | with_reducible assumption
    | extract_lets
    | with_reducible apply State.storeRecord_only
    | split
    | (with_reducible refine OnlyAt.mk_fields ?_ ?_ ?_ ?_ ?_ ?_ ?_ ?_ ?_ ?_ ?_ ?_ ?_ ?_ ?_ ?_ ?_ ?_ ?_ ?_ ?_ ?_ ?_ ?_ ?_ ?_ ?_ ?_)
    | (with_reducible exact Or.inr (by assumption))
    | with_reducible exact Or.inl rfl

abbrev FP.flushJournal (P : Place → Prop) : Prop :=
    FP.writeRecord P

theorem State.flushJournal_only {P : Place → Prop} {s₀ s : State} (h : OnlyAt P s₀ s)  (hp : FP.flushJournal P) :
    OnlyAt P s₀ (State.flushJournal s) := by
  have p0 := hp
  unfold State.flushJournal
  repeat' first
    | with_reducible assumption
    | extract_lets
    | with_reducible apply State.writeRecord_only
    | (with_reducible refine State.each_only ?_ _ _ (fun _ _ _ _ => ?_))

abbrev FP.release (P : Place → Prop) : Prop :=
    P .jnl

theorem State.release_only {P : Place → Prop} {s₀ s : State} (h : OnlyAt P s₀ s) (n : Nat) (o : Origin) (hp : FP.release P) :
    OnlyAt P s₀ (State.release s n o) := by
  have p0 := hp
  unfold State.release
  repeat' first
    | with_reducible assumption
    | extract_lets
    | with_reducible apply OnlyAt.ite
    | with_reducible apply State.journal_only
    | split
    | (with_reducible refine OnlyAt.mk_fields ?_ ?_ ?_ ?_ ?_ ?_ ?_ ?_ ?_ ?_ ?_ ?_ ?_ ?_ ?_ ?_ ?_ ?_ ?_ ?_ ?_ ?_ ?_ ?_ ?_ ?_ ?_ ?_)
    | (with_reducible exact Or.inr (by assumption))
    | with_reducible exact Or.inl rfl

def FP.latchEntry (P : Place → Prop) : Prop :=
    P (.reg JNL_RDIDX) ∧
    (∀ (y0 : Fin 8), P (.reg (JNL_WIN ↑y0)))

theorem State.latchEntry_only {P : Place → Prop} {s₀ s : State} (h : OnlyAt P s₀ s) (idx : Nat) (hp : FP.latchEntry P) :
    OnlyAt P s₀ (State.latchEntry s idx) := by
  unfold FP.latchEntry at hp
  obtain ⟨p0, p1⟩ := hp
  unfold State.latchEntry
  repeat' first
    | with_reducible assumption
    | extract_lets
    | with_reducible apply State.setFld_only
    | with_reducible apply State.setOn_only
    | with_reducible apply State.setWord_only
    | (with_reducible refine State.each_only ?_ _ _ (fun _ _ _ _ => ?_))
    | with_reducible exact p1 _
    | split

abbrev FP.attendEntry (P : Place → Prop) : Prop :=
    P .jnl

theorem State.attendEntry_only {P : Place → Prop} {s₀ s : State} (h : OnlyAt P s₀ s) (o : Origin) (old : Bool) (new : Bool) (hp : FP.attendEntry P) :
    OnlyAt P s₀ (State.attendEntry s o old new) := by
  have p0 := hp
  unfold State.attendEntry
  repeat' first
    | with_reducible assumption
    | extract_lets
    | with_reducible apply OnlyAt.ite
    | with_reducible apply State.journal_only

abbrev FP.cmdEntry (P : Place → Prop) : Prop :=
    P .jnl

theorem State.cmdEntry_only {P : Place → Prop} {s₀ s : State} (h : OnlyAt P s₀ s) (d : Desc) (cls : Nat) (refused : Bool) (status : Nat) (qual : Nat) (reason : Nat) (hp : FP.cmdEntry P) :
    OnlyAt P s₀ (State.cmdEntry s d cls refused status qual reason) := by
  have p0 := hp
  unfold State.cmdEntry
  repeat' first
    | with_reducible assumption
    | extract_lets
    | with_reducible apply State.journal_only

def FP.refusal (P : Place → Prop) : Prop :=
    P (.reg AUTH_CNT) ∧
    FP.evt P JNL_EVT ∧
    P (.reg AUTH_LAST)

theorem State.refusal_only {P : Place → Prop} {s₀ s : State} (h : OnlyAt P s₀ s) (o : Origin) (reason : Nat) (opc : Nat) (off : Nat) (hp : FP.refusal P) :
    OnlyAt P s₀ (State.refusal s o reason opc off) := by
  unfold FP.refusal at hp
  obtain ⟨p0, p1, p2⟩ := hp
  unfold State.refusal
  repeat' first
    | with_reducible assumption
    | extract_lets
    | with_reducible apply OnlyAt.ite
    | with_reducible apply State.count_only
    | with_reducible apply State.evt_only
    | with_reducible apply State.setFld_only
    | with_reducible apply State.setOn_only

abbrev FP.regDiff (P : Place → Prop) : Prop :=
    P .jnl

theorem State.regDiff_only {P : Place → Prop} {s₀ s : State} (h : OnlyAt P s₀ s) (old : State) (offs : List Nat) (o : Origin) (cls : Nat) (hp : FP.regDiff P) :
    OnlyAt P s₀ (State.regDiff s old offs o cls) := by
  have p0 := hp
  unfold State.regDiff
  repeat' first
    | with_reducible assumption
    | extract_lets
    | with_reducible apply State.journal_only
    | (with_reducible refine State.each_only ?_ _ _ (fun _ _ _ _ => ?_))

def FP.answer (P : Place → Prop) : Prop :=
    FP.complete P 0 ∧
    P (.ring 0)

theorem State.answer_only {P : Place → Prop} {s₀ s : State} (h : OnlyAt P s₀ s) (d : Desc) (status : Nat) (qual : Nat) (result : Nat) (hp : FP.answer P) :
    OnlyAt P s₀ (State.answer s d status qual result) := by
  unfold FP.answer at hp
  obtain ⟨p0, p1⟩ := hp
  unfold State.answer
  repeat' first
    | with_reducible assumption
    | extract_lets
    | with_reducible apply OnlyAt.ite
    | with_reducible apply State.complete_only
    | with_reducible apply State.modRing_only

def FP.done (P : Place → Prop) : Prop :=
    P .hif ∧
    FP.answer P

theorem State.done_only {P : Place → Prop} {s₀ s : State} (h : OnlyAt P s₀ s) (d : Desc) (status : Nat) (qual : Nat) (result : Nat) (hp : FP.done P) :
    OnlyAt P s₀ (State.done s d status qual result) := by
  unfold FP.done at hp
  obtain ⟨p0, p1⟩ := hp
  unfold State.done
  repeat' first
    | with_reducible assumption
    | extract_lets
    | with_reducible apply OnlyAt.ite
    | with_reducible apply State.answer_only
    | split
    | (with_reducible refine OnlyAt.mk_fields ?_ ?_ ?_ ?_ ?_ ?_ ?_ ?_ ?_ ?_ ?_ ?_ ?_ ?_ ?_ ?_ ?_ ?_ ?_ ?_ ?_ ?_ ?_ ?_ ?_ ?_ ?_ ?_)
    | (with_reducible exact Or.inr (by assumption))
    | with_reducible exact Or.inl rfl

abbrev FP.refusedEntry (P : Place → Prop) : Prop :=
    P .jnl

theorem State.refusedEntry_only {P : Place → Prop} {s₀ s : State} (h : OnlyAt P s₀ s) (d : Desc) (cls : Nat) (status : Nat) (qual : Nat) (reason : Nat) (hp : FP.refusedEntry P) :
    OnlyAt P s₀ (State.refusedEntry s d cls status qual reason) := by
  have p0 := hp
  unfold State.refusedEntry
  repeat' first
    | with_reducible assumption
    | extract_lets
    | with_reducible apply OnlyAt.ite
    | with_reducible apply State.journal_only
    | with_reducible apply State.cmdEntry_only

def FP.flushErrors (P : Place → Prop) (n : Fin 64) : Prop :=
    P (.ring n) ∧
    FP.complete P n ∧
    FP.refusedEntry P

theorem State.flushErrors_only {P : Place → Prop} (n : Fin 64) (l : List SqItem) {s₀ s : State} (h : OnlyAt P s₀ s)
    (hp : FP.flushErrors P n) : OnlyAt P s₀ (State.flushErrors n l s) := by
  have hp' := hp
  unfold FP.flushErrors at hp
  obtain ⟨p0, p1, p2⟩ := hp
  fun_induction State.flushErrors n l s with
  | case1 d ds st q r a l s ht s1 ih =>
    have e : OnlyAt P s₀ s1 := State.complete_only (State.modRing_only h _ _ p0) _ _ _ _ _ p1
    exact ih (OnlyAt.ite (State.refusedEntry_only e _ _ _ _ _ p2) e)
  | case2 => exact h
  | case3 => exact h

abbrev FP.flush (P : Place → Prop) (n : Fin 64) : Prop :=
    FP.flushErrors P n

theorem State.flush_only {P : Place → Prop} {s₀ s : State} (h : OnlyAt P s₀ s) (n : Fin 64) (hp : FP.flush P n) :
    OnlyAt P s₀ (State.flush s n) := by
  have p0 := hp
  unfold State.flush
  repeat' first
    | with_reducible assumption
    | extract_lets
    | with_reducible apply OnlyAt.ite
    | with_reducible apply State.flushErrors_only

def FP.popSq (P : Place → Prop) (n : Fin 64) : Prop :=
    P (.ring n) ∧
    FP.flushErrors P n

theorem State.popSq_only {P : Place → Prop} {s₀ s t : State} (h : OnlyAt P s₀ s) (n : Fin 64) (ds : List Desc)
    (hp : FP.popSq P n) (ht : s.popSq n ds = some t) : OnlyAt P s₀ t := by
  unfold FP.popSq at hp
  obtain ⟨p0, p1⟩ := hp
  unfold State.popSq at ht
  split at ht
  · cases ht; exact h
  · split at ht
    · cases ht; exact State.flushErrors_only n _ (State.modRing_only h _ _ p0) p1
    · cases ht

def FP.finish (P : Place → Prop) : Prop :=
    FP.done P ∧
    P .jnl

theorem State.finish_only {P : Place → Prop} {s₀ s : State} (h : OnlyAt P s₀ s) (d : Desc) (status : Nat) (qual : Nat) (result : Nat) (hp : FP.finish P) :
    OnlyAt P s₀ (State.finish s d status qual result) := by
  unfold FP.finish at hp
  obtain ⟨p0, p1⟩ := hp
  unfold State.finish
  repeat' first
    | with_reducible assumption
    | extract_lets
    | with_reducible apply OnlyAt.ite
    | with_reducible apply State.done_only
    | with_reducible apply State.cmdEntry_only

def FP.refused (P : Place → Prop) : Prop :=
    P .jnl ∧
    FP.refusal P

theorem State.refused_only {P : Place → Prop} {s₀ s : State} (h : OnlyAt P s₀ s) (d : Desc) (cls : Nat) (status : Nat) (qual : Nat) (reason : Nat) (hp : FP.refused P) :
    OnlyAt P s₀ (State.refused s d cls status qual reason) := by
  unfold FP.refused at hp
  obtain ⟨p0, p1⟩ := hp
  unfold State.refused
  repeat' first
    | with_reducible assumption
    | extract_lets
    | with_reducible apply OnlyAt.ite
    | with_reducible apply State.refusedEntry_only
    | with_reducible apply State.refusal_only

def FP.refuse (P : Place → Prop) : Prop :=
    FP.answer P ∧
    FP.refused P

theorem State.refuse_only {P : Place → Prop} {s₀ s : State} (h : OnlyAt P s₀ s) (d : Desc) (cls : Nat) (status : Nat) (qual : Nat) (reason : Nat) (result : Nat) (hp : FP.refuse P) :
    OnlyAt P s₀ (State.refuse s d cls status qual reason result) := by
  unfold FP.refuse at hp
  obtain ⟨p0, p1⟩ := hp
  unfold State.refuse
  repeat' first
    | with_reducible assumption
    | extract_lets
    | with_reducible apply State.answer_only
    | with_reducible apply State.refused_only

def FP.fail (P : Place → Prop) : Prop :=
    FP.done P ∧
    FP.refused P

theorem State.fail_only {P : Place → Prop} {s₀ s : State} (h : OnlyAt P s₀ s) (d : Desc) (cls : Nat) (status : Nat) (qual : Nat) (reason : Nat) (hp : FP.fail P) :
    OnlyAt P s₀ (State.fail s d cls status qual reason) := by
  unfold FP.fail at hp
  obtain ⟨p0, p1⟩ := hp
  unfold State.fail
  repeat' first
    | with_reducible assumption
    | extract_lets
    | with_reducible apply State.done_only
    | with_reducible apply State.refused_only

def FP.abortTel (P : Place → Prop) : Prop :=
    FP.done P ∧
    P .hif

theorem State.abortTel_only {P : Place → Prop} {s₀ s : State} (h : OnlyAt P s₀ s)  (hp : FP.abortTel P) :
    OnlyAt P s₀ (State.abortTel s) := by
  unfold FP.abortTel at hp
  obtain ⟨p0, p1⟩ := hp
  unfold State.abortTel
  repeat' first
    | with_reducible assumption
    | extract_lets
    | with_reducible apply OnlyAt.ite
    | with_reducible apply State.done_only
    | split
    | (with_reducible refine OnlyAt.mk_fields ?_ ?_ ?_ ?_ ?_ ?_ ?_ ?_ ?_ ?_ ?_ ?_ ?_ ?_ ?_ ?_ ?_ ?_ ?_ ?_ ?_ ?_ ?_ ?_ ?_ ?_ ?_ ?_)
    | (with_reducible exact Or.inr (by assumption))
    | with_reducible exact Or.inl rfl

end Sys2Proof.Machine
end

