-- ==== Sys2Proof/Laws/OnlyForecastOps.lean ====
section
/-! SUPPORT. What each operation of Machine/ForecastOps.lean may change: `FP.x` says that its places lie in `P`. -/

namespace Sys2Proof.Machine

def FP.guardGrants (P : Place → Prop) (b : Fin 5) : Prop :=
    FP.setFlags P MEM_EVT ∧
    P (.reg (MEM_CNT ↑b))

theorem State.guardGrants_only {P : Place → Prop} {s₀ s : State} (h : OnlyAt P s₀ s) (b : Fin 5) (n : Nat) (hp : FP.guardGrants P b) :
    OnlyAt P s₀ (State.guardGrants s b n) := by
  unfold FP.guardGrants at hp
  obtain ⟨p0, p1⟩ := hp
  unfold State.guardGrants
  repeat' first
    | with_reducible assumption
    | extract_lets
    | with_reducible apply OnlyAt.ite
    | with_reducible apply State.setFlags_only
    | with_reducible apply State.setFld_only

abbrev FP.modFc (P : Place → Prop) : Prop :=
    P .fc

theorem State.modFc_only {P : Place → Prop} {s₀ s : State} (h : OnlyAt P s₀ s) (f : FcH → FcH) (hp : FP.modFc P) :
    OnlyAt P s₀ (State.modFc s f) := by
  have p0 := hp
  unfold State.modFc
  repeat' first
    | with_reducible assumption
    | extract_lets
    | split
    | (with_reducible refine OnlyAt.mk_fields ?_ ?_ ?_ ?_ ?_ ?_ ?_ ?_ ?_ ?_ ?_ ?_ ?_ ?_ ?_ ?_ ?_ ?_ ?_ ?_ ?_ ?_ ?_ ?_ ?_ ?_ ?_ ?_)
    | (with_reducible exact Or.inr (by assumption))
    | with_reducible exact Or.inl rfl

abbrev FP.putLine (P : Place → Prop) : Prop :=
    P .fc

theorem State.putLine_only {P : Place → Prop} {s₀ s : State} (h : OnlyAt P s₀ s) (l : GtLine) (hp : FP.putLine P) :
    OnlyAt P s₀ (State.putLine s l) := by
  have p0 := hp
  unfold State.putLine
  repeat' first
    | with_reducible assumption
    | extract_lets
    | with_reducible apply OnlyAt.ite
    | with_reducible apply State.modFc_only

def FP.syncLive (P : Place → Prop) : Prop :=
    P (.reg FC_STAT) ∧
    (∀ (y0 : Fin 64), P (.reg (FC_CTX_STAT ↑y0)))

theorem State.syncLive_only {P : Place → Prop} {s₀ s : State} (h : OnlyAt P s₀ s)  (hp : FP.syncLive P) :
    OnlyAt P s₀ (State.syncLive s) := by
  unfold FP.syncLive at hp
  obtain ⟨p0, p1⟩ := hp
  unfold State.syncLive
  repeat' first
    | with_reducible assumption
    | extract_lets
    | with_reducible apply State.setFld_only
    | with_reducible apply State.setCode_only
    | (with_reducible refine State.each_only ?_ _ _ (fun _ _ _ _ => ?_))
    | with_reducible exact p1 _

def FP.writeBack (P : Place → Prop) : Prop :=
    P .fc ∧
    FP.send P

theorem State.writeBack_only {P : Place → Prop} {s₀ s : State} (h : OnlyAt P s₀ s) (l : GtLine) (hp : FP.writeBack P) :
    OnlyAt P s₀ (State.writeBack s l) := by
  unfold FP.writeBack at hp
  obtain ⟨p0, p1⟩ := hp
  unfold State.writeBack
  repeat' first
    | with_reducible assumption
    | extract_lets
    | with_reducible apply OnlyAt.ite
    | with_reducible apply State.putLine_only
    | with_reducible apply State.send_only

abbrev FP.dropLine (P : Place → Prop) : Prop :=
    P .fc

theorem State.dropLine_only {P : Place → Prop} {s₀ s : State} (h : OnlyAt P s₀ s) (c : Nat) (hp : FP.dropLine P) :
    OnlyAt P s₀ (State.dropLine s c) := by
  have p0 := hp
  unfold State.dropLine
  repeat' first
    | with_reducible assumption
    | extract_lets
    | with_reducible apply State.modFc_only

def FP.fillLine (P : Place → Prop) : Prop :=
    P .fc ∧
    FP.writeBack P

theorem State.fillLine_only {P : Place → Prop} {s₀ s : State} (h : OnlyAt P s₀ s) (c : Nat) (e : BitVec 512) (hp : FP.fillLine P) :
    OnlyAt P s₀ (State.fillLine s c e) := by
  unfold FP.fillLine at hp
  obtain ⟨p0, p1⟩ := hp
  unfold State.fillLine
  repeat' first
    | with_reducible assumption
    | extract_lets
    | with_reducible apply OnlyAt.ite
    | with_reducible apply State.dropLine_only
    | with_reducible apply State.writeBack_only
    | with_reducible apply State.modFc_only
    | split

def FP.revoke (P : Place → Prop) : Prop :=
    P .fc ∧
    (∀ (z0 : Fin 64), FP.postEntry P z0)

theorem State.revoke_only {P : Place → Prop} {s₀ s : State} (h : OnlyAt P s₀ s) (l : GtLine) (reason : Nat) (hp : FP.revoke P) :
    OnlyAt P s₀ (State.revoke s l reason) := by
  unfold FP.revoke at hp
  obtain ⟨p0, p1⟩ := hp
  unfold State.revoke
  repeat' first
    | with_reducible assumption
    | extract_lets
    | with_reducible apply State.putLine_only
    | with_reducible apply State.postEntry_only
    | with_reducible exact p1 _
    | split

def FP.selectUntil (P : Place → Prop) : Prop :=
    FP.revoke P ∧
    FP.evt P FC_EVT

theorem State.selectUntil_only {P : Place → Prop} {s₀ s : State} (h : OnlyAt P s₀ s) (covered : State → Bool)
    (z : Option (Fin 8)) (reason n : Nat) (hp : FP.selectUntil P) : OnlyAt P s₀ (State.selectUntil s covered z reason n) := by
  obtain ⟨p0, p1⟩ := hp
  induction n generalizing s with
  | zero => exact h
  | succ n ih =>
    unfold State.selectUntil
    split
    · exact h
    · split
      · exact ih (State.revoke_only h _ _ p0)
      · exact OnlyAt.ite (State.evt_only h _ p1) h

def FP.fcTerms (P : Place → Prop) : Prop :=
    P (.reg FC_P0) ∧
    P (.reg FC_P1) ∧
    P (.reg FC_P2) ∧
    P (.reg FC_P3) ∧
    P (.reg FC_STAT) ∧
    P (.reg CHG_GALLOW) ∧
    (∀ (y0 : Fin 2), P (.reg (CHG_PWR ↑y0))) ∧
    (∀ (y0 : Fin 2), P (.chg y0)) ∧
    (∀ (y0 : Fin 8), P (.reg (FC_ZONE_STAT ↑y0))) ∧
    FP.evt P FC_EVT

theorem State.fcTerms_only {P : Place → Prop} {s₀ s : State} (h : OnlyAt P s₀ s)  (hp : FP.fcTerms P) :
    OnlyAt P s₀ (State.fcTerms s) := by
  unfold FP.fcTerms at hp
  obtain ⟨p0, p1, p2, p3, p4, p5, p6, p7, p8, p9⟩ := hp
  unfold State.fcTerms
  repeat' first
    | with_reducible assumption
    | extract_lets
    | with_reducible apply OnlyAt.ite
    | with_reducible apply State.setCode_only
    | with_reducible apply State.setOn_only
    | with_reducible apply State.modChg_only
    | with_reducible apply State.setScode_only
    | with_reducible apply State.evt_only
    | (with_reducible refine State.each_only ?_ _ _ (fun _ _ _ _ => ?_))
    | with_reducible exact p6 _
    | with_reducible exact p7 _
    | with_reducible exact p8 _
    | split
    | dsimp +zetaDelta only

def FP.budgetDrop (P : Place → Prop) : Prop :=
    FP.fcTerms P ∧
    P .fc

theorem State.budgetDrop_only {P : Place → Prop} {s₀ s : State} (h : OnlyAt P s₀ s)  (hp : FP.budgetDrop P) :
    OnlyAt P s₀ (State.budgetDrop s) := by
  unfold FP.budgetDrop at hp
  obtain ⟨p0, p1⟩ := hp
  unfold State.budgetDrop
  repeat' first
    | with_reducible assumption
    | extract_lets
    | with_reducible apply State.fcTerms_only
    | with_reducible apply State.modFc_only

abbrev FP.endGrant (P : Place → Prop) : Prop :=
    P .fc

theorem State.endGrant_only {P : Place → Prop} {s₀ s : State} (h : OnlyAt P s₀ s) (l : GtLine) (throttle : Bool) (hp : FP.endGrant P) :
    OnlyAt P s₀ (State.endGrant s l throttle) := by
  have p0 := hp
  unfold State.endGrant
  repeat' first
    | with_reducible assumption
    | extract_lets
    | with_reducible apply OnlyAt.ite
    | with_reducible apply State.putLine_only
    | with_reducible apply State.modFc_only

def FP.freeClaims (P : Place → Prop) : Prop :=
    FP.syncThr P ∧
    P .fc

theorem State.freeClaims_only {P : Place → Prop} {s₀ s : State} (h : OnlyAt P s₀ s)  (hp : FP.freeClaims P) :
    OnlyAt P s₀ (State.freeClaims s) := by
  unfold FP.freeClaims at hp
  obtain ⟨p0, p1⟩ := hp
  unfold State.freeClaims
  repeat' first
    | with_reducible assumption
    | extract_lets
    | with_reducible apply State.syncThr_only
    | with_reducible apply State.modFc_only

def FP.endAll (P : Place → Prop) : Prop :=
    FP.writeBack P ∧
    FP.evt P FC_EVT ∧
    P (.reg FC_CNT) ∧
    P .fc ∧
    P (.reg FC_GTA_HI) ∧
    P (.reg FC_GTA_LO) ∧
    P (.reg FC_GTN) ∧
    P (.reg FC_STAT) ∧
    FP.syncThr P ∧
    FP.syncLive P

theorem State.endAll_only {P : Place → Prop} {s₀ s : State} (h : OnlyAt P s₀ s) (save : Bool) (throttle : Bool) (hp : FP.endAll P) :
    OnlyAt P s₀ (State.endAll s save throttle) := by
  unfold FP.endAll at hp
  obtain ⟨p0, p1, p2, p3, p4, p5, p6, p7, p8, p9⟩ := hp
  unfold State.endAll
  repeat' first
    | with_reducible assumption
    | extract_lets
    | with_reducible apply OnlyAt.ite
    | with_reducible apply State.writeBack_only
    | with_reducible apply State.evt_only
    | with_reducible apply State.count_only
    | with_reducible apply State.endGrant_only
    | with_reducible apply State.modFc_only
    | with_reducible apply State.setFld_only
    | with_reducible apply State.setOn_only
    | with_reducible apply State.syncThr_only
    | with_reducible apply State.syncLive_only
    | (with_reducible refine State.each_only ?_ _ _ (fun _ _ _ _ => ?_))

end Sys2Proof.Machine
end

