-- ==== Sys2Proof/Laws/OnlyForecast.lean ====
section
/-! SUPPORT. What each operation of Machine/Forecast.lean may change: `FP.x` says that its places lie in `P`. -/

namespace Sys2Proof.Machine

def FP.decideRequest (P : Place → Prop) (n : Fin 64) : Prop :=
    FP.complete P n ∧
    FP.syncLive P ∧
    P .fc

theorem State.decideRequest_only {P : Place → Prop} {s₀ s : State} (h : OnlyAt P s₀ s) (n : Fin 64) (d : Desc) (l : GtLine) (hp : FP.decideRequest P n) :
    OnlyAt P s₀ (State.decideRequest s n d l) := by
  unfold FP.decideRequest at hp
  obtain ⟨p0, p1, p2⟩ := hp
  unfold State.decideRequest
  repeat' first
    | with_reducible assumption
    | extract_lets
    | with_reducible apply OnlyAt.ite
    | with_reducible apply State.complete_only
    | with_reducible apply State.syncLive_only
    | with_reducible apply State.putLine_only

def FP.decideRelease (P : Place → Prop) (n : Fin 64) : Prop :=
    FP.complete P n ∧
    FP.writeBack P ∧
    P .fc ∧
    FP.syncLive P ∧
    FP.freeClaims P

theorem State.decideRelease_only {P : Place → Prop} {s₀ s : State} (h : OnlyAt P s₀ s) (n : Fin 64) (d : Desc) (l : GtLine) (hp : FP.decideRelease P n) :
    OnlyAt P s₀ (State.decideRelease s n d l) := by
  unfold FP.decideRelease at hp
  obtain ⟨p0, p1, p2, p3, p4⟩ := hp
  unfold State.decideRelease
  repeat' first
    | with_reducible assumption
    | extract_lets
    | with_reducible apply OnlyAt.ite
    | with_reducible apply State.complete_only
    | with_reducible apply State.writeBack_only
    | with_reducible apply State.modFc_only
    | with_reducible apply State.syncLive_only
    | with_reducible apply State.putLine_only
    | with_reducible apply State.freeClaims_only
    | split
    | dsimp +zetaDelta only

def FP.decideExtend (P : Place → Prop) (n : Fin 64) : Prop :=
    FP.complete P n ∧
    P .fc

theorem State.decideExtend_only {P : Place → Prop} {s₀ s : State} (h : OnlyAt P s₀ s) (n : Fin 64) (d : Desc) (l : GtLine) (hp : FP.decideExtend P n) :
    OnlyAt P s₀ (State.decideExtend s n d l) := by
  unfold FP.decideExtend at hp
  obtain ⟨p0, p1⟩ := hp
  unfold State.decideExtend
  repeat' first
    | with_reducible assumption
    | extract_lets
    | with_reducible apply OnlyAt.ite
    | with_reducible apply State.complete_only
    | with_reducible apply State.putLine_only

def FP.decideRead (P : Place → Prop) (n : Fin 64) : Prop :=
    FP.complete P n ∧
    FP.writeBack P ∧
    P .fc

theorem State.decideRead_only {P : Place → Prop} {s₀ s : State} (h : OnlyAt P s₀ s) (n : Fin 64) (d : Desc) (l : GtLine) (hp : FP.decideRead P n) :
    OnlyAt P s₀ (State.decideRead s n d l) := by
  unfold FP.decideRead at hp
  obtain ⟨p0, p1, p2⟩ := hp
  unfold State.decideRead
  repeat' first
    | with_reducible assumption
    | extract_lets
    | with_reducible apply OnlyAt.ite
    | with_reducible apply State.complete_only
    | with_reducible apply State.writeBack_only
    | with_reducible apply State.putLine_only
    | with_reducible apply State.dropLine_only

def FP.decideGrant (P : Place → Prop) (n : Fin 64) : Prop :=
    P .fc ∧
    FP.decideRequest P n ∧
    FP.decideRelease P n ∧
    FP.decideExtend P n ∧
    FP.decideRead P n

theorem State.decideGrant_only {P : Place → Prop} {s₀ s : State} (h : OnlyAt P s₀ s) (n : Fin 64) (d : Desc) (l : GtLine) (hp : FP.decideGrant P n) :
    OnlyAt P s₀ (State.decideGrant s n d l) := by
  unfold FP.decideGrant at hp
  obtain ⟨p0, p1, p2, p3, p4⟩ := hp
  unfold State.decideGrant
  repeat' first
    | with_reducible assumption
    | extract_lets
    | with_reducible apply OnlyAt.ite
    | with_reducible apply State.putLine_only
    | with_reducible apply State.modFc_only
    | with_reducible apply State.decideRequest_only
    | with_reducible apply State.decideRelease_only
    | with_reducible apply State.decideExtend_only
    | with_reducible apply State.decideRead_only

def FP.deferPinned (P : Place → Prop) (n : Fin 64) : Prop :=
    FP.evt P FC_EVT ∧
    FP.complete P n

theorem State.deferPinned_only {P : Place → Prop} {s₀ s : State} (h : OnlyAt P s₀ s) (n : Fin 64) (d : Desc) (hp : FP.deferPinned P n) :
    OnlyAt P s₀ (State.deferPinned s n d) := by
  unfold FP.deferPinned at hp
  obtain ⟨p0, p1⟩ := hp
  unfold State.deferPinned
  repeat' first
    | with_reducible assumption
    | extract_lets
    | with_reducible apply OnlyAt.ite
    | with_reducible apply State.evt_only
    | with_reducible apply State.complete_only

abbrev FP.takeSlot (P : Place → Prop) : Prop :=
    P .fc

theorem State.takeSlot_only {P : Place → Prop} {s₀ s : State} (h : OnlyAt P s₀ s) (n : Fin 64) (hp : FP.takeSlot P) :
    OnlyAt P s₀ (State.takeSlot s n) := by
  have p0 := hp
  unfold State.takeSlot
  repeat' first
    | with_reducible assumption
    | extract_lets
    | with_reducible apply OnlyAt.ite
    | with_reducible apply State.modFc_only

abbrev FP.popCtx (P : Place → Prop) (n : Fin 64) : Prop :=
    P (.ring n)

theorem State.popCtx_only {P : Place → Prop} {s₀ s t : State} (h : OnlyAt P s₀ s) (n : Fin 64) (d : Desc)
    (hp : FP.popCtx P n) (ht : s.popCtx n d = some t) : OnlyAt P s₀ t := by
  have p0 : P (.ring n) := hp
  unfold State.popCtx at ht
  split at ht
  · cases ht; exact h
  · split at ht
    · cases ht; exact State.modRing_only h _ _ p0
    · cases ht

def FP.decided (P : Place → Prop) (n : Fin 64) : Prop :=
    FP.flush P n ∧
    P .fc

theorem State.decided_only {P : Place → Prop} {s₀ s : State} (h : OnlyAt P s₀ s) (n : Fin 64) (hp : FP.decided P n) :
    OnlyAt P s₀ (State.decided s n) := by
  unfold FP.decided at hp
  obtain ⟨p0, p1⟩ := hp
  unfold State.decided
  repeat' first
    | with_reducible assumption
    | extract_lets
    | with_reducible apply State.flush_only
    | with_reducible apply State.modFc_only

def FP.ctxCommand (P : Place → Prop) (n : Fin 64) : Prop :=
    FP.popCtx P n ∧
    P .fc ∧
    FP.decided P n ∧
    FP.complete P n ∧
    FP.decideGrant P n ∧
    FP.deferPinned P n

theorem State.ctxCommand_only {P : Place → Prop} {s₀ s : State} (h : OnlyAt P s₀ s) (n : Fin 64) (d : Desc) (hp : FP.ctxCommand P n) :
    OnlyAt P s₀ (State.ctxCommand s n d) := by
  unfold FP.ctxCommand at hp
  obtain ⟨p0, p1, p2, p3, p4, p5⟩ := hp
  unfold State.ctxCommand
  repeat' first
    | with_reducible assumption
    | extract_lets
    | with_reducible apply OnlyAt.ite
    | with_reducible apply State.takeSlot_only
    | with_reducible apply State.decided_only
    | with_reducible apply State.complete_only
    | with_reducible apply State.decideGrant_only
    | with_reducible apply State.deferPinned_only
    | with_reducible apply State.modFc_only
    | (with_reducible refine State.popCtx_only ?_ _ _ ?_ (by assumption))
    | split

def FP.decideMiss (P : Place → Prop) (n : Fin 64) : Prop :=
    FP.decided P n ∧
    FP.complete P n ∧
    FP.decideGrant P n ∧
    FP.deferPinned P n

theorem State.decideMiss_only {P : Place → Prop} {s₀ s : State} (h : OnlyAt P s₀ s) (n : Fin 64) (d : Desc) (hp : FP.decideMiss P n) :
    OnlyAt P s₀ (State.decideMiss s n d) := by
  unfold FP.decideMiss at hp
  obtain ⟨p0, p1, p2, p3⟩ := hp
  unfold State.decideMiss
  repeat' first
    | with_reducible assumption
    | extract_lets
    | with_reducible apply State.decided_only
    | with_reducible apply State.complete_only
    | with_reducible apply State.decideGrant_only
    | with_reducible apply State.deferPinned_only
    | split

abbrev FP.htAge (P : Place → Prop) (z : Fin 8) : Prop :=
    P (.reg (FC_ZONE_HT ↑z))

theorem State.htAge_only {P : Place → Prop} {s₀ s : State} (h : OnlyAt P s₀ s) (z : Fin 8) (hp : FP.htAge P z) :
    OnlyAt P s₀ (State.htAge s z) := by
  have p0 := hp
  unfold State.htAge
  repeat' first
    | with_reducible assumption
    | extract_lets
    | with_reducible apply OnlyAt.ite
    | with_reducible apply State.setFld_only

abbrev FP.staticPin (P : Place → Prop) : Prop :=
    P .fc

theorem State.staticPin_only {P : Place → Prop} {s₀ s : State} (h : OnlyAt P s₀ s) (p : Fin 8) (hp : FP.staticPin P) :
    OnlyAt P s₀ (State.staticPin s p) := by
  have p0 := hp
  unfold State.staticPin
  repeat' first
    | with_reducible assumption
    | extract_lets
    | with_reducible apply OnlyAt.ite
    | with_reducible apply State.modFc_only

abbrev FP.staticDrop (P : Place → Prop) : Prop :=
    P .fc

theorem State.staticDrop_only {P : Place → Prop} {s₀ s : State} (h : OnlyAt P s₀ s) (p : Fin 8) (hp : FP.staticDrop P) :
    OnlyAt P s₀ (State.staticDrop s p) := by
  have p0 := hp
  unfold State.staticDrop
  repeat' first
    | with_reducible assumption
    | extract_lets
    | with_reducible apply OnlyAt.ite
    | with_reducible apply State.modFc_only

abbrev FP.expireDue (P : Place → Prop) : Prop :=
    FP.revoke P

theorem State.expireDue_only {P : Place → Prop} {s₀ s : State} (h : OnlyAt P s₀ s)  (hp : FP.expireDue P) :
    OnlyAt P s₀ (State.expireDue s) := by
  have p0 := hp
  unfold State.expireDue
  repeat' first
    | with_reducible assumption
    | extract_lets
    | with_reducible apply State.revoke_only
    | (with_reducible refine State.each_only ?_ _ _ (fun _ _ _ _ => ?_))

def FP.enforce (P : Place → Prop) : Prop :=
    P .fc ∧
    P (.reg FC_STAT) ∧
    FP.selectUntil P ∧
    FP.syncLive P

theorem State.enforce_only {P : Place → Prop} {s₀ s : State} (h : OnlyAt P s₀ s)  (hp : FP.enforce P) :
    OnlyAt P s₀ (State.enforce s) := by
  unfold FP.enforce at hp
  obtain ⟨p0, p1, p2, p3⟩ := hp
  unfold State.enforce
  repeat' first
    | with_reducible assumption
    | extract_lets
    | with_reducible apply OnlyAt.ite
    | with_reducible apply State.modFc_only
    | with_reducible apply State.setOn_only
    | with_reducible apply State.selectUntil_only
    | with_reducible apply State.syncLive_only
    | (with_reducible refine State.each_only ?_ _ _ (fun _ _ _ _ => ?_))

end Sys2Proof.Machine
end

