-- ==== Sys2Proof/Laws/OnlyAuthority.lean ====
section
/-! SUPPORT. What each operation of Machine/Authority.lean may change: `FP.x` says that its places lie in `P`. -/

namespace Sys2Proof.Machine

def FP.closeWindow (P : Place → Prop) : Prop :=
    P .jnl ∧
    P (.reg AUTH_PRES) ∧
    P .auth

theorem State.closeWindow_only {P : Place → Prop} {s₀ s : State} (h : OnlyAt P s₀ s) (o : Origin) (hp : FP.closeWindow P) :
    OnlyAt P s₀ (State.closeWindow s o) := by
  unfold FP.closeWindow at hp
  obtain ⟨p0, p1, p2⟩ := hp
  unfold State.closeWindow
  repeat' first
    | with_reducible assumption
    | extract_lets
    | with_reducible apply OnlyAt.ite
    | with_reducible apply State.attendEntry_only
    | with_reducible apply State.setOn_only
    | split
    | (with_reducible refine OnlyAt.mk_fields ?_ ?_ ?_ ?_ ?_ ?_ ?_ ?_ ?_ ?_ ?_ ?_ ?_ ?_ ?_ ?_ ?_ ?_ ?_ ?_ ?_ ?_ ?_ ?_ ?_ ?_ ?_ ?_)
    | (with_reducible exact Or.inr (by assumption))
    | with_reducible exact Or.inl rfl

end Sys2Proof.Machine
end

