-- ==== Sys2Proof/Laws/OnlyChargeOps.lean ====
section
/-! SUPPORT. What each operation of Machine/ChargeOps.lean may change: `FP.x` says that its places lie in `P`. -/

namespace Sys2Proof.Machine

abbrev FP.syncElig (P : Place → Prop) (k : Fin 2) : Prop :=
    P (.reg (CHG_STAT ↑k))

theorem State.syncElig_only {P : Place → Prop} {s₀ s : State} (h : OnlyAt P s₀ s) (k : Fin 2) (hp : FP.syncElig P k) :
    OnlyAt P s₀ (State.syncElig s k) := by
  have p0 := hp
  unfold State.syncElig
  repeat' first
    | with_reducible assumption
    | extract_lets
    | with_reducible apply OnlyAt.ite
    | with_reducible apply State.setOn_only

abbrev FP.setPout (P : Place → Prop) (k : Fin 2) : Prop :=
    P (.reg (CHG_DPWR ↑k))

theorem State.setPout_only {P : Place → Prop} {s₀ s : State} (h : OnlyAt P s₀ s) (k : Fin 2) (hp : FP.setPout P k) :
    OnlyAt P s₀ (State.setPout s k) := by
  have p0 := hp
  unfold State.setPout
  repeat' first
    | with_reducible assumption
    | extract_lets
    | with_reducible apply State.setCode_only

def FP.gustLoss (P : Place → Prop) (k : Fin 2) : Prop :=
    FP.syncElig P k ∧
    P (.chg k)

theorem State.gustLoss_only {P : Place → Prop} {s₀ s : State} (h : OnlyAt P s₀ s) (k : Fin 2) (hp : FP.gustLoss P k) :
    OnlyAt P s₀ (State.gustLoss s k) := by
  unfold FP.gustLoss at hp
  obtain ⟨p0, p1⟩ := hp
  unfold State.gustLoss
  repeat' first
    | with_reducible assumption
    | extract_lets
    | with_reducible apply OnlyAt.ite
    | with_reducible apply State.syncElig_only
    | with_reducible apply State.modChg_only

def FP.checkWorn (P : Place → Prop) (k : Fin 2) : Prop :=
    P (.reg (PK_STAT ↑k)) ∧
    P .jnl ∧
    FP.gustLoss P k ∧
    FP.syncPack P k ∧
    FP.notice P

theorem State.checkWorn_only {P : Place → Prop} {s₀ s : State} (h : OnlyAt P s₀ s) (k : Fin 2) (hp : FP.checkWorn P k) :
    OnlyAt P s₀ (State.checkWorn s k) := by
  unfold FP.checkWorn at hp
  obtain ⟨p0, p1, p2, p3, p4⟩ := hp
  unfold State.checkWorn
  repeat' first
    | with_reducible assumption
    | extract_lets
    | with_reducible apply OnlyAt.ite
    | with_reducible apply State.setOn_only
    | with_reducible apply State.jevent_only
    | with_reducible apply State.gustLoss_only
    | with_reducible apply State.syncPack_only
    | with_reducible apply State.notice_only

abbrev FP.wbDue (P : Place → Prop) (k : Fin 2) : Prop :=
    P (.pk k)

theorem State.wbDue_only {P : Place → Prop} {s₀ s : State} (h : OnlyAt P s₀ s) (k : Fin 2) (hp : FP.wbDue P k) :
    OnlyAt P s₀ (State.wbDue s k) := by
  have p0 := hp
  unfold State.wbDue
  repeat' first
    | with_reducible assumption
    | extract_lets
    | with_reducible apply OnlyAt.ite
    | with_reducible apply State.modPk_only

def FP.lifeWrite (P : Place → Prop) (k : Fin 2) : Prop :=
    P .aon ∧
    P (.pk k) ∧
    FP.evt P (PK_EVT ↑k)

theorem State.lifeWrite_only {P : Place → Prop} {s₀ s : State} (h : OnlyAt P s₀ s) (k : Fin 2) (ok : Bool) (hp : FP.lifeWrite P k) :
    OnlyAt P s₀ (State.lifeWrite s k ok) := by
  unfold FP.lifeWrite at hp
  obtain ⟨p0, p1, p2⟩ := hp
  unfold State.lifeWrite
  repeat' first
    | with_reducible assumption
    | extract_lets
    | with_reducible apply OnlyAt.ite
    | with_reducible apply State.modPk_only
    | with_reducible apply State.evt_only
    | split
    | (with_reducible refine OnlyAt.mk_fields ?_ ?_ ?_ ?_ ?_ ?_ ?_ ?_ ?_ ?_ ?_ ?_ ?_ ?_ ?_ ?_ ?_ ?_ ?_ ?_ ?_ ?_ ?_ ?_ ?_ ?_ ?_ ?_)
    | (with_reducible exact Or.inr (by assumption))
    | with_reducible exact Or.inl rfl

def FP.incCtr (P : Place → Prop) (k : Fin 2) : Prop :=
    FP.checkWorn P k ∧
    FP.wbDue P k ∧
    P (.reg (PK_CTR ↑k))

theorem State.incCtr_only {P : Place → Prop} {s₀ s : State} (h : OnlyAt P s₀ s) (k : Fin 2) (ctr : Word) (hp : FP.incCtr P k) :
    OnlyAt P s₀ (State.incCtr s k ctr) := by
  unfold FP.incCtr at hp
  obtain ⟨p0, p1, p2⟩ := hp
  unfold State.incCtr
  repeat' first
    | with_reducible assumption
    | extract_lets
    | with_reducible apply State.checkWorn_only
    | with_reducible apply State.wbDue_only
    | with_reducible apply State.setWord_only

def FP.restoreLoop (P : Place → Prop) (k : Fin 2) : Prop :=
    P (.reg (CHG_ZINFO ↑k)) ∧
    FP.setItgt P k ∧
    P (.chg k)

theorem State.restoreLoop_only {P : Place → Prop} {s₀ s : State} (h : OnlyAt P s₀ s) (k : Fin 2) (r : Sounding) (hp : FP.restoreLoop P k) :
    OnlyAt P s₀ (State.restoreLoop s k r) := by
  unfold FP.restoreLoop at hp
  obtain ⟨p0, p1, p2⟩ := hp
  unfold State.restoreLoop
  repeat' first
    | with_reducible assumption
    | extract_lets
    | with_reducible apply OnlyAt.ite
    | with_reducible apply State.setFld_only
    | with_reducible apply State.setItgt_only
    | with_reducible apply State.modChg_only

def FP.abortSounding (P : Place → Prop) (k : Fin 2) : Prop :=
    FP.restoreLoop P k ∧
    FP.evt P (CHG_EVT ↑k) ∧
    FP.setRole P k ∧
    FP.finish P

theorem State.abortSounding_only {P : Place → Prop} {s₀ s : State} (h : OnlyAt P s₀ s) (k : Fin 2) (status : Nat) (hp : FP.abortSounding P k) :
    OnlyAt P s₀ (State.abortSounding s k status) := by
  unfold FP.abortSounding at hp
  obtain ⟨p0, p1, p2, p3⟩ := hp
  unfold State.abortSounding
  repeat' first
    | with_reducible assumption
    | extract_lets
    | with_reducible apply OnlyAt.ite
    | with_reducible apply State.restoreLoop_only
    | with_reducible apply State.evt_only
    | with_reducible apply State.setRole_only
    | with_reducible apply State.finish_only
    | split

def FP.enterStage (P : Place → Prop) (k : Fin 2) : Prop :=
    FP.abortSounding P k ∧
    FP.setStage P k ∧
    FP.setRole P k ∧
    FP.setItgt P k ∧
    P (.chg k)

theorem State.enterStage_only {P : Place → Prop} {s₀ s : State} (h : OnlyAt P s₀ s) (k : Fin 2) (g : Stage) (hp : FP.enterStage P k) :
    OnlyAt P s₀ (State.enterStage s k g) := by
  unfold FP.enterStage at hp
  obtain ⟨p0, p1, p2, p3, p4⟩ := hp
  unfold State.enterStage
  repeat' first
    | with_reducible assumption
    | extract_lets
    | with_reducible apply OnlyAt.ite
    | with_reducible apply State.abortSounding_only
    | with_reducible apply State.setStage_only
    | with_reducible apply State.setRole_only
    | with_reducible apply State.setItgt_only
    | with_reducible apply State.modChg_only

abbrev FP.chgWake (P : Place → Prop) (k : Fin 2) : Prop :=
    FP.enterStage P k

theorem State.chgWake_only {P : Place → Prop} {s₀ s : State} (h : OnlyAt P s₀ s) (k : Fin 2) (hp : FP.chgWake P k) :
    OnlyAt P s₀ (State.chgWake s k) := by
  have p0 := hp
  unfold State.chgWake
  repeat' first
    | with_reducible assumption
    | extract_lets
    | with_reducible apply OnlyAt.ite
    | with_reducible apply State.enterStage_only

def FP.leaveHoldup (P : Place → Prop) (k : Fin 2) : Prop :=
    FP.setRole P k ∧
    P (.chg k) ∧
    FP.enterStage P k ∧
    FP.notice P

theorem State.leaveHoldup_only {P : Place → Prop} {s₀ s : State} (h : OnlyAt P s₀ s) (k : Fin 2) (hp : FP.leaveHoldup P k) :
    OnlyAt P s₀ (State.leaveHoldup s k) := by
  unfold FP.leaveHoldup at hp
  obtain ⟨p0, p1, p2, p3⟩ := hp
  unfold State.leaveHoldup
  repeat' first
    | with_reducible assumption
    | extract_lets
    | with_reducible apply OnlyAt.ite
    | with_reducible apply State.setRole_only
    | with_reducible apply State.modChg_only
    | with_reducible apply State.enterStage_only
    | with_reducible apply State.notice_only

def FP.leaveGust (P : Place → Prop) (k : Fin 2) : Prop :=
    P (.chg k) ∧
    FP.setRole P k ∧
    FP.enterStage P k

theorem State.leaveGust_only {P : Place → Prop} {s₀ s : State} (h : OnlyAt P s₀ s) (k : Fin 2) (hp : FP.leaveGust P k) :
    OnlyAt P s₀ (State.leaveGust s k) := by
  unfold FP.leaveGust at hp
  obtain ⟨p0, p1, p2⟩ := hp
  unfold State.leaveGust
  repeat' first
    | with_reducible assumption
    | extract_lets
    | with_reducible apply OnlyAt.ite
    | with_reducible apply State.modChg_only
    | with_reducible apply State.setRole_only
    | with_reducible apply State.enterStage_only

def FP.setPfl (P : Place → Prop) : Prop :=
    P (.reg CHG_GSTAT) ∧
    P .chgg

theorem State.setPfl_only {P : Place → Prop} {s₀ s : State} (h : OnlyAt P s₀ s) (w : Rat) (hp : FP.setPfl P) :
    OnlyAt P s₀ (State.setPfl s w) := by
  unfold FP.setPfl at hp
  obtain ⟨p0, p1⟩ := hp
  unfold State.setPfl
  repeat' first
    | with_reducible assumption
    | extract_lets
    | with_reducible apply State.setCode_only
    | split
    | (with_reducible refine OnlyAt.mk_fields ?_ ?_ ?_ ?_ ?_ ?_ ?_ ?_ ?_ ?_ ?_ ?_ ?_ ?_ ?_ ?_ ?_ ?_ ?_ ?_ ?_ ?_ ?_ ?_ ?_ ?_ ?_ ?_)
    | (with_reducible exact Or.inr (by assumption))
    | with_reducible exact Or.inl rfl

def FP.endTest (P : Place → Prop) : Prop :=
    (∀ (z0 : Fin 16), FP.setPh P z0) ∧
    P .sys ∧
    FP.syncPorts P ∧
    P (.reg SYS_BIST) ∧
    FP.finish P

theorem State.endTest_only {P : Place → Prop} {s₀ s : State} (h : OnlyAt P s₀ s) (code : Nat) (status : Nat) (hp : FP.endTest P) :
    OnlyAt P s₀ (State.endTest s code status) := by
  unfold FP.endTest at hp
  obtain ⟨p0, p1, p2, p3, p4⟩ := hp
  unfold State.endTest
  repeat' first
    | with_reducible assumption
    | extract_lets
    | with_reducible apply OnlyAt.ite
    | with_reducible apply State.setPh_only
    | with_reducible apply State.syncPorts_only
    | with_reducible apply State.setFld_only
    | with_reducible apply State.finish_only
    | with_reducible exact p0 _
    | split
    | (with_reducible refine OnlyAt.mk_fields ?_ ?_ ?_ ?_ ?_ ?_ ?_ ?_ ?_ ?_ ?_ ?_ ?_ ?_ ?_ ?_ ?_ ?_ ?_ ?_ ?_ ?_ ?_ ?_ ?_ ?_ ?_ ?_)
    | (with_reducible exact Or.inr (by assumption))
    | with_reducible exact Or.inl rfl

def FP.stopPower (P : Place → Prop) : Prop :=
    P (.reg FEED_GSTAT) ∧
    FP.syncThr P ∧
    (∀ (z0 : Fin 2), FP.leaveHoldup P z0) ∧
    (∀ (z0 : Fin 2), FP.abortSounding P z0) ∧
    (∀ (z0 : Fin 2), FP.leaveGust P z0) ∧
    (∀ (z0 : Fin 2), FP.setCmd P z0) ∧
    (∀ (z0 : Fin 2), FP.setRole P z0) ∧
    FP.stopPhases P ∧
    (∀ (z0 : Fin 2), FP.turn P z0) ∧
    (∀ (z0 : Fin 2), FP.openPort P z0)

theorem State.stopPower_only {P : Place → Prop} {s₀ s : State} (h : OnlyAt P s₀ s)  (hp : FP.stopPower P) :
    OnlyAt P s₀ (State.stopPower s) := by
  unfold FP.stopPower at hp
  obtain ⟨p0, p1, p2, p3, p4, p5, p6, p7, p8, p9⟩ := hp
  unfold State.stopPower
  repeat' first
    | with_reducible assumption
    | extract_lets
    | with_reducible apply State.setOn_only
    | with_reducible apply State.syncThr_only
    | with_reducible apply State.leaveHoldup_only
    | with_reducible apply State.abortSounding_only
    | with_reducible apply State.leaveGust_only
    | with_reducible apply State.setCmd_only
    | with_reducible apply State.setRole_only
    | with_reducible apply State.stopPhases_only
    | with_reducible apply State.turn_only
    | with_reducible apply State.openPort_only
    | (with_reducible refine State.each_only ?_ _ _ (fun _ _ _ _ => ?_))
    | with_reducible exact p2 _
    | with_reducible exact p3 _
    | with_reducible exact p4 _
    | with_reducible exact p5 _
    | with_reducible exact p6 _
    | with_reducible exact p8 _
    | with_reducible exact p9 _

def FP.banksOff (P : Place → Prop) : Prop :=
    P (.reg MEM_STAT) ∧
    P .aon ∧
    P .fc ∧
    (∀ (y0 : Fin 64), P (.ring y0)) ∧
    P .hif ∧
    P .mem

theorem State.banksOff_only {P : Place → Prop} {s₀ s : State} (h : OnlyAt P s₀ s)  (hp : FP.banksOff P) :
    OnlyAt P s₀ (State.banksOff s) := by
  unfold FP.banksOff at hp
  obtain ⟨p0, p1, p2, p3, p4, p5⟩ := hp
  unfold State.banksOff
  repeat' first
    | with_reducible assumption
    | extract_lets
    | with_reducible apply OnlyAt.ite
    | with_reducible apply State.setWord_only
    | with_reducible exact p3 _
    | split
    | (with_reducible refine OnlyAt.mk_fields ?_ ?_ ?_ ?_ ?_ ?_ ?_ ?_ ?_ ?_ ?_ ?_ ?_ ?_ ?_ ?_ ?_ ?_ ?_ ?_ ?_ ?_ ?_ ?_ ?_ ?_ ?_ ?_)
    | (with_reducible exact Or.inr (by assumption))
    | (with_reducible exact Or.inr (fun _ => by assumption))
    | with_reducible exact Or.inl rfl

def FP.doldrumsEnd (P : Place → Prop) : Prop :=
    (∀ (y0 : Fin 2), P (.reg (COUL_STAT ↑y0))) ∧
    FP.banksOff P ∧
    FP.writeRecord P ∧
    FP.closeWindow P ∧
    P .sys ∧
    P .aon

theorem State.doldrumsEnd_only {P : Place → Prop} {s₀ s : State} (h : OnlyAt P s₀ s)  (hp : FP.doldrumsEnd P) :
    OnlyAt P s₀ (State.doldrumsEnd s) := by
  unfold FP.doldrumsEnd at hp
  obtain ⟨p0, p1, p2, p3, p4, p5⟩ := hp
  unfold State.doldrumsEnd
  repeat' first
    | with_reducible assumption
    | extract_lets
    | with_reducible apply State.setOn_only
    | with_reducible apply State.banksOff_only
    | with_reducible apply State.flushJournal_only
    | with_reducible apply State.closeWindow_only
    | (with_reducible refine State.each_only ?_ _ _ (fun _ _ _ _ => ?_))
    | with_reducible exact p0 _
    | split
    | (with_reducible refine OnlyAt.mk_fields ?_ ?_ ?_ ?_ ?_ ?_ ?_ ?_ ?_ ?_ ?_ ?_ ?_ ?_ ?_ ?_ ?_ ?_ ?_ ?_ ?_ ?_ ?_ ?_ ?_ ?_ ?_ ?_)
    | (with_reducible exact Or.inr (by assumption))
    | with_reducible exact Or.inl rfl

def FP.thermalEnd (P : Place → Prop) : Prop :=
    P .jnl ∧
    FP.writeRecord P ∧
    P (.reg THM_STAT) ∧
    P .flt

theorem State.thermalEnd_only {P : Place → Prop} {s₀ s : State} (h : OnlyAt P s₀ s) (tj : Int) (trip : Nat) (hp : FP.thermalEnd P) :
    OnlyAt P s₀ (State.thermalEnd s tj trip) := by
  unfold FP.thermalEnd at hp
  obtain ⟨p0, p1, p2, p3⟩ := hp
  unfold State.thermalEnd
  repeat' first
    | with_reducible assumption
    | extract_lets
    | with_reducible apply State.jevent_only
    | with_reducible apply State.flushJournal_only
    | with_reducible apply State.setOn_only
    | with_reducible apply State.fault_only

def FP.stopNext (P : Place → Prop) : Prop :=
    P .sys ∧
    P .jnl ∧
    FP.writeRecord P ∧
    FP.thermalEnd P ∧
    P (.reg PK_SHIP) ∧
    FP.doldrumsEnd P

theorem State.stopNext_only {P : Place → Prop} {s₀ s : State} (h : OnlyAt P s₀ s)  (hp : FP.stopNext P) :
    OnlyAt P s₀ (State.stopNext s) := by
  unfold FP.stopNext at hp
  obtain ⟨p0, p1, p2, p3, p4, p5⟩ := hp
  unfold State.stopNext
  repeat' first
    | with_reducible assumption
    | extract_lets
    | with_reducible apply OnlyAt.ite
    | with_reducible apply State.jevent_only
    | with_reducible apply State.flushJournal_only
    | with_reducible apply State.thermalEnd_only
    | with_reducible apply State.setOn_only
    | with_reducible apply State.doldrumsEnd_only
    | split
    | (with_reducible refine OnlyAt.mk_fields ?_ ?_ ?_ ?_ ?_ ?_ ?_ ?_ ?_ ?_ ?_ ?_ ?_ ?_ ?_ ?_ ?_ ?_ ?_ ?_ ?_ ?_ ?_ ?_ ?_ ?_ ?_ ?_)
    | (with_reducible exact Or.inr (by assumption))
    | with_reducible exact Or.inl rfl

def FP.stopBegin (P : Place → Prop) : Prop :=
    FP.stopPower P ∧
    (∀ (z0 : Fin 2), FP.wbDue P z0) ∧
    FP.stopNext P ∧
    P .sys

theorem State.stopBegin_only {P : Place → Prop} {s₀ s : State} (h : OnlyAt P s₀ s) (kind : StopKind) (hp : FP.stopBegin P) :
    OnlyAt P s₀ (State.stopBegin s kind) := by
  unfold FP.stopBegin at hp
  obtain ⟨p0, p1, p2, p3⟩ := hp
  unfold State.stopBegin
  repeat' first
    | with_reducible assumption
    | extract_lets
    | with_reducible apply OnlyAt.ite
    | with_reducible apply State.stopPower_only
    | with_reducible apply State.wbDue_only
    | with_reducible apply State.stopNext_only
    | (with_reducible refine State.each_only ?_ _ _ (fun _ _ _ _ => ?_))
    | with_reducible exact p1 _
    | split
    | (with_reducible refine OnlyAt.mk_fields ?_ ?_ ?_ ?_ ?_ ?_ ?_ ?_ ?_ ?_ ?_ ?_ ?_ ?_ ?_ ?_ ?_ ?_ ?_ ?_ ?_ ?_ ?_ ?_ ?_ ?_ ?_ ?_)
    | (with_reducible exact Or.inr (by assumption))
    | with_reducible exact Or.inl rfl

abbrev FP.extractionStop (P : Place → Prop) : Prop :=
    FP.stopBegin P

theorem State.extractionStop_only {P : Place → Prop} {s₀ s : State} (h : OnlyAt P s₀ s) (obj : Nat) (hp : FP.extractionStop P) :
    OnlyAt P s₀ (State.extractionStop s obj) := by
  have p0 := hp
  unfold State.extractionStop
  repeat' first
    | with_reducible assumption
    | extract_lets
    | with_reducible apply OnlyAt.ite
    | with_reducible apply State.stopBegin_only

abbrev FP.doldrumsEntry (P : Place → Prop) : Prop :=
    FP.stopBegin P

theorem State.doldrumsEntry_only {P : Place → Prop} {s₀ s : State} (h : OnlyAt P s₀ s)  (hp : FP.doldrumsEntry P) :
    OnlyAt P s₀ (State.doldrumsEntry s) := by
  have p0 := hp
  unfold State.doldrumsEntry
  repeat' first
    | with_reducible assumption
    | extract_lets
    | with_reducible apply State.stopBegin_only
    | split

def FP.stopWrote (P : Place → Prop) : Prop :=
    FP.stopNext P ∧
    P .sys

theorem State.stopWrote_only {P : Place → Prop} {s₀ s : State} (h : OnlyAt P s₀ s) (k : Fin 2) (hp : FP.stopWrote P) :
    OnlyAt P s₀ (State.stopWrote s k) := by
  unfold FP.stopWrote at hp
  obtain ⟨p0, p1⟩ := hp
  unfold State.stopWrote
  repeat' first
    | with_reducible assumption
    | extract_lets
    | with_reducible apply State.stopNext_only
    | split
    | (with_reducible refine OnlyAt.mk_fields ?_ ?_ ?_ ?_ ?_ ?_ ?_ ?_ ?_ ?_ ?_ ?_ ?_ ?_ ?_ ?_ ?_ ?_ ?_ ?_ ?_ ?_ ?_ ?_ ?_ ?_ ?_ ?_)
    | (with_reducible exact Or.inr (by assumption))
    | with_reducible exact Or.inl rfl

def FP.takeover (P : Place → Prop) : Prop :=
    (∀ (z0 : Fin 2), FP.abortSounding P z0) ∧
    (∀ (y0 : Fin 2), P (.chg y0)) ∧
    (∀ (z0 : Fin 2), FP.setRole P z0) ∧
    (∀ (z0 : Fin 2), FP.setCmd P z0) ∧
    (∀ (z0 : Fin 2), FP.leaveGust P z0) ∧
    P .chgg ∧
    (∀ (z0 : Fin 2), FP.setPout P z0) ∧
    FP.notice P

theorem State.takeover_only {P : Place → Prop} {s₀ s : State} (h : OnlyAt P s₀ s)  (hp : FP.takeover P) :
    OnlyAt P s₀ (State.takeover s) := by
  unfold FP.takeover at hp
  obtain ⟨p0, p1, p2, p3, p4, p5, p6, p7⟩ := hp
  unfold State.takeover
  repeat' first
    | with_reducible assumption
    | extract_lets
    | with_reducible apply OnlyAt.ite
    | with_reducible apply State.abortSounding_only
    | with_reducible apply State.modChg_only
    | with_reducible apply State.setRole_only
    | with_reducible apply State.setCmd_only
    | with_reducible apply State.leaveGust_only
    | with_reducible apply State.setPout_only
    | with_reducible apply State.notice_only
    | (with_reducible refine State.each_only ?_ _ _ (fun _ _ _ _ => ?_))
    | with_reducible exact p0 _
    | with_reducible exact p1 _
    | with_reducible exact p2 _
    | with_reducible exact p3 _
    | with_reducible exact p4 _
    | with_reducible exact p6 _
    | split
    | (with_reducible refine OnlyAt.mk_fields ?_ ?_ ?_ ?_ ?_ ?_ ?_ ?_ ?_ ?_ ?_ ?_ ?_ ?_ ?_ ?_ ?_ ?_ ?_ ?_ ?_ ?_ ?_ ?_ ?_ ?_ ?_ ?_)
    | (with_reducible exact Or.inr (by assumption))
    | with_reducible exact Or.inl rfl

def FP.feedsLost (P : Place → Prop) : Prop :=
    FP.setPfl P ∧
    P (.reg FEED_GSTAT) ∧
    P .chgg ∧
    FP.stopBegin P ∧
    FP.budgetDrop P ∧
    FP.endTest P ∧
    FP.takeover P

theorem State.feedsLost_only {P : Place → Prop} {s₀ s : State} (h : OnlyAt P s₀ s)  (hp : FP.feedsLost P) :
    OnlyAt P s₀ (State.feedsLost s) := by
  unfold FP.feedsLost at hp
  obtain ⟨p0, p1, p2, p3, p4, p5, p6⟩ := hp
  unfold State.feedsLost
  repeat' first
    | with_reducible assumption
    | extract_lets
    | with_reducible apply OnlyAt.ite
    | with_reducible apply State.setPfl_only
    | with_reducible apply State.setOn_only
    | with_reducible apply State.doldrumsEntry_only
    | with_reducible apply State.budgetDrop_only
    | with_reducible apply State.endTest_only
    | with_reducible apply State.takeover_only
    | with_reducible apply State.extractionStop_only
    | split
    | (with_reducible refine OnlyAt.mk_fields ?_ ?_ ?_ ?_ ?_ ?_ ?_ ?_ ?_ ?_ ?_ ?_ ?_ ?_ ?_ ?_ ?_ ?_ ?_ ?_ ?_ ?_ ?_ ?_ ?_ ?_ ?_ ?_)
    | (with_reducible exact Or.inr (by assumption))
    | with_reducible exact Or.inl rfl

abbrev FP.checkFeeds (P : Place → Prop) : Prop :=
    FP.feedsLost P

theorem State.checkFeeds_only {P : Place → Prop} {s₀ s : State} (h : OnlyAt P s₀ s)  (hp : FP.checkFeeds P) :
    OnlyAt P s₀ (State.checkFeeds s) := by
  have p0 := hp
  unfold State.checkFeeds
  repeat' first
    | with_reducible assumption
    | extract_lets
    | with_reducible apply OnlyAt.ite
    | with_reducible apply State.feedsLost_only

def FP.retarget (P : Place → Prop) : Prop :=
    P .phg ∧
    P (.reg PH_VREF)

theorem State.retarget_only {P : Place → Prop} {s₀ s : State} (h : OnlyAt P s₀ s) (vtgt : Nat) (slew : Nat) (hp : FP.retarget P) :
    OnlyAt P s₀ (State.retarget s vtgt slew) := by
  unfold FP.retarget at hp
  obtain ⟨p0, p1⟩ := hp
  unfold State.retarget
  repeat' first
    | with_reducible assumption
    | extract_lets
    | with_reducible apply State.setOn_only
    | split
    | (with_reducible refine OnlyAt.mk_fields ?_ ?_ ?_ ?_ ?_ ?_ ?_ ?_ ?_ ?_ ?_ ?_ ?_ ?_ ?_ ?_ ?_ ?_ ?_ ?_ ?_ ?_ ?_ ?_ ?_ ?_ ?_ ?_)
    | (with_reducible exact Or.inr (by assumption))
    | with_reducible exact Or.inl rfl

def FP.handbackStart (P : Place → Prop) : Prop :=
    P (.reg CHG_GSTAT) ∧
    FP.retarget P

theorem State.handbackStart_only {P : Place → Prop} {s₀ s : State} (h : OnlyAt P s₀ s) (n : Fin 4) (hp : FP.handbackStart P) :
    OnlyAt P s₀ (State.handbackStart s n) := by
  unfold FP.handbackStart at hp
  obtain ⟨p0, p1⟩ := hp
  unfold State.handbackStart
  repeat' first
    | with_reducible assumption
    | extract_lets
    | with_reducible apply OnlyAt.ite
    | with_reducible apply State.setOn_only
    | with_reducible apply State.retarget_only

def FP.handbackOver (P : Place → Prop) : Prop :=
    P (.reg CHG_GSTAT) ∧
    FP.retarget P ∧
    P .phg

theorem State.handbackOver_only {P : Place → Prop} {s₀ s : State} (h : OnlyAt P s₀ s)  (hp : FP.handbackOver P) :
    OnlyAt P s₀ (State.handbackOver s) := by
  unfold FP.handbackOver at hp
  obtain ⟨p0, p1, p2⟩ := hp
  unfold State.handbackOver
  repeat' first
    | with_reducible assumption
    | extract_lets
    | with_reducible apply OnlyAt.ite
    | with_reducible apply State.setOn_only
    | with_reducible apply State.retarget_only
    | split
    | (with_reducible refine OnlyAt.mk_fields ?_ ?_ ?_ ?_ ?_ ?_ ?_ ?_ ?_ ?_ ?_ ?_ ?_ ?_ ?_ ?_ ?_ ?_ ?_ ?_ ?_ ?_ ?_ ?_ ?_ ?_ ?_ ?_)
    | (with_reducible exact Or.inr (by assumption))
    | with_reducible exact Or.inl rfl

def FP.feedsBack (P : Place → Prop) : Prop :=
    P (.reg FEED_GSTAT) ∧
    FP.handbackOver P ∧
    FP.setPfl P ∧
    (∀ (z0 : Fin 2), FP.leaveHoldup P z0) ∧
    (∀ (z0 : Fin 2), FP.setCmd P z0) ∧
    (∀ (z0 : Fin 2), FP.setRole P z0) ∧
    (∀ (z0 : Fin 2), FP.setPout P z0) ∧
    (∀ (y0 : Fin 2), P (.chg y0)) ∧
    FP.syncThr P ∧
    P (.reg CHG_GSTAT)

theorem State.feedsBack_only {P : Place → Prop} {s₀ s : State} (h : OnlyAt P s₀ s)  (hp : FP.feedsBack P) :
    OnlyAt P s₀ (State.feedsBack s) := by
  unfold FP.feedsBack at hp
  obtain ⟨p0, p1, p2, p3, p4, p5, p6, p7, p8, p9⟩ := hp
  unfold State.feedsBack
  repeat' first
    | with_reducible assumption
    | extract_lets
    | with_reducible apply OnlyAt.ite
    | with_reducible apply State.setOn_only
    | with_reducible apply State.handbackOver_only
    | with_reducible apply State.setPfl_only
    | with_reducible apply State.leaveHoldup_only
    | with_reducible apply State.setCmd_only
    | with_reducible apply State.setRole_only
    | with_reducible apply State.setPout_only
    | with_reducible apply State.modChg_only
    | with_reducible apply State.syncThr_only
    | (with_reducible refine State.each_only ?_ _ _ (fun _ _ _ _ => ?_))
    | with_reducible exact p3 _
    | with_reducible exact p4 _
    | with_reducible exact p5 _
    | with_reducible exact p6 _
    | with_reducible exact p7 _

end Sys2Proof.Machine
end

