-- ==== Sys2Proof/Laws/OnlyPhase.lean ====
section
/-! SUPPORT. What each operation of Machine/Phase.lean may change: `FP.x` says that its places lie in `P`. -/

namespace Sys2Proof.Machine

abbrev FP.legs (P : Place → Prop) (n : Fin 16) : Prop :=
    P (.ph n)

theorem State.legs_only {P : Place → Prop} {s₀ s : State} (h : OnlyAt P s₀ s) (k : Fin 2) (n : Fin 16) (at_ : Rat) (inp : PwmLvl) (out : PwmLvl) (hp : FP.legs P n) :
    OnlyAt P s₀ (State.legs s k n at_ inp out) := by
  have p0 := hp
  unfold State.legs
  repeat' first
    | with_reducible assumption
    | extract_lets
    | with_reducible apply OnlyAt.ite
    | with_reducible apply State.modPh_only

abbrev FP.idleDir (P : Place → Prop) (k : Fin 2) : Prop :=
    FP.turn P k

theorem State.idleDir_only {P : Place → Prop} {s₀ s : State} (h : OnlyAt P s₀ s) (k : Fin 2) (hp : FP.idleDir P k) :
    OnlyAt P s₀ (State.idleDir s k) := by
  have p0 := hp
  unfold State.idleDir
  repeat' first
    | with_reducible assumption
    | extract_lets
    | with_reducible apply OnlyAt.ite
    | with_reducible apply State.turn_only

def FP.blendStep (P : Place → Prop) (k : Fin 2) (n : Fin 16) : Prop :=
    P (.ph n) ∧
    P (.reg (PHP_STAT ↑k))

theorem State.blendStep_only {P : Place → Prop} {s₀ s : State} (h : OnlyAt P s₀ s) (k : Fin 2) (n : Fin 16) (hp : FP.blendStep P k n) :
    OnlyAt P s₀ (State.blendStep s k n) := by
  unfold FP.blendStep at hp
  obtain ⟨p0, p1⟩ := hp
  unfold State.blendStep
  repeat' first
    | with_reducible assumption
    | extract_lets
    | with_reducible apply OnlyAt.ite
    | with_reducible apply State.modPh_only
    | with_reducible apply State.setFld_only

def FP.portCycle (P : Place → Prop) (k : Fin 2) : Prop :=
    P (.php k) ∧
    FP.sourceEdge P ∧
    FP.syncPort P k ∧
    (∀ (y0 : Fin 16), P (.ph y0))

theorem State.portCycle_only {P : Place → Prop} {s₀ s : State} (h : OnlyAt P s₀ s) (k : Fin 2) (hp : FP.portCycle P k) :
    OnlyAt P s₀ (State.portCycle s k) := by
  unfold FP.portCycle at hp
  obtain ⟨p0, p1, p2, p3⟩ := hp
  unfold State.portCycle
  repeat' first
    | with_reducible assumption
    | extract_lets
    | with_reducible apply OnlyAt.ite
    | with_reducible apply State.modPhp_only
    | with_reducible apply State.sourceEdge_only
    | with_reducible apply State.syncPort_only
    | with_reducible apply State.modPh_only
    | (with_reducible refine State.each_only ?_ _ _ (fun _ _ _ _ => ?_))
    | with_reducible exact p3 _

abbrev FP.reachB (P : Place → Prop) (n : Fin 16) : Prop :=
    FP.legs P n

theorem State.reachB_only {P : Place → Prop} {s₀ s : State} (h : OnlyAt P s₀ s) (k : Fin 2) (n : Fin 16) (at_ : Rat) (hp : FP.reachB P n) :
    OnlyAt P s₀ (State.reachB s k n at_) := by
  have p0 := hp
  unfold State.reachB
  repeat' first
    | with_reducible assumption
    | extract_lets
    | with_reducible apply OnlyAt.ite
    | with_reducible apply State.legs_only
    | split

def FP.startCycle (P : Place → Prop) (n : Fin 16) : Prop :=
    P (.ph n) ∧
    P (.reg (PH_LRN ↑n)) ∧
    FP.legs P n

theorem State.startCycle_only {P : Place → Prop} {s₀ s : State} (h : OnlyAt P s₀ s) (k : Fin 2) (n : Fin 16) (hp : FP.startCycle P n) :
    OnlyAt P s₀ (State.startCycle s k n) := by
  unfold FP.startCycle at hp
  obtain ⟨p0, p1, p2⟩ := hp
  unfold State.startCycle
  repeat' first
    | with_reducible assumption
    | extract_lets
    | with_reducible apply OnlyAt.ite
    | with_reducible apply State.modPh_only
    | with_reducible apply State.setCode_only
    | with_reducible apply State.legs_only
    | split

def FP.endOn (P : Place → Prop) (n : Fin 16) : Prop :=
    P (.ph n) ∧
    P (.reg (PH_MEAS ↑n)) ∧
    FP.legs P n

theorem State.endOn_only {P : Place → Prop} {s₀ s : State} (h : OnlyAt P s₀ s) (k : Fin 2) (n : Fin 16) (at_ : Rat) (hp : FP.endOn P n) :
    OnlyAt P s₀ (State.endOn s k n at_) := by
  unfold FP.endOn at hp
  obtain ⟨p0, p1, p2⟩ := hp
  unfold State.endOn
  repeat' first
    | with_reducible assumption
    | extract_lets
    | with_reducible apply OnlyAt.ite
    | with_reducible apply State.modPh_only
    | with_reducible apply State.setScode_only
    | with_reducible apply State.legs_only
    | split

def FP.cutPower (P : Place → Prop) (k : Fin 2) : Prop :=
    FP.setPfl P ∧
    P .chgg ∧
    (∀ (z0 : Fin 2), FP.setPout P z0) ∧
    (∀ (z0 : Fin 2), FP.setCmd P z0) ∧
    (∀ (y0 : Fin 2), P (.chg y0)) ∧
    FP.budgetDrop P ∧
    FP.evt P (PHP_EVT ↑k)

theorem State.cutPower_only {P : Place → Prop} {s₀ s : State} (h : OnlyAt P s₀ s) (k : Fin 2) (hp : FP.cutPower P k) :
    OnlyAt P s₀ (State.cutPower s k) := by
  unfold FP.cutPower at hp
  obtain ⟨p0, p1, p2, p3, p4, p5, p6⟩ := hp
  unfold State.cutPower
  repeat' first
    | with_reducible assumption
    | extract_lets
    | with_reducible apply OnlyAt.ite
    | with_reducible apply State.setPfl_only
    | with_reducible apply State.setPout_only
    | with_reducible apply State.setCmd_only
    | with_reducible apply State.modChg_only
    | with_reducible apply State.budgetDrop_only
    | with_reducible apply State.evt_only
    | (with_reducible refine State.each_only ?_ _ _ (fun _ _ _ _ => ?_))
    | with_reducible exact p2 _
    | with_reducible exact p3 _
    | with_reducible exact p4 _
    | split
    | (with_reducible refine OnlyAt.mk_fields ?_ ?_ ?_ ?_ ?_ ?_ ?_ ?_ ?_ ?_ ?_ ?_ ?_ ?_ ?_ ?_ ?_ ?_ ?_ ?_ ?_ ?_ ?_ ?_ ?_ ?_ ?_ ?_)
    | (with_reducible exact Or.inr (by assumption))
    | with_reducible exact Or.inl rfl

def FP.takeOut (P : Place → Prop) (k : Fin 2) (n : Fin 16) : Prop :=
    FP.syncPort P k ∧
    FP.setPh P n ∧
    FP.evt P (PHP_EVT ↑k)

theorem State.takeOut_only {P : Place → Prop} {s₀ s : State} (h : OnlyAt P s₀ s) (k : Fin 2) (n : Fin 16) (st : PhSt) (hp : FP.takeOut P k n) :
    OnlyAt P s₀ (State.takeOut s k n st) := by
  unfold FP.takeOut at hp
  obtain ⟨p0, p1, p2⟩ := hp
  unfold State.takeOut
  repeat' first
    | with_reducible assumption
    | extract_lets
    | with_reducible apply OnlyAt.ite
    | with_reducible apply State.syncPort_only
    | with_reducible apply State.setPh_only
    | with_reducible apply State.evt_only

def FP.mapDeferred (P : Place → Prop) : Prop :=
    (∀ (y0 : Fin 16), P (.ph y0)) ∧
    P .phg ∧
    FP.refuse P

theorem State.mapDeferred_only {P : Place → Prop} {s₀ s : State} (h : OnlyAt P s₀ s)  (hp : FP.mapDeferred P) :
    OnlyAt P s₀ (State.mapDeferred s) := by
  unfold FP.mapDeferred at hp
  obtain ⟨p0, p1, p2⟩ := hp
  unfold State.mapDeferred
  repeat' first
    | with_reducible assumption
    | extract_lets
    | with_reducible apply State.modPh_only
    | with_reducible apply State.refuse_only
    | (with_reducible refine State.each_only ?_ _ _ (fun _ _ _ _ => ?_))
    | with_reducible exact p0 _
    | split
    | (with_reducible refine OnlyAt.mk_fields ?_ ?_ ?_ ?_ ?_ ?_ ?_ ?_ ?_ ?_ ?_ ?_ ?_ ?_ ?_ ?_ ?_ ?_ ?_ ?_ ?_ ?_ ?_ ?_ ?_ ?_ ?_ ?_)
    | (with_reducible exact Or.inr (by assumption))
    | with_reducible exact Or.inl rfl

def FP.drainNext (P : Place → Prop) : Prop :=
    FP.syncPorts P ∧
    (∀ (z0 : Fin 16), FP.setPh P z0) ∧
    FP.mapDeferred P

theorem State.drainNext_only {P : Place → Prop} {s₀ s : State} (h : OnlyAt P s₀ s)  (hp : FP.drainNext P) :
    OnlyAt P s₀ (State.drainNext s) := by
  unfold FP.drainNext at hp
  obtain ⟨p0, p1, p2⟩ := hp
  unfold State.drainNext
  repeat' first
    | with_reducible assumption
    | extract_lets
    | with_reducible apply OnlyAt.ite
    | with_reducible apply State.syncPorts_only
    | with_reducible apply State.setPh_only
    | with_reducible apply State.mapDeferred_only
    | with_reducible exact p1 _
    | split

def FP.oclLatch (P : Place → Prop) (n : Fin 16) : Prop :=
    P (.ph n) ∧
    (∀ (z0 : Fin 2), FP.takeOut P z0 n) ∧
    FP.setPh P n ∧
    P (.reg (PH_STAT ↑n)) ∧
    P (.reg (PH_CNT ↑n)) ∧
    FP.evt P (PH_EVT ↑n) ∧
    P .flt ∧
    FP.drainNext P

theorem State.oclLatch_only {P : Place → Prop} {s₀ s : State} (h : OnlyAt P s₀ s) (n : Fin 16) (cause : Nat) (hp : FP.oclLatch P n) :
    OnlyAt P s₀ (State.oclLatch s n cause) := by
  unfold FP.oclLatch at hp
  obtain ⟨p0, p1, p2, p3, p4, p5, p6, p7⟩ := hp
  unfold State.oclLatch
  repeat' first
    | with_reducible assumption
    | extract_lets
    | with_reducible apply OnlyAt.ite
    | with_reducible apply State.modPh_only
    | with_reducible apply State.takeOut_only
    | with_reducible apply State.setPh_only
    | with_reducible apply State.setFld_only
    | with_reducible apply State.count_only
    | with_reducible apply State.evt_only
    | with_reducible apply State.fault_only
    | with_reducible apply State.drainNext_only
    | with_reducible exact p1 _
    | split
    | dsimp +zetaDelta only

def FP.markLost (P : Place → Prop) (n : Fin 16) : Prop :=
    P .flt ∧
    FP.evt P (PH_EVT ↑n) ∧
    P (.reg (PH_STAT ↑n)) ∧
    FP.setPh P n ∧
    (∀ (z0 : Fin 2), FP.takeOut P z0 n) ∧
    P .chgg ∧
    (∀ (z0 : Fin 2), FP.setCmd P z0) ∧
    (∀ (y0 : Fin 2), P (.chg y0)) ∧
    FP.setPfl P ∧
    (∀ (y0 : Fin 2), P (.reg (CHG_CUR ↑y0))) ∧
    (∀ (z0 : Fin 2), FP.cutPower P z0) ∧
    (∀ (z0 : Fin 16), FP.setPh P z0) ∧
    FP.mapDeferred P ∧
    FP.drainNext P ∧
    FP.endTest P ∧
    FP.budgetDrop P ∧
    (∀ (z0 : Fin 2), FP.syncPort P z0)

theorem State.markLost_only {P : Place → Prop} {s₀ s : State} (h : OnlyAt P s₀ s) (n : Fin 16) (cause : Nat) (hp : FP.markLost P n) :
    OnlyAt P s₀ (State.markLost s n cause) := by
  unfold FP.markLost at hp
  obtain ⟨p0, p1, p2, p3, p4, p5, p6, p7, p8, p9, p10, p11, p12, p13, p14, p15, p16⟩ := hp
  unfold State.markLost
  repeat' first
    | with_reducible assumption
    | extract_lets
    | with_reducible apply OnlyAt.ite
    | with_reducible apply State.fault_only
    | with_reducible apply State.evt_only
    | with_reducible apply State.setFld_only
    | with_reducible apply State.setPh_only
    | with_reducible apply State.takeOut_only
    | with_reducible apply State.setCmd_only
    | with_reducible apply State.modChg_only
    | with_reducible apply State.setPfl_only
    | with_reducible apply State.setScode_only
    | with_reducible apply State.cutPower_only
    | with_reducible apply State.mapDeferred_only
    | with_reducible apply State.drainNext_only
    | with_reducible apply State.endTest_only
    | with_reducible apply State.budgetDrop_only
    | with_reducible apply State.syncPort_only
    | (with_reducible refine State.each_only ?_ _ _ (fun _ _ _ _ => ?_))
    | with_reducible exact p4 _
    | with_reducible exact p6 _
    | with_reducible exact p7 _
    | with_reducible exact p9 _
    | with_reducible exact p10 _
    | with_reducible exact p11 _
    | with_reducible exact p16 _
    | split
    | (with_reducible refine OnlyAt.mk_fields ?_ ?_ ?_ ?_ ?_ ?_ ?_ ?_ ?_ ?_ ?_ ?_ ?_ ?_ ?_ ?_ ?_ ?_ ?_ ?_ ?_ ?_ ?_ ?_ ?_ ?_ ?_ ?_)
    | (with_reducible exact Or.inr (by assumption))
    | with_reducible exact Or.inl rfl

def FP.tripStop (P : Place → Prop) (k : Fin 2) (n : Fin 16) : Prop :=
    FP.endOn P n ∧
    P (.reg (PH_STAT ↑n)) ∧
    P (.reg (PHP_CNT ↑k)) ∧
    P (.reg (PH_CNT ↑n)) ∧
    FP.oclLatch P n

theorem State.tripStop_only {P : Place → Prop} {s₀ s : State} (h : OnlyAt P s₀ s) (k : Fin 2) (n : Fin 16) (at_ : Rat) (trunc : Bool) (fast : Bool) (hp : FP.tripStop P k n) :
    OnlyAt P s₀ (State.tripStop s k n at_ trunc fast) := by
  unfold FP.tripStop at hp
  obtain ⟨p0, p1, p2, p3, p4⟩ := hp
  unfold State.tripStop
  repeat' first
    | with_reducible assumption
    | extract_lets
    | with_reducible apply OnlyAt.ite
    | with_reducible apply State.endOn_only
    | with_reducible apply State.setFld_only
    | with_reducible apply State.count_only
    | with_reducible apply State.oclLatch_only

def FP.onTrip (P : Place → Prop) (k : Fin 2) (n : Fin 16) : Prop :=
    P (.ph n) ∧
    FP.tripStop P k n ∧
    FP.reachB P n ∧
    FP.legs P n

theorem State.onTrip_only {P : Place → Prop} {s₀ s : State} (h : OnlyAt P s₀ s) (k : Fin 2) (n : Fin 16) (e : TripEv) (at_ : Rat) (trunc : Bool) (hp : FP.onTrip P k n) :
    OnlyAt P s₀ (State.onTrip s k n e at_ trunc) := by
  unfold FP.onTrip at hp
  obtain ⟨p0, p1, p2, p3⟩ := hp
  unfold State.onTrip
  repeat' first
    | with_reducible assumption
    | extract_lets
    | with_reducible apply OnlyAt.ite
    | with_reducible apply State.modPh_only
    | with_reducible apply State.tripStop_only
    | with_reducible apply State.reachB_only
    | with_reducible apply State.legs_only
    | split

def FP.ampSample (P : Place → Prop) (n : Fin 16) : Prop :=
    P (.ph n) ∧
    P (.reg (PH_MEAS ↑n))

theorem State.ampSample_only {P : Place → Prop} {s₀ s : State} (h : OnlyAt P s₀ s) (n : Fin 16) (a : Rat) (use : Bool) (hp : FP.ampSample P n) :
    OnlyAt P s₀ (State.ampSample s n a use) := by
  unfold FP.ampSample at hp
  obtain ⟨p0, p1⟩ := hp
  unfold State.ampSample
  repeat' first
    | with_reducible assumption
    | extract_lets
    | with_reducible apply OnlyAt.ite
    | with_reducible apply State.modPh_only
    | with_reducible apply State.setScode_only

def FP.addUpTo (P : Place → Prop) (k : Fin 2) : Prop :=
    (∀ z0 : Fin 16, FP.setPh P z0) ∧
    P (.reg (PHP_CNT ↑k)) ∧
    FP.syncPort P k

theorem State.addUpTo_only {P : Place → Prop} {s₀ s : State} (h : OnlyAt P s₀ s) (k : Fin 2) (want n : Nat)
    (hp : FP.addUpTo P k) : OnlyAt P s₀ (State.addUpTo s k want n) := by
  obtain ⟨p0, p1, p2⟩ := hp
  induction n generalizing s with
  | zero => exact h
  | succ n ih =>
    unfold State.addUpTo
    extract_lets up
    clear_value up
    split
    · exact h
    · split
      · exact ih (State.count_only (State.setPh_only h _ _ (p0 _)) _ p1)
      · split
        · exact ih (State.syncPort_only (State.count_only (State.setPh_only h _ _ (p0 _)) _ p1) _ p2)
        · exact h

def FP.shedOne (P : Place → Prop) (k : Fin 2) : Prop :=
    FP.syncPort P k ∧
    P (.php k) ∧
    P (.reg (PHP_CNT ↑k)) ∧
    (∀ (z0 : Fin 16), FP.setPh P z0)

theorem State.shedOne_only {P : Place → Prop} {s₀ s : State} (h : OnlyAt P s₀ s) (k : Fin 2) (hp : FP.shedOne P k) :
    OnlyAt P s₀ (State.shedOne s k) := by
  unfold FP.shedOne at hp
  obtain ⟨p0, p1, p2, p3⟩ := hp
  unfold State.shedOne
  repeat' first
    | with_reducible assumption
    | extract_lets
    | with_reducible apply State.syncPort_only
    | with_reducible apply State.modPhp_only
    | with_reducible apply State.count_only
    | with_reducible apply State.setPh_only
    | with_reducible exact p3 _
    | split

def FP.capShed (P : Place → Prop) (k : Fin 2) : Prop :=
    (∀ z0 : Fin 16, FP.setPh P z0) ∧
    FP.shedOne P k

theorem State.capShed_only {P : Place → Prop} {s₀ s : State} (h : OnlyAt P s₀ s) (k : Fin 2) (n : Nat)
    (hp : FP.capShed P k) : OnlyAt P s₀ (State.capShed s k n) := by
  obtain ⟨p0, p1⟩ := hp
  induction n generalizing s with
  | zero => exact h
  | succ n ih =>
    unfold State.capShed
    extract_lets waking
    clear_value waking
    split
    · refine ih ?_
      split
      · exact State.setPh_only h _ _ (p0 _)
      · exact State.shedOne_only h _ p1
    · exact h

abbrev FP.syncProbe (P : Place → Prop) : Prop :=
    P (.reg SYS_PROBE)

theorem State.syncProbe_only {P : Place → Prop} {s₀ s : State} (h : OnlyAt P s₀ s) (n : Fin 16) (hp : FP.syncProbe P) :
    OnlyAt P s₀ (State.syncProbe s n) := by
  have p0 := hp
  unfold State.syncProbe
  repeat' first
    | with_reducible assumption
    | extract_lets
    | with_reducible apply OnlyAt.ite
    | with_reducible apply State.setFld_only

def FP.probeLeg (P : Place → Prop) (n : Fin 16) : Prop :=
    P (.ph n) ∧
    P .flt ∧
    FP.syncPorts P ∧
    FP.setPh P n ∧
    (∀ (z0 : Fin 2), FP.openPort P z0) ∧
    (∀ (z0 : Fin 2), FP.leaveHoldup P z0) ∧
    (∀ (y0 : Fin 2), P (.pk y0)) ∧
    P (.reg SYS_PROBE) ∧
    (∀ (z0 : Fin 2), FP.dsgAfterClose P z0)

theorem State.probeLeg_only {P : Place → Prop} {s₀ s : State} (h : OnlyAt P s₀ s) (n : Fin 16) (boost : Bool) (shorted : Bool) (hp : FP.probeLeg P n) :
    OnlyAt P s₀ (State.probeLeg s n boost shorted) := by
  unfold FP.probeLeg at hp
  obtain ⟨p0, p1, p2, p3, p4, p5, p6, p7, p8⟩ := hp
  unfold State.probeLeg
  repeat' first
    | with_reducible assumption
    | extract_lets
    | with_reducible apply OnlyAt.ite
    | with_reducible apply State.modPh_only
    | with_reducible apply State.fault_only
    | with_reducible apply State.syncPorts_only
    | with_reducible apply State.setPh_only
    | with_reducible apply State.openPort_only
    | with_reducible apply State.leaveHoldup_only
    | with_reducible apply State.modPk_only
    | with_reducible apply State.syncProbe_only
    | with_reducible apply State.dsgAfterClose_only
    | with_reducible exact p4 _
    | with_reducible exact p5 _
    | with_reducible exact p6 _
    | with_reducible exact p8 _
    | split

abbrev FP.probe (P : Place → Prop) (n : Fin 16) : Prop :=
    FP.probeLeg P n

theorem State.probe_only {P : Place → Prop} {s₀ s : State} (h : OnlyAt P s₀ s) (n : Fin 16) (boost : Bool) (p : LegPulse) (hp : FP.probe P n) :
    OnlyAt P s₀ (State.probe s n boost p) := by
  have p0 := hp
  unfold State.probe
  repeat' first
    | with_reducible assumption
    | extract_lets
    | with_reducible apply State.probeLeg_only

abbrev FP.probeLive (P : Place → Prop) (n : Fin 16) : Prop :=
    FP.probe P n

theorem State.probeLive_only {P : Place → Prop} {s₀ s : State} (h : OnlyAt P s₀ s) (n : Fin 16) (l : Legs) (hp : FP.probeLive P n) :
    OnlyAt P s₀ (State.probeLive s n l) := by
  have p0 := hp
  unfold State.probeLive
  repeat' first
    | with_reducible assumption
    | extract_lets
    | with_reducible apply OnlyAt.ite
    | with_reducible apply State.probe_only
    | (with_reducible refine State.each_only ?_ _ _ (fun _ _ _ _ => ?_))

def FP.applySync (P : Place → Prop) : Prop :=
    P .phg ∧
    FP.setFlags P PH_GSTAT ∧
    P (.reg PH_GSTAT)

theorem State.applySync_only {P : Place → Prop} {s₀ s : State} (h : OnlyAt P s₀ s)  (hp : FP.applySync P) :
    OnlyAt P s₀ (State.applySync s) := by
  unfold FP.applySync at hp
  obtain ⟨p0, p1, p2⟩ := hp
  unfold State.applySync
  repeat' first
    | with_reducible assumption
    | extract_lets
    | with_reducible apply OnlyAt.ite
    | with_reducible apply State.setFlags_only
    | with_reducible apply State.setOn_only
    | split
    | (with_reducible refine OnlyAt.mk_fields ?_ ?_ ?_ ?_ ?_ ?_ ?_ ?_ ?_ ?_ ?_ ?_ ?_ ?_ ?_ ?_ ?_ ?_ ?_ ?_ ?_ ?_ ?_ ?_ ?_ ?_ ?_ ?_)
    | (with_reducible exact Or.inr (by assumption))
    | with_reducible exact Or.inl rfl

def FP.applyMap (P : Place → Prop) : Prop :=
    P (.reg PH_PMAP) ∧
    (∀ (y0 : Fin 16), P (.reg (PH_CFG ↑y0))) ∧
    (∀ (z0 : Fin 16), FP.setPh P z0) ∧
    (∀ (y0 : Fin 16), P (.ph y0)) ∧
    P .phg ∧
    FP.syncPorts P ∧
    P .jnl ∧
    FP.finish P

theorem State.applyMap_only {P : Place → Prop} {s₀ s : State} (h : OnlyAt P s₀ s) (d : Desc) (ends : Bool) (hp : FP.applyMap P) :
    OnlyAt P s₀ (State.applyMap s d ends) := by
  unfold FP.applyMap at hp
  obtain ⟨p0, p1, p2, p3, p4, p5, p6, p7⟩ := hp
  unfold State.applyMap
  repeat' first
    | with_reducible assumption
    | extract_lets
    | with_reducible apply OnlyAt.ite
    | with_reducible apply State.setFld_only
    | with_reducible apply State.setPh_only
    | with_reducible apply State.modPh_only
    | with_reducible apply State.syncPorts_only
    | with_reducible apply State.regDiff_only
    | with_reducible apply State.finish_only
    | (with_reducible refine State.each_only ?_ _ _ (fun _ _ _ _ => ?_))
    | with_reducible exact p1 _
    | with_reducible exact p2 _
    | with_reducible exact p3 _
    | split
    | (with_reducible refine OnlyAt.mk_fields ?_ ?_ ?_ ?_ ?_ ?_ ?_ ?_ ?_ ?_ ?_ ?_ ?_ ?_ ?_ ?_ ?_ ?_ ?_ ?_ ?_ ?_ ?_ ?_ ?_ ?_ ?_ ?_)
    | (with_reducible exact Or.inr (by assumption))
    | with_reducible exact Or.inl rfl

def FP.startPhaseMap (P : Place → Prop) : Prop :=
    FP.refuse P ∧
    FP.applyMap P ∧
    (∀ (y0 : Fin 16), P (.ph y0)) ∧
    FP.drainNext P ∧
    P .phg

theorem State.startPhaseMap_only {P : Place → Prop} {s₀ s : State} (h : OnlyAt P s₀ s) (d : Desc) (hp : FP.startPhaseMap P) :
    OnlyAt P s₀ (State.startPhaseMap s d) := by
  unfold FP.startPhaseMap at hp
  obtain ⟨p0, p1, p2, p3, p4⟩ := hp
  unfold State.startPhaseMap
  repeat' first
    | with_reducible assumption
    | extract_lets
    | with_reducible apply OnlyAt.ite
    | with_reducible apply State.refuse_only
    | with_reducible apply State.applyMap_only
    | with_reducible apply State.modPh_only
    | with_reducible apply State.drainNext_only
    | (with_reducible refine State.each_only ?_ _ _ (fun _ _ _ _ => ?_))
    | with_reducible exact p2 _
    | split
    | (with_reducible refine OnlyAt.mk_fields ?_ ?_ ?_ ?_ ?_ ?_ ?_ ?_ ?_ ?_ ?_ ?_ ?_ ?_ ?_ ?_ ?_ ?_ ?_ ?_ ?_ ?_ ?_ ?_ ?_ ?_ ?_ ?_)
    | (with_reducible exact Or.inr (by assumption))
    | with_reducible exact Or.inl rfl

def FP.endVtarget (P : Place → Prop) : Prop :=
    P .phg ∧
    FP.finish P

theorem State.endVtarget_only {P : Place → Prop} {s₀ s : State} (h : OnlyAt P s₀ s) (status : Nat) (hp : FP.endVtarget P) :
    OnlyAt P s₀ (State.endVtarget s status) := by
  unfold FP.endVtarget at hp
  obtain ⟨p0, p1⟩ := hp
  unfold State.endVtarget
  repeat' first
    | with_reducible assumption
    | extract_lets
    | with_reducible apply State.finish_only
    | split
    | (with_reducible refine OnlyAt.mk_fields ?_ ?_ ?_ ?_ ?_ ?_ ?_ ?_ ?_ ?_ ?_ ?_ ?_ ?_ ?_ ?_ ?_ ?_ ?_ ?_ ?_ ?_ ?_ ?_ ?_ ?_ ?_ ?_)
    | (with_reducible exact Or.inr (by assumption))
    | with_reducible exact Or.inl rfl

def FP.atTarget (P : Place → Prop) : Prop :=
    P (.reg PH_VREF) ∧
    P .phg ∧
    FP.endVtarget P

theorem State.atTarget_only {P : Place → Prop} {s₀ s : State} (h : OnlyAt P s₀ s)  (hp : FP.atTarget P) :
    OnlyAt P s₀ (State.atTarget s) := by
  unfold FP.atTarget at hp
  obtain ⟨p0, p1, p2⟩ := hp
  unfold State.atTarget
  repeat' first
    | with_reducible assumption
    | extract_lets
    | with_reducible apply OnlyAt.ite
    | with_reducible apply State.setOn_only
    | with_reducible apply State.endVtarget_only
    | split
    | (with_reducible refine OnlyAt.mk_fields ?_ ?_ ?_ ?_ ?_ ?_ ?_ ?_ ?_ ?_ ?_ ?_ ?_ ?_ ?_ ?_ ?_ ?_ ?_ ?_ ?_ ?_ ?_ ?_ ?_ ?_ ?_ ?_)
    | (with_reducible exact Or.inr (by assumption))
    | with_reducible exact Or.inl rfl

def FP.newTarget (P : Place → Prop) : Prop :=
    FP.endVtarget P ∧
    FP.retarget P

theorem State.newTarget_only {P : Place → Prop} {s₀ s : State} (h : OnlyAt P s₀ s)  (hp : FP.newTarget P) :
    OnlyAt P s₀ (State.newTarget s) := by
  unfold FP.newTarget at hp
  obtain ⟨p0, p1⟩ := hp
  unfold State.newTarget
  repeat' first
    | with_reducible assumption
    | extract_lets
    | with_reducible apply OnlyAt.ite
    | with_reducible apply State.endVtarget_only
    | with_reducible apply State.retarget_only

def FP.startVtarget (P : Place → Prop) : Prop :=
    FP.refuse P ∧
    P (.reg PH_VHOLD) ∧
    P .jnl ∧
    FP.newTarget P ∧
    FP.atTarget P ∧
    P .phg

theorem State.startVtarget_only {P : Place → Prop} {s₀ s : State} (h : OnlyAt P s₀ s) (d : Desc) (hp : FP.startVtarget P) :
    OnlyAt P s₀ (State.startVtarget s d) := by
  unfold FP.startVtarget at hp
  obtain ⟨p0, p1, p2, p3, p4, p5⟩ := hp
  unfold State.startVtarget
  repeat' first
    | with_reducible assumption
    | extract_lets
    | with_reducible apply OnlyAt.ite
    | with_reducible apply State.refuse_only
    | with_reducible apply State.setFld_only
    | with_reducible apply State.regDiff_only
    | with_reducible apply State.newTarget_only
    | with_reducible apply State.atTarget_only
    | split
    | (with_reducible refine OnlyAt.mk_fields ?_ ?_ ?_ ?_ ?_ ?_ ?_ ?_ ?_ ?_ ?_ ?_ ?_ ?_ ?_ ?_ ?_ ?_ ?_ ?_ ?_ ?_ ?_ ?_ ?_ ?_ ?_ ?_)
    | (with_reducible exact Or.inr (by assumption))
    | with_reducible exact Or.inl rfl

end Sys2Proof.Machine
end

