-- ==== Sys2Proof/Laws/OnlyComparator.lean ====
section
/-! SUPPORT. What each operation of Machine/Comparator.lean may change: `FP.x` says that its places lie in `P`. -/

namespace Sys2Proof.Machine

def FP.cmpSee (P : Place → Prop) (c : Fin 48) : Prop :=
    P (.cmp c) ∧
    P (.reg ((if false = true then CMP_STAT_HISTATE ↑c else CMP_STAT_LOSTATE ↑c).off)) ∧
    P (.reg ((if true = true then CMP_STAT_HISTATE ↑c else CMP_STAT_LOSTATE ↑c).off))

theorem State.cmpSee_only {P : Place → Prop} {s₀ s : State} (h : OnlyAt P s₀ s) (c : Fin 48) (x : Int) (hp : FP.cmpSee P c) :
    OnlyAt P s₀ (State.cmpSee s c x) := by
  unfold FP.cmpSee at hp
  obtain ⟨p0, p1, p2⟩ := hp
  unfold State.cmpSee
  repeat' first
    | with_reducible assumption
    | extract_lets
    | with_reducible apply OnlyAt.ite
    | with_reducible apply State.modCmp_only
    | with_reducible apply State.setFld_only

def FP.cmpRelease (P : Place → Prop) (c : Fin 48) : Prop :=
    FP.cmpSee P c ∧
    FP.cmpClear P ↑c

theorem State.cmpRelease_only {P : Place → Prop} {s₀ s : State} (h : OnlyAt P s₀ s) (c : Fin 48) (hp : FP.cmpRelease P c) :
    OnlyAt P s₀ (State.cmpRelease s c) := by
  unfold FP.cmpRelease at hp
  obtain ⟨p0, p1⟩ := hp
  unfold State.cmpRelease
  repeat' first
    | with_reducible assumption
    | extract_lets
    | with_reducible apply State.cmpSee_only
    | with_reducible apply State.cmpClear_only
    | split

def FP.trySwap (P : Place → Prop) (c : Fin 48) : Prop :=
    P (.cmp c) ∧
    P (.reg (CMP_STAT ↑c))

theorem State.trySwap_only {P : Place → Prop} {s₀ s : State} (h : OnlyAt P s₀ s) (c : Fin 48) (hp : FP.trySwap P c) :
    OnlyAt P s₀ (State.trySwap s c) := by
  unfold FP.trySwap at hp
  obtain ⟨p0, p1⟩ := hp
  unfold State.trySwap
  repeat' first
    | with_reducible assumption
    | extract_lets
    | with_reducible apply OnlyAt.ite
    | with_reducible apply State.modCmp_only
    | with_reducible apply State.setOn_only

end Sys2Proof.Machine
end

