-- ==== Sys2Proof/Laws/OnlyFeed.lean ====
section
/-! SUPPORT. What each operation of Machine/Feed.lean may change: `FP.x` says that its places lie in `P`. -/

namespace Sys2Proof.Machine

abbrev FP.setFeed (P : Place → Prop) (n : Fin 4) : Prop :=
    P (.reg (FEED_STAT ↑n))

theorem State.setFeed_only {P : Place → Prop} {s₀ s : State} (h : OnlyAt P s₀ s) (n : Fin 4) (st : FeedSt) (hp : FP.setFeed P n) :
    OnlyAt P s₀ (State.setFeed s n st) := by
  have p0 := hp
  unfold State.setFeed
  repeat' first
    | with_reducible assumption
    | extract_lets
    | with_reducible apply State.setFld_only

abbrev FP.setChk (P : Place → Prop) : Prop :=
    P (.reg SYS_FEEDCHK)

theorem State.setChk_only {P : Place → Prop} {s₀ s : State} (h : OnlyAt P s₀ s) (n : Fin 4) (r : ChkRes) (hp : FP.setChk P) :
    OnlyAt P s₀ (State.setChk s n r) := by
  have p0 := hp
  unfold State.setChk
  repeat' first
    | with_reducible assumption
    | extract_lets
    | with_reducible apply State.setFld_only

def FP.feedChanged (P : Place → Prop) : Prop :=
    FP.syncFeeds P ∧
    FP.handbackOver P ∧
    FP.feedsLost P

theorem State.feedChanged_only {P : Place → Prop} {s₀ s : State} (h : OnlyAt P s₀ s)  (hp : FP.feedChanged P) :
    OnlyAt P s₀ (State.feedChanged s) := by
  unfold FP.feedChanged at hp
  obtain ⟨p0, p1, p2⟩ := hp
  unfold State.feedChanged
  repeat' first
    | with_reducible assumption
    | extract_lets
    | with_reducible apply OnlyAt.ite
    | with_reducible apply State.syncFeeds_only
    | with_reducible apply State.handbackOver_only
    | with_reducible apply State.checkFeeds_only

def FP.settleGroup (P : Place → Prop) : Prop :=
    (∀ (z0 : Fin 4), FP.setFeed P z0) ∧
    (∀ (z0 : Fin 4), FP.gatesOff P z0)

theorem State.settleGroup_only {P : Place → Prop} {s₀ s : State} (h : OnlyAt P s₀ s)  (hp : FP.settleGroup P) :
    OnlyAt P s₀ (State.settleGroup s) := by
  unfold FP.settleGroup at hp
  obtain ⟨p0, p1⟩ := hp
  unfold State.settleGroup
  repeat' first
    | with_reducible assumption
    | extract_lets
    | with_reducible apply OnlyAt.ite
    | with_reducible apply State.setFeed_only
    | with_reducible apply State.gatesOff_only
    | (with_reducible refine State.each_only ?_ _ _ (fun _ _ _ _ => ?_))
    | with_reducible exact p0 _

def FP.qualify (P : Place → Prop) (n : Fin 4) : Prop :=
    P (.reg FEED_GSTAT) ∧
    FP.setFeed P n ∧
    P (.reg (FEED_EFF ↑n)) ∧
    FP.handbackStart P ∧
    FP.settleGroup P ∧
    FP.feedChanged P ∧
    P (.feed n)

theorem State.qualify_only {P : Place → Prop} {s₀ s : State} (h : OnlyAt P s₀ s) (n : Fin 4) (hp : FP.qualify P n) :
    OnlyAt P s₀ (State.qualify s n) := by
  unfold FP.qualify at hp
  obtain ⟨p0, p1, p2, p3, p4, p5, p6⟩ := hp
  unfold State.qualify
  repeat' first
    | with_reducible assumption
    | extract_lets
    | with_reducible apply OnlyAt.ite
    | with_reducible apply State.setQual_only
    | with_reducible apply State.setFeed_only
    | with_reducible apply State.setCode_only
    | with_reducible apply State.handbackStart_only
    | with_reducible apply State.settleGroup_only
    | with_reducible apply State.feedChanged_only
    | with_reducible apply State.modFeed_only

def FP.checkPassed (P : Place → Prop) (n : Fin 4) : Prop :=
    P (.reg SYS_FEEDCHK) ∧
    FP.qualify P n ∧
    FP.setFeed P n

theorem State.checkPassed_only {P : Place → Prop} {s₀ s : State} (h : OnlyAt P s₀ s) (n : Fin 4) (hp : FP.checkPassed P n) :
    OnlyAt P s₀ (State.checkPassed s n) := by
  unfold FP.checkPassed at hp
  obtain ⟨p0, p1, p2⟩ := hp
  unfold State.checkPassed
  repeat' first
    | with_reducible assumption
    | extract_lets
    | with_reducible apply OnlyAt.ite
    | with_reducible apply State.setChk_only
    | with_reducible apply State.qualify_only
    | with_reducible apply State.setFeed_only

def FP.checkFailed (P : Place → Prop) (n : Fin 4) : Prop :=
    P .flt ∧
    P (.feed n) ∧
    P (.reg SYS_FEEDCHK)

theorem State.checkFailed_only {P : Place → Prop} {s₀ s : State} (h : OnlyAt P s₀ s) (n : Fin 4) (r : ChkRes) (hp : FP.checkFailed P n) :
    OnlyAt P s₀ (State.checkFailed s n r) := by
  unfold FP.checkFailed at hp
  obtain ⟨p0, p1, p2⟩ := hp
  unfold State.checkFailed
  repeat' first
    | with_reducible assumption
    | extract_lets
    | with_reducible apply State.fault_only
    | with_reducible apply State.modFeed_only
    | with_reducible apply State.setChk_only

abbrev FP.noteGone (P : Place → Prop) (n : Fin 4) : Prop :=
    P (.feed n)

theorem State.noteGone_only {P : Place → Prop} {s₀ s : State} (h : OnlyAt P s₀ s) (n : Fin 4) (w : FeedGone) (hp : FP.noteGone P n) :
    OnlyAt P s₀ (State.noteGone s n w) := by
  have p0 := hp
  unfold State.noteGone
  repeat' first
    | with_reducible assumption
    | extract_lets
    | with_reducible apply State.modFeed_only

def FP.disqualify (P : Place → Prop) (n : Fin 4) : Prop :=
    P (.feed n) ∧
    FP.budgetDrop P ∧
    FP.feedChanged P ∧
    FP.setFeed P n ∧
    P (.reg FEED_GSTAT) ∧
    FP.gatesOff P n

theorem State.disqualify_only {P : Place → Prop} {s₀ s : State} (h : OnlyAt P s₀ s) (n : Fin 4) (hp : FP.disqualify P n) :
    OnlyAt P s₀ (State.disqualify s n) := by
  unfold FP.disqualify at hp
  obtain ⟨p0, p1, p2, p3, p4, p5⟩ := hp
  unfold State.disqualify
  repeat' first
    | with_reducible assumption
    | extract_lets
    | with_reducible apply OnlyAt.ite
    | with_reducible apply State.modFeed_only
    | with_reducible apply State.budgetDrop_only
    | with_reducible apply State.feedChanged_only
    | with_reducible apply State.setFeed_only
    | with_reducible apply State.setQual_only
    | with_reducible apply State.gatesOff_only

def FP.feedTrip (P : Place → Prop) (n : Fin 4) : Prop :=
    P (.reg (FEED_STAT ↑n)) ∧
    FP.gatesOff P n ∧
    P (.feed n) ∧
    FP.budgetDrop P ∧
    FP.feedChanged P ∧
    P .flt ∧
    P (.reg FEED_GSTAT) ∧
    FP.setFeed P n

theorem State.feedTrip_only {P : Place → Prop} {s₀ s : State} (h : OnlyAt P s₀ s) (n : Fin 4) (sc : Bool) (hp : FP.feedTrip P n) :
    OnlyAt P s₀ (State.feedTrip s n sc) := by
  unfold FP.feedTrip at hp
  obtain ⟨p0, p1, p2, p3, p4, p5, p6, p7⟩ := hp
  unfold State.feedTrip
  repeat' first
    | with_reducible assumption
    | extract_lets
    | with_reducible apply OnlyAt.ite
    | with_reducible apply State.count_only
    | with_reducible apply State.gatesOff_only
    | with_reducible apply State.modFeed_only
    | with_reducible apply State.budgetDrop_only
    | with_reducible apply State.feedChanged_only
    | with_reducible apply State.fault_only
    | with_reducible apply State.setQual_only
    | with_reducible apply State.setFeed_only

def FP.thermalTrip (P : Place → Prop) (n : Fin 4) : Prop :=
    P (.feed n) ∧
    FP.noteGone P n ∧
    FP.feedTrip P n ∧
    P (.reg (FEED_CNT ↑n))

theorem State.thermalTrip_only {P : Place → Prop} {s₀ s : State} (h : OnlyAt P s₀ s) (n : Fin 4) (hp : FP.thermalTrip P n) :
    OnlyAt P s₀ (State.thermalTrip s n) := by
  unfold FP.thermalTrip at hp
  obtain ⟨p0, p1, p2, p3⟩ := hp
  unfold State.thermalTrip
  repeat' first
    | with_reducible assumption
    | extract_lets
    | with_reducible apply State.modFeed_only
    | with_reducible apply State.noteGone_only
    | with_reducible apply State.feedTrip_only
    | with_reducible apply State.count_only

def FP.shortTrip (P : Place → Prop) (n : Fin 4) : Prop :=
    FP.feedTrip P n ∧
    P (.reg (FEED_CNT ↑n)) ∧
    FP.evt P (FEED_EVT ↑n) ∧
    FP.noteGone P n

theorem State.shortTrip_only {P : Place → Prop} {s₀ s : State} (h : OnlyAt P s₀ s) (n : Fin 4) (hp : FP.shortTrip P n) :
    OnlyAt P s₀ (State.shortTrip s n) := by
  unfold FP.shortTrip at hp
  obtain ⟨p0, p1, p2, p3⟩ := hp
  unfold State.shortTrip
  repeat' first
    | with_reducible assumption
    | extract_lets
    | with_reducible apply State.feedTrip_only
    | with_reducible apply State.count_only
    | with_reducible apply State.evt_only
    | with_reducible apply State.noteGone_only

def FP.uncountThermal (P : Place → Prop) (n : Fin 4) : Prop :=
    P (.feed n) ∧
    P (.reg (FEED_STAT ↑n)) ∧
    P (.reg (FEED_CNT ↑n)) ∧
    P (.reg FEED_GSTAT) ∧
    P .flt

theorem State.uncountThermal_only {P : Place → Prop} {s₀ s : State} (h : OnlyAt P s₀ s) (n : Fin 4) (hp : FP.uncountThermal P n) :
    OnlyAt P s₀ (State.uncountThermal s n) := by
  unfold FP.uncountThermal at hp
  obtain ⟨p0, p1, p2, p3, p4⟩ := hp
  unfold State.uncountThermal
  repeat' first
    | with_reducible assumption
    | extract_lets
    | with_reducible apply OnlyAt.ite
    | with_reducible apply State.modFeed_only
    | with_reducible apply State.setFld_only
    | with_reducible apply State.setQual_only
    | split
    | (with_reducible refine OnlyAt.mk_fields ?_ ?_ ?_ ?_ ?_ ?_ ?_ ?_ ?_ ?_ ?_ ?_ ?_ ?_ ?_ ?_ ?_ ?_ ?_ ?_ ?_ ?_ ?_ ?_ ?_ ?_ ?_ ?_)
    | (with_reducible exact Or.inr (by assumption))
    | with_reducible exact Or.inl rfl

def FP.coolCheck (P : Place → Prop) (n : Fin 4) : Prop :=
    P (.feed n) ∧
    FP.setFeed P n

theorem State.coolCheck_only {P : Place → Prop} {s₀ s : State} (h : OnlyAt P s₀ s) (n : Fin 4) (hp : FP.coolCheck P n) :
    OnlyAt P s₀ (State.coolCheck s n) := by
  unfold FP.coolCheck at hp
  obtain ⟨p0, p1⟩ := hp
  unfold State.coolCheck
  repeat' first
    | with_reducible assumption
    | extract_lets
    | with_reducible apply OnlyAt.ite
    | with_reducible apply State.modFeed_only
    | with_reducible apply State.setFeed_only

def FP.feedEnable (P : Place → Prop) (n : Fin 4) : Prop :=
    FP.setFeed P n ∧
    FP.budgetDrop P ∧
    FP.feedChanged P ∧
    P (.reg FEED_GSTAT) ∧
    FP.gatesOff P n

theorem State.feedEnable_only {P : Place → Prop} {s₀ s : State} (h : OnlyAt P s₀ s) (n : Fin 4) (hp : FP.feedEnable P n) :
    OnlyAt P s₀ (State.feedEnable s n) := by
  unfold FP.feedEnable at hp
  obtain ⟨p0, p1, p2, p3, p4⟩ := hp
  unfold State.feedEnable
  repeat' first
    | with_reducible assumption
    | extract_lets
    | with_reducible apply OnlyAt.ite
    | with_reducible apply State.setFeed_only
    | with_reducible apply State.budgetDrop_only
    | with_reducible apply State.feedChanged_only
    | with_reducible apply State.setQual_only
    | with_reducible apply State.gatesOff_only

def FP.feedsHwOnly (P : Place → Prop) : Prop :=
    FP.syncFeeds P ∧
    (∀ (z0 : Fin 4), FP.setFeed P z0)

theorem State.feedsHwOnly_only {P : Place → Prop} {s₀ s : State} (h : OnlyAt P s₀ s)  (hp : FP.feedsHwOnly P) :
    OnlyAt P s₀ (State.feedsHwOnly s) := by
  unfold FP.feedsHwOnly at hp
  obtain ⟨p0, p1⟩ := hp
  unfold State.feedsHwOnly
  repeat' first
    | with_reducible assumption
    | extract_lets
    | with_reducible apply State.syncFeeds_only
    | with_reducible apply State.setFeed_only
    | (with_reducible refine State.each_only ?_ _ _ (fun _ _ _ _ => ?_))
    | with_reducible exact p1 _

def FP.feedUv (P : Place → Prop) (n : Fin 4) : Prop :=
    FP.disqualify P n ∧
    P (.reg (FEED_CNT ↑n)) ∧
    FP.evt P (FEED_EVT ↑n) ∧
    FP.noteGone P n

theorem State.feedUv_only {P : Place → Prop} {s₀ s : State} (h : OnlyAt P s₀ s) (n : Fin 4) (hp : FP.feedUv P n) :
    OnlyAt P s₀ (State.feedUv s n) := by
  unfold FP.feedUv at hp
  obtain ⟨p0, p1, p2, p3⟩ := hp
  unfold State.feedUv
  repeat' first
    | with_reducible assumption
    | extract_lets
    | with_reducible apply OnlyAt.ite
    | with_reducible apply State.disqualify_only
    | with_reducible apply State.count_only
    | with_reducible apply State.evt_only
    | with_reducible apply State.noteGone_only

def FP.feedOv (P : Place → Prop) (n : Fin 4) : Prop :=
    FP.evt P (FEED_EVT ↑n) ∧
    FP.noteGone P n ∧
    P .flt ∧
    FP.disqualify P n

theorem State.feedOv_only {P : Place → Prop} {s₀ s : State} (h : OnlyAt P s₀ s) (n : Fin 4) (hp : FP.feedOv P n) :
    OnlyAt P s₀ (State.feedOv s n) := by
  unfold FP.feedOv at hp
  obtain ⟨p0, p1, p2, p3⟩ := hp
  unfold State.feedOv
  repeat' first
    | with_reducible assumption
    | extract_lets
    | with_reducible apply OnlyAt.ite
    | with_reducible apply State.evt_only
    | with_reducible apply State.noteGone_only
    | with_reducible apply State.fault_only
    | with_reducible apply State.disqualify_only

def FP.feedShort (P : Place → Prop) (n : Fin 4) : Prop :=
    FP.shortTrip P n ∧
    FP.uncountThermal P n

theorem State.feedShort_only {P : Place → Prop} {s₀ s : State} (h : OnlyAt P s₀ s) (n : Fin 4) (hp : FP.feedShort P n) :
    OnlyAt P s₀ (State.feedShort s n) := by
  unfold FP.feedShort at hp
  obtain ⟨p0, p1⟩ := hp
  unfold State.feedShort
  repeat' first
    | with_reducible assumption
    | extract_lets
    | with_reducible apply OnlyAt.ite
    | with_reducible apply State.shortTrip_only
    | with_reducible apply State.uncountThermal_only
    | split

def FP.feedReverse (P : Place → Prop) (n : Fin 4) : Prop :=
    P (.reg (FEED_CNT ↑n)) ∧
    FP.evt P (FEED_EVT ↑n) ∧
    P (.reg (FEED_STAT ↑n)) ∧
    FP.syncFeeds P ∧
    P (.feed n)

theorem State.feedReverse_only {P : Place → Prop} {s₀ s : State} (h : OnlyAt P s₀ s) (n : Fin 4) (hp : FP.feedReverse P n) :
    OnlyAt P s₀ (State.feedReverse s n) := by
  unfold FP.feedReverse at hp
  obtain ⟨p0, p1, p2, p3, p4⟩ := hp
  unfold State.feedReverse
  repeat' first
    | with_reducible assumption
    | extract_lets
    | with_reducible apply OnlyAt.ite
    | with_reducible apply State.count_only
    | with_reducible apply State.evt_only
    | with_reducible apply State.setOn_only
    | with_reducible apply State.syncFeeds_only
    | with_reducible apply State.modFeed_only

end Sys2Proof.Machine
end

