-- ==== Sys2Proof/Laws/OnlyKeys.lean ====
section
/-! SUPPORT. What each operation of Machine/Keys.lean may change: `FP.x` says that its places lie in `P`. -/

namespace Sys2Proof.Machine

def FP.setAuth (P : Place → Prop) (k : Fin 2) : Prop :=
    P (.pk k) ∧
    P .jnl ∧
    FP.gustLoss P k ∧
    FP.syncPack P k

theorem State.setAuth_only {P : Place → Prop} {s₀ s : State} (h : OnlyAt P s₀ s) (k : Fin 2) (r : AuthRes) (hp : FP.setAuth P k) :
    OnlyAt P s₀ (State.setAuth s k r) := by
  unfold FP.setAuth at hp
  obtain ⟨p0, p1, p2, p3⟩ := hp
  unfold State.setAuth
  repeat' first
    | with_reducible assumption
    | extract_lets
    | with_reducible apply OnlyAt.ite
    | with_reducible apply State.modPk_only
    | with_reducible apply State.jevent_only
    | with_reducible apply State.gustLoss_only
    | with_reducible apply State.syncPack_only

def FP.authDue (P : Place → Prop) (k : Fin 2) : Prop :=
    FP.syncPack P k ∧
    P (.pk k)

theorem State.authDue_only {P : Place → Prop} {s₀ s : State} (h : OnlyAt P s₀ s) (k : Fin 2) (hp : FP.authDue P k) :
    OnlyAt P s₀ (State.authDue s k) := by
  unfold FP.authDue at hp
  obtain ⟨p0, p1⟩ := hp
  unfold State.authDue
  repeat' first
    | with_reducible assumption
    | extract_lets
    | with_reducible apply OnlyAt.ite
    | with_reducible apply State.syncPack_only
    | with_reducible apply State.modPk_only

def FP.endJoined (P : Place → Prop) (k : Fin 2) : Prop :=
    P (.pk k) ∧
    FP.done P

theorem State.endJoined_only {P : Place → Prop} {s₀ s : State} (h : OnlyAt P s₀ s) (k : Fin 2) (r : AuthRes) (hp : FP.endJoined P k) :
    OnlyAt P s₀ (State.endJoined s k r) := by
  unfold FP.endJoined at hp
  obtain ⟨p0, p1⟩ := hp
  unfold State.endJoined
  repeat' first
    | with_reducible assumption
    | extract_lets
    | with_reducible apply OnlyAt.ite
    | with_reducible apply State.modPk_only
    | with_reducible apply State.done_only
    | (with_reducible refine State.each_only ?_ _ _ (fun _ _ _ _ => ?_))

def FP.abortJoined (P : Place → Prop) (k : Fin 2) : Prop :=
    P (.pk k) ∧
    FP.done P

theorem State.abortJoined_only {P : Place → Prop} {s₀ s : State} (h : OnlyAt P s₀ s) (k : Fin 2) (hp : FP.abortJoined P k) :
    OnlyAt P s₀ (State.abortJoined s k) := by
  unfold FP.abortJoined at hp
  obtain ⟨p0, p1⟩ := hp
  unfold State.abortJoined
  repeat' first
    | with_reducible assumption
    | extract_lets
    | with_reducible apply State.modPk_only
    | with_reducible apply State.done_only
    | (with_reducible refine State.each_only ?_ _ _ (fun _ _ _ _ => ?_))

def FP.loadB4 (P : Place → Prop) : Prop :=
    P (.reg MEM_STAT) ∧
    P .aon

theorem State.loadB4_only {P : Place → Prop} {s₀ s : State} (h : OnlyAt P s₀ s)  (hp : FP.loadB4 P) :
    OnlyAt P s₀ (State.loadB4 s) := by
  unfold FP.loadB4 at hp
  obtain ⟨p0, p1⟩ := hp
  unfold State.loadB4
  repeat' first
    | with_reducible assumption
    | extract_lets
    | with_reducible apply OnlyAt.ite
    | with_reducible apply State.setFld_only
    | with_reducible apply State.setOn_only
    | split
    | (with_reducible refine OnlyAt.mk_fields ?_ ?_ ?_ ?_ ?_ ?_ ?_ ?_ ?_ ?_ ?_ ?_ ?_ ?_ ?_ ?_ ?_ ?_ ?_ ?_ ?_ ?_ ?_ ?_ ?_ ?_ ?_ ?_)
    | (with_reducible exact Or.inr (by assumption))
    | with_reducible exact Or.inl rfl

def FP.reloadB4 (P : Place → Prop) : Prop :=
    FP.loadB4 P ∧
    (∀ (z0 : Fin 2), FP.authDue P z0)

theorem State.reloadB4_only {P : Place → Prop} {s₀ s : State} (h : OnlyAt P s₀ s)  (hp : FP.reloadB4 P) :
    OnlyAt P s₀ (State.reloadB4 s) := by
  unfold FP.reloadB4 at hp
  obtain ⟨p0, p1⟩ := hp
  unfold State.reloadB4
  repeat' first
    | with_reducible assumption
    | extract_lets
    | with_reducible apply OnlyAt.ite
    | with_reducible apply State.loadB4_only
    | with_reducible apply State.authDue_only
    | (with_reducible refine State.each_only ?_ _ _ (fun _ _ _ _ => ?_))
    | with_reducible exact p1 _

def FP.wipe (P : Place → Prop) : Prop :=
    P .aon ∧
    P (.reg MEM_WIPE) ∧
    P (.reg MEM_STAT) ∧
    (∀ (z0 : Fin 2), FP.setAuth P z0) ∧
    (∀ (y0 : Fin 2), P (.pk y0))

theorem State.wipe_only {P : Place → Prop} {s₀ s : State} (h : OnlyAt P s₀ s) (cause : Nat) (hp : FP.wipe P) :
    OnlyAt P s₀ (State.wipe s cause) := by
  unfold FP.wipe at hp
  obtain ⟨p0, p1, p2, p3, p4⟩ := hp
  unfold State.wipe
  repeat' first
    | with_reducible assumption
    | extract_lets
    | with_reducible apply OnlyAt.ite
    | with_reducible apply State.setFld_only
    | with_reducible apply State.setOn_only
    | with_reducible apply State.setAuth_only
    | with_reducible apply State.modPk_only
    | (with_reducible refine State.each_only ?_ _ _ (fun _ _ _ _ => ?_))
    | with_reducible exact p3 _
    | with_reducible exact p4 _
    | split
    | (with_reducible refine OnlyAt.mk_fields ?_ ?_ ?_ ?_ ?_ ?_ ?_ ?_ ?_ ?_ ?_ ?_ ?_ ?_ ?_ ?_ ?_ ?_ ?_ ?_ ?_ ?_ ?_ ?_ ?_ ?_ ?_ ?_)
    | (with_reducible exact Or.inr (by assumption))
    | with_reducible exact Or.inl rfl

abbrev FP.keyEntry (P : Place → Prop) : Prop :=
    P .jnl

theorem State.keyEntry_only {P : Place → Prop} {s₀ s : State} (h : OnlyAt P s₀ s) (d : Desc) (i : Fin 4) (old : Nat) (new : Nat) (hp : FP.keyEntry P) :
    OnlyAt P s₀ (State.keyEntry s d i old new) := by
  have p0 := hp
  unfold State.keyEntry
  repeat' first
    | with_reducible assumption
    | extract_lets
    | with_reducible apply State.journal_only

def FP.startPackAuth (P : Place → Prop) (d : Desc) : Prop :=
    FP.refuse P ∧
    FP.authDue P d.authPort ∧
    P (.pk d.authPort) ∧
    P .aon ∧
    P .jnl ∧
    P (.reg AUTH_CNT) ∧
    FP.done P ∧
    FP.loadB4 P ∧
    (∀ (z0 : Fin 2), FP.authDue P z0)

theorem State.startPackAuth_only {P : Place → Prop} {s₀ s : State} (h : OnlyAt P s₀ s) (d : Desc) (hp : FP.startPackAuth P d) :
    OnlyAt P s₀ (State.startPackAuth s d) := by
  unfold FP.startPackAuth at hp
  obtain ⟨p0, p1, p2, p3, p4, p5, p6, p7, p8⟩ := hp
  unfold State.startPackAuth
  repeat' first
    | with_reducible assumption
    | extract_lets
    | with_reducible apply OnlyAt.ite
    | with_reducible apply State.refuse_only
    | with_reducible apply State.authDue_only
    | with_reducible apply State.modPk_only
    | with_reducible apply State.keyEntry_only
    | with_reducible apply State.count_only
    | with_reducible apply State.done_only
    | with_reducible apply State.loadB4_only
    | (with_reducible refine State.each_only ?_ _ _ (fun _ _ _ _ => ?_))
    | with_reducible exact p8 _
    | split
    | (with_reducible refine OnlyAt.mk_fields ?_ ?_ ?_ ?_ ?_ ?_ ?_ ?_ ?_ ?_ ?_ ?_ ?_ ?_ ?_ ?_ ?_ ?_ ?_ ?_ ?_ ?_ ?_ ?_ ?_ ?_ ?_ ?_)
    | (with_reducible exact Or.inr (by assumption))
    | with_reducible exact Or.inl rfl

end Sys2Proof.Machine
end

