-- ==== Sys2Proof/Laws/OnlyPack.lean ====
section
/-! SUPPORT. What each operation of Machine/Pack.lean may change: `FP.x` says that its places lie in `P`. -/

namespace Sys2Proof.Machine

def FP.setSoc (P : Place → Prop) (k : Fin 2) : Prop :=
    P (.reg (PK_STAT ↑k)) ∧
    P (.pk k)

theorem State.setSoc_only {P : Place → Prop} {s₀ s : State} (h : OnlyAt P s₀ s) (k : Fin 2) (pct : Rat) (hp : FP.setSoc P k) :
    OnlyAt P s₀ (State.setSoc s k pct) := by
  unfold FP.setSoc at hp
  obtain ⟨p0, p1⟩ := hp
  unfold State.setSoc
  repeat' first
    | with_reducible assumption
    | extract_lets
    | with_reducible apply State.setCode_only
    | with_reducible apply State.modPk_only

abbrev FP.syncSoh (P : Place → Prop) (k : Fin 2) : Prop :=
    P (.reg (PK_FCC ↑k))

theorem State.syncSoh_only {P : Place → Prop} {s₀ s : State} (h : OnlyAt P s₀ s) (k : Fin 2) (hp : FP.syncSoh P k) :
    OnlyAt P s₀ (State.syncSoh s k) := by
  have p0 := hp
  unfold State.syncSoh
  repeat' first
    | with_reducible assumption
    | extract_lets
    | with_reducible apply OnlyAt.ite
    | with_reducible apply State.setCode_only

def FP.setFcc (P : Place → Prop) (k : Fin 2) : Prop :=
    FP.syncSoh P k ∧
    P (.reg (PK_FCC ↑k))

theorem State.setFcc_only {P : Place → Prop} {s₀ s : State} (h : OnlyAt P s₀ s) (k : Fin 2) (c : Rat) (hp : FP.setFcc P k) :
    OnlyAt P s₀ (State.setFcc s k c) := by
  unfold FP.setFcc at hp
  obtain ⟨p0, p1⟩ := hp
  unfold State.setFcc
  repeat' first
    | with_reducible assumption
    | extract_lets
    | with_reducible apply State.syncSoh_only
    | with_reducible apply State.setCode_only

def FP.capKnown (P : Place → Prop) (k : Fin 2) : Prop :=
    FP.setFcc P k ∧
    P (.pk k) ∧
    FP.syncSoh P k

theorem State.capKnown_only {P : Place → Prop} {s₀ s : State} (h : OnlyAt P s₀ s) (k : Fin 2) (hp : FP.capKnown P k) :
    OnlyAt P s₀ (State.capKnown s k) := by
  unfold FP.capKnown at hp
  obtain ⟨p0, p1, p2⟩ := hp
  unfold State.capKnown
  repeat' first
    | with_reducible assumption
    | extract_lets
    | with_reducible apply OnlyAt.ite
    | with_reducible apply State.setFcc_only
    | with_reducible apply State.modPk_only
    | with_reducible apply State.syncSoh_only

def FP.socRef (P : Place → Prop) (k : Fin 2) : Prop :=
    FP.setFcc P k ∧
    P (.pk k) ∧
    P (.reg (PK_STAT ↑k)) ∧
    FP.setSoc P k ∧
    FP.checkWorn P k ∧
    FP.syncPack P k

theorem State.socRef_only {P : Place → Prop} {s₀ s : State} (h : OnlyAt P s₀ s) (k : Fin 2) (full : Bool) (hp : FP.socRef P k) :
    OnlyAt P s₀ (State.socRef s k full) := by
  unfold FP.socRef at hp
  obtain ⟨p0, p1, p2, p3, p4, p5⟩ := hp
  unfold State.socRef
  repeat' first
    | with_reducible assumption
    | extract_lets
    | with_reducible apply OnlyAt.ite
    | with_reducible apply State.setFcc_only
    | with_reducible apply State.modPk_only
    | with_reducible apply State.setFld_only
    | with_reducible apply State.setSoc_only
    | with_reducible apply State.checkWorn_only
    | with_reducible apply State.syncPack_only

def FP.fullRef (P : Place → Prop) (k : Fin 2) : Prop :=
    FP.wbDue P k ∧
    FP.socRef P k

theorem State.fullRef_only {P : Place → Prop} {s₀ s : State} (h : OnlyAt P s₀ s) (k : Fin 2) (hp : FP.fullRef P k) :
    OnlyAt P s₀ (State.fullRef s k) := by
  unfold FP.fullRef at hp
  obtain ⟨p0, p1⟩ := hp
  unfold State.fullRef
  repeat' first
    | with_reducible assumption
    | extract_lets
    | with_reducible apply State.wbDue_only
    | with_reducible apply State.socRef_only

def FP.syncThroughput (P : Place → Prop) (k : Fin 2) : Prop :=
    P (.reg (PK_EFC ↑k)) ∧
    P (.reg (PK_QOUT ↑k)) ∧
    P (.reg (PK_TPK ↑k))

theorem State.syncThroughput_only {P : Place → Prop} {s₀ s : State} (h : OnlyAt P s₀ s) (k : Fin 2) (hp : FP.syncThroughput P k) :
    OnlyAt P s₀ (State.syncThroughput s k) := by
  unfold FP.syncThroughput at hp
  obtain ⟨p0, p1, p2⟩ := hp
  unfold State.syncThroughput
  repeat' first
    | with_reducible assumption
    | extract_lets
    | with_reducible apply OnlyAt.ite
    | with_reducible apply State.setCode_only
    | with_reducible apply State.setOn_only

def FP.syncQ (P : Place → Prop) (k : Fin 2) : Prop :=
    P (.reg (PK_Q_HI ↑k)) ∧
    P (.reg (PK_Q_LO ↑k))

theorem State.syncQ_only {P : Place → Prop} {s₀ s : State} (h : OnlyAt P s₀ s) (k : Fin 2) (hp : FP.syncQ P k) :
    OnlyAt P s₀ (State.syncQ s k) := by
  unfold FP.syncQ at hp
  obtain ⟨p0, p1⟩ := hp
  unfold State.syncQ
  repeat' first
    | with_reducible assumption
    | extract_lets
    | with_reducible apply State.setWord_only

def FP.inserted (P : Place → Prop) (k : Fin 2) : Prop :=
    FP.setPk P k ∧
    P (.reg (PK_STAT ↑k)) ∧
    P (.pk k) ∧
    P .aon ∧
    P (.tw (⟨↑k + 1, by omega⟩)) ∧
    FP.chgWake P k ∧
    FP.syncPack P k

theorem State.inserted_only {P : Place → Prop} {s₀ s : State} (h : OnlyAt P s₀ s) (k : Fin 2) (hp : FP.inserted P k) :
    OnlyAt P s₀ (State.inserted s k) := by
  unfold FP.inserted at hp
  obtain ⟨p0, p1, p2, p3, p4, p5, p6⟩ := hp
  unfold State.inserted
  repeat' first
    | with_reducible assumption
    | extract_lets
    | with_reducible apply State.setPk_only
    | with_reducible apply State.setOn_only
    | with_reducible apply State.modPk_only
    | with_reducible apply State.modTw_only
    | with_reducible apply State.chgWake_only
    | with_reducible apply State.syncPack_only
    | split
    | (with_reducible refine OnlyAt.mk_fields ?_ ?_ ?_ ?_ ?_ ?_ ?_ ?_ ?_ ?_ ?_ ?_ ?_ ?_ ?_ ?_ ?_ ?_ ?_ ?_ ?_ ?_ ?_ ?_ ?_ ?_ ?_ ?_)
    | (with_reducible exact Or.inr (by assumption))
    | with_reducible exact Or.inl rfl

def FP.packLeft (P : Place → Prop) (k : Fin 2) : Prop :=
    FP.evt P (PK_EVT ↑k) ∧
    FP.syncQ P k ∧
    P (.pk k) ∧
    P .aon

theorem State.packLeft_only {P : Place → Prop} {s₀ s : State} (h : OnlyAt P s₀ s) (k : Fin 2) (hp : FP.packLeft P k) :
    OnlyAt P s₀ (State.packLeft s k) := by
  unfold FP.packLeft at hp
  obtain ⟨p0, p1, p2, p3⟩ := hp
  unfold State.packLeft
  repeat' first
    | with_reducible assumption
    | extract_lets
    | with_reducible apply State.evt_only
    | with_reducible apply State.syncQ_only
    | with_reducible apply State.modPk_only
    | split
    | (with_reducible refine OnlyAt.mk_fields ?_ ?_ ?_ ?_ ?_ ?_ ?_ ?_ ?_ ?_ ?_ ?_ ?_ ?_ ?_ ?_ ?_ ?_ ?_ ?_ ?_ ?_ ?_ ?_ ?_ ?_ ?_ ?_)
    | (with_reducible exact Or.inr (by assumption))
    | with_reducible exact Or.inl rfl

def FP.lifeTaken (P : Place → Prop) (k : Fin 2) : Prop :=
    P (.pk k) ∧
    P (.reg (PK_AGE ↑k)) ∧
    P (.reg (PK_STAT ↑k)) ∧
    P (.reg (PK_TPK ↑k)) ∧
    FP.setFcc P k ∧
    FP.setSoc P k ∧
    P .aon

theorem State.lifeTaken_only {P : Place → Prop} {s₀ s : State} (h : OnlyAt P s₀ s) (k : Fin 2) (i : Ident) (hp : FP.lifeTaken P k) :
    OnlyAt P s₀ (State.lifeTaken s k i) := by
  unfold FP.lifeTaken at hp
  obtain ⟨p0, p1, p2, p3, p4, p5, p6⟩ := hp
  unfold State.lifeTaken
  repeat' first
    | with_reducible assumption
    | extract_lets
    | with_reducible apply OnlyAt.ite
    | with_reducible apply State.modPk_only
    | with_reducible apply State.setFld_only
    | with_reducible apply State.setSfld_only
    | with_reducible apply State.setFcc_only
    | with_reducible apply State.setSoc_only
    | split
    | (with_reducible refine OnlyAt.mk_fields ?_ ?_ ?_ ?_ ?_ ?_ ?_ ?_ ?_ ?_ ?_ ?_ ?_ ?_ ?_ ?_ ?_ ?_ ?_ ?_ ?_ ?_ ?_ ?_ ?_ ?_ ?_ ?_)
    | (with_reducible exact Or.inr (by assumption))
    | with_reducible exact Or.inl rfl

def FP.identRead (P : Place → Prop) (k : Fin 2) : Prop :=
    (∀ (y0 : Fin 4), P (.reg (PK_ID ↑k ↑y0))) ∧
    P (.reg (PK_CTR ↑k)) ∧
    FP.lifeTaken P k ∧
    FP.evt P (PK_EVT ↑k) ∧
    P (.pk k) ∧
    FP.syncElig P k ∧
    FP.authDue P k ∧
    FP.checkWorn P k ∧
    FP.syncThroughput P k

theorem State.identRead_only {P : Place → Prop} {s₀ s : State} (h : OnlyAt P s₀ s) (k : Fin 2) (i : Ident) (hp : FP.identRead P k) :
    OnlyAt P s₀ (State.identRead s k i) := by
  unfold FP.identRead at hp
  obtain ⟨p0, p1, p2, p3, p4, p5, p6, p7, p8⟩ := hp
  unfold State.identRead
  repeat' first
    | with_reducible assumption
    | extract_lets
    | with_reducible apply OnlyAt.ite
    | with_reducible apply State.setWord_only
    | with_reducible apply State.setFld_only
    | with_reducible apply State.lifeTaken_only
    | with_reducible apply State.evt_only
    | with_reducible apply State.modPk_only
    | with_reducible apply State.syncElig_only
    | with_reducible apply State.authDue_only
    | with_reducible apply State.checkWorn_only
    | with_reducible apply State.syncThroughput_only
    | (with_reducible refine State.each_only ?_ _ _ (fun _ _ _ _ => ?_))
    | with_reducible exact p0 _

def FP.identDone (P : Place → Prop) (k : Fin 2) : Prop :=
    FP.setPk P k ∧
    P (.pk k) ∧
    P .flt ∧
    FP.setFcc P k ∧
    P (.reg (PK_STAT ↑k)) ∧
    FP.setSoc P k ∧
    FP.syncPack P k ∧
    FP.authDue P k ∧
    FP.syncElig P k ∧
    FP.identRead P k

theorem State.identDone_only {P : Place → Prop} {s₀ s : State} (h : OnlyAt P s₀ s) (k : Fin 2) (r : Option Ident) (hp : FP.identDone P k) :
    OnlyAt P s₀ (State.identDone s k r) := by
  unfold FP.identDone at hp
  obtain ⟨p0, p1, p2, p3, p4, p5, p6, p7, p8, p9⟩ := hp
  unfold State.identDone
  repeat' first
    | with_reducible assumption
    | extract_lets
    | with_reducible apply OnlyAt.ite
    | with_reducible apply State.setPk_only
    | with_reducible apply State.modPk_only
    | with_reducible apply State.fault_only
    | with_reducible apply State.setFcc_only
    | with_reducible apply State.setFld_only
    | with_reducible apply State.setSoc_only
    | with_reducible apply State.syncPack_only
    | with_reducible apply State.authDue_only
    | with_reducible apply State.syncElig_only
    | with_reducible apply State.identRead_only
    | split
    | dsimp +zetaDelta only

def FP.startClose (P : Place → Prop) (k : Fin 2) : Prop :=
    P (.pk k) ∧
    FP.setGates P k ∧
    FP.setPk P k

theorem State.startClose_only {P : Place → Prop} {s₀ s : State} (h : OnlyAt P s₀ s) (k : Fin 2) (hp : FP.startClose P k) :
    OnlyAt P s₀ (State.startClose s k) := by
  unfold FP.startClose at hp
  obtain ⟨p0, p1, p2⟩ := hp
  unfold State.startClose
  repeat' first
    | with_reducible assumption
    | extract_lets
    | with_reducible apply State.modPk_only
    | with_reducible apply State.setGates_only
    | with_reducible apply State.setPk_only

def FP.tryClose (P : Place → Prop) (k : Fin 2) : Prop :=
    FP.evt P (PK_EVT ↑k) ∧
    FP.startClose P k

theorem State.tryClose_only {P : Place → Prop} {s₀ s : State} (h : OnlyAt P s₀ s) (k : Fin 2) (hp : FP.tryClose P k) :
    OnlyAt P s₀ (State.tryClose s k) := by
  unfold FP.tryClose at hp
  obtain ⟨p0, p1⟩ := hp
  unfold State.tryClose
  repeat' first
    | with_reducible assumption
    | extract_lets
    | with_reducible apply OnlyAt.ite
    | with_reducible apply State.evt_only
    | with_reducible apply State.startClose_only

def FP.closeFail (P : Place → Prop) (k : Fin 2) : Prop :=
    P (.pk k) ∧
    FP.openPort P k ∧
    P .flt ∧
    FP.evt P (PK_EVT ↑k)

theorem State.closeFail_only {P : Place → Prop} {s₀ s : State} (h : OnlyAt P s₀ s) (k : Fin 2) (hp : FP.closeFail P k) :
    OnlyAt P s₀ (State.closeFail s k) := by
  unfold FP.closeFail at hp
  obtain ⟨p0, p1, p2, p3⟩ := hp
  unfold State.closeFail
  repeat' first
    | with_reducible assumption
    | extract_lets
    | with_reducible apply State.modPk_only
    | with_reducible apply State.openPort_only
    | with_reducible apply State.fault_only
    | with_reducible apply State.evt_only

def FP.dsgReclose (P : Place → Prop) (k : Fin 2) : Prop :=
    FP.syncElig P k ∧
    FP.setGates P k ∧
    P (.pk k)

theorem State.dsgReclose_only {P : Place → Prop} {s₀ s : State} (h : OnlyAt P s₀ s) (k : Fin 2) (hp : FP.dsgReclose P k) :
    OnlyAt P s₀ (State.dsgReclose s k) := by
  unfold FP.dsgReclose at hp
  obtain ⟨p0, p1, p2⟩ := hp
  unfold State.dsgReclose
  repeat' first
    | with_reducible assumption
    | extract_lets
    | with_reducible apply OnlyAt.ite
    | with_reducible apply State.syncElig_only
    | with_reducible apply State.setGates_only
    | with_reducible apply State.modPk_only

def FP.checkClosed (P : Place → Prop) (k : Fin 2) : Prop :=
    FP.syncElig P k ∧
    FP.openPort P k ∧
    FP.setCmd P k ∧
    FP.leaveGust P k ∧
    FP.leaveHoldup P k

theorem State.checkClosed_only {P : Place → Prop} {s₀ s : State} (h : OnlyAt P s₀ s) (k : Fin 2) (hp : FP.checkClosed P k) :
    OnlyAt P s₀ (State.checkClosed s k) := by
  unfold FP.checkClosed at hp
  obtain ⟨p0, p1, p2, p3, p4⟩ := hp
  unfold State.checkClosed
  repeat' first
    | with_reducible assumption
    | extract_lets
    | with_reducible apply OnlyAt.ite
    | with_reducible apply State.syncElig_only
    | with_reducible apply State.openPort_only
    | with_reducible apply State.setCmd_only
    | with_reducible apply State.leaveGust_only
    | with_reducible apply State.leaveHoldup_only

def FP.packSample (P : Place → Prop) (k : Fin 2) : Prop :=
    FP.checkClosed P k ∧
    P (.pk k)

theorem State.packSample_only {P : Place → Prop} {s₀ s : State} (h : OnlyAt P s₀ s) (k : Fin 2) (v : Rat) (hp : FP.packSample P k) :
    OnlyAt P s₀ (State.packSample s k v) := by
  unfold FP.packSample at hp
  obtain ⟨p0, p1⟩ := hp
  unfold State.packSample
  repeat' first
    | with_reducible assumption
    | extract_lets
    | with_reducible apply OnlyAt.ite
    | with_reducible apply State.checkClosed_only
    | with_reducible apply State.modPk_only

def FP.tripPort (P : Place → Prop) (k : Fin 2) : Prop :=
    FP.closeFail P k ∧
    P (.pk k) ∧
    FP.setGates P k ∧
    FP.setPk P k ∧
    FP.syncElig P k ∧
    FP.gustLoss P k

theorem State.tripPort_only {P : Place → Prop} {s₀ s : State} (h : OnlyAt P s₀ s) (k : Fin 2) (t : PkTrip) (chg : Bool) (dsg : Bool) (hp : FP.tripPort P k) :
    OnlyAt P s₀ (State.tripPort s k t chg dsg) := by
  unfold FP.tripPort at hp
  obtain ⟨p0, p1, p2, p3, p4, p5⟩ := hp
  unfold State.tripPort
  repeat' first
    | with_reducible assumption
    | extract_lets
    | with_reducible apply OnlyAt.ite
    | with_reducible apply State.closeFail_only
    | with_reducible apply State.modPk_only
    | with_reducible apply State.setGates_only
    | with_reducible apply State.setPk_only
    | with_reducible apply State.syncElig_only
    | with_reducible apply State.gustLoss_only

def FP.packFlag (P : Place → Prop) (f : Nat) : Prop :=
    P .flt ∧
    FP.evt P f

theorem State.packFlag_only {P : Place → Prop} {s₀ s : State} (h : OnlyAt P s₀ s) (k : Fin 2) (told : Bool) (f : Fld) (src : Fin 64) (hp : FP.packFlag P f.off) :
    OnlyAt P s₀ (State.packFlag s k told f src) := by
  unfold FP.packFlag at hp
  obtain ⟨p0, p1⟩ := hp
  unfold State.packFlag
  repeat' first
    | with_reducible assumption
    | extract_lets
    | with_reducible apply OnlyAt.ite
    | with_reducible apply State.fault_only
    | with_reducible apply State.evt_only

def FP.packShort (P : Place → Prop) (k : Fin 2) : Prop :=
    FP.packFlag P (PK_EVT ↑k) ∧
    FP.leaveHoldup P k ∧
    P (.pk k) ∧
    FP.tripPort P k ∧
    FP.syncPack P k ∧
    P .flt ∧
    FP.setPk P k

theorem State.packShort_only {P : Place → Prop} {s₀ s : State} (h : OnlyAt P s₀ s) (k : Fin 2) (told : Bool) (hp : FP.packShort P k) :
    OnlyAt P s₀ (State.packShort s k told) := by
  unfold FP.packShort at hp
  obtain ⟨p0, p1, p2, p3, p4, p5, p6⟩ := hp
  unfold State.packShort
  repeat' first
    | with_reducible assumption
    | extract_lets
    | with_reducible apply OnlyAt.ite
    | with_reducible apply State.packFlag_only
    | with_reducible apply State.leaveHoldup_only
    | with_reducible apply State.modPk_only
    | with_reducible apply State.tripPort_only
    | with_reducible apply State.syncPack_only
    | with_reducible apply State.fault_only
    | with_reducible apply State.setPk_only

def FP.packOcc (P : Place → Prop) (k : Fin 2) : Prop :=
    FP.tripPort P k ∧
    FP.packFlag P (PK_EVT ↑k)

theorem State.packOcc_only {P : Place → Prop} {s₀ s : State} (h : OnlyAt P s₀ s) (k : Fin 2) (told : Bool) (hp : FP.packOcc P k) :
    OnlyAt P s₀ (State.packOcc s k told) := by
  unfold FP.packOcc at hp
  obtain ⟨p0, p1⟩ := hp
  unfold State.packOcc
  repeat' first
    | with_reducible assumption
    | extract_lets
    | with_reducible apply OnlyAt.ite
    | with_reducible apply State.tripPort_only
    | with_reducible apply State.packFlag_only

def FP.packOv (P : Place → Prop) (k : Fin 2) : Prop :=
    FP.packFlag P (PK_EVT ↑k) ∧
    FP.closeFail P k ∧
    FP.syncElig P k ∧
    FP.gustLoss P k ∧
    FP.setGates P k ∧
    P (.pk k)

theorem State.packOv_only {P : Place → Prop} {s₀ s : State} (h : OnlyAt P s₀ s) (k : Fin 2) (told : Bool) (hp : FP.packOv P k) :
    OnlyAt P s₀ (State.packOv s k told) := by
  unfold FP.packOv at hp
  obtain ⟨p0, p1, p2, p3, p4, p5⟩ := hp
  unfold State.packOv
  repeat' first
    | with_reducible assumption
    | extract_lets
    | with_reducible apply OnlyAt.ite
    | with_reducible apply State.packFlag_only
    | with_reducible apply State.closeFail_only
    | with_reducible apply State.syncElig_only
    | with_reducible apply State.gustLoss_only
    | with_reducible apply State.setGates_only
    | with_reducible apply State.modPk_only

def FP.packUv (P : Place → Prop) (k : Fin 2) : Prop :=
    FP.packFlag P (PK_EVT ↑k) ∧
    FP.closeFail P k ∧
    FP.setGates P k ∧
    P (.pk k) ∧
    FP.syncElig P k ∧
    FP.gustLoss P k ∧
    FP.leaveHoldup P k

theorem State.packUv_only {P : Place → Prop} {s₀ s : State} (h : OnlyAt P s₀ s) (k : Fin 2) (told : Bool) (hp : FP.packUv P k) :
    OnlyAt P s₀ (State.packUv s k told) := by
  unfold FP.packUv at hp
  obtain ⟨p0, p1, p2, p3, p4, p5, p6⟩ := hp
  unfold State.packUv
  repeat' first
    | with_reducible assumption
    | extract_lets
    | with_reducible apply OnlyAt.ite
    | with_reducible apply State.packFlag_only
    | with_reducible apply State.closeFail_only
    | with_reducible apply State.setGates_only
    | with_reducible apply State.modPk_only
    | with_reducible apply State.syncElig_only
    | with_reducible apply State.gustLoss_only
    | with_reducible apply State.leaveHoldup_only

def FP.clearLatch (P : Place → Prop) (k : Fin 2) : Prop :=
    FP.syncPack P k ∧
    FP.setPk P k ∧
    P (.pk k)

theorem State.clearLatch_only {P : Place → Prop} {s₀ s : State} (h : OnlyAt P s₀ s) (k : Fin 2) (hp : FP.clearLatch P k) :
    OnlyAt P s₀ (State.clearLatch s k) := by
  unfold FP.clearLatch at hp
  obtain ⟨p0, p1, p2⟩ := hp
  unfold State.clearLatch
  repeat' first
    | with_reducible assumption
    | extract_lets
    | with_reducible apply OnlyAt.ite
    | with_reducible apply State.syncPack_only
    | with_reducible apply State.setPk_only
    | with_reducible apply State.modPk_only

def FP.countCharge (P : Place → Prop) (k : Fin 2) : Prop :=
    P (.pk k) ∧
    FP.syncThroughput P k ∧
    FP.syncQ P k ∧
    FP.setSoc P k ∧
    P (.reg (PK_I ↑k))

theorem State.countCharge_only {P : Place → Prop} {s₀ s : State} (h : OnlyAt P s₀ s) (k : Fin 2) (a : Rat) (hp : FP.countCharge P k) :
    OnlyAt P s₀ (State.countCharge s k a) := by
  unfold FP.countCharge at hp
  obtain ⟨p0, p1, p2, p3, p4⟩ := hp
  unfold State.countCharge
  repeat' first
    | with_reducible assumption
    | extract_lets
    | with_reducible apply OnlyAt.ite
    | with_reducible apply State.modPk_only
    | with_reducible apply State.syncThroughput_only
    | with_reducible apply State.syncQ_only
    | with_reducible apply State.setSoc_only
    | with_reducible apply State.setScode_only

def FP.ageTick (P : Place → Prop) (k : Fin 2) : Prop :=
    P .aon ∧
    P (.pk k) ∧
    P (.reg (PK_AGE ↑k)) ∧
    P (.reg (PK_TPK ↑k)) ∧
    FP.checkWorn P k

theorem State.ageTick_only {P : Place → Prop} {s₀ s : State} (h : OnlyAt P s₀ s) (k : Fin 2) (hp : FP.ageTick P k) :
    OnlyAt P s₀ (State.ageTick s k) := by
  unfold FP.ageTick at hp
  obtain ⟨p0, p1, p2, p3, p4⟩ := hp
  unfold State.ageTick
  repeat' first
    | with_reducible assumption
    | extract_lets
    | with_reducible apply OnlyAt.ite
    | with_reducible apply State.modPk_only
    | with_reducible apply State.count_only
    | with_reducible apply State.setOn_only
    | with_reducible apply State.checkWorn_only
    | split
    | (with_reducible refine OnlyAt.mk_fields ?_ ?_ ?_ ?_ ?_ ?_ ?_ ?_ ?_ ?_ ?_ ?_ ?_ ?_ ?_ ?_ ?_ ?_ ?_ ?_ ?_ ?_ ?_ ?_ ?_ ?_ ?_ ?_)
    | (with_reducible exact Or.inr (by assumption))
    | with_reducible exact Or.inl rfl

abbrev FP.pressTick (P : Place → Prop) : Prop :=
    P .aon

theorem State.pressTick_only {P : Place → Prop} {s₀ s : State} (h : OnlyAt P s₀ s) (k : Fin 2) (high : Bool) (hp : FP.pressTick P) :
    OnlyAt P s₀ (State.pressTick s k high) := by
  have p0 := hp
  unfold State.pressTick
  repeat' first
    | with_reducible assumption
    | extract_lets
    | with_reducible apply OnlyAt.ite
    | split
    | (with_reducible refine OnlyAt.mk_fields ?_ ?_ ?_ ?_ ?_ ?_ ?_ ?_ ?_ ?_ ?_ ?_ ?_ ?_ ?_ ?_ ?_ ?_ ?_ ?_ ?_ ?_ ?_ ?_ ?_ ?_ ?_ ?_)
    | (with_reducible exact Or.inr (by assumption))
    | with_reducible exact Or.inl rfl

end Sys2Proof.Machine
end

