-- ==== Sys2Proof/Laws/OnlyCharge.lean ====
section
/-! SUPPORT. What each operation of Machine/Charge.lean may change: `FP.x` says that its places lie in `P`. -/

namespace Sys2Proof.Machine

def FP.enterGust (P : Place → Prop) (k : Fin 2) : Prop :=
    P (.chg k) ∧
    FP.setRole P k ∧
    FP.abortSounding P k

theorem State.enterGust_only {P : Place → Prop} {s₀ s : State} (h : OnlyAt P s₀ s) (k : Fin 2) (hp : FP.enterGust P k) :
    OnlyAt P s₀ (State.enterGust s k) := by
  unfold FP.enterGust at hp
  obtain ⟨p0, p1, p2⟩ := hp
  unfold State.enterGust
  repeat' first
    | with_reducible assumption
    | extract_lets
    | with_reducible apply OnlyAt.ite
    | with_reducible apply State.modChg_only
    | with_reducible apply State.setRole_only
    | with_reducible apply State.abortSounding_only

def FP.shareGust (P : Place → Prop) : Prop :=
    (∀ (y0 : Fin 2), P (.chg y0)) ∧
    (∀ (z0 : Fin 2), FP.enterGust P z0) ∧
    FP.endTest P

theorem State.shareGust_only {P : Place → Prop} {s₀ s : State} (h : OnlyAt P s₀ s) (pg : Rat) (hp : FP.shareGust P) :
    OnlyAt P s₀ (State.shareGust s pg) := by
  unfold FP.shareGust at hp
  obtain ⟨p0, p1, p2⟩ := hp
  unfold State.shareGust
  repeat' first
    | with_reducible assumption
    | extract_lets
    | with_reducible apply OnlyAt.ite
    | with_reducible apply State.modChg_only
    | with_reducible apply State.enterGust_only
    | with_reducible apply State.endTest_only
    | (with_reducible refine State.each_only ?_ _ _ (fun _ _ _ _ => ?_))
    | with_reducible exact p0 _
    | with_reducible exact p1 _

def FP.chgTick (P : Place → Prop) (k : Fin 2) : Prop :=
    P (.reg (CHG_TIME ↑k)) ∧
    P (.reg (CHG_ZINFO ↑k)) ∧
    P (.chg k)

theorem State.chgTick_only {P : Place → Prop} {s₀ s : State} (h : OnlyAt P s₀ s) (k : Fin 2) (hp : FP.chgTick P k) :
    OnlyAt P s₀ (State.chgTick s k) := by
  unfold FP.chgTick at hp
  obtain ⟨p0, p1, p2⟩ := hp
  unfold State.chgTick
  repeat' first
    | with_reducible assumption
    | extract_lets
    | with_reducible apply OnlyAt.ite
    | with_reducible apply State.count_only
    | with_reducible apply State.modChg_only

def FP.setPause (P : Place → Prop) (k : Fin 2) : Prop :=
    FP.setItgt P k ∧
    P (.reg (CHG_CNT ↑k)) ∧
    P (.reg (CHG_STAT ↑k)) ∧
    FP.abortSounding P k ∧
    P (.reg (CHG_TIME ↑k))

theorem State.setPause_only {P : Place → Prop} {s₀ s : State} (h : OnlyAt P s₀ s) (k : Fin 2) (hp : FP.setPause P k) :
    OnlyAt P s₀ (State.setPause s k) := by
  unfold FP.setPause at hp
  obtain ⟨p0, p1, p2, p3, p4⟩ := hp
  unfold State.setPause
  repeat' first
    | with_reducible assumption
    | extract_lets
    | with_reducible apply OnlyAt.ite
    | with_reducible apply State.setItgt_only
    | with_reducible apply State.count_only
    | with_reducible apply State.setOn_only
    | with_reducible apply State.abortSounding_only
    | with_reducible apply State.setFld_only

def FP.claimCharge (P : Place → Prop) (k : Fin 2) : Prop :=
    P (.reg (CHG_PWR ↑k)) ∧
    P (.chg k)

theorem State.claimCharge_only {P : Place → Prop} {s₀ s : State} (h : OnlyAt P s₀ s) (k : Fin 2) (hp : FP.claimCharge P k) :
    OnlyAt P s₀ (State.claimCharge s k) := by
  unfold FP.claimCharge at hp
  obtain ⟨p0, p1⟩ := hp
  unfold State.claimCharge
  repeat' first
    | with_reducible assumption
    | extract_lets
    | with_reducible apply State.setCode_only
    | with_reducible apply State.modChg_only
    | split

def FP.shareAllowed (P : Place → Prop) : Prop :=
    ∀ (y0 : Fin 2), P (.chg y0)

theorem State.shareAllowed_only {P : Place → Prop} {s₀ s : State} (h : OnlyAt P s₀ s)  (hp : FP.shareAllowed P) :
    OnlyAt P s₀ (State.shareAllowed s) := by
  unfold FP.shareAllowed at hp
  have p0 := hp
  unfold State.shareAllowed
  repeat' first
    | with_reducible assumption
    | extract_lets
    | with_reducible apply State.modChg_only
    | (with_reducible refine State.each_only ?_ _ _ (fun _ _ _ _ => ?_))
    | with_reducible exact p0 _

def FP.chargeCmd (P : Place → Prop) (k : Fin 2) : Prop :=
    FP.setPause P k ∧
    FP.setItgt P k ∧
    P (.reg (CHG_STAT ↑k)) ∧
    P (.chg k) ∧
    FP.setCmd P k

theorem State.chargeCmd_only {P : Place → Prop} {s₀ s : State} (h : OnlyAt P s₀ s) (k : Fin 2) (p : Profile) (hp : FP.chargeCmd P k) :
    OnlyAt P s₀ (State.chargeCmd s k p) := by
  unfold FP.chargeCmd at hp
  obtain ⟨p0, p1, p2, p3, p4⟩ := hp
  unfold State.chargeCmd
  repeat' first
    | with_reducible assumption
    | extract_lets
    | with_reducible apply OnlyAt.ite
    | with_reducible apply State.setPause_only
    | with_reducible apply State.setItgt_only
    | with_reducible apply State.setFld_only
    | with_reducible apply State.modChg_only
    | with_reducible apply State.setCmd_only

def FP.gustCmd (P : Place → Prop) (k : Fin 2) : Prop :=
    P (.chg k) ∧
    FP.setPout P k ∧
    FP.setCmd P k

theorem State.gustCmd_only {P : Place → Prop} {s₀ s : State} (h : OnlyAt P s₀ s) (k : Fin 2) (hp : FP.gustCmd P k) :
    OnlyAt P s₀ (State.gustCmd s k) := by
  unfold FP.gustCmd at hp
  obtain ⟨p0, p1, p2⟩ := hp
  unfold State.gustCmd
  repeat' first
    | with_reducible assumption
    | extract_lets
    | with_reducible apply OnlyAt.ite
    | with_reducible apply State.modChg_only
    | with_reducible apply State.setPout_only
    | with_reducible apply State.setCmd_only

abbrev FP.syncCrest (P : Place → Prop) (k : Fin 2) : Prop :=
    P (.reg (CHG_ZINFO ↑k))

theorem State.syncCrest_only {P : Place → Prop} {s₀ s : State} (h : OnlyAt P s₀ s) (k : Fin 2) (hp : FP.syncCrest P k) :
    OnlyAt P s₀ (State.syncCrest s k) := by
  have p0 := hp
  unfold State.syncCrest
  repeat' first
    | with_reducible assumption
    | extract_lets
    | with_reducible apply State.setOn_only

def FP.chgStep (P : Place → Prop) (k : Fin 2) : Prop :=
    FP.syncCrest P k ∧
    FP.chgTick P k ∧
    FP.setRole P k ∧
    FP.enterStage P k

theorem State.chgStep_only {P : Place → Prop} {s₀ s : State} (h : OnlyAt P s₀ s) (k : Fin 2) (hp : FP.chgStep P k) :
    OnlyAt P s₀ (State.chgStep s k) := by
  unfold FP.chgStep at hp
  obtain ⟨p0, p1, p2, p3⟩ := hp
  unfold State.chgStep
  repeat' first
    | with_reducible assumption
    | extract_lets
    | with_reducible apply OnlyAt.ite
    | with_reducible apply State.syncCrest_only
    | with_reducible apply State.chgTick_only
    | with_reducible apply State.setRole_only
    | with_reducible apply State.enterStage_only

def FP.enterCv (P : Place → Prop) (k : Fin 2) : Prop :=
    FP.enterStage P k ∧
    P (.chg k) ∧
    FP.abortSounding P k

theorem State.enterCv_only {P : Place → Prop} {s₀ s : State} (h : OnlyAt P s₀ s) (k : Fin 2) (hp : FP.enterCv P k) :
    OnlyAt P s₀ (State.enterCv s k) := by
  unfold FP.enterCv at hp
  obtain ⟨p0, p1, p2⟩ := hp
  unfold State.enterCv
  repeat' first
    | with_reducible assumption
    | extract_lets
    | with_reducible apply State.enterStage_only
    | with_reducible apply State.modChg_only
    | with_reducible apply State.abortSounding_only

abbrev FP.chgDwell (P : Place → Prop) (k : Fin 2) : Prop :=
    P (.chg k)

theorem State.chgDwell_only {P : Place → Prop} {s₀ s : State} (h : OnlyAt P s₀ s) (k : Fin 2) (p : Profile) (hp : FP.chgDwell P k) :
    OnlyAt P s₀ (State.chgDwell s k p) := by
  have p0 := hp
  unfold State.chgDwell
  repeat' first
    | with_reducible assumption
    | extract_lets
    | with_reducible apply OnlyAt.ite
    | with_reducible apply State.modChg_only

abbrev FP.chgSample (P : Place → Prop) (k : Fin 2) : Prop :=
    P (.chg k)

theorem State.chgSample_only {P : Place → Prop} {s₀ s : State} (h : OnlyAt P s₀ s) (k : Fin 2) (v : Rat) (hp : FP.chgSample P k) :
    OnlyAt P s₀ (State.chgSample s k v) := by
  have p0 := hp
  unfold State.chgSample
  repeat' first
    | with_reducible assumption
    | extract_lets
    | with_reducible apply OnlyAt.ite
    | with_reducible apply State.modChg_only
    | split

def FP.chgCtl (P : Place → Prop) (k : Fin 2) : Prop :=
    FP.enterStage P k ∧
    FP.chgWake P k ∧
    FP.syncElig P k

theorem State.chgCtl_only {P : Place → Prop} {s₀ s : State} (h : OnlyAt P s₀ s) (k : Fin 2) (clr : Bool) (hp : FP.chgCtl P k) :
    OnlyAt P s₀ (State.chgCtl s k clr) := by
  unfold FP.chgCtl at hp
  obtain ⟨p0, p1, p2⟩ := hp
  unfold State.chgCtl
  repeat' first
    | with_reducible assumption
    | extract_lets
    | with_reducible apply OnlyAt.ite
    | with_reducible apply State.enterStage_only
    | with_reducible apply State.chgWake_only
    | with_reducible apply State.syncElig_only

def FP.applyProfile (P : Place → Prop) (k : Fin 2) : Prop :=
    P (.chg k) ∧
    P (.reg (CHG_STAT ↑k)) ∧
    P .jnl ∧
    FP.capKnown P k ∧
    FP.chgWake P k ∧
    FP.setCmd P k ∧
    FP.enterStage P k ∧
    FP.syncElig P k ∧
    FP.syncPack P k ∧
    FP.checkWorn P k ∧
    FP.authDue P k

theorem State.applyProfile_only {P : Place → Prop} {s₀ s : State} (h : OnlyAt P s₀ s) (k : Fin 2) (p : Profile) (o : Origin) (cls : Nat) (hp : FP.applyProfile P k) :
    OnlyAt P s₀ (State.applyProfile s k p o cls) := by
  unfold FP.applyProfile at hp
  obtain ⟨p0, p1, p2, p3, p4, p5, p6, p7, p8, p9, p10⟩ := hp
  unfold State.applyProfile
  repeat' first
    | with_reducible assumption
    | extract_lets
    | with_reducible apply OnlyAt.ite
    | with_reducible apply State.modChg_only
    | with_reducible apply State.setFld_only
    | with_reducible apply State.setOn_only
    | with_reducible apply State.journal_only
    | with_reducible apply State.capKnown_only
    | with_reducible apply State.chgWake_only
    | with_reducible apply State.setCmd_only
    | with_reducible apply State.enterStage_only
    | with_reducible apply State.syncElig_only
    | with_reducible apply State.syncPack_only
    | with_reducible apply State.checkWorn_only
    | with_reducible apply State.authDue_only

def FP.startSetProfile (P : Place → Prop) (d : Desc) : Prop :=
    FP.refuse P ∧
    P (.chg d.profPort)

theorem State.startSetProfile_only {P : Place → Prop} {s₀ s : State} (h : OnlyAt P s₀ s) (d : Desc) (hp : FP.startSetProfile P d) :
    OnlyAt P s₀ (State.startSetProfile s d) := by
  unfold FP.startSetProfile at hp
  obtain ⟨p0, p1⟩ := hp
  unfold State.startSetProfile
  repeat' first
    | with_reducible assumption
    | extract_lets
    | with_reducible apply OnlyAt.ite
    | with_reducible apply State.refuse_only
    | with_reducible apply State.modChg_only

def FP.stagedLoad (P : Place → Prop) : Prop :=
    P (.reg CHG_PLOAD) ∧
    (∀ (z0 : Fin 2), FP.evt P (CHG_EVT ↑z0)) ∧
    (∀ (z0 : Fin 2), FP.applyProfile P z0)

theorem State.stagedLoad_only {P : Place → Prop} {s₀ s : State} (h : OnlyAt P s₀ s) (o : Origin) (hp : FP.stagedLoad P) :
    OnlyAt P s₀ (State.stagedLoad s o) := by
  unfold FP.stagedLoad at hp
  obtain ⟨p0, p1, p2⟩ := hp
  unfold State.stagedLoad
  repeat' first
    | with_reducible assumption
    | extract_lets
    | with_reducible apply OnlyAt.ite
    | with_reducible apply State.setFld_only
    | with_reducible apply State.evt_only
    | with_reducible apply State.applyProfile_only
    | with_reducible exact p1 _
    | with_reducible exact p2 _

def FP.startSounding (P : Place → Prop) (d : Desc) : Prop :=
    FP.refuse P ∧
    FP.abortSounding P d.sndPort ∧
    FP.setRole P d.sndPort ∧
    P (.reg (CHG_ZINFO ↑d.sndPort)) ∧
    FP.setItgt P d.sndPort ∧
    P (.chg d.sndPort)

theorem State.startSounding_only {P : Place → Prop} {s₀ s : State} (h : OnlyAt P s₀ s) (d : Desc) (hp : FP.startSounding P d) :
    OnlyAt P s₀ (State.startSounding s d) := by
  unfold FP.startSounding at hp
  obtain ⟨p0, p1, p2, p3, p4, p5⟩ := hp
  unfold State.startSounding
  repeat' first
    | with_reducible assumption
    | extract_lets
    | with_reducible apply OnlyAt.ite
    | with_reducible apply State.refuse_only
    | with_reducible apply State.abortSounding_only
    | with_reducible apply State.setRole_only
    | with_reducible apply State.setFld_only
    | with_reducible apply State.setItgt_only
    | with_reducible apply State.modChg_only
    | split

def FP.lockIn (P : Place → Prop) (k : Fin 2) : Prop :=
    P (.reg (CHG_ZINFO ↑k)) ∧
    P (.chg k)

theorem State.lockIn_only {P : Place → Prop} {s₀ s : State} (h : OnlyAt P s₀ s) (k : Fin 2) (i : Rat) (v : Rat) (q : Nat) (hp : FP.lockIn P k) :
    OnlyAt P s₀ (State.lockIn s k i v q) := by
  unfold FP.lockIn at hp
  obtain ⟨p0, p1⟩ := hp
  unfold State.lockIn
  repeat' first
    | with_reducible assumption
    | extract_lets
    | with_reducible apply OnlyAt.ite
    | with_reducible apply State.setFld_only
    | with_reducible apply State.modChg_only
    | split

abbrev FP.busSample (P : Place → Prop) : Prop :=
    P .chgg

theorem State.busSample_only {P : Place → Prop} {s₀ s : State} (h : OnlyAt P s₀ s) (v : Rat) (hp : FP.busSample P) :
    OnlyAt P s₀ (State.busSample s v) := by
  have p0 := hp
  unfold State.busSample
  repeat' first
    | with_reducible assumption
    | extract_lets
    | with_reducible apply OnlyAt.ite
    | split
    | (with_reducible refine OnlyAt.mk_fields ?_ ?_ ?_ ?_ ?_ ?_ ?_ ?_ ?_ ?_ ?_ ?_ ?_ ?_ ?_ ?_ ?_ ?_ ?_ ?_ ?_ ?_ ?_ ?_ ?_ ?_ ?_ ?_)
    | (with_reducible exact Or.inr (by assumption))
    | with_reducible exact Or.inl rfl

def FP.cutShare (P : Place → Prop) (k : Fin 2) : Prop :=
    FP.setPout P k ∧
    FP.setCmd P k ∧
    P (.chg k) ∧
    FP.leaveHoldup P k

theorem State.cutShare_only {P : Place → Prop} {s₀ s : State} (h : OnlyAt P s₀ s) (k : Fin 2) (hp : FP.cutShare P k) :
    OnlyAt P s₀ (State.cutShare s k) := by
  unfold FP.cutShare at hp
  obtain ⟨p0, p1, p2, p3⟩ := hp
  unfold State.cutShare
  repeat' first
    | with_reducible assumption
    | extract_lets
    | with_reducible apply OnlyAt.ite
    | with_reducible apply State.setPout_only
    | with_reducible apply State.setCmd_only
    | with_reducible apply State.modChg_only
    | with_reducible apply State.leaveHoldup_only
    | split

end Sys2Proof.Machine
end

