-- ==== Sys2Proof/Laws/OnlyFault.lean ====
section
/-! SUPPORT. What each operation of Machine/Fault.lean may change: `FP.x` says that its places lie in `P`. -/

namespace Sys2Proof.Machine

abbrev FP.setFaultN (P : Place → Prop) : Prop :=
    P (.reg FLT_PIN)

theorem State.setFaultN_only {P : Place → Prop} {s₀ s : State} (h : OnlyAt P s₀ s) (low : Bool) (hp : FP.setFaultN P) :
    OnlyAt P s₀ (State.setFaultN s low) := by
  have p0 := hp
  unfold State.setFaultN
  repeat' first
    | with_reducible assumption
    | extract_lets
    | with_reducible apply State.setOn_only

def FP.faultHeld (P : Place → Prop) : Prop :=
    P (.reg FLT_PIN) ∧
    P .flt

theorem State.faultHeld_only {P : Place → Prop} {s₀ s : State} (h : OnlyAt P s₀ s)  (hp : FP.faultHeld P) :
    OnlyAt P s₀ (State.faultHeld s) := by
  unfold FP.faultHeld at hp
  obtain ⟨p0, p1⟩ := hp
  unfold State.faultHeld
  repeat' first
    | with_reducible assumption
    | extract_lets
    | with_reducible apply State.setFaultN_only
    | with_reducible apply State.setOn_only
    | split
    | (with_reducible refine OnlyAt.mk_fields ?_ ?_ ?_ ?_ ?_ ?_ ?_ ?_ ?_ ?_ ?_ ?_ ?_ ?_ ?_ ?_ ?_ ?_ ?_ ?_ ?_ ?_ ?_ ?_ ?_ ?_ ?_ ?_)
    | (with_reducible exact Or.inr (by assumption))
    | with_reducible exact Or.inl rfl

abbrev FP.pinNow (P : Place → Prop) : Prop :=
    P .flt

theorem State.pinNow_only {P : Place → Prop} {s₀ s : State} (h : OnlyAt P s₀ s)  (hp : FP.pinNow P) :
    OnlyAt P s₀ (State.pinNow s) := by
  have p0 := hp
  unfold State.pinNow
  repeat' first
    | with_reducible assumption
    | extract_lets
    | split
    | (with_reducible refine OnlyAt.mk_fields ?_ ?_ ?_ ?_ ?_ ?_ ?_ ?_ ?_ ?_ ?_ ?_ ?_ ?_ ?_ ?_ ?_ ?_ ?_ ?_ ?_ ?_ ?_ ?_ ?_ ?_ ?_ ?_)
    | (with_reducible exact Or.inr (by assumption))
    | with_reducible exact Or.inl rfl

def FP.heartbeat (P : Place → Prop) : Prop :=
    P .flt ∧
    P (.reg FLT_PIN)

theorem State.heartbeat_only {P : Place → Prop} {s₀ s : State} (h : OnlyAt P s₀ s)  (hp : FP.heartbeat P) :
    OnlyAt P s₀ (State.heartbeat s) := by
  unfold FP.heartbeat at hp
  obtain ⟨p0, p1⟩ := hp
  unfold State.heartbeat
  repeat' first
    | with_reducible assumption
    | extract_lets
    | with_reducible apply State.pinNow_only
    | with_reducible apply State.setFaultN_only
    | with_reducible apply State.setOn_only

def FP.faultRun (P : Place → Prop) : Prop :=
    FP.heartbeat P ∧
    P (.reg FLT_PIN)

theorem State.faultRun_only {P : Place → Prop} {s₀ s : State} (h : OnlyAt P s₀ s)  (hp : FP.faultRun P) :
    OnlyAt P s₀ (State.faultRun s) := by
  unfold FP.faultRun at hp
  obtain ⟨p0, p1⟩ := hp
  unfold State.faultRun
  repeat' first
    | with_reducible assumption
    | extract_lets
    | with_reducible apply OnlyAt.ite
    | with_reducible apply State.heartbeat_only
    | with_reducible apply State.setFaultN_only

def FP.faultPulse (P : Place → Prop) : Prop :=
    P (.reg FLT_PIN) ∧
    P .flt

theorem State.faultPulse_only {P : Place → Prop} {s₀ s : State} (h : OnlyAt P s₀ s)  (hp : FP.faultPulse P) :
    OnlyAt P s₀ (State.faultPulse s) := by
  unfold FP.faultPulse at hp
  obtain ⟨p0, p1⟩ := hp
  unfold State.faultPulse
  repeat' first
    | with_reducible assumption
    | extract_lets
    | with_reducible apply OnlyAt.ite
    | with_reducible apply State.setFaultN_only
    | with_reducible apply State.setOn_only
    | with_reducible apply State.pinNow_only
    | split
    | (with_reducible refine OnlyAt.mk_fields ?_ ?_ ?_ ?_ ?_ ?_ ?_ ?_ ?_ ?_ ?_ ?_ ?_ ?_ ?_ ?_ ?_ ?_ ?_ ?_ ?_ ?_ ?_ ?_ ?_ ?_ ?_ ?_)
    | (with_reducible exact Or.inr (by assumption))
    | with_reducible exact Or.inl rfl

def FP.portsOff (P : Place → Prop) : Prop :=
    (∀ (z0 : Fin 2), FP.setCmd P z0) ∧
    (∀ (z0 : Fin 2), FP.setRole P z0) ∧
    (∀ (z0 : Fin 2), FP.leaveGust P z0) ∧
    (∀ (z0 : Fin 2), FP.leaveHoldup P z0) ∧
    (∀ (z0 : Fin 2), FP.abortSounding P z0) ∧
    FP.stopPhases P ∧
    (∀ (z0 : Fin 2), FP.syncElig P z0) ∧
    (∀ (z0 : Fin 2), FP.turn P z0) ∧
    (∀ (z0 : Fin 2), FP.openPort P z0)

theorem State.portsOff_only {P : Place → Prop} {s₀ s : State} (h : OnlyAt P s₀ s)  (hp : FP.portsOff P) :
    OnlyAt P s₀ (State.portsOff s) := by
  unfold FP.portsOff at hp
  obtain ⟨p0, p1, p2, p3, p4, p5, p6, p7, p8⟩ := hp
  unfold State.portsOff
  repeat' first
    | with_reducible assumption
    | extract_lets
    | with_reducible apply State.setCmd_only
    | with_reducible apply State.setRole_only
    | with_reducible apply State.leaveGust_only
    | with_reducible apply State.leaveHoldup_only
    | with_reducible apply State.abortSounding_only
    | with_reducible apply State.stopPhases_only
    | with_reducible apply State.syncElig_only
    | with_reducible apply State.turn_only
    | with_reducible apply State.openPort_only
    | (with_reducible refine State.each_only ?_ _ _ (fun _ _ _ _ => ?_))
    | with_reducible exact p0 _
    | with_reducible exact p1 _
    | with_reducible exact p2 _
    | with_reducible exact p3 _
    | with_reducible exact p4 _
    | with_reducible exact p6 _
    | with_reducible exact p7 _
    | with_reducible exact p8 _

def FP.safeEntry (P : Place → Prop) : Prop :=
    P .flt ∧
    P .sys ∧
    P (.reg THM_STAT) ∧
    P (.reg SYS_STATE) ∧
    FP.feedsHwOnly P ∧
    FP.portsOff P ∧
    FP.endTest P ∧
    FP.faultHeld P ∧
    FP.syncThr P ∧
    FP.endAll P

theorem State.safeEntry_only {P : Place → Prop} {s₀ s : State} (h : OnlyAt P s₀ s)  (hp : FP.safeEntry P) :
    OnlyAt P s₀ (State.safeEntry s) := by
  unfold FP.safeEntry at hp
  obtain ⟨p0, p1, p2, p3, p4, p5, p6, p7, p8, p9⟩ := hp
  unfold State.safeEntry
  repeat' first
    | with_reducible assumption
    | extract_lets
    | with_reducible apply OnlyAt.ite
    | with_reducible apply State.setOn_only
    | with_reducible apply State.setFld_only
    | with_reducible apply State.feedsHwOnly_only
    | with_reducible apply State.portsOff_only
    | with_reducible apply State.endTest_only
    | with_reducible apply State.faultHeld_only
    | with_reducible apply State.syncThr_only
    | with_reducible apply State.endAll_only
    | split
    | (with_reducible refine OnlyAt.mk_fields ?_ ?_ ?_ ?_ ?_ ?_ ?_ ?_ ?_ ?_ ?_ ?_ ?_ ?_ ?_ ?_ ?_ ?_ ?_ ?_ ?_ ?_ ?_ ?_ ?_ ?_ ?_ ?_)
    | (with_reducible exact Or.inr (by assumption))
    | with_reducible exact Or.inl rfl

abbrev FP.fatalEntry (P : Place → Prop) : Prop :=
    P .jnl

theorem State.fatalEntry_only {P : Place → Prop} {s₀ s : State} (h : OnlyAt P s₀ s) (src : Nat) (hp : FP.fatalEntry P) :
    OnlyAt P s₀ (State.fatalEntry s src) := by
  have p0 := hp
  unfold State.fatalEntry
  repeat' first
    | with_reducible assumption
    | extract_lets
    | with_reducible apply State.jevent_only

def FP.setSrc (P : Place → Prop) (lo : Nat) (hi : Nat) : Prop :=
    FP.setFlags P lo ∧
    FP.setFlags P hi

theorem State.setSrc_only {P : Place → Prop} {s₀ s : State} (h : OnlyAt P s₀ s) (lo : Nat) (hi : Nat) (src : Fin 64) (hp : FP.setSrc P lo hi) :
    OnlyAt P s₀ (State.setSrc s lo hi src) := by
  unfold FP.setSrc at hp
  obtain ⟨p0, p1⟩ := hp
  unfold State.setSrc
  repeat' first
    | with_reducible assumption
    | extract_lets
    | with_reducible apply OnlyAt.ite
    | with_reducible apply State.setFlags_only

abbrev FP.countSrc (P : Place → Prop) (src : Fin 64) : Prop :=
    P (.reg (FLT_CNT (↑src / 4)))

theorem State.countSrc_only {P : Place → Prop} {s₀ s : State} (h : OnlyAt P s₀ s) (src : Fin 64) (hp : FP.countSrc P src) :
    OnlyAt P s₀ (State.countSrc s src) := by
  have p0 := hp
  unfold State.countSrc
  repeat' first
    | with_reducible assumption
    | extract_lets
    | with_reducible apply State.count_only

def FP.capture (P : Place → Prop) : Prop :=
    P (.reg FLT_FIRST) ∧
    P (.reg FLT_FTIME_LO) ∧
    P (.reg FLT_FADDR) ∧
    FP.evt P FLT_FIRST ∧
    P (.reg FLT_FTIME_HI)

theorem State.capture_only {P : Place → Prop} {s₀ s : State} (h : OnlyAt P s₀ s) (e : FltEvent) (hp : FP.capture P) :
    OnlyAt P s₀ (State.capture s e) := by
  unfold FP.capture at hp
  obtain ⟨p0, p1, p2, p3, p4⟩ := hp
  unfold State.capture
  repeat' first
    | with_reducible assumption
    | extract_lets
    | with_reducible apply State.setFld_only
    | with_reducible apply State.setOn_only
    | with_reducible apply State.setWord_only
    | with_reducible apply State.evt_only

def FP.captureFatal (P : Place → Prop) : Prop :=
    P (.reg FLT_FATAL) ∧
    FP.evt P FLT_FATAL ∧
    P (.reg FLT_FATIME)

theorem State.captureFatal_only {P : Place → Prop} {s₀ s : State} (h : OnlyAt P s₀ s) (e : FltEvent) (hp : FP.captureFatal P) :
    OnlyAt P s₀ (State.captureFatal s e) := by
  unfold FP.captureFatal at hp
  obtain ⟨p0, p1, p2⟩ := hp
  unfold State.captureFatal
  repeat' first
    | with_reducible assumption
    | extract_lets
    | with_reducible apply OnlyAt.ite
    | with_reducible apply State.setFld_only
    | with_reducible apply State.setOn_only
    | with_reducible apply State.evt_only
    | with_reducible apply State.setWord_only

abbrev FP.startGrace (P : Place → Prop) : Prop :=
    P .flt

theorem State.startGrace_only {P : Place → Prop} {s₀ s : State} (h : OnlyAt P s₀ s) (src : Fin 64) (hp : FP.startGrace P) :
    OnlyAt P s₀ (State.startGrace s src) := by
  have p0 := hp
  unfold State.startGrace
  repeat' first
    | with_reducible assumption
    | extract_lets
    | with_reducible apply OnlyAt.ite
    | split
    | (with_reducible refine OnlyAt.mk_fields ?_ ?_ ?_ ?_ ?_ ?_ ?_ ?_ ?_ ?_ ?_ ?_ ?_ ?_ ?_ ?_ ?_ ?_ ?_ ?_ ?_ ?_ ?_ ?_ ?_ ?_ ?_ ?_)
    | (with_reducible exact Or.inr (by assumption))
    | with_reducible exact Or.inl rfl

def FP.recordEvents (P : Place → Prop) : Prop :=
    (∀ (z0 : Fin 64), FP.countSrc P z0) ∧
    FP.setSrc P FLT_STATUS_LO FLT_STATUS_HI ∧
    FP.setSrc P FLT_PEND_LO FLT_PEND_HI ∧
    P .flt ∧
    FP.capture P ∧
    P (.reg FLT_MULTI) ∧
    P (.reg FLT_FIRST) ∧
    FP.captureFatal P ∧
    FP.faultPulse P ∧
    P .jnl ∧
    FP.safeEntry P

theorem State.recordEvents_only {P : Place → Prop} {s₀ s : State} (h : OnlyAt P s₀ s) (raw : List FltEvent)
    (hp : FP.recordEvents P) : OnlyAt P s₀ (State.recordEvents s raw) := by
  unfold FP.recordEvents at hp
  obtain ⟨p0, p1, p2, p3, p4, p5, p6, p7, p8, p9, p10⟩ := hp
  unfold State.recordEvents
  extract_lets l fatal s1 grace s2 first rest s3 s4 s5 s6
  clear_value first fatal
  have e1 : OnlyAt P s₀ s1 := State.each_only h _ _ (fun _ _ _ ht => State.countSrc_only (State.setSrc_only ht _ _ _ p1) _ (p0 _))
  have e2 : OnlyAt P s₀ s2 := State.each_only e1 _ _ (fun t e _ ht => by
    extract_lets t1
    have ht1 : OnlyAt P s₀ t1 := State.setSrc_only ht _ _ _ p2
    exact OnlyAt.ite (State.startGrace_only ht1 _ p3) ht1)
  have e3 : OnlyAt P s₀ s3 := by
    unfold s3
    split
    · exact State.capture_only e2 _ p4
    · exact e2
  have e4 : OnlyAt P s₀ s4 := State.each_only e3 _ _ (fun _ _ _ ht => State.count_only (State.setOn_only ht _ _ p6) _ p5)
  have e5 : OnlyAt P s₀ s5 := by
    unfold s5
    split
    · exact State.captureFatal_only e4 _ p7
    · exact e4
  have e6 : OnlyAt P s₀ s6 := OnlyAt.ite (State.faultPulse_only e5 p8) e5
  split
  · exact OnlyAt.ite e6 (State.fatalEntry_only (State.safeEntry_only e6 p10) _ p9)
  · exact e6

def FP.collect (P : Place → Prop) : Prop :=
    FP.recordEvents P ∧
    P .flt

theorem State.collect_only {P : Place → Prop} {s₀ s : State} (h : OnlyAt P s₀ s)  (hp : FP.collect P) :
    OnlyAt P s₀ (State.collect s) := by
  unfold FP.collect at hp
  obtain ⟨p0, p1⟩ := hp
  unfold State.collect
  repeat' first
    | with_reducible assumption
    | extract_lets
    | with_reducible apply OnlyAt.ite
    | with_reducible apply State.recordEvents_only
    | split
    | (with_reducible refine OnlyAt.mk_fields ?_ ?_ ?_ ?_ ?_ ?_ ?_ ?_ ?_ ?_ ?_ ?_ ?_ ?_ ?_ ?_ ?_ ?_ ?_ ?_ ?_ ?_ ?_ ?_ ?_ ?_ ?_ ?_)
    | (with_reducible exact Or.inr (by assumption))
    | with_reducible exact Or.inl rfl

abbrev FP.recordFault (P : Place → Prop) : Prop :=
    FP.recordEvents P

theorem State.recordFault_only {P : Place → Prop} {s₀ s : State} (h : OnlyAt P s₀ s) (src : Fin 64) (addr : Nat) (master : Byte) (hp : FP.recordFault P) :
    OnlyAt P s₀ (State.recordFault s src addr master) := by
  have p0 := hp
  unfold State.recordFault
  repeat' first
    | with_reducible assumption
    | extract_lets
    | with_reducible apply State.recordEvents_only

def FP.clearPend (P : Place → Prop) : Prop :=
    P (.reg FLT_PEND_HI) ∧
    P (.reg FLT_PEND_LO) ∧
    P .flt

theorem State.clearPend_only {P : Place → Prop} {s₀ s : State} (h : OnlyAt P s₀ s) (m : BitVec 64) (hp : FP.clearPend P) :
    OnlyAt P s₀ (State.clearPend s m) := by
  unfold FP.clearPend at hp
  obtain ⟨p0, p1, p2⟩ := hp
  unfold State.clearPend
  repeat' first
    | with_reducible assumption
    | extract_lets
    | with_reducible apply State.setWord_only
    | split
    | (with_reducible refine OnlyAt.mk_fields ?_ ?_ ?_ ?_ ?_ ?_ ?_ ?_ ?_ ?_ ?_ ?_ ?_ ?_ ?_ ?_ ?_ ?_ ?_ ?_ ?_ ?_ ?_ ?_ ?_ ?_ ?_ ?_)
    | (with_reducible exact Or.inr (by assumption))
    | with_reducible exact Or.inl rfl

def FP.pinWrite (P : Place → Prop) : Prop :=
    FP.heartbeat P ∧
    P (.reg FLT_PIN)

theorem State.pinWrite_only {P : Place → Prop} {s₀ s : State} (h : OnlyAt P s₀ s) (resume : Bool) (hp : FP.pinWrite P) :
    OnlyAt P s₀ (State.pinWrite s resume) := by
  unfold FP.pinWrite at hp
  obtain ⟨p0, p1⟩ := hp
  unfold State.pinWrite
  repeat' first
    | with_reducible assumption
    | extract_lets
    | with_reducible apply OnlyAt.ite
    | with_reducible apply State.heartbeat_only
    | with_reducible apply State.setFaultN_only

def FP.collectorBad (P : Place → Prop) : Prop :=
    P .flt ∧
    FP.setSrc P FLT_STATUS_LO FLT_STATUS_HI ∧
    P (.reg FLT_SELF) ∧
    FP.captureFatal P ∧
    P .jnl ∧
    FP.safeEntry P

theorem State.collectorBad_only {P : Place → Prop} {s₀ s : State} (h : OnlyAt P s₀ s) (w : Byte) (hp : FP.collectorBad P) :
    OnlyAt P s₀ (State.collectorBad s w) := by
  unfold FP.collectorBad at hp
  obtain ⟨p0, p1, p2, p3, p4, p5⟩ := hp
  unfold State.collectorBad
  repeat' first
    | with_reducible assumption
    | extract_lets
    | with_reducible apply OnlyAt.ite
    | with_reducible apply State.setSrc_only
    | with_reducible apply State.setFld_only
    | with_reducible apply State.setOn_only
    | with_reducible apply State.captureFatal_only
    | with_reducible apply State.fatalEntry_only
    | with_reducible apply State.safeEntry_only
    | split
    | (with_reducible refine OnlyAt.mk_fields ?_ ?_ ?_ ?_ ?_ ?_ ?_ ?_ ?_ ?_ ?_ ?_ ?_ ?_ ?_ ?_ ?_ ?_ ?_ ?_ ?_ ?_ ?_ ?_ ?_ ?_ ?_ ?_)
    | (with_reducible exact Or.inr (by assumption))
    | with_reducible exact Or.inl rfl

abbrev FP.checkWord (P : Place → Prop) : Prop :=
    FP.collectorBad P

theorem State.checkWord_only {P : Place → Prop} {s₀ s : State} (h : OnlyAt P s₀ s) (off : Nat) (hp : FP.checkWord P) :
    OnlyAt P s₀ (State.checkWord s off) := by
  have p0 := hp
  unfold State.checkWord
  repeat' first
    | with_reducible assumption
    | extract_lets
    | with_reducible apply OnlyAt.ite
    | with_reducible apply State.collectorBad_only
    | split

def FP.tripAll (P : Place → Prop) : Prop :=
    ∀ (y0 : Fin 16), P (.ph y0)

theorem State.tripAll_only {P : Place → Prop} {s₀ s : State} (h : OnlyAt P s₀ s)  (hp : FP.tripAll P) :
    OnlyAt P s₀ (State.tripAll s) := by
  unfold FP.tripAll at hp
  have p0 := hp
  unfold State.tripAll
  repeat' first
    | with_reducible assumption
    | extract_lets
    | with_reducible apply State.modPh_only
    | (with_reducible refine State.each_only ?_ _ _ (fun _ _ _ _ => ?_))
    | with_reducible exact p0 _

end Sys2Proof.Machine
end

