-- ==== Sys2Proof/Laws/OnlyThermal.lean ====
section
/-! SUPPORT. What each operation of Machine/Thermal.lean may change: `FP.x` says that its places lie in `P`. -/

namespace Sys2Proof.Machine

def FP.crossCheck (P : Place → Prop) (i : Fin 9) : Prop :=
    P (.reg (THM_TS ↑i)) ∧
    P .thm ∧
    P .flt ∧
    P (.reg THM_CNT) ∧
    FP.evt P THM_EVT

theorem State.crossCheck_only {P : Place → Prop} {s₀ s : State} (h : OnlyAt P s₀ s) (ok : Fin 9 → Bool) (i : Fin 9) (hp : FP.crossCheck P i) :
    OnlyAt P s₀ (State.crossCheck s ok i) := by
  unfold FP.crossCheck at hp
  obtain ⟨p0, p1, p2, p3, p4⟩ := hp
  unfold State.crossCheck
  repeat' first
    | with_reducible assumption
    | extract_lets
    | with_reducible apply OnlyAt.ite
    | with_reducible apply State.setFld_only
    | with_reducible apply State.setScode_only
    | with_reducible apply State.fault_only
    | with_reducible apply State.count_only
    | with_reducible apply State.evt_only
    | split
    | (with_reducible refine OnlyAt.mk_fields ?_ ?_ ?_ ?_ ?_ ?_ ?_ ?_ ?_ ?_ ?_ ?_ ?_ ?_ ?_ ?_ ?_ ?_ ?_ ?_ ?_ ?_ ?_ ?_ ?_ ?_ ?_ ?_)
    | (with_reducible exact Or.inr (by assumption))
    | with_reducible exact Or.inl rfl

def FP.noXchk (P : Place → Prop) : Prop :=
    P .flt ∧
    FP.evt P THM_EVT

theorem State.noXchk_only {P : Place → Prop} {s₀ s : State} (h : OnlyAt P s₀ s) (cirrus : Bool) (had : Bool) (hp : FP.noXchk P) :
    OnlyAt P s₀ (State.noXchk s cirrus had) := by
  unfold FP.noXchk at hp
  obtain ⟨p0, p1⟩ := hp
  unfold State.noXchk
  repeat' first
    | with_reducible assumption
    | extract_lets
    | with_reducible apply OnlyAt.ite
    | with_reducible apply State.fault_only
    | with_reducible apply State.evt_only

def FP.orderlyStop (P : Place → Prop) : Prop :=
    P (.reg THM_STAT) ∧
    P .sys ∧
    FP.collect P ∧
    FP.thermalEnd P ∧
    FP.portsOff P

theorem State.orderlyStop_only {P : Place → Prop} {s₀ s : State} (h : OnlyAt P s₀ s) (tj : Int) (trip : Nat) (hp : FP.orderlyStop P) :
    OnlyAt P s₀ (State.orderlyStop s tj trip) := by
  unfold FP.orderlyStop at hp
  obtain ⟨p0, p1, p2, p3, p4⟩ := hp
  unfold State.orderlyStop
  repeat' first
    | with_reducible assumption
    | extract_lets
    | with_reducible apply State.setOn_only
    | with_reducible apply State.collect_only
    | with_reducible apply State.thermalEnd_only
    | with_reducible apply State.portsOff_only
    | split
    | (with_reducible refine OnlyAt.mk_fields ?_ ?_ ?_ ?_ ?_ ?_ ?_ ?_ ?_ ?_ ?_ ?_ ?_ ?_ ?_ ?_ ?_ ?_ ?_ ?_ ?_ ?_ ?_ ?_ ?_ ?_ ?_ ?_)
    | (with_reducible exact Or.inr (by assumption))
    | with_reducible exact Or.inl rfl

def FP.setLevel (P : Place → Prop) : Prop :=
    P (.reg THM_STAT) ∧
    FP.evt P THM_EVT ∧
    P (.reg THM_CNT) ∧
    P .thm ∧
    FP.budgetDrop P ∧
    (∀ (z0 : Fin 2), FP.gustLoss P z0)

theorem State.setLevel_only {P : Place → Prop} {s₀ s : State} (h : OnlyAt P s₀ s) (tj : Int) (hp : FP.setLevel P) :
    OnlyAt P s₀ (State.setLevel s tj) := by
  unfold FP.setLevel at hp
  obtain ⟨p0, p1, p2, p3, p4, p5⟩ := hp
  unfold State.setLevel
  repeat' first
    | with_reducible assumption
    | extract_lets
    | with_reducible apply OnlyAt.ite
    | with_reducible apply State.setFld_only
    | with_reducible apply State.evt_only
    | with_reducible apply State.count_only
    | with_reducible apply State.budgetDrop_only
    | with_reducible apply State.gustLoss_only
    | (with_reducible refine State.each_only ?_ _ _ (fun _ _ _ _ => ?_))
    | with_reducible exact p5 _
    | split
    | (with_reducible refine OnlyAt.mk_fields ?_ ?_ ?_ ?_ ?_ ?_ ?_ ?_ ?_ ?_ ?_ ?_ ?_ ?_ ?_ ?_ ?_ ?_ ?_ ?_ ?_ ?_ ?_ ?_ ?_ ?_ ?_ ?_)
    | (with_reducible exact Or.inr (by assumption))
    | with_reducible exact Or.inl rfl

def FP.dieActions (P : Place → Prop) : Prop :=
    FP.setLevel P ∧
    P (.reg THM_STAT) ∧
    FP.evt P THM_EVT ∧
    P .flt ∧
    FP.orderlyStop P

theorem State.dieActions_only {P : Place → Prop} {s₀ s : State} (h : OnlyAt P s₀ s) (tj : Int) (hp : FP.dieActions P) :
    OnlyAt P s₀ (State.dieActions s tj) := by
  unfold FP.dieActions at hp
  obtain ⟨p0, p1, p2, p3, p4⟩ := hp
  unfold State.dieActions
  repeat' first
    | with_reducible assumption
    | extract_lets
    | with_reducible apply OnlyAt.ite
    | with_reducible apply State.setLevel_only
    | with_reducible apply State.setFld_only
    | with_reducible apply State.evt_only
    | with_reducible apply State.fault_only
    | with_reducible apply State.orderlyStop_only

def FP.exclude (P : Place → Prop) (n : Fin 16) : Prop :=
    P .thm ∧
    FP.evt P THM_EVT ∧
    FP.setPh P n ∧
    (∀ (z0 : Fin 2), FP.syncPort P z0) ∧
    (∀ (z0 : Fin 2), FP.evt P (PHP_EVT ↑z0)) ∧
    (∀ (z0 : Fin 2), FP.syncElig P z0) ∧
    (∀ (z0 : Fin 2), FP.gustLoss P z0) ∧
    (∀ (z0 : Fin 2), FP.cutPower P z0)

theorem State.exclude_only {P : Place → Prop} {s₀ s : State} (h : OnlyAt P s₀ s) (n : Fin 16) (hp : FP.exclude P n) :
    OnlyAt P s₀ (State.exclude s n) := by
  unfold FP.exclude at hp
  obtain ⟨p0, p1, p2, p3, p4, p5, p6, p7⟩ := hp
  unfold State.exclude
  refine OnlyAt.ite h ?_
  extract_lets port before src s1 s2 s3
  clear_value port
  have e1 : OnlyAt P s₀ s1 := by
    refine OnlyAt.mk_fields h ?_ ?_ ?_ ?_ ?_ ?_ ?_ ?_ ?_ ?_ ?_ ?_ ?_ ?_ ?_ ?_ ?_ ?_ ?_ ?_ ?_ ?_ ?_ ?_ ?_ ?_ ?_
    all_goals first
      | exact Or.inr p0
      | exact Or.inl rfl
  have e2 : OnlyAt P s₀ s2 := State.evt_only e1 _ p1
  have e3 : OnlyAt P s₀ s3 := OnlyAt.ite (State.setPh_only e2 _ _ p2) e2
  split
  · exact e3
  · next k =>
    extract_lets s4 s5
    have e4 : OnlyAt P s₀ s4 := State.syncPort_only e3 _ (p3 _)
    have e5 : OnlyAt P s₀ s5 := OnlyAt.ite (State.evt_only e4 _ (p4 _)) e4
    exact State.syncElig_only (State.gustLoss_only (State.cutPower_only e5 _ (p7 _)) _ (p6 _)) _ (p5 _)

def FP.capFall (P : Place → Prop) (k : Fin 2) : Prop :=
    FP.syncPort P k ∧
    P (.reg THM_CNT) ∧
    FP.evt P THM_EVT ∧
    P (.php k) ∧
    FP.syncElig P k ∧
    FP.capShed P k

theorem State.capFall_only {P : Place → Prop} {s₀ s : State} (h : OnlyAt P s₀ s) (k : Fin 2) (hp : FP.capFall P k) :
    OnlyAt P s₀ (State.capFall s k) := by
  unfold FP.capFall at hp
  obtain ⟨p0, p1, p2, p3, p4, p5⟩ := hp
  unfold State.capFall
  repeat' first
    | with_reducible assumption
    | extract_lets
    | with_reducible apply OnlyAt.ite
    | with_reducible apply State.syncPort_only
    | with_reducible apply State.count_only
    | with_reducible apply State.evt_only
    | with_reducible apply State.modPhp_only
    | with_reducible apply State.syncElig_only
    | with_reducible apply State.capShed_only

def FP.stageActions (P : Place → Prop) (n : Fin 16) : Prop :=
    P .thm ∧
    P (.reg THM_STAT) ∧
    (∀ (z0 : Fin 2), FP.capFall P z0) ∧
    (∀ (y0 : Fin 2), P (.php y0)) ∧
    FP.exclude P n ∧
    FP.syncPorts P

theorem State.stageActions_only {P : Place → Prop} {s₀ s : State} (h : OnlyAt P s₀ s) (n : Fin 16) (t : Rat)
    (hp : FP.stageActions P n) : OnlyAt P s₀ (State.stageActions s n t) := by
  unfold FP.stageActions at hp
  obtain ⟨p0, p1, p2, p3, p4, p5⟩ := hp
  unfold State.stageActions
  extract_lets port run past put skip wasCap cap hot wasPort src s1 s2 s3
  clear_value port hot
  have e1 : OnlyAt P s₀ s1 := by
    refine OnlyAt.mk_fields h ?_ ?_ ?_ ?_ ?_ ?_ ?_ ?_ ?_ ?_ ?_ ?_ ?_ ?_ ?_ ?_ ?_ ?_ ?_ ?_ ?_ ?_ ?_ ?_ ?_ ?_ ?_
    all_goals first
      | exact Or.inr p0
      | exact Or.inl rfl
  have e2 : OnlyAt P s₀ s2 := State.setFld_only e1 _ _ p1
  have e3 : OnlyAt P s₀ s3 := by
    unfold s3
    split
    · exact OnlyAt.ite (State.capFall_only e2 _ (p2 _)) (OnlyAt.ite (State.modPhp_only e2 _ _ (p3 _)) e2)
    · exact e2
  refine OnlyAt.ite (State.exclude_only e3 _ p4) (OnlyAt.ite (State.syncPorts_only ?_ p5) e3)
  refine OnlyAt.mk_fields e3 ?_ ?_ ?_ ?_ ?_ ?_ ?_ ?_ ?_ ?_ ?_ ?_ ?_ ?_ ?_ ?_ ?_ ?_ ?_ ?_ ?_ ?_ ?_ ?_ ?_ ?_ ?_
  all_goals first
    | exact Or.inr p0
    | exact Or.inl rfl

end Sys2Proof.Machine
end

