-- ==== Sys2Proof/Laws/OnlyAnalog.lean ====
section
/-! SUPPORT. What each operation of Machine/Analog.lean may change: `FP.x` says that its places lie in `P`. -/

namespace Sys2Proof.Machine

def FP.cmpRoute (P : Place → Prop) (c : Fin 48) : Prop :=
    (∀ (z0 : Fin 4), FP.feedOv P z0) ∧
    (∀ (z0 : Fin 4), FP.feedUv P z0) ∧
    (∀ (z0 : Fin 4), FP.feedShort P z0) ∧
    (∀ (z0 : Fin 4), FP.feedReverse P z0) ∧
    (∀ (z0 : Fin 2), FP.packOcc P z0) ∧
    (∀ (z0 : Fin 2), FP.packShort P z0) ∧
    (∀ (z0 : Fin 2), FP.packOv P z0) ∧
    (∀ (z0 : Fin 2), FP.packUv P z0) ∧
    P .flt ∧
    (∀ (z0 : Fin 16), FP.markLost P z0) ∧
    FP.evt P (PH_EVT (↑c - 29)) ∧
    FP.sourceEdge P

theorem State.cmpRoute_only {P : Place → Prop} {s₀ s : State} (h : OnlyAt P s₀ s) (c : Fin 48) (upper : Bool) (hp : FP.cmpRoute P c) :
    OnlyAt P s₀ (State.cmpRoute s c upper) := by
  unfold FP.cmpRoute at hp
  obtain ⟨p0, p1, p2, p3, p4, p5, p6, p7, p8, p9, p10, p11⟩ := hp
  unfold State.cmpRoute
  repeat' first
    | with_reducible assumption
    | extract_lets
    | with_reducible apply OnlyAt.ite
    | with_reducible apply State.feedOv_only
    | with_reducible apply State.feedUv_only
    | with_reducible apply State.feedShort_only
    | with_reducible apply State.feedReverse_only
    | with_reducible apply State.packOcc_only
    | with_reducible apply State.packShort_only
    | with_reducible apply State.packOv_only
    | with_reducible apply State.packUv_only
    | with_reducible apply State.fault_only
    | with_reducible apply State.markLost_only
    | with_reducible apply State.evt_only
    | with_reducible apply State.sourceEdge_only
    | with_reducible exact p0 _
    | with_reducible exact p1 _
    | with_reducible exact p2 _
    | with_reducible exact p3 _
    | with_reducible exact p4 _
    | with_reducible exact p5 _
    | with_reducible exact p6 _
    | with_reducible exact p7 _
    | with_reducible exact p9 _
    | split

def FP.cmpInput (P : Place → Prop) (c : Fin 48) : Prop :=
    P (.cmp c) ∧
    FP.cmpAssert P ↑c ∧
    P (.reg (CMP_STAT ↑c)) ∧
    FP.cmpRoute P c ∧
    FP.trySwap P c

theorem State.cmpInput_only {P : Place → Prop} {s₀ s : State} (h : OnlyAt P s₀ s) (c : Fin 48) (x : Int) (hp : FP.cmpInput P c) :
    OnlyAt P s₀ (State.cmpInput s c x) := by
  unfold FP.cmpInput at hp
  obtain ⟨p0, p1, p2, p3, p4⟩ := hp
  unfold State.cmpInput
  repeat' first
    | with_reducible assumption
    | extract_lets
    | with_reducible apply OnlyAt.ite
    | with_reducible apply State.modCmp_only
    | with_reducible apply State.cmpAssert_only
    | with_reducible apply State.setFld_only
    | with_reducible apply State.cmpRoute_only
    | with_reducible apply State.trySwap_only

def FP.cmpFollow (P : Place → Prop) (c : Fin 48) : Prop :=
    P (.cmp c) ∧
    FP.cmpRoute P c ∧
    FP.cmpAssert P ↑c ∧
    FP.trySwap P c ∧
    FP.cmpInput P c

theorem State.cmpFollow_only {P : Place → Prop} {s₀ s : State} (h : OnlyAt P s₀ s) (c : Fin 48) (hp : FP.cmpFollow P c) :
    OnlyAt P s₀ (State.cmpFollow s c) := by
  unfold FP.cmpFollow at hp
  obtain ⟨p0, p1, p2, p3, p4⟩ := hp
  unfold State.cmpFollow
  repeat' first
    | with_reducible assumption
    | extract_lets
    | with_reducible apply OnlyAt.ite
    | with_reducible apply State.modCmp_only
    | with_reducible apply State.cmpRoute_only
    | with_reducible apply State.cmpAssert_only
    | with_reducible apply State.trySwap_only
    | with_reducible apply State.cmpInput_only
    | split

abbrev FP.rethresh (P : Place → Prop) (c : Fin 48) : Prop :=
    FP.cmpInput P c

theorem State.rethresh_only {P : Place → Prop} {s₀ s : State} (h : OnlyAt P s₀ s) (c : Fin 48) (hp : FP.rethresh P c) :
    OnlyAt P s₀ (State.rethresh s c) := by
  have p0 := hp
  unfold State.rethresh
  repeat' first
    | with_reducible assumption
    | extract_lets
    | with_reducible apply State.cmpInput_only
    | split

def FP.nodeSeen (P : Place → Prop) : Prop :=
    (∀ (z0 : Fin 48), FP.cmpSee P z0) ∧
    (∀ (z0 : Fin 48), FP.cmpInput P z0)

theorem State.nodeSeen_only {P : Place → Prop} {s₀ s : State} (h : OnlyAt P s₀ s) (ch : Nat) (alt : Bool) (gain : Rat) (v : Rat) (hp : FP.nodeSeen P) :
    OnlyAt P s₀ (State.nodeSeen s ch alt gain v) := by
  unfold FP.nodeSeen at hp
  obtain ⟨p0, p1⟩ := hp
  unfold State.nodeSeen
  repeat' first
    | with_reducible assumption
    | extract_lets
    | with_reducible apply OnlyAt.ite
    | with_reducible apply State.cmpSee_only
    | with_reducible apply State.cmpInput_only
    | (with_reducible refine State.each_only ?_ _ _ (fun _ _ _ _ => ?_))
    | with_reducible exact p0 _
    | with_reducible exact p1 _
    | split
    | dsimp +zetaDelta only

def FP.cmpFault (P : Place → Prop) (c : Fin 48) : Prop :=
    FP.cmpRow P ↑c ∧
    FP.cmpRoute P c

theorem State.cmpFault_only {P : Place → Prop} {s₀ s : State} (h : OnlyAt P s₀ s) (c : Fin 48) (upper : Bool) (w : Nat) (hp : FP.cmpFault P c) :
    OnlyAt P s₀ (State.cmpFault s c upper w) := by
  unfold FP.cmpFault at hp
  obtain ⟨p0, p1⟩ := hp
  unfold State.cmpFault
  repeat' first
    | with_reducible assumption
    | extract_lets
    | with_reducible apply OnlyAt.ite
    | with_reducible apply State.cmpRow_only
    | with_reducible apply State.cmpRoute_only

def FP.blank (P : Place → Prop) (c : Fin 48) : Prop :=
    P (.reg (CMP_STAT ↑c)) ∧
    P (.cmp c) ∧
    FP.cmpFollow P c

theorem State.blank_only {P : Place → Prop} {s₀ s : State} (h : OnlyAt P s₀ s) (c : Fin 48) (on : Bool) (hp : FP.blank P c) :
    OnlyAt P s₀ (State.blank s c on) := by
  unfold FP.blank at hp
  obtain ⟨p0, p1, p2⟩ := hp
  unfold State.blank
  repeat' first
    | with_reducible assumption
    | extract_lets
    | with_reducible apply OnlyAt.ite
    | with_reducible apply State.setOn_only
    | with_reducible apply State.modCmp_only
    | with_reducible apply State.cmpFollow_only

def FP.blankBy (P : Place → Prop) : Prop :=
    ∀ (z0 : Fin 48), FP.blank P z0

theorem State.blankBy_only {P : Place → Prop} {s₀ s : State} (h : OnlyAt P s₀ s) (n : Fin 8) (on : Bool) (hp : FP.blankBy P) :
    OnlyAt P s₀ (State.blankBy s n on) := by
  unfold FP.blankBy at hp
  have p0 := hp
  unfold State.blankBy
  repeat' first
    | with_reducible assumption
    | extract_lets
    | with_reducible apply State.blank_only
    | (with_reducible refine State.each_only ?_ _ _ (fun _ _ _ _ => ?_))
    | with_reducible exact p0 _

abbrev FP.reblank (P : Place → Prop) (c : Fin 48) : Prop :=
    FP.blank P c

theorem State.reblank_only {P : Place → Prop} {s₀ s : State} (h : OnlyAt P s₀ s) (c : Fin 48) (hp : FP.reblank P c) :
    OnlyAt P s₀ (State.reblank s c) := by
  have p0 := hp
  unfold State.reblank
  repeat' first
    | with_reducible assumption
    | extract_lets
    | with_reducible apply OnlyAt.ite
    | with_reducible apply State.blank_only

abbrev FP.modeChanged (P : Place → Prop) (c : Fin 48) : Prop :=
    P (.cmp c)

theorem State.modeChanged_only {P : Place → Prop} {s₀ s : State} (h : OnlyAt P s₀ s) (c : Fin 48) (was : Nat) (hp : FP.modeChanged P c) :
    OnlyAt P s₀ (State.modeChanged s c was) := by
  have p0 := hp
  unfold State.modeChanged
  repeat' first
    | with_reducible assumption
    | extract_lets
    | with_reducible apply OnlyAt.ite
    | with_reducible apply State.modCmp_only

def FP.settled (P : Place → Prop) : Prop :=
    (∀ (z0 : Fin 48), FP.cmpFollow P z0) ∧
    (∀ (y0 : Fin 48), P (.cmp y0))

theorem State.settled_only {P : Place → Prop} {s₀ s : State} (h : OnlyAt P s₀ s)  (hp : FP.settled P) :
    OnlyAt P s₀ (State.settled s) := by
  unfold FP.settled at hp
  obtain ⟨p0, p1⟩ := hp
  unfold State.settled
  repeat' first
    | with_reducible assumption
    | extract_lets
    | with_reducible apply State.cmpFollow_only
    | with_reducible apply State.modCmp_only
    | (with_reducible refine State.each_only ?_ _ _ (fun _ _ _ _ => ?_))
    | with_reducible exact p0 _
    | with_reducible exact p1 _

def FP.inselChanged (P : Place → Prop) (c : Fin 48) : Prop :=
    FP.cmpInput P c ∧
    FP.cmpForget P ↑c

theorem State.inselChanged_only {P : Place → Prop} {s₀ s : State} (h : OnlyAt P s₀ s) (c : Fin 48) (gain : Rat) (hp : FP.inselChanged P c) :
    OnlyAt P s₀ (State.inselChanged s c gain) := by
  unfold FP.inselChanged at hp
  obtain ⟨p0, p1⟩ := hp
  unfold State.inselChanged
  repeat' first
    | with_reducible assumption
    | extract_lets
    | with_reducible apply OnlyAt.ite
    | with_reducible apply State.cmpInput_only
    | with_reducible apply State.cmpForget_only

abbrev FP.scanStep (P : Place → Prop) (x : Fin 2) : Prop :=
    P (.adc x)

theorem State.scanStep_only {P : Place → Prop} {s₀ s : State} (h : OnlyAt P s₀ s) (x : Fin 2) (i : Fin 36) (hp : FP.scanStep P x) :
    OnlyAt P s₀ (State.scanStep s x i) := by
  have p0 := hp
  unfold State.scanStep
  repeat' first
    | with_reducible assumption
    | extract_lets
    | with_reducible apply OnlyAt.ite
    | with_reducible apply State.modAdc_only

def FP.openWindow (P : Place → Prop) : Prop :=
    ∀ (y0 : Fin 2), P (.adc y0)

theorem State.openWindow_only {P : Place → Prop} {s₀ s : State} (h : OnlyAt P s₀ s) (from_ : Rat) (till : Rat) (hp : FP.openWindow P) :
    OnlyAt P s₀ (State.openWindow s from_ till) := by
  unfold FP.openWindow at hp
  have p0 := hp
  unfold State.openWindow
  repeat' first
    | with_reducible assumption
    | extract_lets
    | with_reducible apply State.modAdc_only
    | (with_reducible refine State.each_only ?_ _ _ (fun _ _ _ _ => ?_))
    | with_reducible exact p0 _

def FP.shutWindow (P : Place → Prop) : Prop :=
    ∀ (y0 : Fin 2), P (.adc y0)

theorem State.shutWindow_only {P : Place → Prop} {s₀ s : State} (h : OnlyAt P s₀ s) (from_ : Rat) (hp : FP.shutWindow P) :
    OnlyAt P s₀ (State.shutWindow s from_) := by
  unfold FP.shutWindow at hp
  have p0 := hp
  unfold State.shutWindow
  repeat' first
    | with_reducible assumption
    | extract_lets
    | with_reducible apply State.modAdc_only
    | (with_reducible refine State.each_only ?_ _ _ (fun _ _ _ _ => ?_))
    | with_reducible exact p0 _

def FP.convert (P : Place → Prop) (x : Fin 2) (e : Entry) (res : Nat) : Prop :=
    FP.evt P (ADC_EVT ↑x) ∧
    P (.reg (if e.ch < 32 then ADC_ORNG0 else ADC_ORNG1)) ∧
    FP.openWindow P ∧
    P (.reg (ADC_CNT ↑x)) ∧
    P (.reg res) ∧
    FP.nodeSeen P

theorem State.convert_only {P : Place → Prop} {s₀ s : State} (h : OnlyAt P s₀ s) (x : Fin 2) (e : Entry) (res : Nat) (inp : AdcIn) (t : Rat) (hp : FP.convert P x e res) :
    OnlyAt P s₀ (State.convert s x e res inp t).2.2.2 := by
  unfold FP.convert at hp
  obtain ⟨p0, p1, p2, p3, p4, p5⟩ := hp
  unfold State.convert
  repeat' first
    | with_reducible assumption
    | extract_lets
    | with_reducible apply OnlyAt.ite
    | with_reducible apply State.evt_only
    | with_reducible apply State.setWord_only
    | with_reducible apply State.openWindow_only
    | with_reducible apply State.count_only
    | with_reducible apply State.nodeSeen_only

def FP.owner (P : Place → Prop) (x : Fin 2) : Prop :=
    P (.adc x) ∧
    FP.evt P (ADC_EVT ↑x)

theorem State.owner_only {P : Place → Prop} {s₀ s : State} (h : OnlyAt P s₀ s) (x : Fin 2) (ch : Nat) (q : Nat) (hp : FP.owner P x) :
    OnlyAt P s₀ (State.owner s x ch q).2 := by
  unfold FP.owner at hp
  obtain ⟨p0, p1⟩ := hp
  unfold State.owner
  repeat' first
    | with_reducible assumption
    | extract_lets
    | with_reducible apply OnlyAt.ite
    | with_reducible apply State.modAdc_only
    | with_reducible apply State.evt_only
    | dsimp only
    | split

def FP.tempSample (P : Place → Prop) (k : Fin 2) : Prop :=
    P (.chg k) ∧
    P (.pk k)

theorem State.tempSample_only {P : Place → Prop} {s₀ s : State} (h : OnlyAt P s₀ s) (k : Fin 2) (hp : FP.tempSample P k) :
    OnlyAt P s₀ (State.tempSample s k) := by
  unfold FP.tempSample at hp
  obtain ⟨p0, p1⟩ := hp
  unfold State.tempSample
  repeat' first
    | with_reducible assumption
    | extract_lets
    | with_reducible apply OnlyAt.ite
    | with_reducible apply State.modChg_only
    | with_reducible apply State.modPk_only

def FP.thermistor (P : Place → Prop) (k : Fin 2) : Prop :=
    P (.pk k) ∧
    P (.reg THM_PKT) ∧
    FP.evt P (PK_EVT ↑k) ∧
    FP.tempSample P k ∧
    P (.reg (PK_TPK ↑k)) ∧
    FP.syncElig P k ∧
    FP.gustLoss P k ∧
    FP.syncPack P k

theorem State.thermistor_only {P : Place → Prop} {s₀ s : State} (h : OnlyAt P s₀ s) (k : Fin 2) (second : Bool) (code : Nat)
    (hp : FP.thermistor P k) : OnlyAt P s₀ (State.thermistor s k second code) := by
  unfold FP.thermistor at hp
  obtain ⟨p0, p1, p2, p3, p4, p5, p6, p7⟩ := hp
  unfold State.thermistor
  extract_lets t s1 lo s2 none_ s3 s4 s5 s6
  clear_value t none_ lo
  have e1 : OnlyAt P s₀ s1 := State.modPk_only h _ _ p0
  have e2 : OnlyAt P s₀ s2 := State.setFld_only e1 _ _ p1
  have e3 : OnlyAt P s₀ s3 := OnlyAt.ite (State.evt_only e2 _ p2) e2
  have e4 : OnlyAt P s₀ s4 := State.modPk_only e3 _ _ p0
  have e5 : OnlyAt P s₀ s5 := OnlyAt.ite (State.tempSample_only e4 _ p3) e4
  clear_value s5
  have e6 : OnlyAt P s₀ s6 := by
    unfold s6
    split
    · exact OnlyAt.ite (State.setSfld_only (OnlyAt.ite (State.setOn_only e5 _ _ p4) e5) _ _ p4) e5
    · exact e5
  clear_value s6
  exact State.syncElig_only (State.gustLoss_only (State.syncPack_only e6 _ p7) _ p6) _ p5

def FP.sealOpened (P : Place → Prop) : Prop :=
    P (.reg AUTH_SEAL) ∧
    P .flt ∧
    P .jnl ∧
    FP.evt P JNL_EVT ∧
    FP.wipe P

theorem State.sealOpened_only {P : Place → Prop} {s₀ s : State} (h : OnlyAt P s₀ s) (wiped : Bool) (hp : FP.sealOpened P) :
    OnlyAt P s₀ (State.sealOpened s wiped) := by
  unfold FP.sealOpened at hp
  obtain ⟨p0, p1, p2, p3, p4⟩ := hp
  unfold State.sealOpened
  repeat' first
    | with_reducible assumption
    | extract_lets
    | with_reducible apply OnlyAt.ite
    | with_reducible apply State.count_only
    | with_reducible apply State.setOn_only
    | with_reducible apply State.fault_only
    | with_reducible apply State.journal_only
    | with_reducible apply State.evt_only
    | with_reducible apply State.wipe_only

def FP.sealReading (P : Place → Prop) : Prop :=
    P (.reg AUTH_SEAL) ∧
    P .auth ∧
    FP.sealOpened P

theorem State.sealReading_only {P : Place → Prop} {s₀ s : State} (h : OnlyAt P s₀ s) (r : Nat) (hp : FP.sealReading P) :
    OnlyAt P s₀ (State.sealReading s r) := by
  unfold FP.sealReading at hp
  obtain ⟨p0, p1, p2⟩ := hp
  unfold State.sealReading
  repeat' first
    | with_reducible assumption
    | extract_lets
    | with_reducible apply OnlyAt.ite
    | with_reducible apply State.setFld_only
    | with_reducible apply State.sealOpened_only
    | with_reducible apply State.setOn_only
    | split
    | (with_reducible refine OnlyAt.mk_fields ?_ ?_ ?_ ?_ ?_ ?_ ?_ ?_ ?_ ?_ ?_ ?_ ?_ ?_ ?_ ?_ ?_ ?_ ?_ ?_ ?_ ?_ ?_ ?_ ?_ ?_ ?_ ?_)
    | (with_reducible exact Or.inr (by assumption))
    | with_reducible exact Or.inl rfl

abbrev FP.measure (P : Place → Prop) : Prop :=
    P .meas

theorem State.measure_only {P : Place → Prop} {s₀ s : State} (h : OnlyAt P s₀ s) (ch : Nat) (v : Rat) (use : Bool) (hp : FP.measure P) :
    OnlyAt P s₀ (State.measure s ch v use) := by
  have p0 := hp
  unfold State.measure
  repeat' first
    | with_reducible assumption
    | extract_lets
    | with_reducible apply OnlyAt.ite
    | split
    | (with_reducible refine OnlyAt.mk_fields ?_ ?_ ?_ ?_ ?_ ?_ ?_ ?_ ?_ ?_ ?_ ?_ ?_ ?_ ?_ ?_ ?_ ?_ ?_ ?_ ?_ ?_ ?_ ?_ ?_ ?_ ?_ ?_)
    | (with_reducible exact Or.inr (by assumption))
    | with_reducible exact Or.inl rfl

def FP.served (P : Place → Prop) (x : Fin 2) (e : Entry) : Prop :=
    P .meas ∧
    FP.owner P x ∧
    (∀ (y0 : Fin 4), P (.feed y0)) ∧
    P .chgg ∧
    FP.packSample P (if e.ch = 13 then 0 else 1) ∧
    FP.chgSample P (if e.ch = 13 then 0 else 1) ∧
    FP.thermistor P (if e.ch < 33 then 0 else 1) ∧
    FP.sealReading P

theorem State.served_only {P : Place → Prop} {s₀ s : State} (h : OnlyAt P s₀ s) (x : Fin 2) (e : Entry) (q : Nat) (code : Nat) (v : Rat) (hp : FP.served P x e) :
    OnlyAt P s₀ (State.served s x e q code v) := by
  unfold FP.served at hp
  obtain ⟨p0, p1, p2, p3, p4, p5, p6, p7⟩ := hp
  unfold State.served
  repeat' first
    | with_reducible assumption
    | extract_lets
    | with_reducible apply OnlyAt.ite
    | with_reducible apply State.owner_only
    | with_reducible apply State.measure_only
    | with_reducible apply State.modFeed_only
    | with_reducible apply State.busSample_only
    | with_reducible apply State.packSample_only
    | with_reducible apply State.chgSample_only
    | with_reducible apply State.thermistor_only
    | with_reducible apply State.sealReading_only
    | (with_reducible refine OnlyAt.of_snd (by assumption) ?_)
    | with_reducible exact p2 _
    | split
    | (with_reducible refine OnlyAt.mk_fields ?_ ?_ ?_ ?_ ?_ ?_ ?_ ?_ ?_ ?_ ?_ ?_ ?_ ?_ ?_ ?_ ?_ ?_ ?_ ?_ ?_ ?_ ?_ ?_ ?_ ?_ ?_ ?_)
    | (with_reducible exact Or.inr (by assumption))
    | with_reducible exact Or.inl rfl

def FP.untake (P : Place → Prop) (x : Fin 2) : Prop :=
    P .meas ∧
    P (.adc x) ∧
    (∀ (y0 : Fin 4), P (.feed y0)) ∧
    P .chgg

theorem State.untake_only {P : Place → Prop} {s₀ s : State} (h : OnlyAt P s₀ s) (x : Fin 2) (e : Entry) (k : Taken) (hp : FP.untake P x) :
    OnlyAt P s₀ (State.untake s x e k) := by
  unfold FP.untake at hp
  obtain ⟨p0, p1, p2, p3⟩ := hp
  unfold State.untake
  repeat' first
    | with_reducible assumption
    | extract_lets
    | with_reducible apply OnlyAt.ite
    | with_reducible apply State.modAdc_only
    | with_reducible apply State.modFeed_only
    | with_reducible exact p2 _
    | split
    | (with_reducible refine OnlyAt.mk_fields ?_ ?_ ?_ ?_ ?_ ?_ ?_ ?_ ?_ ?_ ?_ ?_ ?_ ?_ ?_ ?_ ?_ ?_ ?_ ?_ ?_ ?_ ?_ ?_ ?_ ?_ ?_ ?_)
    | (with_reducible exact Or.inr (by assumption))
    | with_reducible exact Or.inl rfl

def FP.convertEntry (P : Place → Prop) (x : Fin 2) (i : Fin 32) (e : Entry) : Prop :=
    P (.reg (ADC_STAT ↑x)) ∧
    FP.convert P x e (ADC_RES ↑x ↑i) ∧
    P (.adc x) ∧
    FP.served P x e

theorem State.convertEntry_only {P : Place → Prop} {s₀ s : State} (h : OnlyAt P s₀ s) (x : Fin 2) (i : Fin 32) (e : Entry) (inp : AdcIn) (t : Rat) (serve : Bool) (hp : FP.convertEntry P x i e) :
    OnlyAt P s₀ (State.convertEntry s x i e inp t serve).2 := by
  unfold FP.convertEntry at hp
  obtain ⟨p0, p1, p2, p3⟩ := hp
  unfold State.convertEntry
  repeat' first
    | with_reducible assumption
    | extract_lets
    | with_reducible apply OnlyAt.ite
    | with_reducible apply State.setFld_only
    | with_reducible apply State.convert_only
    | with_reducible apply State.modAdc_only
    | with_reducible apply State.served_only

def FP.runEntry (P : Place → Prop) (x : Fin 2) (i : Fin 32) : Prop :=
    (∀ (z0 : Entry), FP.convertEntry P x i z0) ∧
    FP.scanStep P x ∧
    P (.adc x)

theorem State.runEntry_only {P : Place → Prop} {s₀ s : State} (h : OnlyAt P s₀ s) (x : Fin 2) (i : Fin 32) (inp : AdcIn) (t : Rat) (hp : FP.runEntry P x i) :
    OnlyAt P s₀ (State.runEntry s x i inp t).2 := by
  unfold FP.runEntry at hp
  obtain ⟨p0, p1, p2⟩ := hp
  unfold State.runEntry
  repeat' first
    | with_reducible assumption
    | extract_lets
    | with_reducible apply State.convertEntry_only
    | with_reducible apply State.scanStep_only
    | with_reducible apply State.modAdc_only
    | (with_reducible refine OnlyAt.of_snd (by assumption) ?_)
    | with_reducible exact p0 _

def FP.adcTick (P : Place → Prop) (x : Fin 2) : Prop :=
    FP.evt P (ADC_EVT ↑x) ∧
    P (.reg (ADC_CNT ↑x)) ∧
    P (.reg (ADC_STAT ↑x)) ∧
    P (.adc x) ∧
    (∀ (z0 : Fin 32), FP.runEntry P x z0) ∧
    FP.sourceEdge P

theorem State.adcTick_only {P : Place → Prop} {s₀ s : State} (h : OnlyAt P s₀ s) (x : Fin 2) (inp : AdcIn) (t : Rat)
    (hp : FP.adcTick P x) : OnlyAt P s₀ (State.adcTick s x inp t) := by
  unfold FP.adcTick at hp
  obtain ⟨p0, p1, p2, p3, p4, p5⟩ := hp
  have run : ∀ (l : List (Fin 32)) (p : Rat × State), OnlyAt P s₀ p.2 →
      OnlyAt P s₀ (l.foldl (fun (p : Rat × State) e => p.2.runEntry x e inp p.1) p).2 := by
    intro l
    induction l with
    | nil => exact fun _ hp => hp
    | cons e l ih => exact fun p hp => ih _ (State.runEntry_only hp _ _ _ _ (p4 _))
  unfold State.adcTick
  extract_lets a late start pass s1 s2 ready l
  split
  · exact h
  · split
    · exact State.evt_only (State.count_only h _ p1) _ p0
    · have e2 : OnlyAt P s₀ s2 := State.modAdc_only (State.setFld_only h _ _ p2) _ _ p3
      exact State.sourceEdge_only (State.modAdc_only (run l (start, s2) e2) _ _ p3) _ p5

def FP.discardRun (P : Place → Prop) (x : Fin 2) (r : AdcRun) : Prop :=
    P (.reg (ADC_CNT ↑x)) ∧
    P (.reg (ADC_RES ↑x ↑r.i)) ∧
    FP.shutWindow P ∧
    FP.untake P x

theorem State.discardRun_only {P : Place → Prop} {s₀ s : State} (h : OnlyAt P s₀ s) (x : Fin 2) (t : Rat) (r : AdcRun) (hp : FP.discardRun P x r) :
    OnlyAt P s₀ (State.discardRun s x t r) := by
  unfold FP.discardRun at hp
  obtain ⟨p0, p1, p2, p3⟩ := hp
  unfold State.discardRun
  repeat' first
    | with_reducible assumption
    | extract_lets
    | with_reducible apply OnlyAt.ite
    | with_reducible apply State.setFld_only
    | with_reducible apply State.setWord_only
    | with_reducible apply State.shutWindow_only
    | with_reducible apply State.untake_only
    | split

def FP.resume (P : Place → Prop) (x : Fin 2) : Prop :=
    (∀ (z0 : AdcRun), FP.discardRun P x z0) ∧
    P (.adc x) ∧
    (∀ (z0 : Fin 32) (z1 : Entry), FP.convertEntry P x z0 z1)

theorem State.resume_only {P : Place → Prop} {s₀ s : State} (h : OnlyAt P s₀ s) (x : Fin 2) (inp : AdcIn) (t at_ : Rat)
    (hp : FP.resume P x) : OnlyAt P s₀ (State.resume s x inp t at_) := by
  unfold FP.resume at hp
  obtain ⟨p0, p1, p2⟩ := hp
  have run : ∀ (l : List AdcRun) (p : Rat × State), OnlyAt P s₀ p.2 →
      OnlyAt P s₀ (l.foldl (fun (p : Rat × State) r =>
        p.2.convertEntry x r.i r.e inp p.1 (decide (r.i.val < 16) && r.was.isSome)) p).2 := by
    intro l
    induction l with
    | nil => exact fun _ hp => hp
    | cons e l ih => exact fun p hp => ih _ (State.convertEntry_only hp _ _ _ _ _ _ (p2 _ _))
  unfold State.resume
  extract_lets l s1 s2
  have e1 : OnlyAt P s₀ s1 := State.each_only h _ _ (fun _ _ _ ht => State.discardRun_only ht _ _ _ (p0 _))
  have e2 : OnlyAt P s₀ s2 := State.modAdc_only e1 _ _ p1
  exact State.modAdc_only (run l (at_, s2) e2) _ _ p1

def FP.inject (P : Place → Prop) (x : Fin 2) (k : Fin 4) (e : Entry) : Prop :=
    P (.reg (ADC_CNT ↑x)) ∧
    FP.shutWindow P ∧
    FP.convert P x e (ADC_INJR ↑x ↑k) ∧
    FP.scanStep P x ∧
    P (.adc x) ∧
    (∀ (z0 : Entry) (z1 : Fin 4), FP.convert P x z0 (ADC_INJR ↑x ↑z1)) ∧
    FP.resume P x

theorem State.inject_only {P : Place → Prop} {s₀ s : State} (h : OnlyAt P s₀ s) (x : Fin 2) (k : Fin 4) (e : Entry)
    (inp : AdcIn) (t : Rat) (hp : FP.inject P x k e) : OnlyAt P s₀ (State.inject s x k e inp t).2.2 := by
  unfold FP.inject at hp
  obtain ⟨p0, p1, p2, p3, p4, p5, p6⟩ := hp
  unfold State.inject
  extract_lets a dev cut start flying s1 s2
  clear_value cut start flying
  have e1 : OnlyAt P s₀ s1 := OnlyAt.ite (State.count_only h _ p0) h
  have e2 : OnlyAt P s₀ s2 := by
    unfold s2
    split
    · exact OnlyAt.ite (State.shutWindow_only e1 _ p1) e1
    · exact e1
  split
  next q w v s3 hq =>
    have e3 : OnlyAt P s₀ s3 := OnlyAt.of_snd3 hq (State.convert_only e2 _ _ _ _ _ p2)
    extract_lets
    rename_i stop s4 s5 s6
    have e5 : OnlyAt P s₀ s5 := State.modAdc_only (State.scanStep_only e3 _ _ p3) _ _ p4
    have e6 : OnlyAt P s₀ s6 := by
      unfold s6
      split
      · exact State.modAdc_only (State.convert_only e5 _ _ _ _ _ (p5 _ _)) _ _ p4
      · exact e5
    exact State.resume_only e6 _ _ _ _ p6

def FP.injectAmp (P : Place → Prop) (k : Fin 2) : Prop :=
    (∀ (z0 : Entry), FP.inject P 0 (⟨↑k, by omega⟩) z0) ∧
    FP.owner P 0 ∧
    P (.php k) ∧
    (∀ (z0 : Fin 16), FP.ampSample P z0)

theorem State.injectAmp_only {P : Place → Prop} {s₀ s : State} (h : OnlyAt P s₀ s) (k : Fin 2) (e : Entry) (inp : AdcIn) (t : Rat) (hp : FP.injectAmp P k) :
    OnlyAt P s₀ (State.injectAmp s k e inp t) := by
  unfold FP.injectAmp at hp
  obtain ⟨p0, p1, p2, p3⟩ := hp
  unfold State.injectAmp
  repeat' first
    | with_reducible assumption
    | extract_lets
    | with_reducible apply OnlyAt.ite
    | with_reducible apply State.inject_only
    | with_reducible apply State.owner_only
    | with_reducible apply State.modPhp_only
    | with_reducible apply State.ampSample_only
    | (with_reducible refine OnlyAt.of_snd (by assumption) ?_)
    | (with_reducible refine OnlyAt.of_snd2 (by assumption) ?_)
    | with_reducible exact p0 _
    | with_reducible exact p3 _
    | split

def FP.injectPack (P : Place → Prop) (k : Fin 2) (e : Entry) : Prop :=
    FP.inject P 1 (⟨↑k, by omega⟩) e ∧
    FP.lockIn P k

theorem State.injectPack_only {P : Place → Prop} {s₀ s : State} (h : OnlyAt P s₀ s) (k : Fin 2) (e : Entry) (inp : AdcIn) (pair : Int) (t : Rat) (hp : FP.injectPack P k e) :
    OnlyAt P s₀ (State.injectPack s k e inp pair t) := by
  unfold FP.injectPack at hp
  obtain ⟨p0, p1⟩ := hp
  unfold State.injectPack
  repeat' first
    | with_reducible assumption
    | extract_lets
    | with_reducible apply State.inject_only
    | with_reducible apply State.lockIn_only
    | (with_reducible refine OnlyAt.of_snd2 (by assumption) ?_)
    | split

def FP.trigger (P : Place → Prop) : Prop :=
    FP.sourceEdge P ∧
    (∀ (z0 : Fin 2), FP.evt P (ADC_EVT ↑z0)) ∧
    (∀ (y0 : Fin 2), P (.reg (ADC_CNT ↑y0))) ∧
    (∀ (y0 : Fin 2), P (.adc y0))

theorem State.trigger_only {P : Place → Prop} {s₀ s : State} (h : OnlyAt P s₀ s) (n : Fin 8) (hp : FP.trigger P) :
    OnlyAt P s₀ (State.trigger s n) := by
  unfold FP.trigger at hp
  obtain ⟨p0, p1, p2, p3⟩ := hp
  unfold State.trigger
  repeat' first
    | with_reducible assumption
    | extract_lets
    | with_reducible apply OnlyAt.ite
    | with_reducible apply State.sourceEdge_only
    | with_reducible apply State.evt_only
    | with_reducible apply State.count_only
    | with_reducible apply State.modAdc_only
    | (with_reducible refine State.each_only ?_ _ _ (fun _ _ _ _ => ?_))
    | with_reducible exact p1 _
    | with_reducible exact p2 _
    | with_reducible exact p3 _

abbrev FP.disarm (P : Place → Prop) (x : Fin 2) : Prop :=
    P (.adc x)

theorem State.disarm_only {P : Place → Prop} {s₀ s : State} (h : OnlyAt P s₀ s) (x : Fin 2) (e : Nat) (hp : FP.disarm P x) :
    OnlyAt P s₀ (State.disarm s x e) := by
  have p0 := hp
  unfold State.disarm
  repeat' first
    | with_reducible assumption
    | extract_lets
    | with_reducible apply OnlyAt.ite
    | with_reducible apply State.modAdc_only

def FP.refFall (P : Place → Prop) (x : Fin 2) : Prop :=
    P .flt ∧
    FP.evt P (ADC_EVT ↑x) ∧
    P (.reg (ADC_STAT ↑x))

theorem State.refFall_only {P : Place → Prop} {s₀ s : State} (h : OnlyAt P s₀ s) (x : Fin 2) (hp : FP.refFall P x) :
    OnlyAt P s₀ (State.refFall s x) := by
  unfold FP.refFall at hp
  obtain ⟨p0, p1, p2⟩ := hp
  unfold State.refFall
  repeat' first
    | with_reducible assumption
    | extract_lets
    | with_reducible apply State.fault_only
    | with_reducible apply State.evt_only
    | with_reducible apply State.setOn_only
    | with_reducible apply State.setFld_only

def FP.noRef (P : Place → Prop) (x : Fin 2) : Prop :=
    (∀ (y0 : Fin 32), P (.reg (ADC_RES ↑x ↑y0))) ∧
    (∀ (z0 : Entry), FP.served P x z0) ∧
    FP.untake P x

theorem State.noRef_only {P : Place → Prop} {s₀ s : State} (h : OnlyAt P s₀ s) (x : Fin 2) (hp : FP.noRef P x) :
    OnlyAt P s₀ (State.noRef s x) := by
  unfold FP.noRef at hp
  obtain ⟨p0, p1, p2⟩ := hp
  unfold State.noRef
  repeat' first
    | with_reducible assumption
    | extract_lets
    | with_reducible apply OnlyAt.ite
    | with_reducible apply State.setFld_only
    | with_reducible apply State.served_only
    | with_reducible apply State.untake_only
    | with_reducible exact p0 _
    | with_reducible exact p1 _
    | split

abbrev FP.refSelect (P : Place → Prop) (x : Fin 2) : Prop :=
    P (.reg (ADC_STAT ↑x))

theorem State.refSelect_only {P : Place → Prop} {s₀ s : State} (h : OnlyAt P s₀ s) (x : Fin 2) (hp : FP.refSelect P x) :
    OnlyAt P s₀ (State.refSelect s x) := by
  have p0 := hp
  unfold State.refSelect
  repeat' first
    | with_reducible assumption
    | extract_lets
    | with_reducible apply State.setOn_only
    | with_reducible apply State.setFld_only

end Sys2Proof.Machine
end

