-- ==== Sys2Proof/Laws/OnlyTimer.lean ====
section
/-! SUPPORT. What each operation of Machine/Timer.lean may change: `FP.x` says that its places lie in `P`. -/

namespace Sys2Proof.Machine

def FP.setBlk (P : Place → Prop) (n : Fin 8) : Prop :=
    FP.blankBy P ∧
    P (.tmr n)

theorem State.setBlk_only {P : Place → Prop} {s₀ s : State} (h : OnlyAt P s₀ s) (n : Fin 8) (b : Bool) (hp : FP.setBlk P n) :
    OnlyAt P s₀ (State.setBlk s n b) := by
  unfold FP.setBlk at hp
  obtain ⟨p0, p1⟩ := hp
  unfold State.setBlk
  repeat' first
    | with_reducible assumption
    | extract_lets
    | with_reducible apply OnlyAt.ite
    | with_reducible apply State.blankBy_only
    | with_reducible apply State.modTmr_only

def FP.tmrRise (P : Place → Prop) (n : Fin 8) : Prop :=
    P (.tmr n) ∧
    FP.trigger P

theorem State.tmrRise_only {P : Place → Prop} {s₀ s : State} (h : OnlyAt P s₀ s) (n : Fin 8) (hp : FP.tmrRise P n) :
    OnlyAt P s₀ (State.tmrRise s n) := by
  unfold FP.tmrRise at hp
  obtain ⟨p0, p1⟩ := hp
  unfold State.tmrRise
  repeat' first
    | with_reducible assumption
    | extract_lets
    | with_reducible apply OnlyAt.ite
    | with_reducible apply State.modTmr_only
    | with_reducible apply State.trigger_only

def FP.tmrStep (P : Place → Prop) (n : Fin 8) : Prop :=
    P (.tmr n) ∧
    P (.reg (TMR_CNT ↑n)) ∧
    FP.setFlags P (TMR_EVT ↑n) ∧
    P (.reg (TMR_CTL ↑n)) ∧
    FP.setBlk P n ∧
    FP.trigger P

theorem State.tmrStep_only {P : Place → Prop} {s₀ s : State} (h : OnlyAt P s₀ s) (n : Fin 8) (hp : FP.tmrStep P n) :
    OnlyAt P s₀ (State.tmrStep s n) := by
  unfold FP.tmrStep at hp
  obtain ⟨p0, p1, p2, p3, p4, p5⟩ := hp
  unfold State.tmrStep
  repeat' first
    | with_reducible assumption
    | extract_lets
    | with_reducible apply OnlyAt.ite
    | with_reducible apply State.modTmr_only
    | with_reducible apply State.setFld_only
    | with_reducible apply State.setFlags_only
    | with_reducible apply State.setOn_only
    | with_reducible apply State.setBlk_only
    | with_reducible apply State.trigger_only
    | (with_reducible refine State.each_only ?_ _ _ (fun _ _ _ _ => ?_))

abbrev FP.ccrRead (P : Place → Prop) (n : Fin 8) : Prop :=
    P (.tmr n)

theorem State.ccrRead_only {P : Place → Prop} {s₀ s : State} (h : OnlyAt P s₀ s) (n : Fin 8) (c : Fin 4) (hp : FP.ccrRead P n) :
    OnlyAt P s₀ (State.ccrRead s n c).2 := by
  have p0 := hp
  unfold State.ccrRead
  repeat' first
    | with_reducible assumption
    | extract_lets
    | with_reducible apply OnlyAt.ite
    | with_reducible apply State.modTmr_only
    | dsimp only
    | split

def FP.cntWrite (P : Place → Prop) (n : Fin 8) : Prop :=
    P (.tmr n) ∧
    P (.reg (TMR_CNT ↑n))

theorem State.cntWrite_only {P : Place → Prop} {s₀ s : State} (h : OnlyAt P s₀ s) (n : Fin 8) (v : Word) (hp : FP.cntWrite P n) :
    OnlyAt P s₀ (State.cntWrite s n v) := by
  unfold FP.cntWrite at hp
  obtain ⟨p0, p1⟩ := hp
  unfold State.cntWrite
  repeat' first
    | with_reducible assumption
    | extract_lets
    | with_reducible apply State.modTmr_only
    | with_reducible apply State.setWord_only

def FP.ccrWrite (P : Place → Prop) (n : Fin 8) (c : Fin 4) : Prop :=
    P (.reg (TMR_CCR ↑n ↑c)) ∧
    FP.setFlags P (TMR_EVT ↑n)

theorem State.ccrWrite_only {P : Place → Prop} {s₀ s : State} (h : OnlyAt P s₀ s) (n : Fin 8) (c : Fin 4) (v : Word) (hp : FP.ccrWrite P n c) :
    OnlyAt P s₀ (State.ccrWrite s n c v) := by
  unfold FP.ccrWrite at hp
  obtain ⟨p0, p1⟩ := hp
  unfold State.ccrWrite
  repeat' first
    | with_reducible assumption
    | extract_lets
    | with_reducible apply OnlyAt.ite
    | with_reducible apply State.setWord_only
    | with_reducible apply State.setFlags_only

def FP.ctlWritten (P : Place → Prop) (n : Fin 8) : Prop :=
    FP.tmrRise P n ∧
    FP.setBlk P n

theorem State.ctlWritten_only {P : Place → Prop} {s₀ s : State} (h : OnlyAt P s₀ s) (n : Fin 8) (was : Bool) (hp : FP.ctlWritten P n) :
    OnlyAt P s₀ (State.ctlWritten s n was) := by
  unfold FP.ctlWritten at hp
  obtain ⟨p0, p1⟩ := hp
  unfold State.ctlWritten
  repeat' first
    | with_reducible assumption
    | extract_lets
    | with_reducible apply OnlyAt.ite
    | with_reducible apply State.tmrRise_only
    | with_reducible apply State.setBlk_only

def FP.timeWrap (P : Place → Prop) : Prop :=
    P (.reg DEVTIME_EPOCH) ∧
    P .devtime ∧
    P .jnl

theorem State.timeWrap_only {P : Place → Prop} {s₀ s : State} (h : OnlyAt P s₀ s)  (hp : FP.timeWrap P) :
    OnlyAt P s₀ (State.timeWrap s) := by
  unfold FP.timeWrap at hp
  obtain ⟨p0, p1, p2⟩ := hp
  unfold State.timeWrap
  repeat' first
    | with_reducible assumption
    | extract_lets
    | with_reducible apply State.count_only
    | with_reducible apply State.jevent_only
    | split
    | (with_reducible refine OnlyAt.mk_fields ?_ ?_ ?_ ?_ ?_ ?_ ?_ ?_ ?_ ?_ ?_ ?_ ?_ ?_ ?_ ?_ ?_ ?_ ?_ ?_ ?_ ?_ ?_ ?_ ?_ ?_ ?_ ?_)
    | (with_reducible exact Or.inr (by assumption))
    | with_reducible exact Or.inl rfl

def FP.timeTick (P : Place → Prop) : Prop :=
    FP.settled P ∧
    FP.timeWrap P ∧
    P .devtime

theorem State.timeTick_only {P : Place → Prop} {s₀ s : State} (h : OnlyAt P s₀ s)  (hp : FP.timeTick P) :
    OnlyAt P s₀ (State.timeTick s) := by
  unfold FP.timeTick at hp
  obtain ⟨p0, p1, p2⟩ := hp
  unfold State.timeTick
  repeat' first
    | with_reducible assumption
    | extract_lets
    | with_reducible apply OnlyAt.ite
    | with_reducible apply State.settled_only
    | with_reducible apply State.timeWrap_only
    | split
    | (with_reducible refine OnlyAt.mk_fields ?_ ?_ ?_ ?_ ?_ ?_ ?_ ?_ ?_ ?_ ?_ ?_ ?_ ?_ ?_ ?_ ?_ ?_ ?_ ?_ ?_ ?_ ?_ ?_ ?_ ?_ ?_ ?_)
    | (with_reducible exact Or.inr (by assumption))
    | with_reducible exact Or.inl rfl

end Sys2Proof.Machine
end

