-- ==== Sys2Proof/Laws/OnlyRings.lean ====
section
/-! SUPPORT. What each operation of Machine/Rings.lean may change: `FP.x` says that its places lie in `P`. -/

namespace Sys2Proof.Machine

def FP.dropTaken (P : Place → Prop) (n : Fin 64) : Prop :=
    P (.ring n) ∧
    P .hif

theorem State.dropTaken_only {P : Place → Prop} {s₀ s : State} (h : OnlyAt P s₀ s) (n : Fin 64) (hp : FP.dropTaken P n) :
    OnlyAt P s₀ (State.dropTaken s n) := by
  unfold FP.dropTaken at hp
  obtain ⟨p0, p1⟩ := hp
  unfold State.dropTaken
  repeat' first
    | with_reducible assumption
    | extract_lets
    | with_reducible apply OnlyAt.ite
    | with_reducible apply State.modRing_only
    | split
    | (with_reducible refine OnlyAt.mk_fields ?_ ?_ ?_ ?_ ?_ ?_ ?_ ?_ ?_ ?_ ?_ ?_ ?_ ?_ ?_ ?_ ?_ ?_ ?_ ?_ ?_ ?_ ?_ ?_ ?_ ?_ ?_ ?_)
    | (with_reducible exact Or.inr (by assumption))
    | with_reducible exact Or.inl rfl

def FP.noPost (P : Place → Prop) (n : Fin 64) : Prop :=
    P (.ring n) ∧
    P .hif

theorem State.noPost_only {P : Place → Prop} {s₀ s : State} (h : OnlyAt P s₀ s) (n : Fin 64) (hp : FP.noPost P n) :
    OnlyAt P s₀ (State.noPost s n) := by
  unfold FP.noPost at hp
  obtain ⟨p0, p1⟩ := hp
  unfold State.noPost
  repeat' first
    | with_reducible assumption
    | extract_lets
    | with_reducible apply OnlyAt.ite
    | with_reducible apply State.modRing_only
    | split
    | (with_reducible refine OnlyAt.mk_fields ?_ ?_ ?_ ?_ ?_ ?_ ?_ ?_ ?_ ?_ ?_ ?_ ?_ ?_ ?_ ?_ ?_ ?_ ?_ ?_ ?_ ?_ ?_ ?_ ?_ ?_ ?_ ?_)
    | (with_reducible exact Or.inr (by assumption))
    | with_reducible exact Or.inl rfl

def FP.haltRing (P : Place → Prop) (n : Fin 64) : Prop :=
    P (.reg (HIF_STAT ↑n)) ∧
    FP.noPost P n ∧
    FP.dropTaken P n

theorem State.haltRing_only {P : Place → Prop} {s₀ s : State} (h : OnlyAt P s₀ s) (n : Fin 64) (err : Nat) (hp : FP.haltRing P n) :
    OnlyAt P s₀ (State.haltRing s n err) := by
  unfold FP.haltRing at hp
  obtain ⟨p0, p1, p2⟩ := hp
  unfold State.haltRing
  repeat' first
    | with_reducible assumption
    | extract_lets
    | with_reducible apply State.setFld_only
    | with_reducible apply State.noPost_only
    | with_reducible apply State.dropTaken_only

def FP.consumeRuns (P : Place → Prop) (n : Fin 64) : Prop :=
    P (.reg (HIF_STAT ↑n)) ∧
    P (.ring n)

theorem State.consumeRuns_only {P : Place → Prop} (n : Fin 64) (fuel : Nat) {s₀ s : State} (h : OnlyAt P s₀ s)
    (hp : FP.consumeRuns P n) : OnlyAt P s₀ (State.consumeRuns n fuel s) := by
  obtain ⟨p0, p1⟩ := hp
  induction fuel generalizing s with
  | zero => exact h
  | succ m ih =>
    unfold State.consumeRuns
    extract_lets idx head have_
    split
    split
    · exact h
    · exact ih (State.modRing_only (State.setFld_only h _ _ p0) _ _ p1)

def FP.consume (P : Place → Prop) (n : Fin 64) : Prop :=
    FP.flush P n ∧
    FP.consumeRuns P n

theorem State.consume_only {P : Place → Prop} {s₀ s : State} (h : OnlyAt P s₀ s) (n : Fin 64) (hp : FP.consume P n) :
    OnlyAt P s₀ (State.consume s n) := by
  unfold FP.consume at hp
  obtain ⟨p0, p1⟩ := hp
  unfold State.consume
  repeat' first
    | with_reducible assumption
    | extract_lets
    | with_reducible apply State.flush_only
    | with_reducible apply State.consumeRuns_only

abbrev FP.startFetch (P : Place → Prop) (n : Fin 64) : Prop :=
    P (.ring n)

theorem State.startFetch_only {P : Place → Prop} {s₀ s : State} (h : OnlyAt P s₀ s) (n : Fin 64) (hp : FP.startFetch P n) :
    OnlyAt P s₀ (State.startFetch s n) := by
  have p0 := hp
  unfold State.startFetch
  repeat' first
    | with_reducible assumption
    | extract_lets
    | with_reducible apply OnlyAt.ite
    | with_reducible apply State.modRing_only

def FP.startFetches (P : Place → Prop) : Prop :=
    ∀ (z0 : Fin 64), FP.startFetch P z0

theorem State.startFetches_only {P : Place → Prop} {s₀ s : State} (h : OnlyAt P s₀ s)  (hp : FP.startFetches P) :
    OnlyAt P s₀ (State.startFetches s) := by
  unfold FP.startFetches at hp
  have p0 := hp
  unfold State.startFetches
  repeat' first
    | with_reducible assumption
    | extract_lets
    | with_reducible apply State.startFetch_only
    | (with_reducible refine State.each_only ?_ _ _ (fun _ _ _ _ => ?_))
    | with_reducible exact p0 _

def FP.latchHalf (P : Place → Prop) (n : Fin 64) : Prop :=
    P (.reg (HIF_CNT ↑n)) ∧
    P (.ring n)

theorem State.latchHalf_only {P : Place → Prop} {s₀ s : State} (h : OnlyAt P s₀ s) (n : Fin 64) (i : Nat) (newly : List Nat) (hp : FP.latchHalf P n) :
    OnlyAt P s₀ (State.latchHalf s n i newly) := by
  unfold FP.latchHalf at hp
  obtain ⟨p0, p1⟩ := hp
  unfold State.latchHalf
  repeat' first
    | with_reducible assumption
    | extract_lets
    | with_reducible apply OnlyAt.ite
    | with_reducible apply State.count_only
    | with_reducible apply State.modRing_only

def FP.freshRing (P : Place → Prop) (n : Fin 64) : Prop :=
    P (.ring n) ∧
    P .hif

theorem State.freshRing_only {P : Place → Prop} {s₀ s : State} (h : OnlyAt P s₀ s) (n : Fin 64) (hp : FP.freshRing P n) :
    OnlyAt P s₀ (State.freshRing s n) := by
  unfold FP.freshRing at hp
  obtain ⟨p0, p1⟩ := hp
  unfold State.freshRing
  repeat' first
    | with_reducible assumption
    | extract_lets
    | with_reducible apply OnlyAt.ite
    | with_reducible apply State.modRing_only
    | split
    | (with_reducible refine OnlyAt.mk_fields ?_ ?_ ?_ ?_ ?_ ?_ ?_ ?_ ?_ ?_ ?_ ?_ ?_ ?_ ?_ ?_ ?_ ?_ ?_ ?_ ?_ ?_ ?_ ?_ ?_ ?_ ?_ ?_)
    | (with_reducible exact Or.inr (by assumption))
    | with_reducible exact Or.inl rfl

abbrev FP.dropUnsolicited (P : Place → Prop) (n : Fin 64) : Prop :=
    P (.ring n)

theorem State.dropUnsolicited_only {P : Place → Prop} {s₀ s : State} (h : OnlyAt P s₀ s) (n : Fin 64) (hp : FP.dropUnsolicited P n) :
    OnlyAt P s₀ (State.dropUnsolicited s n) := by
  have p0 := hp
  unfold State.dropUnsolicited
  repeat' first
    | with_reducible assumption
    | extract_lets
    | with_reducible apply State.modRing_only

def FP.enChanged (P : Place → Prop) (n : Fin 64) : Prop :=
    FP.freshRing P n ∧
    FP.noPost P n ∧
    FP.dropTaken P n ∧
    P (.reg (HIF_CQP ↑n)) ∧
    P (.reg (HIF_STAT ↑n)) ∧
    P .hif ∧
    FP.dropUnsolicited P n ∧
    P .fc

theorem State.enChanged_only {P : Place → Prop} {s₀ s : State} (h : OnlyAt P s₀ s) (n : Fin 64) (was : Bool) (hp : FP.enChanged P n) :
    OnlyAt P s₀ (State.enChanged s n was) := by
  unfold FP.enChanged at hp
  obtain ⟨p0, p1, p2, p3, p4, p5, p6, p7⟩ := hp
  unfold State.enChanged
  repeat' first
    | with_reducible assumption
    | extract_lets
    | with_reducible apply OnlyAt.ite
    | with_reducible apply State.freshRing_only
    | with_reducible apply State.noPost_only
    | with_reducible apply State.dropTaken_only
    | with_reducible apply State.setWord_only
    | with_reducible apply State.setFld_only
    | with_reducible apply State.dropUnsolicited_only
    | with_reducible apply State.modFc_only
    | split
    | (with_reducible refine OnlyAt.mk_fields ?_ ?_ ?_ ?_ ?_ ?_ ?_ ?_ ?_ ?_ ?_ ?_ ?_ ?_ ?_ ?_ ?_ ?_ ?_ ?_ ?_ ?_ ?_ ?_ ?_ ?_ ?_ ?_)
    | (with_reducible exact Or.inr (by assumption))
    | with_reducible exact Or.inl rfl

def FP.ringMessage (P : Place → Prop) (n : Fin 64) : Prop :=
    P (.ring n) ∧
    FP.msix P

theorem State.ringMessage_only {P : Place → Prop} {s₀ s : State} (h : OnlyAt P s₀ s) (n : Fin 64) (hp : FP.ringMessage P n) :
    OnlyAt P s₀ (State.ringMessage s n) := by
  unfold FP.ringMessage at hp
  obtain ⟨p0, p1⟩ := hp
  unfold State.ringMessage
  repeat' first
    | with_reducible assumption
    | extract_lets
    | with_reducible apply State.modRing_only
    | with_reducible apply State.msix_only

def FP.countEntry (P : Place → Prop) (n : Fin 64) : Prop :=
    P (.ring n) ∧
    FP.ringMessage P n

theorem State.countEntry_only {P : Place → Prop} {s₀ s : State} (h : OnlyAt P s₀ s) (n : Fin 64) (c : Compl) (hp : FP.countEntry P n) :
    OnlyAt P s₀ (State.countEntry s n c) := by
  unfold FP.countEntry at hp
  obtain ⟨p0, p1⟩ := hp
  unfold State.countEntry
  repeat' first
    | with_reducible assumption
    | extract_lets
    | with_reducible apply OnlyAt.ite
    | with_reducible apply State.modRing_only
    | with_reducible apply State.ringMessage_only

def FP.drainRelease (P : Place → Prop) : Prop :=
    P .hif ∧
    P .jnl

theorem State.drainRelease_only {P : Place → Prop} {s₀ s : State} (h : OnlyAt P s₀ s) (c : Compl) (hp : FP.drainRelease P) :
    OnlyAt P s₀ (State.drainRelease s c) := by
  unfold FP.drainRelease at hp
  obtain ⟨p0, p1⟩ := hp
  unfold State.drainRelease
  repeat' first
    | with_reducible assumption
    | extract_lets
    | with_reducible apply OnlyAt.ite
    | with_reducible apply State.release_only
    | split
    | (with_reducible refine OnlyAt.mk_fields ?_ ?_ ?_ ?_ ?_ ?_ ?_ ?_ ?_ ?_ ?_ ?_ ?_ ?_ ?_ ?_ ?_ ?_ ?_ ?_ ?_ ?_ ?_ ?_ ?_ ?_ ?_ ?_)
    | (with_reducible exact Or.inr (by assumption))
    | with_reducible exact Or.inl rfl

def FP.postOne (P : Place → Prop) (n : Fin 64) : Prop :=
    P (.ring n) ∧
    FP.send P ∧
    P (.reg (HIF_CQP ↑n)) ∧
    P (.reg FC_CNT) ∧
    FP.countEntry P n ∧
    FP.drainRelease P

theorem State.postOne_only {P : Place → Prop} {s₀ s : State} (h : OnlyAt P s₀ s) (n : Fin 64) (hp : FP.postOne P n) :
    OnlyAt P s₀ (State.postOne s n) := by
  unfold FP.postOne at hp
  obtain ⟨p0, p1, p2, p3, p4, p5⟩ := hp
  unfold State.postOne
  repeat' first
    | with_reducible assumption
    | extract_lets
    | with_reducible apply OnlyAt.ite
    | with_reducible apply State.modRing_only
    | with_reducible apply State.send_only
    | with_reducible apply State.setFld_only
    | with_reducible apply State.setOn_only
    | with_reducible apply State.count_only
    | with_reducible apply State.countEntry_only
    | with_reducible apply State.drainRelease_only
    | split

def FP.firePending (P : Place → Prop) : Prop :=
    P (.reg MSIX_PBA_LO) ∧
    P (.reg MSIX_PBA_HI) ∧
    FP.msix P

theorem State.firePending_only {P : Place → Prop} {s₀ s : State} (h : OnlyAt P s₀ s) (v : Fin 64) (hp : FP.firePending P) :
    OnlyAt P s₀ (State.firePending s v) := by
  unfold FP.firePending at hp
  obtain ⟨p0, p1, p2⟩ := hp
  unfold State.firePending
  repeat' first
    | with_reducible assumption
    | extract_lets
    | with_reducible apply OnlyAt.ite
    | with_reducible apply State.msix_only
    | with_reducible apply State.setWord_only
    | split
    | dsimp +zetaDelta only

end Sys2Proof.Machine
end

