-- ==== Sys2Proof/Laws/OnlyMemory.lean ====
section
/-! SUPPORT. What each operation of Machine/Memory.lean may change: `FP.x` says that its places lie in `P`. -/

namespace Sys2Proof.Machine

def FP.loseAccount (P : Place → Prop) : Prop :=
    FP.evt P FC_EVT ∧
    P (.reg FC_CNT)

theorem State.loseAccount_only {P : Place → Prop} {s₀ s : State} (h : OnlyAt P s₀ s) (l : GtLine) (hp : FP.loseAccount P) :
    OnlyAt P s₀ (State.loseAccount s l) := by
  unfold FP.loseAccount at hp
  obtain ⟨p0, p1⟩ := hp
  unfold State.loseAccount
  repeat' first
    | with_reducible assumption
    | extract_lets
    | with_reducible apply OnlyAt.ite
    | with_reducible apply State.evt_only
    | with_reducible apply State.count_only

def FP.memLoss (P : Place → Prop) : Prop :=
    P .fc ∧
    FP.syncThr P ∧
    FP.syncLive P ∧
    FP.loseAccount P ∧
    (∀ (z0 : Fin 64), FP.haltRing P z0) ∧
    P .hif ∧
    P .jnl ∧
    FP.wipe P

theorem State.memLoss_only {P : Place → Prop} {s₀ s : State} (h : OnlyAt P s₀ s) (l : MemLoss) (hp : FP.memLoss P) :
    OnlyAt P s₀ (State.memLoss s l).1 := by
  unfold FP.memLoss at hp
  obtain ⟨p0, p1, p2, p3, p4, p5, p6, p7⟩ := hp
  unfold State.memLoss
  repeat' first
    | with_reducible assumption
    | extract_lets
    | with_reducible apply OnlyAt.ite
    | with_reducible apply State.dropLine_only
    | with_reducible apply State.syncThr_only
    | with_reducible apply State.syncLive_only
    | with_reducible apply State.endGrant_only
    | with_reducible apply State.loseAccount_only
    | with_reducible apply State.haltRing_only
    | with_reducible apply State.modFc_only
    | with_reducible apply State.wipe_only
    | (with_reducible refine State.each_only ?_ _ _ (fun _ _ _ _ => ?_))
    | with_reducible exact p4 _
    | dsimp only
    | split
    | (with_reducible refine OnlyAt.mk_fields ?_ ?_ ?_ ?_ ?_ ?_ ?_ ?_ ?_ ?_ ?_ ?_ ?_ ?_ ?_ ?_ ?_ ?_ ?_ ?_ ?_ ?_ ?_ ?_ ?_ ?_ ?_ ?_)
    | (with_reducible exact Or.inr (by assumption))
    | with_reducible exact Or.inl rfl

def FP.memCe (P : Place → Prop) (b : Fin 5) : Prop :=
    P .flt ∧
    P (.reg (MEM_CNT ↑b)) ∧
    FP.setFlags P MEM_EVT

theorem State.memCe_only {P : Place → Prop} {s₀ s : State} (h : OnlyAt P s₀ s) (b : Fin 5) (x : MemAcc) (a : Nat) (hp : FP.memCe P b) :
    OnlyAt P s₀ (State.memCe s b x a) := by
  unfold FP.memCe at hp
  obtain ⟨p0, p1, p2⟩ := hp
  unfold State.memCe
  repeat' first
    | with_reducible assumption
    | extract_lets
    | with_reducible apply State.event_only
    | with_reducible apply State.count_only
    | with_reducible apply State.setFlags_only

def FP.memUe (P : Place → Prop) (l : MemLoss) : Prop :=
    P (.reg (MEM_CNT ↑l.bank)) ∧
    FP.setFlags P MEM_EVT ∧
    P (.reg MEM_UEADDR) ∧
    FP.memLoss P ∧
    P .flt

theorem State.memUe_only {P : Place → Prop} {s₀ s : State} (h : OnlyAt P s₀ s) (l : MemLoss) (x : MemAcc) (a : Nat) (hp : FP.memUe P l) :
    OnlyAt P s₀ (State.memUe s l x a) := by
  unfold FP.memUe at hp
  obtain ⟨p0, p1, p2, p3, p4⟩ := hp
  unfold State.memUe
  repeat' first
    | with_reducible assumption
    | extract_lets
    | with_reducible apply OnlyAt.ite
    | with_reducible apply State.count_only
    | with_reducible apply State.setFlags_only
    | with_reducible apply State.setWord_only
    | with_reducible apply State.memLoss_only
    | with_reducible apply State.event_only

end Sys2Proof.Machine
end

