-- ==== Sys2Proof/Laws/OnlyMeasure.lean ====
section
/-! SUPPORT. What each operation of Machine/Measure.lean may change: `FP.x` says that its places lie in `P`. -/

namespace Sys2Proof.Machine

def FP.bootSeal (P : Place → Prop) : Prop :=
    P (.reg AUTH_SEAL) ∧
    P .auth ∧
    FP.loadB4 P ∧
    P .aon ∧
    FP.sealOpened P ∧
    P .jnl

theorem State.bootSeal_only {P : Place → Prop} {s₀ s : State} (h : OnlyAt P s₀ s) (r : RefMeas) (hp : FP.bootSeal P) :
    OnlyAt P s₀ (State.bootSeal s r) := by
  unfold FP.bootSeal at hp
  obtain ⟨p0, p1, p2, p3, p4, p5⟩ := hp
  unfold State.bootSeal
  repeat' first
    | with_reducible assumption
    | extract_lets
    | with_reducible apply OnlyAt.ite
    | with_reducible apply State.setFld_only
    | with_reducible apply State.setOn_only
    | with_reducible apply State.loadB4_only
    | with_reducible apply State.sealOpened_only
    | with_reducible apply State.journal_only
    | split
    | (with_reducible refine OnlyAt.mk_fields ?_ ?_ ?_ ?_ ?_ ?_ ?_ ?_ ?_ ?_ ?_ ?_ ?_ ?_ ?_ ?_ ?_ ?_ ?_ ?_ ?_ ?_ ?_ ?_ ?_ ?_ ?_ ?_)
    | (with_reducible exact Or.inr (by assumption))
    | with_reducible exact Or.inl rfl

def FP.setRefs (P : Place → Prop) : Prop :=
    (∀ (z0 : Fin 2), FP.refSelect P z0) ∧
    P (.reg ADC_REF)

theorem State.setRefs_only {P : Place → Prop} {s₀ s : State} (h : OnlyAt P s₀ s) (m : RefMeas) (hp : FP.setRefs P) :
    OnlyAt P s₀ (State.setRefs s m) := by
  unfold FP.setRefs at hp
  obtain ⟨p0, p1⟩ := hp
  unfold State.setRefs
  repeat' first
    | with_reducible assumption
    | extract_lets
    | with_reducible apply OnlyAt.ite
    | with_reducible apply State.refSelect_only
    | with_reducible apply State.setOn_only
    | (with_reducible refine State.each_only ?_ _ _ (fun _ _ _ _ => ?_))
    | with_reducible exact p0 _

abbrev FP.phcntAgain (P : Place → Prop) : Prop :=
    P (.reg SYS_STRAP)

theorem State.phcntAgain_only {P : Place → Prop} {s₀ s : State} (h : OnlyAt P s₀ s) (v : Vector Rat 8) (hp : FP.phcntAgain P) :
    OnlyAt P s₀ (State.phcntAgain s v) := by
  have p0 := hp
  unfold State.phcntAgain
  repeat' first
    | with_reducible assumption
    | extract_lets
    | with_reducible apply OnlyAt.ite
    | with_reducible apply State.setFld_only
    | with_reducible apply State.setOn_only

end Sys2Proof.Machine
end

