-- ==== Sys2Proof/Laws/OnlyTwPort.lean ====
section
/-! SUPPORT. What each operation of Machine/TwPort.lean may change: `FP.x` says that its places lie in `P`. -/

namespace Sys2Proof.Machine

def FP.setLines (P : Place → Prop) (p : Fin 3) : Prop :=
    P (.reg TW_M_STAT) ∧
    P (.reg (TW_PK_STAT ↑(twPack p)))

theorem State.setLines_only {P : Place → Prop} {s₀ s : State} (h : OnlyAt P s₀ s) (p : Fin 3) (scl : Bool) (sda : Bool) (hp : FP.setLines P p) :
    OnlyAt P s₀ (State.setLines s p scl sda) := by
  unfold FP.setLines at hp
  obtain ⟨p0, p1⟩ := hp
  unfold State.setLines
  repeat' first
    | with_reducible assumption
    | extract_lets
    | with_reducible apply OnlyAt.ite
    | with_reducible apply State.setOn_only

def FP.setBusy (P : Place → Prop) (p : Fin 3) : Prop :=
    P (.tw p) ∧
    P (.reg TW_M_STAT) ∧
    FP.setLines P p

theorem State.setBusy_only {P : Place → Prop} {s₀ s : State} (h : OnlyAt P s₀ s) (p : Fin 3) (b : Bool) (hp : FP.setBusy P p) :
    OnlyAt P s₀ (State.setBusy s p b) := by
  unfold FP.setBusy at hp
  obtain ⟨p0, p1, p2⟩ := hp
  unfold State.setBusy
  repeat' first
    | with_reducible assumption
    | extract_lets
    | with_reducible apply OnlyAt.ite
    | with_reducible apply State.modTw_only
    | with_reducible apply State.setOn_only
    | with_reducible apply State.setLines_only

def FP.twAbandon (P : Place → Prop) (p : Fin 3) : Prop :=
    P (.tw p) ∧
    P (.reg TW_M_STAT)

theorem State.twAbandon_only {P : Place → Prop} {s₀ s : State} (h : OnlyAt P s₀ s) (p : Fin 3) (hp : FP.twAbandon P p) :
    OnlyAt P s₀ (State.twAbandon s p) := by
  unfold FP.twAbandon at hp
  obtain ⟨p0, p1⟩ := hp
  unfold State.twAbandon
  repeat' first
    | with_reducible assumption
    | extract_lets
    | with_reducible apply OnlyAt.ite
    | with_reducible apply State.modTw_only
    | with_reducible apply State.setFld_only

abbrev FP.twCount (P : Place → Prop) : Prop :=
    P (.reg TW_M_CNT)

theorem State.twCount_only {P : Place → Prop} {s₀ s : State} (h : OnlyAt P s₀ s) (p : Fin 3) (hp : FP.twCount P) :
    OnlyAt P s₀ (State.twCount s p) := by
  have p0 := hp
  unfold State.twCount
  repeat' first
    | with_reducible assumption
    | extract_lets
    | with_reducible apply OnlyAt.ite
    | with_reducible apply State.count_only

def FP.txFailed (P : Place → Prop) (k : Fin 2) : Prop :=
    P (.pk k) ∧
    P (.reg (TW_PK_CNT ↑k)) ∧
    P (.reg (TW_PK_STAT ↑k))

theorem State.txFailed_only {P : Place → Prop} {s₀ s : State} (h : OnlyAt P s₀ s) (k : Fin 2) (hp : FP.txFailed P k) :
    OnlyAt P s₀ (State.txFailed s k) := by
  unfold FP.txFailed at hp
  obtain ⟨p0, p1, p2⟩ := hp
  unfold State.txFailed
  repeat' first
    | with_reducible assumption
    | extract_lets
    | with_reducible apply OnlyAt.ite
    | with_reducible apply State.modPk_only
    | with_reducible apply State.count_only
    | with_reducible apply State.setOn_only

def FP.twLost (P : Place → Prop) (p : Fin 3) : Prop :=
    P (.tw 0) ∧
    FP.txFailed P (twPack p) ∧
    P (.reg (TW_PK_CNT ↑(twPack p)))

theorem State.twLost_only {P : Place → Prop} {s₀ s : State} (h : OnlyAt P s₀ s) (p : Fin 3) (hp : FP.twLost P p) :
    OnlyAt P s₀ (State.twLost s p) := by
  unfold FP.twLost at hp
  obtain ⟨p0, p1, p2⟩ := hp
  unfold State.twLost
  repeat' first
    | with_reducible assumption
    | extract_lets
    | with_reducible apply OnlyAt.ite
    | with_reducible apply State.modTw_only
    | with_reducible apply State.txFailed_only
    | with_reducible apply State.count_only

def FP.twStray (P : Place → Prop) (p : Fin 3) : Prop :=
    P .freeCtr ∧
    FP.setBusy P p ∧
    FP.setLines P p ∧
    P (.tw p)

theorem State.twStray_only {P : Place → Prop} {s₀ s : State} (h : OnlyAt P s₀ s) (p : Fin 3) (hp : FP.twStray P p) :
    OnlyAt P s₀ (State.twStray s p) := by
  unfold FP.twStray at hp
  obtain ⟨p0, p1, p2, p3⟩ := hp
  unfold State.twStray
  repeat' first
    | with_reducible assumption
    | extract_lets
    | with_reducible apply OnlyAt.ite
    | with_reducible apply State.free_only
    | with_reducible apply State.setBusy_only
    | with_reducible apply State.setLines_only
    | with_reducible apply State.modTw_only

def FP.twTimeout (P : Place → Prop) (p : Fin 3) : Prop :=
    P .flt ∧
    P (.reg TW_M_CNT) ∧
    FP.setFlags P (twEvt p) ∧
    FP.twAbandon P p ∧
    P (.tw p) ∧
    FP.setLines P p

theorem State.twTimeout_only {P : Place → Prop} {s₀ s : State} (h : OnlyAt P s₀ s) (p : Fin 3) (sda : Bool) (hp : FP.twTimeout P p) :
    OnlyAt P s₀ (State.twTimeout s p sda) := by
  unfold FP.twTimeout at hp
  obtain ⟨p0, p1, p2, p3, p4, p5⟩ := hp
  unfold State.twTimeout
  repeat' first
    | with_reducible assumption
    | extract_lets
    | with_reducible apply OnlyAt.ite
    | with_reducible apply State.fault_only
    | with_reducible apply State.twCount_only
    | with_reducible apply State.setFlags_only
    | with_reducible apply State.twAbandon_only
    | with_reducible apply State.modTw_only
    | with_reducible apply State.setLines_only

def FP.sdaCheck (P : Place → Prop) (p : Fin 3) : Prop :=
    P (.reg ((twClr p).off)) ∧
    P (.tw p) ∧
    P (.reg ((twHeld p).off)) ∧
    FP.setLines P p ∧
    FP.setBusy P p ∧
    P .flt ∧
    FP.setFlags P (twEvt p)

theorem State.sdaCheck_only {P : Place → Prop} {s₀ s : State} (h : OnlyAt P s₀ s) (p : Fin 3) (c : SdaCheck) (hp : FP.sdaCheck P p) :
    OnlyAt P s₀ (State.sdaCheck s p c) := by
  unfold FP.sdaCheck at hp
  obtain ⟨p0, p1, p2, p3, p4, p5, p6⟩ := hp
  unfold State.sdaCheck
  repeat' first
    | with_reducible assumption
    | extract_lets
    | with_reducible apply OnlyAt.ite
    | with_reducible apply State.setOn_only
    | with_reducible apply State.modTw_only
    | with_reducible apply State.setLines_only
    | with_reducible apply State.setBusy_only
    | with_reducible apply State.fault_only
    | with_reducible apply State.setFlags_only
    | split

def FP.busClr (P : Place → Prop) (p : Fin 3) : Prop :=
    P (.tw p) ∧
    P (.reg ((twClr p).off))

theorem State.busClr_only {P : Place → Prop} {s₀ s : State} (h : OnlyAt P s₀ s) (p : Fin 3) (hp : FP.busClr P p) :
    OnlyAt P s₀ (State.busClr s p) := by
  unfold FP.busClr at hp
  obtain ⟨p0, p1⟩ := hp
  unfold State.busClr
  repeat' first
    | with_reducible assumption
    | extract_lets
    | with_reducible apply OnlyAt.ite
    | with_reducible apply State.modTw_only
    | with_reducible apply State.setOn_only

def FP.portReset (P : Place → Prop) (p : Fin 3) : Prop :=
    P (.tw p) ∧
    FP.setBusy P p ∧
    FP.twAbandon P p

theorem State.portReset_only {P : Place → Prop} {s₀ s : State} (h : OnlyAt P s₀ s) (p : Fin 3) (hp : FP.portReset P p) :
    OnlyAt P s₀ (State.portReset s p) := by
  unfold FP.portReset at hp
  obtain ⟨p0, p1, p2⟩ := hp
  unfold State.portReset
  repeat' first
    | with_reducible assumption
    | extract_lets
    | with_reducible apply State.modTw_only
    | with_reducible apply State.setBusy_only
    | with_reducible apply State.twAbandon_only

end Sys2Proof.Machine
end

