-- ==== Sys2Proof/Laws/OnlySelfTest.lean ====
section
/-! SUPPORT. What each operation of Machine/SelfTest.lean may change: `FP.x` says that its places lie in `P`. -/

namespace Sys2Proof.Machine

def FP.testNext (P : Place → Prop) : Prop :=
    P .sys ∧
    FP.syncPorts P ∧
    (∀ (z0 : Fin 16), FP.setPh P z0)

theorem State.testNext_only {P : Place → Prop} {s₀ s : State} (h : OnlyAt P s₀ s)  (hp : FP.testNext P) :
    OnlyAt P s₀ (State.testNext s) := by
  unfold FP.testNext at hp
  obtain ⟨p0, p1, p2⟩ := hp
  unfold State.testNext
  repeat' first
    | with_reducible assumption
    | extract_lets
    | with_reducible apply OnlyAt.ite
    | with_reducible apply State.syncPorts_only
    | with_reducible apply State.setPh_only
    | with_reducible exact p2 _
    | split
    | (with_reducible refine OnlyAt.mk_fields ?_ ?_ ?_ ?_ ?_ ?_ ?_ ?_ ?_ ?_ ?_ ?_ ?_ ?_ ?_ ?_ ?_ ?_ ?_ ?_ ?_ ?_ ?_ ?_ ?_ ?_ ?_ ?_)
    | (with_reducible exact Or.inr (by assumption))
    | with_reducible exact Or.inl rfl

abbrev FP.setBist (P : Place → Prop) : Prop :=
    P (.reg SYS_BIST)

theorem State.setBist_only {P : Place → Prop} {s₀ s : State} (h : OnlyAt P s₀ s) (scope : Nat) (status : Nat) (hp : FP.setBist P) :
    OnlyAt P s₀ (State.setBist s scope status) := by
  have p0 := hp
  unfold State.setBist
  repeat' first
    | with_reducible assumption
    | extract_lets
    | with_reducible apply State.setWord_only

def FP.startSelftest (P : Place → Prop) : Prop :=
    FP.refuse P ∧
    P (.reg SYS_BIST) ∧
    FP.testNext P ∧
    P .sys ∧
    FP.abortTel P ∧
    P .hif

theorem State.startSelftest_only {P : Place → Prop} {s₀ s : State} (h : OnlyAt P s₀ s) (d : Desc) (hp : FP.startSelftest P) :
    OnlyAt P s₀ (State.startSelftest s d) := by
  unfold FP.startSelftest at hp
  obtain ⟨p0, p1, p2, p3, p4, p5⟩ := hp
  unfold State.startSelftest
  repeat' first
    | with_reducible assumption
    | extract_lets
    | with_reducible apply OnlyAt.ite
    | with_reducible apply State.refuse_only
    | with_reducible apply State.setBist_only
    | with_reducible apply State.testNext_only
    | with_reducible apply State.abortTel_only
    | split
    | (with_reducible refine OnlyAt.mk_fields ?_ ?_ ?_ ?_ ?_ ?_ ?_ ?_ ?_ ?_ ?_ ?_ ?_ ?_ ?_ ?_ ?_ ?_ ?_ ?_ ?_ ?_ ?_ ?_ ?_ ?_ ?_ ?_)
    | (with_reducible exact Or.inr (by assumption))
    | with_reducible exact Or.inl rfl

def FP.failItem (P : Place → Prop) : Prop :=
    P (.reg SYS_BIST) ∧
    P .sys

theorem State.failItem_only {P : Place → Prop} {s₀ s : State} (h : OnlyAt P s₀ s) (item : Nat) (hp : FP.failItem P) :
    OnlyAt P s₀ (State.failItem s item) := by
  unfold FP.failItem at hp
  obtain ⟨p0, p1⟩ := hp
  unfold State.failItem
  repeat' first
    | with_reducible assumption
    | extract_lets
    | with_reducible apply OnlyAt.ite
    | with_reducible apply State.setFld_only
    | split
    | (with_reducible refine OnlyAt.mk_fields ?_ ?_ ?_ ?_ ?_ ?_ ?_ ?_ ?_ ?_ ?_ ?_ ?_ ?_ ?_ ?_ ?_ ?_ ?_ ?_ ?_ ?_ ?_ ?_ ?_ ?_ ?_ ?_)
    | (with_reducible exact Or.inr (by assumption))
    | with_reducible exact Or.inl rfl

abbrev FP.passTest (P : Place → Prop) : Prop :=
    FP.endTest P

theorem State.passTest_only {P : Place → Prop} {s₀ s : State} (h : OnlyAt P s₀ s)  (hp : FP.passTest P) :
    OnlyAt P s₀ (State.passTest s) := by
  have p0 := hp
  unfold State.passTest
  repeat' first
    | with_reducible assumption
    | extract_lets
    | with_reducible apply OnlyAt.ite
    | with_reducible apply State.endTest_only

def FP.offlineRefs (P : Place → Prop) : Prop :=
    FP.setRefs P ∧
    FP.failItem P ∧
    P (.reg SYS_STRAP) ∧
    P .flt ∧
    FP.sealReading P

theorem State.offlineRefs_only {P : Place → Prop} {s₀ s : State} (h : OnlyAt P s₀ s) (m : RefMeas) (hp : FP.offlineRefs P) :
    OnlyAt P s₀ (State.offlineRefs s m) := by
  unfold FP.offlineRefs at hp
  obtain ⟨p0, p1, p2, p3, p4⟩ := hp
  unfold State.offlineRefs
  repeat' first
    | with_reducible assumption
    | extract_lets
    | with_reducible apply OnlyAt.ite
    | with_reducible apply State.setRefs_only
    | with_reducible apply State.failItem_only
    | with_reducible apply State.phcntAgain_only
    | with_reducible apply State.fault_only
    | with_reducible apply State.sealReading_only
    | (with_reducible refine State.each_only ?_ _ _ (fun _ _ _ _ => ?_))

def FP.inForceChanged (P : Place → Prop) (k : Fin 2) : Prop :=
    P .jnl ∧
    FP.gustLoss P k ∧
    FP.syncPack P k

theorem State.inForceChanged_only {P : Place → Prop} {s₀ s : State} (h : OnlyAt P s₀ s) (k : Fin 2) (old : AuthRes) (hp : FP.inForceChanged P k) :
    OnlyAt P s₀ (State.inForceChanged s k old) := by
  unfold FP.inForceChanged at hp
  obtain ⟨p0, p1, p2⟩ := hp
  unfold State.inForceChanged
  repeat' first
    | with_reducible assumption
    | extract_lets
    | with_reducible apply OnlyAt.ite
    | with_reducible apply State.jevent_only
    | with_reducible apply State.gustLoss_only
    | with_reducible apply State.syncPack_only

def FP.lcWrite (P : Place → Prop) (v : Word) : Prop :=
    P .jnl ∧
    FP.refusal P ∧
    P (.reg SYS_LC) ∧
    P (.reg ((if BitVec.getLsbD v 9 = true then SYS_LC_GO_RETURNED else SYS_LC_GO_FIELD).off)) ∧
    P (.reg AUTH_CNT) ∧
    P .sys ∧
    P .aon ∧
    FP.wipe P

theorem State.lcWrite_only {P : Place → Prop} {s₀ s : State} (h : OnlyAt P s₀ s) (o : Origin) (v : Word) (hp : FP.lcWrite P v) :
    OnlyAt P s₀ (State.lcWrite s o v) := by
  unfold FP.lcWrite at hp
  obtain ⟨p0, p1, p2, p3, p4, p5, p6, p7⟩ := hp
  unfold State.lcWrite
  repeat' first
    | with_reducible assumption
    | extract_lets
    | with_reducible apply OnlyAt.ite
    | with_reducible apply State.journal_only
    | with_reducible apply State.refusal_only
    | with_reducible apply State.setFld_only
    | with_reducible apply State.setOn_only
    | with_reducible apply State.count_only
    | with_reducible apply State.wipe_only
    | split
    | (with_reducible refine OnlyAt.mk_fields ?_ ?_ ?_ ?_ ?_ ?_ ?_ ?_ ?_ ?_ ?_ ?_ ?_ ?_ ?_ ?_ ?_ ?_ ?_ ?_ ?_ ?_ ?_ ?_ ?_ ?_ ?_ ?_)
    | (with_reducible exact Or.inr (by assumption))
    | with_reducible exact Or.inl rfl

end Sys2Proof.Machine
end

