-- ==== Sys2Proof/Laws/OnlyTwoWire.lean ====
section
/-! SUPPORT. What each operation of Machine/TwoWire.lean may change: `FP.x` says that its places lie in `P`. -/

namespace Sys2Proof.Machine

def FP.mNack (P : Place → Prop) : Prop :=
    P (.reg TW_M_CNT) ∧
    FP.setFlags P TW_M_EVT

theorem State.mNack_only {P : Place → Prop} {s₀ s : State} (h : OnlyAt P s₀ s)  (hp : FP.mNack P) :
    OnlyAt P s₀ (State.mNack s) := by
  unfold FP.mNack at hp
  obtain ⟨p0, p1⟩ := hp
  unfold State.mNack
  repeat' first
    | with_reducible assumption
    | extract_lets
    | with_reducible apply State.count_only
    | with_reducible apply State.setFlags_only

def FP.mPecErr (P : Place → Prop) : Prop :=
    P (.reg TW_M_CNT) ∧
    FP.setFlags P TW_M_EVT

theorem State.mPecErr_only {P : Place → Prop} {s₀ s : State} (h : OnlyAt P s₀ s)  (hp : FP.mPecErr P) :
    OnlyAt P s₀ (State.mPecErr s) := by
  unfold FP.mPecErr at hp
  obtain ⟨p0, p1⟩ := hp
  unfold State.mPecErr
  repeat' first
    | with_reducible assumption
    | extract_lets
    | with_reducible apply State.count_only
    | with_reducible apply State.setFlags_only

def FP.mEnd (P : Place → Prop) : Prop :=
    P (.tw 0) ∧
    FP.setBusy P 0 ∧
    P (.reg TW_M_STAT)

theorem State.mEnd_only {P : Place → Prop} {s₀ s : State} (h : OnlyAt P s₀ s) (l : List Byte) (stop : Bool) (hp : FP.mEnd P) :
    OnlyAt P s₀ (State.mEnd s l stop) := by
  unfold FP.mEnd at hp
  obtain ⟨p0, p1, p2⟩ := hp
  unfold State.mEnd
  repeat' first
    | with_reducible assumption
    | extract_lets
    | with_reducible apply OnlyAt.ite
    | with_reducible apply State.modTw_only
    | with_reducible apply State.setBusy_only
    | with_reducible apply State.setFld_only

def FP.hostNotify (P : Place → Prop) : Prop :=
    P (.tw 0) ∧
    P (.reg TW_M_HN)

theorem State.hostNotify_only {P : Place → Prop} {s₀ s : State} (h : OnlyAt P s₀ s) (acked : Bool) (hp : FP.hostNotify P) :
    OnlyAt P s₀ (State.hostNotify s acked) := by
  unfold FP.hostNotify at hp
  obtain ⟨p0, p1⟩ := hp
  unfold State.hostNotify
  repeat' first
    | with_reducible assumption
    | extract_lets
    | with_reducible apply OnlyAt.ite
    | with_reducible apply State.modTw_only
    | with_reducible apply State.setFld_only

def FP.rarexFail (P : Place → Prop) (p : Fin 3) : Prop :=
    FP.setBusy P p ∧
    FP.setFlags P (twEvt p) ∧
    FP.twTimeout P p ∧
    P (.tw p) ∧
    FP.setLines P p

theorem State.rarexFail_only {P : Place → Prop} {s₀ s : State} (h : OnlyAt P s₀ s) (p : Fin 3) (e : TwErr) (hp : FP.rarexFail P p) :
    OnlyAt P s₀ (State.rarexFail s p e) := by
  unfold FP.rarexFail at hp
  obtain ⟨p0, p1, p2, p3, p4⟩ := hp
  unfold State.rarexFail
  repeat' first
    | with_reducible assumption
    | extract_lets
    | with_reducible apply State.setBusy_only
    | with_reducible apply State.setFlags_only
    | with_reducible apply State.twTimeout_only
    | with_reducible apply State.modTw_only
    | with_reducible apply State.setLines_only
    | split

def FP.rarexTries (P : Place → Prop) (k : Fin 2) (p : Fin 3) : Prop :=
    FP.setBusy P p ∧
    FP.rarexFail P p ∧
    FP.sdaCheck P p ∧
    P (.reg (TW_PK_CNT ↑k))

theorem State.rarexTries_only {P : Place → Prop} {s₀ s : State} (h : OnlyAt P s₀ s) (k : Fin 2) (p : Fin 3) (n : Nat)
    (l : List TwErr) (hp : FP.rarexTries P k p) : OnlyAt P s₀ (State.rarexTries s k p n l).2 := by
  obtain ⟨p0, p1, p2, p3⟩ := hp
  induction l generalizing s n with
  | nil => cases n <;> exact (State.setBusy_only h p false p0 :)
  | cons e l ih =>
    cases n with
    | zero => exact (State.rarexFail_only h p e p1 :)
    | succ n =>
      unfold State.rarexTries
      extract_lets s1 s2
      have e1 : OnlyAt P s₀ s1 := State.rarexFail_only h _ _ p1
      have e2 : OnlyAt P s₀ s2 := by
        unfold s2
        split
        · exact State.sdaCheck_only e1 _ _ p2
        · exact e1
      split
      · exact e2
      · exact ih (State.count_only e2 _ p3) n

def FP.rarexReply (P : Place → Prop) (k : Fin 2) : Prop :=
    P (.pk k) ∧
    FP.incCtr P k

theorem State.rarexReply_only {P : Place → Prop} {s₀ s : State} (h : OnlyAt P s₀ s) (k : Fin 2) (cmd : Rarex) (reply : List Byte) (hp : FP.rarexReply P k) :
    OnlyAt P s₀ (State.rarexReply s k cmd reply) := by
  unfold FP.rarexReply at hp
  obtain ⟨p0, p1⟩ := hp
  unfold State.rarexReply
  repeat' first
    | with_reducible assumption
    | extract_lets
    | with_reducible apply OnlyAt.ite
    | with_reducible apply State.modPk_only
    | with_reducible apply State.incCtr_only
    | split

def FP.rarex (P : Place → Prop) (k : Fin 2) : Prop :=
    P (.reg (TW_PK_CNT ↑k)) ∧
    FP.txFailed P k ∧
    FP.rarexTries P k (if k = 0 then 1 else 2) ∧
    P (.tw (if k = 0 then 1 else 2)) ∧
    FP.rarexReply P k ∧
    P (.pk k)

theorem State.rarex_only {P : Place → Prop} {s₀ s : State} (h : OnlyAt P s₀ s) (k : Fin 2) (cmd : Rarex) (fails : List TwErr) (reply : List Byte) (hp : FP.rarex P k) :
    OnlyAt P s₀ (State.rarex s k cmd fails reply) := by
  unfold FP.rarex at hp
  obtain ⟨p0, p1, p2, p3, p4, p5⟩ := hp
  unfold State.rarex
  repeat' first
    | with_reducible assumption
    | extract_lets
    | with_reducible apply OnlyAt.ite
    | with_reducible apply State.count_only
    | with_reducible apply State.txFailed_only
    | with_reducible apply State.rarexTries_only
    | with_reducible apply State.modTw_only
    | with_reducible apply State.rarexReply_only
    | with_reducible apply State.modPk_only

end Sys2Proof.Machine
end

