-- ==== Sys2Proof/Laws/OnlyAdmin.lean ====
section
/-! SUPPORT. What each operation of Machine/Admin.lean may change: `FP.x` says that its places lie in `P`. -/

namespace Sys2Proof.Machine

def FP.startIdentify (P : Place → Prop) : Prop :=
    FP.refuse P ∧
    FP.send P ∧
    FP.done P

theorem State.startIdentify_only {P : Place → Prop} {s₀ s : State} (h : OnlyAt P s₀ s) (d : Desc) (hp : FP.startIdentify P) :
    OnlyAt P s₀ (State.startIdentify s d) := by
  unfold FP.startIdentify at hp
  obtain ⟨p0, p1, p2⟩ := hp
  unfold State.startIdentify
  repeat' first
    | with_reducible assumption
    | extract_lets
    | with_reducible apply OnlyAt.ite
    | with_reducible apply State.refuse_only
    | with_reducible apply State.send_only
    | with_reducible apply State.done_only

def FP.startSetLimits (P : Place → Prop) : Prop :=
    FP.refuse P ∧
    P (.reg AUTH_CNT) ∧
    P .hif

theorem State.startSetLimits_only {P : Place → Prop} {s₀ s : State} (h : OnlyAt P s₀ s) (ds : List Desc) (d : Desc) (hp : FP.startSetLimits P) :
    OnlyAt P s₀ (State.startSetLimits s ds d) := by
  unfold FP.startSetLimits at hp
  obtain ⟨p0, p1, p2⟩ := hp
  unfold State.startSetLimits
  repeat' first
    | with_reducible assumption
    | extract_lets
    | with_reducible apply OnlyAt.ite
    | with_reducible apply State.refuse_only
    | with_reducible apply State.count_only
    | split
    | (with_reducible refine OnlyAt.mk_fields ?_ ?_ ?_ ?_ ?_ ?_ ?_ ?_ ?_ ?_ ?_ ?_ ?_ ?_ ?_ ?_ ?_ ?_ ?_ ?_ ?_ ?_ ?_ ?_ ?_ ?_ ?_ ?_)
    | (with_reducible exact Or.inr (by assumption))
    | with_reducible exact Or.inl rfl

abbrev FP.sendRec (P : Place → Prop) : Prop :=
    FP.send P

theorem State.sendRec_only {P : Place → Prop} {s₀ s : State} (h : OnlyAt P s₀ s) (elems : List (BitVec 64)) (i : Nat) (r : TelRec) (hp : FP.sendRec P) :
    OnlyAt P s₀ (State.sendRec s elems i r) := by
  have p0 := hp
  unfold State.sendRec
  repeat' first
    | with_reducible assumption
    | extract_lets
    | with_reducible apply State.send_only
    | split

def FP.telHistory (P : Place → Prop) : Prop :=
    FP.send P ∧
    FP.done P

theorem State.telHistory_only {P : Place → Prop} {s₀ s : State} (h : OnlyAt P s₀ s) (d : Desc) (elems : List (BitVec 64)) (hp : FP.telHistory P) :
    OnlyAt P s₀ (State.telHistory s d elems) := by
  unfold FP.telHistory at hp
  obtain ⟨p0, p1⟩ := hp
  unfold State.telHistory
  repeat' first
    | with_reducible assumption
    | extract_lets
    | with_reducible apply OnlyAt.ite
    | with_reducible apply State.sendRec_only
    | with_reducible apply State.done_only
    | (with_reducible refine State.each_only ?_ _ _ (fun _ _ _ _ => ?_))

def FP.startTelemetry (P : Place → Prop) : Prop :=
    FP.refuse P ∧
    FP.telHistory P ∧
    P .hif

theorem State.startTelemetry_only {P : Place → Prop} {s₀ s : State} (h : OnlyAt P s₀ s) (ds : List Desc) (d : Desc) (elems : List (BitVec 64)) (hp : FP.startTelemetry P) :
    OnlyAt P s₀ (State.startTelemetry s ds d elems) := by
  unfold FP.startTelemetry at hp
  obtain ⟨p0, p1, p2⟩ := hp
  unfold State.startTelemetry
  repeat' first
    | with_reducible assumption
    | extract_lets
    | with_reducible apply OnlyAt.ite
    | with_reducible apply State.refuse_only
    | with_reducible apply State.telHistory_only
    | split
    | (with_reducible refine OnlyAt.mk_fields ?_ ?_ ?_ ?_ ?_ ?_ ?_ ?_ ?_ ?_ ?_ ?_ ?_ ?_ ?_ ?_ ?_ ?_ ?_ ?_ ?_ ?_ ?_ ?_ ?_ ?_ ?_ ?_)
    | (with_reducible exact Or.inr (by assumption))
    | with_reducible exact Or.inl rfl

def FP.capRec (P : Place → Prop) : Prop :=
    P .hif ∧
    FP.send P ∧
    FP.done P

theorem State.capRec_only {P : Place → Prop} {s₀ s : State} (h : OnlyAt P s₀ s) (skip : Bool) (rec_ : TelRec) (hp : FP.capRec P) :
    OnlyAt P s₀ (State.capRec s skip rec_) := by
  unfold FP.capRec at hp
  obtain ⟨p0, p1, p2⟩ := hp
  unfold State.capRec
  repeat' first
    | with_reducible assumption
    | extract_lets
    | with_reducible apply OnlyAt.ite
    | with_reducible apply State.sendRec_only
    | with_reducible apply State.done_only
    | split
    | (with_reducible refine OnlyAt.mk_fields ?_ ?_ ?_ ?_ ?_ ?_ ?_ ?_ ?_ ?_ ?_ ?_ ?_ ?_ ?_ ?_ ?_ ?_ ?_ ?_ ?_ ?_ ?_ ?_ ?_ ?_ ?_ ?_)
    | (with_reducible exact Or.inr (by assumption))
    | with_reducible exact Or.inl rfl

def FP.capTick (P : Place → Prop) : Prop :=
    FP.capRec P ∧
    P .hif

theorem State.capTick_only {P : Place → Prop} {s₀ s : State} (h : OnlyAt P s₀ s) (skip : Bool) (hp : FP.capTick P) :
    OnlyAt P s₀ (State.capTick s skip) := by
  unfold FP.capTick at hp
  obtain ⟨p0, p1⟩ := hp
  unfold State.capTick
  repeat' first
    | with_reducible assumption
    | extract_lets
    | with_reducible apply OnlyAt.ite
    | with_reducible apply State.capRec_only
    | (with_reducible refine State.each_only ?_ _ _ (fun _ _ _ _ => ?_))
    | split
    | (with_reducible refine OnlyAt.mk_fields ?_ ?_ ?_ ?_ ?_ ?_ ?_ ?_ ?_ ?_ ?_ ?_ ?_ ?_ ?_ ?_ ?_ ?_ ?_ ?_ ?_ ?_ ?_ ?_ ?_ ?_ ?_ ?_)
    | (with_reducible exact Or.inr (by assumption))
    | with_reducible exact Or.inl rfl

def FP.startDrain (P : Place → Prop) : Prop :=
    FP.refuse P ∧
    P .freeCtr ∧
    FP.done P ∧
    FP.send P ∧
    P .hif

theorem State.startDrain_only {P : Place → Prop} {s₀ s : State} (h : OnlyAt P s₀ s) (d : Desc) (hp : FP.startDrain P) :
    OnlyAt P s₀ (State.startDrain s d) := by
  unfold FP.startDrain at hp
  obtain ⟨p0, p1, p2, p3, p4⟩ := hp
  unfold State.startDrain
  refine OnlyAt.ite (State.refuse_only h _ _ _ _ _ _ p0) (OnlyAt.ite (State.refuse_only h _ _ _ _ _ _ p0) ?_)
  extract_lets l s1 src
  have e1 : OnlyAt P s₀ s1 := State.each_only h _ _ (fun _ _ _ ht => State.send_only ht _ p3)
  clear_value l
  split
  · exact State.done_only (State.free_only h p1) _ _ _ _ p2
  · extract_lets s2
    have e2 : OnlyAt P s₀ s2 := by
      refine OnlyAt.ite ?_ e1
      refine OnlyAt.mk_fields e1 ?_ ?_ ?_ ?_ ?_ ?_ ?_ ?_ ?_ ?_ ?_ ?_ ?_ ?_ ?_ ?_ ?_ ?_ ?_ ?_ ?_ ?_ ?_ ?_ ?_ ?_ ?_
      all_goals first
        | exact Or.inr p4
        | exact Or.inl rfl
    exact State.done_only e2 _ _ _ _ p2

def FP.putCtx (P : Place → Prop) (n : Fin 64) : Prop :=
    P (.reg (FC_CTX_CAP ↑n)) ∧
    P (.reg (FC_CTX_CIDCNT ↑n)) ∧
    P (.reg (FC_CTX_CIDBASE ↑n)) ∧
    P (.reg (FC_CTX_CFG ↑n))

theorem State.putCtx_only {P : Place → Prop} {s₀ s : State} (h : OnlyAt P s₀ s) (n : Fin 64) (cfg : Nat) (base : Nat) (cnt : Nat) (cap : Nat) (hp : FP.putCtx P n) :
    OnlyAt P s₀ (State.putCtx s n cfg base cnt cap) := by
  unfold FP.putCtx at hp
  obtain ⟨p0, p1, p2, p3⟩ := hp
  unfold State.putCtx
  repeat' first
    | with_reducible assumption
    | extract_lets
    | with_reducible apply State.setWord_only

def FP.startBind (P : Place → Prop) (d : Desc) : Prop :=
    FP.refuse P ∧
    P .fc ∧
    FP.putCtx P d.ctx ∧
    FP.syncLive P ∧
    FP.done P ∧
    P .jnl

theorem State.startBind_only {P : Place → Prop} {s₀ s : State} (h : OnlyAt P s₀ s) (d : Desc) (hp : FP.startBind P d) :
    OnlyAt P s₀ (State.startBind s d) := by
  unfold FP.startBind at hp
  obtain ⟨p0, p1, p2, p3, p4, p5⟩ := hp
  unfold State.startBind
  repeat' first
    | with_reducible assumption
    | extract_lets
    | with_reducible apply OnlyAt.ite
    | with_reducible apply State.refuse_only
    | with_reducible apply State.modFc_only
    | with_reducible apply State.putCtx_only
    | with_reducible apply State.syncLive_only
    | with_reducible apply State.done_only
    | with_reducible apply State.journal_only

def FP.startTable (P : Place → Prop) : Prop :=
    FP.refuse P ∧
    FP.writeBack P ∧
    P .fc ∧
    P (.reg FC_GTN) ∧
    P (.reg FC_GTA_HI) ∧
    P (.reg FC_GTA_LO) ∧
    P (.reg FC_STAT) ∧
    FP.syncThr P ∧
    FP.syncLive P ∧
    FP.done P ∧
    P .jnl

theorem State.startTable_only {P : Place → Prop} {s₀ s : State} (h : OnlyAt P s₀ s) (d : Desc) (hp : FP.startTable P) :
    OnlyAt P s₀ (State.startTable s d) := by
  unfold FP.startTable at hp
  obtain ⟨p0, p1, p2, p3, p4, p5, p6, p7, p8, p9, p10⟩ := hp
  unfold State.startTable
  repeat' first
    | with_reducible assumption
    | extract_lets
    | with_reducible apply OnlyAt.ite
    | with_reducible apply State.refuse_only
    | with_reducible apply State.writeBack_only
    | with_reducible apply State.modFc_only
    | with_reducible apply State.setFld_only
    | with_reducible apply State.setOn_only
    | with_reducible apply State.staticDrop_only
    | with_reducible apply State.syncThr_only
    | with_reducible apply State.syncLive_only
    | with_reducible apply State.done_only
    | with_reducible apply State.journal_only
    | (with_reducible refine State.each_only ?_ _ _ (fun _ _ _ _ => ?_))

def FP.startAdmin (P : Place → Prop) : Prop :=
    P (.ring 0) ∧
    FP.refuse P ∧
    FP.startIdentify P ∧
    FP.startSetLimits P ∧
    (∀ (z0 : Desc), FP.startSetProfile P z0) ∧
    FP.startTelemetry P ∧
    FP.startDrain P ∧
    FP.startSelftest P ∧
    (∀ (z0 : Desc), FP.startPackAuth P z0) ∧
    FP.startVtarget P ∧
    (∀ (z0 : Desc), FP.startBind P z0) ∧
    FP.startTable P ∧
    (∀ (z0 : Desc), FP.startSounding P z0) ∧
    FP.startPhaseMap P

theorem State.startAdmin_only {P : Place → Prop} {s₀ s : State} (h : OnlyAt P s₀ s) (ds : List Desc) (elems : List (BitVec 64)) (hp : FP.startAdmin P) :
    OnlyAt P s₀ (State.startAdmin s ds elems) := by
  unfold FP.startAdmin at hp
  obtain ⟨p0, p1, p2, p3, p4, p5, p6, p7, p8, p9, p10, p11, p12, p13⟩ := hp
  unfold State.startAdmin
  repeat' first
    | with_reducible assumption
    | extract_lets
    | with_reducible apply OnlyAt.ite
    | with_reducible apply State.modRing_only
    | with_reducible apply State.refuse_only
    | with_reducible apply State.startIdentify_only
    | with_reducible apply State.startSetLimits_only
    | with_reducible apply State.startSetProfile_only
    | with_reducible apply State.startTelemetry_only
    | with_reducible apply State.startDrain_only
    | with_reducible apply State.startSelftest_only
    | with_reducible apply State.startPackAuth_only
    | with_reducible apply State.startVtarget_only
    | with_reducible apply State.startBind_only
    | with_reducible apply State.startTable_only
    | with_reducible apply State.startSounding_only
    | with_reducible apply State.startPhaseMap_only
    | with_reducible exact p4 _
    | with_reducible exact p8 _
    | with_reducible exact p10 _
    | with_reducible exact p12 _
    | split

def FP.admin (P : Place → Prop) : Prop :=
    FP.startAdmin P ∧
    P .hif ∧
    FP.popSq P 0

theorem State.admin_only {P : Place → Prop} {s₀ s : State} (h : OnlyAt P s₀ s) (ds : List Desc) (elems : List (BitVec 64)) (hp : FP.admin P) :
    OnlyAt P s₀ (State.admin s ds elems) := by
  unfold FP.admin at hp
  obtain ⟨p0, p1, p2⟩ := hp
  unfold State.admin
  repeat' first
    | with_reducible assumption
    | extract_lets
    | with_reducible apply OnlyAt.ite
    | with_reducible apply State.startAdmin_only
    | (with_reducible refine State.popSq_only ?_ _ _ ?_ (by assumption))
    | split
    | (with_reducible refine OnlyAt.mk_fields ?_ ?_ ?_ ?_ ?_ ?_ ?_ ?_ ?_ ?_ ?_ ?_ ?_ ?_ ?_ ?_ ?_ ?_ ?_ ?_ ?_ ?_ ?_ ?_ ?_ ?_ ?_ ?_)
    | (with_reducible exact Or.inr (by assumption))
    | with_reducible exact Or.inl rfl

def FP.dmaError (P : Place → Prop) : Prop :=
    P .flt ∧
    FP.aer P ∧
    P (.reg HIF_DMAERR)

theorem State.dmaError_only {P : Place → Prop} {s₀ s : State} (h : OnlyAt P s₀ s) (n : Fin 64) (kind : Nat) (t : Fin 3) (addr : Word) (hp : FP.dmaError P) :
    OnlyAt P s₀ (State.dmaError s n kind t addr) := by
  unfold FP.dmaError at hp
  obtain ⟨p0, p1, p2⟩ := hp
  unfold State.dmaError
  repeat' first
    | with_reducible assumption
    | extract_lets
    | with_reducible apply OnlyAt.ite
    | with_reducible apply State.event_only
    | with_reducible apply State.aer_only
    | with_reducible apply State.setWord_only

def FP.takeReady (P : Place → Prop) : Prop :=
    P .hif ∧
    FP.popSq P 0

theorem State.takeReady_only {P : Place → Prop} {s₀ s t : State} (h : OnlyAt P s₀ s) {ds : List Desc} (hp : FP.takeReady P)
    (ht : s.takeReady ds = some t) : OnlyAt P s₀ t := by
  unfold FP.takeReady at hp
  obtain ⟨p0, p1⟩ := hp
  unfold State.takeReady at ht
  split at ht
  · split at ht
    · cases ht
      refine OnlyAt.mk_fields h ?_ ?_ ?_ ?_ ?_ ?_ ?_ ?_ ?_ ?_ ?_ ?_ ?_ ?_ ?_ ?_ ?_ ?_ ?_ ?_ ?_ ?_ ?_ ?_ ?_ ?_ ?_
      all_goals first
        | exact Or.inr p0
        | exact Or.inl rfl
    · cases ht
  · split at ht
    · next u hu =>
      split at ht
      · cases ht
        exact State.popSq_only h _ _ p1 hu
      · cases ht
    · cases ht

end Sys2Proof.Machine
end

