-- ==== Sys2Proof/Laws/PerInstr.lean ====
section
/-! SUPPORT. Lemmas per constructor of `Instr`: no word spells a command (the operation table gives no row any bits). -/

/-- No word spells the command. -/
def Sys2Proof.Laws.NoWord.Statement (i : Sys2Proof.Instr) : Prop := ∀ nbits w, Sys2Proof.decodeTableWord nbits w ≠ some i

theorem Sys2Proof.Laws.NoWord.biasRise (v : BiasIn) : Sys2Proof.Laws.NoWord.Statement (.biasRise v) := nofun
theorem Sys2Proof.Laws.NoWord.biasGood (r : Boot) : Sys2Proof.Laws.NoWord.Statement (.biasGood r) := nofun
theorem Sys2Proof.Laws.NoWord.powerOnReset : Sys2Proof.Laws.NoWord.Statement (.powerOnReset) := nofun
theorem Sys2Proof.Laws.NoWord.biasSourceChange (v : BiasIn) : Sys2Proof.Laws.NoWord.Statement (.biasSourceChange v) := nofun
theorem Sys2Proof.Laws.NoWord.resetNAssert : Sys2Proof.Laws.NoWord.Statement (.resetNAssert) := nofun
theorem Sys2Proof.Laws.NoWord.resetNRelease (r : Boot) : Sys2Proof.Laws.NoWord.Statement (.resetNRelease r) := nofun
theorem Sys2Proof.Laws.NoWord.devrst (o : Origin) (v : Word) (r : Boot) : Sys2Proof.Laws.NoWord.Statement (.devrst o v r) := nofun
theorem Sys2Proof.Laws.NoWord.goField (o : Origin) (v : Word) : Sys2Proof.Laws.NoWord.Statement (.goField o v) := nofun
theorem Sys2Proof.Laws.NoWord.goReturned (o : Origin) (v : Word) : Sys2Proof.Laws.NoWord.Statement (.goReturned o v) := nofun
theorem Sys2Proof.Laws.NoWord.lifecycleChangeDone (blown : Vector (BitVec 5) 3) : Sys2Proof.Laws.NoWord.Statement (.lifecycleChangeDone blown) := nofun
theorem Sys2Proof.Laws.NoWord.selftestOnline (d : Desc) : Sys2Proof.Laws.NoWord.Statement (.selftestOnline d) := nofun
theorem Sys2Proof.Laws.NoWord.onlineMarginCheck : Sys2Proof.Laws.NoWord.Statement (.onlineMarginCheck) := nofun
theorem Sys2Proof.Laws.NoWord.onlinePhaseTestDone (r : TestRes) : Sys2Proof.Laws.NoWord.Statement (.onlinePhaseTestDone r) := nofun
theorem Sys2Proof.Laws.NoWord.selftestOffline (d : Desc) : Sys2Proof.Laws.NoWord.Statement (.selftestOffline d) := nofun
theorem Sys2Proof.Laws.NoWord.offlineDone (r : OffRes) : Sys2Proof.Laws.NoWord.Statement (.offlineDone r) := nofun
theorem Sys2Proof.Laws.NoWord.feedPresent (n : Fin 4) : Sys2Proof.Laws.NoWord.Statement (.feedPresent n) := nofun
theorem Sys2Proof.Laws.NoWord.feedCheckDone (n : Fin 4) (c : FeedChecks) : Sys2Proof.Laws.NoWord.Statement (.feedCheckDone n c) := nofun
theorem Sys2Proof.Laws.NoWord.feedAbsent (n : Fin 4) : Sys2Proof.Laws.NoWord.Statement (.feedAbsent n) := nofun
theorem Sys2Proof.Laws.NoWord.feedUv (n : Fin 4) (w : Nat) : Sys2Proof.Laws.NoWord.Statement (.feedUv n w) := nofun
theorem Sys2Proof.Laws.NoWord.feedOv (n : Fin 4) (w : Nat) : Sys2Proof.Laws.NoWord.Statement (.feedOv n w) := nofun
theorem Sys2Proof.Laws.NoWord.feedWindowEnter (n : Fin 4) : Sys2Proof.Laws.NoWord.Statement (.feedWindowEnter n) := nofun
theorem Sys2Proof.Laws.NoWord.feedQualified (n : Fin 4) : Sys2Proof.Laws.NoWord.Statement (.feedQualified n) := nofun
theorem Sys2Proof.Laws.NoWord.inrushStart (n : Fin 4) : Sys2Proof.Laws.NoWord.Statement (.inrushStart n) := nofun
theorem Sys2Proof.Laws.NoWord.inrushComplete (n : Fin 4) : Sys2Proof.Laws.NoWord.Statement (.inrushComplete n) := nofun
theorem Sys2Proof.Laws.NoWord.inrushTimeout (n : Fin 4) : Sys2Proof.Laws.NoWord.Statement (.inrushTimeout n) := nofun
theorem Sys2Proof.Laws.NoWord.feedModelUpdate (n : Fin 4) : Sys2Proof.Laws.NoWord.Statement (.feedModelUpdate n) := nofun
theorem Sys2Proof.Laws.NoWord.feedShortCircuit (n : Fin 4) (w : Nat) : Sys2Proof.Laws.NoWord.Statement (.feedShortCircuit n w) := nofun
theorem Sys2Proof.Laws.NoWord.feedScHoldoffEnd (n : Fin 4) : Sys2Proof.Laws.NoWord.Statement (.feedScHoldoffEnd n) := nofun
theorem Sys2Proof.Laws.NoWord.feedReverseCurrent (n : Fin 4) (w : Nat) : Sys2Proof.Laws.NoWord.Statement (.feedReverseCurrent n w) := nofun
theorem Sys2Proof.Laws.NoWord.oringReenable (n : Fin 4) : Sys2Proof.Laws.NoWord.Statement (.oringReenable n) := nofun
theorem Sys2Proof.Laws.NoWord.droopUpdate (n : Fin 4) : Sys2Proof.Laws.NoWord.Statement (.droopUpdate n) := nofun
theorem Sys2Proof.Laws.NoWord.nearAssert (n : Fin 4) : Sys2Proof.Laws.NoWord.Statement (.nearAssert n) := nofun
theorem Sys2Proof.Laws.NoWord.nearRelease : Sys2Proof.Laws.NoWord.Statement (.nearRelease) := nofun
theorem Sys2Proof.Laws.NoWord.feedHealthExpire (n : Fin 4) : Sys2Proof.Laws.NoWord.Statement (.feedHealthExpire n) := nofun
theorem Sys2Proof.Laws.NoWord.feedTripCountClear (n : Fin 4) : Sys2Proof.Laws.NoWord.Statement (.feedTripCountClear n) := nofun
theorem Sys2Proof.Laws.NoWord.feedGroupChange : Sys2Proof.Laws.NoWord.Statement (.feedGroupChange) := nofun
theorem Sys2Proof.Laws.NoWord.feedLockSet (o : Origin) (v : Word) : Sys2Proof.Laws.NoWord.Statement (.feedLockSet o v) := nofun
theorem Sys2Proof.Laws.NoWord.ejectAssert : Sys2Proof.Laws.NoWord.Statement (.ejectAssert) := nofun
theorem Sys2Proof.Laws.NoWord.ejectDeassert : Sys2Proof.Laws.NoWord.Statement (.ejectDeassert) := nofun
theorem Sys2Proof.Laws.NoWord.ejectFeedOff : Sys2Proof.Laws.NoWord.Statement (.ejectFeedOff) := nofun
theorem Sys2Proof.Laws.NoWord.extractHoldExpire : Sys2Proof.Laws.NoWord.Statement (.extractHoldExpire) := nofun
theorem Sys2Proof.Laws.NoWord.pwmCycleStart (n : Fin 16) : Sys2Proof.Laws.NoWord.Statement (.pwmCycleStart n) := nofun
theorem Sys2Proof.Laws.NoWord.tripWireEvent (n : Fin 16) (e : TripEv) (at_ : Rat) (trunc : Bool) (w : Nat) : Sys2Proof.Laws.NoWord.Statement (.tripWireEvent n e at_ trunc w) := nofun
theorem Sys2Proof.Laws.NoWord.maxDutyEnd (n : Fin 16) : Sys2Proof.Laws.NoWord.Statement (.maxDutyEnd n) := nofun
theorem Sys2Proof.Laws.NoWord.hardSwitchReport (n : Fin 16) (at_ : Rat) (w : Nat) : Sys2Proof.Laws.NoWord.Statement (.hardSwitchReport n at_ w) := nofun
theorem Sys2Proof.Laws.NoWord.modeEvaluate (k : Fin 2) : Sys2Proof.Laws.NoWord.Statement (.modeEvaluate k) := nofun
theorem Sys2Proof.Laws.NoWord.directionChange (k : Fin 2) (d : Dir) : Sys2Proof.Laws.NoWord.Statement (.directionChange k d) := nofun
theorem Sys2Proof.Laws.NoWord.inductanceLearn (n : Fin 16) : Sys2Proof.Laws.NoWord.Statement (.inductanceLearn n) := nofun
theorem Sys2Proof.Laws.NoWord.deadtimeAdapt (n : Fin 16) : Sys2Proof.Laws.NoWord.Statement (.deadtimeAdapt n) := nofun
theorem Sys2Proof.Laws.NoWord.tripMismatch (n : Fin 16) (reported : Bool) : Sys2Proof.Laws.NoWord.Statement (.tripMismatch n reported) := nofun
theorem Sys2Proof.Laws.NoWord.phaseAdd (k : Fin 2) : Sys2Proof.Laws.NoWord.Statement (.phaseAdd k) := nofun
theorem Sys2Proof.Laws.NoWord.phaseShed (k : Fin 2) : Sys2Proof.Laws.NoWord.Statement (.phaseShed k) := nofun
theorem Sys2Proof.Laws.NoWord.phaseWakeDone (n : Fin 16) : Sys2Proof.Laws.NoWord.Statement (.phaseWakeDone n) := nofun
theorem Sys2Proof.Laws.NoWord.phaseShedDone (n : Fin 16) : Sys2Proof.Laws.NoWord.Statement (.phaseShedDone n) := nofun
theorem Sys2Proof.Laws.NoWord.slowOverload (n : Fin 16) : Sys2Proof.Laws.NoWord.Statement (.slowOverload n) := nofun
theorem Sys2Proof.Laws.NoWord.oclCoolEnd (n : Fin 16) : Sys2Proof.Laws.NoWord.Statement (.oclCoolEnd n) := nofun
theorem Sys2Proof.Laws.NoWord.phaseLoss (n : Fin 16) (cause : Fin 4) (w : Nat) : Sys2Proof.Laws.NoWord.Statement (.phaseLoss n cause w) := nofun
theorem Sys2Proof.Laws.NoWord.legProbe (n : Fin 16) (boost : Bool) (p : LegPulse) : Sys2Proof.Laws.NoWord.Statement (.legProbe n boost p) := nofun
theorem Sys2Proof.Laws.NoWord.syncLost : Sys2Proof.Laws.NoWord.Statement (.syncLost) := nofun
theorem Sys2Proof.Laws.NoWord.syncRelock : Sys2Proof.Laws.NoWord.Statement (.syncRelock) := nofun
theorem Sys2Proof.Laws.NoWord.phaseMap (d : Desc) : Sys2Proof.Laws.NoWord.Statement (.phaseMap d) := nofun
theorem Sys2Proof.Laws.NoWord.phaseMapDrainDone : Sys2Proof.Laws.NoWord.Statement (.phaseMapDrainDone) := nofun
theorem Sys2Proof.Laws.NoWord.setVtarget (d : Desc) : Sys2Proof.Laws.NoWord.Statement (.setVtarget d) := nofun
theorem Sys2Proof.Laws.NoWord.vholdRefUpdate : Sys2Proof.Laws.NoWord.Statement (.vholdRefUpdate) := nofun
theorem Sys2Proof.Laws.NoWord.phVholdWrite (o : Origin) (v : Word) : Sys2Proof.Laws.NoWord.Statement (.phVholdWrite o v) := nofun
theorem Sys2Proof.Laws.NoWord.busovUpdate : Sys2Proof.Laws.NoWord.Statement (.busovUpdate) := nofun
theorem Sys2Proof.Laws.NoWord.feedLimitUpdate : Sys2Proof.Laws.NoWord.Statement (.feedLimitUpdate) := nofun
theorem Sys2Proof.Laws.NoWord.chargeCommandUpdate : Sys2Proof.Laws.NoWord.Statement (.chargeCommandUpdate) := nofun
theorem Sys2Proof.Laws.NoWord.chargeLoopUpdate (k : Fin 2) : Sys2Proof.Laws.NoWord.Statement (.chargeLoopUpdate k) := nofun
theorem Sys2Proof.Laws.NoWord.chgQualifyEnd (k : Fin 2) : Sys2Proof.Laws.NoWord.Statement (.chgQualifyEnd k) := nofun
theorem Sys2Proof.Laws.NoWord.chgPrechargeExit (k : Fin 2) : Sys2Proof.Laws.NoWord.Statement (.chgPrechargeExit k) := nofun
theorem Sys2Proof.Laws.NoWord.chgStageTimeout (k : Fin 2) : Sys2Proof.Laws.NoWord.Statement (.chgStageTimeout k) := nofun
theorem Sys2Proof.Laws.NoWord.chgDwellExpire (k : Fin 2) : Sys2Proof.Laws.NoWord.Statement (.chgDwellExpire k) := nofun
theorem Sys2Proof.Laws.NoWord.chgTempOut (k : Fin 2) : Sys2Proof.Laws.NoWord.Statement (.chgTempOut k) := nofun
theorem Sys2Proof.Laws.NoWord.chgRestEnd (k : Fin 2) : Sys2Proof.Laws.NoWord.Statement (.chgRestEnd k) := nofun
theorem Sys2Proof.Laws.NoWord.chgFaultClear (k : Fin 2) (o : Origin) (v : Word) : Sys2Proof.Laws.NoWord.Statement (.chgFaultClear k o v) := nofun
theorem Sys2Proof.Laws.NoWord.crestUpdate : Sys2Proof.Laws.NoWord.Statement (.crestUpdate) := nofun
theorem Sys2Proof.Laws.NoWord.chgStarve (k : Fin 2) : Sys2Proof.Laws.NoWord.Statement (.chgStarve k) := nofun
theorem Sys2Proof.Laws.NoWord.setProfile (d : Desc) : Sys2Proof.Laws.NoWord.Statement (.setProfile d) := nofun
theorem Sys2Proof.Laws.NoWord.profileReadDone (k : Fin 2) (p : Profile) : Sys2Proof.Laws.NoWord.Statement (.profileReadDone k p) := nofun
theorem Sys2Proof.Laws.NoWord.profileStagedLoad (o : Origin) (v : Word) : Sys2Proof.Laws.NoWord.Statement (.profileStagedLoad o v) := nofun
theorem Sys2Proof.Laws.NoWord.sounding (d : Desc) : Sys2Proof.Laws.NoWord.Statement (.sounding d) := nofun
theorem Sys2Proof.Laws.NoWord.soundingWindowEnd (k : Fin 2) : Sys2Proof.Laws.NoWord.Statement (.soundingWindowEnd k) := nofun
theorem Sys2Proof.Laws.NoWord.holdupLoopUpdate : Sys2Proof.Laws.NoWord.Statement (.holdupLoopUpdate) := nofun
theorem Sys2Proof.Laws.NoWord.hulowAssert : Sys2Proof.Laws.NoWord.Statement (.hulowAssert) := nofun
theorem Sys2Proof.Laws.NoWord.hulowRelease : Sys2Proof.Laws.NoWord.Statement (.hulowRelease) := nofun
theorem Sys2Proof.Laws.NoWord.holdupCut (k : Fin 2) : Sys2Proof.Laws.NoWord.Statement (.holdupCut k) := nofun
theorem Sys2Proof.Laws.NoWord.holdupEndStop : Sys2Proof.Laws.NoWord.Statement (.holdupEndStop) := nofun
theorem Sys2Proof.Laws.NoWord.gustHoldEnd (k : Fin 2) : Sys2Proof.Laws.NoWord.Statement (.gustHoldEnd k) := nofun
theorem Sys2Proof.Laws.NoWord.packInserted (k : Fin 2) : Sys2Proof.Laws.NoWord.Statement (.packInserted k) := nofun
theorem Sys2Proof.Laws.NoWord.packRemoved (k : Fin 2) : Sys2Proof.Laws.NoWord.Statement (.packRemoved k) := nofun
theorem Sys2Proof.Laws.NoWord.packIdentDone (k : Fin 2) (r : Option Ident) : Sys2Proof.Laws.NoWord.Statement (.packIdentDone k r) := nofun
theorem Sys2Proof.Laws.NoWord.packCloseStart (k : Fin 2) : Sys2Proof.Laws.NoWord.Statement (.packCloseStart k) := nofun
theorem Sys2Proof.Laws.NoWord.packCloseDone (k : Fin 2) : Sys2Proof.Laws.NoWord.Statement (.packCloseDone k) := nofun
theorem Sys2Proof.Laws.NoWord.packCloseTimeout (k : Fin 2) : Sys2Proof.Laws.NoWord.Statement (.packCloseTimeout k) := nofun
theorem Sys2Proof.Laws.NoWord.packDsgReclose (k : Fin 2) : Sys2Proof.Laws.NoWord.Statement (.packDsgReclose k) := nofun
theorem Sys2Proof.Laws.NoWord.packShortCircuit (k : Fin 2) (w : Nat) : Sys2Proof.Laws.NoWord.Statement (.packShortCircuit k w) := nofun
theorem Sys2Proof.Laws.NoWord.packChargeOvercurrent (k : Fin 2) (w : Nat) : Sys2Proof.Laws.NoWord.Statement (.packChargeOvercurrent k w) := nofun
theorem Sys2Proof.Laws.NoWord.packOv (k : Fin 2) (w : Nat) : Sys2Proof.Laws.NoWord.Statement (.packOv k w) := nofun
theorem Sys2Proof.Laws.NoWord.packUv (k : Fin 2) (w : Nat) : Sys2Proof.Laws.NoWord.Statement (.packUv k w) := nofun
theorem Sys2Proof.Laws.NoWord.packOvertemp (k : Fin 2) : Sys2Proof.Laws.NoWord.Statement (.packOvertemp k) := nofun
theorem Sys2Proof.Laws.NoWord.packTripRetry (k : Fin 2) (t : PkTrip) : Sys2Proof.Laws.NoWord.Statement (.packTripRetry k t) := nofun
theorem Sys2Proof.Laws.NoWord.packLatchClear (k : Fin 2) (o : Origin) (v : Word) : Sys2Proof.Laws.NoWord.Statement (.packLatchClear k o v) := nofun
theorem Sys2Proof.Laws.NoWord.coulombSample (k : Fin 2) (code : Int) : Sys2Proof.Laws.NoWord.Statement (.coulombSample k code) := nofun
theorem Sys2Proof.Laws.NoWord.coulombOffsetStart (k : Fin 2) : Sys2Proof.Laws.NoWord.Statement (.coulombOffsetStart k) := nofun
theorem Sys2Proof.Laws.NoWord.coulombOffsetDone (k : Fin 2) : Sys2Proof.Laws.NoWord.Statement (.coulombOffsetDone k) := nofun
theorem Sys2Proof.Laws.NoWord.rarexTransaction (k : Fin 2) (cmd : Rarex) (fails : List TwErr) (reply : List Byte) : Sys2Proof.Laws.NoWord.Statement (.rarexTransaction k cmd fails reply) := nofun
theorem Sys2Proof.Laws.NoWord.getSigPoll (k : Fin 2) (fails : List TwErr) : Sys2Proof.Laws.NoWord.Statement (.getSigPoll k fails) := nofun
theorem Sys2Proof.Laws.NoWord.authRunStart (k : Fin 2) : Sys2Proof.Laws.NoWord.Statement (.authRunStart k) := nofun
theorem Sys2Proof.Laws.NoWord.authRunDone (k : Fin 2) (r : Option RunIn) : Sys2Proof.Laws.NoWord.Statement (.authRunDone k r) := nofun
theorem Sys2Proof.Laws.NoWord.packAuthenticate (d : Desc) : Sys2Proof.Laws.NoWord.Statement (.packAuthenticate d) := nofun
theorem Sys2Proof.Laws.NoWord.loadKey (d : Desc) : Sys2Proof.Laws.NoWord.Statement (.loadKey d) := nofun
theorem Sys2Proof.Laws.NoWord.keyReadDone (key : BitVec 512) : Sys2Proof.Laws.NoWord.Statement (.keyReadDone key) := nofun
theorem Sys2Proof.Laws.NoWord.voidKey (d : Desc) : Sys2Proof.Laws.NoWord.Statement (.voidKey d) := nofun
theorem Sys2Proof.Laws.NoWord.authdisWrite (k : Fin 2) (o : Origin) (v : Word) : Sys2Proof.Laws.NoWord.Statement (.authdisWrite k o v) := nofun
theorem Sys2Proof.Laws.NoWord.lifeWriteback (k : Fin 2) (ok : Bool) : Sys2Proof.Laws.NoWord.Statement (.lifeWriteback k ok) := nofun
theorem Sys2Proof.Laws.NoWord.pkShipArm (o : Origin) (v : Word) : Sys2Proof.Laws.NoWord.Statement (.pkShipArm o v) := nofun
theorem Sys2Proof.Laws.NoWord.aonTick (fd : Vector Rat 4) (pk : Vector Rat 2) (wakeLow : Bool) (presHigh : BitVec 2) : Sys2Proof.Laws.NoWord.Statement (.aonTick fd pk wakeLow presHigh) := nofun
theorem Sys2Proof.Laws.NoWord.doldrumsWake (w : WakeSrc) (v : BiasIn) (r : Boot) : Sys2Proof.Laws.NoWord.Statement (.doldrumsWake w v r) := nofun
theorem Sys2Proof.Laws.NoWord.shipCut : Sys2Proof.Laws.NoWord.Statement (.shipCut) := nofun
theorem Sys2Proof.Laws.NoWord.forecastSnapshot : Sys2Proof.Laws.NoWord.Statement (.forecastSnapshot) := nofun
theorem Sys2Proof.Laws.NoWord.grantRequest (n : Fin 64) (d : Desc) : Sys2Proof.Laws.NoWord.Statement (.grantRequest n d) := nofun
theorem Sys2Proof.Laws.NoWord.grantRelease (n : Fin 64) (d : Desc) : Sys2Proof.Laws.NoWord.Statement (.grantRelease n d) := nofun
theorem Sys2Proof.Laws.NoWord.grantExtend (n : Fin 64) (d : Desc) : Sys2Proof.Laws.NoWord.Statement (.grantExtend n d) := nofun
theorem Sys2Proof.Laws.NoWord.accountRead (n : Fin 64) (d : Desc) : Sys2Proof.Laws.NoWord.Statement (.accountRead n d) := nofun
theorem Sys2Proof.Laws.NoWord.cacheFillDone (c : Nat) (e : BitVec 512) (g : Fin 3) : Sys2Proof.Laws.NoWord.Statement (.cacheFillDone c e g) := nofun
theorem Sys2Proof.Laws.NoWord.accountWriteback (c : Nat) (late : Bool) (g : Fin 3) : Sys2Proof.Laws.NoWord.Statement (.accountWriteback c late g) := nofun
theorem Sys2Proof.Laws.NoWord.grantExpire (c : Nat) : Sys2Proof.Laws.NoWord.Statement (.grantExpire c) := nofun
theorem Sys2Proof.Laws.NoWord.revokeDeadline (c : Nat) : Sys2Proof.Laws.NoWord.Statement (.revokeDeadline c) := nofun
theorem Sys2Proof.Laws.NoWord.throttleRelease (c : Nat) : Sys2Proof.Laws.NoWord.Statement (.throttleRelease c) := nofun
theorem Sys2Proof.Laws.NoWord.zoneHostStale (z : Fin 8) : Sys2Proof.Laws.NoWord.Statement (.zoneHostStale z) := nofun
theorem Sys2Proof.Laws.NoWord.bindContext (d : Desc) : Sys2Proof.Laws.NoWord.Statement (.bindContext d) := nofun
theorem Sys2Proof.Laws.NoWord.unbindContext (d : Desc) : Sys2Proof.Laws.NoWord.Statement (.unbindContext d) := nofun
theorem Sys2Proof.Laws.NoWord.grantTableSetup (d : Desc) : Sys2Proof.Laws.NoWord.Statement (.grantTableSetup d) := nofun
theorem Sys2Proof.Laws.NoWord.pePerstNAssert : Sys2Proof.Laws.NoWord.Statement (.pePerstNAssert) := nofun
theorem Sys2Proof.Laws.NoWord.linkDown : Sys2Proof.Laws.NoWord.Statement (.linkDown) := nofun
theorem Sys2Proof.Laws.NoWord.functionLevelReset : Sys2Proof.Laws.NoWord.Statement (.functionLevelReset) := nofun
theorem Sys2Proof.Laws.NoWord.d3hotEntry : Sys2Proof.Laws.NoWord.Statement (.d3hotEntry) := nofun
theorem Sys2Proof.Laws.NoWord.busMasterDisable : Sys2Proof.Laws.NoWord.Statement (.busMasterDisable) := nofun
theorem Sys2Proof.Laws.NoWord.busMasterEnable (c : PciCfg) : Sys2Proof.Laws.NoWord.Statement (.busMasterEnable c) := nofun
theorem Sys2Proof.Laws.NoWord.aspmL1Entry : Sys2Proof.Laws.NoWord.Statement (.aspmL1Entry) := nofun
theorem Sys2Proof.Laws.NoWord.sqTailDoorbell (n : Fin 64) (v : Word) : Sys2Proof.Laws.NoWord.Statement (.sqTailDoorbell n v) := nofun
theorem Sys2Proof.Laws.NoWord.cqHeadDoorbell (n : Fin 64) (v : Word) : Sys2Proof.Laws.NoWord.Statement (.cqHeadDoorbell n v) := nofun
theorem Sys2Proof.Laws.NoWord.pushSlotWrite (n : Fin 64) (ws : List (Fin 64 × Byte)) : Sys2Proof.Laws.NoWord.Statement (.pushSlotWrite n ws) := nofun
theorem Sys2Proof.Laws.NoWord.bar2InvalidWrite (off : BitVec 13) (len : Nat) : Sys2Proof.Laws.NoWord.Statement (.bar2InvalidWrite off len) := nofun
theorem Sys2Proof.Laws.NoWord.descriptorFetchDone (n : Fin 64) (ds : List Desc) : Sys2Proof.Laws.NoWord.Statement (.descriptorFetchDone n ds) := nofun
theorem Sys2Proof.Laws.NoWord.dmaReadError (r : DmaRead) (t : Fin 3) (addr : Word) : Sys2Proof.Laws.NoWord.Statement (.dmaReadError r t addr) := nofun
theorem Sys2Proof.Laws.NoWord.ringEnable (n : Fin 64) (o : Origin) (v : Word) : Sys2Proof.Laws.NoWord.Statement (.ringEnable n o v) := nofun
theorem Sys2Proof.Laws.NoWord.ringDisable (n : Fin 64) (o : Origin) (v : Word) : Sys2Proof.Laws.NoWord.Statement (.ringDisable n o v) := nofun
theorem Sys2Proof.Laws.NoWord.ringDrained (n : Fin 64) : Sys2Proof.Laws.NoWord.Statement (.ringDrained n) := nofun
theorem Sys2Proof.Laws.NoWord.completionPost (n : Fin 64) : Sys2Proof.Laws.NoWord.Statement (.completionPost n) := nofun
theorem Sys2Proof.Laws.NoWord.msixTimerExpire (n : Fin 64) : Sys2Proof.Laws.NoWord.Statement (.msixTimerExpire n) := nofun
theorem Sys2Proof.Laws.NoWord.msixUnmask (v : Fin 64) (o : Origin) (w : Word) : Sys2Proof.Laws.NoWord.Statement (.msixUnmask v o w) := nofun
theorem Sys2Proof.Laws.NoWord.adminDeferredStart (elems : List (BitVec 64)) : Sys2Proof.Laws.NoWord.Statement (.adminDeferredStart elems) := nofun
theorem Sys2Proof.Laws.NoWord.identify (d : Desc) : Sys2Proof.Laws.NoWord.Statement (.identify d) := nofun
theorem Sys2Proof.Laws.NoWord.setLimits (ds : List Desc) : Sys2Proof.Laws.NoWord.Statement (.setLimits ds) := nofun
theorem Sys2Proof.Laws.NoWord.setLimitsApply : Sys2Proof.Laws.NoWord.Statement (.setLimitsApply) := nofun
theorem Sys2Proof.Laws.NoWord.getTelemetry (ds : List Desc) (elems : List (BitVec 64)) : Sys2Proof.Laws.NoWord.Statement (.getTelemetry ds elems) := nofun
theorem Sys2Proof.Laws.NoWord.telemetryRecord (capture : Bool) (skip : Bool) : Sys2Proof.Laws.NoWord.Statement (.telemetryRecord capture skip) := nofun
theorem Sys2Proof.Laws.NoWord.journalDrain (d : Desc) : Sys2Proof.Laws.NoWord.Statement (.journalDrain d) := nofun
theorem Sys2Proof.Laws.NoWord.twMPointerSet (ptr : BitVec 16) (pec : Option Byte) (stop : Bool) : Sys2Proof.Laws.NoWord.Statement (.twMPointerSet ptr pec stop) := nofun
theorem Sys2Proof.Laws.NoWord.twMWrite (bytes : List Byte) (stop : Bool) : Sys2Proof.Laws.NoWord.Statement (.twMWrite bytes stop) := nofun
theorem Sys2Proof.Laws.NoWord.twMRead (n : Nat) (stop : Bool) : Sys2Proof.Laws.NoWord.Statement (.twMRead n stop) := nofun
theorem Sys2Proof.Laws.NoWord.twBusError (p : Fin 3) : Sys2Proof.Laws.NoWord.Statement (.twBusError p) := nofun
theorem Sys2Proof.Laws.NoWord.twSclTimeout (p : Fin 3) : Sys2Proof.Laws.NoWord.Statement (.twSclTimeout p) := nofun
theorem Sys2Proof.Laws.NoWord.twSdaTimeout (p : Fin 3) : Sys2Proof.Laws.NoWord.Statement (.twSdaTimeout p) := nofun
theorem Sys2Proof.Laws.NoWord.twBusFree (p : Fin 3) : Sys2Proof.Laws.NoWord.Statement (.twBusFree p) := nofun
theorem Sys2Proof.Laws.NoWord.alertRaise : Sys2Proof.Laws.NoWord.Statement (.alertRaise) := nofun
theorem Sys2Proof.Laws.NoWord.alertResponse (lost : Bool) : Sys2Proof.Laws.NoWord.Statement (.alertResponse lost) := nofun
theorem Sys2Proof.Laws.NoWord.hostNotify (acked : Bool) : Sys2Proof.Laws.NoWord.Statement (.hostNotify acked) := nofun
theorem Sys2Proof.Laws.NoWord.hostNotifyRetry (acked : Bool) : Sys2Proof.Laws.NoWord.Statement (.hostNotifyRetry acked) := nofun
theorem Sys2Proof.Laws.NoWord.hostNotifyDrop : Sys2Proof.Laws.NoWord.Statement (.hostNotifyDrop) := nofun
theorem Sys2Proof.Laws.NoWord.twArbLost (p : Fin 3) (own : Bool) : Sys2Proof.Laws.NoWord.Statement (.twArbLost p own) := nofun
theorem Sys2Proof.Laws.NoWord.twBusClear (p : Fin 3) (pulses : Option (Fin 10)) : Sys2Proof.Laws.NoWord.Statement (.twBusClear p pulses) := nofun
theorem Sys2Proof.Laws.NoWord.twBusclr (p : Fin 3) (o : Origin) (v : Word) : Sys2Proof.Laws.NoWord.Statement (.twBusclr p o v) := nofun
theorem Sys2Proof.Laws.NoWord.twPortReset (p : Fin 3) (o : Origin) (v : Word) : Sys2Proof.Laws.NoWord.Statement (.twPortReset p o v) := nofun
theorem Sys2Proof.Laws.NoWord.cmpGpEvent (g : Fin 2) (x : Int) (w : Nat) : Sys2Proof.Laws.NoWord.Statement (.cmpGpEvent g x w) := nofun
theorem Sys2Proof.Laws.NoWord.busUv (w : Nat) : Sys2Proof.Laws.NoWord.Statement (.busUv w) := nofun
theorem Sys2Proof.Laws.NoWord.biasLow (w : Nat) : Sys2Proof.Laws.NoWord.Statement (.biasLow w) := nofun
theorem Sys2Proof.Laws.NoWord.biasOv (w : Nat) : Sys2Proof.Laws.NoWord.Statement (.biasOv w) := nofun
theorem Sys2Proof.Laws.NoWord.comparatorAutozero (c : Fin 48) (trim : Int) (x : Int) : Sys2Proof.Laws.NoWord.Statement (.comparatorAutozero c trim x) := nofun
theorem Sys2Proof.Laws.NoWord.adcaPass (inp : AdcIn) (t : Rat) : Sys2Proof.Laws.NoWord.Statement (.adcaPass inp t) := nofun
theorem Sys2Proof.Laws.NoWord.adcbPass (inp : AdcIn) (t : Rat) : Sys2Proof.Laws.NoWord.Statement (.adcbPass inp t) := nofun
theorem Sys2Proof.Laws.NoWord.adcInjection (x : Fin 2) (k : Fin 4) (inp : AdcIn) (pair : Int) (t : Rat) : Sys2Proof.Laws.NoWord.Statement (.adcInjection x k inp pair t) := nofun
theorem Sys2Proof.Laws.NoWord.referenceLoss (r : Fin 3) (busy : BitVec 2) : Sys2Proof.Laws.NoWord.Statement (.referenceLoss r busy) := nofun
theorem Sys2Proof.Laws.NoWord.refselWrite (x : Fin 2) (o : Origin) (v : Word) : Sys2Proof.Laws.NoWord.Statement (.refselWrite x o v) := nofun
theorem Sys2Proof.Laws.NoWord.adcCrossCheck (x : Fin 2) (c42 : BitVec 16) (c43 : BitVec 16) (c36 : BitVec 16) : Sys2Proof.Laws.NoWord.Statement (.adcCrossCheck x c42 c43 c36) := nofun
theorem Sys2Proof.Laws.NoWord.dieTempReading (tc : Vector Int 5) : Sys2Proof.Laws.NoWord.Statement (.dieTempReading tc) := nofun
theorem Sys2Proof.Laws.NoWord.anvilOvertemp : Sys2Proof.Laws.NoWord.Statement (.anvilOvertemp) := nofun
theorem Sys2Proof.Laws.NoWord.stageTempReading (n : Fin 16) : Sys2Proof.Laws.NoWord.Statement (.stageTempReading n) := nofun
theorem Sys2Proof.Laws.NoWord.ncapStep (k : Fin 2) : Sys2Proof.Laws.NoWord.Statement (.ncapStep k) := nofun
theorem Sys2Proof.Laws.NoWord.thermalCompUpdate (q : Fin 4) : Sys2Proof.Laws.NoWord.Statement (.thermalCompUpdate q) := nofun
theorem Sys2Proof.Laws.NoWord.timerIncrement (n : Fin 8) (sync : Bool) : Sys2Proof.Laws.NoWord.Statement (.timerIncrement n sync) := nofun
theorem Sys2Proof.Laws.NoWord.timerCapture (n : Fin 8) (c : Fin 4) : Sys2Proof.Laws.NoWord.Statement (.timerCapture n c) := nofun
theorem Sys2Proof.Laws.NoWord.timerCaptureRead (n : Fin 8) (c : Fin 4) (o : Origin) : Sys2Proof.Laws.NoWord.Statement (.timerCaptureRead n c o) := nofun
theorem Sys2Proof.Laws.NoWord.timerCntWrite (n : Fin 8) (o : Origin) (v : Word) : Sys2Proof.Laws.NoWord.Statement (.timerCntWrite n o v) := nofun
theorem Sys2Proof.Laws.NoWord.timerCcrWrite (n : Fin 8) (c : Fin 4) (o : Origin) (v : Word) : Sys2Proof.Laws.NoWord.Statement (.timerCcrWrite n c o v) := nofun
theorem Sys2Proof.Laws.NoWord.timerEnable (n : Fin 8) (o : Origin) (v : Word) : Sys2Proof.Laws.NoWord.Statement (.timerEnable n o v) := nofun
theorem Sys2Proof.Laws.NoWord.timerTriggerEdge (n : Fin 8) : Sys2Proof.Laws.NoWord.Statement (.timerTriggerEdge n) := nofun
theorem Sys2Proof.Laws.NoWord.devtimeWrap : Sys2Proof.Laws.NoWord.Statement (.devtimeWrap) := nofun
theorem Sys2Proof.Laws.NoWord.cpDebugHalt : Sys2Proof.Laws.NoWord.Statement (.cpDebugHalt) := nofun
theorem Sys2Proof.Laws.NoWord.patrolScrub (r : Scrub) (off : BitVec 19) (lane : Fin 4) (last : Bool) (late : Bool) : Sys2Proof.Laws.NoWord.Statement (.patrolScrub r off lane last late) := nofun
theorem Sys2Proof.Laws.NoWord.b4WipeDone : Sys2Proof.Laws.NoWord.Statement (.b4WipeDone) := nofun
theorem Sys2Proof.Laws.NoWord.faultEvent : Sys2Proof.Laws.NoWord.Statement (.faultEvent) := nofun
theorem Sys2Proof.Laws.NoWord.graceExpire (mask : BitVec 64) : Sys2Proof.Laws.NoWord.Statement (.graceExpire mask) := nofun
theorem Sys2Proof.Laws.NoWord.faultAck (hi : Bool) (o : Origin) (v : Word) : Sys2Proof.Laws.NoWord.Statement (.faultAck hi o v) := nofun
theorem Sys2Proof.Laws.NoWord.fltAutoAck (src : Fin 64) : Sys2Proof.Laws.NoWord.Statement (.fltAutoAck src) := nofun
theorem Sys2Proof.Laws.NoWord.firstErrorRearm (o : Origin) (v : Word) : Sys2Proof.Laws.NoWord.Statement (.firstErrorRearm o v) := nofun
theorem Sys2Proof.Laws.NoWord.watchdogExpire : Sys2Proof.Laws.NoWord.Statement (.watchdogExpire) := nofun
theorem Sys2Proof.Laws.NoWord.collectorSelfCheck (bad : CollScan) : Sys2Proof.Laws.NoWord.Statement (.collectorSelfCheck bad) := nofun
theorem Sys2Proof.Laws.NoWord.safeClockLoss : Sys2Proof.Laws.NoWord.Statement (.safeClockLoss) := nofun
theorem Sys2Proof.Laws.NoWord.faultInject (o : Origin) (v : Word) : Sys2Proof.Laws.NoWord.Statement (.faultInject o v) := nofun
theorem Sys2Proof.Laws.NoWord.faultPulseEnd : Sys2Proof.Laws.NoWord.Statement (.faultPulseEnd) := nofun
theorem Sys2Proof.Laws.NoWord.heartbeatResume (o : Origin) (v : Word) : Sys2Proof.Laws.NoWord.Statement (.heartbeatResume o v) := nofun
theorem Sys2Proof.Laws.NoWord.d2dRetry : Sys2Proof.Laws.NoWord.Statement (.d2dRetry) := nofun
theorem Sys2Proof.Laws.NoWord.d2dLinkLoss : Sys2Proof.Laws.NoWord.Statement (.d2dLinkLoss) := nofun
theorem Sys2Proof.Laws.NoWord.refLoss (c0 : Nat) (c1 : Nat) : Sys2Proof.Laws.NoWord.Statement (.refLoss c0 c1) := nofun
theorem Sys2Proof.Laws.NoWord.attendPress : Sys2Proof.Laws.NoWord.Statement (.attendPress) := nofun
theorem Sys2Proof.Laws.NoWord.attendRelease : Sys2Proof.Laws.NoWord.Statement (.attendRelease) := nofun
theorem Sys2Proof.Laws.NoWord.presenceTimeout : Sys2Proof.Laws.NoWord.Statement (.presenceTimeout) := nofun
theorem Sys2Proof.Laws.NoWord.presenceClose (o : Origin) (v : Word) : Sys2Proof.Laws.NoWord.Statement (.presenceClose o v) := nofun
theorem Sys2Proof.Laws.NoWord.journalWrite : Sys2Proof.Laws.NoWord.Statement (.journalWrite) := nofun
theorem Sys2Proof.Laws.NoWord.jnlRdidxWrite (o : Origin) (v : Word) : Sys2Proof.Laws.NoWord.Statement (.jnlRdidxWrite o v) := nofun
theorem Sys2Proof.Laws.NoWord.jnlRelWrite (o : Origin) (v : Word) : Sys2Proof.Laws.NoWord.Statement (.jnlRelWrite o v) := nofun
theorem Sys2Proof.Laws.NoWord.registerWrite (o : Origin) (off : BitVec 16) (v : Word) (f : Bar0Form) : Sys2Proof.Laws.NoWord.Statement (.registerWrite o off v f) := nofun
theorem Sys2Proof.Laws.NoWord.registerRead (o : Origin) (off : BitVec 16) (long : Bool) : Sys2Proof.Laws.NoWord.Statement (.registerRead o off long) := nofun
theorem Sys2Proof.Laws.NoWord.referenceReady (r : Fin 3) : Sys2Proof.Laws.NoWord.Statement (.referenceReady r) := nofun
theorem Sys2Proof.Laws.NoWord.linkUp (g : Fin 3) : Sys2Proof.Laws.NoWord.Statement (.linkUp g) := nofun
theorem Sys2Proof.Laws.NoWord.aspmL1Exit : Sys2Proof.Laws.NoWord.Statement (.aspmL1Exit) := nofun
theorem Sys2Proof.Laws.NoWord.cpDebugResume : Sys2Proof.Laws.NoWord.Statement (.cpDebugResume) := nofun
theorem Sys2Proof.Laws.NoWord.blankingIntervalEnd (c : Fin 48) (x : Int) : Sys2Proof.Laws.NoWord.Statement (.blankingIntervalEnd c x) := nofun
theorem Sys2Proof.Laws.NoWord.faultNHeartbeat : Sys2Proof.Laws.NoWord.Statement (.faultNHeartbeat) := nofun
end

