-- ==== Sys2Proof/Laws/State.lean ====
section
/-! SUPPORT. What each update of the state leaves as it was, field by field, and what reading gives after an update. -/

namespace Sys2Proof.Machine

variable (s : State)

/-! `State.setWord` -/

@[simp] theorem State.setWord_devtime (off : Nat) (w : Word) : (s.setWord off w).devtime = s.devtime := rfl
@[simp] theorem State.setWord_jnl (off : Nat) (w : Word) : (s.setWord off w).jnl = s.jnl := rfl
@[simp] theorem State.setWord_heldAcc (off : Nat) (w : Word) : (s.setWord off w).heldAcc = s.heldAcc := rfl
@[simp] theorem State.setWord_flt (off : Nat) (w : Word) : (s.setWord off w).flt = s.flt := rfl
@[simp] theorem State.setWord_sys (off : Nat) (w : Word) : (s.setWord off w).sys = s.sys := rfl
@[simp] theorem State.setWord_auth (off : Nat) (w : Word) : (s.setWord off w).auth = s.auth := rfl
@[simp] theorem State.setWord_feed (off : Nat) (w : Word) : (s.setWord off w).feed = s.feed := rfl
@[simp] theorem State.setWord_ph (off : Nat) (w : Word) : (s.setWord off w).ph = s.ph := rfl
@[simp] theorem State.setWord_php (off : Nat) (w : Word) : (s.setWord off w).php = s.php := rfl
@[simp] theorem State.setWord_phg (off : Nat) (w : Word) : (s.setWord off w).phg = s.phg := rfl
@[simp] theorem State.setWord_meas (off : Nat) (w : Word) : (s.setWord off w).meas = s.meas := rfl
@[simp] theorem State.setWord_chg (off : Nat) (w : Word) : (s.setWord off w).chg = s.chg := rfl
@[simp] theorem State.setWord_chgg (off : Nat) (w : Word) : (s.setWord off w).chgg = s.chgg := rfl
@[simp] theorem State.setWord_pk (off : Nat) (w : Word) : (s.setWord off w).pk = s.pk := rfl
@[simp] theorem State.setWord_aon (off : Nat) (w : Word) : (s.setWord off w).aon = s.aon := rfl
@[simp] theorem State.setWord_fc (off : Nat) (w : Word) : (s.setWord off w).fc = s.fc := rfl
@[simp] theorem State.setWord_ring (off : Nat) (w : Word) : (s.setWord off w).ring = s.ring := rfl
@[simp] theorem State.setWord_hif (off : Nat) (w : Word) : (s.setWord off w).hif = s.hif := rfl
@[simp] theorem State.setWord_tw (off : Nat) (w : Word) : (s.setWord off w).tw = s.tw := rfl
@[simp] theorem State.setWord_cmp (off : Nat) (w : Word) : (s.setWord off w).cmp = s.cmp := rfl
@[simp] theorem State.setWord_adc (off : Nat) (w : Word) : (s.setWord off w).adc = s.adc := rfl
@[simp] theorem State.setWord_tmr (off : Nat) (w : Word) : (s.setWord off w).tmr = s.tmr := rfl
@[simp] theorem State.setWord_thm (off : Nat) (w : Word) : (s.setWord off w).thm = s.thm := rfl
@[simp] theorem State.setWord_mem (off : Nat) (w : Word) : (s.setWord off w).mem = s.mem := rfl
@[simp] theorem State.setWord_out (off : Nat) (w : Word) : (s.setWord off w).out = s.out := rfl
@[simp] theorem State.setWord_rdata (off : Nat) (w : Word) : (s.setWord off w).rdata = s.rdata := rfl
@[simp] theorem State.setWord_freeCtr (off : Nat) (w : Word) : (s.setWord off w).freeCtr = s.freeCtr := rfl
@[simp] theorem State.setWord_pending (off : Nat) (w : Word) : (s.setWord off w).pending = s.pending := rfl

/-! `State.setFld` -/

@[simp] theorem State.setFld_devtime (f : Fld) (v : Nat) : (s.setFld f v).devtime = s.devtime := rfl
@[simp] theorem State.setFld_jnl (f : Fld) (v : Nat) : (s.setFld f v).jnl = s.jnl := rfl
@[simp] theorem State.setFld_heldAcc (f : Fld) (v : Nat) : (s.setFld f v).heldAcc = s.heldAcc := rfl
@[simp] theorem State.setFld_flt (f : Fld) (v : Nat) : (s.setFld f v).flt = s.flt := rfl
@[simp] theorem State.setFld_sys (f : Fld) (v : Nat) : (s.setFld f v).sys = s.sys := rfl
@[simp] theorem State.setFld_auth (f : Fld) (v : Nat) : (s.setFld f v).auth = s.auth := rfl
@[simp] theorem State.setFld_feed (f : Fld) (v : Nat) : (s.setFld f v).feed = s.feed := rfl
@[simp] theorem State.setFld_ph (f : Fld) (v : Nat) : (s.setFld f v).ph = s.ph := rfl
@[simp] theorem State.setFld_php (f : Fld) (v : Nat) : (s.setFld f v).php = s.php := rfl
@[simp] theorem State.setFld_phg (f : Fld) (v : Nat) : (s.setFld f v).phg = s.phg := rfl
@[simp] theorem State.setFld_meas (f : Fld) (v : Nat) : (s.setFld f v).meas = s.meas := rfl
@[simp] theorem State.setFld_chg (f : Fld) (v : Nat) : (s.setFld f v).chg = s.chg := rfl
@[simp] theorem State.setFld_chgg (f : Fld) (v : Nat) : (s.setFld f v).chgg = s.chgg := rfl
@[simp] theorem State.setFld_pk (f : Fld) (v : Nat) : (s.setFld f v).pk = s.pk := rfl
@[simp] theorem State.setFld_aon (f : Fld) (v : Nat) : (s.setFld f v).aon = s.aon := rfl
@[simp] theorem State.setFld_fc (f : Fld) (v : Nat) : (s.setFld f v).fc = s.fc := rfl
@[simp] theorem State.setFld_ring (f : Fld) (v : Nat) : (s.setFld f v).ring = s.ring := rfl
@[simp] theorem State.setFld_hif (f : Fld) (v : Nat) : (s.setFld f v).hif = s.hif := rfl
@[simp] theorem State.setFld_tw (f : Fld) (v : Nat) : (s.setFld f v).tw = s.tw := rfl
@[simp] theorem State.setFld_cmp (f : Fld) (v : Nat) : (s.setFld f v).cmp = s.cmp := rfl
@[simp] theorem State.setFld_adc (f : Fld) (v : Nat) : (s.setFld f v).adc = s.adc := rfl
@[simp] theorem State.setFld_tmr (f : Fld) (v : Nat) : (s.setFld f v).tmr = s.tmr := rfl
@[simp] theorem State.setFld_thm (f : Fld) (v : Nat) : (s.setFld f v).thm = s.thm := rfl
@[simp] theorem State.setFld_mem (f : Fld) (v : Nat) : (s.setFld f v).mem = s.mem := rfl
@[simp] theorem State.setFld_out (f : Fld) (v : Nat) : (s.setFld f v).out = s.out := rfl
@[simp] theorem State.setFld_rdata (f : Fld) (v : Nat) : (s.setFld f v).rdata = s.rdata := rfl
@[simp] theorem State.setFld_freeCtr (f : Fld) (v : Nat) : (s.setFld f v).freeCtr = s.freeCtr := rfl
@[simp] theorem State.setFld_pending (f : Fld) (v : Nat) : (s.setFld f v).pending = s.pending := rfl

/-! `State.setOn` -/

@[simp] theorem State.setOn_devtime (f : Fld) (b : Bool) : (s.setOn f b).devtime = s.devtime := rfl
@[simp] theorem State.setOn_jnl (f : Fld) (b : Bool) : (s.setOn f b).jnl = s.jnl := rfl
@[simp] theorem State.setOn_heldAcc (f : Fld) (b : Bool) : (s.setOn f b).heldAcc = s.heldAcc := rfl
@[simp] theorem State.setOn_flt (f : Fld) (b : Bool) : (s.setOn f b).flt = s.flt := rfl
@[simp] theorem State.setOn_sys (f : Fld) (b : Bool) : (s.setOn f b).sys = s.sys := rfl
@[simp] theorem State.setOn_auth (f : Fld) (b : Bool) : (s.setOn f b).auth = s.auth := rfl
@[simp] theorem State.setOn_feed (f : Fld) (b : Bool) : (s.setOn f b).feed = s.feed := rfl
@[simp] theorem State.setOn_ph (f : Fld) (b : Bool) : (s.setOn f b).ph = s.ph := rfl
@[simp] theorem State.setOn_php (f : Fld) (b : Bool) : (s.setOn f b).php = s.php := rfl
@[simp] theorem State.setOn_phg (f : Fld) (b : Bool) : (s.setOn f b).phg = s.phg := rfl
@[simp] theorem State.setOn_meas (f : Fld) (b : Bool) : (s.setOn f b).meas = s.meas := rfl
@[simp] theorem State.setOn_chg (f : Fld) (b : Bool) : (s.setOn f b).chg = s.chg := rfl
@[simp] theorem State.setOn_chgg (f : Fld) (b : Bool) : (s.setOn f b).chgg = s.chgg := rfl
@[simp] theorem State.setOn_pk (f : Fld) (b : Bool) : (s.setOn f b).pk = s.pk := rfl
@[simp] theorem State.setOn_aon (f : Fld) (b : Bool) : (s.setOn f b).aon = s.aon := rfl
@[simp] theorem State.setOn_fc (f : Fld) (b : Bool) : (s.setOn f b).fc = s.fc := rfl
@[simp] theorem State.setOn_ring (f : Fld) (b : Bool) : (s.setOn f b).ring = s.ring := rfl
@[simp] theorem State.setOn_hif (f : Fld) (b : Bool) : (s.setOn f b).hif = s.hif := rfl
@[simp] theorem State.setOn_tw (f : Fld) (b : Bool) : (s.setOn f b).tw = s.tw := rfl
@[simp] theorem State.setOn_cmp (f : Fld) (b : Bool) : (s.setOn f b).cmp = s.cmp := rfl
@[simp] theorem State.setOn_adc (f : Fld) (b : Bool) : (s.setOn f b).adc = s.adc := rfl
@[simp] theorem State.setOn_tmr (f : Fld) (b : Bool) : (s.setOn f b).tmr = s.tmr := rfl
@[simp] theorem State.setOn_thm (f : Fld) (b : Bool) : (s.setOn f b).thm = s.thm := rfl
@[simp] theorem State.setOn_mem (f : Fld) (b : Bool) : (s.setOn f b).mem = s.mem := rfl
@[simp] theorem State.setOn_out (f : Fld) (b : Bool) : (s.setOn f b).out = s.out := rfl
@[simp] theorem State.setOn_rdata (f : Fld) (b : Bool) : (s.setOn f b).rdata = s.rdata := rfl
@[simp] theorem State.setOn_freeCtr (f : Fld) (b : Bool) : (s.setOn f b).freeCtr = s.freeCtr := rfl
@[simp] theorem State.setOn_pending (f : Fld) (b : Bool) : (s.setOn f b).pending = s.pending := rfl

/-! `State.setSfld` -/

@[simp] theorem State.setSfld_devtime (f : Fld) (i : Int) : (s.setSfld f i).devtime = s.devtime := rfl
@[simp] theorem State.setSfld_jnl (f : Fld) (i : Int) : (s.setSfld f i).jnl = s.jnl := rfl
@[simp] theorem State.setSfld_heldAcc (f : Fld) (i : Int) : (s.setSfld f i).heldAcc = s.heldAcc := rfl
@[simp] theorem State.setSfld_flt (f : Fld) (i : Int) : (s.setSfld f i).flt = s.flt := rfl
@[simp] theorem State.setSfld_sys (f : Fld) (i : Int) : (s.setSfld f i).sys = s.sys := rfl
@[simp] theorem State.setSfld_auth (f : Fld) (i : Int) : (s.setSfld f i).auth = s.auth := rfl
@[simp] theorem State.setSfld_feed (f : Fld) (i : Int) : (s.setSfld f i).feed = s.feed := rfl
@[simp] theorem State.setSfld_ph (f : Fld) (i : Int) : (s.setSfld f i).ph = s.ph := rfl
@[simp] theorem State.setSfld_php (f : Fld) (i : Int) : (s.setSfld f i).php = s.php := rfl
@[simp] theorem State.setSfld_phg (f : Fld) (i : Int) : (s.setSfld f i).phg = s.phg := rfl
@[simp] theorem State.setSfld_meas (f : Fld) (i : Int) : (s.setSfld f i).meas = s.meas := rfl
@[simp] theorem State.setSfld_chg (f : Fld) (i : Int) : (s.setSfld f i).chg = s.chg := rfl
@[simp] theorem State.setSfld_chgg (f : Fld) (i : Int) : (s.setSfld f i).chgg = s.chgg := rfl
@[simp] theorem State.setSfld_pk (f : Fld) (i : Int) : (s.setSfld f i).pk = s.pk := rfl
@[simp] theorem State.setSfld_aon (f : Fld) (i : Int) : (s.setSfld f i).aon = s.aon := rfl
@[simp] theorem State.setSfld_fc (f : Fld) (i : Int) : (s.setSfld f i).fc = s.fc := rfl
@[simp] theorem State.setSfld_ring (f : Fld) (i : Int) : (s.setSfld f i).ring = s.ring := rfl
@[simp] theorem State.setSfld_hif (f : Fld) (i : Int) : (s.setSfld f i).hif = s.hif := rfl
@[simp] theorem State.setSfld_tw (f : Fld) (i : Int) : (s.setSfld f i).tw = s.tw := rfl
@[simp] theorem State.setSfld_cmp (f : Fld) (i : Int) : (s.setSfld f i).cmp = s.cmp := rfl
@[simp] theorem State.setSfld_adc (f : Fld) (i : Int) : (s.setSfld f i).adc = s.adc := rfl
@[simp] theorem State.setSfld_tmr (f : Fld) (i : Int) : (s.setSfld f i).tmr = s.tmr := rfl
@[simp] theorem State.setSfld_thm (f : Fld) (i : Int) : (s.setSfld f i).thm = s.thm := rfl
@[simp] theorem State.setSfld_mem (f : Fld) (i : Int) : (s.setSfld f i).mem = s.mem := rfl
@[simp] theorem State.setSfld_out (f : Fld) (i : Int) : (s.setSfld f i).out = s.out := rfl
@[simp] theorem State.setSfld_rdata (f : Fld) (i : Int) : (s.setSfld f i).rdata = s.rdata := rfl
@[simp] theorem State.setSfld_freeCtr (f : Fld) (i : Int) : (s.setSfld f i).freeCtr = s.freeCtr := rfl
@[simp] theorem State.setSfld_pending (f : Fld) (i : Int) : (s.setSfld f i).pending = s.pending := rfl

/-! `State.setCode` -/

@[simp] theorem State.setCode_devtime (f : Fld) (q : Rat) : (s.setCode f q).devtime = s.devtime := rfl
@[simp] theorem State.setCode_jnl (f : Fld) (q : Rat) : (s.setCode f q).jnl = s.jnl := rfl
@[simp] theorem State.setCode_heldAcc (f : Fld) (q : Rat) : (s.setCode f q).heldAcc = s.heldAcc := rfl
@[simp] theorem State.setCode_flt (f : Fld) (q : Rat) : (s.setCode f q).flt = s.flt := rfl
@[simp] theorem State.setCode_sys (f : Fld) (q : Rat) : (s.setCode f q).sys = s.sys := rfl
@[simp] theorem State.setCode_auth (f : Fld) (q : Rat) : (s.setCode f q).auth = s.auth := rfl
@[simp] theorem State.setCode_feed (f : Fld) (q : Rat) : (s.setCode f q).feed = s.feed := rfl
@[simp] theorem State.setCode_ph (f : Fld) (q : Rat) : (s.setCode f q).ph = s.ph := rfl
@[simp] theorem State.setCode_php (f : Fld) (q : Rat) : (s.setCode f q).php = s.php := rfl
@[simp] theorem State.setCode_phg (f : Fld) (q : Rat) : (s.setCode f q).phg = s.phg := rfl
@[simp] theorem State.setCode_meas (f : Fld) (q : Rat) : (s.setCode f q).meas = s.meas := rfl
@[simp] theorem State.setCode_chg (f : Fld) (q : Rat) : (s.setCode f q).chg = s.chg := rfl
@[simp] theorem State.setCode_chgg (f : Fld) (q : Rat) : (s.setCode f q).chgg = s.chgg := rfl
@[simp] theorem State.setCode_pk (f : Fld) (q : Rat) : (s.setCode f q).pk = s.pk := rfl
@[simp] theorem State.setCode_aon (f : Fld) (q : Rat) : (s.setCode f q).aon = s.aon := rfl
@[simp] theorem State.setCode_fc (f : Fld) (q : Rat) : (s.setCode f q).fc = s.fc := rfl
@[simp] theorem State.setCode_ring (f : Fld) (q : Rat) : (s.setCode f q).ring = s.ring := rfl
@[simp] theorem State.setCode_hif (f : Fld) (q : Rat) : (s.setCode f q).hif = s.hif := rfl
@[simp] theorem State.setCode_tw (f : Fld) (q : Rat) : (s.setCode f q).tw = s.tw := rfl
@[simp] theorem State.setCode_cmp (f : Fld) (q : Rat) : (s.setCode f q).cmp = s.cmp := rfl
@[simp] theorem State.setCode_adc (f : Fld) (q : Rat) : (s.setCode f q).adc = s.adc := rfl
@[simp] theorem State.setCode_tmr (f : Fld) (q : Rat) : (s.setCode f q).tmr = s.tmr := rfl
@[simp] theorem State.setCode_thm (f : Fld) (q : Rat) : (s.setCode f q).thm = s.thm := rfl
@[simp] theorem State.setCode_mem (f : Fld) (q : Rat) : (s.setCode f q).mem = s.mem := rfl
@[simp] theorem State.setCode_out (f : Fld) (q : Rat) : (s.setCode f q).out = s.out := rfl
@[simp] theorem State.setCode_rdata (f : Fld) (q : Rat) : (s.setCode f q).rdata = s.rdata := rfl
@[simp] theorem State.setCode_freeCtr (f : Fld) (q : Rat) : (s.setCode f q).freeCtr = s.freeCtr := rfl
@[simp] theorem State.setCode_pending (f : Fld) (q : Rat) : (s.setCode f q).pending = s.pending := rfl

/-! `State.setScode` -/

@[simp] theorem State.setScode_devtime (f : Fld) (q : Rat) : (s.setScode f q).devtime = s.devtime := rfl
@[simp] theorem State.setScode_jnl (f : Fld) (q : Rat) : (s.setScode f q).jnl = s.jnl := rfl
@[simp] theorem State.setScode_heldAcc (f : Fld) (q : Rat) : (s.setScode f q).heldAcc = s.heldAcc := rfl
@[simp] theorem State.setScode_flt (f : Fld) (q : Rat) : (s.setScode f q).flt = s.flt := rfl
@[simp] theorem State.setScode_sys (f : Fld) (q : Rat) : (s.setScode f q).sys = s.sys := rfl
@[simp] theorem State.setScode_auth (f : Fld) (q : Rat) : (s.setScode f q).auth = s.auth := rfl
@[simp] theorem State.setScode_feed (f : Fld) (q : Rat) : (s.setScode f q).feed = s.feed := rfl
@[simp] theorem State.setScode_ph (f : Fld) (q : Rat) : (s.setScode f q).ph = s.ph := rfl
@[simp] theorem State.setScode_php (f : Fld) (q : Rat) : (s.setScode f q).php = s.php := rfl
@[simp] theorem State.setScode_phg (f : Fld) (q : Rat) : (s.setScode f q).phg = s.phg := rfl
@[simp] theorem State.setScode_meas (f : Fld) (q : Rat) : (s.setScode f q).meas = s.meas := rfl
@[simp] theorem State.setScode_chg (f : Fld) (q : Rat) : (s.setScode f q).chg = s.chg := rfl
@[simp] theorem State.setScode_chgg (f : Fld) (q : Rat) : (s.setScode f q).chgg = s.chgg := rfl
@[simp] theorem State.setScode_pk (f : Fld) (q : Rat) : (s.setScode f q).pk = s.pk := rfl
@[simp] theorem State.setScode_aon (f : Fld) (q : Rat) : (s.setScode f q).aon = s.aon := rfl
@[simp] theorem State.setScode_fc (f : Fld) (q : Rat) : (s.setScode f q).fc = s.fc := rfl
@[simp] theorem State.setScode_ring (f : Fld) (q : Rat) : (s.setScode f q).ring = s.ring := rfl
@[simp] theorem State.setScode_hif (f : Fld) (q : Rat) : (s.setScode f q).hif = s.hif := rfl
@[simp] theorem State.setScode_tw (f : Fld) (q : Rat) : (s.setScode f q).tw = s.tw := rfl
@[simp] theorem State.setScode_cmp (f : Fld) (q : Rat) : (s.setScode f q).cmp = s.cmp := rfl
@[simp] theorem State.setScode_adc (f : Fld) (q : Rat) : (s.setScode f q).adc = s.adc := rfl
@[simp] theorem State.setScode_tmr (f : Fld) (q : Rat) : (s.setScode f q).tmr = s.tmr := rfl
@[simp] theorem State.setScode_thm (f : Fld) (q : Rat) : (s.setScode f q).thm = s.thm := rfl
@[simp] theorem State.setScode_mem (f : Fld) (q : Rat) : (s.setScode f q).mem = s.mem := rfl
@[simp] theorem State.setScode_out (f : Fld) (q : Rat) : (s.setScode f q).out = s.out := rfl
@[simp] theorem State.setScode_rdata (f : Fld) (q : Rat) : (s.setScode f q).rdata = s.rdata := rfl
@[simp] theorem State.setScode_freeCtr (f : Fld) (q : Rat) : (s.setScode f q).freeCtr = s.freeCtr := rfl
@[simp] theorem State.setScode_pending (f : Fld) (q : Rat) : (s.setScode f q).pending = s.pending := rfl

/-! `State.modFeed` -/

@[simp] theorem State.modFeed_regs (i : Fin 4) (f : FeedH → FeedH) : (s.modFeed i f).regs = s.regs := rfl
@[simp] theorem State.modFeed_devtime (i : Fin 4) (f : FeedH → FeedH) : (s.modFeed i f).devtime = s.devtime := rfl
@[simp] theorem State.modFeed_jnl (i : Fin 4) (f : FeedH → FeedH) : (s.modFeed i f).jnl = s.jnl := rfl
@[simp] theorem State.modFeed_heldAcc (i : Fin 4) (f : FeedH → FeedH) : (s.modFeed i f).heldAcc = s.heldAcc := rfl
@[simp] theorem State.modFeed_flt (i : Fin 4) (f : FeedH → FeedH) : (s.modFeed i f).flt = s.flt := rfl
@[simp] theorem State.modFeed_sys (i : Fin 4) (f : FeedH → FeedH) : (s.modFeed i f).sys = s.sys := rfl
@[simp] theorem State.modFeed_auth (i : Fin 4) (f : FeedH → FeedH) : (s.modFeed i f).auth = s.auth := rfl
@[simp] theorem State.modFeed_ph (i : Fin 4) (f : FeedH → FeedH) : (s.modFeed i f).ph = s.ph := rfl
@[simp] theorem State.modFeed_php (i : Fin 4) (f : FeedH → FeedH) : (s.modFeed i f).php = s.php := rfl
@[simp] theorem State.modFeed_phg (i : Fin 4) (f : FeedH → FeedH) : (s.modFeed i f).phg = s.phg := rfl
@[simp] theorem State.modFeed_meas (i : Fin 4) (f : FeedH → FeedH) : (s.modFeed i f).meas = s.meas := rfl
@[simp] theorem State.modFeed_chg (i : Fin 4) (f : FeedH → FeedH) : (s.modFeed i f).chg = s.chg := rfl
@[simp] theorem State.modFeed_chgg (i : Fin 4) (f : FeedH → FeedH) : (s.modFeed i f).chgg = s.chgg := rfl
@[simp] theorem State.modFeed_pk (i : Fin 4) (f : FeedH → FeedH) : (s.modFeed i f).pk = s.pk := rfl
@[simp] theorem State.modFeed_aon (i : Fin 4) (f : FeedH → FeedH) : (s.modFeed i f).aon = s.aon := rfl
@[simp] theorem State.modFeed_fc (i : Fin 4) (f : FeedH → FeedH) : (s.modFeed i f).fc = s.fc := rfl
@[simp] theorem State.modFeed_ring (i : Fin 4) (f : FeedH → FeedH) : (s.modFeed i f).ring = s.ring := rfl
@[simp] theorem State.modFeed_hif (i : Fin 4) (f : FeedH → FeedH) : (s.modFeed i f).hif = s.hif := rfl
@[simp] theorem State.modFeed_tw (i : Fin 4) (f : FeedH → FeedH) : (s.modFeed i f).tw = s.tw := rfl
@[simp] theorem State.modFeed_cmp (i : Fin 4) (f : FeedH → FeedH) : (s.modFeed i f).cmp = s.cmp := rfl
@[simp] theorem State.modFeed_adc (i : Fin 4) (f : FeedH → FeedH) : (s.modFeed i f).adc = s.adc := rfl
@[simp] theorem State.modFeed_tmr (i : Fin 4) (f : FeedH → FeedH) : (s.modFeed i f).tmr = s.tmr := rfl
@[simp] theorem State.modFeed_thm (i : Fin 4) (f : FeedH → FeedH) : (s.modFeed i f).thm = s.thm := rfl
@[simp] theorem State.modFeed_mem (i : Fin 4) (f : FeedH → FeedH) : (s.modFeed i f).mem = s.mem := rfl
@[simp] theorem State.modFeed_out (i : Fin 4) (f : FeedH → FeedH) : (s.modFeed i f).out = s.out := rfl
@[simp] theorem State.modFeed_rdata (i : Fin 4) (f : FeedH → FeedH) : (s.modFeed i f).rdata = s.rdata := rfl
@[simp] theorem State.modFeed_freeCtr (i : Fin 4) (f : FeedH → FeedH) : (s.modFeed i f).freeCtr = s.freeCtr := rfl
@[simp] theorem State.modFeed_pending (i : Fin 4) (f : FeedH → FeedH) : (s.modFeed i f).pending = s.pending := rfl
@[simp] theorem State.modFeed_word (i : Fin 4) (f : FeedH → FeedH) (o : Nat) : (s.modFeed i f).word o = s.word o := rfl
@[simp] theorem State.modFeed_fld (i : Fin 4) (f : FeedH → FeedH) (g : Fld) : (s.modFeed i f).fld g = s.fld g := rfl
@[simp] theorem State.modFeed_on (i : Fin 4) (f : FeedH → FeedH) (g : Fld) : (s.modFeed i f).on g = s.on g := rfl

/-! `State.modPh` -/

@[simp] theorem State.modPh_regs (i : Fin 16) (f : PhH → PhH) : (s.modPh i f).regs = s.regs := rfl
@[simp] theorem State.modPh_devtime (i : Fin 16) (f : PhH → PhH) : (s.modPh i f).devtime = s.devtime := rfl
@[simp] theorem State.modPh_jnl (i : Fin 16) (f : PhH → PhH) : (s.modPh i f).jnl = s.jnl := rfl
@[simp] theorem State.modPh_heldAcc (i : Fin 16) (f : PhH → PhH) : (s.modPh i f).heldAcc = s.heldAcc := rfl
@[simp] theorem State.modPh_flt (i : Fin 16) (f : PhH → PhH) : (s.modPh i f).flt = s.flt := rfl
@[simp] theorem State.modPh_sys (i : Fin 16) (f : PhH → PhH) : (s.modPh i f).sys = s.sys := rfl
@[simp] theorem State.modPh_auth (i : Fin 16) (f : PhH → PhH) : (s.modPh i f).auth = s.auth := rfl
@[simp] theorem State.modPh_feed (i : Fin 16) (f : PhH → PhH) : (s.modPh i f).feed = s.feed := rfl
@[simp] theorem State.modPh_php (i : Fin 16) (f : PhH → PhH) : (s.modPh i f).php = s.php := rfl
@[simp] theorem State.modPh_phg (i : Fin 16) (f : PhH → PhH) : (s.modPh i f).phg = s.phg := rfl
@[simp] theorem State.modPh_meas (i : Fin 16) (f : PhH → PhH) : (s.modPh i f).meas = s.meas := rfl
@[simp] theorem State.modPh_chg (i : Fin 16) (f : PhH → PhH) : (s.modPh i f).chg = s.chg := rfl
@[simp] theorem State.modPh_chgg (i : Fin 16) (f : PhH → PhH) : (s.modPh i f).chgg = s.chgg := rfl
@[simp] theorem State.modPh_pk (i : Fin 16) (f : PhH → PhH) : (s.modPh i f).pk = s.pk := rfl
@[simp] theorem State.modPh_aon (i : Fin 16) (f : PhH → PhH) : (s.modPh i f).aon = s.aon := rfl
@[simp] theorem State.modPh_fc (i : Fin 16) (f : PhH → PhH) : (s.modPh i f).fc = s.fc := rfl
@[simp] theorem State.modPh_ring (i : Fin 16) (f : PhH → PhH) : (s.modPh i f).ring = s.ring := rfl
@[simp] theorem State.modPh_hif (i : Fin 16) (f : PhH → PhH) : (s.modPh i f).hif = s.hif := rfl
@[simp] theorem State.modPh_tw (i : Fin 16) (f : PhH → PhH) : (s.modPh i f).tw = s.tw := rfl
@[simp] theorem State.modPh_cmp (i : Fin 16) (f : PhH → PhH) : (s.modPh i f).cmp = s.cmp := rfl
@[simp] theorem State.modPh_adc (i : Fin 16) (f : PhH → PhH) : (s.modPh i f).adc = s.adc := rfl
@[simp] theorem State.modPh_tmr (i : Fin 16) (f : PhH → PhH) : (s.modPh i f).tmr = s.tmr := rfl
@[simp] theorem State.modPh_thm (i : Fin 16) (f : PhH → PhH) : (s.modPh i f).thm = s.thm := rfl
@[simp] theorem State.modPh_mem (i : Fin 16) (f : PhH → PhH) : (s.modPh i f).mem = s.mem := rfl
@[simp] theorem State.modPh_out (i : Fin 16) (f : PhH → PhH) : (s.modPh i f).out = s.out := rfl
@[simp] theorem State.modPh_rdata (i : Fin 16) (f : PhH → PhH) : (s.modPh i f).rdata = s.rdata := rfl
@[simp] theorem State.modPh_freeCtr (i : Fin 16) (f : PhH → PhH) : (s.modPh i f).freeCtr = s.freeCtr := rfl
@[simp] theorem State.modPh_pending (i : Fin 16) (f : PhH → PhH) : (s.modPh i f).pending = s.pending := rfl
@[simp] theorem State.modPh_word (i : Fin 16) (f : PhH → PhH) (o : Nat) : (s.modPh i f).word o = s.word o := rfl
@[simp] theorem State.modPh_fld (i : Fin 16) (f : PhH → PhH) (g : Fld) : (s.modPh i f).fld g = s.fld g := rfl
@[simp] theorem State.modPh_on (i : Fin 16) (f : PhH → PhH) (g : Fld) : (s.modPh i f).on g = s.on g := rfl

/-! `State.modPhp` -/

@[simp] theorem State.modPhp_regs (i : Fin 2) (f : PhpH → PhpH) : (s.modPhp i f).regs = s.regs := rfl
@[simp] theorem State.modPhp_devtime (i : Fin 2) (f : PhpH → PhpH) : (s.modPhp i f).devtime = s.devtime := rfl
@[simp] theorem State.modPhp_jnl (i : Fin 2) (f : PhpH → PhpH) : (s.modPhp i f).jnl = s.jnl := rfl
@[simp] theorem State.modPhp_heldAcc (i : Fin 2) (f : PhpH → PhpH) : (s.modPhp i f).heldAcc = s.heldAcc := rfl
@[simp] theorem State.modPhp_flt (i : Fin 2) (f : PhpH → PhpH) : (s.modPhp i f).flt = s.flt := rfl
@[simp] theorem State.modPhp_sys (i : Fin 2) (f : PhpH → PhpH) : (s.modPhp i f).sys = s.sys := rfl
@[simp] theorem State.modPhp_auth (i : Fin 2) (f : PhpH → PhpH) : (s.modPhp i f).auth = s.auth := rfl
@[simp] theorem State.modPhp_feed (i : Fin 2) (f : PhpH → PhpH) : (s.modPhp i f).feed = s.feed := rfl
@[simp] theorem State.modPhp_ph (i : Fin 2) (f : PhpH → PhpH) : (s.modPhp i f).ph = s.ph := rfl
@[simp] theorem State.modPhp_phg (i : Fin 2) (f : PhpH → PhpH) : (s.modPhp i f).phg = s.phg := rfl
@[simp] theorem State.modPhp_meas (i : Fin 2) (f : PhpH → PhpH) : (s.modPhp i f).meas = s.meas := rfl
@[simp] theorem State.modPhp_chg (i : Fin 2) (f : PhpH → PhpH) : (s.modPhp i f).chg = s.chg := rfl
@[simp] theorem State.modPhp_chgg (i : Fin 2) (f : PhpH → PhpH) : (s.modPhp i f).chgg = s.chgg := rfl
@[simp] theorem State.modPhp_pk (i : Fin 2) (f : PhpH → PhpH) : (s.modPhp i f).pk = s.pk := rfl
@[simp] theorem State.modPhp_aon (i : Fin 2) (f : PhpH → PhpH) : (s.modPhp i f).aon = s.aon := rfl
@[simp] theorem State.modPhp_fc (i : Fin 2) (f : PhpH → PhpH) : (s.modPhp i f).fc = s.fc := rfl
@[simp] theorem State.modPhp_ring (i : Fin 2) (f : PhpH → PhpH) : (s.modPhp i f).ring = s.ring := rfl
@[simp] theorem State.modPhp_hif (i : Fin 2) (f : PhpH → PhpH) : (s.modPhp i f).hif = s.hif := rfl
@[simp] theorem State.modPhp_tw (i : Fin 2) (f : PhpH → PhpH) : (s.modPhp i f).tw = s.tw := rfl
@[simp] theorem State.modPhp_cmp (i : Fin 2) (f : PhpH → PhpH) : (s.modPhp i f).cmp = s.cmp := rfl
@[simp] theorem State.modPhp_adc (i : Fin 2) (f : PhpH → PhpH) : (s.modPhp i f).adc = s.adc := rfl
@[simp] theorem State.modPhp_tmr (i : Fin 2) (f : PhpH → PhpH) : (s.modPhp i f).tmr = s.tmr := rfl
@[simp] theorem State.modPhp_thm (i : Fin 2) (f : PhpH → PhpH) : (s.modPhp i f).thm = s.thm := rfl
@[simp] theorem State.modPhp_mem (i : Fin 2) (f : PhpH → PhpH) : (s.modPhp i f).mem = s.mem := rfl
@[simp] theorem State.modPhp_out (i : Fin 2) (f : PhpH → PhpH) : (s.modPhp i f).out = s.out := rfl
@[simp] theorem State.modPhp_rdata (i : Fin 2) (f : PhpH → PhpH) : (s.modPhp i f).rdata = s.rdata := rfl
@[simp] theorem State.modPhp_freeCtr (i : Fin 2) (f : PhpH → PhpH) : (s.modPhp i f).freeCtr = s.freeCtr := rfl
@[simp] theorem State.modPhp_pending (i : Fin 2) (f : PhpH → PhpH) : (s.modPhp i f).pending = s.pending := rfl
@[simp] theorem State.modPhp_word (i : Fin 2) (f : PhpH → PhpH) (o : Nat) : (s.modPhp i f).word o = s.word o := rfl
@[simp] theorem State.modPhp_fld (i : Fin 2) (f : PhpH → PhpH) (g : Fld) : (s.modPhp i f).fld g = s.fld g := rfl
@[simp] theorem State.modPhp_on (i : Fin 2) (f : PhpH → PhpH) (g : Fld) : (s.modPhp i f).on g = s.on g := rfl

/-! `State.modChg` -/

@[simp] theorem State.modChg_regs (i : Fin 2) (f : ChgH → ChgH) : (s.modChg i f).regs = s.regs := rfl
@[simp] theorem State.modChg_devtime (i : Fin 2) (f : ChgH → ChgH) : (s.modChg i f).devtime = s.devtime := rfl
@[simp] theorem State.modChg_jnl (i : Fin 2) (f : ChgH → ChgH) : (s.modChg i f).jnl = s.jnl := rfl
@[simp] theorem State.modChg_heldAcc (i : Fin 2) (f : ChgH → ChgH) : (s.modChg i f).heldAcc = s.heldAcc := rfl
@[simp] theorem State.modChg_flt (i : Fin 2) (f : ChgH → ChgH) : (s.modChg i f).flt = s.flt := rfl
@[simp] theorem State.modChg_sys (i : Fin 2) (f : ChgH → ChgH) : (s.modChg i f).sys = s.sys := rfl
@[simp] theorem State.modChg_auth (i : Fin 2) (f : ChgH → ChgH) : (s.modChg i f).auth = s.auth := rfl
@[simp] theorem State.modChg_feed (i : Fin 2) (f : ChgH → ChgH) : (s.modChg i f).feed = s.feed := rfl
@[simp] theorem State.modChg_ph (i : Fin 2) (f : ChgH → ChgH) : (s.modChg i f).ph = s.ph := rfl
@[simp] theorem State.modChg_php (i : Fin 2) (f : ChgH → ChgH) : (s.modChg i f).php = s.php := rfl
@[simp] theorem State.modChg_phg (i : Fin 2) (f : ChgH → ChgH) : (s.modChg i f).phg = s.phg := rfl
@[simp] theorem State.modChg_meas (i : Fin 2) (f : ChgH → ChgH) : (s.modChg i f).meas = s.meas := rfl
@[simp] theorem State.modChg_chgg (i : Fin 2) (f : ChgH → ChgH) : (s.modChg i f).chgg = s.chgg := rfl
@[simp] theorem State.modChg_pk (i : Fin 2) (f : ChgH → ChgH) : (s.modChg i f).pk = s.pk := rfl
@[simp] theorem State.modChg_aon (i : Fin 2) (f : ChgH → ChgH) : (s.modChg i f).aon = s.aon := rfl
@[simp] theorem State.modChg_fc (i : Fin 2) (f : ChgH → ChgH) : (s.modChg i f).fc = s.fc := rfl
@[simp] theorem State.modChg_ring (i : Fin 2) (f : ChgH → ChgH) : (s.modChg i f).ring = s.ring := rfl
@[simp] theorem State.modChg_hif (i : Fin 2) (f : ChgH → ChgH) : (s.modChg i f).hif = s.hif := rfl
@[simp] theorem State.modChg_tw (i : Fin 2) (f : ChgH → ChgH) : (s.modChg i f).tw = s.tw := rfl
@[simp] theorem State.modChg_cmp (i : Fin 2) (f : ChgH → ChgH) : (s.modChg i f).cmp = s.cmp := rfl
@[simp] theorem State.modChg_adc (i : Fin 2) (f : ChgH → ChgH) : (s.modChg i f).adc = s.adc := rfl
@[simp] theorem State.modChg_tmr (i : Fin 2) (f : ChgH → ChgH) : (s.modChg i f).tmr = s.tmr := rfl
@[simp] theorem State.modChg_thm (i : Fin 2) (f : ChgH → ChgH) : (s.modChg i f).thm = s.thm := rfl
@[simp] theorem State.modChg_mem (i : Fin 2) (f : ChgH → ChgH) : (s.modChg i f).mem = s.mem := rfl
@[simp] theorem State.modChg_out (i : Fin 2) (f : ChgH → ChgH) : (s.modChg i f).out = s.out := rfl
@[simp] theorem State.modChg_rdata (i : Fin 2) (f : ChgH → ChgH) : (s.modChg i f).rdata = s.rdata := rfl
@[simp] theorem State.modChg_freeCtr (i : Fin 2) (f : ChgH → ChgH) : (s.modChg i f).freeCtr = s.freeCtr := rfl
@[simp] theorem State.modChg_pending (i : Fin 2) (f : ChgH → ChgH) : (s.modChg i f).pending = s.pending := rfl
@[simp] theorem State.modChg_word (i : Fin 2) (f : ChgH → ChgH) (o : Nat) : (s.modChg i f).word o = s.word o := rfl
@[simp] theorem State.modChg_fld (i : Fin 2) (f : ChgH → ChgH) (g : Fld) : (s.modChg i f).fld g = s.fld g := rfl
@[simp] theorem State.modChg_on (i : Fin 2) (f : ChgH → ChgH) (g : Fld) : (s.modChg i f).on g = s.on g := rfl

/-! `State.modPk` -/

@[simp] theorem State.modPk_regs (i : Fin 2) (f : PkH → PkH) : (s.modPk i f).regs = s.regs := rfl
@[simp] theorem State.modPk_devtime (i : Fin 2) (f : PkH → PkH) : (s.modPk i f).devtime = s.devtime := rfl
@[simp] theorem State.modPk_jnl (i : Fin 2) (f : PkH → PkH) : (s.modPk i f).jnl = s.jnl := rfl
@[simp] theorem State.modPk_heldAcc (i : Fin 2) (f : PkH → PkH) : (s.modPk i f).heldAcc = s.heldAcc := rfl
@[simp] theorem State.modPk_flt (i : Fin 2) (f : PkH → PkH) : (s.modPk i f).flt = s.flt := rfl
@[simp] theorem State.modPk_sys (i : Fin 2) (f : PkH → PkH) : (s.modPk i f).sys = s.sys := rfl
@[simp] theorem State.modPk_auth (i : Fin 2) (f : PkH → PkH) : (s.modPk i f).auth = s.auth := rfl
@[simp] theorem State.modPk_feed (i : Fin 2) (f : PkH → PkH) : (s.modPk i f).feed = s.feed := rfl
@[simp] theorem State.modPk_ph (i : Fin 2) (f : PkH → PkH) : (s.modPk i f).ph = s.ph := rfl
@[simp] theorem State.modPk_php (i : Fin 2) (f : PkH → PkH) : (s.modPk i f).php = s.php := rfl
@[simp] theorem State.modPk_phg (i : Fin 2) (f : PkH → PkH) : (s.modPk i f).phg = s.phg := rfl
@[simp] theorem State.modPk_meas (i : Fin 2) (f : PkH → PkH) : (s.modPk i f).meas = s.meas := rfl
@[simp] theorem State.modPk_chg (i : Fin 2) (f : PkH → PkH) : (s.modPk i f).chg = s.chg := rfl
@[simp] theorem State.modPk_chgg (i : Fin 2) (f : PkH → PkH) : (s.modPk i f).chgg = s.chgg := rfl
@[simp] theorem State.modPk_aon (i : Fin 2) (f : PkH → PkH) : (s.modPk i f).aon = s.aon := rfl
@[simp] theorem State.modPk_fc (i : Fin 2) (f : PkH → PkH) : (s.modPk i f).fc = s.fc := rfl
@[simp] theorem State.modPk_ring (i : Fin 2) (f : PkH → PkH) : (s.modPk i f).ring = s.ring := rfl
@[simp] theorem State.modPk_hif (i : Fin 2) (f : PkH → PkH) : (s.modPk i f).hif = s.hif := rfl
@[simp] theorem State.modPk_tw (i : Fin 2) (f : PkH → PkH) : (s.modPk i f).tw = s.tw := rfl
@[simp] theorem State.modPk_cmp (i : Fin 2) (f : PkH → PkH) : (s.modPk i f).cmp = s.cmp := rfl
@[simp] theorem State.modPk_adc (i : Fin 2) (f : PkH → PkH) : (s.modPk i f).adc = s.adc := rfl
@[simp] theorem State.modPk_tmr (i : Fin 2) (f : PkH → PkH) : (s.modPk i f).tmr = s.tmr := rfl
@[simp] theorem State.modPk_thm (i : Fin 2) (f : PkH → PkH) : (s.modPk i f).thm = s.thm := rfl
@[simp] theorem State.modPk_mem (i : Fin 2) (f : PkH → PkH) : (s.modPk i f).mem = s.mem := rfl
@[simp] theorem State.modPk_out (i : Fin 2) (f : PkH → PkH) : (s.modPk i f).out = s.out := rfl
@[simp] theorem State.modPk_rdata (i : Fin 2) (f : PkH → PkH) : (s.modPk i f).rdata = s.rdata := rfl
@[simp] theorem State.modPk_freeCtr (i : Fin 2) (f : PkH → PkH) : (s.modPk i f).freeCtr = s.freeCtr := rfl
@[simp] theorem State.modPk_pending (i : Fin 2) (f : PkH → PkH) : (s.modPk i f).pending = s.pending := rfl
@[simp] theorem State.modPk_word (i : Fin 2) (f : PkH → PkH) (o : Nat) : (s.modPk i f).word o = s.word o := rfl
@[simp] theorem State.modPk_fld (i : Fin 2) (f : PkH → PkH) (g : Fld) : (s.modPk i f).fld g = s.fld g := rfl
@[simp] theorem State.modPk_on (i : Fin 2) (f : PkH → PkH) (g : Fld) : (s.modPk i f).on g = s.on g := rfl

/-! `State.modRing` -/

@[simp] theorem State.modRing_regs (i : Fin 64) (f : RingH → RingH) : (s.modRing i f).regs = s.regs := rfl
@[simp] theorem State.modRing_devtime (i : Fin 64) (f : RingH → RingH) : (s.modRing i f).devtime = s.devtime := rfl
@[simp] theorem State.modRing_jnl (i : Fin 64) (f : RingH → RingH) : (s.modRing i f).jnl = s.jnl := rfl
@[simp] theorem State.modRing_heldAcc (i : Fin 64) (f : RingH → RingH) : (s.modRing i f).heldAcc = s.heldAcc := rfl
@[simp] theorem State.modRing_flt (i : Fin 64) (f : RingH → RingH) : (s.modRing i f).flt = s.flt := rfl
@[simp] theorem State.modRing_sys (i : Fin 64) (f : RingH → RingH) : (s.modRing i f).sys = s.sys := rfl
@[simp] theorem State.modRing_auth (i : Fin 64) (f : RingH → RingH) : (s.modRing i f).auth = s.auth := rfl
@[simp] theorem State.modRing_feed (i : Fin 64) (f : RingH → RingH) : (s.modRing i f).feed = s.feed := rfl
@[simp] theorem State.modRing_ph (i : Fin 64) (f : RingH → RingH) : (s.modRing i f).ph = s.ph := rfl
@[simp] theorem State.modRing_php (i : Fin 64) (f : RingH → RingH) : (s.modRing i f).php = s.php := rfl
@[simp] theorem State.modRing_phg (i : Fin 64) (f : RingH → RingH) : (s.modRing i f).phg = s.phg := rfl
@[simp] theorem State.modRing_meas (i : Fin 64) (f : RingH → RingH) : (s.modRing i f).meas = s.meas := rfl
@[simp] theorem State.modRing_chg (i : Fin 64) (f : RingH → RingH) : (s.modRing i f).chg = s.chg := rfl
@[simp] theorem State.modRing_chgg (i : Fin 64) (f : RingH → RingH) : (s.modRing i f).chgg = s.chgg := rfl
@[simp] theorem State.modRing_pk (i : Fin 64) (f : RingH → RingH) : (s.modRing i f).pk = s.pk := rfl
@[simp] theorem State.modRing_aon (i : Fin 64) (f : RingH → RingH) : (s.modRing i f).aon = s.aon := rfl
@[simp] theorem State.modRing_fc (i : Fin 64) (f : RingH → RingH) : (s.modRing i f).fc = s.fc := rfl
@[simp] theorem State.modRing_hif (i : Fin 64) (f : RingH → RingH) : (s.modRing i f).hif = s.hif := rfl
@[simp] theorem State.modRing_tw (i : Fin 64) (f : RingH → RingH) : (s.modRing i f).tw = s.tw := rfl
@[simp] theorem State.modRing_cmp (i : Fin 64) (f : RingH → RingH) : (s.modRing i f).cmp = s.cmp := rfl
@[simp] theorem State.modRing_adc (i : Fin 64) (f : RingH → RingH) : (s.modRing i f).adc = s.adc := rfl
@[simp] theorem State.modRing_tmr (i : Fin 64) (f : RingH → RingH) : (s.modRing i f).tmr = s.tmr := rfl
@[simp] theorem State.modRing_thm (i : Fin 64) (f : RingH → RingH) : (s.modRing i f).thm = s.thm := rfl
@[simp] theorem State.modRing_mem (i : Fin 64) (f : RingH → RingH) : (s.modRing i f).mem = s.mem := rfl
@[simp] theorem State.modRing_out (i : Fin 64) (f : RingH → RingH) : (s.modRing i f).out = s.out := rfl
@[simp] theorem State.modRing_rdata (i : Fin 64) (f : RingH → RingH) : (s.modRing i f).rdata = s.rdata := rfl
@[simp] theorem State.modRing_freeCtr (i : Fin 64) (f : RingH → RingH) : (s.modRing i f).freeCtr = s.freeCtr := rfl
@[simp] theorem State.modRing_pending (i : Fin 64) (f : RingH → RingH) : (s.modRing i f).pending = s.pending := rfl
@[simp] theorem State.modRing_word (i : Fin 64) (f : RingH → RingH) (o : Nat) : (s.modRing i f).word o = s.word o := rfl
@[simp] theorem State.modRing_fld (i : Fin 64) (f : RingH → RingH) (g : Fld) : (s.modRing i f).fld g = s.fld g := rfl
@[simp] theorem State.modRing_on (i : Fin 64) (f : RingH → RingH) (g : Fld) : (s.modRing i f).on g = s.on g := rfl

/-! `State.modTw` -/

@[simp] theorem State.modTw_regs (i : Fin 3) (f : TwH → TwH) : (s.modTw i f).regs = s.regs := rfl
@[simp] theorem State.modTw_devtime (i : Fin 3) (f : TwH → TwH) : (s.modTw i f).devtime = s.devtime := rfl
@[simp] theorem State.modTw_jnl (i : Fin 3) (f : TwH → TwH) : (s.modTw i f).jnl = s.jnl := rfl
@[simp] theorem State.modTw_heldAcc (i : Fin 3) (f : TwH → TwH) : (s.modTw i f).heldAcc = s.heldAcc := rfl
@[simp] theorem State.modTw_flt (i : Fin 3) (f : TwH → TwH) : (s.modTw i f).flt = s.flt := rfl
@[simp] theorem State.modTw_sys (i : Fin 3) (f : TwH → TwH) : (s.modTw i f).sys = s.sys := rfl
@[simp] theorem State.modTw_auth (i : Fin 3) (f : TwH → TwH) : (s.modTw i f).auth = s.auth := rfl
@[simp] theorem State.modTw_feed (i : Fin 3) (f : TwH → TwH) : (s.modTw i f).feed = s.feed := rfl
@[simp] theorem State.modTw_ph (i : Fin 3) (f : TwH → TwH) : (s.modTw i f).ph = s.ph := rfl
@[simp] theorem State.modTw_php (i : Fin 3) (f : TwH → TwH) : (s.modTw i f).php = s.php := rfl
@[simp] theorem State.modTw_phg (i : Fin 3) (f : TwH → TwH) : (s.modTw i f).phg = s.phg := rfl
@[simp] theorem State.modTw_meas (i : Fin 3) (f : TwH → TwH) : (s.modTw i f).meas = s.meas := rfl
@[simp] theorem State.modTw_chg (i : Fin 3) (f : TwH → TwH) : (s.modTw i f).chg = s.chg := rfl
@[simp] theorem State.modTw_chgg (i : Fin 3) (f : TwH → TwH) : (s.modTw i f).chgg = s.chgg := rfl
@[simp] theorem State.modTw_pk (i : Fin 3) (f : TwH → TwH) : (s.modTw i f).pk = s.pk := rfl
@[simp] theorem State.modTw_aon (i : Fin 3) (f : TwH → TwH) : (s.modTw i f).aon = s.aon := rfl
@[simp] theorem State.modTw_fc (i : Fin 3) (f : TwH → TwH) : (s.modTw i f).fc = s.fc := rfl
@[simp] theorem State.modTw_ring (i : Fin 3) (f : TwH → TwH) : (s.modTw i f).ring = s.ring := rfl
@[simp] theorem State.modTw_hif (i : Fin 3) (f : TwH → TwH) : (s.modTw i f).hif = s.hif := rfl
@[simp] theorem State.modTw_cmp (i : Fin 3) (f : TwH → TwH) : (s.modTw i f).cmp = s.cmp := rfl
@[simp] theorem State.modTw_adc (i : Fin 3) (f : TwH → TwH) : (s.modTw i f).adc = s.adc := rfl
@[simp] theorem State.modTw_tmr (i : Fin 3) (f : TwH → TwH) : (s.modTw i f).tmr = s.tmr := rfl
@[simp] theorem State.modTw_thm (i : Fin 3) (f : TwH → TwH) : (s.modTw i f).thm = s.thm := rfl
@[simp] theorem State.modTw_mem (i : Fin 3) (f : TwH → TwH) : (s.modTw i f).mem = s.mem := rfl
@[simp] theorem State.modTw_out (i : Fin 3) (f : TwH → TwH) : (s.modTw i f).out = s.out := rfl
@[simp] theorem State.modTw_rdata (i : Fin 3) (f : TwH → TwH) : (s.modTw i f).rdata = s.rdata := rfl
@[simp] theorem State.modTw_freeCtr (i : Fin 3) (f : TwH → TwH) : (s.modTw i f).freeCtr = s.freeCtr := rfl
@[simp] theorem State.modTw_pending (i : Fin 3) (f : TwH → TwH) : (s.modTw i f).pending = s.pending := rfl
@[simp] theorem State.modTw_word (i : Fin 3) (f : TwH → TwH) (o : Nat) : (s.modTw i f).word o = s.word o := rfl
@[simp] theorem State.modTw_fld (i : Fin 3) (f : TwH → TwH) (g : Fld) : (s.modTw i f).fld g = s.fld g := rfl
@[simp] theorem State.modTw_on (i : Fin 3) (f : TwH → TwH) (g : Fld) : (s.modTw i f).on g = s.on g := rfl

/-! `State.modCmp` -/

@[simp] theorem State.modCmp_regs (i : Fin 48) (f : CmpH → CmpH) : (s.modCmp i f).regs = s.regs := rfl
@[simp] theorem State.modCmp_devtime (i : Fin 48) (f : CmpH → CmpH) : (s.modCmp i f).devtime = s.devtime := rfl
@[simp] theorem State.modCmp_jnl (i : Fin 48) (f : CmpH → CmpH) : (s.modCmp i f).jnl = s.jnl := rfl
@[simp] theorem State.modCmp_heldAcc (i : Fin 48) (f : CmpH → CmpH) : (s.modCmp i f).heldAcc = s.heldAcc := rfl
@[simp] theorem State.modCmp_flt (i : Fin 48) (f : CmpH → CmpH) : (s.modCmp i f).flt = s.flt := rfl
@[simp] theorem State.modCmp_sys (i : Fin 48) (f : CmpH → CmpH) : (s.modCmp i f).sys = s.sys := rfl
@[simp] theorem State.modCmp_auth (i : Fin 48) (f : CmpH → CmpH) : (s.modCmp i f).auth = s.auth := rfl
@[simp] theorem State.modCmp_feed (i : Fin 48) (f : CmpH → CmpH) : (s.modCmp i f).feed = s.feed := rfl
@[simp] theorem State.modCmp_ph (i : Fin 48) (f : CmpH → CmpH) : (s.modCmp i f).ph = s.ph := rfl
@[simp] theorem State.modCmp_php (i : Fin 48) (f : CmpH → CmpH) : (s.modCmp i f).php = s.php := rfl
@[simp] theorem State.modCmp_phg (i : Fin 48) (f : CmpH → CmpH) : (s.modCmp i f).phg = s.phg := rfl
@[simp] theorem State.modCmp_meas (i : Fin 48) (f : CmpH → CmpH) : (s.modCmp i f).meas = s.meas := rfl
@[simp] theorem State.modCmp_chg (i : Fin 48) (f : CmpH → CmpH) : (s.modCmp i f).chg = s.chg := rfl
@[simp] theorem State.modCmp_chgg (i : Fin 48) (f : CmpH → CmpH) : (s.modCmp i f).chgg = s.chgg := rfl
@[simp] theorem State.modCmp_pk (i : Fin 48) (f : CmpH → CmpH) : (s.modCmp i f).pk = s.pk := rfl
@[simp] theorem State.modCmp_aon (i : Fin 48) (f : CmpH → CmpH) : (s.modCmp i f).aon = s.aon := rfl
@[simp] theorem State.modCmp_fc (i : Fin 48) (f : CmpH → CmpH) : (s.modCmp i f).fc = s.fc := rfl
@[simp] theorem State.modCmp_ring (i : Fin 48) (f : CmpH → CmpH) : (s.modCmp i f).ring = s.ring := rfl
@[simp] theorem State.modCmp_hif (i : Fin 48) (f : CmpH → CmpH) : (s.modCmp i f).hif = s.hif := rfl
@[simp] theorem State.modCmp_tw (i : Fin 48) (f : CmpH → CmpH) : (s.modCmp i f).tw = s.tw := rfl
@[simp] theorem State.modCmp_adc (i : Fin 48) (f : CmpH → CmpH) : (s.modCmp i f).adc = s.adc := rfl
@[simp] theorem State.modCmp_tmr (i : Fin 48) (f : CmpH → CmpH) : (s.modCmp i f).tmr = s.tmr := rfl
@[simp] theorem State.modCmp_thm (i : Fin 48) (f : CmpH → CmpH) : (s.modCmp i f).thm = s.thm := rfl
@[simp] theorem State.modCmp_mem (i : Fin 48) (f : CmpH → CmpH) : (s.modCmp i f).mem = s.mem := rfl
@[simp] theorem State.modCmp_out (i : Fin 48) (f : CmpH → CmpH) : (s.modCmp i f).out = s.out := rfl
@[simp] theorem State.modCmp_rdata (i : Fin 48) (f : CmpH → CmpH) : (s.modCmp i f).rdata = s.rdata := rfl
@[simp] theorem State.modCmp_freeCtr (i : Fin 48) (f : CmpH → CmpH) : (s.modCmp i f).freeCtr = s.freeCtr := rfl
@[simp] theorem State.modCmp_pending (i : Fin 48) (f : CmpH → CmpH) : (s.modCmp i f).pending = s.pending := rfl
@[simp] theorem State.modCmp_word (i : Fin 48) (f : CmpH → CmpH) (o : Nat) : (s.modCmp i f).word o = s.word o := rfl
@[simp] theorem State.modCmp_fld (i : Fin 48) (f : CmpH → CmpH) (g : Fld) : (s.modCmp i f).fld g = s.fld g := rfl
@[simp] theorem State.modCmp_on (i : Fin 48) (f : CmpH → CmpH) (g : Fld) : (s.modCmp i f).on g = s.on g := rfl

/-! `State.modAdc` -/

@[simp] theorem State.modAdc_regs (i : Fin 2) (f : AdcH → AdcH) : (s.modAdc i f).regs = s.regs := rfl
@[simp] theorem State.modAdc_devtime (i : Fin 2) (f : AdcH → AdcH) : (s.modAdc i f).devtime = s.devtime := rfl
@[simp] theorem State.modAdc_jnl (i : Fin 2) (f : AdcH → AdcH) : (s.modAdc i f).jnl = s.jnl := rfl
@[simp] theorem State.modAdc_heldAcc (i : Fin 2) (f : AdcH → AdcH) : (s.modAdc i f).heldAcc = s.heldAcc := rfl
@[simp] theorem State.modAdc_flt (i : Fin 2) (f : AdcH → AdcH) : (s.modAdc i f).flt = s.flt := rfl
@[simp] theorem State.modAdc_sys (i : Fin 2) (f : AdcH → AdcH) : (s.modAdc i f).sys = s.sys := rfl
@[simp] theorem State.modAdc_auth (i : Fin 2) (f : AdcH → AdcH) : (s.modAdc i f).auth = s.auth := rfl
@[simp] theorem State.modAdc_feed (i : Fin 2) (f : AdcH → AdcH) : (s.modAdc i f).feed = s.feed := rfl
@[simp] theorem State.modAdc_ph (i : Fin 2) (f : AdcH → AdcH) : (s.modAdc i f).ph = s.ph := rfl
@[simp] theorem State.modAdc_php (i : Fin 2) (f : AdcH → AdcH) : (s.modAdc i f).php = s.php := rfl
@[simp] theorem State.modAdc_phg (i : Fin 2) (f : AdcH → AdcH) : (s.modAdc i f).phg = s.phg := rfl
@[simp] theorem State.modAdc_meas (i : Fin 2) (f : AdcH → AdcH) : (s.modAdc i f).meas = s.meas := rfl
@[simp] theorem State.modAdc_chg (i : Fin 2) (f : AdcH → AdcH) : (s.modAdc i f).chg = s.chg := rfl
@[simp] theorem State.modAdc_chgg (i : Fin 2) (f : AdcH → AdcH) : (s.modAdc i f).chgg = s.chgg := rfl
@[simp] theorem State.modAdc_pk (i : Fin 2) (f : AdcH → AdcH) : (s.modAdc i f).pk = s.pk := rfl
@[simp] theorem State.modAdc_aon (i : Fin 2) (f : AdcH → AdcH) : (s.modAdc i f).aon = s.aon := rfl
@[simp] theorem State.modAdc_fc (i : Fin 2) (f : AdcH → AdcH) : (s.modAdc i f).fc = s.fc := rfl
@[simp] theorem State.modAdc_ring (i : Fin 2) (f : AdcH → AdcH) : (s.modAdc i f).ring = s.ring := rfl
@[simp] theorem State.modAdc_hif (i : Fin 2) (f : AdcH → AdcH) : (s.modAdc i f).hif = s.hif := rfl
@[simp] theorem State.modAdc_tw (i : Fin 2) (f : AdcH → AdcH) : (s.modAdc i f).tw = s.tw := rfl
@[simp] theorem State.modAdc_cmp (i : Fin 2) (f : AdcH → AdcH) : (s.modAdc i f).cmp = s.cmp := rfl
@[simp] theorem State.modAdc_tmr (i : Fin 2) (f : AdcH → AdcH) : (s.modAdc i f).tmr = s.tmr := rfl
@[simp] theorem State.modAdc_thm (i : Fin 2) (f : AdcH → AdcH) : (s.modAdc i f).thm = s.thm := rfl
@[simp] theorem State.modAdc_mem (i : Fin 2) (f : AdcH → AdcH) : (s.modAdc i f).mem = s.mem := rfl
@[simp] theorem State.modAdc_out (i : Fin 2) (f : AdcH → AdcH) : (s.modAdc i f).out = s.out := rfl
@[simp] theorem State.modAdc_rdata (i : Fin 2) (f : AdcH → AdcH) : (s.modAdc i f).rdata = s.rdata := rfl
@[simp] theorem State.modAdc_freeCtr (i : Fin 2) (f : AdcH → AdcH) : (s.modAdc i f).freeCtr = s.freeCtr := rfl
@[simp] theorem State.modAdc_pending (i : Fin 2) (f : AdcH → AdcH) : (s.modAdc i f).pending = s.pending := rfl
@[simp] theorem State.modAdc_word (i : Fin 2) (f : AdcH → AdcH) (o : Nat) : (s.modAdc i f).word o = s.word o := rfl
@[simp] theorem State.modAdc_fld (i : Fin 2) (f : AdcH → AdcH) (g : Fld) : (s.modAdc i f).fld g = s.fld g := rfl
@[simp] theorem State.modAdc_on (i : Fin 2) (f : AdcH → AdcH) (g : Fld) : (s.modAdc i f).on g = s.on g := rfl

/-! `State.modTmr` -/

@[simp] theorem State.modTmr_regs (i : Fin 8) (f : TmrH → TmrH) : (s.modTmr i f).regs = s.regs := rfl
@[simp] theorem State.modTmr_devtime (i : Fin 8) (f : TmrH → TmrH) : (s.modTmr i f).devtime = s.devtime := rfl
@[simp] theorem State.modTmr_jnl (i : Fin 8) (f : TmrH → TmrH) : (s.modTmr i f).jnl = s.jnl := rfl
@[simp] theorem State.modTmr_heldAcc (i : Fin 8) (f : TmrH → TmrH) : (s.modTmr i f).heldAcc = s.heldAcc := rfl
@[simp] theorem State.modTmr_flt (i : Fin 8) (f : TmrH → TmrH) : (s.modTmr i f).flt = s.flt := rfl
@[simp] theorem State.modTmr_sys (i : Fin 8) (f : TmrH → TmrH) : (s.modTmr i f).sys = s.sys := rfl
@[simp] theorem State.modTmr_auth (i : Fin 8) (f : TmrH → TmrH) : (s.modTmr i f).auth = s.auth := rfl
@[simp] theorem State.modTmr_feed (i : Fin 8) (f : TmrH → TmrH) : (s.modTmr i f).feed = s.feed := rfl
@[simp] theorem State.modTmr_ph (i : Fin 8) (f : TmrH → TmrH) : (s.modTmr i f).ph = s.ph := rfl
@[simp] theorem State.modTmr_php (i : Fin 8) (f : TmrH → TmrH) : (s.modTmr i f).php = s.php := rfl
@[simp] theorem State.modTmr_phg (i : Fin 8) (f : TmrH → TmrH) : (s.modTmr i f).phg = s.phg := rfl
@[simp] theorem State.modTmr_meas (i : Fin 8) (f : TmrH → TmrH) : (s.modTmr i f).meas = s.meas := rfl
@[simp] theorem State.modTmr_chg (i : Fin 8) (f : TmrH → TmrH) : (s.modTmr i f).chg = s.chg := rfl
@[simp] theorem State.modTmr_chgg (i : Fin 8) (f : TmrH → TmrH) : (s.modTmr i f).chgg = s.chgg := rfl
@[simp] theorem State.modTmr_pk (i : Fin 8) (f : TmrH → TmrH) : (s.modTmr i f).pk = s.pk := rfl
@[simp] theorem State.modTmr_aon (i : Fin 8) (f : TmrH → TmrH) : (s.modTmr i f).aon = s.aon := rfl
@[simp] theorem State.modTmr_fc (i : Fin 8) (f : TmrH → TmrH) : (s.modTmr i f).fc = s.fc := rfl
@[simp] theorem State.modTmr_ring (i : Fin 8) (f : TmrH → TmrH) : (s.modTmr i f).ring = s.ring := rfl
@[simp] theorem State.modTmr_hif (i : Fin 8) (f : TmrH → TmrH) : (s.modTmr i f).hif = s.hif := rfl
@[simp] theorem State.modTmr_tw (i : Fin 8) (f : TmrH → TmrH) : (s.modTmr i f).tw = s.tw := rfl
@[simp] theorem State.modTmr_cmp (i : Fin 8) (f : TmrH → TmrH) : (s.modTmr i f).cmp = s.cmp := rfl
@[simp] theorem State.modTmr_adc (i : Fin 8) (f : TmrH → TmrH) : (s.modTmr i f).adc = s.adc := rfl
@[simp] theorem State.modTmr_thm (i : Fin 8) (f : TmrH → TmrH) : (s.modTmr i f).thm = s.thm := rfl
@[simp] theorem State.modTmr_mem (i : Fin 8) (f : TmrH → TmrH) : (s.modTmr i f).mem = s.mem := rfl
@[simp] theorem State.modTmr_out (i : Fin 8) (f : TmrH → TmrH) : (s.modTmr i f).out = s.out := rfl
@[simp] theorem State.modTmr_rdata (i : Fin 8) (f : TmrH → TmrH) : (s.modTmr i f).rdata = s.rdata := rfl
@[simp] theorem State.modTmr_freeCtr (i : Fin 8) (f : TmrH → TmrH) : (s.modTmr i f).freeCtr = s.freeCtr := rfl
@[simp] theorem State.modTmr_pending (i : Fin 8) (f : TmrH → TmrH) : (s.modTmr i f).pending = s.pending := rfl
@[simp] theorem State.modTmr_word (i : Fin 8) (f : TmrH → TmrH) (o : Nat) : (s.modTmr i f).word o = s.word o := rfl
@[simp] theorem State.modTmr_fld (i : Fin 8) (f : TmrH → TmrH) (g : Fld) : (s.modTmr i f).fld g = s.fld g := rfl
@[simp] theorem State.modTmr_on (i : Fin 8) (f : TmrH → TmrH) (g : Fld) : (s.modTmr i f).on g = s.on g := rfl

/-! `State.modFc` -/

@[simp] theorem State.modFc_regs (f : FcH → FcH) : (s.modFc f).regs = s.regs := rfl
@[simp] theorem State.modFc_devtime (f : FcH → FcH) : (s.modFc f).devtime = s.devtime := rfl
@[simp] theorem State.modFc_jnl (f : FcH → FcH) : (s.modFc f).jnl = s.jnl := rfl
@[simp] theorem State.modFc_heldAcc (f : FcH → FcH) : (s.modFc f).heldAcc = s.heldAcc := rfl
@[simp] theorem State.modFc_flt (f : FcH → FcH) : (s.modFc f).flt = s.flt := rfl
@[simp] theorem State.modFc_sys (f : FcH → FcH) : (s.modFc f).sys = s.sys := rfl
@[simp] theorem State.modFc_auth (f : FcH → FcH) : (s.modFc f).auth = s.auth := rfl
@[simp] theorem State.modFc_feed (f : FcH → FcH) : (s.modFc f).feed = s.feed := rfl
@[simp] theorem State.modFc_ph (f : FcH → FcH) : (s.modFc f).ph = s.ph := rfl
@[simp] theorem State.modFc_php (f : FcH → FcH) : (s.modFc f).php = s.php := rfl
@[simp] theorem State.modFc_phg (f : FcH → FcH) : (s.modFc f).phg = s.phg := rfl
@[simp] theorem State.modFc_meas (f : FcH → FcH) : (s.modFc f).meas = s.meas := rfl
@[simp] theorem State.modFc_chg (f : FcH → FcH) : (s.modFc f).chg = s.chg := rfl
@[simp] theorem State.modFc_chgg (f : FcH → FcH) : (s.modFc f).chgg = s.chgg := rfl
@[simp] theorem State.modFc_pk (f : FcH → FcH) : (s.modFc f).pk = s.pk := rfl
@[simp] theorem State.modFc_aon (f : FcH → FcH) : (s.modFc f).aon = s.aon := rfl
@[simp] theorem State.modFc_ring (f : FcH → FcH) : (s.modFc f).ring = s.ring := rfl
@[simp] theorem State.modFc_hif (f : FcH → FcH) : (s.modFc f).hif = s.hif := rfl
@[simp] theorem State.modFc_tw (f : FcH → FcH) : (s.modFc f).tw = s.tw := rfl
@[simp] theorem State.modFc_cmp (f : FcH → FcH) : (s.modFc f).cmp = s.cmp := rfl
@[simp] theorem State.modFc_adc (f : FcH → FcH) : (s.modFc f).adc = s.adc := rfl
@[simp] theorem State.modFc_tmr (f : FcH → FcH) : (s.modFc f).tmr = s.tmr := rfl
@[simp] theorem State.modFc_thm (f : FcH → FcH) : (s.modFc f).thm = s.thm := rfl
@[simp] theorem State.modFc_mem (f : FcH → FcH) : (s.modFc f).mem = s.mem := rfl
@[simp] theorem State.modFc_out (f : FcH → FcH) : (s.modFc f).out = s.out := rfl
@[simp] theorem State.modFc_rdata (f : FcH → FcH) : (s.modFc f).rdata = s.rdata := rfl
@[simp] theorem State.modFc_freeCtr (f : FcH → FcH) : (s.modFc f).freeCtr = s.freeCtr := rfl
@[simp] theorem State.modFc_pending (f : FcH → FcH) : (s.modFc f).pending = s.pending := rfl
@[simp] theorem State.modFc_word (f : FcH → FcH) (o : Nat) : (s.modFc f).word o = s.word o := rfl
@[simp] theorem State.modFc_fld (f : FcH → FcH) (g : Fld) : (s.modFc f).fld g = s.fld g := rfl
@[simp] theorem State.modFc_on (f : FcH → FcH) (g : Fld) : (s.modFc f).on g = s.on g := rfl

/-! `State.event` -/

@[simp] theorem State.event_regs (e : FltEvent) : (s.event e).regs = s.regs := rfl
@[simp] theorem State.event_devtime (e : FltEvent) : (s.event e).devtime = s.devtime := rfl
@[simp] theorem State.event_jnl (e : FltEvent) : (s.event e).jnl = s.jnl := rfl
@[simp] theorem State.event_heldAcc (e : FltEvent) : (s.event e).heldAcc = s.heldAcc := rfl
@[simp] theorem State.event_sys (e : FltEvent) : (s.event e).sys = s.sys := rfl
@[simp] theorem State.event_auth (e : FltEvent) : (s.event e).auth = s.auth := rfl
@[simp] theorem State.event_feed (e : FltEvent) : (s.event e).feed = s.feed := rfl
@[simp] theorem State.event_ph (e : FltEvent) : (s.event e).ph = s.ph := rfl
@[simp] theorem State.event_php (e : FltEvent) : (s.event e).php = s.php := rfl
@[simp] theorem State.event_phg (e : FltEvent) : (s.event e).phg = s.phg := rfl
@[simp] theorem State.event_meas (e : FltEvent) : (s.event e).meas = s.meas := rfl
@[simp] theorem State.event_chg (e : FltEvent) : (s.event e).chg = s.chg := rfl
@[simp] theorem State.event_chgg (e : FltEvent) : (s.event e).chgg = s.chgg := rfl
@[simp] theorem State.event_pk (e : FltEvent) : (s.event e).pk = s.pk := rfl
@[simp] theorem State.event_aon (e : FltEvent) : (s.event e).aon = s.aon := rfl
@[simp] theorem State.event_fc (e : FltEvent) : (s.event e).fc = s.fc := rfl
@[simp] theorem State.event_ring (e : FltEvent) : (s.event e).ring = s.ring := rfl
@[simp] theorem State.event_hif (e : FltEvent) : (s.event e).hif = s.hif := rfl
@[simp] theorem State.event_tw (e : FltEvent) : (s.event e).tw = s.tw := rfl
@[simp] theorem State.event_cmp (e : FltEvent) : (s.event e).cmp = s.cmp := rfl
@[simp] theorem State.event_adc (e : FltEvent) : (s.event e).adc = s.adc := rfl
@[simp] theorem State.event_tmr (e : FltEvent) : (s.event e).tmr = s.tmr := rfl
@[simp] theorem State.event_thm (e : FltEvent) : (s.event e).thm = s.thm := rfl
@[simp] theorem State.event_mem (e : FltEvent) : (s.event e).mem = s.mem := rfl
@[simp] theorem State.event_out (e : FltEvent) : (s.event e).out = s.out := rfl
@[simp] theorem State.event_rdata (e : FltEvent) : (s.event e).rdata = s.rdata := rfl
@[simp] theorem State.event_freeCtr (e : FltEvent) : (s.event e).freeCtr = s.freeCtr := rfl
@[simp] theorem State.event_pending (e : FltEvent) : (s.event e).pending = s.pending := rfl
@[simp] theorem State.event_word (e : FltEvent) (o : Nat) : (s.event e).word o = s.word o := rfl
@[simp] theorem State.event_fld (e : FltEvent) (g : Fld) : (s.event e).fld g = s.fld g := rfl
@[simp] theorem State.event_on (e : FltEvent) (g : Fld) : (s.event e).on g = s.on g := rfl

/-! `State.fault` -/

@[simp] theorem State.fault_regs (src : Fin 64) (addr : Nat) : (s.fault src addr).regs = s.regs := rfl
@[simp] theorem State.fault_devtime (src : Fin 64) (addr : Nat) : (s.fault src addr).devtime = s.devtime := rfl
@[simp] theorem State.fault_jnl (src : Fin 64) (addr : Nat) : (s.fault src addr).jnl = s.jnl := rfl
@[simp] theorem State.fault_heldAcc (src : Fin 64) (addr : Nat) : (s.fault src addr).heldAcc = s.heldAcc := rfl
@[simp] theorem State.fault_sys (src : Fin 64) (addr : Nat) : (s.fault src addr).sys = s.sys := rfl
@[simp] theorem State.fault_auth (src : Fin 64) (addr : Nat) : (s.fault src addr).auth = s.auth := rfl
@[simp] theorem State.fault_feed (src : Fin 64) (addr : Nat) : (s.fault src addr).feed = s.feed := rfl
@[simp] theorem State.fault_ph (src : Fin 64) (addr : Nat) : (s.fault src addr).ph = s.ph := rfl
@[simp] theorem State.fault_php (src : Fin 64) (addr : Nat) : (s.fault src addr).php = s.php := rfl
@[simp] theorem State.fault_phg (src : Fin 64) (addr : Nat) : (s.fault src addr).phg = s.phg := rfl
@[simp] theorem State.fault_meas (src : Fin 64) (addr : Nat) : (s.fault src addr).meas = s.meas := rfl
@[simp] theorem State.fault_chg (src : Fin 64) (addr : Nat) : (s.fault src addr).chg = s.chg := rfl
@[simp] theorem State.fault_chgg (src : Fin 64) (addr : Nat) : (s.fault src addr).chgg = s.chgg := rfl
@[simp] theorem State.fault_pk (src : Fin 64) (addr : Nat) : (s.fault src addr).pk = s.pk := rfl
@[simp] theorem State.fault_aon (src : Fin 64) (addr : Nat) : (s.fault src addr).aon = s.aon := rfl
@[simp] theorem State.fault_fc (src : Fin 64) (addr : Nat) : (s.fault src addr).fc = s.fc := rfl
@[simp] theorem State.fault_ring (src : Fin 64) (addr : Nat) : (s.fault src addr).ring = s.ring := rfl
@[simp] theorem State.fault_hif (src : Fin 64) (addr : Nat) : (s.fault src addr).hif = s.hif := rfl
@[simp] theorem State.fault_tw (src : Fin 64) (addr : Nat) : (s.fault src addr).tw = s.tw := rfl
@[simp] theorem State.fault_cmp (src : Fin 64) (addr : Nat) : (s.fault src addr).cmp = s.cmp := rfl
@[simp] theorem State.fault_adc (src : Fin 64) (addr : Nat) : (s.fault src addr).adc = s.adc := rfl
@[simp] theorem State.fault_tmr (src : Fin 64) (addr : Nat) : (s.fault src addr).tmr = s.tmr := rfl
@[simp] theorem State.fault_thm (src : Fin 64) (addr : Nat) : (s.fault src addr).thm = s.thm := rfl
@[simp] theorem State.fault_mem (src : Fin 64) (addr : Nat) : (s.fault src addr).mem = s.mem := rfl
@[simp] theorem State.fault_out (src : Fin 64) (addr : Nat) : (s.fault src addr).out = s.out := rfl
@[simp] theorem State.fault_rdata (src : Fin 64) (addr : Nat) : (s.fault src addr).rdata = s.rdata := rfl
@[simp] theorem State.fault_freeCtr (src : Fin 64) (addr : Nat) : (s.fault src addr).freeCtr = s.freeCtr := rfl
@[simp] theorem State.fault_pending (src : Fin 64) (addr : Nat) : (s.fault src addr).pending = s.pending := rfl
@[simp] theorem State.fault_word (src : Fin 64) (addr : Nat) (o : Nat) : (s.fault src addr).word o = s.word o := rfl
@[simp] theorem State.fault_fld (src : Fin 64) (addr : Nat) (g : Fld) : (s.fault src addr).fld g = s.fld g := rfl
@[simp] theorem State.fault_on (src : Fin 64) (addr : Nat) (g : Fld) : (s.fault src addr).on g = s.on g := rfl

/-! `State.journal` -/

@[simp] theorem State.journal_regs (r : JRec) : (s.journal r).regs = s.regs := rfl
@[simp] theorem State.journal_devtime (r : JRec) : (s.journal r).devtime = s.devtime := rfl
@[simp] theorem State.journal_heldAcc (r : JRec) : (s.journal r).heldAcc = s.heldAcc := rfl
@[simp] theorem State.journal_flt (r : JRec) : (s.journal r).flt = s.flt := rfl
@[simp] theorem State.journal_sys (r : JRec) : (s.journal r).sys = s.sys := rfl
@[simp] theorem State.journal_auth (r : JRec) : (s.journal r).auth = s.auth := rfl
@[simp] theorem State.journal_feed (r : JRec) : (s.journal r).feed = s.feed := rfl
@[simp] theorem State.journal_ph (r : JRec) : (s.journal r).ph = s.ph := rfl
@[simp] theorem State.journal_php (r : JRec) : (s.journal r).php = s.php := rfl
@[simp] theorem State.journal_phg (r : JRec) : (s.journal r).phg = s.phg := rfl
@[simp] theorem State.journal_meas (r : JRec) : (s.journal r).meas = s.meas := rfl
@[simp] theorem State.journal_chg (r : JRec) : (s.journal r).chg = s.chg := rfl
@[simp] theorem State.journal_chgg (r : JRec) : (s.journal r).chgg = s.chgg := rfl
@[simp] theorem State.journal_pk (r : JRec) : (s.journal r).pk = s.pk := rfl
@[simp] theorem State.journal_aon (r : JRec) : (s.journal r).aon = s.aon := rfl
@[simp] theorem State.journal_fc (r : JRec) : (s.journal r).fc = s.fc := rfl
@[simp] theorem State.journal_ring (r : JRec) : (s.journal r).ring = s.ring := rfl
@[simp] theorem State.journal_hif (r : JRec) : (s.journal r).hif = s.hif := rfl
@[simp] theorem State.journal_tw (r : JRec) : (s.journal r).tw = s.tw := rfl
@[simp] theorem State.journal_cmp (r : JRec) : (s.journal r).cmp = s.cmp := rfl
@[simp] theorem State.journal_adc (r : JRec) : (s.journal r).adc = s.adc := rfl
@[simp] theorem State.journal_tmr (r : JRec) : (s.journal r).tmr = s.tmr := rfl
@[simp] theorem State.journal_thm (r : JRec) : (s.journal r).thm = s.thm := rfl
@[simp] theorem State.journal_mem (r : JRec) : (s.journal r).mem = s.mem := rfl
@[simp] theorem State.journal_out (r : JRec) : (s.journal r).out = s.out := rfl
@[simp] theorem State.journal_rdata (r : JRec) : (s.journal r).rdata = s.rdata := rfl
@[simp] theorem State.journal_freeCtr (r : JRec) : (s.journal r).freeCtr = s.freeCtr := rfl
@[simp] theorem State.journal_pending (r : JRec) : (s.journal r).pending = s.pending := rfl
@[simp] theorem State.journal_word (r : JRec) (o : Nat) : (s.journal r).word o = s.word o := rfl
@[simp] theorem State.journal_fld (r : JRec) (g : Fld) : (s.journal r).fld g = s.fld g := rfl
@[simp] theorem State.journal_on (r : JRec) (g : Fld) : (s.journal r).on g = s.on g := rfl

/-! The free values: a draw changes the counter alone. -/

@[simp] theorem State.free_regs : s.free.2.regs = s.regs := rfl
@[simp] theorem State.free_devtime : s.free.2.devtime = s.devtime := rfl
@[simp] theorem State.free_jnl : s.free.2.jnl = s.jnl := rfl
@[simp] theorem State.free_heldAcc : s.free.2.heldAcc = s.heldAcc := rfl
@[simp] theorem State.free_flt : s.free.2.flt = s.flt := rfl
@[simp] theorem State.free_sys : s.free.2.sys = s.sys := rfl
@[simp] theorem State.free_auth : s.free.2.auth = s.auth := rfl
@[simp] theorem State.free_feed : s.free.2.feed = s.feed := rfl
@[simp] theorem State.free_ph : s.free.2.ph = s.ph := rfl
@[simp] theorem State.free_php : s.free.2.php = s.php := rfl
@[simp] theorem State.free_phg : s.free.2.phg = s.phg := rfl
@[simp] theorem State.free_meas : s.free.2.meas = s.meas := rfl
@[simp] theorem State.free_chg : s.free.2.chg = s.chg := rfl
@[simp] theorem State.free_chgg : s.free.2.chgg = s.chgg := rfl
@[simp] theorem State.free_pk : s.free.2.pk = s.pk := rfl
@[simp] theorem State.free_aon : s.free.2.aon = s.aon := rfl
@[simp] theorem State.free_fc : s.free.2.fc = s.fc := rfl
@[simp] theorem State.free_ring : s.free.2.ring = s.ring := rfl
@[simp] theorem State.free_hif : s.free.2.hif = s.hif := rfl
@[simp] theorem State.free_tw : s.free.2.tw = s.tw := rfl
@[simp] theorem State.free_cmp : s.free.2.cmp = s.cmp := rfl
@[simp] theorem State.free_adc : s.free.2.adc = s.adc := rfl
@[simp] theorem State.free_tmr : s.free.2.tmr = s.tmr := rfl
@[simp] theorem State.free_thm : s.free.2.thm = s.thm := rfl
@[simp] theorem State.free_mem : s.free.2.mem = s.mem := rfl
@[simp] theorem State.free_out : s.free.2.out = s.out := rfl
@[simp] theorem State.free_rdata : s.free.2.rdata = s.rdata := rfl
@[simp] theorem State.free_pending : s.free.2.pending = s.pending := rfl
@[simp] theorem State.free_freeCtr : s.free.2.freeCtr = s.freeCtr + 1 := rfl

/-! What was written is read back; what was not stays. -/

@[simp] theorem State.modFeed_same (i : Fin 4) (f : FeedH → FeedH) : (s.modFeed i f).feed[i] = f s.feed[i] := vmod_same _ _ _
theorem State.modFeed_ne {i j : Fin 4} (f : FeedH → FeedH) (h : i ≠ j) : (s.modFeed i f).feed[j] = s.feed[j] := vmod_ne _ _ h
@[simp] theorem State.modPh_same (i : Fin 16) (f : PhH → PhH) : (s.modPh i f).ph[i] = f s.ph[i] := vmod_same _ _ _
theorem State.modPh_ne {i j : Fin 16} (f : PhH → PhH) (h : i ≠ j) : (s.modPh i f).ph[j] = s.ph[j] := vmod_ne _ _ h
@[simp] theorem State.modPhp_same (i : Fin 2) (f : PhpH → PhpH) : (s.modPhp i f).php[i] = f s.php[i] := vmod_same _ _ _
theorem State.modPhp_ne {i j : Fin 2} (f : PhpH → PhpH) (h : i ≠ j) : (s.modPhp i f).php[j] = s.php[j] := vmod_ne _ _ h
@[simp] theorem State.modChg_same (i : Fin 2) (f : ChgH → ChgH) : (s.modChg i f).chg[i] = f s.chg[i] := vmod_same _ _ _
theorem State.modChg_ne {i j : Fin 2} (f : ChgH → ChgH) (h : i ≠ j) : (s.modChg i f).chg[j] = s.chg[j] := vmod_ne _ _ h
@[simp] theorem State.modPk_same (i : Fin 2) (f : PkH → PkH) : (s.modPk i f).pk[i] = f s.pk[i] := vmod_same _ _ _
theorem State.modPk_ne {i j : Fin 2} (f : PkH → PkH) (h : i ≠ j) : (s.modPk i f).pk[j] = s.pk[j] := vmod_ne _ _ h
@[simp] theorem State.modRing_same (i : Fin 64) (f : RingH → RingH) : (s.modRing i f).ring[i] = f s.ring[i] := vmod_same _ _ _
theorem State.modRing_ne {i j : Fin 64} (f : RingH → RingH) (h : i ≠ j) : (s.modRing i f).ring[j] = s.ring[j] := vmod_ne _ _ h
@[simp] theorem State.modTw_same (i : Fin 3) (f : TwH → TwH) : (s.modTw i f).tw[i] = f s.tw[i] := vmod_same _ _ _
theorem State.modTw_ne {i j : Fin 3} (f : TwH → TwH) (h : i ≠ j) : (s.modTw i f).tw[j] = s.tw[j] := vmod_ne _ _ h
@[simp] theorem State.modCmp_same (i : Fin 48) (f : CmpH → CmpH) : (s.modCmp i f).cmp[i] = f s.cmp[i] := vmod_same _ _ _
theorem State.modCmp_ne {i j : Fin 48} (f : CmpH → CmpH) (h : i ≠ j) : (s.modCmp i f).cmp[j] = s.cmp[j] := vmod_ne _ _ h
@[simp] theorem State.modAdc_same (i : Fin 2) (f : AdcH → AdcH) : (s.modAdc i f).adc[i] = f s.adc[i] := vmod_same _ _ _
theorem State.modAdc_ne {i j : Fin 2} (f : AdcH → AdcH) (h : i ≠ j) : (s.modAdc i f).adc[j] = s.adc[j] := vmod_ne _ _ h
@[simp] theorem State.modTmr_same (i : Fin 8) (f : TmrH → TmrH) : (s.modTmr i f).tmr[i] = f s.tmr[i] := vmod_same _ _ _
theorem State.modTmr_ne {i j : Fin 8} (f : TmrH → TmrH) (h : i ≠ j) : (s.modTmr i f).tmr[j] = s.tmr[j] := vmod_ne _ _ h

/-- Reading a register after one was written. -/
@[simp] theorem State.word_setWord (o : Nat) (w : Word) (p : Nat) : (s.setWord o w).word p = if p = o then w else s.word p := by
  simp [State.word, State.setWord]
theorem State.fld_setFld_same (f : Fld) (v : Nat) (h : f.hi < 32) (hl : f.lo ≤ f.hi) :
    (s.setFld f v).fld f = v % 2 ^ f.width := RegFile.fld_setFld_same s.regs f v h hl
theorem State.fld_setFld_off (f g : Fld) (v : Nat) (h : g.off ≠ f.off) : (s.setFld f v).fld g = s.fld g :=
  RegFile.fld_setFld_off s.regs f g v h
theorem State.fld_setWord_off (o : Nat) (w : Word) (g : Fld) (h : g.off ≠ o) : (s.setWord o w).fld g = s.fld g := by
  simp [State.fld, State.setWord, RegFile.fld, h]
theorem State.fld_setWord_same (w : Word) (g : Fld) : (s.setWord g.off w).fld g = g.extract w := by
  simp [State.fld, State.setWord, RegFile.fld]

end Sys2Proof.Machine
end

