-- ==== Sys2Proof/Machine/Electrical.lean ====
section
/-! DEFINITION. The electrical figures of ch. 17 as numbers: ranges, device power, heating, gate drivers, the stage interface, accuracy,
clocks, I/O levels, bus timing and the board (R1, R431 to R448, R450, R451). They bound the device and the board around it; no command
reads or changes them (log entry 10). -/

namespace Sys2Proof.Machine

/-! ### Ranges (R431, R432, R434) -/

/-- A figure with its limits, `none` where the manual states none. -/
structure Span where
  min : Option Rat
  typ : Option Rat
  max : Option Rat
deriving DecidableEq, Repr

/-- A value lies within the limits of a figure. -/
def Span.has (r : Span) (x : Rat) : Bool := r.min.all (fun m => decide (m ≤ x)) && r.max.all (fun m => decide (x ≤ m))

/-- The items R431 limits: balls in V, clamp current and latch-up in mA, temperatures in °C, discharges in V. -/
inductive StressItem
  | hv | hvgToGr | sense | bbkSw | bbkBst | fiveVolt | threeV3 | oneV8 | vddaon | core | clamp | storage | tj1ms | hbm | cdm | latchUp
deriving DecidableEq, Repr

/-- What does not damage the device, V (R431); VB5 and the 5V class share `fiveVolt`, VDDA, VDDIO and the 3V3 class `threeV3`, VDDC,
VDDPE and VDDPLL `core`. -/
def stressLimit : StressItem → Span
  | .hv => ⟨some (-3 / 10), none, some 100⟩
  | .hvgToGr => ⟨some (-3 / 10), none, some 15⟩
  | .sense => ⟨some (-6), none, some 6⟩
  | .bbkSw => ⟨some (-2), none, some 100⟩
  | .bbkBst => ⟨some (-3 / 10), none, some 6⟩
  | .fiveVolt => ⟨some (-3 / 10), none, some (55 / 10)⟩
  | .threeV3 | .oneV8 => ⟨some (-3 / 10), none, some (36 / 10)⟩
  | .vddaon => ⟨some (-3 / 10), none, some 2⟩
  | .core => ⟨some (-3 / 10), none, some (99 / 100)⟩
  | .clamp => ⟨some (-5), none, some 5⟩
  | .storage => ⟨some (-55), none, some 150⟩
  | .tj1ms => ⟨none, none, some 160⟩
  | .hbm => ⟨none, none, some 2000⟩
  | .cdm => ⟨none, none, some 500⟩
  | .latchUp => ⟨some (-100), none, some 100⟩

/-- The PE-class signal balls follow VDDPE, V (R431). -/
def stressPe (vddpe : Rat) : Span := ⟨some (-3 / 10), none, some (vddpe + 3 / 10)⟩

/-- The conditions the system operates the device within (R432). -/
inductive OpItem
  | bias | vaux | vsense | feedSense | packSense | phaseSense | phaseCm | vddioLoad | vrefx | tj
deriving DecidableEq, Repr

/-- Their ranges: V, but mV for the shunts, mA for the load and °C for TJ (R432). -/
def opRange : OpItem → Span
  | .bias => ⟨some (45 / 10), some 54, some 80⟩
  | .vaux => ⟨some (108 / 10), some 12, some (132 / 10)⟩
  | .vsense => ⟨some 0, none, some 80⟩
  | .feedSense => ⟨some (-50), none, some 100⟩
  | .packSense => ⟨some (-100), none, some 100⟩
  | .phaseSense => ⟨some (-16 / 10), none, some (16 / 10)⟩
  | .phaseCm => ⟨some (4 / 10), none, some (28 / 10)⟩
  | .vddioLoad => ⟨some 0, none, some 50⟩
  | .vrefx => ⟨some (245 / 100), some (25 / 10), some (255 / 100)⟩
  | .tj => ⟨some (-40), none, some 125⟩

/-- The internal supplies (R434). -/
inductive SupplyItem
  | vb5 | biasGood | biasPor | bbkFreq | vddc | cbkFreq | vdda | vddio | vddaon | aonPor | pump
deriving DecidableEq, Repr

/-- Their figures, V or MHz (R434). -/
def supplyRange : SupplyItem → Span
  | .vb5 => ⟨some (49 / 10), some 5, some (51 / 10)⟩
  | .biasGood => ⟨some (455 / 100), some (46 / 10), some (465 / 100)⟩
  | .biasPor => ⟨some (415 / 100), some (42 / 10), some (425 / 100)⟩
  | .bbkFreq => ⟨some (19 / 10), some 2, some (21 / 10)⟩
  | .vddc => ⟨some (83 / 100), some (85 / 100), some (87 / 100)⟩
  | .cbkFreq => ⟨some (38 / 10), some 4, some (42 / 10)⟩
  | .vdda | .vddio => ⟨some (32 / 10), some (33 / 10), some (34 / 10)⟩
  | .vddaon => ⟨some (175 / 100), some (18 / 10), some (185 / 100)⟩
  | .aonPor => ⟨some (145 / 100), some (15 / 10), some (155 / 100)⟩
  | .pump => ⟨some 11, some 12, some 13⟩

/-! ### Power and heat (R435 to R437) -/

/-- The blocks of R435. -/
inductive PowerItem
  | coreLogic | pwm | phy | io | comparators | converters | gates | anvil | losses
deriving DecidableEq, Repr

/-- Every block of R435. -/
def powerItems : List PowerItem := [.coreLogic, .pwm, .phy, .io, .comparators, .converters, .gates, .anvil, .losses]

/-- Power of a block, typical and maximum, W (R435). -/
def PowerItem.watts : PowerItem → Rat × Rat
  | .coreLogic => (95 / 100, 150 / 100)
  | .pwm => (22 / 100, 30 / 100)
  | .phy => (18 / 100, 25 / 100)
  | .io => (5 / 100, 15 / 100)
  | .comparators => (16 / 100, 22 / 100)
  | .converters => (12 / 100, 16 / 100)
  | .gates => (15 / 100, 25 / 100)
  | .anvil => (7 / 100, 10 / 100)
  | .losses => (70 / 100, 107 / 100)

/-- The block stands on Cirrus (R435). -/
def PowerItem.onCirrus : PowerItem → Bool
  | .coreLogic | .pwm | .phy | .io => true
  | _ => false

/-- Power of a part of the device, typical and maximum, W (R435). -/
def powerOf (p : PowerItem → Bool) : Rat × Rat :=
  ((powerItems.filter p).map (fun i => i.watts.1) |>.sum, (powerItems.filter p).map (fun i => i.watts.2) |>.sum)

/-- Typical current from the pack in Doldrums, µA, with the crystal or the internal oscillator (R436). -/
def doldrumsCurrent (crystal : Bool) : Rat := 45 / 10 + (if crystal then 12 / 10 else 6 / 10) + 1 / 10 + 32 / 10

/-- The rise of the hotter die over the board at the package edge, K, for a device power in W: θJB (R437). -/
def boardRise (p : Rat) : Rat := p * (42 / 10)
/-- The rise of the hotter die over still air, K: θJA (R437). -/
def airRise (p : Rat) : Rat := p * (135 / 10)
/-- The rise of the hotter die over a cold plate on the lid, K: θJC (R437). -/
def lidRise (p : Rat) : Rat := p * (30 / 100)

/-- What dividing FCLK and CORE by 2 takes off the core logic line, W (R435). -/
def halvedSaves : Rat × Rat := (45 / 100, 70 / 100)
/-- What each shed phase saves, W, typical (R435). -/
def shedSaves : Rat := 14 / 1000

/-! ### Gates (R438, R439) -/

/-- The gate drivers (R438). -/
inductive GateItem
  | enhanced | inrush | oring | pack | pullDown | scPullDown | orFast | heldOff
deriving DecidableEq, Repr

/-- Their figures: V, mA, A for the two fast pull-downs, kΩ for the gate held off (R438). -/
def gateRange : GateItem → Span
  | .enhanced => ⟨some 11, some 12, some 13⟩
  | .inrush => ⟨some (1 / 2), some 1, some (3 / 2)⟩
  | .oring => ⟨some 15, some 20, some 25⟩
  | .pack => ⟨some 4, some 5, some 6⟩
  | .pullDown => ⟨some 80, some 100, some 130⟩
  | .scPullDown => ⟨some (3 / 2), some 2, none⟩
  | .orFast => ⟨some (6 / 10), some (8 / 10), none⟩
  | .heldOff => ⟨none, some 100, none⟩

/-- Longest time of a short-circuit turn-off, ns, for a gate charge in nC between 12 V and 1 V (R439). -/
def scTurnOff (q : Rat) : Rat := if q ≤ 36 then 35 else 11 + q / (15 / 10)
/-- Longest time of a normal turn-off, ns, for a total gate charge in nC (R439). -/
def gateTurnOff (q : Rat) : Rat := 40 + q / (80 / 1000)
/-- Longest time of a reverse-current turn-off, ns, for the charge of the ORing gates at 12 V in nC (R438, R439). -/
def revTurnOff (q : Rat) : Rat := if q ≤ 100 then 200 else 200 + (q - 100) / (6 / 10)

/-! ### Stages, I/O and buses (R440, R441, R444 to R447) -/

/-- The PWM, EN and sense balls, the logic balls and the two-wire balls (R440, R445, R446). -/
inductive PadItem
  | pwmVoh | pwmVol | pwmEdge | pwmLeak | legSkew | phaseSkew | jitter | senseCurrent | logic33Vil | logic33Vih | logic18Vil | logic18Vih
  | logicLeak | pushVoh | pushVol | drainVol | drainLeak | busVil | busVih | busHys | busVol | busCap | busLeak
deriving DecidableEq, Repr

/-- Their figures: V, ns for edges, ps for skew and jitter, µA for leakage, pF for capacitance (R440, R445, R446). -/
def padRange : PadItem → Span
  | .pwmVoh | .pushVoh => ⟨some (29 / 10), none, none⟩
  | .pwmVol | .pushVol | .drainVol | .busVol => ⟨none, none, some (4 / 10)⟩
  | .pwmEdge => ⟨none, some 1, some (3 / 2)⟩
  | .pwmLeak | .senseCurrent | .logicLeak => ⟨some (-1), none, some 1⟩
  | .legSkew => ⟨some (-150), none, some 150⟩
  | .phaseSkew => ⟨some (-300), none, some 300⟩
  | .jitter => ⟨none, some 15, some 30⟩
  | .logic33Vil | .busVil => ⟨none, none, some (8 / 10)⟩
  | .logic33Vih => ⟨some 2, none, none⟩
  | .logic18Vil => ⟨none, none, some (1 / 2)⟩
  | .logic18Vih => ⟨some (13 / 10), none, none⟩
  | .drainLeak | .busLeak | .busCap => ⟨none, none, some 10⟩
  | .busVih => ⟨some (135 / 100), none, some (36 / 10)⟩
  | .busHys => ⟨some (1 / 10), none, none⟩

/-- What the system's stages must meet (R441). -/
inductive StageItem
  | hiZ | readLow | readHigh | offAfterEn | ksns | senseCm | senseDelay | senseBw
deriving DecidableEq, Repr

/-- Its limits: V, ns, mV/A, MHz (R441). -/
def stageRange : StageItem → Span
  | .hiZ => ⟨some 1, none, some (23 / 10)⟩
  | .readLow => ⟨none, none, some (8 / 10)⟩
  | .readHigh => ⟨some (25 / 10), none, none⟩
  | .offAfterEn => ⟨none, none, some 20⟩
  | .ksns => ⟨some (25 / 10), none, some 20⟩
  | .senseCm => ⟨some (4 / 10), none, some (28 / 10)⟩
  | .senseDelay => ⟨none, none, some 15⟩
  | .senseBw => ⟨some 20, none, none⟩

/-- The clock sources (R444). -/
inductive ClockItem
  | xtalPpm | xtalEsr | extSwing | extDuty | extPpm | extJitter | aonPpm | aonEsr | syncHalf
deriving DecidableEq, Repr

/-- Their requirements: ppm, Ω, V peak to peak, %, ps RMS, kΩ for the AON crystal, ns for each half of SYNC_IN (R444). -/
def clockRange : ClockItem → Span
  | .xtalPpm | .extPpm => ⟨some (-50), none, some 50⟩
  | .xtalEsr => ⟨none, none, some 60⟩
  | .extSwing => ⟨some (8 / 10), none, some (33 / 10)⟩
  | .extDuty => ⟨some 45, none, some 55⟩
  | .extJitter => ⟨none, none, some 1⟩
  | .aonPpm => ⟨some (-20), none, some 20⟩
  | .aonEsr => ⟨none, none, some 70⟩
  | .syncHalf => ⟨some 100, none, none⟩

/-- Figures of a two-wire mode as generated and required: kHz for SCL, µs for the rest, ns for the set-up time, pF (R447). -/
structure BusFigures where
  scl : Rat
  low : Rat
  high : Rat
  buf : Rat
  hold : Rat × Rat
  setup : Rat
  stretch : Rat
  cap : Rat
deriving DecidableEq, Repr

/-- Standard-mode, Fast-mode, Fast-mode Plus (R447). -/
def busFigures : Fin 3 → BusFigures
  | 0 => ⟨100, 47 / 10, 4, 47 / 10, (3 / 10, 345 / 100), 250, 5, 400⟩
  | 1 => ⟨400, 13 / 10, 6 / 10, 13 / 10, (3 / 10, 9 / 10), 100, 5, 400⟩
  | 2 => ⟨1000, 1 / 2, 26 / 100, 1 / 2, (12 / 100, 45 / 100), 50, 5, 550⟩

/-! ### Accuracy (R1, R442, R443) -/

/-- The measurement paths (R1, R442). -/
inductive AccItem
  | bandgap | inl | dnl | sarOffset | sarGain | snr | divider | feedOffset | chargeVoltage | coulGain | coulOffset | coulInl | cmpThreshold
  | cmpOffset
deriving DecidableEq, Repr

/-- Their accuracy: V for the bandgap, LSB, %, dB, µV referred to the shunt, % of full scale, comparator codes (R442). The charge
voltage is the ±0.3 % of R1. -/
def accuracy : AccItem → Span
  | .bandgap => ⟨some (24975 / 10000), some (25 / 10), some (25025 / 10000)⟩
  | .inl => ⟨some (-4), some (3 / 2), some 4⟩
  | .dnl => ⟨some (-99 / 100), some (4 / 10), some (99 / 100)⟩
  | .sarOffset => ⟨some (-4), none, some 4⟩
  | .sarGain => ⟨some (-5 / 100), none, some (5 / 100)⟩
  | .snr => ⟨none, some 84, none⟩
  | .divider => ⟨some (-1 / 10), none, some (1 / 10)⟩
  | .feedOffset => ⟨some (-10), none, some 10⟩
  | .chargeVoltage => ⟨some (-3 / 10), none, some (3 / 10)⟩
  | .coulGain => ⟨some (-2 / 10), none, some (2 / 10)⟩
  | .coulOffset => ⟨some (-1 / 2), none, some (1 / 2)⟩
  | .coulInl => ⟨some (-1 / 100), none, some (1 / 100)⟩
  | .cmpThreshold => ⟨some (-2), none, some 2⟩
  | .cmpOffset => ⟨some (-1 / 2), none, some (1 / 2)⟩

/-- The error bound of a Sounding result without a quality flag, mΩ, `none` where the manual states none: FREQ in Hz, NMEAS, IA in A
and |Z| in mΩ (R443). -/
def soundingError (freq nmeas ia z : Rat) : Option Rat :=
  if ia * z < 10 then none
  else if 1 / 10 ≤ freq ∧ freq ≤ 200 then (if 4 ≤ nmeas then some (2 / 100 * z + 3 / 10 / ia) else none)
  else if 200 < freq ∧ freq ≤ 2000 then (if 16 ≤ nmeas then some (4 / 100 * z + 5 / 10 / ia) else none)
  else none

/-! ### The board (R448, R450, R451) -/

/-- Pairs of conductors the system keeps apart (R448). -/
inductive GapItem
  | hvToLv | hvGroups | hvWithin | gateToGr
deriving DecidableEq, Repr

/-- Least distance on outer and inner layers, mm (R448). -/
def creepage : GapItem → Rat × Rat
  | .hvToLv | .hvGroups => (125 / 100, 5 / 10)
  | .hvWithin => (4 / 10, 25 / 100)
  | .gateToGr => (2 / 10, 15 / 100)

/-- Limits on the sense routing: Ω in series with the current and the voltage sense, pF across a current sense, mm of mismatch of the
phase sense and of the PWM pair, pF on PHCNT, nF on a thermistor ball (R450). -/
def senseLimits : List Rat := [10, 100, 220, 25, 10, 100, 100]

/-- Nets with a prescribed capacitance (R451). -/
inductive CapNet
  | bias | vaux | bst | vb5 | vddc | vddpe | vddpll | vdda | vddio | vddaon | pump | refcap | peTx
deriving DecidableEq, Repr

/-- The capacitance the system fits at a net: bulk, then at each ball, µF (R451). -/
def fitted : CapNet → Rat × Rat
  | .bias | .vaux => (1, 0)
  | .bst => (1 / 10, 0)
  | .vb5 => (22, 1)
  | .vddc => (44, 1 / 10)
  | .vddpe => (0, 11 / 10)
  | .vddpll | .vddaon | .refcap => (1, 0)
  | .vdda | .vddio => (47 / 10, 1 / 10)
  | .pump | .peTx => (22 / 100, 0)

end Sys2Proof.Machine
end

