-- ==== Sys2Proof/Machine/Pins.lean ====
section
/-! DEFINITION. The levels of the output balls (R46), read from the state: nothing is stored beside the blocks that drive them. -/

namespace Sys2Proof.Machine

/-- The level at an output ball (R46). -/
inductive BallLvl
  /-- Not driven; an open-drain ball that is released is so too. -/
  | highZ
  /-- The 100 kΩ internal pull-down, or pull-down to its reference ball. -/
  | pullDown
  /-- Driven low, or to its reference ball. -/
  | low
  /-- Driven high, or the gate on. -/
  | high
  /-- Switching. -/
  | switching
deriving DecidableEq, Repr

/-- The supplies of the I/O, ANA and HV domains are good: all derive from VB5, which
Doldrums stops (R46, R59, R212). PRESUMED, log entry 122. -/
def State.supplyGood (s : State) : Bool := s.sys.biasGood && !s.sys.doldrums

/-- A push-pull or gate ball: pulled down without its supply, then low or high (R46). -/
def State.drives (s : State) (on : Bool) : BallLvl :=
  if !s.supplyGood then .pullDown else if on then .high else .low

/-- An open-drain ball: high impedance without its supply, then low or released (R46). -/
def State.drains (s : State) (low : Bool) : BallLvl := if s.supplyGood && low then .low else .highZ

/-- PHn_EN (R46, R115). -/
def State.ballEn (s : State) (n : Fin 16) : BallLvl := s.drives s.ph[n].en

/-- A PWM ball: pulled down without its supply, else as the phase drives it, where high impedance is the mid level (R46, R115). -/
def State.ballPwm (s : State) (l : PwmLvl) : BallLvl :=
  if !s.supplyGood then .pullDown else match l with
    | .low => .low
    | .high => .high
    | .hiZ => .highZ
/-- PHn_PWMB (R46). -/
def State.ballPwmb (s : State) (n : Fin 16) : BallLvl := s.ballPwm s.ph[n].pwmb
/-- PHn_PWMK (R46). -/
def State.ballPwmk (s : State) (n : Fin 16) : BallLvl := s.ballPwm s.ph[n].pwmk

/-- FDn_HSG and FDn_ORG (R46, R87). -/
def State.ballHsg (s : State) (n : Fin 4) : BallLvl := s.drives (s.on (FEED_STAT_HSON n))
@[inherit_doc State.ballHsg] def State.ballOrg (s : State) (n : Fin 4) : BallLvl := s.drives (s.on (FEED_STAT_ORON n))

/-- PKn_CHG and PKn_DSG (R46, R192). -/
def State.ballChg (s : State) (k : Fin 2) : BallLvl := s.drives (s.on (PK_STAT_CHGON k))
@[inherit_doc State.ballChg] def State.ballDsg (s : State) (k : Fin 2) : BallLvl := s.drives (s.on (PK_STAT_DSGON k))

/-- FAULT_N (R46, R407): FLT_PIN.LOW says what the pin is driven to once its supply is good. -/
def State.ballFault (s : State) : BallLvl := s.drains (s.on FLT_PIN_LOW)

/-- THRp_N (R46, R244): FC_THR.STATE likewise. -/
def State.ballThr (s : State) (p : Fin 8) : BallLvl := s.drains ((BitVec.ofNat 8 (s.fld FC_THR_STATE)).getLsbD p)

/-- ALERT_N (R46, R308): low while an SMBus alert is pending. -/
def State.ballAlert (s : State) : BallLvl := s.drains (s.sys.strapsRead && s.on TW_M_ALERT_PEND)

/-- PE_CLKREQ_N (R44, R46, R64): high impedance until the straps configure the link, then low, as no L1 PM Substate stops the clock (R256),
over a device reset too, through which the link stays trained.
PRESUMED, log entry 122. -/
def State.ballClkreq (s : State) : BallLvl := s.drains ((s.sys.strapsRead && !s.on SYS_STRAP_HOSTSEL) || s.on HIF_LNK_LINKUP)

/-- TDO (R44, R46): high impedance in PROVISIONED and FIELD; in the other states the debug probe shifts it, and between shifts the
TAP leaves it so. PRESUMED, log entry 122. -/
def State.ballTdo (_ : State) : BallLvl := .highZ

/-- SYNC_OUT (R46, R129): high impedance until SOSEL names a port, then that port's cycle starts. -/
def State.ballSync (s : State) : BallLvl :=
  let sel := s.fld PH_SYNC_SOSEL
  if s.supplyGood && (sel == 1 || sel == 2) then .switching else .highZ

/-- BBK_SW, the bias buck: it switches once a bias input feeds it, and stops in Doldrums (R46, R59, R212). -/
def State.ballBbk (s : State) : BallLvl := if s.sys.bias.isSome && !s.sys.doldrums then .switching else .highZ

/-- CBK_SW, the core buck: it switches once VB5 is good (R46, R59). -/
def State.ballCbk (s : State) : BallLvl := if s.supplyGood then .switching else .highZ

end Sys2Proof.Machine
end

