-- ==== Sys2Proof/WellFormed.lean ====
section
/-! DEFINITION. Which commands are well formed: operands within the ranges the manual gives what they stand for. A field the
type already bounds (a feed, a ring, a channel number) needs no check. -/

namespace Sys2Proof

/-- A context or consumer ID has 18 bits (R219, R253); a GET_TELEMETRY chain has 1 to 15 descriptors (R269, R285). -/
def DmaRead.wf : DmaRead → Bool
  | .grant c => decide (c < 262144)
  | .list ds => decide (1 ≤ ds.length) && decide (ds.length ≤ 15)
  | .desc _ | .profile _ | .key => true

/-- Step 11 waits for the fifth presence sample (R191), and the scrub of step 5 reads rows of B3 (R74, R375). -/
def Boot.wf (r : Boot) : Bool :=
  r.packs.toList.all (fun l => decide (5 ≤ l.length)) && r.b3ce.all (fun e => rowOk 3 e.2 e.1) &&
    r.b3bad.all (fun e => rowOk 3 e.2.2 e.2.1)

/-- Operands in range: chains of 1 to 15 descriptors (R269), fetches of 1 to 16 descriptors (R269), a push write inside one slot (R264),
register offsets on word boundaries (R33), consumer IDs below 2^18 (R253), 24-bit coulomb codes (R199, R342), 6-bit trims (R327), at most
three attempts on a pack bus (R201), a read of at least one byte (R301), a BAR2 write likewise (R262), a row of the bank it scrubs (R375,
R381). -/
def Instr.wf : Instr → Bool
  | .biasGood r => r.wf
  | .resetNRelease r => r.wf
  | .devrst _ _ r => r.wf
  | .coulombSample _ code => decide (-8388608 ≤ code) && decide (code ≤ 8388607)
  | .rarexTransaction _ _ fails _ => decide (fails.length ≤ 3)
  | .getSigPoll _ fails => decide (fails.length ≤ 3)
  | .doldrumsWake _ _ r => r.wf
  | .cacheFillDone c _ _ => decide (c < 262144)
  | .accountWriteback c _ _ => decide (c < 262144)
  | .grantExpire c => decide (c < 262144)
  | .revokeDeadline c => decide (c < 262144)
  | .throttleRelease c => decide (c < 262144)
  | .pushSlotWrite _ ws => decide (1 ≤ ws.length) && decide (ws.length ≤ 64)
  | .bar2InvalidWrite _ len => decide (1 ≤ len)
  | .descriptorFetchDone _ ds => decide (1 ≤ ds.length) && decide (ds.length ≤ 16)
  | .dmaReadError r _ _ => r.wf
  | .setLimits ds => decide (1 ≤ ds.length) && decide (ds.length ≤ 15)
  | .getTelemetry ds _ => decide (1 ≤ ds.length) && decide (ds.length ≤ 15)
  | .twMRead n _ => decide (1 ≤ n)
  | .comparatorAutozero _ trim _ => decide (-31 ≤ trim) && decide (trim ≤ 31)
  | .patrolScrub r off lane _ _ => rowOk r.bank off lane
  | .registerWrite _ off _ _ => off.toNat % 4 == 0
  | .registerRead _ off _ => off.toNat % 4 == 0
  | .biasRise .. | .powerOnReset | .biasSourceChange .. | .resetNAssert | .goField .. | .goReturned ..
  | .lifecycleChangeDone .. | .selftestOnline .. | .onlineMarginCheck | .onlinePhaseTestDone .. | .selftestOffline ..
  | .offlineDone .. | .feedPresent .. | .feedCheckDone .. | .feedAbsent .. | .feedUv .. | .feedOv .. | .feedWindowEnter ..
  | .feedQualified .. | .inrushStart .. | .inrushComplete .. | .inrushTimeout .. | .feedModelUpdate ..
  | .feedShortCircuit .. | .feedScHoldoffEnd .. | .feedReverseCurrent .. | .oringReenable .. | .droopUpdate ..
  | .nearAssert .. | .nearRelease | .feedHealthExpire .. | .feedTripCountClear .. | .feedGroupChange | .feedLockSet ..
  | .ejectAssert | .ejectDeassert | .ejectFeedOff | .extractHoldExpire | .pwmCycleStart .. | .tripWireEvent ..
  | .maxDutyEnd .. | .hardSwitchReport .. | .modeEvaluate .. | .directionChange .. | .inductanceLearn ..
  | .deadtimeAdapt .. | .tripMismatch .. | .phaseAdd .. | .phaseShed .. | .phaseWakeDone .. | .phaseShedDone ..
  | .slowOverload .. | .oclCoolEnd .. | .phaseLoss .. | .legProbe .. | .syncLost | .syncRelock | .phaseMap ..
  | .phaseMapDrainDone | .setVtarget .. | .vholdRefUpdate | .phVholdWrite .. | .busovUpdate | .feedLimitUpdate
  | .chargeCommandUpdate | .chargeLoopUpdate .. | .chgQualifyEnd .. | .chgPrechargeExit .. | .chgStageTimeout ..
  | .chgDwellExpire .. | .chgTempOut .. | .chgRestEnd .. | .chgFaultClear .. | .crestUpdate | .chgStarve ..
  | .setProfile .. | .profileReadDone .. | .profileStagedLoad .. | .sounding .. | .soundingWindowEnd .. | .holdupLoopUpdate
  | .hulowAssert | .hulowRelease | .holdupCut .. | .holdupEndStop | .gustHoldEnd .. | .packInserted .. | .packRemoved ..
  | .packIdentDone .. | .packCloseStart .. | .packCloseDone .. | .packCloseTimeout .. | .packDsgReclose ..
  | .packShortCircuit .. | .packChargeOvercurrent .. | .packOv .. | .packUv .. | .packOvertemp .. | .packTripRetry ..
  | .packLatchClear .. | .coulombOffsetStart .. | .coulombOffsetDone .. | .authRunStart .. | .authRunDone ..
  | .packAuthenticate .. | .loadKey .. | .keyReadDone .. | .voidKey .. | .authdisWrite .. | .lifeWriteback ..
  | .pkShipArm .. | .aonTick .. | .shipCut | .forecastSnapshot | .grantRequest .. | .grantRelease .. | .grantExtend ..
  | .accountRead .. | .zoneHostStale .. | .bindContext .. | .unbindContext .. | .grantTableSetup .. | .pePerstNAssert
  | .linkDown | .functionLevelReset | .d3hotEntry | .busMasterDisable | .busMasterEnable .. | .aspmL1Entry
  | .sqTailDoorbell .. | .cqHeadDoorbell .. | .ringEnable .. | .ringDisable .. | .ringDrained .. | .completionPost ..
  | .msixTimerExpire .. | .msixUnmask .. | .adminDeferredStart .. | .identify .. | .setLimitsApply | .telemetryRecord ..
  | .journalDrain .. | .twMPointerSet .. | .twMWrite .. | .twBusError .. | .twSclTimeout .. | .twSdaTimeout ..
  | .twBusFree .. | .alertRaise | .alertResponse .. | .hostNotify .. | .hostNotifyRetry .. | .hostNotifyDrop
  | .twArbLost .. | .twBusClear .. | .twBusclr .. | .twPortReset .. | .cmpGpEvent .. | .busUv .. | .biasLow .. | .biasOv ..
  | .adcaPass .. | .adcbPass .. | .adcInjection .. | .referenceLoss .. | .refselWrite .. | .adcCrossCheck ..
  | .dieTempReading .. | .anvilOvertemp | .stageTempReading .. | .ncapStep .. | .thermalCompUpdate .. | .timerIncrement ..
  | .timerCapture .. | .timerCaptureRead .. | .timerCntWrite .. | .timerCcrWrite .. | .timerEnable ..
  | .timerTriggerEdge .. | .devtimeWrap | .cpDebugHalt | .b4WipeDone | .faultEvent | .graceExpire .. | .faultAck ..
  | .fltAutoAck .. | .firstErrorRearm .. | .watchdogExpire | .collectorSelfCheck .. | .safeClockLoss | .faultInject ..
  | .faultPulseEnd | .heartbeatResume .. | .d2dRetry | .d2dLinkLoss | .refLoss .. | .attendPress | .attendRelease
  | .presenceTimeout | .presenceClose .. | .journalWrite | .jnlRdidxWrite .. | .jnlRelWrite .. | .referenceReady ..
  | .linkUp .. | .aspmL1Exit | .cpDebugResume | .blankingIntervalEnd .. | .faultNHeartbeat => true

end Sys2Proof
end

