-- ==== Sys2Proof/Tests/Slice0.lean ====
section
/-! SUPPORT. Tests: for every clause of a statement that has hypotheses a state and operands that meet them all (`witness_…`), terms
that each check of `Instr.wf` refuses, and the worked examples of the manual. -/

set_option Elab.async false

namespace Sys2Proof.Tests

open Sys2Proof Sys2Proof.Machine

/-- A small state: every register 0, every hidden structure as reset leaves it. -/
def base : State := { State.reset with regs := [] }
def pPowered (s : State) : State := { s with sys := { s.sys with biasGood := true, doldrums := false } }
def pAwake (s : State) : State := { s with sys := { s.sys with biasGood := true, doldrums := false, resetHeld := false } }
def pServes (s : State) : State :=
  { (pAwake s).setOn HIF_LNK_LINKUP true with
    sys := { (pAwake s).sys with strapsRead := true }, heldAcc := [], jnl := { s.jnl with queue := [] } }
def pAdmin (s : State) : State :=
  let s := pPowered s
  let s := ((((((s.setOn SYS_STRAP_HOSTSEL false).setFld (HIF_STAT_STATE 0) 1).setFld SYS_STATE_MODE 1).setOn SYS_STATE_PHOK true).setFld
    (HIF_CFG_CQSZ 0) 4).setFld (HIF_CQP_CQHEAD 0) 3).setFld (HIF_CQP_CQTAIL 0) 3
  let s := s.modRing 0 (fun r => { r with sq := [], started := [], cq := [] })
  { s with hif := { s.hif with held := [] } }
def pCtx (s : State) (n : Fin 64) (c : Nat) (l : GtLine) : State :=
  let s := (((((((s.setFld (HIF_STAT_STATE n) 1).setFld SYS_STATE_MODE 1).setFld (HIF_CFG_CQSZ n) 6).setFld (HIF_CQP_CQHEAD n) 3).setFld
    (HIF_CQP_CQTAIL n) 3).setOn (FC_CTX_CFG_BOUND n) true).setOn FC_STAT_STATIC false).setFld FC_GTN_NENT 262144
  let s := (s.setFld (FC_CTX_CIDBASE_CIDBASE n) 0).setFld (FC_CTX_CIDCNT_CIDCNT n) 262144
  let s := pPowered { s with ring := s.ring.map (fun (r : RingH) => { r with sq := [], cq := [] }) }
  { s with fc := { s.fc with misses := [], lines := { l with cid := c } :: s.fc.lines.filter (fun m => m.cid != c) } }
/-- A sound profile block: 14 cells, its CRC-32 in place (R185). -/
def mkProf : Profile := 0x3e803e803e803e803e803e803e803e854483c3024180c00463c32281e140a0000000000003c0000001903e83cec2d000000000000000000000000000000003201f40032000061a894709c40a4107530b3cac15e00000064000e0160000150f1
/-- The base point of the curve (R203). -/
def keyG : BitVec 512 := 0xf551bf376840b6cbce5e316b5733ce2b169e0f7c4aebe78e9b7f1afee242e34f96c298d84539a1f4a033eb2d817d0377f240a463e5e6bcf847422ce1f2d1176b

def zLine (c : Nat) : GtLine :=
  ⟨c, 0, 0, false, false, false, 0, 0, 0, 0, 0, .idle, false, 0, 0, 0, 0, 0, false, 0, 0, 0, 0, false⟩
def zAdc : AdcIn := ⟨Vector.replicate 48 0, Vector.replicate 16 0, 0⟩
def zIdent : Ident := ⟨0, 1, 14 <<< 0x2E0, none, Vector.replicate 2 0⟩
def zLeg : LegPulse := ⟨0, 0⟩
def zLegs : Legs := ⟨Vector.replicate 16 zLeg, Vector.replicate 16 zLeg⟩
def zRefs : RefMeas :=
  ⟨Vector.replicate 3 1, false, Vector.replicate 2 0, Vector.replicate 2 0, Vector.replicate 48 0, Vector.replicate 8 0,
    Vector.replicate 3 0⟩
def zFeed : FeedChecks := ⟨54, 0, 0, 0, 54, 0, 0⟩
def zBias : BiasIn := ⟨Vector.replicate 4 0, 0, Vector.replicate 2 0, 0⟩
def zCfg : PciCfg := ⟨0, 0, 0, false, 0, false, false, false, false, false, 0⟩
def zRec : JRec := ⟨0, 0, false, false, false, false, 0, 0, 0, 0, 0, 0⟩
def zEntry : JEntry := ⟨0, zRec⟩
def zBoot : Boot :=
  { straps := Vector.replicate 7 0, phcnt := Vector.replicate 8 0, anvilCrc := true, cirrusCrc := true, sram := Vector.replicate 5 0,
    b3ce := [], b3bad := [], aonRest := 0, flits := 4096, refs := zRefs, loopBad := 0, feedChk := Vector.replicate 4 zFeed, legs := zLegs,
    packs := Vector.replicate 2 [], ident := Vector.replicate 2 none, sda := Vector.replicate 2 none, crystal := false,
    cmpIn := Vector.replicate 48 512 }
theorem witness_PowerOnAndDeviceReset :
(∃ (v : BiasIn) (s : State), s.sys.bias = none ∧ s.sys.doldrums = false ∧ 45 / 10 < v.at_ (v.pick none)) ∧
(∃ (s : State), s.sys.bias.isSome = true ∧ s.sys.biasGood = false ∧ s.sys.doldrums = false ∧ s.on PK_SHIP_ARM = false) ∧
(∃ (s : State), s.sys.bias.isSome = true) ∧
(∃ (s : State), s.powered = true) ∧
(∃ (s : State), s.powered = true ∧ s.sys.resetHeld = true ∧ s.on PK_SHIP_ARM = false) ∧
(∃ (o : Origin) (s : State), s.serves o ∧ s.sys.resetHeld = false ∧ s.on SYS_MAINT_MAINT = true ∧ s.on PK_SHIP_ARM = false) :=
  ⟨(
      let v : BiasIn := ⟨Vector.replicate 4 54, 0, Vector.replicate 2 0, 0⟩
      let s : State := base
      let s : State := { s with sys := { s.sys with bias := none } }
      let s : State := { s with sys := { s.sys with doldrums := false } }
      ⟨v, s, by decide +kernel⟩),
   (
      let s : State := base
      let s : State := { s with sys := { s.sys with bias := if s.sys.bias.isSome then s.sys.bias else some .vaux } }
      let s : State := { s with sys := { s.sys with biasGood := false } }
      let s : State := { s with sys := { s.sys with doldrums := false } }
      let s : State := s.setOn PK_SHIP_ARM false
      ⟨s, by decide +kernel⟩),
   (
      let s : State := base
      let s : State := { s with sys := { s.sys with bias := if s.sys.bias.isSome then s.sys.bias else some .vaux } }
      ⟨s, by decide +kernel⟩),
   (
      let s : State := pPowered base
      ⟨s, by decide +kernel⟩),
   (
      let s : State := pPowered base
      let s : State := { s with sys := { s.sys with resetHeld := true } }
      let s : State := s.setOn PK_SHIP_ARM false
      ⟨s, by decide +kernel⟩),
   (
      let o : Origin := .cp
      let s : State := pServes base
      let s : State := { s with sys := { s.sys with resetHeld := false } }
      let s : State := (s.setOn SYS_MAINT_MAINT true).setOn PK_SHIP_ARM false
      ⟨o, s, by unfold State.serves; decide +kernel⟩)⟩

theorem witness_LifeCycleAndSelfTests :
(∃ (o : Origin) (v : Word) (s : State), s.serves o ∧ s.on SYS_LC_BUSY = false ∧ s.on SYS_MAINT_MAINT = true ∧ v.toNat / 2 ^ 24 =
      0xA5 ∧ v.getLsbD 9 = false ∧ s.lifecycle = 1 ∧ s.sealOk = true ∧ s.present = true ∧ s.stalled = false ∧ s.anySwitching =
      false) ∧
(∃ (o : Origin) (v : Word) (s : State), s.serves o ∧ s.on SYS_LC_BUSY = false ∧ s.on SYS_MAINT_MAINT = true ∧ v.toNat / 2 ^ 24 =
      0xA5 ∧ (s.lifecycle = 1 ∨ s.lifecycle = 2) ∧ s.present = true ∧ s.stalled = false ∧ s.anySwitching = false) ∧
(∃ (x : BitVec 3) (s : State), s.sys.lcTarget = some x) ∧
(∃ (d : Desc) (s : State), s.adminReady ∧ d.scope = 1 ∧ s.sys.test = none ∧ s.allMargin = true) ∧
(∃ (d : Desc) (s : State), s.adminReady ∧ d.scope = 2 ∧ s.sys.test = none ∧ s.anySwitching = false ∧ s.on CHG_GSTAT_GUSTRUN =
      false ∧ s.on SYS_MAINT_MAINT = true) ∧
(∃ (n : Fin 16) (k : Fin 2) (s : State), s.testing 1 = true ∧ s.sys.testPhase = some n ∧ s.portOf n = some k ∧ s.margin k =
      false) ∧
(∃ (n : Fin 16) (s : State), s.testing 1 = true ∧ s.sys.testPhase = some n ∧ s.phSt n = .test) ∧
(∃ (r : OffRes) (s : State), s.testing 2 = true ∧ r.cirrusCrc = false) :=
  ⟨(
      let o : Origin := .cp
      let v : Word := ((0 : Word) &&& 0x00FFFDFF) ||| 0xA5000000
      let s : State := ((((pServes base).setOn SYS_LC_BUSY false).setOn SYS_MAINT_MAINT true).setOn AUTH_PRES_OPEN true).setOn JNL_CFG_POLICY false
      let s : State := { (((s.setOn AUTH_SEAL_INTACT true).setOn AUTH_SEAL_TAMPER false).setOn JNL_CFG_POLICY false).each (List.finRange 16) (fun t n => t.setFld (PH_STAT_STATE n) 2) with sys := { s.sys with fuses := #v[7, 0, 0] } }
      ⟨o, v, s, by unfold State.serves; decide +kernel⟩),
   (
      let o : Origin := .cp
      let v : Word := ((0 : Word) &&& 0x00FFFDFF) ||| 0xA5000000
      let s : State := ((((pServes base).setOn SYS_LC_BUSY false).setOn SYS_MAINT_MAINT true).setOn AUTH_PRES_OPEN true).setOn JNL_CFG_POLICY false
      let s : State := { (((s.setOn AUTH_SEAL_INTACT true).setOn AUTH_SEAL_TAMPER false).setOn JNL_CFG_POLICY false).each (List.finRange 16) (fun t n => t.setFld (PH_STAT_STATE n) 2) with sys := { s.sys with fuses := #v[31, 7, 3] } }
      ⟨o, v, s, by unfold State.serves; decide +kernel⟩),
   (
      let x : BitVec 3 := 0
      let s : State := base
      let s : State := { s with sys := { s.sys with lcTarget := some x } }
      ⟨x, s, by decide +kernel⟩),
   (
      let d : Desc := (let d : Desc := 0; d.withByte8 3 1)
      let s : State := pAdmin base
      let s : State := { s with sys := { s.sys with test := none } }
      ⟨d, s, by unfold State.adminReady; decide +kernel⟩),
   (
      let d : Desc := (let d : Desc := 0; d.withByte8 3 2)
      let s : State := pAdmin base
      let s : State := { s with sys := { s.sys with test := none } }
      let s : State := (s.setOn CHG_GSTAT_GUSTRUN false).setOn SYS_MAINT_MAINT true
      let s : State := s.each (List.finRange 16) (fun t n => t.setFld (PH_STAT_STATE n) 2)
      ⟨d, s, by unfold State.adminReady; decide +kernel⟩),
   (
      let n : Fin 16 := 0
      let k : Fin 2 := 0
      let s : State := base
      let s : State := { s with sys := { s.sys with testPhase := some n } }
      let s : State := { (((s.setFld SYS_BIST_SCOPE 1).setFld (PH_CFG_PORT n) 0).setFld SYS_STRAP_PHCNT 16) with sys := { s.sys with test := some 0, testPhase := some n } }
      let s : State := (s.setFld (PH_STAT_STATE n) 4).setFld (PHP_LIM_IPMAX 0) 0
      let s : State := s.modPhp k (fun p => { p with i1m := 100 })
      ⟨n, k, s, by decide +kernel⟩),
   (
      let n : Fin 16 := 0
      let s : State := base
      let s : State := { s with sys := { s.sys with testPhase := some n } }
      let s : State := s.setFld (PH_STAT_STATE n) (PhSt.code (PhSt.test))
      let s : State := { (s.setFld SYS_BIST_SCOPE 1) with sys := { s.sys with test := some 0 } }
      ⟨n, s, by decide +kernel⟩),
   (
      let r : OffRes := ⟨true, false, zRefs, 0, zLegs, 0⟩
      let s : State := base
      let s : State := { (s.setFld SYS_BIST_SCOPE 2) with sys := { s.sys with test := some 0 } }
      ⟨r, s, by decide +kernel⟩)⟩

theorem witness_FeedPresenceAndQualification :
(∃ (n : Fin 4) (s : State), s.feedSt n = .absent ∧ s.awake = true) ∧
(∃ (n : Fin 4) (c : FeedChecks) (s : State), s.powered = true ∧ s.feedSt n = .check ∧ s.feed[n].failed = false ∧ s.sys.noCheck =
      false ∧ c.result ≠ .pass) ∧
(∃ (n : Fin 4) (c : FeedChecks) (s : State), s.powered = true ∧ s.feedSt n = .check ∧ s.feed[n].failed = false ∧ s.sys.noCheck =
      false ∧ s.feed[n].proved = true ∧ s.feed[n].stable = false ∧ c.result = .pass) ∧
(∃ (n : Fin 4) (s : State), s.powered = true ∧ s.feedSt n ≠ .off ∧ s.feedSt n ≠ .failed ∧ s.feedSt n ≠ .latched ∧ s.feedSt n ≠
      .cool) ∧
(∃ (n : Fin 4) (w : Nat) (s : State), s.powered = true ∧ s.cmpHeld (16 + n) false = false ∧ 25 * s.fld (CMP_CFG_EVFILT (16 + n))
      ≤ w ∧ s.feedSt n ∈ [.qualified, .inrush, .on, .standby, .hwonly]) ∧
(∃ (n : Fin 4) (w : Nat) (s : State), s.powered = true ∧ s.cmpHeld (16 + n) true = false ∧ 25 * s.fld (CMP_CFG_EVFILT (16 + n))
      ≤ w ∧ s.feedSt n ∈ [.qualified, .inrush, .on, .standby, .hwonly]) ∧
(∃ (n : Fin 4) (s : State), s.powered = true ∧ s.cmpHeld (16 + n) true = false ∧ s.cmpInside ⟨16 + n.val, by omega⟩ = true) ∧
(∃ (n : Fin 4) (s : State), s.powered = true ∧ s.feedSt n = .debounce ∧ s.feed[n].window = true ∧ s.feed[n].proved = true ∧
      s.feed[n].ejected = false ∧ s.feed[n].failed = false) :=
  ⟨(
      let n : Fin 4 := 0
      let s : State := pAwake (base.setFld (FEED_STAT_STATE n) (FeedSt.code (FeedSt.absent)))
      ⟨n, s, by decide +kernel⟩),
   (
      let n : Fin 4 := 0
      let c : FeedChecks := ⟨54, 1, 0, 0, 54, 0, 0⟩
      let s : State := (pPowered base).setFld (FEED_STAT_STATE n) (FeedSt.code (FeedSt.check))
      let s : State := s.modFeed n (fun z_ => { z_ with failed := false })
      let s : State := { s with sys := { s.sys with noCheck := false } }
      ⟨n, c, s, by decide +kernel⟩),
   (
      let n : Fin 4 := 0
      let c : FeedChecks := ⟨48,0,0,0,5,0,0⟩
      let s : State := (pPowered base).setFld (FEED_STAT_STATE n) (FeedSt.code (FeedSt.check))
      let s : State := s.modFeed n (fun z_ => { z_ with failed := false })
      let s : State := { s with sys := { s.sys with noCheck := false } }
      let s : State := s.modFeed n (fun z_ => { z_ with proved := true })
      let s : State := s.modFeed n (fun z_ => { z_ with stable := false })
      ⟨n, c, s, by decide +kernel⟩),
   (
      let n : Fin 4 := 0
      let s : State := (pPowered base).setFld (FEED_STAT_STATE n) 7
      ⟨n, s, by decide +kernel⟩),
   (
      let n : Fin 4 := 0
      let w : Nat := 100000
      let s : State := pPowered base
      let s : State := (s.setOn (CMP_STAT_BLANK (16 + n)) false).modCmp (Fin.ofNat 48 (16 + n)) (fun m => { m with settle := none })
      let s : State := s.setFld (FEED_STAT_STATE n) 7
      ⟨n, w, s, by decide +kernel⟩),
   (
      let n : Fin 4 := 0
      let w : Nat := 100000
      let s : State := pPowered base
      let s : State := (s.setOn (CMP_STAT_BLANK (16 + n)) false).modCmp (Fin.ofNat 48 (16 + n)) (fun m => { m with settle := none })
      let s : State := s.setFld (FEED_STAT_STATE n) 6
      ⟨n, w, s, by decide +kernel⟩),
   (
      let n : Fin 4 := 0
      let s : State := pPowered base
      let s : State := (s.setOn (CMP_STAT_BLANK (16 + n)) false).modCmp (Fin.ofNat 48 (16 + n)) (fun m => { m with settle := none })
      let s : State := s.cmpForget (16 + n)
      ⟨n, s, by decide +kernel⟩),
   (
      let n : Fin 4 := 0
      let s : State := (pPowered base).setFld (FEED_STAT_STATE n) (FeedSt.code (FeedSt.debounce))
      let s : State := s.modFeed n (fun z_ => { z_ with window := true })
      let s : State := s.modFeed n (fun z_ => { z_ with proved := true })
      let s : State := s.modFeed n (fun z_ => { z_ with ejected := false })
      let s : State := s.modFeed n (fun z_ => { z_ with failed := false })
      ⟨n, s, by decide +kernel⟩)⟩

theorem witness_FeedInrushAndTrips :
(∃ (n : Fin 4) (s : State), s.powered = true ∧ s.admits n = true) ∧
(∃ (n : Fin 4) (s : State), s.powered = true ∧ s.feedSt n = .inrush) ∧
(∃ (n : Fin 4) (s : State), s.powered = true ∧ s.feedSt n = .inrush) ∧
(∃ (s : State), s.powered = true) ∧
(∃ (n : Fin 4) (s : State), s.powered = true ∧ conducts (s.feedSt n) = true) ∧
(∃ (n : Fin 4) (s : State), s.powered = true ∧ s.feedSt n = .cool) ∧
(∃ (n : Fin 4) (s : State), s.powered = true ∧ conducts (s.feedSt n) = true) ∧
(∃ (n : Fin 4) (s : State), s.powered = true ∧ conducts (s.feedSt n) = true) ∧
(∃ (n : Fin 4) (s : State), s.powered = true ∧ s.feedSt n = .on) :=
  ⟨(
      let n : Fin 4 := 0
      let s : State := pPowered base
      let s : State := (s.setOn SYS_STATE_INRUSHOK true).setFld (FEED_STAT_STATE n) 9
      let s : State := s.modFeed n (fun f => { f with ready := true, ejected := false })
      let s : State := { s with regs := s.regs.setFld ⟨FEED_GSTAT, 7, 4⟩ 15, phg := { s.phg with vbus := 1000 } }
      ⟨n, s, by decide +kernel⟩),
   (
      let n : Fin 4 := 0
      let s : State := (pPowered base).setFld (FEED_STAT_STATE n) (FeedSt.code (FeedSt.inrush))
      ⟨n, s, by decide +kernel⟩),
   (
      let n : Fin 4 := 0
      let s : State := (pPowered base).setFld (FEED_STAT_STATE n) (FeedSt.code (FeedSt.inrush))
      ⟨n, s, by decide +kernel⟩),
   (
      let s : State := pPowered base
      ⟨s, by decide +kernel⟩),
   (
      let n : Fin 4 := 0
      let s : State := (pPowered base).setFld (FEED_STAT_STATE n) 7
      ⟨n, s, by decide +kernel⟩),
   (
      let n : Fin 4 := 0
      let s : State := (pPowered base).setFld (FEED_STAT_STATE n) (FeedSt.code (FeedSt.cool))
      ⟨n, s, by decide +kernel⟩),
   (
      let n : Fin 4 := 0
      let s : State := (pPowered base).setFld (FEED_STAT_STATE n) 7
      ⟨n, s, by decide +kernel⟩),
   (
      let n : Fin 4 := 0
      let s : State := (pPowered base).setFld (FEED_STAT_STATE n) 7
      ⟨n, s, by decide +kernel⟩),
   (
      let n : Fin 4 := 0
      let s : State := (pPowered base).setFld (FEED_STAT_STATE n) (FeedSt.code (FeedSt.on))
      ⟨n, s, by decide +kernel⟩)⟩

theorem witness_FeedLimitsAndExtraction :
(∃ (n : Fin 4) (s : State), s.powered = true ∧ (s.fld (FEED_EFF_VFQ n) : Rat) / 100 * s.fld (FEED_DROOP_KNEE n) / 100 ≤
      s.meas.v[n.castAdd 44]) ∧
(∃ (n : Fin 4) (s : State), s.powered = true ∧ s.meas.v[n.castAdd 44] < (s.fld (FEED_EFF_VFQ n) : Rat) / 100 * s.fld
      (FEED_DROOP_KNEE n) / 100) ∧
(∃ (n : Fin 4) (s : State), s.powered = true ∧ s.active n = true) ∧
(∃ (n : Fin 4) (s : State), s.on (FEED_STAT_DERATE n) = false ∧ s.on (FEED_STAT_CLACT n) = false) ∧
(∃ (s : State), s.powered = true ∧ s.priorityMode = true) ∧
(∃ (s : State), s.powered = true ∧ s.eject = false ∧ s.lostFeeds = true ∧ s.on FEED_GSTAT_EXSTOP = false ∧ s.fld
      FEED_EJECT_EXHOLD ≠ 0) ∧
(∃ (s : State), s.powered = true ∧ s.eject = true ∧ s.on FEED_EJECT_ACT = true) ∧
(∃ (s : State), s.powered = true ∧ s.on FEED_GSTAT_HOLDRUN = true ∧ s.on FEED_GSTAT_EXSTOP = false) :=
  ⟨(
      let n : Fin 4 := 0
      let s : State := pPowered base
      let s : State := { s with meas := { s.meas with v := s.meas.v.set (n.castAdd 44) 1000 } }
      ⟨n, s, by decide +kernel⟩),
   (
      let n : Fin 4 := 0
      let s : State := pPowered base
      let s : State := { ((s.setFld (FEED_EFF_VFQ n) 5000).setFld (FEED_DROOP_KNEE n) 90) with meas := { s.meas with v := s.meas.v.set (n.castAdd 44) 40 } }
      ⟨n, s, by decide +kernel⟩),
   (
      let n : Fin 4 := 0
      let s : State := pPowered base
      let s : State := s.setWord FEED_GSTAT (s.word FEED_GSTAT ||| 0xF)
      let s : State := s.setOn (FEED_STAT_ACTIVE n) true
      ⟨n, s, by decide +kernel⟩),
   (
      let n : Fin 4 := 0
      let s : State := (base.setOn (FEED_STAT_DERATE n) false).setOn (FEED_STAT_CLACT n) false
      ⟨n, s, by decide +kernel⟩),
   (
      let s : State := pPowered base
      let s : State := ((s.setFld FEED_SEL_MODE 1).setFld SYS_STATE_MODE 1)
      ⟨s, by decide +kernel⟩),
   (
      let s : State := (pPowered base).setOn FEED_GSTAT_EXSTOP false
      let s : State := ((s.setOn FEED_GSTAT_EJECT false).setOn FEED_GSTAT_FEEDS_LOST true).setFld FEED_EJECT_EXHOLD 3
      ⟨s, by decide +kernel⟩),
   (
      let s : State := ((pPowered base).setOn FEED_EJECT_ACT true).setOn FEED_GSTAT_EJECT true
      ⟨s, by decide +kernel⟩),
   (
      let s : State := ((pPowered base).setOn FEED_GSTAT_HOLDRUN true).setOn FEED_GSTAT_EXSTOP false
      ⟨s, by decide +kernel⟩)⟩

theorem witness_PhaseCycleAndLearning :
(∃ (n : Fin 16) (k : Fin 2) (s : State), s.portOf n = some k ∧ s.phSwitching n = true ∧ (s.phSt n = .shedding → s.ph[n].shedN =
      0)) ∧
(∃ (n : Fin 16) (k : Fin 2) (s : State), s.portOf n = some k ∧ s.phSt n = .shedding ∧ 1 ≤ s.ph[n].shedN) ∧
(∃ (n : Fin 16) (k : Fin 2) (x : Rat) (s : State), s.portOf n = some k ∧ s.phSwitching n = true ∧ s.ph[n].onTime = true ∧
      s.ph[n].blanked = true ∧ s.ph[n].ith0 - s.ph[n].se * tdc x < s.ilimf n) ∧
(∃ (n : Fin 16) (k : Fin 2) (s : State), s.portOf n = some k ∧ s.phSwitching n = true ∧ s.busovOn = true ∧ s.ph[n].onTime = true
      ∧ s.ph[n].blanked = true) ∧
(∃ (n : Fin 16) (k : Fin 2) (x : Rat) (s : State), s.portOf n = some k ∧ s.phSwitching n = true ∧ s.ph[n].onTime = true ∧
      s.ph[n].blanked = true ∧ s.ilimf n ≤ s.ph[n].ith0 - s.ph[n].se * tdc x ∧ s.fld (PH_STAT_FLCNT n) < 2) ∧
(∃ (n : Fin 16) (k : Fin 2) (b : Bool) (s : State), s.portOf n = some k ∧ s.phSwitching n = true ∧ (b = true → s.busovOn = true)
      ∧ s.cmpHeld n true = false ∧ s.ph[n].wireOpen = false ∧ s.ph[n].onTime = true ∧ s.ph[n].blanked = true) ∧
(∃ (n : Fin 16) (k : Fin 2) (s : State), s.portOf n = some k ∧ s.phSwitching n = true ∧ s.ph[n].onTime = true) ∧
(∃ (n : Fin 16) (k : Fin 2) (s : State), s.portOf n = some k ∧ 256 ≤ s.ph[n].lCnt ∧ 32 ≤ s.ph[n].lValid) ∧
(∃ (n : Fin 16) (s : State), 256 ≤ s.ph[n].lCnt ∧ s.ph[n].lValid < 32) ∧
(∃ (n : Fin 16) (x : Rat) (w : Nat) (i : Fin 4) (y : Rat) (s : State), s.phSwitching n = true ∧ 10 ≤ w ∧ w ≤ 40 ∧
      (s.ph[n].turnOns.find? (fun e => decide (e.2 ≤ x)) = some (i, y)) ∧ x - y ≤ 5 / 100) ∧
(∃ (n : Fin 16) (x : Rat) (w : Nat) (s : State), (s.ph[n].turnOns.all (fun e => decide (x < e.2 ∨ e.2 < x - 5 / 100)) = true ∨ w
      < 10 ∨ 40 < w)) ∧
(∃ (n : Fin 16) (k : Fin 2) (s : State), s.portOf n = some k ∧ s.ph[n].mode ≠ .buckboost ∧ s.ph[n].blend = 0 ∧ s.ph[n].light =
      false ∧ s.ilims n / 10 ≤ s.ph[n].icmd ∧ s.ph[n].susp = 0) :=
  ⟨(
      let n : Fin 16 := 0
      let k : Fin 2 := 0
      let s : State := base
      let s : State := ((s.setFld (PH_CFG_PORT n) k.val).setFld SYS_STRAP_PHCNT 16).setFld (PH_STAT_STATE n) 4
      ⟨n, k, s, by decide +kernel⟩),
   (
      let n : Fin 16 := 0
      let k : Fin 2 := 0
      let s : State := base.setFld (PH_STAT_STATE n) (PhSt.code (PhSt.shedding))
      let s : State := ((s.setFld (PH_CFG_PORT n) k.val).setFld SYS_STRAP_PHCNT 16).setFld (PH_STAT_STATE n) 5
      let s : State := s.modPh n (fun p => { p with shedN := 1 })
      ⟨n, k, s, by decide +kernel⟩),
   (
      let n : Fin 16 := 0
      let k : Fin 2 := 0
      let x : Rat := 0
      let s : State := base
      let s : State := s.modPh n (fun z_ => { z_ with onTime := true })
      let s : State := s.modPh n (fun z_ => { z_ with blanked := true })
      let s : State := ((s.setFld (PH_CFG_PORT n) k.val).setFld SYS_STRAP_PHCNT 16).setFld (PH_STAT_STATE n) 4
      let s : State := s.setFld (PH_LIM_ILIMF n) 1
      ⟨n, k, x, s, by decide +kernel⟩),
   (
      let n : Fin 16 := 0
      let k : Fin 2 := 0
      let s : State := base
      let s : State := s.modPh n (fun z_ => { z_ with onTime := true })
      let s : State := s.modPh n (fun z_ => { z_ with blanked := true })
      let s : State := ((s.setFld (PH_CFG_PORT n) k.val).setFld SYS_STRAP_PHCNT 16).setFld (PH_STAT_STATE n) 4
      let s : State := { ((s.setOn PH_BUSOV_OVEN true).setFld (PHP_STAT_DIR 1) 2) with phg := { s.phg with busovOr := true } }
      ⟨n, k, s, by decide +kernel⟩),
   (
      let n : Fin 16 := 0
      let k : Fin 2 := 0
      let x : Rat := 0
      let s : State := base
      let s : State := s.modPh n (fun z_ => { z_ with onTime := true })
      let s : State := s.modPh n (fun z_ => { z_ with blanked := true })
      let s : State := ((s.setFld (PH_CFG_PORT n) k.val).setFld SYS_STRAP_PHCNT 16).setFld (PH_STAT_STATE n) 4
      let s : State := (s.setFld (PH_STAT_FLCNT n) 1).modPh n (fun p => { p with ith0 := 2000 + p.se * tdc x })
      ⟨n, k, x, s, by decide +kernel⟩),
   (
      let n : Fin 16 := 0
      let k : Fin 2 := 0
      let b : Bool := false
      let s : State := base
      let s : State := (s.setOn (CMP_STAT_BLANK n) false).modCmp (Fin.ofNat 48 n) (fun m => { m with settle := none })
      let s : State := s.modPh n (fun z_ => { z_ with wireOpen := false })
      let s : State := s.modPh n (fun z_ => { z_ with onTime := true })
      let s : State := s.modPh n (fun z_ => { z_ with blanked := true })
      let s : State := ((s.setFld (PH_CFG_PORT n) k.val).setFld SYS_STRAP_PHCNT 16).setFld (PH_STAT_STATE n) 4
      ⟨n, k, b, s, by decide +kernel⟩),
   (
      let n : Fin 16 := 0
      let k : Fin 2 := 0
      let s : State := base
      let s : State := s.modPh n (fun z_ => { z_ with onTime := true })
      let s : State := ((s.setFld (PH_CFG_PORT n) k.val).setFld SYS_STRAP_PHCNT 16).setFld (PH_STAT_STATE n) 4
      ⟨n, k, s, by decide +kernel⟩),
   (
      let n : Fin 16 := 0
      let k : Fin 2 := 0
      let s : State := base
      let s : State := ((s.setFld (PH_CFG_PORT n) k.val).setFld SYS_STRAP_PHCNT 16).setFld (PH_STAT_STATE n) 4
      let s : State := s.modPh n (fun p => { p with lCnt := 256, lValid := 100 })
      ⟨n, k, s, by decide +kernel⟩),
   (
      let n : Fin 16 := 0
      let s : State := base
      let s : State := s.modPh n (fun p => { p with lCnt := 256, lValid := 31 })
      ⟨n, s, by decide +kernel⟩),
   (
      let n : Fin 16 := 0
      let x : Rat := 0
      let w : Nat := (10 + 1)
      let i : Fin 4 := 0
      let y : Rat := x - 1 / 40
      let s : State := base
      let s : State := (s.setFld (PH_STAT_STATE n) 4).modPh n (fun p => { p with turnOns := [(i, y)] })
      ⟨n, x, w, i, y, s, by decide +kernel⟩),
   (
      let n : Fin 16 := 0
      let x : Rat := 0
      let w : Nat := 0
      let s : State := base
      let s : State := (s.setFld (PH_STAT_STATE n) 4).modPh n (fun p => { p with turnOns := [] })
      ⟨n, x, w, s, by decide +kernel⟩),
   (
      let n : Fin 16 := 0
      let k : Fin 2 := 0
      let s : State := base
      let s : State := s.modPh n (fun z_ => { z_ with blend := 0 })
      let s : State := s.modPh n (fun z_ => { z_ with light := false })
      let s : State := s.modPh n (fun z_ => { z_ with susp := 0 })
      let s : State := ((s.setFld (PH_CFG_PORT n) k.val).setFld SYS_STRAP_PHCNT 16).setFld (PH_STAT_STATE n) 4
      let s : State := s.modPh n (fun p => { p with mode := .buck, icmd := 100 })
      ⟨n, k, s, by decide +kernel⟩)⟩

theorem witness_PortModesAndPhaseCount :
(∃ (k : Fin 2) (s : State), s.dir k ≠ .idle ∧ 64 ≤ s.php[k].dwell) ∧
(∃ (k : Fin 2) (s : State), (s.role k = .gust ∨ s.role k = .holdup) ∧ s.dir k ≠ .dis) ∧
(∃ (k : Fin 2) (s : State), (s.role k = .charge ∨ s.role k = .drizzle ∨ s.role k = .none) ∧ s.dir k ≠ .chg) ∧
(∃ (n : Fin 16) (k : Fin 2) (s : State), s.on SYS_STATE_PHOK = true ∧ s.running = true ∧ s.on FEED_GSTAT_EXSTOP = false ∧
      (s.addAtOnce k = true ∨ 2 ≤ s.php[k].addN) ∧ ((finsWhere (fun m => s.phOn k m && (s.phSt m == .run || s.phSt m ==
      .waking))).length < s.addWant k) ∧ (s.coolest (finsWhere (fun m => s.phAvail k m && s.phSt m == .idle && !s.ph[m].drain))
      = some n)) ∧
(∃ (n : Fin 16) (k : Fin 2) (s : State), s.ncapOf k < s.nrun k ∧ s.addWant k ≤ s.nrun k ∧ s.hottest (finsWhere (s.phRun k)) =
      some n) ∧
(∃ (n : Fin 16) (k : Fin 2) (s : State), s.role k = .drizzle ∧ 1 < s.nrun k ∧ s.hottest (finsWhere (s.phRun k)) = some n) ∧
(∃ (n : Fin 16) (k : Fin 2) (s : State), s.role k ≠ .drizzle ∧ s.iport k ≠ 0 ∧ s.on (PHP_MODE_HUALL k) = false ∧ s.mapOk k =
      true ∧ s.mapZero k = false ∧ max (s.fld (PHP_SHED_NMIN k)) (max 1 (s.readyWant k)) < s.nrun k ∧ s.php[k].cmds.length = 64
      ∧ 4 * (s.php[k].cmds.sum / 64) < s.fld (PHP_MAP_SHED k (s.nact k)) ∧ s.addWant k ≤ s.nrun k ∧ s.hottest (finsWhere
      (s.phRun k)) = some n) ∧
(∃ (n : Fin 16) (k : Fin 2) (s : State), s.portOf n = some k ∧ s.phSt n = .waking) ∧
(∃ (n : Fin 16) (s : State), s.phSt n = .shedding) :=
  ⟨(
      let k : Fin 2 := 0
      let s : State := base
      let s : State := (s.setFld (PHP_STAT_DIR k) 1).modPhp k (fun p => { p with dwell := 64 })
      ⟨k, s, by decide +kernel⟩),
   (
      let k : Fin 2 := 0
      let s : State := base
      let s : State := (s.setFld (CHG_STAT_ROLE k) 4).setFld (PHP_STAT_DIR k) 1
      ⟨k, s, by decide +kernel⟩),
   (
      let k : Fin 2 := 0
      let s : State := base
      let s : State := (s.setFld (CHG_STAT_ROLE k) 1).setFld (PHP_STAT_DIR k) 0
      ⟨k, s, by decide +kernel⟩),
   (
      let n : Fin 16 := 0
      let k : Fin 2 := 0
      let s : State := ((base.setOn SYS_STATE_PHOK true).setFld SYS_STATE_MODE 1).setOn FEED_GSTAT_EXSTOP false
      let s : State := (s.each (List.finRange 16) (fun t m => ((t.setFld (PH_CFG_PORT m) k.val).setFld (PH_STAT_STATE m) 2).modPh m (fun p => { p with drain := false }))).setFld SYS_STRAP_PHCNT 16
      let s : State := { (s.setFld (PHP_SHED_NMAX k) 9) with thm := { s.thm with excl := 0 } }
      let s : State := ((s.setFld (CHG_STAT_ROLE k) 2).modPhp k (fun p => { p with ncap := 16 })).each (List.finRange 16) (fun t m => if m = n then t.setFld (PH_STAT_TSTAGE m) 0 else t.setFld (PH_STAT_TSTAGE m) 50)
      ⟨n, k, s, by decide +kernel⟩),
   (
      let n : Fin 16 := 0
      let k : Fin 2 := 0
      let s : State := base
      let s : State := (s.each (List.finRange 16) (fun t m => ((t.setFld (PH_CFG_PORT m) k.val).setFld (PH_STAT_STATE m) 4))).setFld SYS_STRAP_PHCNT 16
      let s : State := { (s.setFld (PHP_SHED_NMAX k) 9) with thm := { s.thm with excl := 0 } }
      let s : State := (s.each (List.finRange 16) (fun t m => if m = n then t.setFld (PH_STAT_TSTAGE m) 100 else t.setFld (PH_STAT_TSTAGE m) 50))
      ⟨n, k, s, by decide +kernel⟩),
   (
      let n : Fin 16 := 0
      let k : Fin 2 := 0
      let s : State := base.setFld (CHG_STAT_ROLE k) (Role.code (Role.drizzle))
      let s : State := (s.each (List.finRange 16) (fun t m => ((t.setFld (PH_CFG_PORT m) k.val).setFld (PH_STAT_STATE m) 4))).setFld SYS_STRAP_PHCNT 16
      let s : State := (s.each (List.finRange 16) (fun t m => if m = n then t.setFld (PH_STAT_TSTAGE m) 100 else t.setFld (PH_STAT_TSTAGE m) 50))
      ⟨n, k, s, by decide +kernel⟩),
   (
      let n : Fin 16 := 0
      let k : Fin 2 := 0
      let s : State := base.setOn (PHP_MODE_HUALL k) false
      let s : State := (s.each (List.finRange 16) (fun t m => ((t.setFld (PH_CFG_PORT m) k.val).setFld (PH_STAT_STATE m) 4))).setFld SYS_STRAP_PHCNT 16
      let s : State := { (s.setFld (PHP_SHED_NMAX k) 16) with thm := { s.thm with excl := 0 } }
      let s : State := (s.each (List.finRange 16) (fun t m => ((if m = n then t.setFld (PH_STAT_TSTAGE m) 100 else t.setFld (PH_STAT_TSTAGE m) 50).setFld (PHP_MAP_ADD k (m.val + 1)) 1000).setFld (PHP_MAP_SHED k (m.val+1)) 900))
      let s : State := ((s.setFld (PHP_LIM_IPMAX k) 1000).setFld (PHP_SHED_NMIN k) 1).setFld (CHG_CTL_HUREADY k) 1
      let s : State := (s.each (List.finRange 16) (fun t m => t.setFld (PH_LIM_ILIMS m) 600)).modPhp k (fun p => { p with cmd := 10, ncap := 16, cmds := List.replicate 64 10 })
      ⟨n, k, s, by decide +kernel⟩),
   (
      let n : Fin 16 := 0
      let k : Fin 2 := 0
      let s : State := base.setFld (PH_STAT_STATE n) (PhSt.code (PhSt.waking))
      let s : State := ((s.setFld (PH_CFG_PORT n) k.val).setFld SYS_STRAP_PHCNT 16).setFld (PH_STAT_STATE n) 3
      ⟨n, k, s, by decide +kernel⟩),
   (
      let n : Fin 16 := 0
      let s : State := base.setFld (PH_STAT_STATE n) (PhSt.code (PhSt.shedding))
      ⟨n, s, by decide +kernel⟩)⟩

theorem witness_PhaseLatchesAndSync :
(∃ (n : Fin 16) (k : Fin 2) (s : State), s.portOf n = some k ∧ s.phSwitching n = true ∧ s.ilims n * s.fld (PHP_LIM_OVLD k) / 100
      < s.iavg n) ∧
(∃ (n : Fin 16) (s : State), s.phSt n = .ocl ∧ s.on (PH_CFG_OCAUTO n) = true ∧ s.ph[n].oclStuck = false) ∧
(∃ (n : Fin 16) (b : Bool) (s : State), b ≠ s.ph[n].trip ∧ s.phSt n ∉ [.unassigned, .shorted, .lost]) ∧
(∃ (n : Fin 16) (c : Fin 4) (w : Nat) (k : Fin 2) (s : State), s.phSwitching n = true ∧ s.portOf n = some k ∧ ((c = 0 → 64 ≤
      s.ph[n].openN) ∧ (c = 1 → s.ph[n].susp = 0 ∧ s.ph[n].blend = 0 ∧ 4 * s.tsw k * 1000 ≤ w) ∧ (c = 2 → 4 ≤ s.ph[n].stuckN) ∧
      (c = 3 → 500 ≤ w ∧ s.cmpHeld (29 + n) true = false))) ∧
(∃ (n : Fin 16) (b : Bool) (p : LegPulse) (s : State), 45 / 10 < p.v ∧ ((s.probeTrip n p).any (fun x => decide (x ≤ 20)) = true)
      ∧ ((if b then s.ph[n].legK else s.ph[n].legB) = .pending)) ∧
(∃ (n : Fin 16) (b : Bool) (p : LegPulse) (s : State), 45 / 10 < p.v ∧ ((s.probeTrip n p).any (fun x => decide (x ≤ 20)) =
      false) ∧ ((if b then s.ph[n].legK else s.ph[n].legB) = .pending)) ∧
(∃ (s : State), s.phg.pllSync = true) ∧
(∃ (s : State), s.on PH_SYNC_EN = true ∧ 10667 ≤ s.syncPeriod ∧ s.syncPeriod ≤ 128000) ∧
(∃ (s : State), s.on PH_BUSOV_OVEN = true ∧ (s.dir 0 = .dis ∨ s.dir 1 = .dis)) ∧
(∃ (s : State), s.dir 0 ≠ .dis ∧ s.dir 1 ≠ .dis) :=
  ⟨(
      let n : Fin 16 := 0
      let k : Fin 2 := 0
      let s : State := base
      let s : State := ((s.setFld (PH_CFG_PORT n) k.val).setFld SYS_STRAP_PHCNT 16).setFld (PH_STAT_STATE n) 4
      let s : State := s.modPh n (fun p => { p with amps := [(s.devtime, 1000, 1000)] })
      ⟨n, k, s, by decide +kernel⟩),
   (
      let n : Fin 16 := 0
      let s : State := (base.setFld (PH_STAT_STATE n) (PhSt.code (PhSt.ocl))).setOn (PH_CFG_OCAUTO n) true
      let s : State := s.modPh n (fun z_ => { z_ with oclStuck := false })
      ⟨n, s, by decide +kernel⟩),
   (
      let n : Fin 16 := 0
      let b : Bool := false
      let s : State := base.setFld (PH_STAT_STATE n) 4
      ⟨n, b, s, by decide +kernel⟩),
   (
      let n : Fin 16 := 0
      let c : Fin 4 := 0
      let w : Nat := 10000000
      let k : Fin 2 := 0
      let s : State := base
      let s : State := ((s.setFld (PH_CFG_PORT n) k.val).setFld SYS_STRAP_PHCNT 16).setFld (PH_STAT_STATE n) 4
      let s : State := ((s.setFld (PH_STAT_STATE n) 4).setOn (CMP_STAT_BLANK (29 + n)) false).modPh n (fun p => { p with susp := 0, blend := 0, openN := 64, stuckN := 4 })
      let s : State := s.modCmp (Fin.ofNat 48 (29 + n)) (fun m => { m with settle := none })
      ⟨n, c, w, k, s, by decide +kernel⟩),
   (
      let n : Fin 16 := 0
      let b : Bool := false
      let p : LegPulse := ⟨48, 100⟩
      let s : State := base
      let s : State := s.modPh n (fun p => { p with legK := .pending, legB := .pending })
      ⟨n, b, p, s, by decide +kernel⟩),
   (
      let n : Fin 16 := 0
      let b : Bool := false
      let p : LegPulse := ⟨48, 0⟩
      let s : State := base
      let s : State := s.modPh n (fun p => { p with legK := .pending, legB := .pending })
      ⟨n, b, p, s, by decide +kernel⟩),
   (
      let s : State := base
      let s : State := { s with phg := { s.phg with pllSync := true } }
      ⟨s, by decide +kernel⟩),
   (
      let s : State := base.setOn PH_SYNC_EN true
      let s : State := (s.setFld PH_SYNC_FNOM 50).setFld PH_SYNC_DIV 1
      ⟨s, by decide +kernel⟩),
   (
      let s : State := (base.setOn PH_BUSOV_OVEN true).setFld (PHP_STAT_DIR 1) 2
      ⟨s, by decide +kernel⟩),
   (
      let s : State := base
      let s : State := (s.setFld (PHP_STAT_DIR 1) 1).setFld (PHP_STAT_DIR 0) 0
      ⟨s, by decide +kernel⟩)⟩

theorem witness_PhaseMapAndVhold :
(∃ (d : Desc) (e : Desc) (s : State), s.adminReady ∧ d.withOpc 12 = e ∧ s.phg.map = none ∧ (∀ n : Fin 16, e.mapSel n = true →
      n.val < s.fld SYS_STRAP_PHCNT ∧ e.mapCode n ≠ 3 ∧ s.phSwitching n = false)) ∧
(∃ (d : Desc) (s : State), s.phg.map = some d ∧ (∀ n : Fin 16, s.ph[n].drain = true → s.phSwitching n = false)) ∧
(∃ (d : Desc) (e : Desc) (s : State), s.adminReady ∧ d.withOpc 8 = e ∧ 1000 ≤ e.vtgt ∧ e.vtgt ≤ 6000 ∧ 1 ≤ e.slew ∧ e.slew ≤ 100
      ∧ s.on CHG_GSTAT_HBRUN = false) ∧
(∃ (s : State), s.phg.target < 2 ^ 20) ∧
(∃ (o : Origin) (s : State), s.serves o ∧ s.on SYS_MAINT_MAINT = true ∧ s.present = true ∧ s.stalled = false ∧ s.on
      CHG_GSTAT_HBRUN = false) :=
  ⟨(
      let d : Desc := (let d : Desc := 0; d &&& ~~~ (0xAAAAAAAA#256 <<< 64))
      let e : Desc := (d.withOpc 12)
      let s : State := pAdmin base
      let s : State := { s with phg := { s.phg with map := none } }
      let s : State := (s.setFld SYS_STRAP_PHCNT 16).each (List.finRange 16) (fun t n => t.setFld (PH_STAT_STATE n) 2)
      ⟨d, e, s, by unfold State.adminReady; decide +kernel⟩),
   (
      let d : Desc := 0
      let s : State := base
      let s : State := { s with phg := { s.phg with map := some d } }
      let s : State := s.each (List.finRange 16) (fun t n => t.setFld (PH_STAT_STATE n) 2)
      ⟨d, s, by decide +kernel⟩),
   (
      let d : Desc := (let d : Desc := 0; (d &&& ~~~ (0xFFFFFF#256 <<< 64)) ||| (0x0A1000#256 <<< 64))
      let e : Desc := (d.withOpc 8)
      let s : State := (pAdmin base).setOn CHG_GSTAT_HBRUN false
      ⟨d, e, s, by unfold State.adminReady; decide +kernel⟩),
   (
      let s : State := base
      ⟨s, by decide +kernel⟩),
   (
      let o : Origin := .cp
      let s : State := ((((pServes base).setOn SYS_MAINT_MAINT true).setOn AUTH_PRES_OPEN true).setOn JNL_CFG_POLICY false).setOn CHG_GSTAT_HBRUN false
      ⟨o, s, by unfold State.serves; decide +kernel⟩)⟩

theorem witness_FeedLimitAndCommand :
(∃ (s : State), s.lostFeeds = false ∧ s.running = true) ∧
(∃ (k : Fin 2) (p : Profile) (s : State), s.role k = .charge ∧ s.prof k = some p ∧ s.chg[k].held = false ∧ s.chg[k].snd = none) ∧
(∃ (k : Fin 2) (s : State), s.role k = .gust) ∧
(∃ (k : Fin 2) (p : Profile) (x : Rat) (s : State), s.prof k = some p ∧ meanOr s.meas.v[Fin.ofNat 48 (13 + k)] s.meas.pack[k] =
      x ∧ (s.role k = .charge ∨ s.role k = .drizzle) ∧ (s.stage k = .precharge ∨ s.stage k = .cc) ∧ s.on (CHG_STAT_PAUSED k) =
      false ∧ s.chg[k].snd = none ∧ x < p.packV (s.vcvNow k p)) ∧
(∃ (k : Fin 2) (p : Profile) (x : Rat) (s : State), s.prof k = some p ∧ meanOr s.meas.v[Fin.ofNat 48 (13 + k)] s.meas.pack[k] =
      x ∧ s.safeState = false ∧ s.role k = .charge ∧ s.stage k = .cc ∧ p.packV (s.vcvNow k p) ≤ x) :=
  ⟨(
      let s : State := (base.setFld SYS_STATE_MODE 1).setOn FEED_GSTAT_FEEDS_LOST false
      ⟨s, by decide +kernel⟩),
   (
      let k : Fin 2 := 0
      let p : Profile := mkProf
      let s : State := base.setFld (CHG_STAT_ROLE k) (Role.code (Role.charge))
      let s : State := s.modChg k (fun z_ => { z_ with held := false })
      let s : State := s.modChg k (fun z_ => { z_ with snd := none })
      let s : State := s.modChg k (fun c => { c with prof := some p })
      let s : State := ((s.setFld SYS_STATE_MODE 1).setOn FEED_GSTAT_FEEDS_LOST false).setFld (FEED_STAT_STATE 1) 7
      let s : State := (s.setFld (PK_STAT_STATE k) 4).setOn (PK_STAT_CHGON k) true
      let s : State := s.setFld (CHG_STAT_ROLE (1-k)) 0
      ⟨k, p, s, by decide +kernel⟩),
   (
      let k : Fin 2 := 0
      let s : State := base.setFld (CHG_STAT_ROLE k) (Role.code (Role.gust))
      ⟨k, s, by decide +kernel⟩),
   (
      let k : Fin 2 := 0
      let p : Profile := mkProf
      let x : Rat := -1
      let s : State := base.setOn (CHG_STAT_PAUSED k) false
      let s : State := s.modChg k (fun z_ => { z_ with snd := none })
      let s : State := s.modChg k (fun c => { c with prof := some p })
      let s : State := (s.setFld (CHG_STAT_ROLE k) 1).setFld (CHG_STAT_STAGE k) 3
      let s : State := { s with meas := { s.meas with pack := s.meas.pack.set k [-1] } }
      ⟨k, p, x, s, by decide +kernel⟩),
   (
      let k : Fin 2 := 0
      let p : Profile := mkProf
      let x : Rat := 100000000
      let s : State := ((base.setFld SYS_STATE_MODE 1).setFld (CHG_STAT_ROLE k) (Role.code (Role.charge))).setFld (CHG_STAT_STAGE k) (Stage.code (Stage.cc))
      let s : State := s.modChg k (fun c => { c with prof := some p })
      let s : State := { s with meas := { s.meas with pack := s.meas.pack.set k [100000000] } }
      ⟨k, p, x, s, by decide +kernel⟩)⟩

theorem witness_ChargeStagesAndPortEvents :
(∃ (k : Fin 2) (p : Profile) (x : Rat) (s : State), s.prof k = some p ∧ s.safeState = false ∧ s.chg[k].vcell = some x ∧ s.stage
      k = .qualify ∧ s.role k ≠ .gust ∧ s.role k ≠ .holdup) ∧
(∃ (k : Fin 2) (s : State), s.safeState = false ∧ s.stage k = .precharge ∧ 10 ≤ s.chg[k].qualN) ∧
(∃ (k : Fin 2) (s : State), s.safeState = false ∧ s.stage k = .precharge ∧ s.stageOver k = true) ∧
(∃ (k : Fin 2) (s : State), s.safeState = false ∧ s.stage k = .cc ∧ s.stageOver k = true) ∧
(∃ (k : Fin 2) (s : State), s.safeState = false ∧ s.stage k = .crest ∧ s.stageOver k = true) ∧
(∃ (k : Fin 2) (s : State), s.safeState = false ∧ s.stage k = .cv ∧ s.stageOver k = true) ∧
(∃ (k : Fin 2) (s : State), s.safeState = false ∧ s.stage k = .topoff ∧ s.stageOver k = true) ∧
(∃ (k : Fin 2) (s : State), s.safeState = false ∧ s.stage k = .crest ∧ s.chg[k].crestN = 100) ∧
(∃ (k : Fin 2) (s : State), s.safeState = false ∧ s.chg[k].dwellN = 40000 ∧ s.stage k = .cv) ∧
(∃ (k : Fin 2) (s : State), s.safeState = false ∧ s.chg[k].dwellN = 40000 ∧ s.stage k = .topoff) ∧
(∃ (k : Fin 2) (s : State), s.safeState = false ∧ s.chg[k].dwellN = 40000 ∧ s.role k = .none ∧ s.stage k = .maintain) ∧
(∃ (k : Fin 2) (s : State), s.safeState = false ∧ 1000 ≤ s.chg[k].tempN ∧ s.stage k ∈ [.precharge, .cc, .crest, .cv, .topoff,
      .maintain]) ∧
(∃ (k : Fin 2) (s : State), s.safeState = false ∧ s.stage k = .rest ∧ s.restOver k = true ∧ s.role k = .none ∧ s.tempIn k = true
      ∧ s.chg[k].snd = none) ∧
(∃ (k : Fin 2) (s : State), s.safeState = false ∧ s.stage k = .rest ∧ s.restOver k = true ∧ (s.role k = .none ∨ s.role k =
      .charge) ∧ s.tempIn k = false) ∧
(∃ (k : Fin 2) (o : Origin) (v : Word) (s : State), s.serves o ∧ s.on SYS_MAINT_MAINT = true ∧ s.present = true ∧ s.stalled =
      false ∧ s.safeState = false ∧ s.stage k = .fault ∧ v.getLsbD 0 = true) ∧
(∃ (k : Fin 2) (p : Profile) (x : Int) (s : State), s.safeState = false ∧ s.prof k = some p ∧ s.packT k = some x ∧ (s.stage k =
      .cc ∨ s.stage k = .crest) ∧ 0 < (s.zcell k p).2.1 * p.ktAt x / p.ktAt (s.zcell k p).2.2) ∧
(∃ (k : Fin 2) (s : State), s.on (CHG_STAT_PAUSED k) = true ∧ s.on CHG_FL_STARVE = true ∧ s.fld CHG_FL_STARVE ≤ s.fld
      (CHG_TIME_TPAUSE k)) :=
  ⟨(
      let k : Fin 2 := 0
      let p : Profile := mkProf
      let x : Rat := 0
      let s : State := base.setFld SYS_STATE_MODE 1
      let s : State := s.modChg k (fun z_ => { z_ with vcell := some x })
      let s : State := s.setFld (CHG_STAT_STAGE k) (Stage.code (Stage.qualify))
      let s : State := s.modChg k (fun c => { c with prof := some p })
      ⟨k, p, x, s, by decide +kernel⟩),
   (
      let k : Fin 2 := 0
      let s : State := (base.setFld SYS_STATE_MODE 1).setFld (CHG_STAT_STAGE k) (Stage.code (Stage.precharge))
      let s : State := s.modChg k (fun c => { c with qualN := 10 })
      ⟨k, s, by decide +kernel⟩),
   (
      let k : Fin 2 := 0
      let s : State := (base.setFld SYS_STATE_MODE 1).setFld (CHG_STAT_STAGE k) (Stage.code (Stage.precharge))
      let s : State := (((s.setFld (CHG_STAT_ROLE k) 1).setOn (CHG_STAT_PAUSED k) false).setFld (CHG_TIME_TSTAGE k) 65535).modChg k (fun c => { c with prof := some mkProf })
      ⟨k, s, by decide +kernel⟩),
   (
      let k : Fin 2 := 0
      let s : State := (base.setFld SYS_STATE_MODE 1).setFld (CHG_STAT_STAGE k) (Stage.code (Stage.cc))
      let s : State := (((s.setFld (CHG_STAT_ROLE k) 1).setOn (CHG_STAT_PAUSED k) false).setFld (CHG_TIME_TSTAGE k) 65535).modChg k (fun c => { c with prof := some mkProf })
      ⟨k, s, by decide +kernel⟩),
   (
      let k : Fin 2 := 0
      let s : State := (base.setFld SYS_STATE_MODE 1).setFld (CHG_STAT_STAGE k) (Stage.code (Stage.crest))
      let s : State := (((s.setFld (CHG_STAT_ROLE k) 1).setOn (CHG_STAT_PAUSED k) false).setFld (CHG_TIME_TSTAGE k) 65535).modChg k (fun c => { c with prof := some mkProf })
      ⟨k, s, by decide +kernel⟩),
   (
      let k : Fin 2 := 0
      let s : State := (base.setFld SYS_STATE_MODE 1).setFld (CHG_STAT_STAGE k) (Stage.code (Stage.cv))
      let s : State := (((s.setFld (CHG_STAT_ROLE k) 1).setOn (CHG_STAT_PAUSED k) false).setFld (CHG_TIME_TSTAGE k) 65535).modChg k (fun c => { c with prof := some mkProf })
      ⟨k, s, by decide +kernel⟩),
   (
      let k : Fin 2 := 0
      let s : State := (base.setFld SYS_STATE_MODE 1).setFld (CHG_STAT_STAGE k) (Stage.code (Stage.topoff))
      let s : State := (((s.setFld (CHG_STAT_ROLE k) 1).setOn (CHG_STAT_PAUSED k) false).setFld (CHG_TIME_TSTAGE k) 65535).modChg k (fun c => { c with prof := some mkProf })
      ⟨k, s, by decide +kernel⟩),
   (
      let k : Fin 2 := 0
      let s : State := (base.setFld SYS_STATE_MODE 1).setFld (CHG_STAT_STAGE k) (Stage.code (Stage.crest))
      let s : State := s.modChg k (fun z_ => { z_ with crestN := 100 })
      ⟨k, s, by decide +kernel⟩),
   (
      let k : Fin 2 := 0
      let s : State := base.setFld SYS_STATE_MODE 1
      let s : State := s.modChg k (fun z_ => { z_ with dwellN := 40000 })
      let s : State := s.setFld (CHG_STAT_STAGE k) (Stage.code (Stage.cv))
      ⟨k, s, by decide +kernel⟩),
   (
      let k : Fin 2 := 0
      let s : State := base.setFld SYS_STATE_MODE 1
      let s : State := s.modChg k (fun z_ => { z_ with dwellN := 40000 })
      let s : State := s.setFld (CHG_STAT_STAGE k) (Stage.code (Stage.topoff))
      ⟨k, s, by decide +kernel⟩),
   (
      let k : Fin 2 := 0
      let s : State := base.setFld SYS_STATE_MODE 1
      let s : State := s.modChg k (fun z_ => { z_ with dwellN := 40000 })
      let s : State := (s.setFld (CHG_STAT_ROLE k) (Role.code (Role.none))).setFld (CHG_STAT_STAGE k) (Stage.code (Stage.maintain))
      ⟨k, s, by decide +kernel⟩),
   (
      let k : Fin 2 := 0
      let s : State := (base.setFld SYS_STATE_MODE 1).setFld (CHG_STAT_STAGE k) (Stage.code .cc)
      let s : State := s.modChg k (fun c => { c with tempN := 1000 })
      ⟨k, s, by decide +kernel⟩),
   (
      let k : Fin 2 := 0
      let s : State := ((base.setFld SYS_STATE_MODE 1).setFld (CHG_STAT_STAGE k) (Stage.code (Stage.rest))).setFld (CHG_STAT_ROLE k) (Role.code (Role.none))
      let s : State := s.modChg k (fun z_ => { z_ with snd := none })
      let s : State := { (s.setFld (CHG_STAT_ROLE k) 0) with chg := s.chg.map (fun c => { c with prof := some 0 }) }
      let s : State := (s.modChg k (fun c => { c with prof := some (BitVec.ofNat 2816 (0x7F * 2^(8*0x31))) })).modPk k (fun x => { x with t0 := some 20, t1 := none })
      ⟨k, s, by decide +kernel⟩),
   (
      let k : Fin 2 := 0
      let s : State := (base.setFld SYS_STATE_MODE 1).setFld (CHG_STAT_STAGE k) (Stage.code (Stage.rest))
      let s : State := ((s.setFld (CHG_STAT_ROLE k) 1).modPk k (fun x => { x with t0 := none, t1 := none })).modChg k (fun c => { c with prof := some 0 })
      ⟨k, s, by decide +kernel⟩),
   (
      let k : Fin 2 := 0
      let o : Origin := .cp
      let v : Word := (0 : Word) ||| 1
      let s : State := (((((pServes base).setOn SYS_MAINT_MAINT true).setOn AUTH_PRES_OPEN true).setOn JNL_CFG_POLICY false).setFld SYS_STATE_MODE 1).setFld (CHG_STAT_STAGE k) (Stage.code (Stage.fault))
      ⟨k, o, v, s, by unfold State.serves; decide +kernel⟩),
   (
      let k : Fin 2 := 0
      let p : Profile := mkProf
      let x : Int := 0
      let s : State := base.setFld SYS_STATE_MODE 1
      let s : State := s.modChg k (fun c => { c with prof := some p })
      let s : State := (s.setFld (CHG_STAT_STAGE k) 3).modPk k (fun y => { y with t0 := some x, t1 := none })
      ⟨k, p, x, s, by decide +kernel⟩),
   (
      let k : Fin 2 := 0
      let s : State := ((base.setOn (CHG_STAT_PAUSED k) true).setOn CHG_FL_STARVE true).setFld (CHG_TIME_TPAUSE k) 65535
      ⟨k, s, by decide +kernel⟩)⟩

set_option maxRecDepth 100000 in
theorem witness_ProfilesAndSounding :
(∃ (d : Desc) (e : Desc) (s : State), s.adminReady ∧ d.withOpc 3 = e ∧ e.plen = 0x160 ∧ e.paddr % 64 = 0) ∧
(∃ (k : Fin 2) (p : Profile) (d : Desc) (l : List Desc) (s : State), s.on HIF_LNK_BME = true ∧ s.chg[k].load = d :: l ∧ p.crcOk
      = true ∧ p.valid = true ∧ s.present = true ∧ s.stalled = false) ∧
(∃ (o : Origin) (s : State), s.serves o ∧ s.on SYS_MAINT_MAINT = true ∧ s.present = true ∧ s.stalled = false ∧ s.staged.crcOk =
      true ∧ s.staged.valid = true) ∧
(∃ (d : Desc) (e : Desc) (s : State), s.adminReady ∧ d.withOpc 11 = e ∧ 10 ≤ e.sndFreq ∧ e.sndFreq ≤ 200000 ∧ e.sndNset ≠ 0 ∧
      e.sndNmeas ≠ 0 ∧ (s.stage e.sndPort = .cc ∨ s.stage e.sndPort = .crest ∨ s.stage e.sndPort = .rest) ∧ (s.role e.sndPort =
      .charge ∨ s.role e.sndPort = .none) ∧ s.feedOn = true ∧ s.prof e.sndPort ≠ none) ∧
(∃ (k : Fin 2) (r : Sounding) (l : LockIn) (i : Rat × Rat) (v : Rat × Rat) (s : State), s.chg[k].snd = some r ∧ r.complete =
      true ∧ r.sums = l ∧ cleanSums l l.si l.ci l.i0 l.i1 = i ∧ cleanSums l l.sv l.cv l.v0 l.v1 = v ∧ i.1 * i.1 + i.2 * i.2 ≠ 0) :=
  ⟨(
      let d : Desc := (let d : Desc := 0; (d &&& ~~~ ((0xFFFF#256 <<< 128) ||| (0x3F#256 <<< 64))) ||| (0x160#256 <<< 128))
      let e : Desc := (d.withOpc 3)
      let s : State := pAdmin base
      ⟨d, e, s, by unfold State.adminReady; decide +kernel⟩),
   (
      let k : Fin 2 := 0
      let p : Profile := mkProf
      let d : Desc := 0
      let l : List Desc := []
      let s : State := base.setOn HIF_LNK_BME true
      let s : State := s.modChg k (fun z_ => { z_ with load := d :: l })
      let s : State := (s.setOn AUTH_PRES_OPEN true).setOn JNL_CFG_POLICY false
      let s : State := (s.setFld (HIF_STAT_STATE 0) 1).modRing 0 (fun r => { r with started := [d] })
      ⟨k, p, d, l, s, by decide +kernel⟩),
   (
      let o : Origin := .cp
      let s : State := (((pServes base).setOn SYS_MAINT_MAINT true).setOn AUTH_PRES_OPEN true).setOn JNL_CFG_POLICY false
      let s : State := s.each (List.range 88) (fun t i => t.setWord (CHG_PSTAGE i) (BitVec.ofNat 32 (mkProf.toNat / 2 ^ (32 * i))))
      ⟨o, s, by unfold State.serves; decide +kernel⟩),
   (
      let d : Desc := (let d : Desc := 0; (d &&& ~~~ (0xFFFFFFFF#256 <<< 96)) ||| (5000#256 <<< 96) ||| (0x00050005#256 <<< 128))
      let e : Desc := (d.withOpc 11)
      let s : State := pAdmin base
      let s : State := ((s.setFld (CHG_STAT_STAGE d.sndPort) 3).setFld (CHG_STAT_ROLE d.sndPort) 1).setFld (FEED_STAT_STATE 2) 7
      let s : State := s.modChg d.sndPort (fun c => { c with prof := some mkProf })
      ⟨d, e, s, by unfold State.adminReady; decide +kernel⟩),
   (
      let k : Fin 2 := 0
      let r : Sounding := ⟨0, 0, 1, false, false, false, 1000000000000000, { LockIn.zero with m := 1, si := 1, rs := 1 }⟩
      let l : LockIn := r.sums
      let i : Rat × Rat := cleanSums l l.si l.ci l.i0 l.i1
      let v : Rat × Rat := cleanSums l l.sv l.cv l.v0 l.v1
      let s : State := base
      let s : State := s.modChg k (fun z_ => { z_ with snd := some r })
      ⟨k, r, l, i, v, s, by decide +kernel⟩)⟩

theorem witness_HoldUpAndGust :
(∃ (x : Rat) (s : State), (s.role 0 = .holdup ∨ s.role 1 = .holdup) ∧ s.chgg.preset = false ∧ (∀ k : Fin 2, s.chg[k].cut = none)
      ∧ s.meas.v[12] = x) ∧
(∃ (s : State), s.on CHG_GSTAT_HURUN = true ∧ 20 ≤ s.chgg.lowN) ∧
(∃ (s : State), 1000 ≤ s.chgg.highN) ∧
(∃ (k : Fin 2) (s : State), s.role k = .holdup ∧ 100 ≤ s.chg[k].cutN ∧ s.chg[k].cut = none) ∧
(∃ (s : State), s.lostFeeds = true ∧ s.role 0 ≠ .holdup ∧ s.role 1 ≠ .holdup ∧ s.sys.doldrums = false ∧ s.on FEED_GSTAT_EXSTOP =
      false ∧ s.sys.seq = none) ∧
(∃ (k : Fin 2) (s : State), s.role k = .gust ∧ s.chg[k].gshare = 0 ∧ 1000 * orZero 1 (s.fld (CHG_GUST_GHOLD k)) ≤ s.chg[k].gzero
      ∧ s.chg[k].requal = false) :=
  ⟨(
      let x : Rat := 0
      let s : State := base
      let s : State := { s with chgg := { s.chgg with preset := false } }
      let s : State := { (s.setFld (CHG_STAT_ROLE 1) 4) with meas := { s.meas with v := s.meas.v.set 12 x }, chg := s.chg.map (fun c => { c with cut := none }) }
      ⟨x, s, by decide +kernel⟩),
   (
      let s : State := base.setOn CHG_GSTAT_HURUN true
      let s : State := { s with chgg := { s.chgg with lowN := 20 } }
      ⟨s, by decide +kernel⟩),
   (
      let s : State := base
      let s : State := { s with chgg := { s.chgg with highN := 1000 } }
      ⟨s, by decide +kernel⟩),
   (
      let k : Fin 2 := 0
      let s : State := base.setFld (CHG_STAT_ROLE k) (Role.code (Role.holdup))
      let s : State := s.modChg k (fun z_ => { z_ with cut := none })
      let s : State := s.modChg k (fun c => { c with cutN := 100, cut := none })
      ⟨k, s, by decide +kernel⟩),
   (
      let s : State := base
      let s : State := { s with sys := { s.sys with doldrums := false } }
      let s : State := s.setOn FEED_GSTAT_EXSTOP false
      let s : State := { s with sys := { s.sys with seq := none } }
      let s : State := ((s.setOn FEED_GSTAT_FEEDS_LOST true).setFld (CHG_STAT_ROLE 0) 0).setFld (CHG_STAT_ROLE 1) 3
      ⟨s, by decide +kernel⟩),
   (
      let k : Fin 2 := 0
      let s : State := base.setFld (CHG_STAT_ROLE k) (Role.code (Role.gust))
      let s : State := s.modChg k (fun z_ => { z_ with gshare := 0 })
      let s : State := s.modChg k (fun z_ => { z_ with requal := false })
      let s : State := s.modChg k (fun c => { c with gzero := 100000000 })
      ⟨k, s, by decide +kernel⟩)⟩

theorem witness_PackPresenceAndClosing :
(∃ (k : Fin 2) (s : State), s.pkSt k = .empty ∧ s.awake = true ∧ s.fld SYS_STATE_STEP = 12) ∧
(∃ (k : Fin 2) (s : State), s.pkSt k ≠ .empty ∧ s.awake = true) ∧
(∃ (k : Fin 2) (s : State), s.pkSt k = .ident ∧ s.pkReady k = true ∧ s.on (TW_PK_STAT_HELD k) = false) ∧
(∃ (k : Fin 2) (r : Option Ident) (s : State), s.pkSt k = .ident ∧ s.pkReady k = true ∧ (r = none ∨ s.on (TW_PK_STAT_HELD k) =
      true)) ∧
(∃ (k : Fin 2) (s : State), s.aon.present[k] = true ∧ s.aon.age[k].1 + 1 < 86400000) ∧
(∃ (k : Fin 2) (s : State), s.mayClose k = true ∧ 9 / 2 ≤ s.pk[k].v) ∧
(∃ (k : Fin 2) (s : State), s.pkSt k = .closing) ∧
(∃ (k : Fin 2) (s : State), s.pkSt k = .closing) ∧
(∃ (k : Fin 2) (s : State), s.pkSt k = .closed ∧ s.pk[k].reopened = true ∧ s.stage k ≠ .precharge ∧ 100000 ≤ s.pk[k].aboveN ∧
      s.pk[k].uvOff = false) :=
  ⟨(
      let k : Fin 2 := 0
      let s : State := (pAwake (base.setFld (PK_STAT_STATE k) (PkSt.code (PkSt.empty)))).setFld SYS_STATE_STEP (12)
      ⟨k, s, by decide +kernel⟩),
   (
      let k : Fin 2 := 0
      let s : State := (pAwake base).setFld (PK_STAT_STATE k) (PkSt.code .closed)
      ⟨k, s, by decide +kernel⟩),
   (
      let k : Fin 2 := 0
      let s : State := (base.setFld (PK_STAT_STATE k) (PkSt.code (PkSt.ident))).setOn (TW_PK_STAT_HELD k) false
      let s : State := (s.setFld SYS_STATE_MODE 1).modTw ⟨k.val + 1, by omega⟩ (fun x => { x with check := false })
      ⟨k, s, by decide +kernel⟩),
   (
      let k : Fin 2 := 0
      let r : Option Ident := (some zIdent)
      let s : State := base.setFld (PK_STAT_STATE k) (PkSt.code (PkSt.ident))
      let s : State := ((s.setOn (TW_PK_STAT_HELD k) true).setFld SYS_STATE_MODE 1).modTw ⟨k.val + 1, by omega⟩ (fun x => { x with check := false })
      ⟨k, r, s, by decide +kernel⟩),
   (
      let k : Fin 2 := 0
      let s : State := base
      let s : State := { s with aon := { s.aon with present := #v[true, true] } }
      ⟨k, s, by decide +kernel⟩),
   (
      let k : Fin 2 := 0
      let s : State := base
      let s : State := ((((s.setFld SYS_STATE_MODE 1).setFld (PK_STAT_STATE k) 2).setOn (PK_STAT_PRES k) true).setOn SYS_STATE_PHOK true).setOn (CHG_STAT_PROFOK k) true
      let s : State := (s.setOn FEED_GSTAT_EXSTOP false).modPk k (fun x => { x with read := true, v := 40, t0 := none, t1 := none, closeAt := none, shorted := false })
      let s : State := s.modChg k (fun c => { c with prof := some mkProf })
      ⟨k, s, by decide +kernel⟩),
   (
      let k : Fin 2 := 0
      let s : State := base.setFld (PK_STAT_STATE k) (PkSt.code (PkSt.closing))
      ⟨k, s, by decide +kernel⟩),
   (
      let k : Fin 2 := 0
      let s : State := base.setFld (PK_STAT_STATE k) (PkSt.code (PkSt.closing))
      ⟨k, s, by decide +kernel⟩),
   (
      let k : Fin 2 := 0
      let s : State := base.setFld (PK_STAT_STATE k) (PkSt.code (PkSt.closed))
      let s : State := s.modPk k (fun z_ => { z_ with reopened := true })
      let s : State := s.modPk k (fun z_ => { z_ with uvOff := false })
      let s : State := s.modPk k (fun x => { x with aboveN := 100000 })
      ⟨k, s, by decide +kernel⟩)⟩

theorem witness_PackTripsAndRetries :
(∃ (k : Fin 2) (w : Nat) (s : State), s.pkSt k = .closed ∧ s.cmpHeld (24 + k) false = false ∧ s.heard (24 + k) w = true) ∧
(∃ (k : Fin 2) (w : Nat) (s : State), s.pkSt k = .closed ∧ s.heard (24 + k) w = false) ∧
(∃ (k : Fin 2) (w : Nat) (s : State), s.pkSt k = .closed ∧ s.cmpHeld (24 + k) true = false ∧ s.heard (24 + k) w = true) ∧
(∃ (k : Fin 2) (w : Nat) (s : State), s.pkSt k = .closed ∧ s.cmpHeld (26 + k) true = false ∧ s.heard (26 + k) w = true ∧ s.on
      (PK_STAT_CHGON k) = true) ∧
(∃ (k : Fin 2) (w : Nat) (s : State), s.pkSt k = .closed ∧ s.cmpHeld (26 + k) false = false ∧ s.heard (26 + k) w = true ∧ s.on
      (PK_STAT_DSGON k) = true) ∧
(∃ (k : Fin 2) (s : State), s.pkSt k = .closed ∧ 1000 ≤ s.pk[k].hotN) ∧
(∃ (k : Fin 2) (x : PkTrip) (s : State), (x = .sc ∨ x = .occ) ∧ s.pkSt k = .tripped ∧ s.pk[k].trip = x ∧ 10000000 ≤ (s.devtime -
      s.pk[k].tripAt).toNat ∧ s.running = true ∧ s.packIn k = true ∧ s.pk[k].shorted = false ∧ 9 / 2 ≤ s.pk[k].v) ∧
(∃ (k : Fin 2) (x : PkTrip) (s : State), (x = .sc ∨ x = .occ) ∧ s.pkSt k = .tripped ∧ s.pk[k].trip = x ∧ 10000000 ≤ (s.devtime -
      s.pk[k].tripAt).toNat ∧ s.running = true ∧ s.packIn k = true ∧ s.pk[k].shorted = false ∧ s.pk[k].v < 9 / 2) ∧
(∃ (k : Fin 2) (s : State), s.pk[k].ovOff = true ∧ 100000 ≤ s.pk[k].belowN ∧ s.pkSt k = .closed) ∧
(∃ (k : Fin 2) (s : State), s.pk[k].uvOff = true ∧ 100000 ≤ s.pk[k].aboveN ∧ s.pkSt k = .closed ∧ s.stage k ≠ .precharge) ∧
(∃ (k : Fin 2) (s : State), 60000 ≤ s.pk[k].coolN ∧ s.pkSt k = .tripped ∧ s.pk[k].trip = .ot ∧ s.running = true ∧ s.packIn k =
      true ∧ s.pk[k].shorted = false ∧ 9 / 2 ≤ s.pk[k].v) ∧
(∃ (k : Fin 2) (o : Origin) (s : State), s.serves o ∧ s.on SYS_MAINT_MAINT = true ∧ s.present = true ∧ s.stalled = false ∧
      s.anvilAnswers = true ∧ s.pkSt k = .latched) :=
  ⟨(
      let k : Fin 2 := 0
      let w : Nat := 0
      let s : State := base.setFld (PK_STAT_STATE k) (PkSt.code (PkSt.closed))
      let s : State := (s.setOn (CMP_STAT_BLANK (24 + k)) false).modCmp (Fin.ofNat 48 (24 + k)) (fun m => { m with settle := none })
      let s : State := s.modPk k (fun x => { x with scAt := x.scAt.map (fun y => if y.getLsbD 1 then s.devtime - 5 else y) })
      ⟨k, w, s, by decide +kernel⟩),
   (
      let k : Fin 2 := 0
      let w : Nat := (let n : Nat := 0; n % 150)
      let s : State := (base.setFld (PK_STAT_STATE k) (PkSt.code (PkSt.closed))).setFld (CMP_CFG_EVFILT (24 + k)) 7
      ⟨k, w, s, by decide +kernel⟩),
   (
      let k : Fin 2 := 0
      let w : Nat := 0
      let s : State := base.setFld (PK_STAT_STATE k) (PkSt.code (PkSt.closed))
      let s : State := (s.setOn (CMP_STAT_BLANK (24 + k)) false).modCmp (Fin.ofNat 48 (24 + k)) (fun m => { m with settle := none })
      ⟨k, w, s, by decide +kernel⟩),
   (
      let k : Fin 2 := 0
      let w : Nat := 0
      let s : State := base.setFld (PK_STAT_STATE k) (PkSt.code (PkSt.closed))
      let s : State := (s.setOn (CMP_STAT_BLANK (26 + k)) false).modCmp (Fin.ofNat 48 (26 + k)) (fun m => { m with settle := none })
      let s : State := s.setOn (PK_STAT_CHGON k) true
      ⟨k, w, s, by decide +kernel⟩),
   (
      let k : Fin 2 := 0
      let w : Nat := 0
      let s : State := base.setFld (PK_STAT_STATE k) (PkSt.code (PkSt.closed))
      let s : State := (s.setOn (CMP_STAT_BLANK (26 + k)) false).modCmp (Fin.ofNat 48 (26 + k)) (fun m => { m with settle := none })
      let s : State := s.setOn (PK_STAT_DSGON k) true
      let s : State := s.modPk k (fun p => { p with hotN := 1000 })
      ⟨k, w, s, by decide +kernel⟩),
   (
      let k : Fin 2 := 0
      let s : State := base.setFld (PK_STAT_STATE k) (PkSt.code (PkSt.closed))
      let s : State := s.modPk k (fun x => { x with hotN := 1000 })
      ⟨k, s, by decide +kernel⟩),
   (
      let k : Fin 2 := 0
      let x : PkTrip := .occ
      let s : State := base.setFld (PK_STAT_STATE k) (PkSt.code (PkSt.tripped))
      let s : State := s.modPk k (fun z_ => { z_ with trip := x })
      let s : State := s.setFld SYS_STATE_MODE 1
      let s : State := s.modPk k (fun z_ => { z_ with shorted := false })
      let s : State := (s.setOn (PK_STAT_PRES k) true).modPk k (fun z => { z with tripAt := s.devtime - 10000000, v := 40 })
      ⟨k, x, s, by decide +kernel⟩),
   (
      let k : Fin 2 := 0
      let x : PkTrip := .occ
      let s : State := base.setFld (PK_STAT_STATE k) (PkSt.code (PkSt.tripped))
      let s : State := s.modPk k (fun z_ => { z_ with trip := x })
      let s : State := s.setFld SYS_STATE_MODE 1
      let s : State := s.modPk k (fun z_ => { z_ with shorted := false })
      let s : State := (s.setOn (PK_STAT_PRES k) true).modPk k (fun z => { z with tripAt := s.devtime - 10000000, v := 4 })
      ⟨k, x, s, by decide +kernel⟩),
   (
      let k : Fin 2 := 0
      let s : State := base
      let s : State := s.modPk k (fun z_ => { z_ with ovOff := true })
      let s : State := s.setFld (PK_STAT_STATE k) (PkSt.code (PkSt.closed))
      let s : State := s.modPk k (fun x => { x with belowN := 100000 })
      ⟨k, s, by decide +kernel⟩),
   (
      let k : Fin 2 := 0
      let s : State := base
      let s : State := s.modPk k (fun z_ => { z_ with uvOff := true })
      let s : State := s.setFld (PK_STAT_STATE k) (PkSt.code (PkSt.closed))
      let s : State := s.modPk k (fun x => { x with aboveN := 100000 })
      ⟨k, s, by decide +kernel⟩),
   (
      let k : Fin 2 := 0
      let s : State := base.setFld (PK_STAT_STATE k) (PkSt.code (PkSt.tripped))
      let s : State := s.modPk k (fun z_ => { z_ with trip := .ot })
      let s : State := s.setFld SYS_STATE_MODE 1
      let s : State := s.modPk k (fun z_ => { z_ with shorted := false })
      let s : State := (s.setOn (PK_STAT_PRES k) true).modPk k (fun y => { y with coolN := 60000, v := 40 })
      ⟨k, s, by decide +kernel⟩),
   (
      let k : Fin 2 := 0
      let o : Origin := .cp
      let s : State := (((pServes base).setOn SYS_MAINT_MAINT true).setOn AUTH_PRES_OPEN true).setOn JNL_CFG_POLICY false
      let s : State := { s with sys := { s.sys with anvilUp := true, d2d := true } }
      let s : State := s.setFld (PK_STAT_STATE k) (PkSt.code (PkSt.latched))
      ⟨k, o, s, by unfold State.serves; decide +kernel⟩)⟩

theorem witness_CoulombsAndRarex :
(∃ (k : Fin 2) (c : Int) (s : State), s.awake = true ∧ s.packIn k = true ∧ s.on (COUL_STAT_OFSRUN k) = false ∧ -8388608 ≤ c ∧ c
      ≤ 8388607) ∧
(∃ (k : Fin 2) (s : State), s.awake = true ∧ s.on (COUL_CFG_OFSAUTO k) = true ∧ s.on (PK_STAT_CHGON k) = false ∧ s.on
      (PK_STAT_DSGON k) = false ∧ s.pk[k].openN = 8000) ∧
(∃ (k : Fin 2) (m : Int) (s : State), s.awake = true ∧ s.on (COUL_STAT_OFSRUN k) = true ∧ 4000 ≤ s.pk[k].ofsCnt ∧
      ((s.pk[k].ofsSum : Rat) / s.pk[k].ofsCnt + 1 / 2).floor = m) ∧
(∃ (k : Fin 2) (s : State), s.packIn k = true ∧ s.pk[k].ident ≠ none ∧ s.pkReady k = true ∧ s.on (TW_PK_STAT_HELD k) = false) ∧
(∃ (k : Fin 2) (b : Bool) (s : State), s.packIn k = true ∧ s.pk[k].ident ≠ none ∧ s.pkReady k = true ∧ (b = false ∨ s.on
      (TW_PK_STAT_HELD k) = true)) ∧
(∃ (k : Fin 2) (cmd : Rarex) (fails : List TwErr) (s : State), (s.running = true ∨ s.safeState = true) ∧ s.packIn k = true ∧
      (s.tw[(if k = 0 then 1 else 2 : Fin 3)].check = false) ∧ (s.on (twHeld (if k = 0 then 1 else 2 : Fin 3)) = false) ∧ (cmd =
      .incCtr → s.incDue k = true) ∧ (∀ e ∈ fails, e.check ≠ some none) ∧ fails.length < 3) ∧
(∃ (k : Fin 2) (cmd : Rarex) (fails : List TwErr) (s : State), (s.running = true ∨ s.safeState = true) ∧ s.packIn k = true ∧
      (s.tw[(if k = 0 then 1 else 2 : Fin 3)].check = false) ∧ (s.on (twHeld (if k = 0 then 1 else 2 : Fin 3)) = false) ∧ (cmd =
      .incCtr → s.incDue k = true) ∧ (3 ≤ fails.length ∨ ∃ e ∈ fails.take 2, e.check = some none)) ∧
(∃ (k : Fin 2) (fails : List TwErr) (s : State), s.pk[k].running = true ∧ s.pk[k].rx.sig = none ∧ (s.running = true ∨
      s.safeState = true) ∧ s.packIn k = true ∧ (s.tw[(if k = 0 then 1 else 2 : Fin 3)].check = false) ∧ (s.on (twHeld (if k = 0
      then 1 else 2 : Fin 3)) = false) ∧ (∀ e ∈ fails, e.check ≠ some none) ∧ fails.length < 3) :=
  ⟨(
      let k : Fin 2 := 0
      let c : Int := 0
      let s : State := ((pAwake base).setOn (COUL_STAT_OFSRUN k) false).setOn (PK_STAT_PRES k) true
      ⟨k, c, s, by decide +kernel⟩),
   (
      let k : Fin 2 := 0
      let s : State := (((pAwake base).setOn (COUL_CFG_OFSAUTO k) true).setOn (PK_STAT_CHGON k) false).setOn (PK_STAT_DSGON k) false
      let s : State := s.modPk k (fun z_ => { z_ with openN := 8000 })
      ⟨k, s, by decide +kernel⟩),
   (
      let k : Fin 2 := 0
      let m : Int := 0
      let s : State := (pAwake base).setOn (COUL_STAT_OFSRUN k) true
      let s : State := s.modPk k (fun z => { z with ofsCnt := 4000, ofsSum := 4000 * m })
      ⟨k, m, s, by decide +kernel⟩),
   (
      let k : Fin 2 := 0
      let s : State := base.setOn (TW_PK_STAT_HELD k) false
      let s : State := (((s.setOn (PK_STAT_PRES k) true).setFld SYS_STATE_MODE 1).modTw ⟨k.val + 1, by omega⟩ (fun x => { x with check := false })).modPk k (fun x => { x with ident := some (x.ident.getD zIdent) })
      let s : State := s.modPk k (fun p => { p with ident := some zIdent })
      ⟨k, s, by decide +kernel⟩),
   (
      let k : Fin 2 := 0
      let b : Bool := false
      let s : State := base
      let s : State := (((s.setOn (PK_STAT_PRES k) true).setFld SYS_STATE_MODE 1).modTw ⟨k.val + 1, by omega⟩ (fun x => { x with check := false })).modPk k (fun x => { x with ident := some (x.ident.getD zIdent), wbFails := 2 })
      let s : State := s.modPk k (fun p => { p with ident := some zIdent })
      ⟨k, b, s, by decide +kernel⟩),
   (
      let k : Fin 2 := 0
      let cmd : Rarex := .getSig
      let fails : List TwErr := (let l : List TwErr := []; (l.filter (fun e => decide (e.check ≠ some none))).take 2)
      let s : State := base
      let s : State := ((s.setFld SYS_STATE_MODE 1).setOn (PK_STAT_PRES k) true).modTw (if k = 0 then 1 else 2 : Fin 3) (fun x => { x with check := false })
      let s : State := s.setOn (twHeld (if k = 0 then 1 else 2 : Fin 3)) false
      ⟨k, cmd, fails, s, by decide +kernel⟩),
   (
      let k : Fin 2 := 0
      let cmd : Rarex := .getSig
      let fails : List TwErr := (let l : List TwErr := []; l ++ [.nack, .pec, .sda none])
      let s : State := base
      let s : State := ((s.setFld SYS_STATE_MODE 1).setOn (PK_STAT_PRES k) true).modTw (if k = 0 then 1 else 2 : Fin 3) (fun x => { x with check := false })
      let s : State := s.setOn (twHeld (if k = 0 then 1 else 2 : Fin 3)) false
      ⟨k, cmd, fails, s, by decide +kernel⟩),
   (
      let k : Fin 2 := 0
      let fails : List TwErr := (let l : List TwErr := []; (l.filter (fun e => decide (e.check ≠ some none))).take 2)
      let s : State := base
      let s : State := s.modPk k (fun z_ => { z_ with running := true })
      let s : State := ((s.setFld SYS_STATE_MODE 1).setOn (PK_STAT_PRES k) true).modTw (if k = 0 then 1 else 2 : Fin 3) (fun x => { x with check := false })
      let s : State := s.setOn (twHeld (if k = 0 then 1 else 2 : Fin 3)) false
      let s : State := s.modPk k (fun x => { x with rx := { x.rx with sig := none } })
      ⟨k, fails, s, by decide +kernel⟩)⟩

theorem witness_PackAuthentication :
(∃ (k : Fin 2) (s : State), s.packIn k = true ∧ s.pkSt k ≠ .empty ∧ s.pkSt k ≠ .ident ∧ s.prof k ≠ none) ∧
(∃ (k : Fin 2) (r : Option RunIn) (s : State), s.pk[k].running = true ∧ s.pkReady k = true ∧ s.on (TW_PK_STAT_HELD k) = false ∧
      (s.runResult k r).1 ≠ .bus) ∧
(∃ (d : Desc) (e : Desc) (s : State), s.adminReady ∧ (d.withOpc 7).withByte8 0xE 0 = e ∧ d.authOp < 3 ∧ s.pkSt e.authPort ≠
      .empty) ∧
(∃ (d : Desc) (e : Desc) (s : State), s.adminReady ∧ (d.withOpc 7).withByte8 0xE 2 = e ∧ s.sealedReason = 0 ∧ s.slotState
      e.authSlot = 0 ∧ Desc.bytes e 16 8 % 64 = 0) ∧
(∃ (key : BitVec 512) (d : Desc) (l : List Desc) (s : State), s.on HIF_LNK_BME = true ∧ s.aon.keyLoad = d :: l ∧ s.sealedReason
      = 0 ∧ s.slotState d.authSlot = 0 ∧ keyOnCurve key = true) ∧
(∃ (s : State), s.adminReady ∧ s.sealedReason = 0) ∧
(∃ (o : Origin) (s : State), s.serves o ∧ s.on SYS_MAINT_MAINT = true ∧ s.present = true ∧ s.stalled = false ∧ s.anvilAnswers =
      true) :=
  ⟨(
      let k : Fin 2 := 0
      let s : State := base
      let s : State := (s.setOn (PK_STAT_PRES k) true).setFld (PK_STAT_STATE k) 3
      let s : State := (s.modPk k (fun z => { z with ident := some (z.ident.getD zIdent) })).modChg k (fun c => { c with prof := some mkProf })
      ⟨k, s, by decide +kernel⟩),
   (
      let k : Fin 2 := 0
      let r : Option RunIn := some ⟨0, 0⟩
      let s : State := base
      let s : State := s.modPk k (fun z_ => { z_ with running := true })
      let s : State := s.setOn (TW_PK_STAT_HELD k) false
      let s : State := { ((s.setFld SYS_STATE_MODE 1).modTw ⟨k.val + 1, by omega⟩ (fun x => { x with check := false })) with sys := { s.sys with fuses := #v[31, 0, 0] } }
      let s : State := (s.modPk k (fun z => { z with ident := some zIdent }))
      let s : State := s.modPk k (fun p => { p with running := true })
      ⟨k, r, s, by decide +kernel⟩),
   (
      let d : Desc := (let d : Desc := 0; d.withByte8 0xE 0)
      let e : Desc := ((d.withOpc 7).withByte8 0xE 0)
      let s : State := pAdmin base
      let s : State := (s.setFld (PK_STAT_STATE 0) 3).setFld (PK_STAT_STATE 1) 2
      ⟨d, e, s, by unfold State.adminReady; decide +kernel⟩),
   (
      let d : Desc := (let d : Desc := 0; d &&& ~~~ (0x3F#256 <<< 128))
      let e : Desc := ((d.withOpc 7).withByte8 0xE 2)
      let s : State := pAdmin base
      let s : State := (((s.setOn AUTH_SEAL_INTACT true).setOn AUTH_SEAL_TAMPER false).setOn JNL_CFG_POLICY false).setOn AUTH_PRES_OPEN true
      let s : State := { s with sys := { s.sys with fuses := #v[31, 0, 0] } }
      let s : State := { s with aon := { s.aon with keys := Vector.replicate 4 (0,false,false) } }
      ⟨d, e, s, by unfold State.adminReady; decide +kernel⟩),
   (
      let key : BitVec 512 := keyG
      let d : Desc := 0
      let l : List Desc := []
      let s : State := base.setOn HIF_LNK_BME true
      let s : State := { s with aon := { s.aon with keyLoad := d :: l } }
      let s : State := (((s.setOn AUTH_SEAL_INTACT true).setOn AUTH_SEAL_TAMPER false).setOn JNL_CFG_POLICY false).setOn AUTH_PRES_OPEN true
      let s : State := { s with sys := { s.sys with fuses := #v[31, 0, 0] } }
      let s : State := { s with aon := { s.aon with keys := Vector.replicate 4 (0,false,false) } }
      ⟨key, d, l, s, by decide +kernel⟩),
   (
      let s : State := pAdmin base
      let s : State := (((s.setOn AUTH_SEAL_INTACT true).setOn AUTH_SEAL_TAMPER false).setOn JNL_CFG_POLICY false).setOn AUTH_PRES_OPEN true
      let s : State := { s with sys := { s.sys with fuses := #v[31, 0, 0] } }
      ⟨s, by unfold State.adminReady; decide +kernel⟩),
   (
      let o : Origin := .cp
      let s : State := (((pServes base).setOn SYS_MAINT_MAINT true).setOn AUTH_PRES_OPEN true).setOn JNL_CFG_POLICY false
      let s : State := { s with sys := { s.sys with anvilUp := true, d2d := true } }
      ⟨o, s, by unfold State.serves; decide +kernel⟩)⟩

theorem witness_DoldrumsAndShip :
(∃ (o : Origin) (v : Word) (s : State), s.serves o ∧ s.on SYS_MAINT_MAINT = true ∧ s.anvilAnswers = true ∧ v.toNat / 2 ^ 24 =
      0xA5 ∧ s.lostFeeds = false) ∧
(∃ (o : Origin) (v : Word) (s : State), s.serves o ∧ s.on SYS_MAINT_MAINT = true ∧ s.anvilAnswers = true ∧ v.toNat / 2 ^ 24 =
      0xA5 ∧ s.lostFeeds = true ∧ s.lifeWaits 0 = false ∧ s.lifeWaits 1 = false ∧ s.sys.seq = none) ∧
(∃ (w : WakeSrc) (s : State), s.sys.doldrums = true ∧ s.wakeDue w = true) ∧
(∃ (s : State), s.sys.doldrums = true ∧ s.fld PK_SHIP_SHIPCUT ≠ 0 ∧ 16 ≤ s.aon.sent[2] ∧ 16 ≤ s.aon.sent[3] ∧ s.aon.sent[0] = 0
      ∧ s.aon.sent[1] = 0) :=
  ⟨(
      let o : Origin := .cp
      let v : Word := ((0 : Word) &&& 0x00FFFDFF) ||| 0xA5000000
      let s : State := (pServes base).setOn SYS_MAINT_MAINT true
      let s : State := { s with sys := { s.sys with anvilUp := true, d2d := true } }
      let s : State := s.setOn FEED_GSTAT_FEEDS_LOST false
      ⟨o, v, s, by unfold State.serves; decide +kernel⟩),
   (
      let o : Origin := .cp
      let v : Word := ((0 : Word) &&& 0x00FFFDFF) ||| 0xA5000000
      let s : State := (pServes base).setOn SYS_MAINT_MAINT true
      let s : State := { s with sys := { s.sys with anvilUp := true, d2d := true } }
      let s : State := { s with sys := { s.sys with seq := none } }
      let s : State := s.setOn FEED_GSTAT_FEEDS_LOST true
      ⟨o, v, s, by unfold State.serves; decide +kernel⟩),
   (
      let w : WakeSrc := .wakeN
      let s : State := base
      let s : State := { s with sys := { s.sys with doldrums := true } }
      let s : State := { s with aon := { s.aon with wakeTicks := 12 } }
      ⟨w, s, by decide +kernel⟩),
   (
      let s : State := base
      let s : State := { s with sys := { s.sys with doldrums := true } }
      let s : State := { (s.setFld PK_SHIP_SHIPCUT 4) with aon := { s.aon with sent := #v[0,0,17,16] } }
      ⟨s, by decide +kernel⟩)⟩

theorem witness_GrantsAndAccounts :
(∃ (n : Fin 64) (d : Desc) (l : GtLine) (s : State), s.ctxReady n (d &&& ~~~ 0xFF ||| 0x20).cid l ∧ (d &&& ~~~ 0xFF |||
      0x20).reqP ≠ 0 ∧ (d &&& ~~~ 0xFF ||| 0x20).allowPart = false ∧ l.valid = true ∧ l.zmap.toNat &&& s.fld (FC_CTX_CFG_ZMASK
      n) = l.zmap.toNat ∧ (l.st = .idle ∨ l.st = .granted) ∧ s.past (d &&& ~~~ 0xFF ||| 0x20).reqDl = false ∧ s.heldByHoldup n =
      false ∧ ((d &&& ~~~ 0xFF ||| 0x20).reqP : Rat) / 16 ≤ (s.allowance n l (secs (d &&& ~~~ 0xFF ||| 0x20).reqD)).1) ∧
(∃ (n : Fin 64) (d : Desc) (l : GtLine) (s : State), s.ctxReady n (d &&& ~~~ 0xFF ||| 0x22).cid l ∧ l.st = .granted ∧ l.gen = (d
      &&& ~~~ 0xFF ||| 0x22).gen ∧ s.heldByHoldup n = false ∧ (l.gpwr : Rat) / 16 ≤ (s.allowance n l (secs (d &&& ~~~ 0xFF |||
      0x22).extD)).1) ∧
(∃ (n : Fin 64) (d : Desc) (l : GtLine) (s : State), s.ctxReady n (d &&& ~~~ 0xFF ||| 0x21).cid l ∧ l.st ≠ .idle ∧ l.gen = (d
      &&& ~~~ 0xFF ||| 0x21).gen) ∧
(∃ (n : Fin 64) (d : Desc) (l : GtLine) (s : State), s.ctxReady n (d &&& ~~~ 0xFF ||| 0x23).cid l ∧ (d &&& ~~~ 0xFF |||
      0x23).accEvict = false) ∧
(∃ (n : Fin 64) (d : Desc) (s : State), s.on HIF_LNK_BME = true ∧ s.fc.misses = [⟨n, d⟩] ∧ d.opc = 0x21 ∧ s.ctxRefusal n d =
      none ∧ s.line? d.cid = none ∧ s.fc.lines.length < 4096 ∧ s.ring[n].sq = [] ∧ s.ringSt n = 1) ∧
(∃ (c : Nat) (l : GtLine) (s : State), s.line? c = some l ∧ l.dirty = true ∧ s.static = false ∧ s.on HIF_LNK_BME = true) :=
  ⟨(
      let n : Fin 64 := (let i : Fin 63 := (0 : Fin 63); ⟨i.val+1, by omega⟩)
      let d : Desc := (let d : Desc := 0; (d &&& ~~~ (0x01FFFFF0#256 <<< 96)) &&& ~~~ (0xFFFFFFFFFFFF#256 <<< 192) ||| (1#256 <<< 96))
      let l : GtLine := (let l : GtLine := (zLine 0); { l with cid := (d &&& ~~~ 0xFF ||| 0x20).cid , valid := true, st := .granted, zmap := 0, ceil := 100000, gpwr := 3 })
      let s : State := base
      let s : State := pCtx s n (d &&& ~~~ 0xFF ||| 0x20).cid l
      let s : State := { ((s.setFld (FC_CTX_CAP_CAP n) 0).setFld (FC_CTX_CFG_BAND n) 0) with fc := { s.fc with pbase := -100000000, lines := s.fc.lines.map (fun l => { l with gpwr := 3 }) } }
      let s : State := (s.setFld FC_CHG_CHGKEEP 0).setOn FEED_GSTAT_FEEDS_LOST false
      let s : State := s.setFld FC_GTN_NENT 262144
      ⟨n, d, l, s, by unfold State.ctxReady; decide +kernel⟩),
   (
      let n : Fin 64 := (let i : Fin 63 := (0 : Fin 63); ⟨i.val+1, by omega⟩)
      let d : Desc := 0
      let l : GtLine := (let l : GtLine := (zLine 0); { l with cid := (d &&& ~~~ 0xFF ||| 0x22).cid , st := .granted, gen := (d &&& ~~~ 0xFF ||| 0x22).gen, gpwr := 5, ceil := 10000, zmap := 0 })
      let s : State := base
      let s : State := pCtx s n (d &&& ~~~ 0xFF ||| 0x22).cid l
      let s : State := { ((s.setFld (FC_CTX_CAP_CAP n) 0).setFld (FC_CTX_CFG_BAND n) 0) with fc := { s.fc with pbase := -100000000 } }
      let s : State := (s.setFld FC_CHG_CHGKEEP 0).setOn FEED_GSTAT_FEEDS_LOST false
      ⟨n, d, l, s, by unfold State.ctxReady; decide +kernel⟩),
   (
      let n : Fin 64 := (let i : Fin 63 := (0 : Fin 63); ⟨i.val+1, by omega⟩)
      let d : Desc := 0
      let l : GtLine := (let l : GtLine := (zLine 0); { l with cid := (d &&& ~~~ 0xFF ||| 0x21).cid , st := .throttled, gen := (d &&& ~~~ 0xFF ||| 0x21).gen })
      let s : State := base
      let s : State := pCtx s n (d &&& ~~~ 0xFF ||| 0x21).cid l
      ⟨n, d, l, s, by unfold State.ctxReady; decide +kernel⟩),
   (
      let n : Fin 64 := (let i : Fin 63 := (0 : Fin 63); ⟨i.val+1, by omega⟩)
      let d : Desc := 0
      let l : GtLine := (let l : GtLine := (zLine 0); { l with cid := (d &&& ~~~ 0xFF ||| 0x23).cid  })
      let s : State := base
      let s : State := pCtx s n (d &&& ~~~ 0xFF ||| 0x23).cid l
      ⟨n, d, l, s, by unfold State.ctxReady; decide +kernel⟩),
   (
      let n : Fin 64 := 0
      let d : Desc := (let d : Desc := 0; d &&& ~~~ 0xFF ||| 0x21)
      let s : State := base.setOn HIF_LNK_BME true
      let s : State := { s with fc := { s.fc with misses := [⟨n, d⟩] } }
      let s : State := s.modRing n (fun z_ => { z_ with sq := [] })
      let s : State := s.setFld (HIF_STAT_STATE n) 1
      let s : State := (s.setFld (HIF_STAT_STATE n) 1).modRing n (fun r => { r with sq := [] })
      let s : State := ((s.setOn (FC_CTX_CFG_BOUND n) true).setOn FC_STAT_STATIC false).setFld FC_GTN_NENT 262144
      let s : State := ((s.setFld (FC_CTX_CIDBASE_CIDBASE n) 0).setFld (FC_CTX_CIDCNT_CIDCNT n) 262144).setFld SYS_STATE_MODE 1
      ⟨n, d, s, by decide +kernel⟩),
   (
      let c : Nat := 0
      let l : GtLine := (let l : GtLine := (zLine 0); { l with cid := c, dirty := true })
      let s : State := base.setOn HIF_LNK_BME true
      let s : State := { s.setOn FC_STAT_STATIC false with fc := { s.fc with lines := l :: s.fc.lines } }
      ⟨c, l, s, by decide +kernel⟩)⟩

theorem witness_GrantEnforcementAndSnapshot :
(∃ (c : Nat) (l : GtLine) (s : State), s.line? c = some l ∧ l.st = .granted ∧ l.gend ≠ 0 ∧ (s.time48 - l.gend).toNat < 2 ^ 47) ∧
(∃ (c : Nat) (l : GtLine) (s : State), s.line? c = some l ∧ l.st = .revoking ∧ (s.devtime - l.due).toNat < 2 ^ 55) ∧
(∃ (s : State), s.static = true ∧ s.on FC_STAT_OVERRUN = false) :=
  ⟨(
      let c : Nat := 0
      let l : GtLine := (let l : GtLine := (zLine 0); { l with cid := c, st := .granted, gend := 7 })
      let s : State := base
      let s : State := { s with devtime := 100, fc := { s.fc with lines := l :: s.fc.lines } }
      ⟨c, l, s, by decide +kernel⟩),
   (
      let c : Nat := 0
      let l : GtLine := (let l : GtLine := (zLine 0); { l with cid := c, st := .revoking, due := 5 })
      let s : State := base
      let s : State := { s with devtime := 1000, fc := { s.fc with lines := l :: s.fc.lines } }
      ⟨c, l, s, by decide +kernel⟩),
   (
      let s : State := (base.setOn FC_STAT_OVERRUN false).setOn FC_STAT_STATIC true
      ⟨s, by decide +kernel⟩)⟩

theorem witness_ContextsAndGrantTable :
(∃ (d : Desc) (e : Desc) (s : State), s.adminReady ∧ (d.withOpc 9).withByte8 0x40 0 = e ∧ e.ctx ≠ 0 ∧ e.weight ≠ 0 ∧ e.cidCnt ≠
      0 ∧ e.cidBase + e.cidCnt ≤ s.nent ∧ s.overlaps e.ctx e.cidBase e.cidCnt = false ∧ s.ringSt e.ctx = 1 ∧ s.ctxLive e.ctx =
      false) ∧
(∃ (d : Desc) (e : Desc) (s : State), s.adminReady ∧ (d.withOpc 9).withByte8 0x40 0x40 = e ∧ e.ctx ≠ 0 ∧ s.ctxLive e.ctx =
      false) ∧
(∃ (d : Desc) (e : Desc) (s : State), s.adminReady ∧ d.withOpc 10 = e ∧ (e.nent = 0 ∨ (e.gtaddr % 4096 = 0 ∧ e.nent % 64 = 0 ∧
      e.nent ≤ 262144)) ∧ s.boundRings = []) :=
  ⟨(
      let d : Desc := (let d : Desc := 0; (d &&& ~~~ (0xFFFFFFFF#256 <<< 64) &&& ~~~ (0xFFFFFFFFFFFFFFFF#256 <<< 96)) ||| (0x00053A07#256 <<< 64) ||| (0x0000002000000010#256 <<< 96))
      let e : Desc := ((d.withOpc 9).withByte8 0x40 0)
      let s : State := (pAdmin base).setFld (HIF_STAT_STATE e.ctx) 1
      let s : State := (s.each (List.finRange 64) (fun t n => t.setOn (FC_CTX_CFG_BOUND n) false)).setFld FC_GTN_NENT 64
      let s : State := s.setFld (HIF_STAT_STATE 7) 1
      ⟨d, e, s, by unfold State.adminReady; decide +kernel⟩),
   (
      let d : Desc := 1#256 <<< 64
      let e : Desc := ((d.withOpc 9).withByte8 0x40 0x40)
      let s : State := pAdmin base
      let s : State := { s with fc := { s.fc with lines := [] } }
      ⟨d, e, s, by unfold State.adminReady; decide +kernel⟩),
   (
      let d : Desc := (let d : Desc := 0; (d &&& ~~~ (0xFFF#256 <<< 64) &&& ~~~ (0xFFFFFFFF#256 <<< 128)) ||| (0x00001000#256 <<< 128))
      let e : Desc := (d.withOpc 10)
      let s : State := pAdmin base
      let s : State := (s.each (List.finRange 64) (fun t n => t.setOn (FC_CTX_CFG_BOUND n) false))
      ⟨d, e, s, by unfold State.adminReady; decide +kernel⟩)⟩

theorem witness_HostLink :
(∃ (s : State), s.regs.wf = true) ∧
(∃ (s : State), s.regs.wf = true) ∧
(∃ (s : State), s.regs.wf = true) ∧
(∃ (s : State), s.regs.wf = true) ∧
(∃ (s : State), s.powered = true ∧ s.on SYS_STRAP_HOSTSEL = false) ∧
(∃ (s : State), s.on HIF_LNK_LINKUP = true ∧ s.hif.cfg.aspmL1 = true) ∧
(∃ (s : State), s.hif.tel = none) ∧
(∃ (r : TelRun) (s : State), s.hif.tel = some r ∧ s.ringSt 0 = 1 ∧ r.d ∈ s.ring[(0 : Fin 64)].started ∧ r.d ∉ s.hif.lost) ∧
(∃ (s : State), s.on HIF_LNK_LINKUP = true) :=
  ⟨(
      let s : State := base
      ⟨s, by decide +kernel⟩),
   (
      let s : State := base
      ⟨s, by decide +kernel⟩),
   (
      let s : State := base
      ⟨s, by decide +kernel⟩),
   (
      let s : State := base
      ⟨s, by decide +kernel⟩),
   (
      let s : State := (pPowered base).setOn SYS_STRAP_HOSTSEL false
      ⟨s, by decide +kernel⟩),
   (
      let s : State := base.setOn HIF_LNK_LINKUP true
      let s : State := { s with hif := { s.hif with cfg := { s.hif.cfg with aspmL1 := true } } }
      ⟨s, by decide +kernel⟩),
   (
      let s : State := base
      let s : State := { s with hif := { s.hif with tel := none } }
      ⟨s, by decide +kernel⟩),
   (
      let r : TelRun := ⟨0, [], 0, false, 0⟩
      let s : State := base
      let s : State := { s with hif := { s.hif with tel := some r } }
      let s : State := s.setFld (HIF_STAT_STATE 0) 1
      let s : State := (s.setFld (HIF_STAT_STATE 0) 1).modRing 0 (fun x => { x with started := [r.d] })
      ⟨r, s, by decide +kernel⟩),
   (
      let s : State := base.setOn HIF_LNK_LINKUP true
      ⟨s, by decide +kernel⟩)⟩

theorem witness_DoorbellsAndPush :
(∃ (n : Fin 64) (v : Word) (s : State), s.hostUp = true ∧ s.ringSt n = 1 ∧ v.toNat % 4096 < s.sqSize n) ∧
(∃ (n : Fin 64) (v : Word) (s : State), s.hostUp = true ∧ s.ringSt n = 1 ∧ s.sqSize n ≤ v.toNat % 4096) ∧
(∃ (n : Fin 64) (s : State), s.hostUp = true ∧ s.ringSt n ≠ 1) ∧
(∃ (s : State), s.hostUp = true) ∧
(∃ (off : BitVec 13) (len : Nat) (n : Fin 64) (s : State), s.hostUp = true ∧ bar2Target off len = .invalid n) :=
  ⟨(
      let n : Fin 64 := 0
      let v : Word := ((0 : Word) &&& 63)
      let s : State := base
      let s : State := { (pPowered s).setOn HIF_LNK_LINKUP true with hif := { s.hif with d3 := false } }
      let s : State := ((s.setFld (HIF_STAT_STATE n) 1).setFld (HIF_STAT_STATE n) 1).setFld (HIF_CFG_SQSZ n) 6
      ⟨n, v, s, by decide +kernel⟩),
   (
      let n : Fin 64 := 0
      let v : Word := ((0 : Word) ||| 64)
      let s : State := base
      let s : State := { (pPowered s).setOn HIF_LNK_LINKUP true with hif := { s.hif with d3 := false } }
      let s : State := ((s.setFld (HIF_STAT_STATE n) 1).setFld (HIF_STAT_STATE n) 1).setFld (HIF_CFG_SQSZ n) 6
      ⟨n, v, s, by decide +kernel⟩),
   (
      let n : Fin 64 := 0
      let s : State := base
      let s : State := { (pPowered s).setOn HIF_LNK_LINKUP true with hif := { s.hif with d3 := false } }
      ⟨n, s, by decide +kernel⟩),
   (
      let s : State := base
      let s : State := { (pPowered s).setOn HIF_LNK_LINKUP true with hif := { s.hif with d3 := false } }
      ⟨s, by decide +kernel⟩),
   (
      let off : BitVec 13 := ((0 : BitVec 13) &&& 0x1F80) + 16
      let len : Nat := 0
      let n : Fin 64 := Fin.ofNat 64 (off.toNat / 128)
      let s : State := base
      let s : State := { (pPowered s).setOn HIF_LNK_LINKUP true with hif := { s.hif with d3 := false } }
      ⟨off, len, n, s, by decide +kernel⟩)⟩

theorem witness_CqHeadDoorbell :
(∃ (n : Fin 64) (v : Word) (s : State), s.hostUp = true ∧ (s.ringSt n = 1 ∨ s.ringSt n = 2) ∧ v.toNat % 4096 < s.cqSize n ∧
      (v.toNat % 4096 + s.cqSize n - s.fld (HIF_CQP_CQHEAD n)) % s.cqSize n ≤ s.cqUsed n) ∧
(∃ (n : Fin 64) (v : Word) (s : State), s.hostUp = true ∧ (s.ringSt n = 1 ∨ s.ringSt n = 2) ∧ (s.cqSize n ≤ v.toNat % 4096 ∨
      s.cqUsed n < (v.toNat % 4096 + s.cqSize n - s.fld (HIF_CQP_CQHEAD n)) % s.cqSize n)) ∧
(∃ (n : Fin 64) (s : State), s.hostUp = true ∧ (s.ringSt n = 0 ∨ s.ringSt n = 3)) :=
  ⟨(
      let n : Fin 64 := 0
      let v : Word := ((0 : Word) &&& 63)
      let s : State := base
      let s : State := { (pPowered s).setOn HIF_LNK_LINKUP true with hif := { s.hif with d3 := false } }
      let s : State := (s.setFld (HIF_STAT_STATE n) 1).setFld (HIF_STAT_STATE n) 2
      let s : State := (s.setFld (HIF_CFG_CQSZ n) 6).setFld (HIF_CQP_CQHEAD n) 10
      let s : State := s.setFld (HIF_CQP_CQTAIL n) 9
      ⟨n, v, s, by decide +kernel⟩),
   (
      let n : Fin 64 := 0
      let v : Word := ((0 : Word) ||| 11)
      let s : State := base
      let s : State := { (pPowered s).setOn HIF_LNK_LINKUP true with hif := { s.hif with d3 := false } }
      let s : State := (s.setFld (HIF_STAT_STATE n) 1).setFld (HIF_STAT_STATE n) 2
      let s : State := (s.setFld (HIF_CFG_CQSZ n) 6).setFld (HIF_CQP_CQHEAD n) 10
      let s : State := s.setFld (HIF_CQP_CQTAIL n) 10
      ⟨n, v, s, by decide +kernel⟩),
   (
      let n : Fin 64 := 0
      let s : State := base
      let s : State := { (pPowered s).setOn HIF_LNK_LINKUP true with hif := { s.hif with d3 := false } }
      let s : State := (s.setFld (HIF_STAT_STATE n) 0).setFld (HIF_STAT_STATE n) 3
      ⟨n, s, by decide +kernel⟩)⟩

theorem witness_DescriptorsAndRingStates :
(∃ (n : Fin 64) (d : Desc) (s : State), s.ringSt n = 1 ∧ s.on HIF_LNK_BME = true ∧ s.ring[n].fetching = true ∧ s.sqPending n = 1
      ∧ s.ring[n].copies = [] ∧ s.ring[n].sq = [] ∧ d.cont = false ∧ runError (n != 0) (s.fld (HIF_STAT_SQHEAD n)) (s.sqSize n)
      [d] = none) ∧
(∃ (n : Fin 64) (e : Fin 3) (s : State), s.on HIF_LNK_BME = true ∧ (s.hif.cfg.ctoOff = false ∨ e ≠ 0) ∧ s.ring[n].fetching =
      true ∧ s.ringSt n = 1) ∧
(∃ (m : Miss) (c : Nat) (e : Fin 3) (s : State), s.on HIF_LNK_BME = true ∧ (s.hif.cfg.ctoOff = false ∨ e ≠ 0) ∧
      (s.fc.misses.find? (fun x => x.d.cid == c) = some m) ∧ s.ringSt m.ring = 1) ∧
(∃ (k : Fin 2) (e : Fin 3) (d : Desc) (l : List Desc) (s : State), s.on HIF_LNK_BME = true ∧ (s.hif.cfg.ctoOff = false ∨ e ≠ 0)
      ∧ s.chg[k].load = d :: l ∧ s.ringSt 0 = 1 ∧ d ∈ s.ring[(0 : Fin 64)].started ∧ d ∉ s.hif.lost) ∧
(∃ (e : Fin 3) (d : Desc) (l : List Desc) (s : State), s.on HIF_LNK_BME = true ∧ (s.hif.cfg.ctoOff = false ∨ e ≠ 0) ∧
      s.aon.keyLoad = d :: l ∧ s.ringSt 0 = 1 ∧ d ∈ s.ring[(0 : Fin 64)].started ∧ d ∉ s.hif.lost) ∧
(∃ (e : Fin 3) (d : Desc) (s : State), s.on HIF_LNK_BME = true ∧ (s.hif.cfg.ctoOff = false ∨ e ≠ 0) ∧ s.adminReady ∧ d.opc = 4 ∧
      telBad [d] d = none ∧ s.hif.tel = none ∧ [d] ∉ s.hif.lists ∧ d.fence = false) ∧
(∃ (n : Fin 64) (o : Origin) (v : Word) (s : State), s.serves o ∧ s.on SYS_STRAP_HOSTSEL = false ∧ s.on (HIF_CFG_EN n) = false ∧
      4 ≤ (HIF_CFG_SQSZ n).extract v ∧ (HIF_CFG_SQSZ n).extract v ≤ 12 ∧ 4 ≤ (HIF_CFG_CQSZ n).extract v ∧ (HIF_CFG_CQSZ
      n).extract v ≤ 12 ∧ (s.word (HIF_SQA_LO n)).toNat % 4096 = 0 ∧ (s.word (HIF_CQA_LO n)).toNat % 4096 = 0) ∧
(∃ (n : Fin 64) (o : Origin) (v : Word) (s : State), s.serves o ∧ s.on (HIF_CFG_EN n) = true ∧ s.ringSt n = 1 ∧ (v ^^^ s.word
      (HIF_CFG n)) &&& 0xFF = 0) ∧
(∃ (n : Fin 64) (o : Origin) (v : Word) (s : State), s.serves o ∧ s.on (HIF_CFG_EN n) = true ∧ s.ringSt n = 3 ∧ (v ^^^ s.word
      (HIF_CFG n)) &&& 0xFF = 0) ∧
(∃ (n : Fin 64) (s : State), s.ringSt n = 2 ∧ s.ring[n].started = [] ∧ s.ring[n].cq = [] ∧ (n = 0 → s.hif.lists = []) ∧
      (s.fc.misses.all (fun m => m.ring != n) = true)) :=
  ⟨(
      let n : Fin 64 := 1
      let d : Desc := (let d : Desc := 0; (d &&& ~~~ 0xFFFFFFFFFFFFFFFF#256) ||| 0x21)
      let s : State := (base.setFld (HIF_STAT_STATE n) 1).setOn HIF_LNK_BME true
      let s : State := s.modRing n (fun z_ => { z_ with fetching := true })
      let s : State := s.modRing n (fun z_ => { z_ with copies := [] })
      let s : State := s.modRing n (fun z_ => { z_ with sq := [] })
      let s : State := s.setFld (HIF_STAT_STATE n) 1
      let s : State := ((s.setFld (HIF_CFG_SQSZ n) 6).setFld (HIF_STAT_SQHEAD n) 0).setFld (HIF_STAT_SQTAIL n) 1
      let s : State := (s.setOn HIF_LNK_BME true).modRing n (fun r => { r with copies := [], sq := [], fetching := true })
      ⟨n, d, s, by decide +kernel⟩),
   (
      let n : Fin 64 := 0
      let e : Fin 3 := 0
      let s : State := base.setOn HIF_LNK_BME true
      let s : State := s.modRing n (fun z_ => { z_ with fetching := true })
      let s : State := (s.setFld (HIF_STAT_STATE n) 1).setFld (HIF_STAT_STATE n) 1
      let s : State := ((s.setFld (HIF_CFG_SQSZ n) 6).setFld (HIF_STAT_SQHEAD n) 0).setFld (HIF_STAT_SQTAIL n) 1
      let s : State := s.modRing n (fun r => { r with fetching := true })
      ⟨n, e, s, by decide +kernel⟩),
   (
      let m : Miss := ⟨0, 0⟩
      let c : Nat := m.d.cid
      let e : Fin 3 := 0
      let s : State := (base.setOn HIF_LNK_BME true).setFld (HIF_STAT_STATE m.ring) 1
      let s : State := s.modFc (fun f => { f with misses := m :: f.misses })
      let s : State := s.setFld (HIF_STAT_STATE m.ring) 1
      ⟨m, c, e, s, by decide +kernel⟩),
   (
      let k : Fin 2 := 0
      let e : Fin 3 := 0
      let d : Desc := 0
      let l : List Desc := []
      let s : State := base.setOn HIF_LNK_BME true
      let s : State := s.modChg k (fun z_ => { z_ with load := d :: l })
      let s : State := s.setFld (HIF_STAT_STATE 0) 1
      let s : State := (s.setFld (HIF_STAT_STATE 0) 1).modRing 0 (fun x => { x with started := [d] })
      ⟨k, e, d, l, s, by decide +kernel⟩),
   (
      let e : Fin 3 := 0
      let d : Desc := 0
      let l : List Desc := []
      let s : State := base.setOn HIF_LNK_BME true
      let s : State := { s with aon := { s.aon with keyLoad := d :: l } }
      let s : State := s.setFld (HIF_STAT_STATE 0) 1
      let s : State := (s.setFld (HIF_STAT_STATE 0) 1).modRing 0 (fun x => { x with started := [d] })
      ⟨e, d, l, s, by decide +kernel⟩),
   (
      let e : Fin 3 := 0
      let d : Desc := (let d : Desc := 0; (((d &&& 0xFFFFFFFF) ||| (0x01010002#256 <<< 192)) &&& ~~~ 0xFF) ||| 4)
      let s : State := pAdmin (base.setOn HIF_LNK_BME true)
      let s : State := { s with hif := { s.hif with tel := none } }
      let s : State := { (s.modRing 0 id) with hif := { s.hif with lists := [] } }
      ⟨e, d, s, by unfold State.adminReady; decide +kernel⟩),
   (
      let n : Fin 64 := 0
      let o : Origin := .cp
      let v : Word := (((0 : Word) &&& 0xFFFFFF00) ||| 0x6C)
      let s : State := ((pServes base).setOn SYS_STRAP_HOSTSEL false).setOn (HIF_CFG_EN n) false
      let s : State := ((s.setOn (HIF_CFG_EN n) false).setWord (HIF_SQA_LO n) 0xABC01000).setWord (HIF_CQA_LO n) 0x1000
      ⟨n, o, v, s, by unfold State.serves; decide +kernel⟩),
   (
      let n : Fin 64 := 0
      let o : Origin := .cp
      let v : Word := (((0 : Word) &&& 0xFFFFFF00) ||| 0x6C)
      let s : State := ((pServes base).setOn (HIF_CFG_EN n) true).setFld (HIF_STAT_STATE n) 1
      let s : State := (s.setWord (HIF_CFG n) (0x8000006C)).setFld (HIF_STAT_STATE n) 1
      let s : State := s.setOn (HIF_CFG_EN n) true
      ⟨n, o, v, s, by unfold State.serves; decide +kernel⟩),
   (
      let n : Fin 64 := 0
      let o : Origin := .cp
      let v : Word := (((0 : Word) &&& 0xFFFFFF00) ||| 0x6C)
      let s : State := ((pServes base).setOn (HIF_CFG_EN n) true).setFld (HIF_STAT_STATE n) 3
      let s : State := (s.setWord (HIF_CFG n) (0x8000006C)).setFld (HIF_STAT_STATE n) 3
      let s : State := s.setOn (HIF_CFG_EN n) true
      ⟨n, o, v, s, by unfold State.serves; decide +kernel⟩),
   (
      let n : Fin 64 := 0
      let s : State := base.setFld (HIF_STAT_STATE n) 2
      let s : State := s.modRing n (fun z_ => { z_ with started := [] })
      let s : State := s.modRing n (fun z_ => { z_ with cq := [] })
      let s : State := s.setFld (HIF_STAT_STATE n) 2
      let s : State := (s.modRing n (fun r => { r with started := [], cq := [] })).modFc (fun f => { f with misses := [] })
      ⟨n, s, by decide +kernel⟩)⟩

theorem witness_CompletionsAndMessages :
(∃ (n : Fin 64) (c : Compl) (l : List Compl) (s : State), s.awake = true ∧ s.on HIF_LNK_BME = true ∧ (s.ringSt n = 1 ∨ s.ringSt
      n = 2) ∧ s.recordWaits n = false ∧ (s.fld (HIF_CQP_CQTAIL n) + 1) % s.cqSize n ≠ s.fld (HIF_CQP_CQHEAD n) ∧ s.ring[n].cq =
      c :: l) ∧
(∃ (n : Fin 64) (x : BitVec 56) (s : State), s.ring[n].since = some x ∧ s.on (HIF_CFG_IEN n) = true ∧ s.fld (HIF_CFG_ITIME n) ≠
      0 ∧ 100 * s.fld (HIF_CFG_ITIME n) ≤ (s.devtime - x).toNat) ∧
(∃ (v : Fin 64) (o : Origin) (s : State), s.serves o ∧ s.pba v = true ∧ s.on HIF_LNK_BME = true ∧ s.hif.cfg.msixOn = true ∧
      s.hif.cfg.msixMask = false) :=
  ⟨(
      let n : Fin 64 := 0
      let c : Compl := ⟨0, 0, 0, 0, 0, false, false⟩
      let l : List Compl := []
      let s : State := ((pAwake base).setOn HIF_LNK_BME true).setFld (HIF_STAT_STATE n) 1
      let s : State := s.modRing n (fun z_ => { z_ with cq := c :: l })
      let s : State := s.setFld (HIF_STAT_STATE n) 1
      let s : State := ((s.setFld (HIF_CFG_CQSZ n) 4).setFld (HIF_CQP_CQHEAD n) 3).setFld (HIF_CQP_CQTAIL n) 15
      let s : State := s.modRing n (fun r => { r with cq := c :: l })
      ⟨n, c, l, s, by decide +kernel⟩),
   (
      let n : Fin 64 := 0
      let x : BitVec 56 := 0
      let s : State := base
      let s : State := s.modRing n (fun z_ => { z_ with since := some x })
      let s : State := s.setOn (HIF_CFG_IEN n) true
      let s : State := { (s.setFld (HIF_CFG_ITIME n) 5).modRing n (fun r => { r with since := some x }) with devtime := x + 500 }
      ⟨n, x, s, by decide +kernel⟩),
   (
      let v : Fin 64 := 0
      let o : Origin := .cp
      let s : State := (pServes base).setOn HIF_LNK_BME true
      let s : State := { ((s.setWord MSIX_PBA_LO 0xFFFFFFFF).setWord MSIX_PBA_HI 0xFFFFFFFF) with hif := { s.hif with cfg := { s.hif.cfg with msixOn := true, msixMask := false } } }
      ⟨v, o, s, by unfold State.serves; decide +kernel⟩)⟩

theorem witness_IdentifyAndSetLimits :
(∃ (d : Desc) (e : Desc) (s : State), s.adminReady ∧ d.withOpc 1 = e ∧ e.iaddr % 64 = 0 ∧ e ∉ s.hif.lost) ∧
(∃ (d : Desc) (a : List (List Desc)) (b : List (List Desc)) (s : State), s.firstReady [] s.hif.held = some (a, [d], b) ∧ d.opc =
      1 ∧ d.iaddr % 64 = 0 ∧ s.ringSt 0 = 1 ∧ d ∉ s.hif.lost) ∧
(∃ (ds : List Desc) (d : Desc) (l : List Desc) (s : State), s.adminReady ∧ (ds.map (fun x => x.withOpc 2) = d :: l) ∧ (((d ::
      l).flatMap (fun x => x.limRecs)).all LimRec.ok = true) ∧ ((((d :: l).flatMap (fun x => x.limRecs)).foldl mergeRec []).any
      s.limGuarded = false)) ∧
(∃ (d : Desc) (c : Nat) (m : Word) (w : Word) (r : List LimRec) (s : State), s.hif.limits = [⟨d, c, [(FC_BASE, m, w)], r⟩] ∧
      s.ringSt 0 = 1 ∧ d ∈ s.ring[(0 : Fin 64)].started ∧ d ∉ s.hif.lost) :=
  ⟨(
      let d : Desc := (let d : Desc := 0; d &&& ~~~ (63#256 <<< 64))
      let e : Desc := (d.withOpc 1)
      let s : State := pAdmin base
      ⟨d, e, s, by unfold State.adminReady; decide +kernel⟩),
   (
      let d : Desc := (let d : Desc := 0; (d &&& ~~~ (63#256 <<< 64)) &&& ~~~ 0xFF ||| 1)
      let a : List (List Desc) := []
      let b : List (List Desc) := []
      let s : State := base.setFld (HIF_STAT_STATE 0) 1
      let s : State := pAdmin s
      let s : State := { s with hif := { s.hif with held := [d] :: b } }
      ⟨d, a, b, s, by decide +kernel⟩),
   (
      let ds : List Desc := (let d : Desc := 0; let e : Desc := 0; let w : BitVec 16 := 0; [((d &&& 0xFFFFFFFFFFFFFFFF) ||| (0x7108#256 <<< 64) ||| (w.setWidth 256 <<< 96) ||| (d &&& (0xFFFFFFFF#256 <<< 128)))])
      let d : Desc := (ds.head!).withOpc 2
      let l : List Desc := (ds.tail).map (fun x => x.withOpc 2)
      let s : State := pAdmin base
      ⟨ds, d, l, s, by unfold State.adminReady; decide +kernel⟩),
   (
      let d : Desc := 0
      let c : Nat := 0
      let m : Word := 0
      let w : Word := ((0 : Word) &&& m)
      let r : List LimRec := []
      let s : State := base
      let s : State := { s with hif := { s.hif with limits := [⟨d, c, [(FC_BASE, m, w)], r⟩] } }
      let s : State := s.setFld (HIF_STAT_STATE 0) 1
      let s : State := (s.setFld (HIF_STAT_STATE 0) 1).modRing 0 (fun x => { x with started := [d] })
      ⟨d, c, m, w, r, s, by decide +kernel⟩)⟩

theorem witness_TelemetryAndDrain :
(∃ (s : State), s.awake = true ∧ s.fld HIF_TEL_TELPER ≠ 0) ∧
(∃ (d : Desc) (elems : List (BitVec 64)) (e : Desc) (s : State), s.adminReady ∧ d.withOpc 4 = e ∧ s.on HIF_LNK_BME = true ∧
      telBad [e] e = none ∧ s.hif.tel = none ∧ elemsFor elems (64 * e.nrec) = true ∧ e.telCapture = true) ∧
(∃ (d : Desc) (elems : List (BitVec 64)) (e : Desc) (s : State), s.adminReady ∧ d.withOpc 4 = e ∧ s.on HIF_LNK_BME = true ∧
      telBad [e] e = none ∧ s.hif.tel = none ∧ elemsFor elems (64 * e.nrec) = true ∧ e.telCapture = false ∧ e ∉ s.hif.lost ∧
      (s.hif.history.all (fun x => !x.bad) = true) ∧ (∀ x ∈ s.hif.history.head?, 0 ≤ (BitVec.ofNat 32 e.fromSeq - x.seq).toInt)) ∧
(∃ (r : TelRun) (a : Nat) (s : State), s.awake = true ∧ s.on HIF_LNK_BME = true ∧ s.hif.tel = some r ∧ r.d.telClass = 1 ∧
      elemAddr r.elems (64 * r.done) = some a ∧ r.done + 1 < r.d.nrec) ∧
(∃ (r : TelRun) (a : Nat) (s : State), s.awake = true ∧ s.on HIF_LNK_BME = true ∧ s.hif.tel = some r ∧ r.d.telClass = 1 ∧
      elemAddr r.elems (64 * r.done) = some a ∧ r.done + 1 = r.d.nrec ∧ s.ringSt 0 = 1 ∧ r.d ∈ s.ring[(0 : Fin 64)].started ∧
      r.d ∉ s.hif.lost) ∧
(∃ (d : Desc) (e : JEntry) (l : List JEntry) (s : State), s.adminReady ∧ s.on HIF_LNK_BME = true ∧ (d.withOpc 5).daddr % 32 = 0
      ∧ 1 ≤ (d.withOpc 5).maxn ∧ (d.withOpc 5).maxn ≤ 4096 ∧ s.hif.drain = none ∧ s.jnl.entries = e :: l ∧ (d.withOpc 5) ∉
      s.hif.lost) ∧
(∃ (d : Desc) (e : Desc) (s : State), s.adminReady ∧ d.withOpc 5 = e ∧ e.daddr % 32 = 0 ∧ 1 ≤ e.maxn ∧ e.maxn ≤ 4096 ∧
      s.hif.drain = none ∧ s.jnl.entries = [] ∧ e ∉ s.hif.lost) ∧
(∃ (r : Drain) (c : Compl) (cs : List Compl) (s : State), s.awake = true ∧ s.on HIF_LNK_BME = true ∧ s.ringSt 0 = 1 ∧
      s.recordWaits 0 = false ∧ (s.fld (HIF_CQP_CQTAIL 0) + 1) % s.cqSize 0 ≠ s.fld (HIF_CQP_CQHEAD 0) ∧ s.ring[(0 : Fin 64)].cq
      = c :: cs ∧ c.opc = 5 ∧ c.status = 0 ∧ c.unsolicited = false ∧ s.hif.drain = some r ∧ r.ahead = 0) :=
  ⟨(
      let s : State := pAwake base
      let s : State := (s.setFld HIF_TEL_TELPER 5).setFld HIF_TEL_CLASS 5
      ⟨s, by decide +kernel⟩),
   (
      let d : Desc := (let d : Desc := 0; (d &&& 0xFFFFFFFF) ||| (0x01010002#256 <<< 192))
      let elems : List (BitVec 64) := [0x10000FFF, 0x2000000000FFF]
      let e : Desc := (d.withOpc 4)
      let s : State := (pAdmin base).setOn HIF_LNK_BME true
      let s : State := { s with hif := { s.hif with tel := none } }
      ⟨d, elems, e, s, by unfold State.adminReady; decide +kernel⟩),
   (
      let d : Desc := (let d : Desc := 0; (d &&& 0xFFFFFFFF) ||| (0x00070002#256 <<< 192) ||| (0x7FFFFFF0#256 <<< 224))
      let elems : List (BitVec 64) := [0x10000FFF, 0x2000000000FFF]
      let e : Desc := (d.withOpc 4)
      let s : State := (pAdmin base).setOn HIF_LNK_BME true
      let s : State := { s with hif := { s.hif with tel := none } }
      let s : State := { s with hif := { s.hif with history := [⟨1, 0, 0x7FFFFFEF, [1], false⟩, ⟨2, 2, 0x7FFFFFF0, [2], false⟩, ⟨3, 1, 0x7FFFFFF1, [3], false⟩, ⟨4, 1, 0x7FFFFFF2, [3], false⟩] } }
      ⟨d, elems, e, s, by unfold State.adminReady; decide +kernel⟩),
   (
      let r : TelRun := (let d : Desc := 0; let b : Bool := false; let q : BitVec 32 := 0; ⟨(d &&& 0xFFFFFFFF) ||| (0x00010003#256 <<< 192), [0x10000FFF], 1, b, q⟩)
      let a : Nat := 0x10000000 + 64 * 1
      let s : State := (pAwake base).setOn HIF_LNK_BME true
      let s : State := { s with hif := { s.hif with tel := some r } }
      let s : State := { ((s.setOn HIF_LNK_BME true).setFld (HIF_STAT_STATE 0) 1).modRing 0 (fun x => { x with started := [r.d] }) with hif := { s.hif with tel := some r } }
      ⟨r, a, s, by decide +kernel⟩),
   (
      let r : TelRun := (let d : Desc := 0; let b : Bool := false; let q : BitVec 32 := 0; ⟨(d &&& 0xFFFFFFFF) ||| (0x00010003#256 <<< 192), [0x10000FFF], 2, b, q⟩)
      let a : Nat := 0x10000000 + 64 * 2
      let s : State := (pAwake base).setOn HIF_LNK_BME true
      let s : State := { s with hif := { s.hif with tel := some r } }
      let s : State := s.setFld (HIF_STAT_STATE 0) 1
      let s : State := { ((s.setOn HIF_LNK_BME true).setFld (HIF_STAT_STATE 0) 1).modRing 0 (fun x => { x with started := [r.d] }) with hif := { s.hif with tel := some r } }
      ⟨r, a, s, by decide +kernel⟩),
   (
      let d : Desc := (let d : Desc := 0; (d &&& 0xFFFFFFFF) ||| (0x12340020#256 <<< 64) ||| (2#256 <<< 128) ||| ((d &&& 1) <<< 144))
      let e : JEntry := zEntry
      let l : List JEntry := []
      let s : State := (pAdmin base).setOn HIF_LNK_BME true
      let s : State := { s with hif := { s.hif with drain := none } }
      let s : State := { s with jnl := { s.jnl with entries := e :: l } }
      ⟨d, e, l, s, by unfold State.adminReady; decide +kernel⟩),
   (
      let d : Desc := (let d : Desc := 0; (d &&& 0xFFFFFFFF) ||| (0x12340020#256 <<< 64) ||| (2#256 <<< 128) ||| ((d &&& 1) <<< 144))
      let e : Desc := (d.withOpc 5)
      let s : State := pAdmin base
      let s : State := { s with hif := { s.hif with drain := none } }
      let s : State := { s with jnl := { s.jnl with entries := [] } }
      ⟨d, e, s, by unfold State.adminReady; decide +kernel⟩),
   (
      let r : Drain := (let q : Word := 0; ⟨q, 2, 0⟩)
      let c : Compl := (let x : Compl := ⟨0, 0, 0, 0, 0, false, false⟩; { x with opc := 5, status := 0, unsolicited := false })
      let cs : List Compl := []
      let s : State := ((pAwake base).setOn HIF_LNK_BME true).setFld (HIF_STAT_STATE 0) 1
      let s : State := { s with hif := { s.hif with drain := some r } }
      let s : State := { (((s.setFld (HIF_CFG_CQSZ 0) 4).modRing 0 (fun x => { x with cq := c :: cs })).setFld (HIF_CQP_CQHEAD 0) 3).setFld (HIF_CQP_CQTAIL 0) 15 with jnl := { s.jnl with queue := [], entries := s.jnl.entries.zipIdx.map (fun p => { p.1 with seq := r.first + BitVec.ofNat 32 p.2 }) } }
      ⟨r, c, cs, s, by decide +kernel⟩)⟩

theorem witness_TwoWireTarget :
(∃ (s : State), s.twUp 0 = true ∧ s.pec = false ∧ s.heldAcc = []) ∧
(∃ (s : State), s.twUp 0 = true ∧ s.pec = true ∧ s.heldAcc = []) ∧
(∃ (ptr : BitVec 16) (a : Byte) (b : Byte) (c : Byte) (d : Byte) (row : RegRow) (s : State), s.twUp 0 = true ∧ s.pec = false ∧
      s.heldAcc = [] ∧ s.jnl.queue.length < 64 ∧ ptr.toNat % 4 = 0 ∧ findReg regTable ptr.toNat = some row ∧ row.writable = true
      ∧ (onAnvil ptr.toNat = true → s.anvilAnswers = true) ∧ s.flt.upset = none ∧ ptr.toNat ≠ SYS_LC ∧ ptr.toNat ≠ JNL_RDIDX ∧
      ptr.toNat ≠ JNL_REL ∧ s.ringBusy ptr.toNat (s.word ptr.toNat) (s.settleWord ptr.toNat (s.word ptr.toNat) (row.after
      (s.word ptr.toNat) (BitVec.ofNat 32 (a.toNat + 256 * b.toNat + 65536 * c.toNat + 16777216 * d.toNat)))) = false ∧
      ptr.toNat ≠ SYS_RST ∧ ptr.toNat ≠ PK_SHIP ∧ s.writeReason s.mOrigin ptr.toNat row (s.word ptr.toNat) (s.settleWord
      ptr.toNat (s.word ptr.toNat) (row.after (s.word ptr.toNat) (BitVec.ofNat 32 (a.toNat + 256 * b.toNat + 65536 * c.toNat +
      16777216 * d.toNat)))) (BitVec.ofNat 32 (a.toNat + 256 * b.toNat + 65536 * c.toNat + 16777216 * d.toNat)) = 0) ∧
(∃ (ptr : BitVec 16) (a : Byte) (b : Byte) (c : Byte) (d : Byte) (row : RegRow) (s : State), s.twUp 0 = true ∧ s.pec = false ∧
      s.heldAcc = [] ∧ s.jnl.queue.length < 64 ∧ ptr.toNat % 4 = 0 ∧ findReg regTable ptr.toNat = some row ∧ row.writable = true
      ∧ (onAnvil ptr.toNat = true → s.anvilAnswers = true) ∧ s.flt.upset = none ∧ ptr.toNat ≠ SYS_LC ∧ ptr.toNat ≠ JNL_RDIDX ∧
      ptr.toNat ≠ JNL_REL ∧ s.ringBusy ptr.toNat (s.word ptr.toNat) (s.settleWord ptr.toNat (s.word ptr.toNat) (row.after
      (s.word ptr.toNat) (BitVec.ofNat 32 (a.toNat + 256 * b.toNat + 65536 * c.toNat + 16777216 * d.toNat)))) = false ∧
      s.writeReason s.mOrigin ptr.toNat row (s.word ptr.toNat) (s.settleWord ptr.toNat (s.word ptr.toNat) (row.after (s.word
      ptr.toNat) (BitVec.ofNat 32 (a.toNat + 256 * b.toNat + 65536 * c.toNat + 16777216 * d.toNat)))) (BitVec.ofNat 32 (a.toNat
      + 256 * b.toNat + 65536 * c.toNat + 16777216 * d.toNat)) ≠ 0 ∧ ptr.toNat ≠ CHG_PLOAD) ∧
(∃ (l : List Byte) (s : State), s.twUp 0 = true ∧ s.pec = true ∧ s.heldAcc = [] ∧ 3 ≤ l.length ∧ l.length ≤ 64 - (l[0]!.toNat *
      256 + l[1]!.toNat) % 64 + 3 ∧ crc8 (s.mHead ++ s.mAddr :: l.dropLast) ≠ l.getLastD 0) ∧
(∃ (s : State), s.twUp 0 = true ∧ s.pec = false ∧ s.heldAcc = [] ∧ s.flt.upset = none ∧ s.mPtr % 4 = 0) :=
  ⟨(
      let s : State := base
      let s : State := { s with heldAcc := [] }
      let s : State := { (pAwake s) with sys := { (pAwake s).sys with strapsRead := true } }
      let s : State := s.setOn TW_M_CFG_PECEN false
      ⟨s, by decide +kernel⟩),
   (
      let s : State := base
      let s : State := { s with heldAcc := [] }
      let s : State := { (pAwake s) with sys := { (pAwake s).sys with strapsRead := true } }
      let s : State := s.setOn TW_M_CFG_PECEN true
      ⟨s, by decide +kernel⟩),
   (
      let ptr : BitVec 16 := 0x7000
      let a : Byte := 0
      let b : Byte := 0
      let c : Byte := 0
      let d : Byte := 0
      let row : RegRow := (findReg regTable ptr.toNat).getD ⟨0,0,0,0,0,false,[]⟩
      let s : State := base
      let s : State := { s with heldAcc := [] }
      let s : State := { s with flt := { s.flt with upset := none } }
      let s : State := { (pAwake s) with sys := { (pAwake s).sys with strapsRead := true } }
      let s : State := ((s.setOn SYS_MAINT_MAINT true).setOn AUTH_PRES_OPEN true).setOn JNL_CFG_POLICY false
      let s : State := s.setOn TW_M_CFG_PECEN false
      let s : State := { s with sys := { s.sys with anvilUp := true, d2d := true }, flt := { s.flt with upset := none }, heldAcc := [], jnl := { s.jnl with queue := [] } }
      ⟨ptr, a, b, c, d, row, s, by decide +kernel⟩),
   (
      let ptr : BitVec 16 := 0x7000
      let a : Byte := 255
      let b : Byte := 255
      let c : Byte := 255
      let d : Byte := 255
      let row : RegRow := (findReg regTable ptr.toNat).getD ⟨0,0,0,0,0,false,[]⟩
      let s : State := base
      let s : State := { s with heldAcc := [] }
      let s : State := { s with flt := { s.flt with upset := none } }
      let s : State := { (pAwake s) with sys := { (pAwake s).sys with strapsRead := true } }
      let s : State := ((s.setOn SYS_MAINT_MAINT false).setOn AUTH_PRES_OPEN false)
      let s : State := s.setOn TW_M_CFG_PECEN false
      let s : State := { s with sys := { s.sys with anvilUp := true, d2d := true }, flt := { s.flt with upset := none }, heldAcc := [], jnl := { s.jnl with queue := [] } }
      ⟨ptr, a, b, c, d, row, s, by decide +kernel⟩),
   (
      let l : List Byte := (let l : List Byte := []; 1 :: 0 :: 7 :: l)
      let s : State := base
      let s : State := { s with heldAcc := [] }
      let s : State := { (pAwake s) with sys := { (pAwake s).sys with strapsRead := true } }
      let s : State := s.setOn TW_M_CFG_PECEN true
      ⟨l, s, by decide +kernel⟩),
   (
      let s : State := base
      let s : State := { s with heldAcc := [] }
      let s : State := { s with flt := { s.flt with upset := none } }
      let s : State := { (pAwake s) with sys := { (pAwake s).sys with strapsRead := true } }
      let s : State := s.setOn TW_M_CFG_PECEN false
      let s : State := s.setFld TW_M_STAT_PTR (s.mPtr / 4 * 4)
      ⟨s, by decide +kernel⟩)⟩

theorem witness_TwoWireBus :
(∃ (p : Fin 3) (s : State), s.twUp p = true) ∧
(∃ (p : Fin 3) (s : State), s.twUp p = true) ∧
(∃ (p : Fin 3) (s : State), s.twUp p = true) ∧
(∃ (s : State), s.awake = true) ∧
(∃ (p : Fin 3) (s : State), s.twUp p = true ∧ s.tw[p].check = true ∧ (s.on (twHeld p) = false ∨ s.on (twClr p) = true) ∧ (p = 0
      ∨ s.packIn (twPack p) = true ∨ s.on (twClr p) = true)) ∧
(∃ (p : Fin 3) (s : State), s.twUp p = true ∧ s.tw[p].check = true ∧ (s.on (twHeld p) = false ∨ s.on (twClr p) = true) ∧ (p = 0
      ∨ s.packIn (twPack p) = true ∨ s.on (twClr p) = true)) ∧
(∃ (p : Fin 3) (o : Origin) (s : State), s.serves o ∧ s.on SYS_MAINT_MAINT = true ∧ s.present = true ∧ s.stalled = false ∧ s.on
      (twHeld p) = true) ∧
(∃ (o : Origin) (s : State), s.serves o ∧ s.on SYS_MAINT_MAINT = true ∧ s.present = true ∧ s.stalled = false) :=
  ⟨(
      let p : Fin 3 := 0
      let s : State := base
      let s : State := { (pAwake s) with sys := { (pAwake s).sys with strapsRead := true } }
      ⟨p, s, by decide +kernel⟩),
   (
      let p : Fin 3 := 0
      let s : State := base
      let s : State := { (pAwake s) with sys := { (pAwake s).sys with strapsRead := true } }
      ⟨p, s, by decide +kernel⟩),
   (
      let p : Fin 3 := 0
      let s : State := base
      let s : State := { (pAwake s) with sys := { (pAwake s).sys with strapsRead := true } }
      ⟨p, s, by decide +kernel⟩),
   (
      let s : State := pAwake base
      ⟨s, by decide +kernel⟩),
   (
      let p : Fin 3 := 0
      let s : State := base
      let s : State := s.modTw p (fun z_ => { z_ with check := true })
      let s : State := { (pAwake s) with sys := { (pAwake s).sys with strapsRead := true } }
      let s : State := (s.setOn (twHeld p) false).modTw p (fun x => { x with check := true })
      let s : State := s.setOn (PK_STAT_PRES (twPack p)) true
      ⟨p, s, by decide +kernel⟩),
   (
      let p : Fin 3 := 0
      let s : State := base
      let s : State := s.modTw p (fun z_ => { z_ with check := true })
      let s : State := { (pAwake s) with sys := { (pAwake s).sys with strapsRead := true } }
      let s : State := (s.setOn (twHeld p) false).modTw p (fun x => { x with check := true })
      let s : State := s.setOn (PK_STAT_PRES (twPack p)) true
      ⟨p, s, by decide +kernel⟩),
   (
      let p : Fin 3 := 0
      let o : Origin := .cp
      let s : State := ((((pServes base).setOn SYS_MAINT_MAINT true).setOn AUTH_PRES_OPEN true).setOn JNL_CFG_POLICY false).setOn (twHeld p) true
      ⟨p, o, s, by unfold State.serves; decide +kernel⟩),
   (
      let o : Origin := .cp
      let s : State := (((pServes base).setOn SYS_MAINT_MAINT true).setOn AUTH_PRES_OPEN true).setOn JNL_CFG_POLICY false
      ⟨o, s, by unfold State.serves; decide +kernel⟩)⟩

theorem witness_AlertsAndHostNotify :
(∃ (s : State), s.twUp 0 = true) ∧
(∃ (s : State), s.twUp 0 = true ∧ s.auth.held = false ∧ s.line 2 = false ∧ (BitVec.ofNat 16 (s.fld TW_M_ALERT_AMASK)).getLsbD 2
      = true) ∧
(∃ (s : State), s.twUp 0 = true ∧ s.on TW_M_ALERT_PEND = true) ∧
(∃ (s : State), s.twUp 0 = true ∧ s.tw[(0 : Fin 3)].hnPend = true ∧ s.tw[(0 : Fin 3)].busy = false ∧ s.tw[(0 : Fin 3)].check =
      false ∧ s.on TW_M_STAT_HELD = false ∧ s.tw[(0 : Fin 3)].hnFails = 0) ∧
(∃ (s : State), s.twUp 0 = true ∧ s.tw[(0 : Fin 3)].hnPend = true ∧ s.tw[(0 : Fin 3)].busy = false ∧ s.tw[(0 : Fin 3)].check =
      false ∧ s.on TW_M_STAT_HELD = false ∧ s.tw[(0 : Fin 3)].hnFails = 0) ∧
(∃ (s : State), s.twUp 0 = true ∧ s.tw[(0 : Fin 3)].hnPend = true ∧ s.tw[(0 : Fin 3)].busy = false ∧ s.tw[(0 : Fin 3)].check =
      false ∧ s.on TW_M_STAT_HELD = false ∧ (s.tw[(0 : Fin 3)].hnFails = 1 ∨ s.tw[(0 : Fin 3)].hnFails = 2) ∧ 100000 ≤
      (s.devtime - s.tw[(0 : Fin 3)].hnTry).toNat) ∧
(∃ (s : State), s.twUp 0 = true ∧ s.tw[(0 : Fin 3)].hnPend = true ∧ s.tw[(0 : Fin 3)].busy = false ∧ s.tw[(0 : Fin 3)].check =
      false ∧ s.on TW_M_STAT_HELD = false ∧ (s.tw[(0 : Fin 3)].hnFails = 1 ∨ s.tw[(0 : Fin 3)].hnFails = 2) ∧ 100000 ≤
      (s.devtime - s.tw[(0 : Fin 3)].hnTry).toNat) ∧
(∃ (s : State), s.twUp 0 = true ∧ s.tw[(0 : Fin 3)].hnPend = true ∧ 10000000 ≤ (s.devtime - s.tw[(0 : Fin 3)].hnAt).toNat) ∧
(∃ (s : State), s.twUp 0 = true ∧ s.tw[(0 : Fin 3)].hnPend = true) ∧
(∃ (p : Fin 3) (s : State), s.twUp p = true ∧ p ≠ 0) :=
  ⟨(
      let s : State := base
      let s : State := { (pAwake s) with sys := { (pAwake s).sys with strapsRead := true } }
      let s : State := s.modTw 0 (fun x => { x with dueAlert := true, dueNotify := true })
      ⟨s, by decide +kernel⟩),
   (
      let s : State := base
      let s : State := { s with auth := { s.auth with held := false } }
      let s : State := { (pAwake s) with sys := { (pAwake s).sys with strapsRead := true } }
      let s : State := ((((s.setWord JNL_EVT 0).setFld TW_M_ALERT_AMASK 0xFFF4).setOn AUTH_PRES_OPEN false).setFld TW_M_ALERT_ALMODE 3).setOn TW_M_ALERT_PEND false
      ⟨s, by decide +kernel⟩),
   (
      let s : State := base.setOn TW_M_ALERT_PEND true
      let s : State := { (pAwake s) with sys := { (pAwake s).sys with strapsRead := true } }
      ⟨s, by decide +kernel⟩),
   (
      let s : State := base.setOn TW_M_STAT_HELD false
      let s : State := { (pAwake s) with sys := { (pAwake s).sys with strapsRead := true } }
      let s : State := (s.setOn TW_M_STAT_HELD false).modTw 0 (fun x => { x with hnPend := true, busy := false, check := false, hnFails := 0, hnTry := s.devtime - 200000, hnAt := s.devtime - 20000000 })
      ⟨s, by decide +kernel⟩),
   (
      let s : State := base.setOn TW_M_STAT_HELD false
      let s : State := { (pAwake s) with sys := { (pAwake s).sys with strapsRead := true } }
      let s : State := (s.setOn TW_M_STAT_HELD false).modTw 0 (fun x => { x with hnPend := true, busy := false, check := false, hnFails := 0, hnTry := s.devtime - 200000, hnAt := s.devtime - 20000000 })
      ⟨s, by decide +kernel⟩),
   (
      let s : State := base.setOn TW_M_STAT_HELD false
      let s : State := { (pAwake s) with sys := { (pAwake s).sys with strapsRead := true } }
      let s : State := (s.setOn TW_M_STAT_HELD false).modTw 0 (fun x => { x with hnPend := true, busy := false, check := false, hnFails := 1, hnTry := s.devtime - 200000, hnAt := s.devtime - 20000000 })
      ⟨s, by decide +kernel⟩),
   (
      let s : State := base.setOn TW_M_STAT_HELD false
      let s : State := { (pAwake s) with sys := { (pAwake s).sys with strapsRead := true } }
      let s : State := (s.setOn TW_M_STAT_HELD false).modTw 0 (fun x => { x with hnPend := true, busy := false, check := false, hnFails := 2, hnTry := s.devtime - 200000, hnAt := s.devtime - 20000000 })
      ⟨s, by decide +kernel⟩),
   (
      let s : State := base
      let s : State := { (pAwake s) with sys := { (pAwake s).sys with strapsRead := true } }
      let s : State := (s.setOn TW_M_STAT_HELD false).modTw 0 (fun x => { x with hnPend := true, busy := false, check := false, hnFails := 2, hnTry := s.devtime - 200000, hnAt := s.devtime - 20000000 })
      ⟨s, by decide +kernel⟩),
   (
      let s : State := base
      let s : State := { (pAwake s) with sys := { (pAwake s).sys with strapsRead := true } }
      let s : State := (s.setOn TW_M_STAT_HELD false).modTw 0 (fun x => { x with hnPend := true, busy := false, check := false, hnFails := 2, hnTry := s.devtime - 200000, hnAt := s.devtime - 20000000 })
      ⟨s, by decide +kernel⟩),
   (
      let p : Fin 3 := 1
      let s : State := base
      let s : State := { (pAwake s) with sys := { (pAwake s).sys with strapsRead := true } }
      ⟨p, s, by decide +kernel⟩)⟩

theorem witness_ComparatorEvents :
(∃ (g : Fin 2) (x : Int) (w : Nat) (s : State), s.awake = true ∧ s.cmpHeld (46 + g.val) true = false ∧ 25 * s.fld
      (CMP_CFG_EVFILT (46 + g.val)) ≤ w ∧ ((s.thr (46 + g.val)).2 : Int) < x ∧ s.fld (CMP_STAT_HISTATE (46 + g.val)) = 0) ∧
(∃ (g : Fin 2) (x : Int) (w : Nat) (s : State), s.awake = true ∧ s.cmpHeld (46 + g.val) true = false ∧ s.cmpHeld (46 + g.val)
      false = false ∧ 25 * s.fld (CMP_CFG_EVFILT (46 + g.val)) ≤ w ∧ ((s.thr (46 + g.val)).1 : Int) + s.cmpHys (46 + g.val) ≤ x
      ∧ x + s.cmpHys (46 + g.val) ≤ (s.thr (46 + g.val)).2) ∧
(∃ (w : Nat) (s : State), s.awake = true ∧ s.cmpHeld 28 false = false ∧ 25 * s.fld (CMP_CFG_EVFILT 28) ≤ w) ∧
(∃ (w : Nat) (s : State), s.awake = true ∧ s.cmpHeld 45 false = false ∧ 25 * s.fld (CMP_CFG_EVFILT 45) ≤ w) ∧
(∃ (w : Nat) (s : State), s.awake = true ∧ s.cmpHeld 45 true = false ∧ 25 * s.fld (CMP_CFG_EVFILT 45) ≤ w) ∧
(∃ (c : Fin 48) (s : State), c.val < 46 ∧ 100 ≤ (s.devtime - s.cmp[c].blankAt).toNat) ∧
(∃ (c : Fin 48) (x : Int) (s : State), 24 ≤ c.val ∧ c.val < 46 ∧ 100 ≤ (s.devtime - s.cmp[c].blankAt).toNat ∧ s.on
      (CMP_STAT_BLANK c) = true ∧ s.cmp[c].settle = none ∧ ((s.thr c).2 : Int) < x ∧ s.fld (CMP_STAT_HISTATE c) = 0) :=
  ⟨(
      let g : Fin 2 := 0
      let x : Int := 2000
      let w : Nat := 100000
      let s : State := pAwake base
      let s : State := (s.setOn (CMP_STAT_BLANK (46 + g.val)) false).modCmp (Fin.ofNat 48 (46 + g.val)) (fun m => { m with settle := none })
      let s : State := s.setFld (CMP_STAT_HISTATE (46 + g.val)) (0)
      ⟨g, x, w, s, by decide +kernel⟩),
   (
      let g : Fin 2 := 0
      let x : Int := 500
      let w : Nat := 100000
      let s : State := pAwake base
      let s : State := (s.setOn (CMP_STAT_BLANK (46 + g.val)) false).modCmp (Fin.ofNat 48 (46 + g.val)) (fun m => { m with settle := none })
      let s : State := (s.setOn (CMP_STAT_BLANK (46 + g.val)) false).modCmp (Fin.ofNat 48 (46 + g.val)) (fun m => { m with settle := none })
      let s : State := (s.setFld (CMP_THR_UPPER (46 + g.val)) 900).setFld (CMP_THR_LOWER (46 + g.val)) 100
      ⟨g, x, w, s, by decide +kernel⟩),
   (
      let w : Nat := 100000
      let s : State := pAwake base
      let s : State := (s.setOn (CMP_STAT_BLANK 28) false).modCmp (Fin.ofNat 48 28) (fun m => { m with settle := none })
      ⟨w, s, by decide +kernel⟩),
   (
      let w : Nat := 100000
      let s : State := pAwake base
      let s : State := (s.setOn (CMP_STAT_BLANK 45) false).modCmp (Fin.ofNat 48 45) (fun m => { m with settle := none })
      ⟨w, s, by decide +kernel⟩),
   (
      let w : Nat := 100000
      let s : State := pAwake base
      let s : State := (s.setOn (CMP_STAT_BLANK 45) false).modCmp (Fin.ofNat 48 45) (fun m => { m with settle := none })
      ⟨w, s, by decide +kernel⟩),
   (
      let c : Fin 48 := 0
      let s : State := base
      let s : State := s.modCmp c (fun h => { h with blankAt := s.devtime - 100 })
      ⟨c, s, by decide +kernel⟩),
   (
      let c : Fin 48 := 30
      let x : Int := 2000
      let s : State := base.setOn (CMP_STAT_BLANK c) true
      let s : State := s.modCmp c (fun z_ => { z_ with settle := none })
      let s : State := s.setFld (CMP_STAT_HISTATE c) (0)
      let s : State := s.modCmp c (fun h => { h with blankAt := s.devtime - 100 })
      ⟨c, x, s, by decide +kernel⟩)⟩

theorem witness_ComparatorAutoZero :
(∃ (c : Fin 48) (trim : Int) (x : Int) (s : State), s.awake = true ∧ s.on (CMP_STAT_LIVE c) = false ∧ -31 < trim ∧ trim < 31 ∧
      (trim - s.sfld (CMP_STAT_TRIMB c)).natAbs ≤ 4 ∧ s.on (CMP_STAT_BLANK c) = false ∧ s.cmp[c].settle = none ∧ ((s.modCmp c
      (fun m => { m with x := some x })).cmpAgrees c = true)) ∧
(∃ (c : Fin 48) (trim : Int) (x : Int) (s : State), s.awake = true ∧ s.on (CMP_STAT_LIVE c) = false ∧ -31 < trim ∧ trim < 31 ∧
      (trim - s.sfld (CMP_STAT_TRIMB c)).natAbs ≤ 4 ∧ (s.on (CMP_STAT_BLANK c) = true ∨ s.cmp[c].settle.isSome = true ∨
      (s.modCmp c (fun m => { m with x := some x })).cmpAgrees c = false)) ∧
(∃ (c : Fin 48) (trim : Int) (s : State), s.awake = true ∧ s.on (CMP_STAT_LIVE c) = false ∧ (trim ≤ -31 ∨ 31 ≤ trim ∨ 4 < (trim
      - s.sfld (CMP_STAT_TRIMB c)).natAbs)) ∧
(∃ (c : Fin 48) (trim : Int) (x : Int) (s : State), s.awake = true ∧ s.on (CMP_STAT_LIVE c) = true ∧ -31 < trim ∧ trim < 31 ∧
      (trim - s.sfld (CMP_STAT_TRIMA c)).natAbs ≤ 4 ∧ s.on (CMP_STAT_BLANK c) = false ∧ s.cmp[c].settle = none ∧ ((s.modCmp c
      (fun m => { m with x := some x })).cmpAgrees c = true)) ∧
(∃ (c : Fin 48) (trim : Int) (x : Int) (s : State), s.awake = true ∧ s.on (CMP_STAT_LIVE c) = true ∧ -31 < trim ∧ trim < 31 ∧
      (trim - s.sfld (CMP_STAT_TRIMA c)).natAbs ≤ 4 ∧ (s.on (CMP_STAT_BLANK c) = true ∨ s.cmp[c].settle.isSome = true ∨
      (s.modCmp c (fun m => { m with x := some x })).cmpAgrees c = false)) ∧
(∃ (c : Fin 48) (trim : Int) (s : State), s.awake = true ∧ s.on (CMP_STAT_LIVE c) = true ∧ (trim ≤ -31 ∨ 31 ≤ trim ∨ 4 < (trim -
      s.sfld (CMP_STAT_TRIMA c)).natAbs)) :=
  ⟨(
      let c : Fin 48 := 0
      let trim : Int := 3
      let x : Int := 0
      let s : State := ((pAwake base).setOn (CMP_STAT_LIVE c) false).setOn (CMP_STAT_BLANK c) false
      let s : State := s.modCmp c (fun z_ => { z_ with settle := none })
      let s : State := (s.setFld (CMP_STAT_TRIMB c) 1).modCmp c (fun m => { m with settle := none })
      let s : State := ((s.setFld (CMP_STAT_HISTATE c) (cmpNext (s.cmpHys c) 0 (x - (s.thr c).2))).setFld (CMP_STAT_LOSTATE c) (cmpNext (s.cmpHys c) 0 ((s.thr c).1 - x)))
      ⟨c, trim, x, s, by decide +kernel⟩),
   (
      let c : Fin 48 := 0
      let trim : Int := 3
      let x : Int := 0
      let s : State := (pAwake base).setOn (CMP_STAT_LIVE c) false
      let s : State := (s.setFld (CMP_STAT_TRIMB c) 1).setOn (CMP_STAT_BLANK c) true
      ⟨c, trim, x, s, by decide +kernel⟩),
   (
      let c : Fin 48 := 0
      let trim : Int := -31
      let s : State := (pAwake base).setOn (CMP_STAT_LIVE c) false
      let s : State := s.modCmp c (fun h => { h with failB := 2 })
      let s : State := s.setFld (CMP_STAT_TRIMB c) 30
      ⟨c, trim, s, by decide +kernel⟩),
   (
      let c : Fin 48 := 0
      let trim : Int := 3
      let x : Int := 0
      let s : State := ((pAwake base).setOn (CMP_STAT_LIVE c) true).setOn (CMP_STAT_BLANK c) false
      let s : State := s.modCmp c (fun z_ => { z_ with settle := none })
      let s : State := (s.setFld (CMP_STAT_TRIMA c) 1).modCmp c (fun m => { m with settle := none })
      let s : State := ((s.setFld (CMP_STAT_HISTATE c) (cmpNext (s.cmpHys c) 0 (x - (s.thr c).2))).setFld (CMP_STAT_LOSTATE c) (cmpNext (s.cmpHys c) 0 ((s.thr c).1 - x)))
      ⟨c, trim, x, s, by decide +kernel⟩),
   (
      let c : Fin 48 := 0
      let trim : Int := 3
      let x : Int := 0
      let s : State := (pAwake base).setOn (CMP_STAT_LIVE c) true
      let s : State := (s.setFld (CMP_STAT_TRIMA c) 1).setOn (CMP_STAT_BLANK c) true
      ⟨c, trim, x, s, by decide +kernel⟩),
   (
      let c : Fin 48 := 0
      let trim : Int := -31
      let s : State := (pAwake base).setOn (CMP_STAT_LIVE c) true
      let s : State := s.modCmp c (fun h => { h with failA := 2 })
      let s : State := s.setFld (CMP_STAT_TRIMA c) 30
      ⟨c, trim, s, by decide +kernel⟩)⟩

theorem witness_ConversionPasses :
(∃ (u : Rat) (s : State), s.awake = true ∧ s.sys.d2d = true ∧ s.adc[(0 : Fin 2)].passEnd ≤ u ∧ s.adc[(0 : Fin 2)].passFrom ≤ u) ∧
(∃ (u : Rat) (s : State), s.awake = true ∧ s.sys.d2d = true ∧ u < s.adc[(0 : Fin 2)].passFrom) ∧
(∃ (u : Rat) (s : State), s.awake = true ∧ s.sys.d2d = true ∧ s.adc[(1 : Fin 2)].passEnd ≤ u ∧ s.adc[(1 : Fin 2)].passFrom ≤ u) ∧
(∃ (u : Rat) (s : State), s.awake = true ∧ s.sys.d2d = true ∧ u < s.adc[(1 : Fin 2)].passFrom) ∧
(∃ (u : Rat) (ch : Nat) (smp : Nat) (s : State), s.awake = true ∧ s.sys.d2d = true ∧ s.adc[(0 : Fin 2)].passEnd ≤ u ∧ s.adc[(0 :
      Fin 2)].passFrom ≤ u ∧ (s.dueNow 0 ((s.fld (ADC_STAT_PASS 0) + 1) % 65536)).getLsbD 0 = true ∧ s.entryAt 0 0 = ⟨ch, false,
      false, smp⟩ ∧ ch < 31) ∧
(∃ (j : Fin 2) (n : Fin 16) (s : State), s.awake = true ∧ s.sys.d2d = true ∧ s.nextAmp j = some n ∧ (s.adc[(0 : Fin
      2)].sysRun.all (fun z => decide (2 ≤ z.k.val)) = true)) ∧
(∃ (j : Fin 2) (r : Sounding) (s : State), s.awake = true ∧ s.sys.d2d = true ∧ s.chg[j].snd = some r ∧ (s.adc[(1 : Fin
      2)].sysRun.all (fun z => decide (2 ≤ z.k.val)) = true)) ∧
(∃ (x : Fin 2) (k : Fin 4) (s : State), s.awake = true ∧ s.sys.d2d = true ∧ 2 ≤ k.val ∧ k ∈ s.adc[x].inj ∧ s.on (ADC_INJ_A_EN x
      k) = true) :=
  ⟨(
      let u : Rat := 0
      let s : State := pAwake base
      let s : State := { s with sys := { s.sys with d2d := true } }
      let s : State := s.modAdc (0 : Fin 2) (fun h => { h with passEnd := u, passFrom := u - 5 })
      ⟨u, s, by decide +kernel⟩),
   (
      let u : Rat := 0
      let s : State := pAwake base
      let s : State := { s with sys := { s.sys with d2d := true } }
      let s : State := s.modAdc (0 : Fin 2) (fun h => { h with passFrom := u + 5 })
      ⟨u, s, by decide +kernel⟩),
   (
      let u : Rat := 0
      let s : State := pAwake base
      let s : State := { s with sys := { s.sys with d2d := true } }
      let s : State := s.modAdc (1 : Fin 2) (fun h => { h with passEnd := u, passFrom := u - 5 })
      ⟨u, s, by decide +kernel⟩),
   (
      let u : Rat := 0
      let s : State := pAwake base
      let s : State := { s with sys := { s.sys with d2d := true } }
      let s : State := s.modAdc (1 : Fin 2) (fun h => { h with passFrom := u + 5 })
      ⟨u, s, by decide +kernel⟩),
   (
      let u : Rat := 0
      let ch : Nat := 14
      let smp : Nat := 5
      let s : State := pAwake base
      let s : State := { s with sys := { s.sys with d2d := true } }
      let s : State := (s.modAdc 0 (fun h => { h with passEnd := u, passFrom := u - 5, armed := -1 })).setWord (ADC_SEQ_A 0 0) 0x800E0005
      let s : State := (s.setOn (ADC_SEQ_A_EN 0 0) true).setFld (ADC_SEQ_B_DIV 0 0) 1
      ⟨u, ch, smp, s, by decide +kernel⟩),
   (
      let j : Fin 2 := 1
      let n : Fin 16 := 3
      let s : State := pAwake base
      let s : State := { s with sys := { s.sys with d2d := true } }
      let s : State := (((s.setFld (PH_CFG_PORT 3) 1).setFld SYS_STRAP_PHCNT 16).setFld (PH_STAT_STATE 3) 4).each ((List.finRange 16).filter (· != 3)) (fun t m => t.setFld (PH_STAT_STATE m) 2)
      let s : State := s.modAdc 0 (fun z => { z with sysRun := none })
      ⟨j, n, s, by decide +kernel⟩),
   (
      let j : Fin 2 := 0
      let r : Sounding := ⟨0, 0, 1, false, false, false, 0, LockIn.zero⟩
      let s : State := pAwake base
      let s : State := { s with sys := { s.sys with d2d := true } }
      let s : State := s.modChg j (fun z_ => { z_ with snd := some r })
      let s : State := s.modAdc 1 (fun z => { z with sysRun := none })
      ⟨j, r, s, by decide +kernel⟩),
   (
      let x : Fin 2 := 0
      let k : Fin 4 := 3
      let s : State := pAwake base
      let s : State := { s with sys := { s.sys with d2d := true } }
      let s : State := s.setOn (ADC_INJ_A_EN x k) true
      let s : State := s.modAdc x (fun h => { h with inj := [3, 2] })
      ⟨x, k, s, by decide +kernel⟩)⟩

theorem witness_References :
(∃ (r : Fin 3) (s : State), s.on (refBit r) = true) ∧
(∃ (o : Origin) (s : State), s.serves o ∧ s.on SYS_MAINT_MAINT = true ∧ s.present = true ∧ s.stalled = false ∧ s.anvilAnswers =
      true) ∧
(∃ (s : State), s.awake = true ∧ s.sys.d2d = true) :=
  ⟨(
      let r : Fin 3 := 0
      let s : State := ((base.setOn (refBit r) true).setFld (ADC_STAT_REFUSE 1) r.val).setOn (refBit r) true
      ⟨r, s, by decide +kernel⟩),
   (
      let o : Origin := .cp
      let s : State := (((pServes base).setOn SYS_MAINT_MAINT true).setOn AUTH_PRES_OPEN true).setOn JNL_CFG_POLICY false
      let s : State := { s with sys := { s.sys with anvilUp := true, d2d := true } }
      ⟨o, s, by unfold State.serves; decide +kernel⟩),
   (
      let s : State := pAwake base
      let s : State := { s with sys := { s.sys with d2d := true } }
      ⟨s, by decide +kernel⟩)⟩

theorem witness_Temperatures :
(∃ (s : State), s.awake = true ∧ s.anvilRead = true) ∧
(∃ (s : State), s.awake = true ∧ s.anvilRead = false) ∧
(∃ (s : State), s.powered = true ∧ s.sys.d2d = true) ∧
(∃ (s : State), s.powered = true ∧ s.sys.d2d = false) ∧
(∃ (n : Fin 16) (v : Rat) (s : State), s.awake = true ∧ s.meas.tseen.getLsbD n = true ∧ s.meas.tflt[n] = v ∧ 28 / 100 ≤ v ∧ v ≤
      12 / 5) ∧
(∃ (n : Fin 16) (v : Rat) (s : State), s.awake = true ∧ s.meas.tseen.getLsbD n = true ∧ s.meas.tflt[n] = v ∧ v < 28 / 100) ∧
(∃ (k : Fin 2) (s : State), s.capped k = true ∧ s.capHot k = true ∧ 1000000 ≤ (s.devtime - s.php[k].ncapAt).toNat ∧ 1 < min
      (s.fld (PHP_SHED_NMAX k)) s.php[k].ncap) ∧
(∃ (k : Fin 2) (s : State), s.capped k = true ∧ s.capHot k = false) ∧
(∃ (k : Fin 2) (s : State), s.capped k = false ∧ 10000000 ≤ (s.devtime - s.php[k].ncapAt).toNat) ∧
(∃ (x : Rat) (s : State), s.awake = true ∧ s.compTemp 0 = some x ∧ 2 - 2 ^ (THM_COMP_BG.width - 1) ≤ s.sfld THM_COMP_BG ∧ s.sfld
      THM_COMP_BG + 2 < 2 ^ (THM_COMP_BG.width - 1)) ∧
(∃ (x : Rat) (s : State), s.awake = true ∧ s.compTemp 1 = some x ∧ s.on SYS_STRAP_XOSEL = false ∧ 1 - 2 ^ (THM_COMP_REF.width -
      1) ≤ s.sfld THM_COMP_REF ∧ s.sfld THM_COMP_REF + 1 < 2 ^ (THM_COMP_REF.width - 1)) ∧
(∃ (x : Rat) (s : State), s.awake = true ∧ s.compTemp 2 = some x ∧ 1 - 2 ^ (THM_COMP_SAFE.width - 1) ≤ s.sfld THM_COMP_SAFE ∧
      s.sfld THM_COMP_SAFE + 1 < 2 ^ (THM_COMP_SAFE.width - 1)) ∧
(∃ (x : Rat) (s : State), s.awake = true ∧ s.compTemp 3 = some x) ∧
(∃ (q : Fin 4) (s : State), s.awake = true ∧ s.compTemp q = none) :=
  ⟨(
      let s : State := pAwake base
      let s : State := { s with meas := { s.meas with seen := -1 } }
      ⟨s, by decide +kernel⟩),
   (
      let s : State := pAwake base
      let s : State := { s with meas := { s.meas with seen := 0 } }
      ⟨s, by decide +kernel⟩),
   (
      let s : State := pPowered base
      let s : State := { s with sys := { s.sys with d2d := true } }
      ⟨s, by decide +kernel⟩),
   (
      let s : State := pPowered base
      let s : State := { s with sys := { s.sys with d2d := false } }
      ⟨s, by decide +kernel⟩),
   (
      let n : Fin 16 := 0
      let v : Rat := (((1 + 40 : Nat) : Rat) / 100)
      let s : State := pAwake base
      let s : State := { s with meas := { s.meas with tflt := s.meas.tflt.set n v, tseen := -1 } }
      ⟨n, v, s, by decide +kernel⟩),
   (
      let n : Fin 16 := 0
      let v : Rat := (1 / 10)
      let s : State := pAwake base
      let s : State := { s with meas := { s.meas with tflt := s.meas.tflt.set n v, tseen := -1 } }
      ⟨n, v, s, by decide +kernel⟩),
   (
      let k : Fin 2 := 0
      let s : State := base
      let s : State := (((((((s.setFld (PH_STAT_TSTAGE 3) 127).setFld THM_STG_TSTG2 100).setFld (PH_CFG_PORT 3) k.val).setFld SYS_STRAP_PHCNT 16).setFld (PH_STAT_STATE 3) 4).setFld (PHP_SHED_NMAX k) 7).modPhp k (fun p => { p with ncap := 6, ncapAt := s.devtime - 1000000 }))
      let s : State := { s with thm := { s.thm with cap := 8 } }
      ⟨k, s, by decide +kernel⟩),
   (
      let k : Fin 2 := 0
      let s : State := base
      let s : State := s.each (List.finRange 16) (fun t i => t.setFld (PH_STAT_TSTAGE i.val) 20)
      let s : State := { ((((s.setFld (PH_CFG_PORT 3) k.val).setFld SYS_STRAP_PHCNT 16).setFld (PH_STAT_STATE 3) 4).setFld THM_STG_TSTG2 100) with thm := { s.thm with cap := 8 } }
      ⟨k, s, by decide +kernel⟩),
   (
      let k : Fin 2 := 0
      let s : State := base
      let s : State := ({ s with thm := { s.thm with cap := 0 } }).modPhp k (fun p => { p with ncapAt := s.devtime - 10000000 })
      ⟨k, s, by decide +kernel⟩),
   (
      let x : Rat := (0 : Rat)
      let s : State := pAwake base
      let s : State := ((s.setFld THM_COMP_BG 0).setFld (THM_TS_STATE 0) 0).setFld (THM_TS_T 0) 0
      ⟨x, s, by decide +kernel⟩),
   (
      let x : Rat := (0 : Rat)
      let s : State := (pAwake base).setOn SYS_STRAP_XOSEL false
      let s : State := ((s.setFld THM_COMP_REF 0).setFld (THM_TS_STATE 2) 0).setFld (THM_TS_T 2) 0
      ⟨x, s, by decide +kernel⟩),
   (
      let x : Rat := (0 : Rat)
      let s : State := pAwake base
      let s : State := ((s.setFld THM_COMP_SAFE 0).setFld (THM_TS_STATE 4) 0).setFld (THM_TS_T 4) 0
      ⟨x, s, by decide +kernel⟩),
   (
      let x : Rat := (0 : Rat)
      let s : State := pAwake base
      let s : State := (s.setFld (THM_TS_STATE 2) 0).setFld (THM_TS_T 2) 0
      ⟨x, s, by decide +kernel⟩),
   (
      let q : Fin 4 := 0
      let s : State := pAwake base
      let s : State := s.each (List.finRange 9) (fun t i => t.setFld (THM_TS_STATE i) 2)
      ⟨q, s, by decide +kernel⟩)⟩

theorem witness_TimerCounting :
(∃ (n : Fin 8) (s : State), s.awake = true ∧ s.on (TMR_CTL_EN n) = true ∧ s.fld (TMR_CTL_SMODE n) = 0 ∧ (s.on (TMR_CTL_FREEZE n)
      && s.flt.halted) = false) ∧
(∃ (n : Fin 8) (s : State), s.awake = true ∧ edgeGiven n (s.fld (TMR_CTL_TRGSEL n)) s.tmr[n].edge = true ∧ s.fld (TMR_CTL_SMODE
      n) = 2) ∧
(∃ (n : Fin 8) (s : State), s.awake = true ∧ edgeGiven n (s.fld (TMR_CTL_TRGSEL n)) s.tmr[n].edge = true ∧ s.fld (TMR_CTL_SMODE
      n) = 3 ∧ s.on (TMR_CTL_EN n) = false) ∧
(∃ (n : Fin 8) (s : State), s.awake = true ∧ edgeGiven n (s.fld (TMR_CTL_TRGSEL n)) s.tmr[n].edge = true ∧ s.fld (TMR_CTL_SMODE
      n) = 4 ∧ s.on (TMR_CTL_EN n) = true ∧ s.on (TMR_CTL_FREEZE n) = false ∧ s.tmr[n].ext + 1 < 2 ^ s.tmr[n].psc) :=
  ⟨(
      let n : Fin 8 := 0
      let s : State := ((pAwake base).setOn (TMR_CTL_EN n) true).setFld (TMR_CTL_SMODE n) (0)
      let s : State := (s.setOn (TMR_CTL_FREEZE n) false)
      ⟨n, s, by decide +kernel⟩),
   (
      let n : Fin 8 := 0
      let s : State := (pAwake base).setFld (TMR_CTL_SMODE n) (2)
      let s : State := (s.setFld (TMR_CTL_TRGSEL n) 9).modTmr n (fun x => { x with edge := some 9 })
      ⟨n, s, by decide +kernel⟩),
   (
      let n : Fin 8 := 0
      let s : State := ((pAwake base).setFld (TMR_CTL_SMODE n) (3)).setOn (TMR_CTL_EN n) false
      let s : State := (s.setFld (TMR_CTL_TRGSEL n) 9).modTmr n (fun x => { x with edge := some 9 })
      ⟨n, s, by decide +kernel⟩),
   (
      let n : Fin 8 := 0
      let s : State := (((pAwake base).setFld (TMR_CTL_SMODE n) (4)).setOn (TMR_CTL_EN n) true).setOn (TMR_CTL_FREEZE n) false
      let s : State := (s.setFld (TMR_CTL_TRGSEL n) 9).setFld (TMR_CTL_PSC n) 15
      let s : State := s.modTmr n (fun x => { x with ext := x.ext % 30000, psc := 15, edge := some 9 })
      ⟨n, s, by decide +kernel⟩)⟩

theorem witness_TimerRegisters :
(∃ (n : Fin 8) (c : Fin 4) (s : State), s.awake = true ∧ s.chMode n c = 2 ∧ edgeGiven n (s.capSel n c) s.tmr[n].capEdge[c] =
      true) ∧
(∃ (n : Fin 8) (c : Fin 4) (o : Origin) (v : Word) (q : List Word) (s : State), s.reachable o = true ∧ s.chMode n c = 2 ∧
      s.tmr[n].cap[c] = v :: q) ∧
(∃ (n : Fin 8) (c : Fin 4) (o : Origin) (s : State), s.serves o ∧ s.on SYS_MAINT_MAINT = true ∧ s.present = true ∧ s.stalled =
      false ∧ s.chMode n c = 1) ∧
(∃ (n : Fin 8) (c : Fin 4) (o : Origin) (s : State), s.serves o ∧ s.on SYS_MAINT_MAINT = true ∧ s.present = true ∧ s.stalled =
      false ∧ s.chMode n c = 2) ∧
(∃ (n : Fin 8) (o : Origin) (s : State), s.serves o ∧ s.on SYS_MAINT_MAINT = true ∧ s.present = true ∧ s.stalled = false ∧ s.on
      (TMR_CTL_EN n) = false) ∧
(∃ (s : State), s.powered = true ∧ s.devtime = BitVec.allOnes 56) ∧
(∃ (s : State), (s.lifecycle = 0 ∨ s.lifecycle = 3)) ∧
(∃ (s : State), (s.lifecycle = 1 ∨ s.lifecycle = 2)) :=
  ⟨(
      let n : Fin 8 := 0
      let c : Fin 4 := 0
      let s : State := (pAwake base).setWord (TMR_CCM n) 0x26262626
      let s : State := s.modTmr n (fun x => { x with capEdge := vmod x.capEdge c (fun _ => some (s.capSel n c)) })
      ⟨n, c, s, by decide +kernel⟩),
   (
      let n : Fin 8 := 0
      let c : Fin 4 := 0
      let o : Origin := .cp
      let v : Word := 0
      let q : List Word := []
      let s : State := base
      let s : State := pServes (s.setWord (TMR_CCM n) 0x26262626)
      let s : State := s.modTmr n (fun x => { x with cap := vmod x.cap c (fun _ => v :: q) })
      ⟨n, c, o, v, q, s, by decide +kernel⟩),
   (
      let n : Fin 8 := 0
      let c : Fin 4 := 0
      let o : Origin := .cp
      let s : State := ((((pServes base).setOn SYS_MAINT_MAINT true).setOn AUTH_PRES_OPEN true).setOn JNL_CFG_POLICY false).setWord (TMR_CCM n) 0x01010101
      ⟨n, c, o, s, by unfold State.serves; decide +kernel⟩),
   (
      let n : Fin 8 := 0
      let c : Fin 4 := 0
      let o : Origin := .cp
      let s : State := ((((pServes base).setOn SYS_MAINT_MAINT true).setOn AUTH_PRES_OPEN true).setOn JNL_CFG_POLICY false).setWord (TMR_CCM n) 0x26262626
      ⟨n, c, o, s, by unfold State.serves; decide +kernel⟩),
   (
      let n : Fin 8 := 0
      let o : Origin := .cp
      let s : State := ((((pServes base).setOn SYS_MAINT_MAINT true).setOn AUTH_PRES_OPEN true).setOn JNL_CFG_POLICY false).setOn (TMR_CTL_EN n) false
      ⟨n, o, s, by unfold State.serves; decide +kernel⟩),
   (
      let s : State := pPowered base
      let s : State := { s with devtime := BitVec.allOnes 56 }
      ⟨s, by decide +kernel⟩),
   (
      let s : State := base
      let s : State := { s with sys := { s.sys with fuses := #v[0, 0, 0] } }
      ⟨s, by decide +kernel⟩),
   (
      let s : State := base
      let s : State := { s with sys := { s.sys with fuses := #v[31, 0, 0] } }
      ⟨s, by decide +kernel⟩)⟩

theorem witness_TimerLoads :
(∃ (o : Origin) (s : State), s.serves o ∧ s.on SYS_MAINT_MAINT = true ∧ s.present = true ∧ s.stalled = false) ∧
(∃ (n : Fin 8) (s : State), s.awake = true ∧ srcNamed n (s.fld (TMR_CTL_TRGSEL n)) = true ∧ s.tmr[n].edge = some (s.fld
      (TMR_CTL_TRGSEL n)) ∧ s.fld (TMR_CTL_SMODE n) = 2) ∧
(∃ (n : Fin 8) (o : Origin) (v : Word) (s : State), s.serves o ∧ s.on SYS_MAINT_MAINT = true ∧ s.present = true ∧ s.stalled =
      false ∧ (TMR_CTL_EN n).extract v = 0) :=
  ⟨(
      let o : Origin := .cp
      let s : State := (((pServes base).setOn SYS_MAINT_MAINT true).setOn AUTH_PRES_OPEN true).setOn JNL_CFG_POLICY false
      ⟨o, s, by unfold State.serves; decide +kernel⟩),
   (
      let n : Fin 8 := 0
      let s : State := pAwake base
      let s : State := s.modTmr n (fun z_ => { z_ with edge := some (s.fld (TMR_CTL_TRGSEL n)) })
      let s : State := s.setFld (TMR_CTL_SMODE n) (2)
      let s : State := (s.setFld (TMR_CTL_TRGSEL n) 9).modTmr n (fun x => { x with edge := some 9 })
      ⟨n, s, by decide +kernel⟩),
   (
      let n : Fin 8 := 0
      let o : Origin := .cp
      let v : Word := ((0 : Word) &&& ~~~ bitMask (TMR_CTL_EN n).hi (TMR_CTL_EN n).lo)
      let s : State := (((pServes base).setOn SYS_MAINT_MAINT true).setOn AUTH_PRES_OPEN true).setOn JNL_CFG_POLICY false
      ⟨n, o, v, s, by unfold State.serves; decide +kernel⟩)⟩

theorem witness_ScrubAndWipe :
(∃ (b : Fin 5) (x : MemAcc) (off : BitVec 19) (lane : Fin 4) (s : State), s.awake = true ∧ (x.m = .scrubber → s.on
      MEM_CFG_SCRUBEN = true) ∧ x.on b = true ∧ rowOk b off lane = true ∧ s.fld ⟨MEM_STAT, 4 * b.val + 3, 4 * b.val⟩ = 0) ∧
(∃ (l : MemLoss) (x : MemAcc) (off : BitVec 19) (lane : Fin 4) (s : State), s.awake = true ∧ (x.m = .scrubber → s.on
      MEM_CFG_SCRUBEN = true) ∧ x.on l.bank = true ∧ rowOk l.bank off lane = true ∧ s.fld ⟨MEM_STAT, 4 * l.bank.val + 3, 4 *
      l.bank.val⟩ = 0 ∧ s.on MEM_UEADDR_VALID = false) ∧
(∃ (b : Fin 5) (off : BitVec 19) (lane : Fin 4) (s : State), s.awake = true ∧ s.on MEM_CFG_SCRUBEN = true ∧ rowOk b off lane =
      true ∧ s.fld ⟨MEM_STAT, 4 * b.val + 3, 4 * b.val⟩ = 0) ∧
(∃ (c : Nat) (s : State), s.aon.wiping = some c) :=
  ⟨(
      let b : Fin 5 := 0
      let x : MemAcc := ⟨.scrubber, false⟩
      let off : BitVec 19 := (BitVec.ofNat 19 (32 * 1))
      let lane : Fin 4 := (0 : Fin 4)
      let s : State := (pAwake base).setFld (⟨MEM_STAT, 4 * b.val + 3, 4 * b.val⟩) (0)
      let s : State := (s.setWord MEM_STAT 0).setOn MEM_CFG_SCRUBEN true
      ⟨b, x, off, lane, s, by decide +kernel⟩),
   (
      let l : MemLoss := .b0
      let x : MemAcc := ⟨.scrubber, false⟩
      let off : BitVec 19 := (BitVec.ofNat 19 (32 * 1))
      let lane : Fin 4 := (0 : Fin 4)
      let s : State := ((pAwake base).setFld (⟨MEM_STAT, 4 * l.bank.val + 3, 4 * l.bank.val⟩) (0)).setOn MEM_UEADDR_VALID false
      let s : State := (s.setWord MEM_STAT 0).setOn MEM_CFG_SCRUBEN true
      ⟨l, x, off, lane, s, by decide +kernel⟩),
   (
      let b : Fin 5 := 0
      let off : BitVec 19 := (BitVec.ofNat 19 (32 * 1))
      let lane : Fin 4 := (0 : Fin 4)
      let s : State := (((pAwake base).setOn MEM_CFG_SCRUBEN true).setFld (⟨MEM_STAT, 4 * b.val + 3, 4 * b.val⟩) (0)).setWord MEM_STAT 0
      ⟨b, off, lane, s, by decide +kernel⟩),
   (
      let c : Nat := 2
      let s : State := base
      let s : State := { s with aon := { s.aon with wiping := some c } }
      let s : State := { s with aon := { s.aon with wiping := some c } }
      ⟨c, s, by decide +kernel⟩)⟩

theorem witness_FaultCollection :
(∃ (s : State), s.flt.lines ≠ []) ∧
(∃ (e : FltEvent) (s : State), bestEvent (mergeEvents s.flt.lines) = some e ∧ s.on FLT_FIRST_VALID = false) ∧
(∃ (o : Origin) (v : Word) (s : State), s.serves o ∧ s.on SYS_MAINT_MAINT = true ∧ s.present = true ∧ s.stalled = false ∧
      s.lifecycle = 0 ∧ s.on SYS_STRAP_TESTEN = true ∧ FLT_INJ_SRC.extract v < 50 ∧ FLT_INJ_SRC.extract v ≠ 22) ∧
(∃ (o : Origin) (s : State), s.serves o ∧ s.on SYS_MAINT_MAINT = true ∧ s.present = true ∧ s.stalled = false) ∧
(∃ (src : Fin 64) (s : State), s.srcBit FLT_AUTO_LO FLT_AUTO_HI src = true) ∧
(∃ (o : Origin) (s : State), s.serves o ∧ s.on SYS_MAINT_MAINT = true ∧ s.present = true ∧ s.stalled = false) :=
  ⟨(
      let s : State := base
      let s : State := { s with flt := { s.flt with lines := ⟨12, .contained, 0, 0, 0, false⟩ :: s.flt.lines } }
      ⟨s, by decide +kernel⟩),
   (
      let e : FltEvent := ⟨12, .contained, 77, 3, 0, false⟩
      let s : State := base.setOn FLT_FIRST_VALID false
      let s : State := { s with flt := { s.flt with lines := [e, ⟨40, .corrected, 0, 0, 0, true⟩] } }
      ⟨e, s, by decide +kernel⟩),
   (
      let o : Origin := .cp
      let v : Word := ((0 : Word) &&& 0xFFFFFFCF)
      let s : State := ((((pServes base).setOn SYS_MAINT_MAINT true).setOn AUTH_PRES_OPEN true).setOn JNL_CFG_POLICY false).setOn SYS_STRAP_TESTEN true
      let s : State := { s with sys := { s.sys with fuses := 0 } }
      ⟨o, v, s, by unfold State.serves; decide +kernel⟩),
   (
      let o : Origin := .cp
      let s : State := (((pServes base).setOn SYS_MAINT_MAINT true).setOn AUTH_PRES_OPEN true).setOn JNL_CFG_POLICY false
      ⟨o, s, by unfold State.serves; decide +kernel⟩),
   (
      let src : Fin 64 := 0
      let s : State := base
      let s : State := (s.setWord FLT_AUTO_LO 0xFFFFFFFF).setWord FLT_AUTO_HI 0xFFFFFFFF
      ⟨src, s, by decide +kernel⟩),
   (
      let o : Origin := .cp
      let s : State := (((pServes base).setOn SYS_MAINT_MAINT true).setOn AUTH_PRES_OPEN true).setOn JNL_CFG_POLICY false
      ⟨o, s, by unfold State.serves; decide +kernel⟩)⟩

theorem witness_GraceExpiry :
(∃ (m : BitVec 64) (i : Fin 64) (s : State), s.running = true ∧ (m.getLsbD i.val && s.graceOver i) = true ∧ (∀ j : Fin 64, j < i
      → (m.getLsbD j.val && s.graceOver j) = false)) :=
  (
      let m : BitVec 64 := ((0 : BitVec 64) ||| 0x10)
      let i : Fin 64 := 4
      let s : State := base.setFld SYS_STATE_MODE 1
      let s : State := (s.setWord FLT_PEND_LO 0xF0).setWord FLT_PEND_HI 0xF
      let s : State := { s with flt := { s.flt with timers := -1, graceAt := s.flt.graceAt.map (fun _ => s.devtime - 30000000) } }
      let s : State := s.setFld FLT_CFG_GRACE 1000
      ⟨m, i, s, by decide +kernel⟩)

theorem witness_FatalEventsAndFaultPin :
(∃ (s : State), s.powered = true ∧ s.flt.halted = false) ∧
(∃ (s : State), s.flt.halted = true) ∧
(∃ (s : State), s.powered = true) ∧
(∃ (s : State), s.powered = true ∧ s.flt.upset = none) ∧
(∃ (s : State), s.flt.upset = none) ∧
(∃ (s : State), s.powered = true) ∧
(∃ (s : State), s.sys.d2d = true) ∧
(∃ (c0 : Nat) (c1 : Nat) (s : State), s.powered = true ∧ (c0 < 380 ∨ 420 < c0) ∧ (c1 < 380 ∨ 420 < c1)) ∧
(∃ (c0 : Nat) (c1 : Nat) (_s : State), (380 ≤ c0 ∧ c0 ≤ 420 ∨ 380 ≤ c1 ∧ c1 ≤ 420)) ∧
(∃ (s : State), s.sys.d2d = true ∧ s.flt.retryAt = none) ∧
(∃ (x : BitVec 56) (s : State), s.flt.retryAt = some x ∧ (s.devtime - x).toNat < 100000) ∧
(∃ (s : State), s.running = true ∧ s.flt.pulse = true ∧ s.pinPast (1000 * orZero 1 (s.fld FLT_CFG_PULSEW)) = true) ∧
(∃ (o : Origin) (s : State), s.serves o ∧ s.on SYS_MAINT_MAINT = true ∧ s.present = true ∧ s.stalled = false ∧ s.running = true
      ∧ s.fullClass = true ∧ s.anyPend = false) ∧
(∃ (s : State), s.on FLT_PIN_HBRUN = true ∧ s.pinPast 49500 = true) ∧
(∃ (s : State), s.on FLT_PIN_HBRUN = false) :=
  ⟨(
      let s : State := pPowered base
      let s : State := { s with flt := { s.flt with halted := false } }
      ⟨s, by decide +kernel⟩),
   (
      let s : State := base
      let s : State := { s with flt := { s.flt with halted := true } }
      ⟨s, by decide +kernel⟩),
   (
      let s : State := pPowered base
      ⟨s, by decide +kernel⟩),
   (
      let s : State := pPowered base
      let s : State := { s with flt := { s.flt with upset := none } }
      ⟨s, by decide +kernel⟩),
   (
      let s : State := base
      let s : State := { s with flt := { s.flt with upset := none } }
      ⟨s, by decide +kernel⟩),
   (
      let s : State := pPowered base
      ⟨s, by decide +kernel⟩),
   (
      let s : State := base
      let s : State := { s with sys := { s.sys with d2d := true } }
      ⟨s, by decide +kernel⟩),
   (
      let c0 : Nat := 1
      let c1 : Nat := (421 + 1)
      let s : State := pPowered base
      ⟨c0, c1, s, by decide +kernel⟩),
   (
      let c0 : Nat := (380 + 1)
      let c1 : Nat := 1
      let s : State := base
      ⟨c0, c1, s, by decide +kernel⟩),
   (
      let s : State := base
      let s : State := { s with sys := { s.sys with d2d := true } }
      let s : State := { s with flt := { s.flt with retryAt := none } }
      ⟨s, by decide +kernel⟩),
   (
      let x : BitVec 56 := 0
      let s : State := base
      let s : State := { s with flt := { s.flt with retryAt := some x } }
      let s : State := { s with flt := { s.flt with retryAt := some x }, devtime := x + 50 }
      ⟨x, s, by decide +kernel⟩),
   (
      let s : State := base.setFld SYS_STATE_MODE 1
      let s : State := { s with flt := { s.flt with pulse := true } }
      let s : State := { s with flt := { s.flt with pinAt := s.devtime - 300000 } }
      ⟨s, by decide +kernel⟩),
   (
      let o : Origin := .cp
      let s : State := ((((pServes base).setOn SYS_MAINT_MAINT true).setOn AUTH_PRES_OPEN true).setOn JNL_CFG_POLICY false).setFld SYS_STATE_MODE 1
      let s : State := ((s.setWord FLT_PEND_LO 0).setWord FLT_PEND_HI 0).setOn SYS_STRAP_CFGCLASS true
      ⟨o, s, by unfold State.serves; decide +kernel⟩),
   (
      let s : State := base.setOn FLT_PIN_HBRUN true
      let s : State := { s with flt := { s.flt with pinAt := s.devtime - 50000 } }
      ⟨s, by decide +kernel⟩),
   (
      let s : State := base.setOn FLT_PIN_HBRUN false
      ⟨s, by decide +kernel⟩)⟩

theorem witness_PresenceAndJournal :
(∃ (s : State), s.awake = true ∧ s.sys.strapsRead = true ∧ s.auth.held = false) ∧
(∃ (s : State), s.auth.held = true) ∧
(∃ (x : BitVec 56) (s : State), s.auth.relAt = some x ∧ 6000000000 ≤ (s.devtime - x).toNat ∧ s.present = true) ∧
(∃ (o : Origin) (s : State), s.serves o ∧ s.on SYS_MAINT_MAINT = true ∧ s.present = true ∧ s.stalled = false) ∧
(∃ (r : JRec) (q : List JRec) (s : State), s.powered = true ∧ s.heldAcc = [] ∧ s.jnl.queue = r :: q ∧ s.occ < 4096) ∧
(∃ (r : JRec) (q : List JRec) (s : State), s.powered = true ∧ s.heldAcc = [] ∧ s.jnl.queue = r :: q ∧ s.occ = 4096) ∧
(∃ (o : Origin) (v : Word) (e : JEntry) (s : State), s.serves o ∧ s.jnl.entries[v.toNat % 4096]? = some e) ∧
(∃ (o : Origin) (v : Word) (s : State), s.serves o ∧ s.jnl.entries.length ≤ v.toNat % 4096) ∧
(∃ (o : Origin) (s : State), s.serves o) :=
  ⟨(
      let s : State := pAwake base
      let s : State := { s with sys := { s.sys with strapsRead := true } }
      let s : State := { s with auth := { s.auth with held := false } }
      ⟨s, by decide +kernel⟩),
   (
      let s : State := base
      let s : State := { s with auth := { s.auth with held := true } }
      ⟨s, by decide +kernel⟩),
   (
      let x : BitVec 56 := 0
      let s : State := base
      let s : State := { s with auth := { s.auth with relAt := some x } }
      let s : State := s.setOn AUTH_PRES_OPEN true
      let s : State := { s with auth := { s.auth with relAt := some x }, devtime := x + 6000000000 }
      ⟨x, s, by decide +kernel⟩),
   (
      let o : Origin := .cp
      let s : State := (((pServes base).setOn SYS_MAINT_MAINT true).setOn AUTH_PRES_OPEN true).setOn JNL_CFG_POLICY false
      ⟨o, s, by unfold State.serves; decide +kernel⟩),
   (
      let r : JRec := zRec
      let q : List JRec := []
      let s : State := pPowered base
      let s : State := { s with heldAcc := [] }
      let s : State := { s with jnl := { s.jnl with queue := r :: q } }
      let s : State := { s with heldAcc := [], jnl := { s.jnl with queue := r :: q } }
      ⟨r, q, s, by decide +kernel⟩),
   (
      let r : JRec := zRec
      let q : List JRec := []
      let s : State := pPowered base
      let s : State := { s with heldAcc := [] }
      let s : State := { s with jnl := { s.jnl with queue := r :: q } }
      let s : State := { s with heldAcc := [], jnl := { s.jnl with queue := r :: q, entries := (List.range 4096).map (fun i => ⟨BitVec.ofNat 32 i, r⟩) } }
      ⟨r, q, s, by decide +kernel⟩),
   (
      let o : Origin := .cp
      let v : Word := ((0 : Word) &&& 0xFFFFF001)
      let e : JEntry := zEntry
      let s : State := pServes base
      let s : State := { s with jnl := { s.jnl with entries := [e, e, e] } }
      ⟨o, v, e, s, by unfold State.serves; decide +kernel⟩),
   (
      let o : Origin := .cp
      let v : Word := ((0 : Word) ||| 0x100)
      let s : State := pServes base
      ⟨o, v, s, by unfold State.serves; decide +kernel⟩),
   (
      let o : Origin := .cp
      let s : State := pServes base
      ⟨o, s, by unfold State.serves; decide +kernel⟩)⟩

theorem witness_RegisterAccess :
(∃ (o : Origin) (off : BitVec 16) (v : Word) (row : RegRow) (s : State), s.serves o ∧ findReg regTable off.toNat = some row ∧
      row.writable = true ∧ (onAnvil off.toNat = true → s.anvilAnswers = true) ∧ s.flt.upset = none ∧ off.toNat ≠ SYS_LC ∧
      off.toNat ≠ JNL_RDIDX ∧ off.toNat ≠ JNL_REL ∧ s.ringBusy off.toNat (s.word off.toNat) (s.settleWord off.toNat (s.word
      off.toNat) (row.after (s.word off.toNat) v)) = false ∧ off.toNat ≠ SYS_RST ∧ off.toNat ≠ PK_SHIP ∧ s.writeReason o
      off.toNat row (s.word off.toNat) (s.settleWord off.toNat (s.word off.toNat) (row.after (s.word off.toNat) v)) v = 0) ∧
(∃ (o : Origin) (off : BitVec 16) (v : Word) (row : RegRow) (s : State), s.serves o ∧ findReg regTable off.toNat = some row ∧
      row.writable = true ∧ (onAnvil off.toNat = true → s.anvilAnswers = true) ∧ s.flt.upset = none ∧ off.toNat ≠ SYS_LC ∧
      off.toNat ≠ JNL_RDIDX ∧ off.toNat ≠ JNL_REL ∧ s.ringBusy off.toNat (s.word off.toNat) (s.settleWord off.toNat (s.word
      off.toNat) (row.after (s.word off.toNat) v)) = false ∧ s.writeReason o off.toNat row (s.word off.toNat) (s.settleWord
      off.toNat (s.word off.toNat) (row.after (s.word off.toNat) v)) v ≠ 0) ∧
(∃ (o : Origin) (off : BitVec 16) (s : State), s.serves o ∧ onAnvil off.toNat = false ∧ s.flt.upset = none ∧ off.toNat % 4 = 0 ∧
      findReg regTable off.toNat = none) ∧
(∃ (o : Origin) (s : State), o.isHost = true ∧ s.reachable o = true) ∧
(∃ (o : Origin) (s : State), o.isHost = true ∧ s.reachable o = true) ∧
(∃ (o : Origin) (off : BitVec 16) (row : RegRow) (s : State), s.reachable o = true ∧ off.toNat % 4 = 0 ∧ s.flt.upset = none ∧
      findReg regTable off.toNat = some row ∧ (onAnvil off.toNat = true → s.anvilAnswers = true) ∧ ¬(0x2000 ≤ off.toNat ∧
      off.toNat < 0x2200 ∧ 0x10 ≤ off.toNat % 0x40 ∧ off.toNat % 0x40 < 0x20)) ∧
(∃ (o : Origin) (off : BitVec 16) (s : State), s.reachable o = true ∧ onAnvil off.toNat = false ∧ s.flt.upset = none ∧ findReg
      regTable (off.toNat / 4 * 4) = none) ∧
(∃ (o : Origin) (s : State), o.isHost = true ∧ s.reachable o = true) ∧
(∃ (o : Origin) (s : State), s.serves o ∧ s.on SYS_MAINT_MAINT = true ∧ s.present = true ∧ s.stalled = false ∧ s.anvilAnswers =
      true) :=
  ⟨(
      let o : Origin := .cp
      let off : BitVec 16 := 0x7000
      let v : Word := 0
      let row : RegRow := (findReg regTable off.toNat).getD ⟨0,0,0,0,0,false,[]⟩
      let s : State := pServes base
      let s : State := { s with flt := { s.flt with upset := none } }
      let s : State := ((s.setOn SYS_MAINT_MAINT true).setOn AUTH_PRES_OPEN true).setOn JNL_CFG_POLICY false
      let s : State := { s with sys := { s.sys with anvilUp := true, d2d := true }, flt := { s.flt with upset := none } }
      ⟨o, off, v, row, s, by unfold State.serves; decide +kernel⟩),
   (
      let o : Origin := .bar0 0
      let off : BitVec 16 := 0x7000
      let v : Word := 0xFFFFFFFF
      let row : RegRow := (findReg regTable off.toNat).getD ⟨0,0,0,0,0,false,[]⟩
      let s : State := pServes base
      let s : State := { s with flt := { s.flt with upset := none } }
      let s : State := ((s.setOn SYS_MAINT_MAINT false).setOn AUTH_PRES_OPEN false)
      let s : State := { s with sys := { s.sys with anvilUp := true, d2d := true }, flt := { s.flt with upset := none } }
      ⟨o, off, v, row, s, by unfold State.serves; decide +kernel⟩),
   (
      let o : Origin := .cp
      let off : BitVec 16 := ((0 : BitVec 16) &&& 0x8FC ||| 0x7200)
      let s : State := pServes base
      let s : State := { s with flt := { s.flt with upset := none } }
      let s : State := { s with sys := { s.sys with anvilUp := true, d2d := true }, flt := { s.flt with upset := none } }
      ⟨o, off, s, by unfold State.serves; decide +kernel⟩),
   (
      let o : Origin := Origin.bar0 7
      let s : State := base
      let s : State := pServes s
      ⟨o, s, by decide +kernel⟩),
   (
      let o : Origin := Origin.bar0 7
      let s : State := base
      let s : State := pServes s
      ⟨o, s, by decide +kernel⟩),
   (
      let o : Origin := .cp
      let off : BitVec 16 := 0x7000
      let row : RegRow := (findReg regTable off.toNat).getD ⟨0,0,0,0,0,false,[]⟩
      let s : State := base
      let s : State := { s with flt := { s.flt with upset := none } }
      let s : State := pServes s
      let s : State := { s with sys := { s.sys with anvilUp := true, d2d := true }, flt := { s.flt with upset := none } }
      ⟨o, off, row, s, by decide +kernel⟩),
   (
      let o : Origin := .cp
      let off : BitVec 16 := ((0 : BitVec 16) &&& 0x8FF ||| 0x7200)
      let s : State := base
      let s : State := { s with flt := { s.flt with upset := none } }
      let s : State := pServes s
      let s : State := { s with sys := { s.sys with anvilUp := true, d2d := true }, flt := { s.flt with upset := none } }
      ⟨o, off, s, by decide +kernel⟩),
   (
      let o : Origin := Origin.bar0 7
      let s : State := base
      let s : State := pServes s
      ⟨o, s, by decide +kernel⟩),
   (
      let o : Origin := .cp
      let s : State := (((pServes base).setOn SYS_MAINT_MAINT true).setOn AUTH_PRES_OPEN true).setOn JNL_CFG_POLICY false
      let s : State := { s with sys := { s.sys with anvilUp := true, d2d := true } }
      ⟨o, s, by unfold State.serves; decide +kernel⟩)⟩

theorem witness_ReservedSpace :
(∃ (o : Origin) (off : BitVec 16) (s : State), s.reachable o = true ∧ 0xB000 ≤ off.toNat) ∧
(∃ (o : Origin) (off : BitVec 16) (s : State), s.serves o ∧ 0xB000 ≤ off.toNat) :=
  ⟨(
      let o : Origin := .cp
      let off : BitVec 16 := ((0 : BitVec 16) ||| 0xB000)
      let s : State := base
      let s : State := pServes s
      ⟨o, off, s, by decide +kernel⟩),
   (
      let o : Origin := .cp
      let off : BitVec 16 := ((0 : BitVec 16) ||| 0xB000)
      let s : State := pServes base
      ⟨o, off, s, by unfold State.serves; decide +kernel⟩)⟩

theorem witness_FaultRecordsOverResets :
(∃ (s : State), s.powered = true) :=
  (
      let s : State := pPowered base
      ⟨s, by decide +kernel⟩)

/-! ### The worked examples of the manual: expected values from its text -/

/-- A device that has started up with nothing fitted: register 0, awake, link up. -/
def awake0 : State :=
  { pServes base with sys := { (pServes base).sys with anvilUp := true, d2d := true } }

/-- Step 1 of the PEC of "A zone temperature write with PEC at 1 MHz": 0x6A gives 0x11. -/
theorem test_pec_first_byte : crc8 [0x6A] = 0x11 := by decide +kernel
/-- 0x71 then gives 0x27. -/
theorem test_pec_second_byte : crc8 [0x6A, 0x71] = 0x27 := by decide +kernel

/-- The same write of 47.5 °C to FC_ZONE2_HT: HT reads 0x01DB, PTR 0x7150, WORDS 1. -/
theorem test_zone_write_with_pec : Gives (.twMWrite [0x71, 0x4C, 0xDB, 0x01, 0x00, 0x00, 0x3F] true)
    ((awake0.setOn TW_M_CFG_PECEN true).setFld TW_M_STAT_ADDR 0x35)
    (fun t => t.word (FC_ZONE_HT 2) = 0x1DB ∧ t.fld TW_M_STAT_PTR = 0x7150 ∧ t.fld TW_M_CNT_WORDS = 1) :=
  ⟨_, rfl, by decide +kernel⟩
/-- With PEC 0x3E nothing is committed, the pointer stays and PECERR sets. -/
theorem test_zone_write_wrong_pec : Gives (.twMWrite [0x71, 0x4C, 0xDB, 0x01, 0x00, 0x00, 0x3E] true)
    ((awake0.setOn TW_M_CFG_PECEN true).setFld TW_M_STAT_ADDR 0x35)
    (fun t => t.word (FC_ZONE_HT 2) = 0 ∧ t.fld TW_M_STAT_PTR = 0 ∧ t.on TW_M_EVT_PECERR = true) :=
  ⟨_, rfl, by decide +kernel⟩
/-- Started at 0x714E, the first word is half buffered: PARTIAL. -/
theorem test_zone_write_partial :
    Gives (.twMWrite ([0x71, 0x4E, 0xDB, 0x01, 0x00, 0x00] ++ [crc8 [0x6A, 0x71, 0x4E, 0xDB, 0x01, 0x00, 0x00]]) true)
    ((awake0.setOn TW_M_CFG_PECEN true).setFld TW_M_STAT_ADDR 0x35)
    (fun t => t.word (FC_ZONE_HT 2) = 0 ∧ t.on TW_M_EVT_PARTIAL = true) :=
  ⟨_, rfl, by decide +kernel⟩

/-- "Strapping a 12-phase card": SYS_STRAP reads 0x8626_052C. -/
theorem test_strap_word :
    ({ zBoot with straps := #v[7, 0, 0, 0, 7, 0, 7], phcnt := Vector.replicate 8 1574 }).strapWord
      = 0x8626052C := by decide +kernel
/-- The same resistor with CFGCLASS at GND: CONFLICT sets and STRAPOK is clear. -/
theorem test_strap_conflict :
    ({ zBoot with phcnt := Vector.replicate 8 1574 }).strapWord.getLsbD 31 = false := by
  decide +kernel

/-- "Droop derate": ILIM_EFF is 90 A and IMAN 82.8 A. -/
theorem test_droop_derate : Gives (.droopUpdate 0)
    (let s := (((((awake0.setFld (FEED_LIM_ILIM 0) 800).setFld (FEED_LIM_MANPCT 0) 92).setFld (FEED_DROOP_KNEE 0) 95).setFld
      (FEED_DROOP_GAIN 0) 5).setFld (FEED_EFF_VFQ 0) 5400).modFeed 0 (fun f => { f with ilimEff := 100 })
     { s with meas := { s.meas with v := s.meas.v.set 0 (5022 / 100) } })
    (fun t => t.feed[0].ilimEff = 90 ∧ t.iman 0 = 414 / 5) :=
  ⟨_, rfl, by decide +kernel⟩

/-- Thresholds of a feed at 100 A, 2.5×, 200 µΩ and 2.0 A reverse: codes 197 and 600. -/
theorem test_feed_thresholds :
    ((((base.setFld (FEED_LIM_SCMULT 0) 1).setFld (FEED_SNS_RSNS 0) 200).setFld (FEED_SNS_IREV 0) 8).modFeed 0
      (fun f => { f with ilimEff := 100 })).thr 20 = (197, 600) := by decide +kernel
/-- Thresholds of a pack at 100 µΩ, 400.0 A and 100.0 A: codes 312 and 562. -/
theorem test_pack_thresholds :
    (((base.setFld (PK_CFG_RPK 0) 100).setFld (PK_PROT_ISCD 0) 1600).setFld (PK_PROT_ICHOC 0) 400).thr 24 = (312, 562) := by
  decide +kernel

/-- TMR3 at 7,000 with TOP 12,499, for the late compare write. -/
def tmr3 : State :=
  (((awake0.setWord (TMR_CTL 3) 0x2001).setWord (TMR_TOP 3) 12499).setWord (TMR_CNT 3) 7000).setFld (TMR_CCM_MODE0 3) 1
theorem test_compare_ahead : Gives (.timerCcrWrite 3 0 .cp 7001) tmr3 (fun t => t.fld (TMR_EVT_CMPLAP 3) = 0) :=
  ⟨_, rfl, by decide +kernel⟩
theorem test_compare_late : Gives (.timerCcrWrite 3 0 .cp 7000) tmr3 (fun t => t.fld (TMR_EVT_CMPLAP 3) = 1) :=
  ⟨_, rfl, by decide +kernel⟩

/-- FX over 60 s with TAU 40 s is 796/1,024. -/
theorem test_fx : fx (some 60) 40 = 796 / 1024 := by decide +kernel

/-- The rising TJ of "An airflow failure": the fit gives 2.5 °C/ms, so TTRIP at 137.0 °C is 5.2 ms. -/
theorem test_ttrip :
    ({ base with thm := { base.thm with hist := [2192, 2152, 2112, 2072, 2032, 1992, 1952, 1912] } }).ttrip 2192 = some (52 / 10) := by
  decide +kernel

/-- "An unacknowledged phase loss": both events recorded, PHASE_LOST the first error. -/
def lost0 : State :=
  ((({ awake0 with devtime := 0x123456789A0 }).setFld SYS_STATE_MODE 1).fault srcPHASE_LOST 9).event ⟨38, .corrected, 5, 0, 0, false⟩
theorem test_first_error : Gives .faultEvent lost0
    (fun t => t.word FLT_FIRST = 0xA400000A ∧ t.word FLT_FADDR = 9 ∧ t.word FLT_STATUS_LO = 0x400 ∧ t.word FLT_STATUS_HI = 0x40 ∧
      t.word FLT_PEND_LO = 0x400 ∧ t.word FLT_MULTI = 1 ∧ t.word FLT_FTIME_HI = 0x123 ∧ t.word FLT_FTIME_LO = 0x456789A0) :=
  ⟨_, rfl, by decide +kernel⟩
/-- 100 ms later, unacknowledged: GRACE_EXP, the fatal capture and the safe state. -/
theorem test_grace_expiry : Gives (.graceExpire (1 <<< 10))
    { (((awake0.setWord FLT_STATUS_LO 0x400).setWord FLT_PEND_LO 0x400).setWord FLT_FIRST 0xA400000A).setWord SYS_STATE 0xC1 with
      devtime := 0x12346002020, flt := { awake0.flt with timers := 0x400, graceAt := Vector.replicate 64 0x12345000000 } }
    (fun t => t.word FLT_STATUS_LO = 0x500 ∧ t.word FLT_PEND_LO = 0 ∧ t.word FLT_FATAL = 0x8048CA08 ∧ t.word FLT_FATIME = 0x46002020 ∧
      t.fld SYS_STATE_MODE = 3) :=
  ⟨_, rfl, by decide +kernel⟩

/-- "Raising a feed limit from the management port": a GUARDED write outside the window is refused with REASON 1. -/
theorem test_guarded_write_refused : Gives (.registerWrite (.twoWire 0 0x35) 0x4008 0x015C0370 .whole)
    (((awake0.setWord (FEED_LIM 0) 0x015C0320).setOn FEED_LOCK_LOCK true).setOn SYS_MAINT_MAINT true)
    (fun t => t.word (FEED_LIM 0) = 0x015C0320 ∧ t.word AUTH_LAST = 0x8B004008) :=
  ⟨_, rfl, by decide +kernel⟩
/-- The same write with the window open is granted. -/
theorem test_guarded_write_granted : Gives (.registerWrite (.twoWire 0 0x35) 0x4008 0x015C0370 .whole)
    ((((awake0.setWord (FEED_LIM 0) 0x015C0320).setOn FEED_LOCK_LOCK true).setOn SYS_MAINT_MAINT true).setOn AUTH_PRES_OPEN true)
    (fun t => t.word (FEED_LIM 0) = 0x015C0370 ∧ t.fld AUTH_CNT_GRANTED = 1) :=
  ⟨_, rfl, by decide +kernel⟩

/-- "The VHOLD reference": 10 mV in 1 µs at 1.0 V/ms is 10 codes of 0.1 mV. -/
theorem test_vhold_slew : Gives .vholdRefUpdate
    { base.setFld PH_VREF_VREF 480000 with phg := { base.phg with target := 520000, slew := 10 } }
    (fun t => t.fld PH_VREF_VREF = 480010) :=
  ⟨_, rfl, by decide +kernel⟩

/-! ### Ill-formed commands -/

theorem test_wf_refuses_biasGood_samples : Instr.wf (.biasGood { zBoot with packs := Vector.replicate 2 [true] }) = false := by decide
theorem test_wf_refuses_resetNRelease_samples : Instr.wf (.resetNRelease { zBoot with packs := Vector.replicate 2 [true] }) = false := by decide
theorem test_wf_refuses_devrst_row : Instr.wf (.devrst .cp 0 { zBoot with packs := Vector.replicate 2 (List.replicate 5 true), b3bad := [(0, 1, 0)] }) = false := by decide
theorem test_wf_refuses_doldrumsWake_row : Instr.wf (.doldrumsWake .wakeN zBias { zBoot with packs := Vector.replicate 2 (List.replicate 5 true), b3bad := [(0, 0, 131072)] }) = false := by decide
theorem test_wf_refuses_doldrumsWake_corrected : Instr.wf (.doldrumsWake .wakeN zBias { zBoot with packs := Vector.replicate 2 (List.replicate 5 true), b3ce := [(0, 131072)] }) = false := by decide
theorem test_wf_takes_biasGood : Instr.wf (.biasGood { zBoot with packs := Vector.replicate 2 (List.replicate 5 true), b3bad := [(0, 0, 8)] }) = true := by decide
theorem test_wf_refuses_coulombSample_low : Instr.wf (.coulombSample 0 (-8388609)) = false := by decide
theorem test_wf_refuses_coulombSample_high : Instr.wf (.coulombSample 0 8388608) = false := by decide
theorem test_wf_refuses_rarexTransaction_attempts : Instr.wf (.rarexTransaction 0 .getId [.nack, .nack, .nack, .nack] []) = false := by decide
theorem test_wf_refuses_getSigPoll_attempts : Instr.wf (.getSigPoll 0 [.nack, .nack, .nack, .nack]) = false := by decide
theorem test_wf_refuses_cacheFillDone_cid : Instr.wf (.cacheFillDone 262144 0 0) = false := by decide
theorem test_wf_refuses_accountWriteback_cid : Instr.wf (.accountWriteback 262144 false 0) = false := by decide
theorem test_wf_refuses_grantExpire_cid : Instr.wf (.grantExpire 262144) = false := by decide
theorem test_wf_refuses_revokeDeadline_cid : Instr.wf (.revokeDeadline 262144) = false := by decide
theorem test_wf_refuses_throttleRelease_cid : Instr.wf (.throttleRelease 262144) = false := by decide
theorem test_wf_refuses_pushSlotWrite_empty : Instr.wf (.pushSlotWrite 0 []) = false := by decide
theorem test_wf_refuses_pushSlotWrite_long : Instr.wf (.pushSlotWrite 0 (List.replicate 65 (0, 0))) = false := by decide
theorem test_wf_refuses_bar2InvalidWrite_empty : Instr.wf (.bar2InvalidWrite 0 0) = false := by decide
theorem test_wf_refuses_descriptorFetchDone_empty : Instr.wf (.descriptorFetchDone 0 []) = false := by decide
theorem test_wf_refuses_descriptorFetchDone_long : Instr.wf (.descriptorFetchDone 0 (List.replicate 17 0)) = false := by decide
theorem test_wf_refuses_dmaReadError_cid : Instr.wf (.dmaReadError (.grant 262144) 0 0) = false := by decide
theorem test_wf_refuses_dmaReadError_empty : Instr.wf (.dmaReadError (.list []) 0 0) = false := by decide
theorem test_wf_refuses_dmaReadError_long : Instr.wf (.dmaReadError (.list (List.replicate 16 0)) 0 0) = false := by decide
theorem test_wf_refuses_setLimits_empty : Instr.wf (.setLimits []) = false := by decide
theorem test_wf_refuses_setLimits_long : Instr.wf (.setLimits (List.replicate 16 0)) = false := by decide
theorem test_wf_refuses_getTelemetry_empty : Instr.wf (.getTelemetry [] []) = false := by decide
theorem test_wf_refuses_getTelemetry_long : Instr.wf (.getTelemetry (List.replicate 16 0) []) = false := by decide
theorem test_wf_refuses_twMRead_empty : Instr.wf (.twMRead 0 true) = false := by decide
theorem test_wf_refuses_comparatorAutozero_low : Instr.wf (.comparatorAutozero 0 (-32) 0) = false := by decide
theorem test_wf_refuses_comparatorAutozero_high : Instr.wf (.comparatorAutozero 0 32 0) = false := by decide
theorem test_wf_refuses_patrolScrub_row : Instr.wf (.patrolScrub (.clean 4) 32768 0 false false) = false := by decide
theorem test_wf_refuses_patrolScrub_lane : Instr.wf (.patrolScrub (.clean 0) 0 1 false false) = false := by decide
theorem test_wf_refuses_registerWrite_offset : Instr.wf (.registerWrite .cp 2 0 .whole) = false := by decide
theorem test_wf_refuses_registerRead_offset : Instr.wf (.registerRead .cp 2 false) = false := by decide
theorem test_wf_takes_registerWrite : Instr.wf (.registerWrite .cp 4 0 .whole) = true := by decide

/-! ### The worked figures of ch. 17 (R435 to R437, R439, R443) -/

theorem test_device_power : powerOf (fun _ => true) = (26 / 10, 4) := by decide +kernel
theorem test_cirrus_power : powerOf PowerItem.onCirrus = (14 / 10, 22 / 10) := by decide +kernel
theorem test_board_rise : boardRise 4 = 168 / 10 := by decide +kernel
theorem test_short_circuit_turn_off : scTurnOff 150 = 111 := by decide +kernel
theorem test_pack_turn_off : gateTurnOff 240 = 3040 := by decide +kernel
theorem test_sounding_error : soundingError 1 4 1 28 = some (86 / 100) := by decide +kernel
theorem test_doldrums_current : doldrumsCurrent true = 9 := by decide +kernel

/-! ### The standards that R202 and R204 name -/

/-- The example of FIPS 180-4: the hash of "abc" begins BA7816BF. -/
theorem test_sha256_abc : (sha256 [0x61, 0x62, 0x63]).take 4 = [0xBA, 0x78, 0x16, 0xBF] := by decide +kernel
/-- The example of RFC 6979 A.2.5: P-256 with SHA-256, message "sample". -/
theorem test_ecdsa : ecdsaOk 0x992246d494c2a377519f7e2d0cb2f1f264bc2856e9e91aa499bcb80810fe0379b69ff2602e6269e66cfa613b92b849c0686d35c674eb61c9319d5a25bad4fe60 [0x73, 0x61, 0x6D, 0x70, 0x6C, 0x65] 0xa8cd3a842fabc44d06f4afb9db00e9f3659fe2b6a1c736d4417c652d941ccbf71637af4ea80e4dc391f9aa567b872c9dd6815ed49cdd4011fda8b6ac2a8bd4ef = true := by decide +kernel
/-- The same signature under another message. -/
theorem test_ecdsa_other : ecdsaOk 0x992246d494c2a377519f7e2d0cb2f1f264bc2856e9e91aa499bcb80810fe0379b69ff2602e6269e66cfa613b92b849c0686d35c674eb61c9319d5a25bad4fe60 [0x73, 0x61, 0x6D, 0x70, 0x6C, 0x66] 0xa8cd3a842fabc44d06f4afb9db00e9f3659fe2b6a1c736d4417c652d941ccbf71637af4ea80e4dc391f9aa567b872c9dd6815ed49cdd4011fda8b6ac2a8bd4ef = false := by decide +kernel

/-! ### The block -/

theorem test_reset_queue_empty : State.reset.pending = [] := by decide
theorem test_no_word_spells_a_command : decodeTableWord 8 0 = none := by decide

theorem witness_StepRunsFrontCommand : ∃ (s : State) (c : Instr) (l : List Instr), s.pending = c :: l :=
  ⟨{ base with pending := [.busUv 0, .nearRelease] }, .busUv 0, [.nearRelease], rfl⟩
theorem witness_IdleStep : ∃ s : State, s.pending = [] ∧ s.powered = true := ⟨pPowered base, by decide +kernel⟩
theorem witness_StepKeepsSound : ∃ s t : State, s.Sound ∧ step s = .next t :=
  ⟨{ base with pending := [.busUv 0] }, _, ⟨by decide +kernel, by decide +kernel⟩, rfl⟩
theorem witness_StepKeepsFuses : ∃ s t : State, step s = .next t ∧ s.sys.fuses[0] = 31#5 :=
  ⟨{ base with pending := [.busUv 0] }, _, rfl, by decide +kernel⟩
theorem witness_FeedAndPhaseFrames : ∃ (c : Instr) (s t : State) (l : List Place), c.powerPlaces = some l ∧ exec c s = .next t :=
  ⟨.feedPresent 3, awake0, _, _, rfl, rfl⟩
theorem witness_ChargeAndPackFrames : ∃ (c : Instr) (s t : State) (l : List Place), c.chargePlaces = some l ∧ exec c s = .next t :=
  ⟨.packUv 1 0, awake0, _, _, rfl, rfl⟩
theorem witness_ForecastAndHostFrames : ∃ (c : Instr) (s t : State) (l : List Place), c.hostPlaces = some l ∧ exec c s = .next t :=
  ⟨.aspmL1Exit, awake0, _, _, rfl, rfl⟩
theorem witness_PortAndSensorFrames : ∃ (c : Instr) (s t : State) (l : List Place), c.analogPlaces = some l ∧ exec c s = .next t :=
  ⟨.busUv 0, awake0, _, _, rfl, rfl⟩
theorem witness_SystemFrames : ∃ (c : Instr) (s t : State) (l : List Place), c.systemPlaces = some l ∧ exec c s = .next t :=
  ⟨.faultEvent, awake0, _, _, rfl, rfl⟩
theorem witness_RegisterWriteFrames : ∃ (c : Instr) (s t : State) (l : List Place), c.writesPlaces s = some l ∧ exec c s = .next t :=
  ⟨.registerRead .cp 4 false, awake0, _, _, rfl, rfl⟩

end Sys2Proof.Tests
end

section
/-! PROOF. The idle step, and accesses to the reserved BAR0 space (R12). -/

namespace Sys2Proof.Machine

theorem step_of_empty {s : State} (h : s.pending = []) : step s = .next (if s.powered then s.timeTick else s) := by
  simp [step, h]

/-- The offset of the last register a row holds. -/
def RegRow.last (r : RegRow) : Nat := r.base + r.s1 * (r.n1 - 1) + r.s2 * (r.n2 - 1)

theorem RegRow.le_last_of_holds {r : RegRow} {off : Nat} (h : r.holds off = true) : off ≤ r.last := by
  simp only [RegRow.holds, Bool.and_eq_true, decide_eq_true_eq] at h
  obtain ⟨hb, ⟨h1, h0⟩, h2⟩ := h
  have e1 : r.s1 * ((off - r.base) / r.s1) ≤ r.s1 * (r.n1 - 1) := Nat.mul_le_mul_left _ (by omega)
  have e2 : r.s2 * ((off - r.base) % r.s1 / r.s2) ≤ r.s2 * (r.n2 - 1) := Nat.mul_le_mul_left _ (by omega)
  have d1 := Nat.div_add_mod (off - r.base) r.s1
  have d2 := Nat.div_add_mod ((off - r.base) % r.s1) r.s2
  unfold RegRow.last
  omega

theorem findReg_eq_none {l : List RegRow} {off : Nat} (h : ∀ r ∈ l, r.last < off) : findReg l off = none := by
  induction l with
  | nil => rfl
  | cons r l ih =>
    have hr : r.holds off = false := by
      rw [Bool.eq_false_iff]
      exact fun hh => absurd (RegRow.le_last_of_holds hh) (Nat.not_le.mpr (h r (by simp)))
    simp [findReg, hr, ih (fun r' hr' => h r' (by simp [hr']))]

theorem regTable_last_lt : ∀ r ∈ regTable, r.last < 0xB000 := by decide +kernel

theorem findReg_reserved {off : Nat} (h : 0xB000 ≤ off) : findReg regTable off = none :=
  findReg_eq_none (fun r hr => Nat.lt_of_lt_of_le (regTable_last_lt r hr) h)

theorem onAnvil_reserved {off : Nat} (h : 0xB000 ≤ off) : onAnvil off = false := by
  simp [onAnvil]
  omega

/-- Only an access to a collector register checks the collector (R409). -/
theorem State.checkWord_of_outside (s : State) {off : Nat} (h : off < 0x0800 ∨ 0x1000 ≤ off) : s.checkWord off = s := by
  unfold State.checkWord
  split
  · exact if_neg (by omega)
  · rfl

/-- A write that the fabric serves at once is not held. -/
theorem State.fabricWrite_of_serves {s : State} {o : Origin} (h : s.serves o) (off : Nat) (v : Word) :
    s.fabricWrite o off v = s.serveWrite o (off / 4 * 4) v := by
  obtain ⟨hr, hq, hh⟩ := h
  have hw : ¬ (64 ≤ s.jnl.queue.length ∨ s.heldAcc ≠ []) := by
    simp [hh]
    omega
  simp [State.fabricWrite, hr, hw]

theorem State.serveWrite_reserved (s : State) (o : Origin) (v : Word) {off : Nat} (h : 0xB000 ≤ off) :
    s.serveWrite o off v = s.regFault o off := by
  have hc : s.checkWord off = s := State.checkWord_of_outside s (by omega)
  simp [State.serveWrite, hc, onAnvil_reserved h, findReg_reserved h]

theorem State.fabricRead_reserved {s : State} {o : Origin} {off : Nat} (hr : s.reachable o = true)
    (h : 0xB000 ≤ off / 4 * 4) : s.fabricRead o off = { s with rdata := [0] } := by
  have hc : s.checkWord (off / 4 * 4) = s := State.checkWord_of_outside s (by omega)
  simp [State.fabricRead, State.readReg, hr, hc, onAnvil_reserved h, findReg_reserved h]

end Sys2Proof.Machine

open Sys2Proof Sys2Proof.Machine

/-- Settles O2, from the step's case of an empty queue. -/
theorem idleStep : Obligations.IdleStep := fun _ => step_of_empty

/-- Settles O53: no row of the table reaches 0xB000, so a read meets no register and a write is dropped as REG_ACCESS. -/
theorem reservedSpace : Obligations.ReservedSpace := by
  unfold Obligations.ReservedSpace
  refine ⟨fun o off s hr ho => ?_, fun o off v s hs ho => ?_⟩
  · have hb : 0xB000 ≤ off.toNat / 4 * 4 := by omega
    refine ⟨s.fabricRead o off.toNat, by simp [exec, execRegisterRead], ?_⟩
    rw [State.fabricRead_reserved hr hb]
    exact ⟨rfl, rfl, rfl⟩
  · have hb : 0xB000 ≤ off.toNat / 4 * 4 := by omega
    refine ⟨s.fabricWrite o off.toNat v, by simp [exec, execRegisterWrite], ?_⟩
    rw [State.fabricWrite_of_serves hs, State.serveWrite_reserved s o v hb]
    exact ⟨rfl, rfl, rfl⟩
end

section
/-! PROOF. A register write that turns the last feed off while Doldrums is armed: the entry to Doldrums stores the whole journal
queue (R212, R386) before the write's own record is queued. -/

namespace Sys2Proof.Machine

/-- The row of FEEDn_CFG in the register table. -/
def feedCfgRow : RegRow := (findReg regTable (FEED_CFG 0)).getD ⟨0, 0, 0, 0, 0, false, []⟩

/-- A powered card with Doldrums armed, feed 0 ON as its only feed, and one record waiting in the journal queue. -/
def armedOnLastFeed : State :=
  let s := (((State.reset.setOn FEED_GSTAT_FEEDS_LOST false).setOn PK_SHIP_ARM true).setFeed 0 .on).setQual 0 true
  { s with
    sys := { s.sys with biasGood := true, anvilUp := true, d2d := true }
    jnl := { s.jnl with queue := [⟨0, 0, false, false, false, false, 0, 0, 0, 0, 0, 0⟩] } }

/-- How many records wait in the journal queue after a command that completes. -/
def queueAfter (c : Instr) (s : State) : Option Nat :=
  match exec c s with
  | .next t => some t.jnl.queue.length
  | _ => none

theorem queueAfter_of_next {c : Instr} {s t : State} (h : exec c s = .next t) : queueAfter c s = some t.jnl.queue.length := by
  simp [queueAfter, h]

theorem armedOnLastFeed_serves : armedOnLastFeed.serves .cp := ⟨by decide +kernel, by decide +kernel, by decide +kernel⟩

theorem armedOnLastFeed_queueAfter :
    queueAfter (.registerWrite .cp (BitVec.ofNat 16 (FEED_CFG 0)) 0 .whole) armedOnLastFeed = some 1 := by decide +kernel

end Sys2Proof.Machine

open Sys2Proof Sys2Proof.Machine

/-- Refutes O52: its first clause says that an accepted write leaves the journal queue longer. A write of 0 to FEED0_CFG that takes
the last feed out with PK_SHIP.ARM set enters Doldrums, which stores every queued record; the queue held one record before the
write and holds one, the write's own, after it. -/
theorem not_registerAccess : ¬ Obligations.RegisterAccess := by
  unfold Obligations.RegisterAccess
  intro h
  obtain ⟨hwrite, -⟩ := h
  obtain ⟨t, ht, -, -, hq, -⟩ := hwrite .cp (BitVec.ofNat 16 (FEED_CFG 0)) 0 feedCfgRow armedOnLastFeed armedOnLastFeed_serves
    (by decide +kernel) (by decide +kernel) (fun _ => by decide +kernel) (by decide +kernel) (by decide) (by decide) (by decide)
    (by decide +kernel) (by decide) (by decide) (by decide +kernel)
  have hbefore : armedOnLastFeed.jnl.queue.length = 1 := by decide +kernel
  have hafter : 1 = t.jnl.queue.length := Option.some.inj (armedOnLastFeed_queueAfter.symm.trans (queueAfter_of_next ht))
  omega
end

section
/-! PROOF. The loss of the link in step 3 of a start-up filters the stored registers (`State.resetRange`). Where their list is out of
order, an entry that a lookup did not reach comes to light there, and a register outside the footprint of the start-up changes. No
later step writes that register. -/

namespace Sys2Proof.Machine

/-- The register that the state below hides: TMR7_CNT, which no start-up writes. -/
def hiddenOff : Nat := TMR_CNT 7

/-- A start-up of a board without a host (HOSTSEL, R51), whose die-to-die link stays down. -/
def hostlessBoot : Boot where
  straps := Vector.replicate 7 7
  phcnt := Vector.replicate 8 0
  anvilCrc := true
  cirrusCrc := true
  sram := Vector.replicate 5 0
  b3ce := []
  b3bad := []
  aonRest := 0
  flits := 0
  refs := ⟨Vector.replicate 3 1, false, Vector.replicate 2 0, Vector.replicate 2 0, Vector.replicate 48 0, Vector.replicate 8 0,
    Vector.replicate 3 0⟩
  loopBad := 0
  feedChk := Vector.replicate 4 ⟨0, 0, 0, 0, 0, 0, 0⟩
  legs := ⟨Vector.replicate 16 ⟨0, 0⟩, Vector.replicate 16 ⟨0, 0⟩⟩
  packs := Vector.replicate 2 []
  ident := Vector.replicate 2 none
  sda := Vector.replicate 2 none
  crystal := false
  cmpIn := Vector.replicate 48 0

/-- A powered device held in reset with the link up, its registers out of order: a lookup of TMR7_CNT stops at HIF0_CFG and reads 0. -/
def hiddenCount : State :=
  { State.reset with
    regs := [(HIF_CFG 0, 1), (hiddenOff, 1), (HIF_LNK, 0x80000000)]
    sys := { State.reset.sys with bias := some .vaux, biasGood := true, resetHeld := true } }

/-! ### What leaves a register as it was -/

section
variable (s : State) {o : Nat}

theorem State.word_setFld_off {f : Fld} (v : Nat) (h : o ≠ f.off) : (s.setFld f v).word o = s.word o :=
  State.setFld_only (P := (· ≠ .reg o)) (.refl _ s) f v (by simp [Ne.symm h]) (.reg o) (by simp)

theorem State.word_setOn_off {f : Fld} (b : Bool) (h : o ≠ f.off) : (s.setOn f b).word o = s.word o :=
  s.word_setFld_off _ h

theorem State.word_each {α : Type} (l : List α) (f : State → α → State) (hf : ∀ t, ∀ a ∈ l, (f t a).word o = t.word o) :
    (s.each l f).word o = s.word o := by
  refine State.each_only (P := (· ≠ .reg o)) (.refl _ s) l f (fun t a ha h => h.trans (fun x hx => ?_)) (.reg o) (by simp)
  obtain rfl : x = .reg o := by simpa using hx
  exact hf t a ha

theorem State.each_nil {α : Type} (f : State → α → State) : s.each [] f = s := rfl

theorem State.word_ite (c : Prop) [Decidable c] (t : State) : (if c then s else t).word o = if c then s.word o else t.word o :=
  apply_ite (State.word · o) c s t

@[simp] theorem State.word_withSys (x : SysH) : State.word { s with sys := x } o = s.word o := rfl
@[simp] theorem State.word_withMem (x : MemH) : State.word { s with mem := x } o = s.word o := rfl
end

/-- The footprints of the operations that a start-up without the link calls after step 3. -/
structure BootPlaces (P : Place → Prop) : Prop where
  flags : FP.setFlags P SYS_BOOT
  collect : FP.collect P
  feed : ∀ n, FP.setFeed P n
  cmp : ∀ c, FP.cmpSee P c
  held : FP.faultHeld P
  run : FP.faultRun P
  jevent : FP.jevent P
  hwOnly : FP.feedsHwOnly P
  back : FP.feedsBack P
  wake : ∀ k, FP.chgWake P k
  feeds : FP.syncFeeds P
  group : FP.settleGroup P
  ports : FP.syncPorts P
  apply : FP.applySync P
  thr : FP.syncThr P
  elig : ∀ k, FP.syncElig P k

/-- Each of these footprints is a conjunction of places, and TMR7_CNT is none of them: the proof walks the conjunction. -/
theorem bootPlaces_hidden {P : Place → Prop} (hP : ∀ x, x ≠ .reg hiddenOff → P x) : BootPlaces P := by
  constructor
  all_goals
    repeat' first
      | exact hP _ (by decide +revert)
      | apply And.intro
      | intro _

theorem bootPlaces_ne : BootPlaces (· ≠ .reg hiddenOff) := bootPlaces_hidden (fun _ h => h)

theorem OnlyAt.word_hidden {s t : State} (h : OnlyAt (· ≠ .reg hiddenOff) s t) : t.word hiddenOff = s.word hiddenOff :=
  h (.reg hiddenOff) (by simp)

section
variable (s : State)

@[simp] theorem State.collect_hidden : s.collect.word hiddenOff = s.word hiddenOff :=
  (State.collect_only (.refl _ s) bootPlaces_ne.collect).word_hidden
@[simp] theorem State.setFlags_boot_hidden (m : Word) : (s.setFlags SYS_BOOT m).word hiddenOff = s.word hiddenOff :=
  (State.setFlags_only (.refl _ s) _ m bootPlaces_ne.flags).word_hidden
@[simp] theorem State.setFeed_hidden (n : Fin 4) (x : FeedSt) : (s.setFeed n x).word hiddenOff = s.word hiddenOff :=
  (State.setFeed_only (.refl _ s) n x (bootPlaces_ne.feed n)).word_hidden
@[simp] theorem State.cmpSee_hidden (c : Fin 48) (x : Int) : (s.cmpSee c x).word hiddenOff = s.word hiddenOff :=
  (State.cmpSee_only (.refl _ s) c x (bootPlaces_ne.cmp c)).word_hidden
@[simp] theorem State.faultHeld_hidden : s.faultHeld.word hiddenOff = s.word hiddenOff :=
  (State.faultHeld_only (.refl _ s) bootPlaces_ne.held).word_hidden
@[simp] theorem State.faultRun_hidden : s.faultRun.word hiddenOff = s.word hiddenOff :=
  (State.faultRun_only (.refl _ s) bootPlaces_ne.run).word_hidden
@[simp] theorem State.jevent_hidden (b : HwBlock) (obj detail : Nat) (old new aux : Word) :
    (s.jevent b obj detail old new aux).word hiddenOff = s.word hiddenOff :=
  (State.jevent_only (.refl _ s) b obj detail old new aux bootPlaces_ne.jevent).word_hidden
@[simp] theorem State.feedsHwOnly_hidden : s.feedsHwOnly.word hiddenOff = s.word hiddenOff :=
  (State.feedsHwOnly_only (.refl _ s) bootPlaces_ne.hwOnly).word_hidden
@[simp] theorem State.feedsBack_hidden : s.feedsBack.word hiddenOff = s.word hiddenOff :=
  (State.feedsBack_only (.refl _ s) bootPlaces_ne.back).word_hidden
@[simp] theorem State.chgWake_hidden (k : Fin 2) : (s.chgWake k).word hiddenOff = s.word hiddenOff :=
  (State.chgWake_only (.refl _ s) k (bootPlaces_ne.wake k)).word_hidden

/-- The last line of step 12: the levels that follow from the state of the feeds, phases and ports. -/
@[simp] theorem State.bootSync_hidden :
    (((s.syncFeeds.settleGroup).syncPorts).applySync.syncThr.syncElig 0 |>.syncElig 1).word hiddenOff = s.word hiddenOff :=
  (State.syncElig_only (State.syncElig_only (State.syncThr_only (State.applySync_only (State.syncPorts_only (State.settleGroup_only
    (State.syncFeeds_only (.refl _ s) bootPlaces_ne.feeds) bootPlaces_ne.group) bootPlaces_ne.ports) bootPlaces_ne.apply)
    bootPlaces_ne.thr) 0 (bootPlaces_ne.elig 0)) 1 (bootPlaces_ne.elig 1)).word_hidden

/-! ### The steps of a start-up after step 3 -/

@[simp] theorem State.setStep_hidden (k : Nat) : (s.setStep k).word hiddenOff = s.word hiddenOff :=
  s.word_setFld_off k (by decide)

@[simp] theorem State.bootFail_hidden (k code : Nat) : (s.bootFail k code).word hiddenOff = s.word hiddenOff := by
  simp [State.bootFail, State.word_ite, State.word_setFld_off _ _ (show hiddenOff ≠ SYS_BOOT_CODE.off by decide)]

@[simp] theorem State.loadTrims_hidden (ok : Bool) : (s.loadTrims ok).word hiddenOff = s.word hiddenOff := by
  have hcmp : ∀ c ∈ List.range 48, hiddenOff ≠ (CMP_STAT_TRIMA c).off ∧ hiddenOff ≠ (CMP_STAT_TRIMB c).off := by decide
  have hcoul : ∀ k ∈ [0, 1], hiddenOff ≠ (COUL_OFS_OFS k).off := by decide
  unfold State.loadTrims
  rw [State.word_each _ _ _ (fun t k hk => t.word_setFld_off _ (hcoul k hk))]
  refine State.word_each _ _ _ (fun t c hc => ?_)
  rw [State.word_setFld_off _ _ (hcmp c hc).2, State.word_setFld_off _ _ (hcmp c hc).1]

@[simp] theorem State.bootFuses_hidden (r : Boot) : (s.bootFuses r).word hiddenOff = s.word hiddenOff := by
  have hrep : ∀ b : Fin 5, hiddenOff ≠ (MEM_REP_FUSE b.val).off := by decide
  unfold State.bootFuses
  simp only [State.word_ite, State.bootFail_hidden, ite_self, State.word_withSys, State.loadTrims_hidden]
  rw [State.word_each _ _ _ (fun t b _ => t.word_setFld_off _ (hrep b)), State.word_setFld_off _ _ (by decide),
    State.word_setFld_off _ _ (by decide), State.word_setFld_off _ _ (by decide), State.setStep_hidden]

theorem State.marchBank_hidden (b : Fin 5) (bad : Nat) : (s.marchBank b bad).word hiddenOff = s.word hiddenOff := by
  have hrep : ∀ b : Fin 5, hiddenOff ≠ (MEM_REP_SOFT b.val).off ∧ hiddenOff ≠ (MEM_REP_FAIL b.val).off := by decide
  unfold State.marchBank
  rw [State.word_setOn_off _ _ (hrep b).2, State.word_setFld_off _ _ (hrep b).1]

theorem State.bootSram_hidden (r : Boot) (hce : r.b3ce = []) (hbad : r.b3bad = []) :
    (s.bootSram r false).word hiddenOff = s.word hiddenOff := by
  have hstat : hiddenOff ≠ MEM_STAT := by decide
  unfold State.bootSram
  simp only [hce, hbad, State.each_nil, if_neg, Bool.false_eq_true, not_false_eq_true, State.word_withMem]
  rw [State.word_setOn_off _ _ (by decide), State.word_setFld_off _ _ (by decide), State.word_setWord, if_neg hstat]
  simp only [State.word_ite, State.bootFail_hidden, ite_self]
  exact (State.word_each _ _ _ (fun t b _ => t.marchBank_hidden b _)).trans (s.setStep_hidden 5)

theorem State.bootLink_hidden (r : Boot) : (s.bootLink r).word hiddenOff = s.word hiddenOff := by
  unfold State.bootLink
  simp only [State.word_ite, State.bootFail_hidden, ite_self]
  rw [State.word_each _ _ _ (fun t c _ => t.cmpSee_hidden c _), State.word_each _ _ _ (fun t n _ => t.modPh_word n _ _)]
  exact s.setStep_hidden 6

theorem State.bootFeeds_hidden (r : Boot) : (s.bootFeeds r false).word hiddenOff = s.word hiddenOff := by
  unfold State.bootFeeds
  refine (State.word_each _ _ _ (fun t n _ => ?_)).trans (s.setStep_hidden 9)
  simp [State.word_ite]

theorem State.bootEnd_hidden : s.bootEnd.word hiddenOff = s.word hiddenOff := by
  have hmode : hiddenOff ≠ SYS_STATE_MODE.off := by decide
  have hphok : hiddenOff ≠ SYS_STATE_PHOK.off := by decide
  have hinr : hiddenOff ≠ SYS_STATE_INRUSHOK.off := by decide
  have hhw (t : State) (l : List (Fin 4)) : (t.each l (fun t n => t.setFeed n .on)).word hiddenOff = t.word hiddenOff :=
    t.word_each l _ (fun t n _ => t.setFeed_hidden n .on)
  unfold State.bootEnd
  simp [State.word_ite, State.word_setFld_off _ _ hmode, State.word_setOn_off _ _ hphok, State.word_setOn_off _ _ hinr, hhw]

/-- Without the die-to-die link, and with a clean scrub of B3, the steps after step 3 leave TMR7_CNT as step 3 left it. -/
theorem State.startUp_hidden (r : Boot) (hlink : r.linked = false) (hce : r.b3ce = []) (hbad : r.b3bad = []) :
    (s.startUp r false).word hiddenOff =
      ((State.setFld { s with sys := { s.sys with resetHeld := false } } SYS_STATE_MODE 0).bootStraps r).word hiddenOff := by
  unfold State.startUp
  simp [hlink, State.bootEnd_hidden, State.bootFeeds_hidden, State.bootLink_hidden, State.bootSram_hidden _ r hce hbad]

end

/-- The filter of step 3 uncovers the 1 that stands behind HIF0_CFG. -/
theorem hiddenCount_bootStraps :
    ((State.setFld { hiddenCount with sys := { hiddenCount.sys with resetHeld := false } } SYS_STATE_MODE 0).bootStraps
      hostlessBoot).word hiddenOff = 1 := by decide +kernel

end Sys2Proof.Machine

open Sys2Proof Sys2Proof.Machine

/-- Refutes O59: its frame of RESET_N_RELEASE is claimed of every state, and where the stored registers are not in their canonical
order (`State.Sound`, which the statement does not ask for) the start-up changes a register outside `Foot.startUp`: TMR7_CNT, hidden
behind HIF0_CFG, reads 0 before it and 1 after the loss of the link in step 3 has filtered the registers. -/
theorem not_systemFrames : ¬ Obligations.SystemFrames := by
  unfold Obligations.SystemFrames
  intro h
  obtain ⟨hframe, -, -⟩ := h
  have hexec : exec (.resetNRelease hostlessBoot) hiddenCount = .next (hiddenCount.startUp hostlessBoot false) := by
    show execResetNRelease hostlessBoot hiddenCount = _
    simp [execResetNRelease, show hiddenCount.powered = true by decide +kernel, show hiddenCount.sys.resetHeld = true from rfl]
  have hsame : (hiddenCount.startUp hostlessBoot false).word hiddenOff = hiddenCount.word hiddenOff :=
    hframe (.resetNRelease hostlessBoot) _ _ Foot.startUp rfl hexec (.reg hiddenOff) (by decide +kernel)
  rw [State.startUp_hidden _ _ (by decide) rfl rfl, hiddenCount_bootStraps] at hsame
  exact absurd hsame (by decide +kernel)
end

section
/-! PROOF. The heartbeat's RESUME while the word of FLT_PIN in the collector is bad: the access meets it first (R409), and the safe
state that this takes holds FAULT_N, so no heartbeat starts (R407). -/

namespace Sys2Proof.Machine

/-- A started Full device in RUN, with a person present and SYS_MAINT set. -/
def runningFull : State :=
  let s := ((((State.reset.setFld SYS_STATE_STEP 12).setFld SYS_STATE_MODE 1).setOn SYS_STRAP_CFGCLASS true).setOn
    SYS_MAINT_MAINT true).setOn AUTH_PRES_OPEN true
  { s with sys := { s.sys with bias := some .vaux, biasGood := true, strapsRead := true, anvilUp := true, d2d := true } }

/-- The same device after the check of FLT_PIN's word in the collector has come to fail, which no scan or access has met yet. -/
def runningUpset : State :=
  { runningFull with flt := { runningFull.flt with upset := some (BitVec.ofNat 8 ((FLT_PIN - 0x0800) / 4)) } }

theorem runningUpset_serves : runningUpset.serves .cp := ⟨by decide +kernel, by decide +kernel, by decide +kernel⟩

theorem runningUpset_resume :
    (runningUpset.fabricWrite .cp FLT_PIN (FLT_PIN_RESUME.insert 0 1)).on FLT_PIN_HBRUN = false := by decide +kernel

end Sys2Proof.Machine

open Sys2Proof Sys2Proof.Machine

/-- Refutes O50: its clause of HEARTBEAT_RESUME does not ask for a collector without a bad word (R409). Where the word of FLT_PIN is
bad, the write itself finds it and takes the safe state, in which no heartbeat runs. -/
theorem not_fatalEventsAndFaultPin : ¬ Obligations.FatalEventsAndFaultPin := by
  unfold Obligations.FatalEventsAndFaultPin
  intro h
  obtain ⟨-, -, -, -, -, -, -, -, -, -, -, -, hresume, -⟩ := h
  obtain ⟨t, ht, hrun, -⟩ := hresume .cp 0 runningUpset runningUpset_serves (by decide +kernel) (by decide +kernel)
    (by decide +kernel) (by decide +kernel) (by decide +kernel) (by decide +kernel)
  have hexec : exec (.heartbeatResume .cp 0) runningUpset =
      .next (runningUpset.fabricWrite .cp FLT_PIN (FLT_PIN_RESUME.insert 0 1)) := rfl
  obtain rfl := Host.Outcome.next.inj (hexec.symm.trans ht)
  exact absurd hrun (by rw [runningUpset_resume]; decide)
end

section
/-! PROOF. The first cycle of a port's leading phase after another phase began to shed: the port cycle that it starts takes the
shedding phase out of NACT (R132), and the command per phase rises with it (R124). -/

namespace Sys2Proof.Machine

/-- Port 0 with a command of 10 A and two phases: phase 0 in RUN, phase 1 shedding since the present port cycle, still counted in NACT. -/
def shedCounted : State :=
  let s := ((State.reset.setFld SYS_STRAP_PHCNT 2).setFld (PH_STAT_STATE 0) PhSt.run.code).setFld (PH_STAT_STATE 1) PhSt.shedding.code
  ((s.setFld (PH_CFG_PORT 0) 0).setFld (PH_CFG_PORT 1) 0).modPhp 0 (fun p => { p with cmd := 10 })
    |>.modPh 1 (fun p => { p with counted := true })

theorem shedCounted_icmd : shedCounted.icmd 0 = 5 := by decide +kernel

/-- The ICMD that a cycle start gives a phase. -/
def icmdAfter (n : Fin 16) (s : State) : Option Rat :=
  match execPwmCycleStart n s with
  | .next t => some t.ph[n].icmd
  | _ => none

theorem icmdAfter_of_next {n : Fin 16} {s t : State} (h : execPwmCycleStart n s = .next t) : icmdAfter n s = some t.ph[n].icmd := by
  simp [icmdAfter, h]

theorem shedCounted_icmdAfter : icmdAfter 0 shedCounted = some 10 := by decide +kernel

end Sys2Proof.Machine

open Sys2Proof Sys2Proof.Machine

/-- Refutes O13: its first clause gives the phase the command that its port had per phase before the cycle start. Where the phase leads its
port and another one sheds, the cycle start takes that one out of NACT first: 10 A over one phase, not over two. -/
theorem not_phaseCycleAndLearning : ¬ Obligations.PhaseCycleAndLearning := by
  unfold Obligations.PhaseCycleAndLearning
  intro h
  obtain ⟨hstart, -⟩ := h
  obtain ⟨t, ht, hicmd, -⟩ := hstart 0 0 shedCounted (by decide +kernel) (by decide +kernel) (fun _ => by decide +kernel)
  have hafter : some (10 : Rat) = some t.ph[(0 : Fin 16)].icmd := shedCounted_icmdAfter.symm.trans (icmdAfter_of_next ht)
  rw [hicmd, shedCounted_icmd] at hafter
  exact absurd hafter (by decide)
end

section
/-! PROOF. What a register or a field reads after the shared operations of Machine/Ops.lean, and what a footprint (`OnlyAt`) says of it. -/

namespace Sys2Proof.Machine

/-! ### What stays outside a footprint -/

section
variable {P : Place → Prop} {s t : State}

theorem OnlyAt.word (h : OnlyAt P s t) {o : Nat} (ho : ¬ P (.reg o)) : t.word o = s.word o := h (.reg o) ho
theorem OnlyAt.flt (h : OnlyAt P s t) (hp : ¬ P .flt) : t.flt = s.flt := h .flt hp
theorem OnlyAt.thm (h : OnlyAt P s t) (hp : ¬ P .thm) : t.thm = s.thm := h .thm hp

theorem State.fld_of_word {f : Fld} (h : t.word f.off = s.word f.off) : t.fld f = s.fld f :=
  congrArg f.extract h

theorem State.on_of_word {f : Fld} (h : t.word f.off = s.word f.off) : t.on f = s.on f :=
  congrArg (· != 0) (State.fld_of_word h)

theorem OnlyAt.fld (h : OnlyAt P s t) {f : Fld} (ho : ¬ P (.reg f.off)) : t.fld f = s.fld f := State.fld_of_word (h.word ho)
end

/-! ### Fields -/

/-- The bits of a field lie in a word, and it has at least one. -/
def Fld.Fits (f : Fld) : Prop := f.hi < 32 ∧ f.lo ≤ f.hi

@[simp] theorem Fld.fits_iff (f : Fld) : f.Fits ↔ f.hi < 32 ∧ f.lo ≤ f.hi := Iff.rfl

section
variable (s : State)

theorem State.fld_lt (f : Fld) : s.fld f < 2 ^ f.width := Fld.extract_lt f _

theorem State.fld_setFld_bits {f g : Fld} (v : Nat) (hf : f.Fits) (hg : g.Fits) (hd : g.hi < f.lo ∨ f.hi < g.lo) :
    (s.setFld f v).fld g = s.fld g := RegFile.fld_setFld_bits s.regs f g v hf.1 hf.2 hg.1 hd

/-- Writing a field changes no field of another register or of other bits. -/
theorem State.fld_setFld_ne {f g : Fld} (v : Nat) (hf : f.Fits) (hg : g.Fits)
    (hd : g.off ≠ f.off ∨ g.hi < f.lo ∨ f.hi < g.lo) : (s.setFld f v).fld g = s.fld g :=
  hd.elim (s.fld_setFld_off f g v) (s.fld_setFld_bits v hf hg)

theorem State.on_setOn_same {f : Fld} (b : Bool) (hf : f.Fits) : (s.setOn f b).on f = b := by
  have hw : 1 < 2 ^ f.width := Nat.one_lt_two_pow (by have := hf.2; unfold Fld.width; omega)
  unfold State.on State.setOn
  rw [State.fld_setFld_same _ _ _ hf.1 hf.2]
  cases b <;> simp [Nat.mod_eq_of_lt hw]

/-- A count that sticks at its maximum goes up as `Counted` says. -/
theorem State.fld_count_same {f : Fld} (hf : f.Fits) : (s.count f).fld f = min (2 ^ f.width - 1) (s.fld f + 1) := by
  have hlt := s.fld_lt f
  unfold State.count
  split
  · next h => rw [State.fld_setFld_same _ _ _ hf.1 hf.2, Nat.mod_eq_of_lt h]; omega
  · omega

theorem State.word_count_off {f : Fld} {o : Nat} (h : o ≠ f.off) : (s.count f).word o = s.word o := by
  unfold State.count
  split
  · exact s.word_setFld_off _ h
  · rfl

/-! ### Two's complement -/

theorem unsigned_lt (w : Nat) (i : Int) : unsigned w i < 2 ^ w := by
  have hpos : (0 : Int) < (2 ^ w : Nat) := by positivity
  have h0 := Int.emod_nonneg i hpos.ne'
  have h1 := Int.emod_lt_of_pos i hpos
  unfold unsigned
  omega

/-- A number in the range of `w + 1` bits is read back as it was written. -/
theorem signed_unsigned (w : Nat) {i : Int} (hlo : -(2 ^ w : Nat) ≤ i) (hhi : i < (2 ^ w : Nat)) :
    signed (w + 1) (unsigned (w + 1) i) = i := by
  have hp : (2 ^ (w + 1) : Nat) = 2 * 2 ^ w := by rw [pow_succ, mul_comm]
  unfold signed
  rw [Nat.mod_eq_of_lt (unsigned_lt _ _)]
  unfold unsigned
  rw [hp, Nat.add_sub_cancel]
  generalize (2 ^ w : Nat) = m at *
  rcases lt_or_ge i 0 with h | h
  · have e : i % (2 * m : Nat) = i + (2 * m : Nat) := by
      rw [← Int.add_emod_right, Int.emod_eq_of_lt] <;> omega
    rw [e]
    split <;> omega
  · have e : i % (2 * m : Nat) = i := Int.emod_eq_of_lt h (by omega)
    rw [e]
    split <;> omega

/-- What a signed field holds after a number was stored in it: that number, held at the ends of its range. -/
theorem State.sfld_setSfld_same {f : Fld} (i : Int) (hf : f.Fits) :
    (s.setSfld f i).sfld f = max (-((2 ^ (f.width - 1) : Nat) : Int)) (min (((2 ^ (f.width - 1) : Nat) : Int) - 1) i) := by
  obtain ⟨w, hw⟩ : ∃ w, f.width = w + 1 := ⟨f.width - 1, by have := hf.2; unfold Fld.width; omega⟩
  have hpos : 0 < 2 ^ w := Nat.two_pow_pos w
  unfold State.sfld State.setSfld
  rw [State.fld_setFld_same _ _ _ hf.1 hf.2, Nat.mod_eq_of_lt (unsigned_lt _ _), hw, Nat.add_sub_cancel]
  exact signed_unsigned w (by omega) (by omega)

/-! ### Event flags -/

/-- The registers through which a rising source line sends its message. -/
abbrev lineOut : List Nat := [MSIX_PBA_LO, MSIX_PBA_HI, HIF_LNK]

theorem lineRise_word (src : Nat) (a : State) {o : Nat} (h : o ∉ lineOut) : (lineRise src a s).word o = s.word o := by
  have hne : MSIX_PBA_LO ≠ o ∧ MSIX_PBA_HI ≠ o ∧ HIF_LNK ≠ o := by
    simp only [lineOut, List.mem_cons, List.not_mem_nil, or_false, not_or] at h
    exact ⟨Ne.symm h.1, Ne.symm h.2.1, Ne.symm h.2.2⟩
  refine (lineRise_only (P := (· ≠ .reg o)) (.refl _ s) src a ?_).word (by simp)
  simp [FP.lineRise, FP.msix, FP.send, hne]

/-- What a register holds after flags were set in one. -/
theorem State.word_setFlags (off : Nat) (m : Word) {o : Nat} (h : o ∉ lineOut) :
    (s.setFlags off m).word o = if o = off then s.word off ||| m else s.word o := by
  have hset : (s.setWord off (s.word off ||| m)).word o = if o = off then s.word off ||| m else s.word o := s.word_setWord _ _ _
  unfold State.setFlags
  dsimp only
  rw [← hset]
  generalize s.setWord off (s.word off ||| m) = u
  cases hb : telBlock off <;> cases hl : lineOf off <;> dsimp only
  · exact lineRise_word _ _ _ h
  · split <;> rfl
  · rw [lineRise_word _ _ _ h]
    split <;> rfl

theorem State.word_setFlags_ne {off : Nat} (m : Word) {o : Nat} (h : o ∉ lineOut) (hne : o ≠ off) :
    (s.setFlags off m).word o = s.word o := by
  rw [s.word_setFlags off m h, if_neg hne]

@[simp] theorem State.setFlags_flt (off : Nat) (m : Word) : (s.setFlags off m).flt = s.flt :=
  (State.setFlags_only (P := (· ≠ .flt)) (.refl _ s) off m
    (by simp [FP.setFlags, FP.lineRise, FP.msix, FP.send])).flt (by simp)

@[simp] theorem State.setFlags_thm (off : Nat) (m : Word) : (s.setFlags off m).thm = s.thm :=
  (State.setFlags_only (P := (· ≠ .thm)) (.refl _ s) off m
    (by simp [FP.setFlags, FP.lineRise, FP.msix, FP.send])).thm (by simp)

@[simp] theorem State.evt_flt (f : Fld) : (s.evt f).flt = s.flt := s.setFlags_flt _ _
@[simp] theorem State.evt_thm (f : Fld) : (s.evt f).thm = s.thm := s.setFlags_thm _ _

theorem State.getLsbD_setFlags_same {off : Nat} (m : Word) (h : off ∉ lineOut) {i : Nat} (hi : m.getLsbD i = true) :
    ((s.setFlags off m).word off).getLsbD i = true := by
  rw [s.word_setFlags off m h, if_pos rfl, BitVec.getLsbD_or, hi, Bool.or_true]

/-- A flag that is set stays set where flags are set. -/
theorem State.getLsbD_setFlags_mono (off : Nat) (m : Word) {o i : Nat} (h : o ∉ lineOut) (hi : (s.word o).getLsbD i = true) :
    ((s.setFlags off m).word o).getLsbD i = true := by
  rw [s.word_setFlags off m h]
  split
  · next e => rw [BitVec.getLsbD_or, ← e, hi, Bool.true_or]
  · exact hi

/-- A one-bit field is on where its bit is set. -/
theorem State.on_iff_getLsbD (o i : Nat) : s.on ⟨o, i, i⟩ = (s.word o).getLsbD i := by
  have hw : Fld.width ⟨o, i, i⟩ = 1 := by simp [Fld.width]
  have hb : s.fld ⟨o, i, i⟩ = ((s.word o).getLsbD i).toNat := by
    show Fld.extract ⟨o, i, i⟩ (s.word o) = _
    unfold Fld.extract
    rw [hw, pow_one, BitVec.toNat_ushiftRight, BitVec.getLsbD, Nat.toNat_testBit, Nat.shiftRight_eq_div_pow]
  unfold State.on
  rw [hb]
  cases (s.word o).getLsbD i <;> rfl

theorem State.on_evt_same {o i : Nat} (h : o ∉ lineOut) (hi : i < 32) : (s.evt ⟨o, i, i⟩).on ⟨o, i, i⟩ = true := by
  rw [State.on_iff_getLsbD]
  exact s.getLsbD_setFlags_same _ h (by simp [bitMask_getLsbD _ _ _ hi])

theorem State.on_setFlags_mono {o i : Nat} (off : Nat) (m : Word) (h : o ∉ lineOut) (hi : s.on ⟨o, i, i⟩ = true) :
    (s.setFlags off m).on ⟨o, i, i⟩ = true := by
  rw [State.on_iff_getLsbD] at hi ⊢
  exact s.getLsbD_setFlags_mono off m h hi
end

end Sys2Proof.Machine
end

section
/-! PROOF. What the operations on power leave as it was: the registers of the phases, the temperatures, and what the collector and the
thermal management hide. -/

namespace Sys2Proof.Machine

/-- The places that commands, the ends of roles, the budget and the completion of a command do not touch: SYS_STRAP, the sensors and
the summary of THM with THM_CNT, the registers of the phases, the hidden state of the collector and of the thermal management. -/
def Place.held : Place → Bool
  | .reg o => o == SYS_STRAP || decide (THM_TS 0 ≤ o ∧ o < THM_STAT) || o == THM_CNT || decide (PH_CFG 0 ≤ o ∧ o < PH_CFG 16)
  | .flt | .thm => true
  | _ => false

/-- Every other place. -/
abbrev Moving (l : Place) : Prop := l.held = false

/-- The footprints of these operations. -/
structure PowerOps (P : Place → Prop) : Prop where
  mapDeferred : FP.mapDeferred P
  ports : FP.syncPorts P
  port : ∀ k, FP.syncPort P k
  cmd : ∀ k, FP.setCmd P k
  pfl : FP.setPfl P
  cut : ∀ k, FP.cutPower P k
  finish : FP.finish P
  budget : FP.budgetDrop P
  gustLoss : ∀ k, FP.gustLoss P k
  elig : ∀ k, FP.syncElig P k
  leaveHoldup : ∀ k, FP.leaveHoldup P k
  openPort : ∀ k, FP.openPort P k
  dsg : ∀ k, FP.dsgAfterClose P k
  portEvt : ∀ k : Fin 2, FP.evt P (PHP_EVT k)
  cur : ∀ k : Fin 2, P (.reg (CHG_CUR k))
  report : ∀ n : Fin 16, FP.cmpReport P (29 + n)

/-- Each footprint is a conjunction of places, none of them held: the proof walks the conjunction. -/
theorem powerOps_of_moving {P : Place → Prop} (hP : ∀ l, Moving l → P l) : PowerOps P := by
  constructor
  all_goals
    repeat' first
      | exact hP _ (by decide +revert)
      | apply And.intro
      | intro _

theorem powerOps_moving : PowerOps Moving := powerOps_of_moving (fun _ h => h)

/-- The moving places, and the registers in which the state of a phase other than `n` stands. -/
abbrev MovingBut (n : Fin 16) (l : Place) : Prop := Moving l ∨ ∃ m : Fin 16, m ≠ n ∧ l = .reg (PH_STAT m)

theorem powerOps_movingBut (n : Fin 16) : PowerOps (MovingBut n) := powerOps_of_moving (fun _ h => .inl h)

theorem OnlyAt.but {s t : State} (h : OnlyAt Moving s t) (n : Fin 16) : OnlyAt (MovingBut n) s t := h.mono (fun _ => .inl)

theorem setPh_movingBut {n m : Fin 16} (h : m ≠ n) : FP.setPh (MovingBut n) m := ⟨.inr ⟨m, h, rfl⟩, .inl rfl⟩

/-- What stays of phase `n` where only moving places and other phases change. -/
structure SamePhase (n : Fin 16) (s t : State) : Prop where
  stat : t.word (PH_STAT n) = s.word (PH_STAT n)
  evt : t.word (PH_EVT n) = s.word (PH_EVT n)
  cnt : t.word (PH_CNT n) = s.word (PH_CNT n)
  cfg : t.word (PH_CFG n) = s.word (PH_CFG n)
  strap : t.word SYS_STRAP = s.word SYS_STRAP
  flt : t.flt = s.flt

/-- The places of phase `n` are neither moving nor another phase's. -/
theorem not_movingBut (n : Fin 16) : ∀ o ∈ [PH_STAT n, PH_EVT n, PH_CNT n, PH_CFG n, SYS_STRAP], ¬ MovingBut n (.reg o) := by
  decide +revert

theorem OnlyAt.samePhase {n : Fin 16} {s t : State} (h : OnlyAt (MovingBut n) s t) : SamePhase n s t where
  stat := h.word (not_movingBut n _ (by simp))
  evt := h.word (not_movingBut n _ (by simp))
  cnt := h.word (not_movingBut n _ (by simp))
  cfg := h.word (not_movingBut n _ (by simp))
  strap := h.word (not_movingBut n _ (by simp))
  flt := h.flt (by simp [Place.held])

theorem SamePhase.trans {n : Fin 16} {s t u : State} (h : SamePhase n s t) (k : SamePhase n t u) : SamePhase n s u :=
  ⟨k.stat.trans h.stat, k.evt.trans h.evt, k.cnt.trans h.cnt, k.cfg.trans h.cfg, k.strap.trans h.strap, k.flt.trans h.flt⟩

theorem SamePhase.phSt {n : Fin 16} {s t : State} (h : SamePhase n s t) : t.phSt n = s.phSt n :=
  congrArg PhSt.ofCode (State.fld_of_word h.stat)

/-! ### The state of a phase -/

theorem phSt_ofCode_code (st : PhSt) : PhSt.ofCode st.code = st := by cases st <;> rfl

theorem phSt_code_lt (st : PhSt) : st.code < 2 ^ 4 := by cases st <;> decide

section
variable (s : State) (n : Fin 16)

theorem State.phSt_of_fld {s t : State} {n : Fin 16} (h : t.fld (PH_STAT_STATE n) = s.fld (PH_STAT_STATE n)) : t.phSt n = s.phSt n :=
  congrArg PhSt.ofCode h

theorem State.setPh_regs (st : PhSt) : (s.setPh n st).regs = (s.setFld (PH_STAT_STATE n) st.code).regs := by
  cases st <;> rfl

theorem State.setPh_flt (st : PhSt) : (s.setPh n st).flt = s.flt := by cases st <;> rfl

theorem State.fld_setPh (st : PhSt) (g : Fld) : (s.setPh n st).fld g = (s.setFld (PH_STAT_STATE n) st.code).fld g :=
  congrArg (RegFile.fld · g) (s.setPh_regs n st)

theorem State.word_setPh_ne (st : PhSt) {o : Nat} (h : o ≠ PH_STAT n) : (s.setPh n st).word o = s.word o :=
  (congrArg (RegFile.get · o) (s.setPh_regs n st)).trans (s.word_setFld_off _ h)

theorem State.phSt_setPh_same (st : PhSt) : (s.setPh n st).phSt n = st := by
  unfold State.phSt
  rw [State.fld_setPh, State.fld_setFld_same _ _ _ (by simp) (by simp)]
  exact (congrArg _ (Nat.mod_eq_of_lt (phSt_code_lt st))).trans (phSt_ofCode_code st)

/-! ### The hottest phase, and who is next to drain -/

theorem State.hottest_mem {l : List (Fin 16)} {m : Fin 16} (h : s.hottest l = some m) : m ∈ l := by
  unfold State.hottest at h
  suffices hfold : ∀ (l : List (Fin 16)) (b : Option (Fin 16)), l.foldl (fun b n => match b with
      | some m => if s.tstage m ≤ s.tstage n then some n else some m
      | none => some n) b = some m → m ∈ l ∨ b = some m from by simpa using hfold l none h
  intro l
  induction l with
  | nil => exact fun b hb => .inr hb
  | cons a l ih =>
    intro b hb
    rcases ih _ hb with hm | hm
    · exact .inl (List.mem_cons_of_mem _ hm)
    · cases b with
      | none => exact .inl (by simp_all)
      | some c =>
        dsimp only at hm
        split at hm
        · exact .inl (by simp_all)
        · exact .inr hm

theorem mem_finsWhere {k : Nat} {p : Fin k → Bool} {i : Fin k} : i ∈ finsWhere p ↔ p i = true := by
  simp [finsWhere]
end

section
variable {s₀ s : State} {n : Fin 16}

theorem State.withSys_only {P : Place → Prop} (h : OnlyAt P s₀ s) (x : SysH) (hp : P .sys) : OnlyAt P s₀ { s with sys := x } := by
  refine h.trans (fun l hl => ?_)
  cases l with
  | sys => exact absurd hp hl
  | _ => rfl

theorem State.withChgg_only {P : Place → Prop} (h : OnlyAt P s₀ s) (x : ChgGH) (hp : P .chgg) : OnlyAt P s₀ { s with chgg := x } := by
  refine h.trans (fun l hl => ?_)
  cases l with
  | chgg => exact absurd hp hl
  | _ => rfl

/-- PHASE_MAP's next phase to drain is one in RUN, so one that is not stays as it is. -/
theorem State.drainNext_but (h : OnlyAt (MovingBut n) s₀ s) (hn : s.phSt n ≠ .run) : OnlyAt (MovingBut n) s₀ s.drainNext := by
  have hops := powerOps_movingBut n
  unfold State.drainNext
  split
  · exact h
  · split
    · exact h
    · next m hm =>
      have hrun := mem_finsWhere.mp (s.hottest_mem hm)
      have hne : m ≠ n := by
        rintro rfl
        simp_all
      exact OnlyAt.ite (State.syncPorts_only (State.setPh_only h m _ (setPh_movingBut hne)) hops.ports)
        (State.mapDeferred_only h hops.mapDeferred)

/-- The end of a self-test returns the phase out for it and no other. -/
theorem State.endTest_but (h : OnlyAt (MovingBut n) s₀ s) (hn : s.sys.testPhase ≠ some n) (code status : Nat) :
    OnlyAt (MovingBut n) s₀ (s.endTest code status) := by
  have hops := powerOps_movingBut n
  unfold State.endTest
  split
  · exact h
  · dsimp only
    refine State.finish_only (State.syncPorts_only (State.setFld_only (State.withSys_only ?_ _ (.inl rfl)) _ _ (.inl rfl)) hops.ports)
      _ _ _ _ hops.finish
    split
    · next m hm =>
      have hset := fun x => State.setPh_only h m x (setPh_movingBut (n := n) (fun e => hn (e ▸ hm)))
      exact OnlyAt.ite (hset _) (OnlyAt.ite (hset _) h)
    · exact h
end

end Sys2Proof.Machine
end

section
/-! PROOF. The wiring of a phase, which its legs' probes and its trip wire alone change: roles, directions, stages and stops keep it. -/

namespace Sys2Proof.Machine

/-- Both legs of a phase as probed, and the level of its trip wire. -/
def PhH.wiring (p : PhH) : LegSt × LegSt × Bool := (p.legB, p.legK, p.trip)

/-- Every phase has the wiring it had. -/
def Wired (s t : State) : Prop := ∀ n : Fin 16, t.ph[n].wiring = s.ph[n].wiring

/-- The footprints, without a phase's hidden state, of what roles, stages and stops do beside the phases. -/
structure PhaseFreeOps (P : Place → Prop) : Prop where
  restore : ∀ k, FP.restoreLoop P k
  finish : FP.finish P
  setStage : ∀ k, FP.setStage P k
  setItgt : ∀ k, FP.setItgt P k
  notice : FP.notice P
  setCmd : ∀ k, FP.setCmd P k
  endCharge : ∀ k, FP.endCharge P k
  chgEvt : ∀ k : Fin 2, FP.evt P (CHG_EVT k)
  portEvt : ∀ k : Fin 2, FP.evt P (PHP_EVT k)
  ports : FP.syncPorts P
  elig : ∀ k, FP.syncElig P k
  openPort : ∀ k, FP.openPort P k
  dsg : ∀ k, FP.dsgAfterClose P k
  hwOnly : FP.feedsHwOnly P
  endAll : FP.endAll P
  thr : FP.syncThr P

/-- The places other than a phase's hidden state. -/
abbrev NotPh (l : Place) : Prop := ∀ n : Fin 16, l ≠ .ph n

theorem phaseFreeOps_notPh : PhaseFreeOps NotPh := by
  have hP : ∀ l, NotPh l → NotPh l := fun _ h => h
  constructor
  all_goals
    repeat' first
      | exact hP _ (fun _ => Place.noConfusion)
      | apply And.intro
      | intro _

section
variable {s₀ s t : State}

theorem Wired.refl (s : State) : Wired s s := fun _ => rfl

theorem Wired.ite {c : Prop} [Decidable c] (hs : Wired s₀ s) (ht : Wired s₀ t) : Wired s₀ (if c then s else t) := by
  split
  · exact hs
  · exact ht

/-- The phases' hidden state is as it was. -/
theorem Wired.same (h : Wired s₀ s) (e : t.ph = s.ph) : Wired s₀ t := fun n => (congrArg (PhH.wiring ·[n]) e).trans (h n)

theorem Wired.only (h : Wired s₀ s) (k : OnlyAt NotPh s t) : Wired s₀ t :=
  fun n => (congrArg PhH.wiring (k (.ph n) (fun hn => hn n rfl))).trans (h n)

theorem Wired.modPh (h : Wired s₀ s) (n : Fin 16) {f : PhH → PhH} (hf : ∀ p, (f p).wiring = p.wiring) : Wired s₀ (s.modPh n f) := by
  intro m
  by_cases e : n = m
  · subst e
    rw [State.modPh_same, hf]
    exact h n
  · rw [State.modPh_ne s f e]
    exact h m

theorem Wired.each {α : Type} (h : Wired s₀ s) (l : List α) (f : State → α → State) (hf : ∀ t a, Wired s₀ t → Wired s₀ (f t a)) :
    Wired s₀ (s.each l f) := by
  unfold State.each
  induction l generalizing s with
  | nil => exact h
  | cons a l ih => exact ih (hf s a h)

theorem State.setPh_wired (h : Wired s₀ s) (n : Fin 16) (st : PhSt) : Wired s₀ (s.setPh n st) := by
  have hset : Wired s₀ (s.setFld (PH_STAT_STATE n) st.code) := h.same rfl
  cases st <;> exact hset.modPh n (fun _ => rfl)

theorem State.syncPort_ph (s : State) (k : Fin 2) : (s.syncPort k).ph = s.ph := rfl

theorem State.stopPhases_wired (h : Wired s₀ s) : Wired s₀ s.stopPhases := by
  unfold State.stopPhases
  exact Wired.only (h.each _ _ (fun _ n ht => State.setPh_wired ht n _))
    (State.syncPorts_only (.refl _ _) phaseFreeOps_notPh.ports)

theorem State.turn_wired (h : Wired s₀ s) (k : Fin 2) (d : Dir) : Wired s₀ (s.turn k d) := by
  have hevt : Wired s₀ ((s.setFld (PHP_STAT_DIR k) d.code).evt (PHP_EVT_DIRCHG k)) :=
    Wired.only (s := s.setFld (PHP_STAT_DIR k) d.code) h (State.evt_only (.refl _ _) _ (phaseFreeOps_notPh.portEvt k))
  unfold State.turn
  dsimp only
  refine Wired.ite h ((Wired.each (Wired.each (Wired.same hevt ?_) _ _ ?_) _ _ ?_).same (State.syncPort_ph _ _))
  · rfl
  · exact fun _ n ht => ht.modPh n (fun _ => rfl)
  · exact fun _ n ht => ht.modPh n (fun _ => rfl)

theorem State.count_ph (s : State) (f : Fld) : (s.count f).ph = s.ph := by
  unfold State.count
  split <;> rfl

theorem State.syncRoles_wired (h : Wired s₀ s) : Wired s₀ s.syncRoles := h.same rfl

theorem State.noPower_wired (h : Wired s₀ s) (k : Fin 2) : Wired s₀ (s.setFld (CHG_DPWR_POUT k) 0).syncRoles :=
  State.syncRoles_wired (s := s.setFld (CHG_DPWR_POUT k) 0) (h.same rfl)

theorem State.setRole_wired (h : Wired s₀ s) (k : Fin 2) (r : Role) : Wired s₀ (s.setRole k r) := by
  have hend : Wired s₀ (if s.role k = .charge then s.endCharge k else s) := Wired.ite (Wired.same h rfl) h
  unfold State.setRole
  dsimp only
  generalize (if s.role k = .charge then s.endCharge k else s) = u at *
  refine Wired.ite h ?_
  generalize hv : (u.modChg k (fun c => { c with cut := none })).setFld (CHG_STAT_ROLE k) r.code = v
  have hv' : Wired s₀ v := hend.same (hv ▸ rfl)
  have hcmd {w : State} (hw : w.ph = v.ph) : Wired s₀ (w.setCmd k 0) := hv'.same hw
  cases r with
  | gust => exact State.syncRoles_wired (State.turn_wired (hcmd (State.count_ph _ _)) k .dis)
  | holdup => exact State.syncRoles_wired (State.turn_wired (hcmd (State.count_ph _ _)) k .dis)
  | charge => exact State.noPower_wired (State.turn_wired (hcmd rfl) k .chg) k
  | drizzle => exact State.noPower_wired (State.turn_wired (hcmd rfl) k .chg) k
  | none => exact State.noPower_wired (Wired.ite (State.turn_wired (hcmd rfl) k .idle) (State.turn_wired (hcmd rfl) k .chg)) k

theorem State.abortSounding_wired (h : Wired s₀ s) (k : Fin 2) (status : Nat) : Wired s₀ (s.abortSounding k status) := by
  have hops := phaseFreeOps_notPh
  unfold State.abortSounding
  split
  · exact h
  · next r _ =>
    have hloop : Wired s₀ (s.restoreLoop k r) := h.only (State.restoreLoop_only (.refl _ s) k r (hops.restore k))
    have hevt : Wired s₀ (if status = 8 then (s.restoreLoop k r).evt (CHG_EVT_SNDABORT k) else s.restoreLoop k r) :=
      Wired.ite (hloop.only (State.evt_only (.refl _ _) _ (hops.chgEvt k))) hloop
    exact Wired.only (Wired.ite (State.setRole_wired hevt k .none) hevt) (State.finish_only (.refl _ _) _ _ _ _ hops.finish)

theorem State.enterStage_wired (h : Wired s₀ s) (k : Fin 2) (g : Stage) : Wired s₀ (s.enterStage k g) := by
  have hops := phaseFreeOps_notPh
  have habort := State.abortSounding_wired h k 8
  have hstage := habort.only (State.setStage_only (.refl _ _) k g (hops.setStage k))
  have hrole := Wired.ite (c := ((s.abortSounding k 8).setStage k g).role k = .gust ∨ ((s.abortSounding k 8).setStage k g).role k = .holdup)
    hstage (State.setRole_wired hstage k (stageRole g))
  have hitgt {u : State} (hu : Wired s₀ u) : Wired s₀ (if stageRole g = .none then (u.modChg k (fun c => { c with cv := 0 })).setItgt k 0
      else u) := Wired.ite (hu.same rfl) hu
  unfold State.enterStage
  exact Wired.ite habort (Wired.ite ((hitgt hrole).same rfl) (hitgt hrole))

theorem State.leaveHoldup_wired (h : Wired s₀ s) (k : Fin 2) : Wired s₀ (s.leaveHoldup k) := by
  have hshare : Wired s₀ ((s.setRole k .none).modChg k (fun c => { c with hshare := 0 })) := (State.setRole_wired h k .none).same rfl
  unfold State.leaveHoldup
  dsimp only
  generalize (s.setRole k .none).modChg k (fun c => { c with hshare := 0 }) = u at *
  generalize hv : (if u.chg[k].requal && s.stage k != .off then u.enterStage k .qualify
    else if s.stage k = .off ∨ s.stage k = .fault then u else u.enterStage k .rest) = v
  have hstage : Wired s₀ v := hv ▸ Wired.ite (State.enterStage_wired hshare k _) (Wired.ite hshare (State.enterStage_wired hshare k _))
  exact Wired.ite h (Wired.ite hstage (hstage.only (State.notice_only (.refl _ _) _ _ phaseFreeOps_notPh.notice)))

theorem State.leaveGust_wired (h : Wired s₀ s) (k : Fin 2) : Wired s₀ (s.leaveGust k) := by
  have hshare : Wired s₀ (s.modChg k (fun c => { c with gshare := 0, gdrop := false })) := h.same rfl
  unfold State.leaveGust
  dsimp only
  generalize s.modChg k (fun c => { c with gshare := 0, gdrop := false }) = u at *
  have hrole := State.setRole_wired (State.setRole_wired hshare k .none) k (stageRole (u.stage k))
  generalize (u.setRole k .none).setRole k (stageRole (u.stage k)) = v at *
  exact Wired.ite h (Wired.ite (State.enterStage_wired hrole k _) hrole)

end

end Sys2Proof.Machine
end

section
/-! PROOF. Phases that latch, are lost or are found shorted; SYNC_IN and the BUS overshoot threshold (R69, R129, R132, R138, R140, R142). -/

namespace Sys2Proof.Machine

section
variable (s : State) (n : Fin 16)

/-- Beyond the new state of the phase, taking it out moves what the operations on power move. -/
theorem State.takeOut_moving (k : Fin 2) (st : PhSt) : OnlyAt Moving (s.setPh n st) (s.takeOut k n st) := by
  unfold State.takeOut
  have hport := State.syncPort_only (.refl Moving (s.setPh n st)) k (powerOps_moving.port k)
  exact OnlyAt.ite (State.evt_only hport _ (powerOps_moving.portEvt k)) hport

/-- A phase with a new state, as a function of its port: whichever port, the phase has that state and its other registers stay. -/
theorem samePhase_of_setPh {s t : State} {n : Fin 16} {st : PhSt} (h : OnlyAt Moving (s.setPh n st) t) :
    t.phSt n = st ∧ t.word (PH_CNT n) = s.word (PH_CNT n) ∧ t.word (PH_EVT n) = s.word (PH_EVT n) ∧ t.flt = s.flt := by
  have hs := (h.but n).samePhase
  exact ⟨hs.phSt.trans (s.phSt_setPh_same n st), hs.cnt.trans (s.word_setPh_ne n st (by simp)),
    hs.evt.trans (s.word_setPh_ne n st (by simp)), hs.flt.trans (s.setPh_flt n st)⟩

theorem phReg_not_lineOut : ∀ o ∈ [PH_STAT n, PH_EVT n, PH_CNT n], o ∉ lineOut := by decide +revert

/-- A field of another register or below the bits of STATE leaves the phase's state. -/
theorem State.phSt_setFld_ne {f : Fld} (v : Nat) (hf : f.Fits) (hd : PH_STAT n ≠ f.off ∨ f.hi < 28) : (s.setFld f v).phSt n = s.phSt n :=
  State.phSt_of_fld (s.fld_setFld_ne v hf (by simp) (hd.imp id .inr))

theorem State.phSt_evt {f : Fld} (h : f.off ≠ PH_STAT n) : (s.evt f).phSt n = s.phSt n :=
  State.phSt_of_fld (State.fld_of_word (s.word_setFlags_ne _ (phReg_not_lineOut n _ (by simp)) h.symm))

/-! ### The latch in OCL -/

/-- What a phase that has latched in OCL with a cause shows. -/
structure Latched (n : Fin 16) (cause : Nat) (cnt : Word) (t : State) : Prop where
  st : t.phSt n = .ocl
  cause : t.fld (PH_STAT_CAUSE n) = cause
  evt : t.on (PH_EVT_SLOW n) = true
  count : (PH_CNT_OCLCNT n).extract (t.word (PH_CNT n)) =
    min (2 ^ (PH_CNT_OCLCNT n).width - 1) ((PH_CNT_OCLCNT n).extract cnt + 1)
  raised : Raised t srcPH_OCL n.val

theorem Latched.of_same {n : Fin 16} {cause : Nat} {cnt : Word} {s t : State} (h : Latched n cause cnt s) (k : SamePhase n s t) :
    Latched n cause cnt t where
  st := k.phSt.trans h.st
  cause := (State.fld_of_word k.stat).trans h.cause
  evt := (State.on_of_word k.evt).trans h.evt
  count := k.cnt ▸ h.count
  raised := (congrArg (_ ∈ ·.lines) k.flt).mpr h.raised

theorem fault_raised (src : Fin 64) (addr : Nat) : Raised (s.fault src addr) src addr := by
  simp [Raised, State.fault, State.event]

theorem Raised.fault {s : State} {src : Fin 64} {addr : Nat} (h : Raised s src addr) (src' : Fin 64) (addr' : Nat) :
    Raised (s.fault src' addr') src addr := by
  simp only [Raised, State.fault, State.event, List.mem_append] at h ⊢
  exact .inl h

theorem Latched.fault {n : Fin 16} {cause : Nat} {cnt : Word} {s : State} (h : Latched n cause cnt s) (src : Fin 64) (addr : Nat) :
    Latched n cause cnt (s.fault src addr) := ⟨h.st, h.cause, h.evt, h.count, h.raised.fault src addr⟩

theorem Latched.drainNext {n : Fin 16} {cause : Nat} {cnt : Word} {s : State} (h : Latched n cause cnt s) :
    Latched n cause cnt s.drainNext :=
  h.of_same (State.drainNext_but (.refl _ s) (by simp [h.st])).samePhase

/-- A stopped phase reports its latch: cause, counts, flag and event. -/
theorem latched_of_stopped {u : State} {n : Fin 16} {cause : Nat} {cnt : Word} (hst : u.phSt n = .ocl)
    (hucnt : u.word (PH_CNT n) = cnt) (hc : cause < 2 ^ 4) (r : Nat) :
    Latched n cause cnt
      (((((((u.setFld (PH_STAT_CAUSE n) cause).setFld (PH_STAT_FLCNT n) 0).setFld (PH_STAT_OCLN n) r).count (PH_CNT_OCLCNT n)).evt
        (PH_EVT_SLOW n)).fault srcPH_OCL n.val)) := by
  generalize hv : ((u.setFld (PH_STAT_CAUSE n) cause).setFld (PH_STAT_FLCNT n) 0).setFld (PH_STAT_OCLN n) r = v
  have hvst : v.phSt n = .ocl := by
    rw [← hst, ← hv]
    refine State.phSt_of_fld ?_
    rw [State.fld_setFld_ne, State.fld_setFld_ne, State.fld_setFld_ne] <;> simp
  have hvcause : v.fld (PH_STAT_CAUSE n) = cause := by
    rw [← hv, State.fld_setFld_ne, State.fld_setFld_ne, State.fld_setFld_same]
    · exact Nat.mod_eq_of_lt hc
    all_goals simp
  have hvcnt : v.word (PH_CNT n) = u.word (PH_CNT n) := by
    rw [← hv, State.word_setFld_off, State.word_setFld_off, State.word_setFld_off] <;> simp
  have hstat : ((v.count (PH_CNT_OCLCNT n)).evt (PH_EVT_SLOW n)).word (PH_STAT n) = v.word (PH_STAT n) := by
    rw [State.evt, State.word_setFlags_ne _ _ (phReg_not_lineOut n _ (by simp)), State.word_count_off] <;> simp
  have hcnt : ((v.count (PH_CNT_OCLCNT n)).evt (PH_EVT_SLOW n)).word (PH_CNT n) = (v.count (PH_CNT_OCLCNT n)).word (PH_CNT n) := by
    rw [State.evt, State.word_setFlags_ne _ _ (phReg_not_lineOut n _ (by simp))] ; simp
  exact
    { st := (congrArg PhSt.ofCode (State.fld_of_word hstat)).trans hvst
      cause := (State.fld_of_word hstat).trans hvcause
      evt := State.on_evt_same _ (phReg_not_lineOut n _ (by simp)) (by simp)
      count := by
        rw [State.fault_word, hcnt, ← hucnt, ← hvcnt]
        exact v.fld_count_same (by simp)
      raised := fault_raised _ _ _ }

/-- A latch for a cause other than the fast limit (R132, R140). -/
theorem State.oclLatch_latched {cause : Nat} (h8 : cause ≠ 8) (hc : cause < 2 ^ 4) :
    Latched n cause (s.word (PH_CNT n)) (s.oclLatch n cause) := by
  have hstop {s₁ u : State} (hu : OnlyAt Moving (s₁.setPh n .ocl) u) (hcnt : s₁.word (PH_CNT n) = s.word (PH_CNT n)) (r : Nat) :=
    have ⟨hst, hucnt, _, _⟩ := samePhase_of_setPh hu
    latched_of_stopped hst (hucnt.trans hcnt) hc r
  unfold State.oclLatch
  dsimp only
  rw [if_neg h8]
  refine Latched.drainNext ?_
  split <;> split
  · exact Latched.fault (hstop (State.takeOut_moving _ _ _ _) (by rfl) _) _ _
  · exact Latched.fault (hstop (.refl _ _) (by rfl) _) _ _
  · exact hstop (State.takeOut_moving _ _ _ _) (by rfl) _
  · exact hstop (.refl _ _) (by rfl) _

/-! ### Losses -/

/-- What a phase that has been marked LOST with a cause shows. -/
structure Lost (n : Fin 16) (cause : Nat) (src : Fin 64) (t : State) : Prop where
  st : t.phSt n = .lost
  cause : t.fld (PH_STAT_CAUSE n) = cause
  evt : t.on (PH_EVT_LOST n) = true
  raised : Raised t src n.val

theorem Lost.of_same {n : Fin 16} {cause : Nat} {src : Fin 64} {s t : State} (h : Lost n cause src s) (k : SamePhase n s t) :
    Lost n cause src t where
  st := k.phSt.trans h.st
  cause := (State.fld_of_word k.stat).trans h.cause
  evt := (State.on_of_word k.evt).trans h.evt
  raised := (congrArg (_ ∈ ·.lines) k.flt).mpr h.raised

/-- A stopped phase with its flag and its event, once its cause is stored. -/
theorem lost_of_stopped {s u : State} {n : Fin 16} {cause : Nat} {src : Fin 64} (hu : OnlyAt Moving (s.setPh n .lost) u)
    (hevt : s.on (PH_EVT_LOST n) = true) (hraised : Raised s src n.val) (hc : cause < 2 ^ 4) :
    Lost n cause src (u.setFld (PH_STAT_CAUSE n) cause) := by
  obtain ⟨hst, -, huevt, huflt⟩ := samePhase_of_setPh hu
  exact
    { st := (State.phSt_of_fld (State.fld_setFld_ne _ _ (by simp) (by simp) (by simp))).trans hst
      cause := (State.fld_setFld_same _ _ _ (by simp) (by simp)).trans (Nat.mod_eq_of_lt hc)
      evt := (State.on_of_word ((u.word_setFld_off _ (by simp)).trans huevt)).trans hevt
      raised := (congrArg (_ ∈ ·.lines) huflt).mpr hraised }

section
variable {s₀ s : State} {n : Fin 16}

theorem State.drain_but (h : OnlyAt (MovingBut n) s₀ s) (hn : s₀.phSt n = .lost) (c : Prop) [Decidable c] :
    OnlyAt (MovingBut n) s₀ (if c then s.mapDeferred else s.drainNext) :=
  OnlyAt.ite (State.mapDeferred_only h (powerOps_movingBut n).mapDeferred)
    (State.drainNext_but h (by rw [h.samePhase.phSt, hn]; decide))

theorem State.endOtherTest_but (h : OnlyAt (MovingBut n) s₀ s) (code status : Nat) :
    OnlyAt (MovingBut n) s₀ (if s.sys.testPhase.isSome ∧ s.sys.testPhase ≠ some n then s.endTest code status else s) := by
  split
  · next hc => exact State.endTest_but h hc.2 code status
  · exact h

theorem State.runAgain_but (h : OnlyAt (MovingBut n) s₀ s) (hn : s₀.phSt n = .lost) (c : Prop) [Decidable c] (k : Fin 2) :
    OnlyAt (MovingBut n) s₀
      (s.each (if c then [] else finsWhere (fun i => s.phOn k i && s.phSt i == .shedding)) (fun t i => t.setPh i .run)) := by
  refine State.each_only h _ _ (fun t i hi ht => State.setPh_only ht i _ (setPh_movingBut ?_))
  rintro rfl
  have hst := h.samePhase.phSt
  split at hi
  · simp at hi
  · have hshed := mem_finsWhere.mp hi
    rw [hst, hn] at hshed
    simp at hshed
end

/-- A phase that can be lost is LOST, with its cause, its flag and its event (R20, R142). -/
theorem State.markLost_lost {cause : Nat} (hst : s.phSt n ∉ [.unassigned, .shorted, .lost]) (hc : cause < 2 ^ 4) :
    Lost n cause (if cause = 6 then srcTRIP_MISMATCH else srcPHASE_LOST) (s.markLost n cause) := by
  have hops := powerOps_movingBut n
  have hnone : ¬ (s.phSt n = .unassigned ∨ s.phSt n = .shorted ∨ s.phSt n = .lost) := by simpa using hst
  unfold State.markLost
  dsimp only
  rw [if_neg hnone]
  generalize hs₁ : ((s.fault (if cause = 6 then srcTRIP_MISMATCH else srcPHASE_LOST) n.val).evt (PH_EVT_LOST n)) = s₁
  have hevt : s₁.on (PH_EVT_LOST n) = true := hs₁ ▸ State.on_evt_same _ (phReg_not_lineOut n _ (by simp)) (by simp)
  have hraised : Raised s₁ (if cause = 6 then srcTRIP_MISMATCH else srcPHASE_LOST) n.val := by
    rw [← hs₁, Raised, State.evt_flt]
    exact fault_raised _ _ _
  cases s₁.portOf n with
  | none => exact lost_of_stopped (.refl _ _) hevt hraised hc
  | some k =>
    dsimp only
    have hlost := lost_of_stopped (s₁.takeOut_moving n k .lost) hevt hraised hc
    refine hlost.of_same (OnlyAt.samePhase ?_)
    generalize (s₁.takeOut k n .lost).setFld (PH_STAT_CAUSE n) cause = s₂ at *
    refine State.budgetDrop_only (State.syncPort_only (State.endOtherTest_but (State.drain_but (State.runAgain_but
      (State.cutPower_only ?_ k (hops.cut k)) hlost.st _ _) hlost.st _) _ _) k (hops.port k)) hops.budget
    have hchg (f : ChgH → ChgH) {u : State} (hu : OnlyAt (MovingBut n) s₂ u) := State.modChg_only hu k f (.inl rfl)
    refine OnlyAt.ite (.refl _ _) ?_
    cases s₂.role k with
    | holdup => exact State.setCmd_only (State.withChgg_only (.refl _ s₂) _ (.inl rfl)) k _ (hops.cmd k)
    | gust => exact State.setCmd_only (hchg _ (State.setPfl_only (.refl _ s₂) _ hops.pfl)) k _ (hops.cmd k)
    | charge =>
      exact OnlyAt.ite (State.setCmd_only (State.setScode_only (hchg _ (.refl _ s₂)) _ _ (hops.cur k)) k _ (hops.cmd k))
        (.refl _ s₂)
    | none => exact .refl _ s₂
    | drizzle => exact .refl _ s₂
end

/-! ### The commands -/

section
variable (s : State) (n : Fin 16)

theorem slowOverload_latches {k : Fin 2} (hport : s.portOf n = some k) (hsw : s.phSwitching n = true)
    (hmean : s.ilims n * s.fld (PHP_LIM_OVLD k) / 100 < s.iavg n) : Gives (.slowOverload n) s (Latched n 9 (s.word (PH_CNT n))) := by
  refine ⟨_, rfl, ?_⟩
  simp only [hport, hsw, hmean, decide_true, Bool.and_true, if_true]
  exact s.oclLatch_latched n (by decide) (by decide)

theorem restReg_ne_stat (n : Fin 16) : SYS_STRAP ≠ PH_STAT n ∧ PH_CFG n ≠ PH_STAT n := by decide +revert

/-- The rest state of a phase follows from its legs, its port and the number of phases. -/
theorem State.restPh_congr {s t : State} {n : Fin 16} (hw : t.ph[n].wiring = s.ph[n].wiring) (hcfg : t.word (PH_CFG n) = s.word (PH_CFG n))
    (hstrap : t.word SYS_STRAP = s.word SYS_STRAP) : t.restPh n = s.restPh n := by
  obtain ⟨hb, hk, -⟩ : t.ph[n].legB = s.ph[n].legB ∧ t.ph[n].legK = s.ph[n].legK ∧ t.ph[n].trip = s.ph[n].trip := by
    simpa [PhH.wiring] using hw
  unfold State.restPh
  rw [hb, hk, State.fld_of_word (f := PH_CFG_PORT n) hcfg, State.fld_of_word (f := SYS_STRAP_PHCNT) hstrap]

/-- A phase at rest again: what it rests in, with no cause. -/
theorem oclCoolEnd_rests (hst : s.phSt n = .ocl) (hauto : s.on (PH_CFG_OCAUTO n) = true) (hstuck : s.ph[n].oclStuck = false) :
    Gives (.oclCoolEnd n) s (fun t => t.phSt n = s.restPh n ∧ t.fld (PH_STAT_CAUSE n) = 0) := by
  refine ⟨_, rfl, ?_⟩
  simp only [hst, hauto, hstuck, Bool.not_false, Bool.and_true]
  generalize hv : s.modPh n _ = v
  have hwired : v.ph[n].wiring = s.ph[n].wiring := by
    rw [← hv, State.modPh_same]
    rfl
  have hregs : v.regs = s.regs := by
    rw [← hv]
    rfl
  have hne := restReg_ne_stat n
  have hrest (m : Nat) : (v.setFld (PH_STAT_OCLN n) m).restPh n = s.restPh n :=
    State.restPh_congr hwired ((v.word_setFld_off m hne.2).trans (congrArg (RegFile.get · (PH_CFG n)) hregs))
      ((v.word_setFld_off m hne.1).trans (congrArg (RegFile.get · SYS_STRAP) hregs))
  rw [hrest]
  generalize v.setFld (PH_STAT_OCLN n) _ = u
  generalize hz : (u.setPh n (s.restPh n)).setFld (PH_STAT_CAUSE n) 0 = z
  have hsame : SamePhase n z z.syncPorts := ((State.syncPorts_only (.refl _ z) powerOps_moving.ports).but n).samePhase
  refine ⟨hsame.phSt.trans ?_, (State.fld_of_word hsame.stat).trans ?_⟩ <;> rw [← hz]
  · rw [State.phSt_setFld_ne _ _ _ (by simp) (by simp), State.phSt_setPh_same]
  · rw [State.fld_setFld_same _ _ _ (by simp) (by simp), Nat.zero_mod]

theorem tripMismatch_loses {b : Bool} (hb : b ≠ s.ph[n].trip) (hst : s.phSt n ∉ [.unassigned, .shorted, .lost]) :
    Gives (.tripMismatch n b) s (Lost n 6 srcTRIP_MISMATCH) := by
  refine ⟨_, rfl, ?_⟩
  rw [if_neg hb]
  exact s.markLost_lost n (cause := 6) hst (by decide)

theorem not_lost_of_switching (hsw : s.phSwitching n = true) : s.phSt n ∉ [.unassigned, .shorted, .lost] := by
  unfold State.phSwitching at hsw
  cases h : s.phSt n <;> simp_all

theorem phaseLoss_loses {c : Fin 4} {w : Nat} {k : Fin 2} (hsw : s.phSwitching n = true) (hport : s.portOf n = some k)
    (hc : (c = 0 → 64 ≤ s.ph[n].openN) ∧ (c = 1 → s.ph[n].susp = 0 ∧ s.ph[n].blend = 0 ∧ 4 * s.tsw k * 1000 ≤ w) ∧
      (c = 2 → 4 ≤ s.ph[n].stuckN) ∧ (c = 3 → 500 ≤ w ∧ s.cmpHeld (29 + n) true = false)) :
    Gives (.phaseLoss n c w) s (Lost n (c.val + 1) srcPHASE_LOST) := by
  obtain ⟨h0, h1, h2, h3⟩ := hc
  rw [Fin.getElem_fin] at h0 h1 h2
  have hst := not_lost_of_switching s n hsw
  have hevt (u : State) (f : Fld) (hu : u.phSt n = s.phSt n) (hf : f.off ≠ PH_STAT n) :
      (u.evt f).phSt n ∉ [.unassigned, .shorted, .lost] := by
    rwa [u.phSt_evt n hf, hu]
  refine ⟨_, rfl, ?_⟩
  match c with
  | 0 =>
    simp [hsw, h0 rfl]
    exact s.markLost_lost n (cause := 1) hst (by decide)
  | 1 =>
    obtain ⟨hsusp, hblend, hw⟩ := h1 rfl
    simp [hsw, hport, hsusp, hblend, hw]
    exact (s.evt (PH_EVT_SENSE n)).markLost_lost n (cause := 2) (hevt s _ rfl (by simp)) (by decide)
  | 2 =>
    simp [hsw, h2 rfl]
    exact (s.evt (PH_EVT_SENSE n)).markLost_lost n (cause := 3) (hevt s _ rfl (by simp)) (by decide)
  | 3 =>
    obtain ⟨hw, hheld⟩ := h3 rfl
    have hrep := (State.cmpReport_only (.refl _ s) (29 + n) true w (powerOps_moving.report n)).but n
    simp [hw, hheld]
    exact ((s.cmpReport (29 + n) true w).evt (PH_EVT_STAGEF n)).markLost_lost n (cause := 4) (hevt _ _ hrep.samePhase.phSt (by simp))
        (by decide)

/-! ### Probes -/

/-- The leg that a probe looks at. -/
def PhH.leg (p : PhH) (boost : Bool) : LegSt := if boost then p.legK else p.legB

theorem PhH.leg_of_wiring {p q : PhH} (h : p.wiring = q.wiring) (boost : Bool) : p.leg boost = q.leg boost := by
  obtain ⟨hb, hk, -⟩ : p.legB = q.legB ∧ p.legK = q.legK ∧ p.trip = q.trip := by simpa [PhH.wiring] using h
  unfold PhH.leg
  rw [hb, hk]

/-- The phase with one leg as a probe has found it. -/
def PhH.setLeg (p : PhH) (boost : Bool) (r : LegSt) : PhH := if boost then { p with legK := r } else { p with legB := r }

theorem PhH.leg_setLeg (p : PhH) (boost : Bool) (r : LegSt) : (p.setLeg boost r).leg boost = r := by
  cases boost <;> rfl

/-- What follows a probe, in SYS_PROBE and at the FETs of a port whose legs are all probed. -/
def State.afterProbe (s : State) (n : Fin 16) : State :=
  match (s.syncProbe n).portOf n with
  | some k => (s.syncProbe n).dsgAfterClose k
  | none => s.syncProbe n

theorem State.afterProbe_only {P : Place → Prop} (hp : P (.reg SYS_PROBE)) (hdsg : ∀ k, FP.dsgAfterClose P k) :
    OnlyAt P s (s.afterProbe n) := by
  have hsync : OnlyAt P s (s.syncProbe n) := State.setFld_only (.refl _ s) _ _ hp
  unfold State.afterProbe
  split
  · exact State.dsgAfterClose_only hsync _ (hdsg _)
  · exact hsync

/-- On the boost leg a short also opens the port of the phase (R69). -/
def State.openShorted (s : State) (n : Fin 16) (boost : Bool) : State :=
  if boost then
    match s.portOf n with
    | some k => ((s.modPk k (fun p => { p with shorted := true })).leaveHoldup k).openPort k
    | none => s
  else s

theorem State.openShorted_moving (b : Bool) : OnlyAt Moving s (s.openShorted n b) := by
  unfold State.openShorted
  refine OnlyAt.ite ?_ (.refl _ s)
  split
  · next k _ =>
    exact State.openPort_only (State.leaveHoldup_only (State.modPk_only (.refl Moving s) k _ rfl) k (powerOps_moving.leaveHoldup k)) k
      (powerOps_moving.openPort k)
  · exact .refl _ s

theorem State.openShorted_wired (b : Bool) : Wired s (s.openShorted n b) := by
  unfold State.openShorted
  refine Wired.ite ?_ (.refl s)
  split
  · next k _ =>
    have hmod : Wired s (s.modPk k (fun p => { p with shorted := true })) := (Wired.refl s).same rfl
    exact (State.leaveHoldup_wired hmod k).only (State.openPort_only (.refl _ _) k (phaseFreeOps_notPh.openPort k))
  · exact .refl s

theorem State.probeLeg_eq (b shorted : Bool) : s.probeLeg n b shorted =
    let v := s.modPh n (·.setLeg b (if shorted then .shorted else .pass))
    (if shorted then ((v.setPh n .shorted).syncPorts.fault srcPHASE_SHORTED n.val).openShorted n b
      else if v.phSt n = .pending then v.setPh n (v.restPh n) else v).afterProbe n := by
  have hleg : (fun p : PhH => if b then { p with legK := if shorted then LegSt.shorted else .pass }
      else { p with legB := if shorted then .shorted else .pass }) =
      (·.setLeg b (if shorted then .shorted else .pass)) := rfl
  unfold State.probeLeg
  dsimp only
  rw [hleg]
  generalize s.modPh n (·.setLeg b (if shorted then .shorted else .pass)) = v
  cases shorted with
  | false =>
    simp only [Bool.false_eq_true, if_false]
    generalize (if v.phSt n = .pending then v.setPh n (v.restPh n) else v) = u
    rfl
  | true =>
    simp only [if_true]
    generalize (v.setPh n .shorted).syncPorts.fault srcPHASE_SHORTED n.val = u
    generalize hw : u.openShorted n b = w
    unfold State.openShorted at hw
    rw [← hw]
    cases b <;> rfl

theorem State.afterProbe_samePhase : SamePhase n s (s.afterProbe n) :=
  ((s.afterProbe_only n (P := Moving) rfl powerOps_moving.dsg).but n).samePhase

theorem State.afterProbe_wired : Wired s (s.afterProbe n) :=
  (Wired.refl s).only (s.afterProbe_only n (fun _ => Place.noConfusion) phaseFreeOps_notPh.dsg)

/-- A shorted leg (R69). -/
theorem State.probeLeg_shorted (b : Bool) : (s.probeLeg n b true).phSt n = .shorted ∧ (s.probeLeg n b true).ph[n].leg b = .shorted ∧
    Raised (s.probeLeg n b true) srcPHASE_SHORTED n.val := by
  rw [s.probeLeg_eq]
  dsimp only
  rw [if_pos rfl, if_pos rfl]
  have hleg : (s.modPh n (·.setLeg b .shorted)).ph[n].leg b = .shorted := by rw [State.modPh_same, PhH.leg_setLeg]
  generalize s.modPh n (·.setLeg b .shorted) = v at *
  have hports := State.syncPorts_only (.refl Moving (v.setPh n .shorted)) powerOps_moving.ports
  have hwired : Wired v (v.setPh n .shorted).syncPorts :=
    (State.setPh_wired (.refl v) n .shorted).only (State.syncPorts_only (.refl _ _) phaseFreeOps_notPh.ports)
  obtain ⟨hst, -⟩ := samePhase_of_setPh hports
  generalize (v.setPh n .shorted).syncPorts = z at *
  generalize hu : z.fault srcPHASE_SHORTED n.val = u
  have hkept : SamePhase n u ((u.openShorted n b).afterProbe n) :=
    ((u.openShorted_moving n b).but n).samePhase.trans ((u.openShorted n b).afterProbe_samePhase n)
  refine ⟨hkept.phSt.trans (hu ▸ hst), ?_, (congrArg (_ ∈ ·.lines) hkept.flt).mpr (hu ▸ fault_raised _ _ _)⟩
  calc ((u.openShorted n b).afterProbe n).ph[n].leg b
    _ = (u.openShorted n b).ph[n].leg b := PhH.leg_of_wiring ((u.openShorted n b).afterProbe_wired n n) b
    _ = u.ph[n].leg b := PhH.leg_of_wiring (u.openShorted_wired n b n) b
    _ = v.ph[n].leg b := PhH.leg_of_wiring (hwired.same (t := u) (hu ▸ rfl) n) b
    _ = .shorted := hleg

/-- A good leg (R69, R70). -/
theorem State.probeLeg_good (b : Bool) : (s.probeLeg n b false).ph[n].leg b = .pass ∧
    (s.phSt n = .pending → (s.probeLeg n b false).phSt n = (s.probeLeg n b false).restPh n) := by
  rw [s.probeLeg_eq]
  dsimp only
  rw [if_neg Bool.false_ne_true, if_neg Bool.false_ne_true]
  have hleg : (s.modPh n (·.setLeg b .pass)).ph[n].leg b = .pass := by rw [State.modPh_same, PhH.leg_setLeg]
  have hst : (s.modPh n (·.setLeg b .pass)).phSt n = s.phSt n := rfl
  generalize s.modPh n (·.setLeg b .pass) = v at *
  generalize hu : (if v.phSt n = .pending then v.setPh n (v.restPh n) else v) = u
  have hwired : Wired v u := hu ▸ Wired.ite (State.setPh_wired (.refl v) n _) (.refl v)
  have hsame := u.afterProbe_samePhase n
  have hkept := u.afterProbe_wired n n
  refine ⟨?_, fun hpend => ?_⟩
  · rw [PhH.leg_of_wiring hkept, PhH.leg_of_wiring (hwired n), hleg]
  · have hset : v.setPh n (v.restPh n) = u := by rw [← hu, if_pos (hst.trans hpend)]
    rw [hsame.phSt, State.restPh_congr hkept hsame.cfg hsame.strap, ← hset, State.phSt_setPh_same]
    exact (State.restPh_congr (State.setPh_wired (.refl v) n _ n) (v.word_setPh_ne n _ (restReg_ne_stat n).2)
      (v.word_setPh_ne n _ (restReg_ne_stat n).1)).symm

theorem legProbe_shorts {b : Bool} {p : LegPulse} (hv : 45 / 10 < p.v) (htrip : (s.probeTrip n p).any (fun x => decide (x ≤ 20)) = true)
    (hleg : s.ph[n].leg b = .pending) : Gives (.legProbe n b p) s (fun t => t.phSt n = .shorted ∧ t.ph[n].leg b = .shorted ∧
      Raised t srcPHASE_SHORTED n.val) := by
  refine ⟨_, rfl, ?_⟩
  rw [if_pos ⟨hleg, hv⟩, State.probe, htrip]
  exact s.probeLeg_shorted n b

theorem legProbe_passes {b : Bool} {p : LegPulse} (hv : 45 / 10 < p.v) (htrip : (s.probeTrip n p).any (fun x => decide (x ≤ 20)) = false)
    (hleg : s.ph[n].leg b = .pending) : Gives (.legProbe n b p) s (fun t => t.ph[n].leg b = .pass ∧
      (s.phSt n = .pending → t.phSt n = t.restPh n)) := by
  refine ⟨_, rfl, ?_⟩
  rw [if_pos ⟨hleg, hv⟩, State.probe, htrip]
  exact s.probeLeg_good n b

/-! ### SYNC_IN and the BUS overshoot threshold -/

/-- A flag leaves the other bits of its register. -/
theorem State.on_evt_ne {o i j : Nat} (h : o ∉ lineOut) (hj : j < 32) (hij : i ≠ j) : (s.evt ⟨o, j, j⟩).on ⟨o, i, i⟩ = s.on ⟨o, i, i⟩ := by
  rw [State.on_iff_getLsbD, State.on_iff_getLsbD, State.evt, s.word_setFlags o _ h, if_pos rfl, BitVec.getLsbD_or]
  simp [bitMask_getLsbD _ _ _ hj]
  omega

theorem State.evt_phg (f : Fld) : (s.evt f).phg = s.phg :=
  (State.evt_only (P := (· ≠ .phg)) (.refl _ s) f (by simp [FP.evt, FP.setFlags, FP.lineRise, FP.msix, FP.send])) .phg (by simp)

theorem syncLost_returns (hpll : s.phg.pllSync = true) : Gives .syncLost s (fun t => t.phg.pllSync = false ∧
    t.on PH_GSTAT_SYNCLOCK = false ∧ t.on PH_GSTAT_SYNC_LOST = true ∧ Raised t srcSYNC_LOST 0) := by
  refine ⟨_, rfl, ?_⟩
  rw [if_pos hpll]
  dsimp only
  generalize hu : State.setOn { s with phg := { s.phg with pllSync := false, syncGood := 0 } } PH_GSTAT_SYNCLOCK false = u
  have hpll' : u.phg.pllSync = false := hu ▸ rfl
  have hlock : u.on PH_GSTAT_SYNCLOCK = false := hu ▸ State.on_setOn_same _ false (by simp)
  refine ⟨?_, ?_, State.on_evt_same u (by decide) (by decide), fault_raised _ _ _⟩
  · exact (congrArg PhGH.pllSync (u.evt_phg _)).trans hpll'
  · exact (u.on_evt_ne (by decide) (by decide) (by decide)).trans hlock

theorem syncRelock_locks (hen : s.on PH_SYNC_EN = true) (hlo : 10667 ≤ s.syncPeriod) (hhi : s.syncPeriod ≤ 128000) :
    Gives .syncRelock s (fun t => t.phg.pllSync = true ∧ t.on PH_GSTAT_SYNCLOCK = true) := by
  refine ⟨_, rfl, ?_⟩
  rw [if_pos (by simp [hen, State.syncRange, hlo, hhi])]
  exact ⟨rfl, State.on_setOn_same _ true (by simp)⟩

theorem anyDis_iff : s.anyDis = true ↔ s.dir 0 = .dis ∨ s.dir 1 = .dis := by
  simp [State.anyDis]

theorem busovUpdate_on (hen : s.on PH_BUSOV_OVEN = true) (hdis : s.dir 0 = .dis ∨ s.dir 1 = .dis) : Gives .busovUpdate s (fun t =>
    t.phg.busovOr = true ∧ t.phg.busov = (if s.role 0 = .holdup ∨ s.role 1 = .holdup then (s.fld PH_VREF_VREF : Rat) / 10000
      else s.phg.vbus) + (s.fld PH_BUSOV_OVMV : Rat) / 50) := by
  refine ⟨_, rfl, ?_⟩
  simp only [hen, (anyDis_iff s).mpr hdis, Bool.and_self, if_true, true_and, State.busovV]
  split <;> rfl

theorem busovUpdate_off (h0 : s.dir 0 ≠ .dis) (h1 : s.dir 1 ≠ .dis) : Gives .busovUpdate s (fun t => t.phg.busovOr = false) := by
  refine ⟨_, rfl, ?_⟩
  simp [State.anyDis, h0, h1]
end

end Sys2Proof.Machine

open Sys2Proof Sys2Proof.Machine

/-- Settles O15: each command writes its own fields, and what follows on the port leaves the phase's registers, its legs and the events
standing at the collector's inputs. -/
theorem phaseLatchesAndSync : Obligations.PhaseLatchesAndSync := by
  unfold Obligations.PhaseLatchesAndSync
  refine ⟨?_, ?_, ?_, ?_, ?_, ?_, ?_, ?_, ?_, ?_⟩
  · intro n k s hport hsw hmean
    obtain ⟨t, ht, h⟩ := slowOverload_latches s n hport hsw hmean
    exact ⟨t, ht, h.st, h.cause, h.evt, h.count, h.raised⟩
  · exact fun n s hst hauto hstuck => oclCoolEnd_rests s n hst hauto hstuck
  · intro n b s hb hst
    obtain ⟨t, ht, h⟩ := tripMismatch_loses s n hb hst
    exact ⟨t, ht, h.st, h.cause, h.evt, h.raised⟩
  · intro n c w k s hsw hport hc
    obtain ⟨t, ht, h⟩ := phaseLoss_loses s n hsw hport hc
    exact ⟨t, ht, h.st, h.cause, h.evt, h.raised⟩
  · exact fun n b p s hv htrip hleg => legProbe_shorts s n hv htrip hleg
  · exact fun n b p s hv htrip hleg => legProbe_passes s n hv htrip hleg
  · exact fun s hpll => syncLost_returns s hpll
  · exact fun s hen hlo hhi => syncRelock_locks s hen hlo hhi
  · exact fun s hen hdis => busovUpdate_on s hen hdis
  · exact fun s h0 h1 => busovUpdate_off s h0 h1

end

section
/-! PROOF. Temperatures: the compensation (R356). -/

namespace Sys2Proof.Machine

section
variable (s : State)

/-- HOLD of THM_COMP as it is to be written (R356). -/
def State.compHeld (s : State) : Bool := (List.finRange 4).any (fun i => (s.compTemp i).isNone)

/-- A step toward a code that stays in the field's range is what the field then holds. -/
theorem State.sfld_setSfld_toward {f : Fld} (want : Int) {lim : Int} (hf : f.Fits) (hlim : 0 ≤ lim)
    (hlo : lim - 2 ^ (f.width - 1) ≤ s.sfld f) (hhi : s.sfld f + lim < 2 ^ (f.width - 1)) :
    (s.setSfld f (toward (s.sfld f) want lim)).sfld f = toward (s.sfld f) want lim := by
  rw [s.sfld_setSfld_same _ hf]
  unfold toward
  push_cast
  generalize (2 : Int) ^ (f.width - 1) = m at *
  omega

theorem State.sfld_of_fld {s t : State} {f : Fld} (h : t.fld f = s.fld f) : t.sfld f = s.sfld f := congrArg (signed f.width) h

/-- A sensor's temperature, in THM_TS, is not in THM_COMP. -/
theorem State.compTemp_of_word {s t : State} (h : ∀ i : Fin 9, t.word (THM_TS i) = s.word (THM_TS i)) (q : Fin 4) :
    t.compTemp q = s.compTemp q := by
  have hvalid : t.tsValid = s.tsValid := funext fun i => congrArg (· == 0) (State.fld_of_word (h i))
  have hcode : t.tsCode = s.tsCode := funext fun i => State.sfld_of_fld (State.fld_of_word (h i))
  unfold State.compTemp State.dieValid
  rw [hvalid, hcode]

theorem ts_ne_comp : ∀ i : Fin 9, THM_TS i ≠ THM_COMP := by decide

/-- The fields of THM_COMP beside HOLD. -/
theorem State.fld_setOn_hold (b : Bool) {f : Fld} (hf : f.hi < 31 ∧ f.lo ≤ f.hi) : (s.setOn THM_COMP_HOLD b).fld f = s.fld f :=
  s.fld_setFld_ne _ (by simp) ⟨by omega, hf.2⟩ (.inr (.inl hf.1))

/-- The state in which HOLD has been written. -/
def State.compHold (s : State) : State := s.setOn THM_COMP_HOLD s.compHeld

theorem State.compHold_compTemp (q : Fin 4) : s.compHold.compTemp q = s.compTemp q :=
  State.compTemp_of_word (fun i => s.word_setFld_off _ (ts_ne_comp i)) q

theorem State.compHold_on : s.compHold.on THM_COMP_HOLD = s.compHeld := s.on_setOn_same _ (by simp)

/-- One update of a correction kept in THM_COMP: its step, with HOLD as written. -/
theorem State.comp_step {f : Fld} (hf : f.hi < 31 ∧ f.lo ≤ f.hi) (want : Int) {lim : Int} (hlim : 0 ≤ lim)
    (hlo : lim - 2 ^ (f.width - 1) ≤ s.sfld f) (hhi : s.sfld f + lim < 2 ^ (f.width - 1)) :
    (s.compHold.setSfld f (toward (s.compHold.sfld f) want lim)).on THM_COMP_HOLD = s.compHeld ∧
      (s.compHold.setSfld f (toward (s.compHold.sfld f) want lim)).sfld f = toward (s.sfld f) want lim := by
  have hfits : f.Fits := ⟨by omega, hf.2⟩
  have hkeep : s.compHold.sfld f = s.sfld f := State.sfld_of_fld (s.fld_setOn_hold _ hf)
  refine ⟨?_, ?_⟩
  · have hon : (s.compHold.setSfld f (toward (s.compHold.sfld f) want lim)).fld THM_COMP_HOLD = s.compHold.fld THM_COMP_HOLD :=
      State.fld_setFld_ne _ _ hfits (by simp) (.inr (.inr hf.1))
    exact (congrArg (· != 0) hon).trans s.compHold_on
  · rw [← hkeep] at hlo hhi ⊢
    exact s.compHold.sfld_setSfld_toward want hfits hlim hlo hhi

/-- One correction moves, HOLD having been written. -/
def State.compMove (s : State) (x : Rat) : Fin 4 → State
  | 0 => s.setSfld THM_COMP_BG (toward (s.sfld THM_COMP_BG) (Config.compCode 0 x) 2)
  | 1 => if s.on SYS_STRAP_XOSEL then s else s.setSfld THM_COMP_REF (toward (s.sfld THM_COMP_REF) (Config.compCode 1 x) 1)
  | 2 => s.setSfld THM_COMP_SAFE (toward (s.sfld THM_COMP_SAFE) (Config.compCode 2 x) 1)
  | 3 => { s with aon := { s.aon with trim := toward s.aon.trim (Config.compCode 3 x) 1 } }

theorem execThermalCompUpdate_eq (q : Fin 4) (haw : s.awake = true) : execThermalCompUpdate q s = .next (match s.compHold.compTemp q with
    | none => s.compHold
    | some x => s.compHold.compMove x q) := by
  unfold execThermalCompUpdate
  rw [haw]
  show Host.Outcome.next (match s.compHold.compTemp q with | none => _ | some _ => _) = _
  cases s.compHold.compTemp q with
  | none => rfl
  | some x => match q with
    | 0 | 1 | 2 | 3 => rfl

theorem thermalCompUpdate_moves {q : Fin 4} {x : Rat} (haw : s.awake = true) (hx : s.compTemp q = some x) :
    exec (.thermalCompUpdate q) s = .next (s.compHold.compMove x q) := by
  refine (execThermalCompUpdate_eq s q haw).trans ?_
  rw [s.compHold_compTemp, hx]

/-- With no valid sensor on its die a correction stays, and HOLD says so (R356). -/
theorem thermalCompUpdate_holds {q : Fin 4} (haw : s.awake = true) (hx : s.compTemp q = none) : Gives (.thermalCompUpdate q) s (fun t =>
    t.on THM_COMP_HOLD = true ∧ t.fld THM_COMP_BG = s.fld THM_COMP_BG ∧ t.fld THM_COMP_REF = s.fld THM_COMP_REF ∧
      t.fld THM_COMP_SAFE = s.fld THM_COMP_SAFE ∧ t.aon.trim = s.aon.trim) := by
  refine ⟨s.compHold, ?_, ?_, s.fld_setOn_hold _ (by simp), s.fld_setOn_hold _ (by simp), s.fld_setOn_hold _ (by simp), rfl⟩
  · refine (execThermalCompUpdate_eq s q haw).trans ?_
    rw [s.compHold_compTemp, hx]
  · rw [s.compHold_on]
    exact List.any_eq_true.mpr ⟨q, List.mem_finRange q, by rw [hx]; rfl⟩

theorem thermalCompUpdate_bandgap {x : Rat} (haw : s.awake = true) (hx : s.compTemp 0 = some x)
    (hlo : 2 - 2 ^ (THM_COMP_BG.width - 1) ≤ s.sfld THM_COMP_BG) (hhi : s.sfld THM_COMP_BG + 2 < 2 ^ (THM_COMP_BG.width - 1)) :
    Gives (.thermalCompUpdate 0) s (fun t => t.on THM_COMP_HOLD = s.compHeld ∧
      t.sfld THM_COMP_BG = toward (s.sfld THM_COMP_BG) (Config.compCode 0 x) 2) :=
  ⟨_, thermalCompUpdate_moves s haw hx, s.comp_step (by simp) _ (by decide) hlo hhi⟩

theorem thermalCompUpdate_ref {x : Rat} (haw : s.awake = true) (hx : s.compTemp 1 = some x) (hxo : s.on SYS_STRAP_XOSEL = false)
    (hlo : 1 - 2 ^ (THM_COMP_REF.width - 1) ≤ s.sfld THM_COMP_REF) (hhi : s.sfld THM_COMP_REF + 1 < 2 ^ (THM_COMP_REF.width - 1)) :
    Gives (.thermalCompUpdate 1) s (fun t => t.on THM_COMP_HOLD = s.compHeld ∧
      t.sfld THM_COMP_REF = toward (s.sfld THM_COMP_REF) (Config.compCode 1 x) 1) := by
  have hstrap : s.compHold.on SYS_STRAP_XOSEL = false := (State.on_of_word (s.word_setFld_off _ (by decide))).trans hxo
  refine ⟨_, thermalCompUpdate_moves s haw hx, ?_⟩
  rw [State.compMove, hstrap]
  exact s.comp_step (by simp) _ (by decide) hlo hhi

theorem thermalCompUpdate_safe {x : Rat} (haw : s.awake = true) (hx : s.compTemp 2 = some x)
    (hlo : 1 - 2 ^ (THM_COMP_SAFE.width - 1) ≤ s.sfld THM_COMP_SAFE) (hhi : s.sfld THM_COMP_SAFE + 1 < 2 ^ (THM_COMP_SAFE.width - 1)) :
    Gives (.thermalCompUpdate 2) s (fun t => t.on THM_COMP_HOLD = s.compHeld ∧
      t.sfld THM_COMP_SAFE = toward (s.sfld THM_COMP_SAFE) (Config.compCode 2 x) 1) :=
  ⟨_, thermalCompUpdate_moves s haw hx, s.comp_step (by simp) _ (by decide) hlo hhi⟩

theorem thermalCompUpdate_aon {x : Rat} (haw : s.awake = true) (hx : s.compTemp 3 = some x) : Gives (.thermalCompUpdate 3) s (fun t =>
    t.on THM_COMP_HOLD = s.compHeld ∧ t.aon.trim = toward s.aon.trim (Config.compCode 3 x) 1) :=
  ⟨_, thermalCompUpdate_moves s haw hx, s.compHold_on, rfl⟩
end

end Sys2Proof.Machine
end

section
/-! PROOF. Temperatures: the stages of the phases and the caps they set (R346, R352). -/

namespace Sys2Proof.Machine

/-! ### The cap -/

section
variable (s : State) (k : Fin 2)

theorem State.setPh_php (n : Fin 16) (st : PhSt) : (s.setPh n st).php = s.php := by cases st <;> rfl

theorem State.syncPort_php : (s.syncPort k).php = s.php := rfl

theorem State.syncElig_php : (s.syncElig k).php = s.php := rfl

theorem State.count_php (f : Fld) : (s.count f).php = s.php := by
  unfold State.count
  split <;> rfl

theorem State.evt_php (f : Fld) : (s.evt f).php = s.php := by
  refine Vector.ext fun i hi => ?_
  exact (State.evt_only (P := (· ≠ .php ⟨i, hi⟩)) (.refl _ s) f (by simp [FP.evt, FP.setFlags, FP.lineRise, FP.msix, FP.send]))
    (.php ⟨i, hi⟩) (by simp)

theorem State.shedOne_ncap : (s.shedOne k).php[k].ncap = s.php[k].ncap := by
  unfold State.shedOne
  split
  · next p _ =>
    rw [State.syncPort_php, State.modPhp_same, State.count_php, State.setPh_php]
  · rfl

/-- Shedding down to a cap leaves the cap. -/
theorem State.capShed_ncap (fuel : Nat) : (s.capShed k fuel).php[k].ncap = s.php[k].ncap := by
  induction fuel generalizing s with
  | zero => rfl
  | succ fuel ih =>
    unfold State.capShed
    dsimp only
    split
    · split
      · rw [ih, State.setPh_php]
      · rw [ih, State.shedOne_ncap]
    · rfl

/-- The places other than the flags and the counts of THM. -/
abbrev NotThmLog (l : Place) : Prop := l ≠ .reg THM_EVT ∧ l ≠ .reg THM_CNT

theorem capShed_notThmLog : FP.syncPort NotThmLog k ∧ FP.capShed NotThmLog k ∧ FP.syncElig NotThmLog k := by
  have hP : ∀ l, NotThmLog l → NotThmLog l := fun _ h => h
  repeat' first
    | exact hP _ (by decide +revert)
    | apply And.intro
    | intro _

theorem State.capFall_falls (hcap : 1 < min (s.fld (PHP_SHED_NMAX k)) s.php[k].ncap) :
    (s.capFall k).php[k].ncap = min (s.fld (PHP_SHED_NMAX k)) s.php[k].ncap - 1 ∧ (s.capFall k).on THM_EVT_CAP = true ∧
      Counted s (s.capFall k) THM_CNT_CAPN := by
  obtain ⟨hport, hshed, helig⟩ := capShed_notThmLog k
  unfold State.capFall
  dsimp only
  rw [if_neg (by omega)]
  generalize min (s.fld (PHP_SHED_NMAX k)) s.php[k].ncap - 1 = c
  generalize hu : s.modPhp k _ = u
  have hncap : u.php[k].ncap = c := by rw [← hu, State.modPhp_same]
  have hcnt : u.fld THM_CNT_CAPN = s.fld THM_CNT_CAPN := by rw [← hu]; rfl
  have hon : (u.evt THM_EVT_CAP).on THM_EVT_CAP = true := u.on_evt_same (by decide) (by decide)
  have hevtcnt : (u.evt THM_EVT_CAP).fld THM_CNT_CAPN = s.fld THM_CNT_CAPN :=
    (State.fld_of_word (u.word_setFlags_ne _ (by decide) (by decide))).trans hcnt
  have hevtncap : (u.evt THM_EVT_CAP).php[k].ncap = c := by rw [State.evt_php, hncap]
  generalize u.evt THM_EVT_CAP = v at *
  have hcount : (v.count THM_CNT_CAPN).fld THM_CNT_CAPN = min (2 ^ THM_CNT_CAPN.width - 1) (s.fld THM_CNT_CAPN + 1) := by
    rw [v.fld_count_same (by simp), hevtcnt]
  have hcountncap : (v.count THM_CNT_CAPN).php[k].ncap = c := by rw [State.count_php, hevtncap]
  have hcounton : (v.count THM_CNT_CAPN).on THM_EVT_CAP = true := (State.on_of_word (v.word_count_off (by decide))).trans hon
  generalize v.count THM_CNT_CAPN = w at *
  have hrest := State.syncElig_only (State.capShed_only (State.syncPort_only (.refl NotThmLog w) k hport) k 16 hshed) k helig
  have hrestncap : (((w.syncPort k).capShed k 16).syncElig k).php[k].ncap = w.php[k].ncap := by
    rw [State.syncElig_php, State.capShed_ncap, State.syncPort_php]
  exact ⟨hrestncap.trans hcountncap, (State.on_of_word (hrest.word (by simp))).trans hcounton, (hrest.fld (by simp)).trans hcount⟩

theorem ncapStep_falls (hcapped : s.capped k = true) (hhot : s.capHot k = true) (hago : 1000000 ≤ (s.devtime - s.php[k].ncapAt).toNat)
    (hcap : 1 < min (s.fld (PHP_SHED_NMAX k)) s.php[k].ncap) : Gives (.ncapStep k) s (fun t =>
      t.php[k].ncap = min (s.fld (PHP_SHED_NMAX k)) s.php[k].ncap - 1 ∧ t.on THM_EVT_CAP = true ∧ Counted s t THM_CNT_CAPN) := by
  refine ⟨_, rfl, ?_⟩
  rw [if_pos hcapped, if_neg (not_or.mpr ⟨by omega, by simp [hhot]⟩)]
  exact s.capFall_falls k hcap

theorem ncapStep_stays (hcapped : s.capped k = true) (hhot : s.capHot k = false) : Gives (.ncapStep k) s (fun t => t = s) := by
  refine ⟨_, rfl, ?_⟩
  rw [if_pos hcapped, if_pos (.inr hhot)]

theorem ncapStep_rises (hcapped : s.capped k = false) (hago : 10000000 ≤ (s.devtime - s.php[k].ncapAt).toNat) : Gives (.ncapStep k) s
    (fun t => t.php[k].ncap = if s.php[k].ncap < s.fld (PHP_SHED_NMAX k) then s.php[k].ncap + 1 else 16) := by
  refine ⟨_, rfl, ?_⟩
  rw [if_neg (show ¬ s.capped k = true by simp [hcapped])]
  dsimp only
  rw [if_neg (not_lt.mpr hago)]
  split <;> exact congrArg PhpH.ncap (s.modPhp_same k _)

end
end Sys2Proof.Machine
end

section
/-! PROOF. Temperatures: what a stage's reading does beside its own register (R346, R352). -/

namespace Sys2Proof.Machine

/-- The stage of phase `n` shows the temperature and the count of invalid readings that it did. -/
structure SameStage (n : Fin 16) (s t : State) : Prop where
  temp : t.fld (PH_STAT_TSTAGE n) = s.fld (PH_STAT_TSTAGE n)
  bad : t.thm.stgBad[n] = s.thm.stgBad[n]

section
variable {n : Fin 16} {s₀ s t : State}

theorem SameStage.refl (n : Fin 16) (s : State) : SameStage n s s := ⟨rfl, rfl⟩

theorem SameStage.of_word (h : SameStage n s₀ s) (hw : t.word (PH_STAT n) = s.word (PH_STAT n)) (ht : t.thm = s.thm) :
    SameStage n s₀ t := ⟨(State.fld_of_word hw).trans h.temp, by rw [ht, h.bad]⟩

theorem SameStage.only (h : SameStage n s₀ s) (k : OnlyAt Moving s t) : SameStage n s₀ t :=
  h.of_word (k.but n).samePhase.stat (k.thm (by simp [Place.held]))

theorem SameStage.evt (h : SameStage n s₀ s) (f : Fld) (hf : f.off ≠ PH_STAT n) : SameStage n s₀ (s.evt f) :=
  h.of_word (s.word_setFlags_ne _ (phReg_not_lineOut n _ (by simp)) hf.symm) (s.evt_thm f)

theorem State.setPh_thm (s : State) (m : Fin 16) (st : PhSt) : (s.setPh m st).thm = s.thm := by cases st <;> rfl

theorem stat_ne_thmEvt (n : Fin 16) : PH_STAT n ≠ THM_EVT := by decide +revert
theorem stat_ne_thmCnt (n : Fin 16) : PH_STAT n ≠ THM_CNT := by decide +revert
theorem stat_ne_thmStat (n : Fin 16) : PH_STAT n ≠ THM_STAT := by decide +revert

theorem stat_ne_portEvt (n : Fin 16) (k : Fin 2) : PH_STAT n ≠ PHP_EVT k := by decide +revert

/-- A new state of any phase. -/
theorem SameStage.setPh (h : SameStage n s₀ s) (m : Fin 16) (st : PhSt) : SameStage n s₀ (s.setPh m st) where
  temp := by rw [State.fld_setPh, State.fld_setFld_ne _ _ (by simp) (by simp) (.inr (.inl (by simp))), h.temp]
  bad := by rw [State.setPh_thm, h.bad]

theorem State.count_thm (s : State) (f : Fld) : (s.count f).thm = s.thm := by
  unfold State.count
  split <;> rfl

theorem SameStage.count (h : SameStage n s₀ s) (f : Fld) (hf : PH_STAT n ≠ f.off) : SameStage n s₀ (s.count f) :=
  h.of_word (s.word_count_off hf) (s.count_thm f)

theorem phpCnt_ne_stat (k : Fin 2) (n : Fin 16) : PH_STAT n ≠ (PHP_CNT_SHEDS k).off := by decide +revert

theorem SameStage.shedOne (h : SameStage n s₀ s) (k : Fin 2) : SameStage n s₀ (s.shedOne k) := by
  unfold State.shedOne
  split
  · next p _ =>
    have hshed := ((h.setPh p .shedding).count (PHP_CNT_SHEDS k) (phpCnt_ne_stat k n))
    generalize (s.setPh p .shedding).count (PHP_CNT_SHEDS k) = u at *
    have hmod : SameStage n s₀ (u.modPhp k (fun p => { p with cmds := [] })) := hshed.of_word rfl rfl
    exact hmod.only (State.syncPort_only (.refl Moving _) k (powerOps_moving.port k))
  · exact h

theorem SameStage.capShed (h : SameStage n s₀ s) (k : Fin 2) (fuel : Nat) : SameStage n s₀ (s.capShed k fuel) := by
  induction fuel generalizing s with
  | zero => exact h
  | succ fuel ih =>
    unfold State.capShed
    dsimp only
    split
    · split
      · exact ih (h.setPh _ _)
      · exact ih (h.shedOne k)
    · exact h

theorem SameStage.capFall (h : SameStage n s₀ s) (k : Fin 2) : SameStage n s₀ (s.capFall k) := by
  unfold State.capFall
  dsimp only
  split
  · exact h
  · generalize hu : s.modPhp k _ = u
    have hmod : SameStage n s₀ u := h.of_word (by rw [← hu]; rfl) (by rw [← hu]; rfl)
    have hlog : SameStage n s₀ ((u.evt THM_EVT_CAP).count THM_CNT_CAPN) := (hmod.evt _ (stat_ne_thmEvt n).symm).count _ (stat_ne_thmCnt n)
    generalize (u.evt THM_EVT_CAP).count THM_CNT_CAPN = v at *
    have hport := hlog.only (State.syncPort_only (.refl Moving v) k (powerOps_moving.port k))
    exact (hport.capShed k 16).only (State.syncElig_only (.refl Moving _) k (powerOps_moving.elig k))

theorem SameStage.exclude (h : SameStage n s₀ s) (m : Fin 16) : SameStage n s₀ (s.exclude m) := by
  have hops := powerOps_moving
  have hexcl (x : BitVec 16) : SameStage n s₀ ({ s with thm := { s.thm with excl := x } }.evt THM_EVT_EXCL) :=
    SameStage.evt (s := { s with thm := { s.thm with excl := x } }) ⟨h.temp, h.bad⟩ _ (stat_ne_thmEvt n).symm
  unfold State.exclude
  dsimp only
  split
  · exact h
  · generalize hu : State.evt _ THM_EVT_EXCL = u
    have hu' : SameStage n s₀ u := hu ▸ hexcl _
    generalize hv : (if (u.phSwitching m || u.phSt m == .waking || u.phSt m == .test) = true then u.setPh m (u.restPh m) else u) = v
    have hv' : SameStage n s₀ v := by
      rw [← hv]
      split
      · exact hu'.setPh m _
      · exact hu'
    split
    · exact hv'
    · next k _ =>
      have hport := hv'.only (State.syncPort_only (.refl Moving v) k (hops.port k))
      generalize v.syncPort k = w at *
      generalize hx : (if w.ipl k < s.ipl k then w.evt (PHP_EVT_LIMSCALE k) else w) = x
      have hx' : SameStage n s₀ x := by
        rw [← hx]
        split
        · exact hport.evt _ (stat_ne_portEvt n k).symm
        · exact hport
      exact hx'.only (State.syncElig_only (State.gustLoss_only (State.cutPower_only (.refl Moving x) k (hops.cut k)) k (hops.gustLoss k))
        k (hops.elig k))

theorem SameStage.ite {c : Prop} [Decidable c] (hs : SameStage n s₀ s) (ht : SameStage n s₀ t) : SameStage n s₀ (if c then s else t) := by
  split
  · exact hs
  · exact ht

/-- The phase is excluded or its exclusion ends. -/
theorem SameStage.endExclusion (h : SameStage n s₀ s) (c : Prop) [Decidable c] (x : BitVec 16) : SameStage n s₀
    (if c then s.exclude n else if s.thm.excl.getLsbD n then ({ s with thm := { s.thm with excl := x } }).syncPorts else s) := by
  have hexcl : SameStage n s₀ { s with thm := { s.thm with excl := x } } := ⟨h.temp, h.bad⟩
  generalize { s with thm := { s.thm with excl := x } } = u at *
  exact (h.exclude n).ite ((hexcl.only (State.syncPorts_only (.refl Moving u) powerOps_moving.ports)).ite h)

/-- A valid reading's actions leave the temperature and clear the count of invalid readings. -/
theorem State.stageActions_stage (s : State) (n : Fin 16) (x : Rat) :
    (s.stageActions n x).fld (PH_STAT_TSTAGE n) = s.fld (PH_STAT_TSTAGE n) ∧ (s.stageActions n x).thm.stgBad[n] = 0 := by
  unfold State.stageActions
  dsimp only
  generalize hu : State.setFld _ THM_STAT_SKIPMAP _ = u
  have htemp : u.fld (PH_STAT_TSTAGE n) = s.fld (PH_STAT_TSTAGE n) := by
    rw [← hu]
    exact State.fld_of_word (State.word_setFld_off _ _ (stat_ne_thmStat n))
  have hbad : u.thm.stgBad[n] = 0 := by
    rw [← hu]
    exact vmod_same _ _ _
  suffices h : SameStage n u _ from ⟨h.temp.trans htemp, h.bad.trans hbad⟩
  clear hu
  generalize (if s.fld (PH_CFG_PORT n) = 0 then some (0 : Fin 2) else if s.fld (PH_CFG_PORT n) = 1 then some 1 else none) = port
  cases port with
  | none => exact SameStage.endExclusion (.refl n u) _ _
  | some k =>
    dsimp only
    refine SameStage.endExclusion (SameStage.ite ((SameStage.refl n u).capFall k) (SameStage.ite ?_ (.refl n u))) _ _
    exact (SameStage.refl n u).of_word rfl rfl

/-- A valid reading of a stage (R346). -/
theorem stageTempReading_valid {v : Rat} (haw : s.awake = true) (hseen : s.meas.tseen.getLsbD n = true) (hv : s.meas.tflt[n] = v)
    (hlo : 28 / 100 ≤ v) (hhi : v ≤ 12 / 5) : Gives (.stageTempReading n) s (fun t =>
      t.sfld (PH_STAT_TSTAGE n) = max (-128) (min 127 (if 9 / 5 ≤ v then (150 : Rat) else 25 + (v - 8 / 10) * 125).floor) ∧
        t.thm.stgBad[n] = 0) := by
  refine ⟨_, rfl, ?_⟩
  dsimp only
  rw [if_neg (by simp [haw, hseen]), hv, if_neg (not_lt.mpr hhi), if_neg (not_lt.mpr hlo)]
  generalize (if 9 / 5 ≤ v then (150 : Rat) else 25 + (v - 8 / 10) * 125) = x
  obtain ⟨htemp, hbad⟩ := (s.setScode (PH_STAT_TSTAGE n) x).stageActions_stage n x
  exact ⟨(State.sfld_of_fld htemp).trans (s.sfld_setSfld_same x.floor (by simp)), hbad⟩

/-- The places other than the flags of THM. -/
abbrev NotThmEvt (l : Place) : Prop := l ≠ .reg THM_EVT

theorem exclude_notThmEvt (n : Fin 16) (k : Fin 2) : FP.setPh NotThmEvt n ∧ FP.syncPort NotThmEvt k ∧ FP.evt NotThmEvt (PHP_EVT k) ∧
    FP.cutPower NotThmEvt k ∧ FP.gustLoss NotThmEvt k ∧ FP.syncElig NotThmEvt k := by
  have hP : ∀ l, NotThmEvt l → NotThmEvt l := fun _ h => h
  repeat' first
    | exact hP _ (by decide +revert)
    | apply And.intro
    | intro _

/-- An exclusion sets its own flag of THM_EVT and clears none. -/
theorem State.exclude_evt (s : State) (m : Fin 16) {i : Nat} (h : s.on ⟨THM_EVT, i, i⟩ = true) :
    (s.exclude m).on ⟨THM_EVT, i, i⟩ = true := by
  unfold State.exclude
  dsimp only
  split
  · exact h
  · generalize hu : State.evt _ THM_EVT_EXCL = u
    have hon : u.on ⟨THM_EVT, i, i⟩ = true := hu ▸ State.on_setFlags_mono _ _ _ (by decide) h
    suffices hrest : OnlyAt NotThmEvt u _ from (State.on_of_word (hrest.word (by simp))).trans hon
    have hset : OnlyAt NotThmEvt u (if (u.phSwitching m || u.phSt m == .waking || u.phSt m == .test) = true then u.setPh m (u.restPh m)
        else u) :=
      OnlyAt.ite (State.setPh_only (.refl _ u) m _ (exclude_notThmEvt m 0).1) (.refl _ u)
    generalize (if (u.phSwitching m || u.phSt m == .waking || u.phSt m == .test) = true then u.setPh m (u.restPh m) else u) = v at *
    split
    · exact hset
    · next k _ =>
      obtain ⟨-, hport, hevt, hcut, hgust, helig⟩ := exclude_notThmEvt m k
      have hw := State.syncPort_only hset k hport
      generalize v.syncPort k = w at *
      exact State.syncElig_only (State.gustLoss_only (State.cutPower_only (OnlyAt.ite (State.evt_only hw _ hevt) hw) k hcut) k hgust)
          k helig

/-- A reading too low to be one (R346). -/
theorem stageTempReading_invalid {v : Rat} (haw : s.awake = true) (hseen : s.meas.tseen.getLsbD n = true) (hv : s.meas.tflt[n] = v)
    (hlo : v < 28 / 100) : Gives (.stageTempReading n) s (fun t =>
      t.thm.stgBad[n] = s.thm.stgBad[n] + 1 ∧ t.on THM_EVT_STGINV = true) := by
  refine ⟨_, rfl, ?_⟩
  dsimp only
  rw [if_neg (by simp [haw, hseen]), hv, if_neg (by linarith), if_pos hlo]
  generalize hu : State.evt _ THM_EVT_STGINV = u
  have hbad : u.thm.stgBad[n] = s.thm.stgBad[n] + 1 := by
    rw [← hu, State.evt_thm]
    exact vmod_same _ _ _
  have hon : u.on THM_EVT_STGINV = true := hu ▸ State.on_evt_same _ (by decide) (by decide)
  split
  · exact ⟨((SameStage.refl n u).exclude n).bad.trans hbad, u.exclude_evt n hon⟩
  · exact ⟨hbad, hon⟩

end
end Sys2Proof.Machine
end

section
/-! PROOF. Temperatures: a reading of the die (R345, R349, R350, R354, R357). -/

namespace Sys2Proof.Machine

/-! ### The readings of the nine sensors -/

/-- The temperature that a reading gives sensor `i`, 0.0625 °C: TS0 to TS3 by their voltages, TS4 to TS8 by their codes. -/
def State.dieRead (s : State) (tc : Vector Int 5) (i : Fin 9) : Rat :=
  if i.val < 4 then 16 * (25 + (7 / 10 - s.meas.v[Fin.ofNat 48 (38 + i.val)]) * 500) else (tc[Fin.ofNat 5 (i.val - 4)] : Rat)

/-- Store codes for some sensors. -/
def State.putCodes (s : State) (g : Fin 9 → Rat) (l : List (Fin 9)) : State := s.each l (fun t i => t.setScode (THM_TS_T i) (g i))

section
variable (s : State) (tc : Vector Int 5)

theorem dieRead_list : (List.range 4).map (fun i => 16 * (25 + (7 / 10 - s.meas.v[Fin.ofNat 48 (38 + i)]) * 500)) ++
    tc.toList.map (fun (c : Int) => (c : Rat)) = (List.finRange 9).map (s.dieRead tc) := by
  refine List.ext_getElem (by simp) (fun i hi hi' => ?_)
  have hi9 : i < 9 := by simpa using hi'
  simp only [List.getElem_append, List.length_map, List.length_range, List.getElem_map, List.getElem_range, List.getElem_finRange,
      State.dieRead]
  split
  · next h => simp [h]
  · next h =>
    have hmod : (i - 4) % 5 = i - 4 := by omega
    simp [h, hmod]

theorem each_filter_zip (on : List (Fin 9)) (g : Fin 9 → Rat) (f : State → Fin 9 × Rat → State) :
    s.each (((List.finRange 9).zip ((List.finRange 9).map g)).filter (fun p => on.contains p.1)) f =
      s.each ((List.finRange 9).filter (on.contains ·)) (fun t i => f t (i, g i)) := by
  have hzip : (List.finRange 9).zip ((List.finRange 9).map g) = (List.finRange 9).map (fun i => (i, g i)) := rfl
  unfold State.each
  rw [hzip, List.filter_map, List.foldl_map]
  rfl

end

section
variable (s : State) (g : Fin 9 → Rat) {i : Fin 9} (l : List (Fin 9))

theorem ts_inj {i j : Fin 9} : i = j ∨ THM_TS i ≠ THM_TS j := by
  decide +revert

theorem State.putCodes_cons (j : Fin 9) : s.putCodes g (j :: l) = (s.setScode (THM_TS_T j) (g j)).putCodes g l := rfl

/-- The registers and what the blocks hide, other than the readings of the sensors themselves. -/
theorem State.fld_putCodes {f : Fld} (hf : f.Fits) (hd : ∀ j : Fin 9, f.off ≠ THM_TS j ∨ 15 < f.lo) : (s.putCodes g l).fld f = s.fld f := by
  induction l generalizing s with
  | nil => rfl
  | cons j l ih =>
    rw [State.putCodes_cons, ih]
    exact s.fld_setFld_ne _ (by simp) hf ((hd j).imp id .inr)

theorem State.putCodes_thm : (s.putCodes g l).thm = s.thm := by
  induction l generalizing s with
  | nil => rfl
  | cons j l ih => exact (ih _).trans rfl

/-- A sensor that is not read keeps its reading. -/
theorem State.fld_putCodes_ne (h : i ∉ l) : (s.putCodes g l).fld (THM_TS_T i) = s.fld (THM_TS_T i) := by
  induction l generalizing s with
  | nil => rfl
  | cons j l ih =>
    obtain ⟨hne, hl⟩ := not_or.mp (List.mem_cons.not.mp h)
    rw [State.putCodes_cons, ih _ hl]
    exact s.fld_setFld_off _ (THM_TS_T i) _ ((ts_inj (i := i) (j := j)).resolve_left hne)

/-- A sensor that is read holds its reading, to its range. -/
theorem State.sfld_putCodes_mem (h : i ∈ l) : (s.putCodes g l).sfld (THM_TS_T i) = max (-32768) (min 32767 (g i).floor) := by
  induction l generalizing s with
  | nil => simp at h
  | cons j l ih =>
    rw [State.putCodes_cons]
    by_cases hl : i ∈ l
    · exact ih _ hl
    · obtain rfl : i = j := (List.mem_cons.mp h).resolve_right hl
      exact (State.sfld_of_fld (State.fld_putCodes_ne _ g l hl)).trans (s.sfld_setSfld_same _ (by simp))
end

/-! ### What the cross-check and the actions leave -/

/-- The places other than the sensors, their summary and what the thermal management hides. -/
def Place.unsensed : Place → Bool
  | .reg o => !decide (THM_TS 0 ≤ o ∧ o < THM_STAT)
  | .thm => false
  | _ => true

/-- The readings, the summary and the kept TJ are as they were. -/
structure SameCodes (s t : State) : Prop where
  code : ∀ i : Fin 9, t.fld (THM_TS_T i) = s.fld (THM_TS_T i)
  sum : t.word THM_SUM = s.word THM_SUM
  hist : t.thm.hist = s.thm.hist

section
variable {s₀ s t : State}

theorem SameCodes.refl (s : State) : SameCodes s s := ⟨fun _ => rfl, rfl, rfl⟩

theorem SameCodes.trans (h : SameCodes s₀ s) (k : SameCodes s t) : SameCodes s₀ t :=
  ⟨fun i => (k.code i).trans (h.code i), k.sum.trans h.sum, k.hist.trans h.hist⟩

theorem SameCodes.ite {c : Prop} [Decidable c] (hs : SameCodes s₀ s) (ht : SameCodes s₀ t) : SameCodes s₀ (if c then s else t) := by
  split
  · exact hs
  · exact ht

theorem SameCodes.of_word (h : SameCodes s₀ s) (hw : ∀ i : Fin 9, t.word (THM_TS i) = s.word (THM_TS i))
    (hsum : t.word THM_SUM = s.word THM_SUM) (hthm : t.thm = s.thm) : SameCodes s₀ t :=
  h.trans ⟨fun i => State.fld_of_word (hw i), hsum, by rw [hthm]⟩

theorem ts_not_lineOut : ∀ i : Fin 9, THM_TS i ∉ lineOut := by decide
theorem ts_ne_log : ∀ i : Fin 9, THM_TS i ≠ THM_EVT ∧ THM_TS i ≠ THM_CNT := by decide
theorem ts_ne_sum : ∀ i : Fin 9, THM_TS i ≠ THM_SUM := by decide

/-- A field of a sensor's register above its reading. -/
theorem SameCodes.setFld (h : SameCodes s₀ s) (i : Fin 9) {hi lo : Nat} (v : Nat) (hf : hi < 32 ∧ lo ≤ hi) (hlo : 15 < lo) :
    SameCodes s₀ (s.setFld ⟨THM_TS i, hi, lo⟩ v) :=
  h.trans ⟨fun _ => s.fld_setFld_ne _ hf (by simp) (.inr (.inl hlo)), s.word_setFld_off _ (ts_ne_sum i).symm, rfl⟩

theorem SameCodes.evt (h : SameCodes s₀ s) {f : Fld} (hf : f.off = THM_EVT) : SameCodes s₀ (s.evt f) :=
  h.of_word (fun i => s.word_setFlags_ne _ (ts_not_lineOut i) (hf ▸ (ts_ne_log i).1)) (s.word_setFlags_ne _ (by decide)
      (by rw [hf]; decide)) (s.evt_thm f)

theorem SameCodes.count (h : SameCodes s₀ s) {f : Fld} (hf : f.off = THM_CNT) : SameCodes s₀ (s.count f) :=
  h.of_word (fun i => s.word_count_off (hf ▸ (ts_ne_log i).2)) (s.word_count_off (by rw [hf]; decide)) (s.count_thm f)

theorem SameCodes.fault (h : SameCodes s₀ s) (src : Fin 64) (addr : Nat) : SameCodes s₀ (s.fault src addr) := ⟨h.code, h.sum, h.hist⟩

/-- What counts toward SUSPECT and back is not a reading. -/
theorem SameCodes.counts (h : SameCodes s₀ s) (x y : Vector Nat 9) :
    SameCodes s₀ { s with thm := { s.thm with diff := x, good := y } } := ⟨h.code, h.sum, h.hist⟩

theorem SameCodes.suspect (h : SameCodes s₀ s) (i : Fin 9) (x : Vector Nat 9) : SameCodes s₀
    (((({ s with thm := { s.thm with good := x } }.setFld (THM_TS_STATE i) 1).evt THM_EVT_SUSPECT).count
      THM_CNT_SUSPN).fault srcTHM_SUSPECT i) := by
  have hgood : SameCodes s₀ { s with thm := { s.thm with good := x } } := ⟨h.code, h.sum, h.hist⟩
  generalize { s with thm := { s.thm with good := x } } = u at *
  exact ((((hgood.setFld i 1 (by simp) (by simp)).evt rfl).count rfl).fault _ _)

theorem SameCodes.crossCheck (h : SameCodes s₀ s) (ok : Fin 9 → Bool) (i : Fin 9) : SameCodes s₀ (s.crossCheck ok i) := by
  have hstate {u : State} (hu : SameCodes s₀ u) (v : Nat) : SameCodes s₀ (u.setFld (THM_TS_STATE i) v) := hu.setFld i v (by simp) (by simp)
  have hdev (x : Rat) : SameCodes s₀ (s.setScode (THM_TS_DEV i) x) := h.setFld i _ (by simp) (by simp)
  unfold State.crossCheck
  dsimp only
  split
  · exact (hstate h 0).ite h
  · next m _ =>
    have hu := hdev ((s.tsCode i - m) / 16)
    generalize s.setScode (THM_TS_DEV i) ((s.tsCode i - m) / 16) = u at *
    generalize vmod u.thm.good i _ = good
    generalize vmod u.thm.diff i _ = diff
    have hv := hu.counts diff good
    exact SameCodes.ite (SameCodes.ite (hstate hv 0) hv) (SameCodes.ite (hv.suspect i _) (hstate hv 0))

theorem SameCodes.noXchk (h : SameCodes s₀ s) (d had : Bool) : SameCodes s₀ (s.noXchk d had) := by
  unfold State.noXchk
  exact SameCodes.ite ((h.evt rfl).fault _ _) h

theorem SameCodes.each {α : Type} (h : SameCodes s₀ s) (l : List α) (f : State → α → State)
    (hf : ∀ t a, SameCodes s₀ t → SameCodes s₀ (f t a)) : SameCodes s₀ (s.each l f) := by
  unfold State.each
  induction l generalizing s with
  | nil => exact h
  | cons a l ih => exact ih (hf s a h)

/-- The footprints of a level's actions. -/
structure DieOps (P : Place → Prop) : Prop where
  stop : FP.orderlyStop P
  stat : P (.reg THM_STAT)
  evt : FP.evt P THM_EVT
  budget : FP.budgetDrop P
  gust : ∀ k, FP.gustLoss P k

theorem dieOps_unsensed : DieOps (·.unsensed = true) := by
  have hP : ∀ l : Place, l.unsensed = true → l.unsensed = true := fun _ h => h
  constructor
  all_goals
    repeat' first
      | exact hP _ (by decide +revert)
      | apply And.intro
      | intro _

/-- The sensors, their summary and the kept TJ are as they were. -/
structure SameSensed (s t : State) : Prop where
  word : ∀ o, THM_TS 0 ≤ o → o < THM_STAT → t.word o = s.word o
  hist : t.thm.hist = s.thm.hist

theorem SameSensed.refl (s : State) : SameSensed s s := ⟨fun _ _ _ => rfl, rfl⟩

theorem SameSensed.only (h : SameSensed s₀ s) (k : OnlyAt (·.unsensed = true) s t) : SameSensed s₀ t where
  word o hlo hhi := (k.word (by simp only [Place.unsensed]; simp [hlo, hhi])).trans (h.word o hlo hhi)
  hist := by rw [k.thm (by simp [Place.unsensed]), h.hist]

theorem SameSensed.ite {c : Prop} [Decidable c] (hs : SameSensed s₀ s) (ht : SameSensed s₀ t) : SameSensed s₀ (if c then s else t) := by
  split
  · exact hs
  · exact ht

theorem SameSensed.ts (h : SameSensed s t) (i : Fin 9) : t.word (THM_TS i) = s.word (THM_TS i) :=
  h.word _ (Nat.le_add_right _ _) (by decide +revert)

theorem SameSensed.sum (h : SameSensed s t) : t.word THM_SUM = s.word THM_SUM := h.word _ (by decide) (by decide)

theorem SameSensed.codes (h : SameSensed s t) : SameCodes s t := ⟨fun i => State.fld_of_word (h.ts i), h.sum, h.hist⟩

theorem State.hardTrip_of_sensed (h : SameSensed s t) : t.hardTrip = s.hardTrip := by
  have hvalid : t.tsValid = s.tsValid := funext fun i => congrArg (· == 0) (State.fld_of_word (h.ts i))
  have hcode : t.tsCode = s.tsCode := funext fun i => State.sfld_of_fld (State.fld_of_word (h.ts i))
  unfold State.hardTrip
  rw [hvalid, hcode]

theorem SameSensed.clock (h : SameSensed s₀ s) (x : Bool) : SameSensed s₀ { s with thm := { s.thm with clk := x } } := ⟨h.word, h.hist⟩

theorem SameSensed.evt (h : SameSensed s₀ s) {f : Fld} (hf : f.off = THM_EVT) : SameSensed s₀ (s.evt f) :=
  h.only (State.evt_only (.refl _ s) f (hf ▸ dieOps_unsensed.evt))

theorem SameSensed.count (h : SameSensed s₀ s) {f : Fld} (hf : f.off = THM_CNT) : SameSensed s₀ (s.count f) :=
  h.only (State.count_only (.refl _ s) f (by rw [hf]; decide))

theorem SameSensed.stat (h : SameSensed s₀ s) (hi lo v : Nat) : SameSensed s₀ (s.setFld ⟨THM_STAT, hi, lo⟩ v) :=
  h.only (State.setFld_only (.refl _ s) _ v dieOps_unsensed.stat)

theorem SameSensed.setLevel (h : SameSensed s₀ s) (tj : Int) : SameSensed s₀ (s.setLevel tj) := by
  have hops := dieOps_unsensed
  have hlevel := h.stat 31 29 (s.dieLevel tj)
  unfold State.setLevel
  dsimp only
  generalize s.setFld THM_STAT_LEVEL (s.dieLevel tj) = u at *
  have hflag : SameSensed s₀ (if s.fld THM_STAT_LEVEL < s.dieLevel tj then u.evt THM_EVT_LEVEL else u) := (hlevel.evt rfl).ite hlevel
  generalize (if s.fld THM_STAT_LEVEL < s.dieLevel tj then u.evt THM_EVT_LEVEL else u) = v at *
  generalize (decide (4 ≤ s.dieLevel tj) && !(v.fld THM_ACT_CORESEL == 3 && v.fld THM_ACT_FCSEL == 3)) = clk
  have hclk : SameSensed s₀ (if (clk && !v.thm.clk) = true then (v.evt THM_EVT_CLK).count THM_CNT_CLKN else v) :=
    ((hflag.evt rfl).count rfl).ite hflag
  generalize (if (clk && !v.thm.clk) = true then (v.evt THM_EVT_CLK).count THM_CNT_CLKN else v) = w at *
  have hset := hclk.clock clk
  generalize { w with thm := { w.thm with clk := clk } } = x at *
  exact hset.ite (hset.only (State.budgetDrop_only (State.each_only (.refl _ x)
      _ _ (fun t k _ ht => State.gustLoss_only ht k (hops.gust k)))
    hops.budget))

/-- The state in which the level, TTRIP and the flag of the stop stand, before the shutdown of a trip or of the stop. -/
def State.dieLevelled (s : State) (tj : Int) : State :=
  let u := (s.setLevel tj).setFld THM_STAT_TTRIP (ttripCode ((s.setLevel tj).ttrip tj))
  if s.fld THM_STAT_LEVEL != 5 && u.fld THM_STAT_LEVEL == 5 then u.evt THM_EVT_STOP else u

theorem SameSensed.dieLevelled (h : SameSensed s₀ s) (tj : Int) : SameSensed s₀ (s.dieLevelled tj) := by
  have hlevel := (h.setLevel tj).stat 23 16 (ttripCode ((s.setLevel tj).ttrip tj))
  exact (hlevel.evt rfl).ite hlevel

/-- Either a hard trip is raised and nothing more is done, or it is not and the sensors stay. -/
theorem State.dieActions_cases (s : State) (tj : Int) :
    (∃ deg, s.dieActions tj = (s.dieLevelled tj).fault srcTHM_TRIP deg) ∨
      ((s.dieLevelled tj).hardTrip = false ∧ (s.dieActions tj = s.dieLevelled tj ∨
        ∃ ttrip, s.dieActions tj = (s.dieLevelled tj).orderlyStop tj ttrip)) := by
  unfold State.dieActions State.dieLevelled
  dsimp only
  generalize (if (s.fld THM_STAT_LEVEL != 5 && _) = true then _ else _) = u
  generalize (s.fld THM_STAT_LEVEL != 5 && _) = reached
  generalize hc : (u.hardTrip || (reached && _)) = c
  cases c with
  | true => exact .inl ⟨_, if_pos rfl⟩
  | false =>
    rw [if_neg Bool.false_ne_true]
    refine .inr ⟨(Bool.or_eq_false_iff.mp hc).1, ?_⟩
    cases reached with
    | true => exact .inr ⟨_, if_pos rfl⟩
    | false => exact .inl (if_neg Bool.false_ne_true)

theorem SameSensed.orderlyStop (h : SameSensed s₀ s) (tj : Int) (trip : Nat) : SameSensed s₀ (s.orderlyStop tj trip) :=
  h.only (State.orderlyStop_only (.refl _ s) tj trip dieOps_unsensed.stop)

theorem SameSensed.dieActions (h : SameSensed s₀ s) (tj : Int) : SameSensed s₀ (s.dieActions tj) := by
  have hlevel := h.dieLevelled tj
  rcases s.dieActions_cases tj with ⟨deg, e⟩ | ⟨-, e | ⟨trip, e⟩⟩ <;> rw [e]
  · exact ⟨hlevel.word, hlevel.hist⟩
  · exact hlevel
  · exact hlevel.orderlyStop tj trip

/-- A valid sensor at 150 °C raises THM_TRIP whatever the level's other actions are (R354). -/
theorem State.dieActions_trip (s : State) (tj : Int) (h : (s.dieActions tj).hardTrip = true) :
    (s.dieActions tj).flt.lines.any (fun e => e.src == srcTHM_TRIP && e.cls == .fatal) = true := by
  rcases s.dieActions_cases tj with ⟨deg, e⟩ | ⟨hno, e | ⟨trip, e⟩⟩ <;> rw [e] at h ⊢
  · exact List.any_eq_true.mpr ⟨_, fault_raised _ srcTHM_TRIP deg, rfl⟩
  · rw [hno] at h
    exact absurd h Bool.false_ne_true
  · rw [State.hardTrip_of_sensed ((SameSensed.refl _).orderlyStop tj trip), hno] at h
    exact absurd h Bool.false_ne_true

end
end Sys2Proof.Machine
end

section
/-! PROOF. Temperatures: the summary that a reading of the die shows (R349, R350, R357). -/

namespace Sys2Proof.Machine

/-- TJ of a reading: the higher of the two dies, or that of Cirrus before ADCB has converted the Anvil sensors (log entry 129). -/
def State.dieTj (s : State) (ok : Fin 9 → Bool) (all : Bool) : Int :=
  if all then max (s.dieT ok false) (s.dieT ok true) else s.dieT ok true

/-- PEAK keeps the highest TJ. -/
def State.keepPeak (s : State) (tj : Int) : State :=
  if (s.fld THM_SUM_PEAK : Int) < tj / 16 then s.setFld THM_SUM_PEAK (min 255 (tj / 16).toNat) else s

/-- TJ is kept with the last seven, and THM_SUM shows it and the temperature of each die. -/
def State.summary (s : State) (tj a c : Int) : State :=
  (((({ s with thm := { s.thm with hist := (tj :: s.thm.hist).take 8 } }).setSfld THM_SUM_TJ (tj / 16)).setSfld THM_SUM_TJA
    (a / 16)).setSfld THM_SUM_TJC (c / 16)).keepPeak tj

section
variable (s : State) (tj a c : Int)

theorem State.keepPeak_fld {f : Fld} (hf : f.hi < 32 ∧ f.lo ≤ f.hi) (hlo : 7 < f.lo) : (s.keepPeak tj).fld f = s.fld f := by
  unfold State.keepPeak
  split
  · exact s.fld_setFld_ne _ (by simp) hf (.inr (.inr hlo))
  · rfl

theorem State.keepPeak_peak : (s.keepPeak tj).fld THM_SUM_PEAK =
    if (s.fld THM_SUM_PEAK : Int) < tj / 16 then min 255 (tj / 16).toNat else s.fld THM_SUM_PEAK := by
  unfold State.keepPeak
  split
  · rw [s.fld_setFld_same _ _ (by simp) (by simp)]
    exact Nat.mod_eq_of_lt (lt_of_le_of_lt (min_le_left _ _) (by decide))
  · rfl

theorem State.keepPeak_word {o : Nat} (h : o ≠ THM_SUM) : (s.keepPeak tj).word o = s.word o := by
  unfold State.keepPeak
  split
  · exact s.word_setFld_off _ h
  · rfl

theorem State.keepPeak_thm : (s.keepPeak tj).thm = s.thm := by
  unfold State.keepPeak
  split <;> rfl

theorem State.summary_word {o : Nat} (h : o ≠ THM_SUM) : (s.summary tj a c).word o = s.word o := by
  unfold State.summary State.setSfld
  rw [State.keepPeak_word _ _ h, State.word_setFld_off _ _ h, State.word_setFld_off _ _ h, State.word_setFld_off _ _ h]
  rfl

theorem State.summary_hist : (s.summary tj a c).thm.hist = (tj :: s.thm.hist).take 8 := by
  unfold State.summary
  rw [State.keepPeak_thm]
  rfl

theorem State.summary_tj : (s.summary tj a c).sfld THM_SUM_TJ = max (-128) (min 127 (tj / 16)) := by
  unfold State.summary
  generalize { s with thm := { s.thm with hist := (tj :: s.thm.hist).take 8 } } = u
  rw [State.sfld_of_fld (State.keepPeak_fld _ _ (by simp) (by simp))]
  have hrest : (((u.setSfld THM_SUM_TJ (tj / 16)).setSfld THM_SUM_TJA (a / 16)).setSfld THM_SUM_TJC (c / 16)).fld THM_SUM_TJ =
      (u.setSfld THM_SUM_TJ (tj / 16)).fld THM_SUM_TJ := by
    unfold State.setSfld
    rw [State.fld_setFld_ne, State.fld_setFld_ne] <;> simp
  rw [State.sfld_of_fld hrest]
  exact u.sfld_setSfld_same _ (by simp)

theorem State.summary_tja : (s.summary tj a c).sfld THM_SUM_TJA = max (-128) (min 127 (a / 16)) := by
  unfold State.summary
  generalize State.setSfld { s with thm := { s.thm with hist := (tj :: s.thm.hist).take 8 } } THM_SUM_TJ (tj / 16) = u
  rw [State.sfld_of_fld (State.keepPeak_fld _ _ (by simp) (by simp))]
  have hrest : ((u.setSfld THM_SUM_TJA (a / 16)).setSfld THM_SUM_TJC (c / 16)).fld THM_SUM_TJA =
      (u.setSfld THM_SUM_TJA (a / 16)).fld THM_SUM_TJA :=
    State.fld_setFld_ne _ _ (by simp) (by simp) (by simp)
  rw [State.sfld_of_fld hrest]
  exact u.sfld_setSfld_same _ (by simp)

theorem State.summary_tjc : (s.summary tj a c).sfld THM_SUM_TJC = max (-128) (min 127 (c / 16)) := by
  unfold State.summary
  generalize State.setSfld (State.setSfld { s with thm := { s.thm with hist := (tj :: s.thm.hist).take 8 } } THM_SUM_TJ (tj / 16))
      THM_SUM_TJA (a / 16) = u
  rw [State.sfld_of_fld (State.keepPeak_fld _ _ (by simp) (by simp))]
  exact u.sfld_setSfld_same _ (by simp)

theorem State.summary_peak : (s.summary tj a c).fld THM_SUM_PEAK =
    if (s.fld THM_SUM_PEAK : Int) < tj / 16 then min 255 (tj / 16).toNat else s.fld THM_SUM_PEAK := by
  unfold State.summary
  rw [State.keepPeak_peak]
  have hpeak (u : State) : (((u.setSfld THM_SUM_TJ (tj / 16)).setSfld THM_SUM_TJA (a / 16)).setSfld THM_SUM_TJC (c / 16)).fld THM_SUM_PEAK =
      u.fld THM_SUM_PEAK := by
    unfold State.setSfld
    rw [State.fld_setFld_ne, State.fld_setFld_ne, State.fld_setFld_ne] <;> simp
  rw [hpeak]
  rfl

/-- The temperature of a die follows from the readings. -/
theorem State.dieT_of_code {s t : State} (h : ∀ i : Fin 9, t.fld (THM_TS_T i) = s.fld (THM_TS_T i)) (ok : Fin 9 → Bool) (d : Bool) :
    t.dieT ok d = s.dieT ok d := by
  have hcode : t.tsCode = s.tsCode := funext fun i => State.sfld_of_fld (h i)
  unfold State.dieT
  rw [hcode]

/-! ### A reading of the die -/

/-- The sensors of a reading: all nine, or those of Cirrus alone. -/
def diesRead (all : Bool) : List (Fin 9) := (List.finRange 9).filter ((if all then List.finRange 9 else dieSensors true).contains ·)

theorem mem_diesRead (all : Bool) (i : Fin 9) : i ∈ diesRead all ↔ (all = true ∨ 4 ≤ i.val) := by
  cases all <;> decide +revert

/-- The sensors that were not SUSPECT when the reading came. -/
def State.tsTrusted (s : State) (i : Fin 9) : Bool := s.fld (THM_TS_STATE i) != 1

/-- The cross-check of a reading, whose codes stand, and its report. -/
def State.dieChecked (s : State) (all : Bool) : State :=
  let had (d : Bool) : Bool := decide (2 ≤ (s.dieValid d).length) || (dieSensors d).all (fun i => s.fld (THM_TS_STATE i) == 2)
  ((s.each (if all then List.finRange 9 else dieSensors true)
      (fun t i => t.crossCheck s.tsTrusted i)).noXchk false (all && had false)).noXchk
    true (had true)

theorem SameCodes.dieChecked (s : State) (all : Bool) : SameCodes s (s.dieChecked all) :=
  (((SameCodes.refl s).each _ _ (fun _ i ht => ht.crossCheck _ i)).noXchk _ _).noXchk _ _

/-- What follows the cross-check: the summary and the actions. -/
def State.dieShown (s : State) (ok : Fin 9 → Bool) (all : Bool) : State :=
  (s.summary (s.dieTj ok all) (s.dieT ok false) (s.dieT ok true)).dieActions (s.dieTj ok all)

theorem execDieTempReading_eq (tc : Vector Int 5) (haw : s.awake = true) : execDieTempReading tc s =
    .next (((s.putCodes (s.dieRead tc) (diesRead s.anvilRead)).dieChecked s.anvilRead).dieShown
      (s.putCodes (s.dieRead tc) (diesRead s.anvilRead)).tsTrusted s.anvilRead) := by
  have hput : s.each (((List.finRange 9).zip ((List.range 4).map (fun i => 16 * (25 + (7 / 10 - s.meas.v[Fin.ofNat 48 (38 + i)]) * 500)) ++
      tc.toList.map (fun (c : Int) => (c : Rat)))).filter
      (fun p => (if s.anvilRead then List.finRange 9 else dieSensors true).contains p.1))
      (fun t p => t.setScode (THM_TS_T p.1) p.2) = s.putCodes (s.dieRead tc) (diesRead s.anvilRead) := by
    rw [dieRead_list, each_filter_zip]
    rfl
  rw [← hput]
  unfold execDieTempReading
  rw [haw]
  rfl

/-- What a reading shows: of the state `s` before it and the state `t` after, with the sensors that count and those that were read. -/
structure DieShown (ok : Fin 9 → Bool) (all : Bool) (s t : State) : Prop where
  hist : t.thm.hist = (t.dieTj ok all :: s.thm.hist).take 8
  tj : t.sfld THM_SUM_TJ = max (-128) (min 127 (t.dieTj ok all / 16))
  tja : t.sfld THM_SUM_TJA = max (-128) (min 127 (t.dieT ok false / 16))
  tjc : t.sfld THM_SUM_TJC = max (-128) (min 127 (t.dieT ok true / 16))
  peak : t.fld THM_SUM_PEAK = if (s.fld THM_SUM_PEAK : Int) < t.dieTj ok all / 16 then min 255 (t.dieTj ok all / 16).toNat
    else s.fld THM_SUM_PEAK
  trip : t.hardTrip = true → t.flt.lines.any (fun e => e.src == srcTHM_TRIP && e.cls == .fatal) = true

theorem State.dieShown_shows (ok : Fin 9 → Bool) (all : Bool) :
    (∀ i : Fin 9, (s.dieShown ok all).fld (THM_TS_T i) = s.fld (THM_TS_T i)) ∧ DieShown ok all s (s.dieShown ok all) := by
  generalize ht : s.dieShown ok all = t
  unfold State.dieShown at ht
  generalize hy : s.summary (s.dieTj ok all) (s.dieT ok false) (s.dieT ok true) = y at ht
  have hsensed : SameSensed y t := ht ▸ (SameSensed.refl y).dieActions _
  have hcode (i : Fin 9) : t.fld (THM_TS_T i) = s.fld (THM_TS_T i) :=
    State.fld_of_word ((hsensed.ts i).trans (hy ▸ s.summary_word _ _ _ (ts_ne_sum i)))
  have hdie (d : Bool) : t.dieT ok d = s.dieT ok d := State.dieT_of_code hcode ok d
  have htj : t.dieTj ok all = s.dieTj ok all := by rw [State.dieTj, hdie, hdie, State.dieTj]
  have hsum {f : Fld} (hf : f.off = THM_SUM) : t.fld f = y.fld f := State.fld_of_word (hf ▸ hsensed.sum)
  exact ⟨hcode,
    { hist := by rw [hsensed.hist, htj, ← hy, State.summary_hist]
      tj := by rw [State.sfld_of_fld (hsum rfl), htj, ← hy, State.summary_tj]
      tja := by rw [State.sfld_of_fld (hsum rfl), hdie, ← hy, State.summary_tja]
      tjc := by rw [State.sfld_of_fld (hsum rfl), hdie, ← hy, State.summary_tjc]
      peak := by rw [hsum rfl, htj, ← hy, State.summary_peak]
      trip := ht ▸ y.dieActions_trip _ }⟩

/-- A reading of the die, with what it stores and what it shows. -/
theorem dieTempReading_shows (tc : Vector Int 5) (haw : s.awake = true) : Gives (.dieTempReading tc) s (fun t =>
    (∀ i, i ∈ diesRead s.anvilRead → t.sfld (THM_TS_T i) = max (-32768) (min 32767 (s.dieRead tc i).floor)) ∧
    (∀ i, i ∉ diesRead s.anvilRead → t.fld (THM_TS_T i) = s.fld (THM_TS_T i)) ∧ DieShown s.tsTrusted s.anvilRead s t) := by
  refine ⟨_, execDieTempReading_eq s tc haw, ?_⟩
  generalize hu : s.putCodes (s.dieRead tc) (diesRead s.anvilRead) = u
  have htrust : u.tsTrusted = s.tsTrusted := funext fun i => congrArg (· != 1)
    (hu ▸ State.fld_putCodes s _ _ (by simp) (fun j => .inr (by simp)))
  have hpeak : u.fld THM_SUM_PEAK = s.fld THM_SUM_PEAK :=
    hu ▸ State.fld_putCodes s _ _ (by simp) (fun j => .inl (ts_ne_sum j).symm)
  have hhist : u.thm.hist = s.thm.hist := hu ▸ congrArg ThmH.hist (State.putCodes_thm s _ _)
  obtain ⟨hcode, hsum, hkept⟩ := SameCodes.dieChecked u s.anvilRead
  rw [htrust]
  generalize u.dieChecked s.anvilRead = v at *
  obtain ⟨hshowncode, hshown⟩ := v.dieShown_shows s.tsTrusted s.anvilRead
  generalize v.dieShown s.tsTrusted s.anvilRead = t at *
  have hread (i : Fin 9) : t.fld (THM_TS_T i) = u.fld (THM_TS_T i) := (hshowncode i).trans (hcode i)
  have hvpeak : v.fld THM_SUM_PEAK = s.fld THM_SUM_PEAK := (State.fld_of_word hsum).trans hpeak
  refine ⟨fun i hi => ?_, fun i hi => ?_, ?_⟩
  · exact (State.sfld_of_fld (hread i)).trans (hu ▸ State.sfld_putCodes_mem s _ _ hi)
  · exact (hread i).trans (hu ▸ State.fld_putCodes_ne s _ _ hi)
  · exact
      { hist := by rw [hshown.hist, hkept, hhist]
        tj := hshown.tj
        tja := hshown.tja
        tjc := hshown.tjc
        peak := by rw [hshown.peak, hvpeak]
        trip := hshown.trip }

theorem State.dieRead_cirrus (tc : Vector Int 5) (i : Fin 5) : s.dieRead tc ⟨4 + i.val, by omega⟩ = tc[i] := by
  simp [State.dieRead]

theorem State.dieRead_anvil (tc : Vector Int 5) (i : Fin 4) :
    s.dieRead tc ⟨i.val, by omega⟩ = 16 * (25 + (7 / 10 - s.meas.v[Fin.ofNat 48 (38 + i.val)]) * 500) :=
  if_pos i.isLt

/-- TS4 to TS8 hold the codes that came, which lie in their range. -/
theorem cirrus_holds {tc : Vector Int 5} {all : Bool} {t : State}
    (h : ∀ i, i ∈ diesRead all → t.sfld (THM_TS_T i) = max (-32768) (min 32767 (s.dieRead tc i).floor)) (i : Fin 5) (hlo : -32768 ≤ tc[i])
    (hhi : tc[i] ≤ 32767) : t.sfld (THM_TS_T (4 + i.val)) = tc[i] := by
  have hi := h ⟨4 + i.val, by omega⟩ ((mem_diesRead _ _).mpr (.inr (Nat.le_add_right _ _)))
  rw [State.dieRead_cirrus, Rat.floor_intCast] at hi
  exact hi.trans (by omega)

theorem dieTempReading_all (tc : Vector Int 5) (haw : s.awake = true) (hall : s.anvilRead = true) : Gives (.dieTempReading tc) s (fun t =>
    (∀ i : Fin 5, -32768 ≤ tc[i] → tc[i] ≤ 32767 → t.sfld (THM_TS_T (4 + i.val)) = tc[i]) ∧
    (∀ i : Fin 4, t.sfld (THM_TS_T i.val) = max (-32768) (min 32767 (16 * (25 + (7 / 10 - s.meas.v[Fin.ofNat 48 (38 + i.val)])
        * 500)).floor)) ∧
    DieShown s.tsTrusted true s t) := by
  obtain ⟨t, ht, hread, -, hshown⟩ := dieTempReading_shows s tc haw
  rw [hall] at hread hshown
  refine ⟨t, ht, cirrus_holds s hread, fun i => ?_, hshown⟩
  have hi := hread ⟨i.val, by omega⟩ ((mem_diesRead _ _).mpr (.inl rfl))
  rw [State.dieRead_anvil] at hi
  exact hi

theorem dieTempReading_cirrus (tc : Vector Int 5) (haw : s.awake = true) (hall : s.anvilRead = false) :
    Gives (.dieTempReading tc) s (fun t =>
    (∀ i : Fin 5, -32768 ≤ tc[i] → tc[i] ≤ 32767 → t.sfld (THM_TS_T (4 + i.val)) = tc[i]) ∧
    (∀ i : Fin 4, t.fld (THM_TS_T i.val) = s.fld (THM_TS_T i.val)) ∧ DieShown s.tsTrusted false s t) := by
  obtain ⟨t, ht, hread, hkeep, hshown⟩ := dieTempReading_shows s tc haw
  rw [hall] at hread hkeep hshown
  refine ⟨t, ht, cirrus_holds s hread, fun i => ?_, hshown⟩
  exact hkeep ⟨i.val, by omega⟩ (fun h => by have := (mem_diesRead _ _).mp h; simp at this; omega)

end

end Sys2Proof.Machine
end

section
/-! PROOF. The safe state on Anvil's authority: its level, the trip wires and the event it reports (R17, R355, R396, R398). -/

namespace Sys2Proof.Machine

/-! ### The safe state leaves the trip wires -/

section
variable {s₀ s : State}

theorem State.portsOff_wired (h : Wired s₀ s) : Wired s₀ s.portsOff := by
  have hops := phaseFreeOps_notPh
  unfold State.portsOff
  refine Wired.each (State.stopPhases_wired (h.each _ _ (fun t k ht => ?_))) _ _ (fun t k ht => ?_)
  · exact (State.setRole_wired (State.leaveGust_wired (State.leaveHoldup_wired (State.abortSounding_wired ht k 8) k) k) k .none).only
      (State.setCmd_only (.refl _ _) k 0 (hops.setCmd k))
  · exact (State.turn_wired (ht.only (State.openPort_only (.refl _ t) k (hops.openPort k))) k .idle).only
      (State.syncElig_only (.refl _ _) k (hops.elig k))

theorem State.endTest_wired (h : Wired s₀ s) (code status : Nat) : Wired s₀ (s.endTest code status) := by
  have hops := phaseFreeOps_notPh
  unfold State.endTest
  split
  · exact h
  · extract_lets s₁ _ s₂ s₃
    have h₁ : Wired s₀ s₁ := by
      unfold s₁
      split
      · exact Wired.ite (State.setPh_wired h _ _) (Wired.ite (State.setPh_wired h _ _) h)
      · exact h
    have h₂ : Wired s₀ s₂ := h₁.same rfl
    have h₃ : Wired s₀ s₃ := (h₂.only (State.setFld_only (.refl _ s₂) _ _ (fun _ => Place.noConfusion))).only
      (State.syncPorts_only (.refl _ _) hops.ports)
    exact h₃.only (State.finish_only (.refl _ s₃) _ _ _ _ hops.finish)

theorem State.faultHeld_wired (h : Wired s₀ s) : Wired s₀ s.faultHeld := h.same rfl

theorem State.safeEntry_wired (h : Wired s₀ s) : Wired s₀ s.safeEntry := by
  have hops := phaseFreeOps_notPh
  unfold State.safeEntry
  extract_lets _ _ s₁ s₂ s₃ s₄
  have h₁ : Wired s₀ s₁ := h.same rfl
  have h₂ : Wired s₀ s₂ := h₁.same rfl
  have h₃ : Wired s₀ s₃ := Wired.ite (h₂.same rfl) h₂
  clear_value s₃
  have h₄ : Wired s₀ s₄ := (State.portsOff_wired (State.endTest_wired (State.faultHeld_wired h₃) 4 8)).only
    (State.feedsHwOnly_only (.refl _ _) hops.hwOnly)
  clear_value s₄
  exact Wired.ite h ((h₄.only (State.endAll_only (.refl _ s₄) _ _ hops.endAll)).only (State.syncThr_only (.refl _ _) hops.thr))

end

/-! ### The safe state's level -/

/-- The footprints of the safe state beside what the collector hides, and of the record of its entry. -/
structure SafeOps (P : Place → Prop) : Prop where
  endTest : FP.endTest P
  ports : FP.portsOff P
  feeds : FP.feedsHwOnly P
  ends : FP.endAll P
  thr : FP.syncThr P
  entry : FP.fatalEntry P

theorem safeOps_notFlt : SafeOps (· ≠ .flt) := by
  have hP : ∀ l : Place, l ≠ .flt → l ≠ .flt := fun _ h => h
  constructor
  all_goals
    repeat' first
      | exact hP _ (by decide +revert)
      | apply And.intro
      | intro _

section
variable (s : State)

theorem State.faultHeld_level : s.faultHeld.flt.level = s.flt.level := rfl

theorem State.safeEntry_level : s.safeEntry.flt.level = true := by
  have hops := safeOps_notFlt
  unfold State.safeEntry
  extract_lets _ _ s₁ s₂ s₃ s₄
  split
  · next hlevel => exact hlevel
  · have h₃ : s₃.flt.level = true := by
      unfold s₃
      split <;> rfl
    have hheld : s₃.faultHeld.flt.level = s₃.flt.level := s₃.faultHeld_level
    have hrest : OnlyAt (· ≠ .flt) s₃.faultHeld ((s₄.endAll true true).syncThr) := by
      unfold s₄
      generalize s₃.faultHeld = u
      exact State.syncThr_only (State.endAll_only (State.feedsHwOnly_only (State.portsOff_only (State.endTest_only (.refl _ _)
          4 8 hops.endTest)
        hops.ports) hops.feeds) _ _ hops.ends) hops.thr
    rw [hrest.flt (by simp)]
    exact hheld.trans h₃

/-- The entry is recorded in the journal only. -/
theorem State.fatalEntry_level (src : Nat) : (s.fatalEntry src).flt = s.flt :=
  (State.fatalEntry_only (.refl _ s) src safeOps_notFlt.entry).flt (by simp)

/-! ### A fatal event -/

/-- The footprints of a record. -/
structure RecordOps (P : Place → Prop) : Prop where
  count : ∀ src, FP.countSrc P src
  pend : FP.setSrc P FLT_PEND_LO FLT_PEND_HI
  flt : P .flt
  capture : FP.capture P
  multi : P (.reg FLT_MULTI)
  first : P (.reg FLT_FIRST)
  fatal : FP.captureFatal P
  pulse : FP.faultPulse P
  entry : FP.fatalEntry P

/-- A fatal event is recorded, and takes the safe state where it is not taken already (R396, R398). -/
theorem State.recordEvents_fatal {P : Place → Prop} (hops : RecordOps P) (e : FltEvent) (hcls : e.cls = .fatal) (hinj : e.inj = false) :
    ∃ u, OnlyAt P (s.setSrc FLT_STATUS_LO FLT_STATUS_HI e.src) u ∧
      s.recordEvents [e] = if u.flt.level then u else u.safeEntry.fatalEntry e.src.val := by
  have hmerge : mergeEvents [e] = [e] := by simp [mergeEvents, hinj]
  have hbest : bestEvent [e] = some e := rfl
  unfold State.recordEvents
  rw [hmerge]
  extract_lets l fatal s₁ grace s₂ first rest s₃ s₄ s₅ s₆
  have hfatal : fatal = some e := by
    unfold fatal
    rw [List.filter_cons_of_pos (by simp [hcls])]
    exact hbest
  clear_value first fatal
  have h₁ : OnlyAt P (s.setSrc FLT_STATUS_LO FLT_STATUS_HI e.src) s₁ := State.countSrc_only (.refl _ _) _ (hops.count _)
  have h₂ : OnlyAt P (s.setSrc FLT_STATUS_LO FLT_STATUS_HI e.src) s₂ := State.each_only h₁ _ _ (fun t e _ ht => by
    extract_lets t₁
    have ht₁ : OnlyAt P (s.setSrc FLT_STATUS_LO FLT_STATUS_HI _) t₁ := State.setSrc_only ht _ _ _ hops.pend
    exact OnlyAt.ite (State.startGrace_only ht₁ _ hops.flt) ht₁)
  have h₃ : OnlyAt P (s.setSrc FLT_STATUS_LO FLT_STATUS_HI e.src) s₃ := by
    unfold s₃
    split
    · exact State.capture_only h₂ _ hops.capture
    · exact h₂
  have h₄ : OnlyAt P (s.setSrc FLT_STATUS_LO FLT_STATUS_HI e.src) s₄ :=
    State.each_only h₃ _ _ (fun _ _ _ ht => State.count_only (State.setOn_only ht _ _ hops.first) _ hops.multi)
  have h₅ : OnlyAt P (s.setSrc FLT_STATUS_LO FLT_STATUS_HI e.src) s₅ := by
    unfold s₅
    split
    · exact State.captureFatal_only h₄ _ hops.fatal
    · exact h₄
  have h₆ : OnlyAt P (s.setSrc FLT_STATUS_LO FLT_STATUS_HI e.src) s₆ := OnlyAt.ite (State.faultPulse_only h₅ hops.pulse) h₅
  refine ⟨s₆, h₆, ?_⟩
  clear_value s₆
  rw [hfatal]

/-- The places of a record that are neither a phase's nor the word in which the source is set. -/
abbrev NotStatus (l : Place) : Prop := NotPh l ∧ l ≠ .reg FLT_STATUS_LO

theorem recordOps_notStatus : RecordOps NotStatus := by
  have hP : ∀ l, NotStatus l → NotStatus l := fun _ h => h
  constructor
  all_goals
    repeat' first
      | exact hP _ ⟨fun _ => Place.noConfusion, by decide +revert⟩
      | apply And.intro
      | intro _

theorem safeEntry_notStatus : FP.safeEntry (· ≠ .reg FLT_STATUS_LO) ∧ FP.fatalEntry (· ≠ .reg FLT_STATUS_LO) ∧ FP.fatalEntry NotPh ∧
    FP.setSrc NotPh FLT_STATUS_LO FLT_STATUS_HI := by
  have hP : ∀ l : Place, l ≠ .reg FLT_STATUS_LO → l ≠ .reg FLT_STATUS_LO := fun _ h => h
  have hQ : ∀ l, NotPh l → NotPh l := fun _ h => h
  repeat' first
    | exact hP _ (by decide +revert)
    | exact hQ _ (fun _ => Place.noConfusion)
    | apply And.intro
    | intro _

/-! ### The die that trips -/

theorem State.modPh_trip (n m : Fin 16) (h : m = n ∨ s.ph[n].trip = true) :
    (s.modPh m (fun p => { p with trip := true })).ph[n].trip = true := by
  by_cases e : m = n
  · subst e
    rw [State.modPh_same]
  · rw [State.modPh_ne s _ e]
    exact h.resolve_left e

theorem State.tripEach (n : Fin 16) (l : List (Fin 16)) (h : n ∈ l ∨ s.ph[n].trip = true) :
    (s.each l (fun t m => t.modPh m (fun p => { p with trip := true }))).ph[n].trip = true := by
  unfold State.each
  induction l generalizing s with
  | nil => exact h.resolve_left List.not_mem_nil
  | cons m l ih =>
    refine ih _ ?_
    by_cases hl : n ∈ l
    · exact .inl hl
    · exact .inr (s.modPh_trip n m (h.imp (fun hn => ((List.mem_cons.mp hn).resolve_right hl).symm) id))

theorem State.tripAll_trip (n : Fin 16) : s.tripAll.ph[n].trip = true := s.tripEach n _ (.inl (List.mem_finRange n))

theorem Wired.trip {s t : State} (h : Wired s t) (n : Fin 16) : t.ph[n].trip = s.ph[n].trip :=
  congrArg (·.2.2) (h n)

theorem sourceBit {i : Nat} (h : i < 32) : ((1 : Word) <<< i).getLsbD i = true := by
  rw [BitVec.getLsbD_shiftLeft, Nat.sub_self]
  simp [h]

/-- A fatal event of a source below 32: its bit, the safe state, and the trip wires as they were. -/
theorem State.recordFault_fatal (src : Fin 64) (addr : Nat) (hcls : fltClass src = .fatal) (hlt : src.val < 32) :
    (s.recordFault src addr).flt.level = true ∧ Wired s (s.recordFault src addr) ∧
      ((s.recordFault src addr).word FLT_STATUS_LO).getLsbD src = true := by
  obtain ⟨u, hu, heq⟩ := s.recordEvents_fatal recordOps_notStatus ⟨src, fltClass src, BitVec.ofNat 32 addr, 0, 0, false⟩ hcls rfl
  obtain ⟨hentry, hrecord, hjournal, hsrc⟩ := safeEntry_notStatus
  rw [State.recordFault, heq]
  have hset : ((s.setSrc FLT_STATUS_LO FLT_STATUS_HI src).word FLT_STATUS_LO).getLsbD src = true := by
    rw [State.setSrc, if_pos hlt]
    exact s.getLsbD_setFlags_same _ (by decide) (sourceBit hlt)
  have hbit : (u.word FLT_STATUS_LO).getLsbD src = true := by rwa [hu.word (by simp)]
  have hwired : Wired s u := ((Wired.refl s).only (State.setSrc_only (.refl _ s) _ _ src hsrc)).only (hu.mono (fun _ h => h.1))
  split
  · next hlevel => exact ⟨hlevel, hwired, hbit⟩
  · refine ⟨?_, ?_, ?_⟩
    · rw [State.fatalEntry_level, State.safeEntry_level]
    · exact (State.safeEntry_wired hwired).only (State.fatalEntry_only (.refl _ _) _ hjournal)
    · rwa [(State.fatalEntry_only (State.safeEntry_only (.refl _ u) hentry) src.val hrecord).word (by simp)]

theorem anvilOvertemp_reported (hpow : s.powered = true) (hd2d : s.sys.d2d = true) : Gives .anvilOvertemp s (fun t =>
    t.flt.level = true ∧ (∀ n : Fin 16, t.ph[n].trip = true) ∧ (t.word FLT_STATUS_LO).getLsbD 3 = true) := by
  refine ⟨_, rfl, ?_⟩
  rw [hpow, hd2d]
  obtain ⟨hlevel, hwired, hbit⟩ := s.tripAll.recordFault_fatal srcTHM_ANVIL 0 rfl (by decide)
  exact ⟨hlevel, fun n => (hwired.trip n).trans (s.tripAll_trip n), hbit⟩

theorem anvilOvertemp_alone (hpow : s.powered = true) (hd2d : s.sys.d2d = false) : Gives .anvilOvertemp s (fun t =>
    t.flt.level = true ∧ (∀ n : Fin 16, t.ph[n].trip = true)) := by
  refine ⟨_, rfl, ?_⟩
  rw [hpow, hd2d]
  exact ⟨s.tripAll.safeEntry_level, fun n => ((State.safeEntry_wired (.refl s.tripAll)).trip n).trans (s.tripAll_trip n)⟩

end
end Sys2Proof.Machine

open Sys2Proof Sys2Proof.Machine

/-- Settles O43: what a reading stores is kept by the checks, the summary and the actions that follow it; the safe state leaves the trip
wires; a cap and a correction move by their step. -/
theorem temperatures : Obligations.Temperatures := by
  unfold Obligations.Temperatures
  refine ⟨?_, ?_, ?_, ?_, ?_, ?_, ?_, ?_, ?_, ?_, ?_, ?_, ?_, ?_⟩
  · intro tc s haw hall
    obtain ⟨t, ht, hcirrus, hanvil, h⟩ := dieTempReading_all s tc haw hall
    exact ⟨t, ht, hcirrus, hanvil, h.hist, h.tj, h.tja, h.tjc, h.peak, h.trip⟩
  · intro tc s haw hall
    obtain ⟨t, ht, hcirrus, hanvil, h⟩ := dieTempReading_cirrus s tc haw hall
    exact ⟨t, ht, hcirrus, hanvil, h.hist, h.tj, h.tjc.trans h.tj.symm⟩
  · exact fun s hpow hd2d => anvilOvertemp_reported s hpow hd2d
  · exact fun s hpow hd2d => anvilOvertemp_alone s hpow hd2d
  · exact fun n v s haw hseen hv hlo hhi => stageTempReading_valid haw hseen hv hlo hhi
  · exact fun n v s haw hseen hv hlo => stageTempReading_invalid haw hseen hv hlo
  · exact fun k s hcapped hhot hago hcap => ncapStep_falls s k hcapped hhot hago hcap
  · exact fun k s hcapped hhot => ncapStep_stays s k hcapped hhot
  · exact fun k s hcapped hago => ncapStep_rises s k hcapped hago
  · exact fun x s haw hx hlo hhi => thermalCompUpdate_bandgap s haw hx hlo hhi
  · exact fun x s haw hx hxo hlo hhi => thermalCompUpdate_ref s haw hx hxo hlo hhi
  · exact fun x s haw hx hlo hhi => thermalCompUpdate_safe s haw hx hlo hhi
  · exact fun x s haw hx => thermalCompUpdate_aon s haw hx
  · exact fun q s haw hx => thermalCompUpdate_holds s haw hx

end

section
/-! PROOF. The machine after power-on reset, block by block: what a block holds beside the registers is its one reset record; a register
with no power-on value reads 0, which is what off, down and closed read as; and the fields of the others are read from their values. -/

namespace Sys2Proof.Machine

/-! ### Beside the registers -/

theorem State.reset_sound : State.reset.Sound := ⟨powerOnRegs_wf, Nat.zero_le _⟩

/-- Bias has not been good yet (R59). -/
theorem State.reset_powered : State.reset.powered = false := rfl

theorem State.reset_awake : State.reset.awake = false := by simp [State.awake, State.reset_powered]

theorem State.reset_ph (n : Fin 16) : State.reset.ph[n] = PhH.reset := Vector.getElem_replicate n.isLt

theorem State.reset_ring (n : Fin 64) : State.reset.ring[n] = RingH.reset := Vector.getElem_replicate n.isLt

/-! ### Registers with no power-on value -/

theorem State.fld_of_word_eq_zero {s : State} {f : Fld} (h : s.word f.off = 0) : s.fld f = 0 := by
  have hfld : s.fld f = f.extract 0 := congrArg f.extract h
  simp [hfld, Fld.extract]

theorem State.on_of_word_eq_zero {s : State} {f : Fld} (h : s.word f.off = 0) : s.on f = false := by
  simp [State.on, State.fld_of_word_eq_zero h]

theorem State.reset_word_feedStat (n : Fin 4) : State.reset.word (FEED_STAT n) = 0 := by
  revert n
  decide +kernel

theorem State.reset_word_hifCfg (n : Fin 64) : State.reset.word (HIF_CFG n) = 0 := by
  revert n
  decide +kernel

theorem State.reset_word_hifLnk : State.reset.word HIF_LNK = 0 := by decide +kernel

theorem State.reset_word_authPres : State.reset.word AUTH_PRES = 0 := by decide +kernel

theorem State.reset_feedSt (n : Fin 4) : State.reset.feedSt n = .off := by
  rw [State.feedSt, State.fld_of_word_eq_zero (State.reset_word_feedStat n)]
  rfl

theorem State.reset_ringEnabled (n : Fin 64) : State.reset.on (HIF_CFG_EN n) = false :=
  State.on_of_word_eq_zero (State.reset_word_hifCfg n)

theorem State.reset_linkUp : State.reset.on HIF_LNK_LINKUP = false := State.on_of_word_eq_zero State.reset_word_hifLnk

theorem State.reset_present : State.reset.present = false := State.on_of_word_eq_zero State.reset_word_authPres

/-! ### Fields with a power-on value -/

/-- FEEDn_CFG and FEEDn_LIM (ch. 4). -/
theorem State.reset_feedFields (n : Fin 4) :
    State.reset.fld (FEED_CFG_SCRETRY n) = 3 ∧ State.reset.fld (FEED_LIM_ILIM n) = 0x0A0 := by
  revert n
  decide +kernel

/-- The registers of a phase-engine, charge and pack port (ch. 5 to 7). -/
theorem State.reset_portFields (k : Fin 2) :
    State.reset.fld (PHP_EDGE_TWAKE k) = 20 ∧ State.reset.fld (PHP_MODE_SLOPEK k) = 24 ∧ State.reset.fld (PHP_LIM_IPMAX k) = 1000 ∧
      State.reset.on (CHG_CTL_ARM k) = true ∧ State.reset.fld (PK_HW_OVPCT k) = 30 := by
  revert k
  decide +kernel

/-- The Forecast registers (ch. 8); static mode, in which no grant exists (R247). -/
theorem State.reset_forecastFields :
    State.reset.fld FC_CFG_HUPCT = 80 ∧ State.reset.fld FC_ENF_ENFMARG = 200 ∧ State.reset.static = true := by decide +kernel

theorem State.reset_thermalFields : State.reset.fld THM_DIE_T3 = 115 ∧ State.reset.fld THM_STOP_TSTOP = 135 := by decide +kernel

/-- The journal and the fault collector (ch. 15 and 16). -/
theorem State.reset_recordFields : State.reset.fld JNL_CFG_WARN = 3072 ∧ State.reset.fld FLT_FATAL_ESCSRC = 0x3F := by decide +kernel

theorem State.reset_twoWireTimeout : State.reset.fld TW_M_CFG_TOSDA = 35 := by decide +kernel

end Sys2Proof.Machine

open Sys2Proof Sys2Proof.Machine

/-- Settles O4, from the power-on values of each block's registers and the reset record of what it holds beside them. -/
theorem resetState : Obligations.ResetState := by
  unfold Obligations.ResetState
  obtain ⟨hhupct, henfmarg, hstatic⟩ := State.reset_forecastFields
  obtain ⟨ht3, htstop⟩ := State.reset_thermalFields
  obtain ⟨hwarn, hescsrc⟩ := State.reset_recordFields
  have hfeeds (n : Fin 4) : conducts (State.reset.feedSt n) = false := by rw [State.reset_feedSt]; rfl
  have hphases (n : Fin 16) : State.reset.ph[n].en = false := by rw [State.reset_ph]; rfl
  have hrings (n : Fin 64) : State.reset.ring[n].sq = [] := by rw [State.reset_ring]; rfl
  exact ⟨State.reset_sound, rfl, State.reset_awake, rfl, fun n => ⟨hfeeds n, State.reset_feedFields n⟩, State.reset_portFields, hphases,
    fun n => ⟨State.reset_ringEnabled n, hrings n⟩, State.reset_linkUp, hhupct, henfmarg, hstatic, ht3, htstop, hwarn, hescsrc, rfl,
    State.reset_present, State.reset_twoWireTimeout⟩

end

section
/-! PROOF. What each command may do to the queue, the soundness of the state and the fuses (`Keeps`). A command is a tree of operations,
each with its `_keeps` lemma: for the commands of a chapter the proof walks these trees. A command that blows a fuse, or whose tree
depends on what it read, has a proof of its own. -/

namespace Sys2Proof.Machine

/-- The command answers, with a next state that `Keeps` allows. -/
def KeepsNext (s : State) (r : Host.Outcome State Fault Refusal) : Prop := ∃ t, r = .next t ∧ Keeps s t

theorem KeepsNext.next {s t : State} (h : Keeps s t) : KeepsNext s (.next t) := ⟨t, rfl, h⟩

/-- The commands of the phase engine. -/
structure PhaseRowsKeep (s : State) : Prop where
  pwmCycleStart (n : Fin 16) : KeepsNext s (execPwmCycleStart n s)
  tripMismatch (n : Fin 16) (reported : Bool) : KeepsNext s (execTripMismatch n reported s)
  phaseLoss (n : Fin 16) (cause : Fin 4) (w : Nat) : KeepsNext s (execPhaseLoss n cause w s)
  tripWireEvent (n : Fin 16) (e : TripEv) (at_ : Rat) (trunc : Bool) (w : Nat) : KeepsNext s (execTripWireEvent n e at_ trunc w s)
  maxDutyEnd (n : Fin 16) : KeepsNext s (execMaxDutyEnd n s)
  slowOverload (n : Fin 16) : KeepsNext s (execSlowOverload n s)
  oclCoolEnd (n : Fin 16) : KeepsNext s (execOclCoolEnd n s)
  inductanceLearn (n : Fin 16) : KeepsNext s (execInductanceLearn n s)
  hardSwitchReport (n : Fin 16) (at_ : Rat) (w : Nat) : KeepsNext s (execHardSwitchReport n at_ w s)
  deadtimeAdapt (n : Fin 16) : KeepsNext s (execDeadtimeAdapt n s)
  modeEvaluate (k : Fin 2) : KeepsNext s (execModeEvaluate k s)
  directionChange (k : Fin 2) (d : Dir) : KeepsNext s (execDirectionChange k d s)
  phaseAdd (k : Fin 2) : KeepsNext s (execPhaseAdd k s)
  phaseWakeDone (n : Fin 16) : KeepsNext s (execPhaseWakeDone n s)
  phaseShed (k : Fin 2) : KeepsNext s (execPhaseShed k s)
  legProbe (n : Fin 16) (boost : Bool) (p : LegPulse) : KeepsNext s (execLegProbe n boost p s)
  syncLost : KeepsNext s (execSyncLost s)
  syncRelock : KeepsNext s (execSyncRelock s)
  busovUpdate : KeepsNext s (execBusovUpdate s)
  phaseMapDrainDone : KeepsNext s (execPhaseMapDrainDone s)
  vholdRefUpdate : KeepsNext s (execVholdRefUpdate s)

theorem phaseRows_keep (s : State) : PhaseRowsKeep s := by
  have hrefl := Keeps.refl s
  constructor
  all_goals
    intros
    refine .next ?_
    repeat' first
      | with_reducible assumption
      | extract_lets
      | with_reducible apply Keeps.ite
      | with_reducible apply State.reachB_keeps
      | with_reducible apply State.portCycle_keeps
      | with_reducible apply State.modPh_keeps
      | with_reducible apply State.blendStep_keeps
      | with_reducible apply State.startCycle_keeps
      | with_reducible apply State.markLost_keeps
      | with_reducible apply State.cmpReport_keeps
      | with_reducible apply State.evt_keeps
      | with_reducible apply State.cmpClear_keeps
      | with_reducible apply State.onTrip_keeps
      | with_reducible apply State.endOn_keeps
      | with_reducible apply State.count_keeps
      | with_reducible apply State.setFld_keeps
      | with_reducible apply State.oclLatch_keeps
      | with_reducible apply State.setPh_keeps
      | with_reducible apply State.syncPorts_keeps
      | with_reducible apply State.setCode_keeps
      | with_reducible apply State.modPhp_keeps
      | with_reducible apply State.turn_keeps
      | with_reducible apply State.addUpTo_keeps
      | with_reducible apply State.syncElig_keeps
      | with_reducible apply State.syncPort_keeps
      | with_reducible apply State.shedOne_keeps
      | with_reducible apply State.probe_keeps
      | with_reducible apply State.setOn_keeps
      | with_reducible apply State.fault_keeps
      | with_reducible apply State.drainNext_keeps
      | with_reducible apply State.applyMap_keeps
      | with_reducible apply State.atTarget_keeps
      | with_reducible refine State.each_keeps ?_ _ _ (fun _ _ _ => ?_)
      | split
      | with_reducible refine Keeps.mk_same ?_ rfl rfl rfl

/-- The commands of the pack ports and keys. -/
structure PackRowsKeep (s : State) : Prop where
  b4WipeDone : KeepsNext s (execB4WipeDone s)
  packInserted (k : Fin 2) : KeepsNext s (execPackInserted k s)
  packRemoved (k : Fin 2) : KeepsNext s (execPackRemoved k s)
  packIdentDone (k : Fin 2) (r : Option Ident) : KeepsNext s (execPackIdentDone k r s)
  packCloseStart (k : Fin 2) : KeepsNext s (execPackCloseStart k s)
  packCloseDone (k : Fin 2) : KeepsNext s (execPackCloseDone k s)
  packCloseTimeout (k : Fin 2) : KeepsNext s (execPackCloseTimeout k s)
  packDsgReclose (k : Fin 2) : KeepsNext s (execPackDsgReclose k s)
  packShortCircuit (k : Fin 2) (w : Nat) : KeepsNext s (execPackShortCircuit k w s)
  packChargeOvercurrent (k : Fin 2) (w : Nat) : KeepsNext s (execPackChargeOvercurrent k w s)
  packOv (k : Fin 2) (w : Nat) : KeepsNext s (execPackOv k w s)
  packUv (k : Fin 2) (w : Nat) : KeepsNext s (execPackUv k w s)
  packOvertemp (k : Fin 2) : KeepsNext s (execPackOvertemp k s)
  packTripRetry (k : Fin 2) (t : PkTrip) : KeepsNext s (execPackTripRetry k t s)
  coulombSample (k : Fin 2) (code : Int) : KeepsNext s (execCoulombSample k code s)
  coulombOffsetStart (k : Fin 2) : KeepsNext s (execCoulombOffsetStart k s)
  coulombOffsetDone (k : Fin 2) : KeepsNext s (execCoulombOffsetDone k s)
  authRunStart (k : Fin 2) : KeepsNext s (execAuthRunStart k s)
  authRunDone (k : Fin 2) (r : Option RunIn) : KeepsNext s (execAuthRunDone k r s)
  lifeWriteback (k : Fin 2) (ok : Bool) : KeepsNext s (execLifeWriteback k ok s)
  aonTick (fd : Vector Rat 4) (pk : Vector Rat 2) (wakeLow : Bool) (presHigh : BitVec 2) :
    KeepsNext s (execAonTick fd pk wakeLow presHigh s)

theorem packRows_keep (s : State) : PackRowsKeep s := by
  have hrefl := Keeps.refl s
  constructor
  all_goals
    intros
    refine .next ?_
    repeat' first
      | with_reducible assumption
      | extract_lets
      | with_reducible apply Keeps.ite
      | with_reducible apply State.count_keeps
      | with_reducible apply State.evt_keeps
      | with_reducible apply State.jevent_keeps
      | with_reducible apply State.setFld_keeps
      | with_reducible apply State.reloadB4_keeps
      | with_reducible apply State.authDue_keeps
      | with_reducible apply State.inserted_keeps
      | with_reducible apply State.packLeft_keeps
      | with_reducible apply State.openPort_keeps
      | with_reducible apply State.leaveHoldup_keeps
      | with_reducible apply State.leaveGust_keeps
      | with_reducible apply State.enterStage_keeps
      | with_reducible apply State.setCmd_keeps
      | with_reducible apply State.abortJoined_keeps
      | with_reducible apply State.modPk_keeps
      | with_reducible apply State.setWord_keeps
      | with_reducible apply State.setOn_keeps
      | with_reducible apply State.modTw_keeps
      | with_reducible apply State.setPk_keeps
      | with_reducible apply State.syncPack_keeps
      | with_reducible apply State.syncElig_keeps
      | with_reducible apply State.stopWrote_keeps
      | with_reducible apply State.identDone_keeps
      | with_reducible apply State.tryClose_keeps
      | with_reducible apply State.setGates_keeps
      | with_reducible apply State.dsgAfterClose_keeps
      | with_reducible apply State.closeFail_keeps
      | with_reducible apply State.dsgReclose_keeps
      | with_reducible apply State.cmpRow_keeps
      | with_reducible apply State.packShort_keeps
      | with_reducible apply State.packOcc_keeps
      | with_reducible apply State.packOv_keeps
      | with_reducible apply State.packUv_keeps
      | with_reducible apply State.fault_keeps
      | with_reducible apply State.tripPort_keeps
      | with_reducible apply State.setSfld_keeps
      | with_reducible apply State.cmpSee_keeps
      | with_reducible apply State.modChg_keeps
      | with_reducible apply State.countCharge_keeps
      | with_reducible apply State.gustLoss_keeps
      | with_reducible apply State.setAuth_keeps
      | with_reducible apply State.endJoined_keeps
      | with_reducible apply State.lifeWrite_keeps
      | with_reducible apply State.ageTick_keeps
      | with_reducible apply State.pressTick_keeps
      | with_reducible refine State.each_keeps ?_ _ _ (fun _ _ _ => ?_)
      | split
      | with_reducible refine Keeps.mk_same ?_ rfl rfl rfl

/-- The commands of charging, hold-up and Gust. -/
structure ChargeRowsKeep (s : State) : Prop where
  feedLimitUpdate : KeepsNext s (execFeedLimitUpdate s)
  chargeCommandUpdate : KeepsNext s (execChargeCommandUpdate s)
  chargeLoopUpdate (k : Fin 2) : KeepsNext s (execChargeLoopUpdate k s)
  chgQualifyEnd (k : Fin 2) : KeepsNext s (execChgQualifyEnd k s)
  chgPrechargeExit (k : Fin 2) : KeepsNext s (execChgPrechargeExit k s)
  chgStageTimeout (k : Fin 2) : KeepsNext s (execChgStageTimeout k s)
  chgDwellExpire (k : Fin 2) : KeepsNext s (execChgDwellExpire k s)
  chgTempOut (k : Fin 2) : KeepsNext s (execChgTempOut k s)
  chgRestEnd (k : Fin 2) : KeepsNext s (execChgRestEnd k s)
  chgStarve (k : Fin 2) : KeepsNext s (execChgStarve k s)
  crestUpdate : KeepsNext s (execCrestUpdate s)
  profileReadDone (k : Fin 2) (p : Profile) : KeepsNext s (execProfileReadDone k p s)
  soundingWindowEnd (k : Fin 2) : KeepsNext s (execSoundingWindowEnd k s)
  holdupLoopUpdate : KeepsNext s (execHoldupLoopUpdate s)
  hulowAssert : KeepsNext s (execHulowAssert s)
  hulowRelease : KeepsNext s (execHulowRelease s)
  holdupCut (k : Fin 2) : KeepsNext s (execHoldupCut k s)
  holdupEndStop : KeepsNext s (execHoldupEndStop s)
  gustHoldEnd (k : Fin 2) : KeepsNext s (execGustHoldEnd k s)

theorem chargeRows_keep (s : State) : ChargeRowsKeep s := by
  have hrefl := Keeps.refl s
  constructor
  all_goals
    intros
    refine .next ?_
    repeat' first
      | with_reducible assumption
      | extract_lets
      | with_reducible apply Keeps.ite
      | with_reducible apply State.modChg_keeps
      | with_reducible apply State.setPfl_keeps
      | with_reducible apply State.shareGust_keeps
      | with_reducible apply State.chgStep_keeps
      | with_reducible apply State.claimCharge_keeps
      | with_reducible apply State.shareAllowed_keeps
      | with_reducible apply State.chargeCmd_keeps
      | with_reducible apply State.gustCmd_keeps
      | with_reducible apply State.setCmd_keeps
      | with_reducible apply State.syncElig_keeps
      | with_reducible apply State.chgDwell_keeps
      | with_reducible apply State.enterCv_keeps
      | with_reducible apply State.setItgt_keeps
      | with_reducible apply State.enterStage_keeps
      | with_reducible apply State.modPk_keeps
      | with_reducible apply State.setGates_keeps
      | with_reducible apply State.dsgReclose_keeps
      | with_reducible apply State.evt_keeps
      | with_reducible apply State.fault_keeps
      | with_reducible apply State.fullRef_keeps
      | with_reducible apply State.free_keeps
      | with_reducible apply State.setFld_keeps
      | with_reducible apply State.fail_keeps
      | with_reducible apply State.count_keeps
      | with_reducible apply State.applyProfile_keeps
      | with_reducible apply State.done_keeps
      | with_reducible apply State.setSfld_keeps
      | with_reducible apply State.setOn_keeps
      | with_reducible apply State.restoreLoop_keeps
      | with_reducible apply State.syncCrest_keeps
      | with_reducible apply State.setRole_keeps
      | with_reducible apply State.finish_keeps
      | with_reducible apply State.cutShare_keeps
      | with_reducible apply State.setPout_keeps
      | with_reducible apply State.syncThr_keeps
      | with_reducible apply State.socRef_keeps
      | with_reducible apply State.leaveHoldup_keeps
      | with_reducible apply State.extractionStop_keeps
      | with_reducible apply State.leaveGust_keeps
      | with_reducible refine State.each_keeps ?_ _ _ (fun _ _ _ => ?_)
      | split
      | with_reducible refine Keeps.mk_same ?_ rfl rfl rfl

/-- The commands of the feeds. -/
structure FeedRowsKeep (s : State) : Prop where
  feedPresent (n : Fin 4) : KeepsNext s (execFeedPresent n s)
  feedCheckDone (n : Fin 4) (c : FeedChecks) : KeepsNext s (execFeedCheckDone n c s)
  feedAbsent (n : Fin 4) : KeepsNext s (execFeedAbsent n s)
  feedUv (n : Fin 4) (w : Nat) : KeepsNext s (execFeedUv n w s)
  feedOv (n : Fin 4) (w : Nat) : KeepsNext s (execFeedOv n w s)
  feedWindowEnter (n : Fin 4) : KeepsNext s (execFeedWindowEnter n s)
  feedQualified (n : Fin 4) : KeepsNext s (execFeedQualified n s)
  inrushStart (n : Fin 4) : KeepsNext s (execInrushStart n s)
  inrushComplete (n : Fin 4) : KeepsNext s (execInrushComplete n s)
  inrushTimeout (n : Fin 4) : KeepsNext s (execInrushTimeout n s)
  feedModelUpdate (n : Fin 4) : KeepsNext s (execFeedModelUpdate n s)
  feedShortCircuit (n : Fin 4) (w : Nat) : KeepsNext s (execFeedShortCircuit n w s)
  feedScHoldoffEnd (n : Fin 4) : KeepsNext s (execFeedScHoldoffEnd n s)
  feedReverseCurrent (n : Fin 4) (w : Nat) : KeepsNext s (execFeedReverseCurrent n w s)
  oringReenable (n : Fin 4) : KeepsNext s (execOringReenable n s)
  droopUpdate (n : Fin 4) : KeepsNext s (execDroopUpdate n s)
  nearAssert (n : Fin 4) : KeepsNext s (execNearAssert n s)
  nearRelease : KeepsNext s (execNearRelease s)
  feedHealthExpire (n : Fin 4) : KeepsNext s (execFeedHealthExpire n s)
  feedTripCountClear (n : Fin 4) : KeepsNext s (execFeedTripCountClear n s)
  feedGroupChange : KeepsNext s (execFeedGroupChange s)
  ejectAssert : KeepsNext s (execEjectAssert s)
  ejectDeassert : KeepsNext s (execEjectDeassert s)
  ejectFeedOff : KeepsNext s (execEjectFeedOff s)
  extractHoldExpire : KeepsNext s (execExtractHoldExpire s)

theorem feedRows_keep (s : State) : FeedRowsKeep s := by
  have hrefl := Keeps.refl s
  constructor
  all_goals
    intros
    refine .next ?_
    repeat' first
      | with_reducible assumption
      | extract_lets
      | with_reducible apply Keeps.ite
      | with_reducible apply State.modFeed_keeps
      | with_reducible apply State.cmpForget_keeps
      | with_reducible apply State.setFeed_keeps
      | with_reducible apply State.setChk_keeps
      | with_reducible apply State.checkPassed_keeps
      | with_reducible apply State.checkFailed_keeps
      | with_reducible apply State.gatesOff_keeps
      | with_reducible apply State.setQual_keeps
      | with_reducible apply State.feedChanged_keeps
      | with_reducible apply State.budgetDrop_keeps
      | with_reducible apply State.cmpRow_keeps
      | with_reducible apply State.feedUv_keeps
      | with_reducible apply State.feedOv_keeps
      | with_reducible apply State.cmpRelease_keeps
      | with_reducible apply State.qualify_keeps
      | with_reducible apply State.setOn_keeps
      | with_reducible apply State.feedsBack_keeps
      | with_reducible apply State.settleGroup_keeps
      | with_reducible apply State.evt_keeps
      | with_reducible apply State.thermalTrip_keeps
      | with_reducible apply State.setCode_keeps
      | with_reducible apply State.setFld_keeps
      | with_reducible apply State.coolCheck_keeps
      | with_reducible apply State.cmpReport_keeps
      | with_reducible apply State.feedShort_keeps
      | with_reducible apply State.feedReverse_keeps
      | with_reducible apply State.setScode_keeps
      | with_reducible apply State.syncFeeds_keeps
      | with_reducible apply State.modChg_keeps
      | with_reducible apply State.setGroup_keeps
      | with_reducible apply State.setCmd_keeps
      | with_reducible apply State.setPout_keeps
      | with_reducible apply State.syncElig_keeps
      | with_reducible apply State.notice_keeps
      | with_reducible apply State.extractionStop_keeps
      | with_reducible refine State.each_keeps ?_ _ _ (fun _ _ _ => ?_)

/-- The commands of Forecast. -/
structure ForecastRowsKeep (s : State) : Prop where
  grantRequest (n : Fin 64) (d : Desc) : KeepsNext s (execGrantRequest n d s)
  grantRelease (n : Fin 64) (d : Desc) : KeepsNext s (execGrantRelease n d s)
  grantExtend (n : Fin 64) (d : Desc) : KeepsNext s (execGrantExtend n d s)
  accountRead (n : Fin 64) (d : Desc) : KeepsNext s (execAccountRead n d s)
  cacheFillDone (c : Nat) (e : BitVec 512) (g : Fin 3) : KeepsNext s (execCacheFillDone c e g s)
  accountWriteback (c : Nat) (late : Bool) (g : Fin 3) : KeepsNext s (execAccountWriteback c late g s)
  grantExpire (c : Nat) : KeepsNext s (execGrantExpire c s)
  throttleRelease (c : Nat) : KeepsNext s (execThrottleRelease c s)
  zoneHostStale (z : Fin 8) : KeepsNext s (execZoneHostStale z s)
  forecastSnapshot : KeepsNext s (execForecastSnapshot s)

theorem forecastRows_keep (s : State) : ForecastRowsKeep s := by
  have hrefl := Keeps.refl s
  constructor
  all_goals
    intros
    refine .next ?_
    repeat' first
      | with_reducible assumption
      | extract_lets
      | with_reducible apply Keeps.ite
      | with_reducible apply State.ctxCommand_keeps
      | with_reducible apply State.guardGrants_keeps
      | with_reducible apply State.modFc_keeps
      | with_reducible apply State.fillLine_keeps
      | with_reducible apply State.decideMiss_keeps
      | with_reducible apply State.evt_keeps
      | with_reducible apply State.writeBack_keeps
      | with_reducible apply State.revoke_keeps
      | with_reducible apply State.syncLive_keeps
      | with_reducible apply State.syncThr_keeps
      | with_reducible apply State.htAge_keeps
      | with_reducible apply State.setFld_keeps
      | with_reducible apply State.staticPin_keeps
      | with_reducible apply State.staticDrop_keeps
      | with_reducible apply State.expireDue_keeps
      | with_reducible apply State.enforce_keeps
      | with_reducible apply State.modChg_keeps
      | with_reducible apply State.fcTerms_keeps
      | with_reducible refine State.each_keeps ?_ _ _ (fun _ _ _ => ?_)
      | split

/-- The commands of the presence window and the fault collector. -/
structure FaultRowsKeep (s : State) : Prop where
  attendPress : KeepsNext s (execAttendPress s)
  attendRelease : KeepsNext s (execAttendRelease s)
  presenceTimeout : KeepsNext s (execPresenceTimeout s)
  faultEvent : KeepsNext s (execFaultEvent s)
  fltAutoAck (src : Fin 64) : KeepsNext s (execFltAutoAck src s)
  faultPulseEnd : KeepsNext s (execFaultPulseEnd s)
  faultNHeartbeat : KeepsNext s (execFaultNHeartbeat s)
  watchdogExpire : KeepsNext s (execWatchdogExpire s)
  collectorSelfCheck (bad : CollScan) : KeepsNext s (execCollectorSelfCheck bad s)
  safeClockLoss : KeepsNext s (execSafeClockLoss s)
  d2dRetry : KeepsNext s (execD2dRetry s)
  d2dLinkLoss : KeepsNext s (execD2dLinkLoss s)
  refLoss (c0 : Nat) (c1 : Nat) : KeepsNext s (execRefLoss c0 c1 s)
  anvilOvertemp : KeepsNext s (execAnvilOvertemp s)

theorem faultRows_keep (s : State) : FaultRowsKeep s := by
  have hrefl := Keeps.refl s
  constructor
  all_goals
    intros
    refine .next ?_
    repeat' first
      | with_reducible assumption
      | extract_lets
      | with_reducible apply Keeps.ite
      | with_reducible apply State.setOn_keeps
      | with_reducible apply State.count_keeps
      | with_reducible apply State.attendEntry_keeps
      | with_reducible apply State.evt_keeps
      | with_reducible apply State.closeWindow_keeps
      | with_reducible apply State.collect_keeps
      | with_reducible apply State.clearPend_keeps
      | with_reducible apply State.setFaultN_keeps
      | with_reducible apply State.pinNow_keeps
      | with_reducible apply State.recordFault_keeps
      | with_reducible apply State.collectorBad_keeps
      | with_reducible apply State.safeEntry_keeps
      | with_reducible apply State.faultHeld_keeps
      | with_reducible apply State.fault_keeps
      | with_reducible apply State.tripAll_keeps
      | split
      | with_reducible refine Keeps.mk_same ?_ rfl rfl rfl

/-- The commands of temperatures, comparators and converters. -/
structure SensorRowsKeep (s : State) : Prop where
  dieTempReading (tc : Vector Int 5) : KeepsNext s (execDieTempReading tc s)
  stageTempReading (n : Fin 16) : KeepsNext s (execStageTempReading n s)
  ncapStep (k : Fin 2) : KeepsNext s (execNcapStep k s)
  thermalCompUpdate (q : Fin 4) : KeepsNext s (execThermalCompUpdate q s)
  cmpGpEvent (g : Fin 2) (x : Int) (w : Nat) : KeepsNext s (execCmpGpEvent g x w s)
  busUv (w : Nat) : KeepsNext s (execBusUv w s)
  biasLow (w : Nat) : KeepsNext s (execBiasLow w s)
  biasOv (w : Nat) : KeepsNext s (execBiasOv w s)
  blankingIntervalEnd (c : Fin 48) (x : Int) : KeepsNext s (execBlankingIntervalEnd c x s)
  comparatorAutozero (c : Fin 48) (trim : Int) (x : Int) : KeepsNext s (execComparatorAutozero c trim x s)
  adcaPass (inp : AdcIn) (t : Rat) : KeepsNext s (execAdcaPass inp t s)
  adcbPass (inp : AdcIn) (t : Rat) : KeepsNext s (execAdcbPass inp t s)
  adcInjection (x : Fin 2) (k : Fin 4) (inp : AdcIn) (pair : Int) (t : Rat) : KeepsNext s (execAdcInjection x k inp pair t s)
  referenceLoss (r : Fin 3) (busy : BitVec 2) : KeepsNext s (execReferenceLoss r busy s)
  referenceReady (r : Fin 3) : KeepsNext s (execReferenceReady r s)
  adcCrossCheck (x : Fin 2) (c42 : BitVec 16) (c43 : BitVec 16) (c36 : BitVec 16) : KeepsNext s (execAdcCrossCheck x c42 c43 c36 s)

theorem sensorRows_keep (s : State) : SensorRowsKeep s := by
  have hrefl := Keeps.refl s
  constructor
  all_goals
    intros
    refine .next ?_
    repeat' first
      | with_reducible assumption
      | extract_lets
      | with_reducible apply Keeps.ite
      | with_reducible apply State.setScode_keeps
      | with_reducible apply State.crossCheck_keeps
      | with_reducible apply State.noXchk_keeps
      | with_reducible apply State.setSfld_keeps
      | with_reducible apply State.setFld_keeps
      | with_reducible apply State.dieActions_keeps
      | with_reducible apply State.evt_keeps
      | with_reducible apply State.exclude_keeps
      | with_reducible apply State.stageActions_keeps
      | with_reducible apply State.capFall_keeps
      | with_reducible apply State.modPhp_keeps
      | with_reducible apply State.syncPort_keeps
      | with_reducible apply State.setOn_keeps
      | with_reducible apply State.cmpInput_keeps
      | with_reducible apply State.cmpFault_keeps
      | with_reducible apply State.modCmp_keeps
      | with_reducible apply State.fault_keeps
      | with_reducible apply State.count_keeps
      | with_reducible apply State.trySwap_keeps
      | with_reducible apply State.adcTick_keeps
      | with_reducible apply State.injectAmp_keeps
      | with_reducible apply State.injectPack_keeps
      | with_reducible apply State.modAdc_keeps
      | with_reducible apply State.inject_keeps
      | with_reducible apply State.noRef_keeps
      | with_reducible apply State.refFall_keeps
      | with_reducible refine State.each_keeps ?_ _ _ (fun _ _ _ => ?_)
      | split
      | with_reducible refine Keeps.mk_same ?_ rfl rfl rfl

/-- The commands of the host link and the rings. -/
structure RingRowsKeep (s : State) : Prop where
  sqTailDoorbell (n : Fin 64) (v : Word) : KeepsNext s (execSqTailDoorbell n v s)
  cqHeadDoorbell (n : Fin 64) (v : Word) : KeepsNext s (execCqHeadDoorbell n v s)
  pushSlotWrite (n : Fin 64) (ws : List (Fin 64 × Byte)) : KeepsNext s (execPushSlotWrite n ws s)
  bar2InvalidWrite (off : BitVec 13) (len : Nat) : KeepsNext s (execBar2InvalidWrite off len s)
  descriptorFetchDone (n : Fin 64) (ds : List Desc) : KeepsNext s (execDescriptorFetchDone n ds s)
  ringDrained (n : Fin 64) : KeepsNext s (execRingDrained n s)
  completionPost (n : Fin 64) : KeepsNext s (execCompletionPost n s)
  msixTimerExpire (n : Fin 64) : KeepsNext s (execMsixTimerExpire n s)
  pePerstNAssert : KeepsNext s (execPePerstNAssert s)
  linkDown : KeepsNext s (execLinkDown s)
  functionLevelReset : KeepsNext s (execFunctionLevelReset s)
  d3hotEntry : KeepsNext s (execD3hotEntry s)
  linkUp (g : Fin 3) : KeepsNext s (execLinkUp g s)
  busMasterDisable : KeepsNext s (execBusMasterDisable s)
  busMasterEnable (c : PciCfg) : KeepsNext s (execBusMasterEnable c s)
  aspmL1Entry : KeepsNext s (execAspmL1Entry s)
  aspmL1Exit : KeepsNext s (execAspmL1Exit s)

theorem ringRows_keep (s : State) : RingRowsKeep s := by
  have hrefl := Keeps.refl s
  constructor
  all_goals
    intros
    refine .next ?_
    repeat' first
      | with_reducible assumption
      | extract_lets
      | with_reducible apply Keeps.ite
      | with_reducible apply State.count_keeps
      | with_reducible apply State.haltRing_keeps
      | with_reducible apply State.setFld_keeps
      | with_reducible apply State.modRing_keeps
      | with_reducible apply State.latchHalf_keeps
      | with_reducible apply State.consume_keeps
      | with_reducible apply State.startFetch_keeps
      | with_reducible apply State.flush_keeps
      | with_reducible apply State.startFetches_keeps
      | with_reducible apply State.postOne_keeps
      | with_reducible apply State.ringMessage_keeps
      | with_reducible apply State.linkDown_keeps
      | with_reducible apply State.linkLost_keeps
      | with_reducible apply State.setOn_keeps
      | with_reducible apply State.abortTel_keeps
      | with_reducible apply State.send_keeps
      | with_reducible apply State.firePending_keeps
      | with_reducible refine State.each_keeps ?_ _ _ (fun _ _ _ => ?_)
      | split
      | with_reducible refine Keeps.mk_same ?_ rfl rfl rfl

/-- The commands of the memory banks and timers. -/
structure ClockRowsKeep (s : State) : Prop where
  patrolScrub (r : Scrub) (off : BitVec 19) (lane : Fin 4) (last : Bool) (late : Bool) :
    KeepsNext s (execPatrolScrub r off lane last late s)
  timerIncrement (n : Fin 8) (sync : Bool) : KeepsNext s (execTimerIncrement n sync s)
  timerTriggerEdge (n : Fin 8) : KeepsNext s (execTimerTriggerEdge n s)
  timerCapture (n : Fin 8) (c : Fin 4) : KeepsNext s (execTimerCapture n c s)
  devtimeWrap : KeepsNext s (execDevtimeWrap s)
  cpDebugHalt : KeepsNext s (execCpDebugHalt s)
  cpDebugResume : KeepsNext s (execCpDebugResume s)

theorem clockRows_keep (s : State) : ClockRowsKeep s := by
  have hrefl := Keeps.refl s
  constructor
  all_goals
    intros
    refine .next ?_
    repeat' first
      | with_reducible assumption
      | extract_lets
      | with_reducible apply Keeps.ite
      | with_reducible apply State.memCe_keeps
      | with_reducible apply State.memUe_keeps
      | with_reducible apply State.guardGrants_keeps
      | with_reducible apply State.evt_keeps
      | with_reducible apply State.count_keeps
      | with_reducible apply State.modTmr_keeps
      | with_reducible apply State.tmrStep_keeps
      | with_reducible apply State.setFld_keeps
      | with_reducible apply State.setOn_keeps
      | with_reducible apply State.tmrRise_keeps
      | with_reducible apply State.setFlags_keeps
      | with_reducible apply State.timeWrap_keeps
      | split
      | with_reducible refine Keeps.mk_same ?_ rfl rfl rfl

/-- The commands of the two-wire ports. -/
structure TwoWireRowsKeep (s : State) : Prop where
  twBusError (p : Fin 3) : KeepsNext s (execTwBusError p s)
  twSclTimeout (p : Fin 3) : KeepsNext s (execTwSclTimeout p s)
  twSdaTimeout (p : Fin 3) : KeepsNext s (execTwSdaTimeout p s)
  twBusFree (p : Fin 3) : KeepsNext s (execTwBusFree p s)
  twBusClear (p : Fin 3) (pulses : Option (Fin 10)) : KeepsNext s (execTwBusClear p pulses s)
  twMWrite (bytes : List Byte) (stop : Bool) : KeepsNext s (execTwMWrite bytes stop s)
  twMPointerSet (ptr : BitVec 16) (pec : Option Byte) (stop : Bool) : KeepsNext s (execTwMPointerSet ptr pec stop s)
  twMRead (n : Nat) (stop : Bool) : KeepsNext s (execTwMRead n stop s)
  alertRaise : KeepsNext s (execAlertRaise s)
  alertResponse (lost : Bool) : KeepsNext s (execAlertResponse lost s)
  hostNotify (acked : Bool) : KeepsNext s (execHostNotify acked s)
  hostNotifyRetry (acked : Bool) : KeepsNext s (execHostNotifyRetry acked s)
  hostNotifyDrop : KeepsNext s (execHostNotifyDrop s)
  twArbLost (p : Fin 3) (own : Bool) : KeepsNext s (execTwArbLost p own s)
  rarexTransaction (k : Fin 2) (cmd : Rarex) (fails : List TwErr) (reply : List Byte) :
    KeepsNext s (execRarexTransaction k cmd fails reply s)
  getSigPoll (k : Fin 2) (fails : List TwErr) : KeepsNext s (execGetSigPoll k fails s)

theorem twoWireRows_keep (s : State) : TwoWireRowsKeep s := by
  have hrefl := Keeps.refl s
  constructor
  all_goals
    intros
    refine .next ?_
    repeat' first
      | with_reducible assumption
      | extract_lets
      | with_reducible apply Keeps.ite
      | with_reducible apply State.twAbandon_keeps
      | with_reducible apply State.setFlags_keeps
      | with_reducible apply State.twCount_keeps
      | with_reducible apply State.twLost_keeps
      | with_reducible apply State.twStray_keeps
      | with_reducible apply State.twTimeout_keeps
      | with_reducible apply State.setBusy_keeps
      | with_reducible apply State.sdaCheck_keeps
      | with_reducible apply State.mStart_keeps
      | with_reducible apply State.mWrite_keeps
      | with_reducible apply State.mRead_keeps
      | with_reducible apply State.modTw_keeps
      | with_reducible apply State.setOn_keeps
      | with_reducible apply State.hostNotify_keeps
      | with_reducible apply State.setLines_keeps
      | with_reducible apply State.setFld_keeps
      | with_reducible apply State.rarex_keeps

/-- The commands of start-up and the self-tests. -/
structure StartupRowsKeep (s : State) : Prop where
  biasRise (v : BiasIn) : KeepsNext s (execBiasRise v s)
  biasGood (r : Boot) : KeepsNext s (execBiasGood r s)
  biasSourceChange (v : BiasIn) : KeepsNext s (execBiasSourceChange v s)
  powerOnReset : KeepsNext s (execPowerOnReset s)
  resetNAssert : KeepsNext s (execResetNAssert s)
  resetNRelease (r : Boot) : KeepsNext s (execResetNRelease r s)
  doldrumsWake (w : WakeSrc) (v : BiasIn) (r : Boot) : KeepsNext s (execDoldrumsWake w v r s)
  shipCut : KeepsNext s (execShipCut s)
  onlineMarginCheck : KeepsNext s (execOnlineMarginCheck s)
  onlinePhaseTestDone (r : TestRes) : KeepsNext s (execOnlinePhaseTestDone r s)
  offlineDone (r : OffRes) : KeepsNext s (execOfflineDone r s)

theorem startupRows_keep (s : State) : StartupRowsKeep s := by
  have hrefl := Keeps.refl s
  constructor
  all_goals
    intros
    refine .next ?_
    repeat' first
      | with_reducible assumption
      | extract_lets
      | with_reducible apply Keeps.ite
      | with_reducible apply State.setStep_keeps
      | with_reducible apply State.bootClocks_keeps
      | with_reducible apply State.startUp_keeps
      | with_reducible apply State.powerOnReset_keeps
      | with_reducible apply State.deviceReset_keeps
      | with_reducible apply State.linkDown_keeps
      | with_reducible apply State.warmReset_keeps
      | with_reducible apply State.setFld_keeps
      | with_reducible apply State.setFeed_keeps
      | with_reducible apply State.modFeed_keeps
      | with_reducible apply State.setOn_keeps
      | with_reducible apply State.endTest_keeps
      | with_reducible apply State.failItem_keeps
      | with_reducible apply State.passTest_keeps
      | with_reducible apply State.testNext_keeps
      | with_reducible apply State.setWord_keeps
      | with_reducible apply State.modPh_keeps
      | with_reducible apply State.setPh_keeps
      | with_reducible apply State.syncPorts_keeps
      | with_reducible apply State.probeLeg_keeps
      | with_reducible apply State.markLost_keeps
      | with_reducible apply State.loadTrims_keeps
      | with_reducible apply State.offlineRefs_keeps
      | with_reducible apply State.probeLive_keeps
      | with_reducible apply State.marchBank_keeps
      | with_reducible refine State.each_keeps ?_ _ _ (fun _ _ _ => ?_)
      | split
      | with_reducible refine Keeps.mk_same ?_ rfl rfl rfl

/-- The commands of the admin ring and the fabric. -/
structure AccessRowsKeep (s : State) : Prop where
  setLimitsApply : KeepsNext s (execSetLimitsApply s)
  telemetryRecord (capture : Bool) (skip : Bool) : KeepsNext s (execTelemetryRecord capture skip s)
  adminDeferredStart (elems : List (BitVec 64)) : KeepsNext s (execAdminDeferredStart elems s)
  devrst (o : Origin) (v : Word) (r : Boot) : KeepsNext s (execDevrst o v r s)
  registerWrite (o : Origin) (off : BitVec 16) (v : Word) (f : Bar0Form) : KeepsNext s (execRegisterWrite o off v f s)
  timerCaptureRead (n : Fin 8) (c : Fin 4) (o : Origin) : KeepsNext s (execTimerCaptureRead n c o s)
  registerRead (o : Origin) (off : BitVec 16) (long : Bool) : KeepsNext s (execRegisterRead o off long s)
  journalWrite : KeepsNext s (execJournalWrite s)

theorem accessRows_keep (s : State) : AccessRowsKeep s := by
  have hrefl := Keeps.refl s
  constructor
  all_goals
    intros
    refine .next ?_
    repeat' first
      | with_reducible assumption
      | extract_lets
      | with_reducible apply Keeps.ite
      | with_reducible apply State.applyLimits_keeps
      | with_reducible apply State.capTick_keeps
      | with_reducible apply State.telAdd_keeps
      | with_reducible apply State.startAdmin_keeps
      | with_reducible apply State.fabricWrite_keeps
      | with_reducible apply State.startUp_keeps
      | with_reducible apply State.regFault_keeps
      | with_reducible apply State.unsupported_keeps
      | with_reducible apply State.fabricRead_keeps
      | with_reducible apply State.writeRecord_keeps
      | with_reducible apply State.serveHeld_keeps
      | with_reducible refine State.each_keeps ?_ _ _ (fun _ _ _ => ?_)
      | split
      | with_reducible refine Keeps.mk_same ?_ rfl rfl rfl

/-! ### Commands with a proof of their own -/

theorem execPhaseShedDone_keeps (s : State) (n : Fin 16) : KeepsNext s (execPhaseShedDone n s) := by
  unfold execPhaseShedDone
  refine .next (.ite ?_ (.refl s))
  have hport {t : State} (h : Keeps s t) (st : PhSt) : Keeps s (t.setPh n st).syncPorts := State.syncPorts_keeps (State.setPh_keeps h n st)
  cases s.portOf n with
  | none => exact State.drainNext_keeps (hport (.refl s) _)
  | some k => exact State.drainNext_keeps (State.syncElig_keeps (State.idleDir_keeps (hport (.refl s) _) k) k)

theorem execRevokeDeadline_keeps (s : State) (c : Nat) : KeepsNext s (execRevokeDeadline c s) := by
  unfold execRevokeDeadline
  refine .next ?_
  split
  · refine .ite (State.syncLive_keeps (State.jevent_keeps ?_ _ _ _ _ _ _)) (.refl s)
    have hthr (l : GtLine) (f : FcH → FcH) : Keeps s (((s.putLine l).modFc f).count FC_CNT_THROTTLES).syncThr :=
      State.syncThr_keeps (State.count_keeps (State.modFc_keeps (State.putLine_keeps (.refl s) l) f) _)
    dsimp only
    split
    · exact State.noticeOn_keeps (hthr _ _) _ _ _
    · exact hthr _ _
  · exact .refl s

theorem execGraceExpire_keeps (s : State) (mask : BitVec 64) : KeepsNext s (execGraceExpire mask s) := by
  unfold execGraceExpire
  refine .next (.ite (.refl s) ?_)
  cases finsWhere (fun i : Fin 64 => mask.getLsbD i.val && s.graceOver i) with
  | nil => exact .refl s
  | cons i l =>
    exact State.recordFault_keeps (State.each_keeps (.refl s) _ _ (fun _ _ h => State.clearPend_keeps h _)) _ _ _

theorem State.slotState_eq_zero_iff (s : State) (i : Fin 4) :
    s.slotState i = 0 ↔ s.aon.keys[i].2.1 = false ∧ s.aon.keys[i].2.2 = false := by
  unfold State.slotState
  rcases s.aon.keys[i] with ⟨k, valid, void⟩
  cases valid <;> cases void <;> simp

/-- A key goes only into a slot that holds none and is not void (R203). -/
theorem execKeyReadDone_keeps (s : State) (key : BitVec 512) : KeepsNext s (execKeyReadDone key s) := by
  unfold execKeyReadDone
  refine .next (.ite (.refl s) ?_)
  split
  · exact .refl s
  · next d l _ =>
    have ht : Keeps s { s with aon := { s.aon with keyLoad := l } } := Keeps.mk_same (.refl s) rfl rfl rfl
    extract_lets i a t
    change Keeps s t at ht
    split
    · exact State.fail_keeps ht _ _ _ _ _
    · split
      · exact State.fail_keeps ht _ _ _ _ _
      · next hslot =>
        rw [not_or, not_not, State.slotState_eq_zero_iff] at hslot
        obtain ⟨⟨hvalid, hvoid⟩, -⟩ := hslot
        exact State.done_keeps (State.loadB4_keeps (State.keyEntry_keeps (State.count_keeps
          (Keeps.fuseKey ht i key hvalid hvoid) _) _ _ _ _)) _ _ _ _

/-- The re-read adds blown fuses and takes none back (R81). -/
theorem execLifecycleChangeDone_keeps (s : State) (g : Vector (BitVec 5) 3) : KeepsNext s (execLifecycleChangeDone g s) := by
  unfold execLifecycleChangeDone
  refine .next ?_
  split
  · exact .refl s
  · next target _ =>
    extract_lets old was cls fuses a t ok u w x
    have ht : Keeps s t := by
      refine Keeps.of_groups (.refl s) rfl rfl rfl rfl (fun i j hj => ?_)
      simp [t, fuses, BitVec.getLsbD_or]
      exact .inl hj
    clear_value t
    have hw : Keeps s w := State.setFld_keeps (State.setFld_keeps (State.setOn_keeps (State.setOn_keeps
      (State.setOn_keeps ht _ _) _ _) _ _) _ _) _ _
    exact State.reloadB4_keeps (State.inForceChanged_keeps (State.inForceChanged_keeps
      (Keeps.ite (State.journal_keeps hw _) hw) _ _) _ _)

/-- A read that ends in an error completes its command and starts what waited behind it (R260). -/
theorem execDmaReadError_keeps (s : State) (r : DmaRead) (t : Fin 3) (addr : Word) : KeepsNext s (execDmaReadError r t addr s) := by
  unfold execDmaReadError
  have hrefl := Keeps.refl s
  refine .next (.ite hrefl ?_)
  have hrefuse {u : State} (hu : Keeps s u) (d : Desc) (f : RingH → RingH) (q : Nat) :
      Keeps s (((u.modRing 0 f).dmaError 0 3 t addr).refuse d 0 0x0B q 0) :=
    State.refuse_keeps (State.dmaError_keeps (State.modRing_keeps hu _ _) _ _ _ _) _ _ _ _ _ _
  cases r with
  | desc n =>
    dsimp only
    split
    · exact hrefl
    · have hu := State.modRing_keeps (State.dmaError_keeps hrefl n 1 t addr) n (fun r => { r with fetching := false })
      exact State.startFetches_keeps (.ite (State.haltRing_keeps hu _ _) hu)
  | grant c =>
    dsimp only
    split
    · exact hrefl
    · exact State.flush_keeps (State.complete_keeps (State.dmaError_keeps (State.modFc_keeps hrefl _) _ _ _ _) _ _ _ _ _) _
  | profile k =>
    dsimp only
    split
    · exact hrefl
    · exact State.fail_keeps (State.dmaError_keeps (State.modChg_keeps hrefl _ _) _ _ _ _) _ _ _ _ _
  | key =>
    dsimp only
    split
    · exact hrefl
    · next l _ =>
      have hu : Keeps s { s with aon := { s.aon with keyLoad := l } } := Keeps.mk_same hrefl rfl rfl rfl
      exact State.fail_keeps (State.dmaError_keeps hu _ _ _ _) _ _ _ _ _
  | list ds =>
    cases ds with
    | nil => exact hrefl
    | cons d l =>
      dsimp only
      split
      · have hu : Keeps s { s with hif := { s.hif with lists := s.hif.lists.erase (d :: l) } } := Keeps.mk_same hrefl rfl rfl rfl
        exact hrefuse hu _ _ _
      · split
        · exact hrefl
        · split
          · exact hrefl
          · next hu => exact hrefuse (State.takeReady_keeps hrefl hu) _ _ _

/-! ### Every command -/

/-- What any command may do to the queue, the soundness of the state and the fuses. -/
theorem exec_keeps (c : Instr) (s : State) : KeepsNext s (exec c s) :=
  match c with
  | .biasRise v => (startupRows_keep s).biasRise v
  | .biasGood r => (startupRows_keep s).biasGood r
  | .powerOnReset => (startupRows_keep s).powerOnReset
  | .biasSourceChange v => (startupRows_keep s).biasSourceChange v
  | .resetNAssert => (startupRows_keep s).resetNAssert
  | .resetNRelease r => (startupRows_keep s).resetNRelease r
  | .devrst o v r => (accessRows_keep s).devrst o v r
  | .lifecycleChangeDone blown => execLifecycleChangeDone_keeps s blown
  | .onlineMarginCheck => (startupRows_keep s).onlineMarginCheck
  | .onlinePhaseTestDone r => (startupRows_keep s).onlinePhaseTestDone r
  | .offlineDone r => (startupRows_keep s).offlineDone r
  | .feedPresent n => (feedRows_keep s).feedPresent n
  | .feedCheckDone n c => (feedRows_keep s).feedCheckDone n c
  | .feedAbsent n => (feedRows_keep s).feedAbsent n
  | .feedUv n w => (feedRows_keep s).feedUv n w
  | .feedOv n w => (feedRows_keep s).feedOv n w
  | .feedWindowEnter n => (feedRows_keep s).feedWindowEnter n
  | .feedQualified n => (feedRows_keep s).feedQualified n
  | .inrushStart n => (feedRows_keep s).inrushStart n
  | .inrushComplete n => (feedRows_keep s).inrushComplete n
  | .inrushTimeout n => (feedRows_keep s).inrushTimeout n
  | .feedModelUpdate n => (feedRows_keep s).feedModelUpdate n
  | .feedShortCircuit n w => (feedRows_keep s).feedShortCircuit n w
  | .feedScHoldoffEnd n => (feedRows_keep s).feedScHoldoffEnd n
  | .feedReverseCurrent n w => (feedRows_keep s).feedReverseCurrent n w
  | .oringReenable n => (feedRows_keep s).oringReenable n
  | .droopUpdate n => (feedRows_keep s).droopUpdate n
  | .nearAssert n => (feedRows_keep s).nearAssert n
  | .nearRelease => (feedRows_keep s).nearRelease
  | .feedHealthExpire n => (feedRows_keep s).feedHealthExpire n
  | .feedTripCountClear n => (feedRows_keep s).feedTripCountClear n
  | .feedGroupChange => (feedRows_keep s).feedGroupChange
  | .ejectAssert => (feedRows_keep s).ejectAssert
  | .ejectDeassert => (feedRows_keep s).ejectDeassert
  | .ejectFeedOff => (feedRows_keep s).ejectFeedOff
  | .extractHoldExpire => (feedRows_keep s).extractHoldExpire
  | .pwmCycleStart n => (phaseRows_keep s).pwmCycleStart n
  | .tripWireEvent n e at_ trunc w => (phaseRows_keep s).tripWireEvent n e at_ trunc w
  | .maxDutyEnd n => (phaseRows_keep s).maxDutyEnd n
  | .hardSwitchReport n at_ w => (phaseRows_keep s).hardSwitchReport n at_ w
  | .modeEvaluate k => (phaseRows_keep s).modeEvaluate k
  | .directionChange k d => (phaseRows_keep s).directionChange k d
  | .inductanceLearn n => (phaseRows_keep s).inductanceLearn n
  | .deadtimeAdapt n => (phaseRows_keep s).deadtimeAdapt n
  | .tripMismatch n reported => (phaseRows_keep s).tripMismatch n reported
  | .phaseAdd k => (phaseRows_keep s).phaseAdd k
  | .phaseShed k => (phaseRows_keep s).phaseShed k
  | .phaseWakeDone n => (phaseRows_keep s).phaseWakeDone n
  | .phaseShedDone n => execPhaseShedDone_keeps s n
  | .slowOverload n => (phaseRows_keep s).slowOverload n
  | .oclCoolEnd n => (phaseRows_keep s).oclCoolEnd n
  | .phaseLoss n cause w => (phaseRows_keep s).phaseLoss n cause w
  | .legProbe n boost p => (phaseRows_keep s).legProbe n boost p
  | .syncLost => (phaseRows_keep s).syncLost
  | .syncRelock => (phaseRows_keep s).syncRelock
  | .phaseMapDrainDone => (phaseRows_keep s).phaseMapDrainDone
  | .vholdRefUpdate => (phaseRows_keep s).vholdRefUpdate
  | .busovUpdate => (phaseRows_keep s).busovUpdate
  | .feedLimitUpdate => (chargeRows_keep s).feedLimitUpdate
  | .chargeCommandUpdate => (chargeRows_keep s).chargeCommandUpdate
  | .chargeLoopUpdate k => (chargeRows_keep s).chargeLoopUpdate k
  | .chgQualifyEnd k => (chargeRows_keep s).chgQualifyEnd k
  | .chgPrechargeExit k => (chargeRows_keep s).chgPrechargeExit k
  | .chgStageTimeout k => (chargeRows_keep s).chgStageTimeout k
  | .chgDwellExpire k => (chargeRows_keep s).chgDwellExpire k
  | .chgTempOut k => (chargeRows_keep s).chgTempOut k
  | .chgRestEnd k => (chargeRows_keep s).chgRestEnd k
  | .crestUpdate => (chargeRows_keep s).crestUpdate
  | .chgStarve k => (chargeRows_keep s).chgStarve k
  | .profileReadDone k p => (chargeRows_keep s).profileReadDone k p
  | .soundingWindowEnd k => (chargeRows_keep s).soundingWindowEnd k
  | .holdupLoopUpdate => (chargeRows_keep s).holdupLoopUpdate
  | .hulowAssert => (chargeRows_keep s).hulowAssert
  | .hulowRelease => (chargeRows_keep s).hulowRelease
  | .holdupCut k => (chargeRows_keep s).holdupCut k
  | .holdupEndStop => (chargeRows_keep s).holdupEndStop
  | .gustHoldEnd k => (chargeRows_keep s).gustHoldEnd k
  | .packInserted k => (packRows_keep s).packInserted k
  | .packRemoved k => (packRows_keep s).packRemoved k
  | .packIdentDone k r => (packRows_keep s).packIdentDone k r
  | .packCloseStart k => (packRows_keep s).packCloseStart k
  | .packCloseDone k => (packRows_keep s).packCloseDone k
  | .packCloseTimeout k => (packRows_keep s).packCloseTimeout k
  | .packDsgReclose k => (packRows_keep s).packDsgReclose k
  | .packShortCircuit k w => (packRows_keep s).packShortCircuit k w
  | .packChargeOvercurrent k w => (packRows_keep s).packChargeOvercurrent k w
  | .packOv k w => (packRows_keep s).packOv k w
  | .packUv k w => (packRows_keep s).packUv k w
  | .packOvertemp k => (packRows_keep s).packOvertemp k
  | .packTripRetry k t => (packRows_keep s).packTripRetry k t
  | .coulombSample k code => (packRows_keep s).coulombSample k code
  | .coulombOffsetStart k => (packRows_keep s).coulombOffsetStart k
  | .coulombOffsetDone k => (packRows_keep s).coulombOffsetDone k
  | .rarexTransaction k cmd fails reply => (twoWireRows_keep s).rarexTransaction k cmd fails reply
  | .getSigPoll k fails => (twoWireRows_keep s).getSigPoll k fails
  | .authRunStart k => (packRows_keep s).authRunStart k
  | .authRunDone k r => (packRows_keep s).authRunDone k r
  | .keyReadDone key => execKeyReadDone_keeps s key
  | .lifeWriteback k ok => (packRows_keep s).lifeWriteback k ok
  | .aonTick fd pk wakeLow presHigh => (packRows_keep s).aonTick fd pk wakeLow presHigh
  | .doldrumsWake w v r => (startupRows_keep s).doldrumsWake w v r
  | .shipCut => (startupRows_keep s).shipCut
  | .forecastSnapshot => (forecastRows_keep s).forecastSnapshot
  | .grantRequest n d => (forecastRows_keep s).grantRequest n d
  | .grantRelease n d => (forecastRows_keep s).grantRelease n d
  | .grantExtend n d => (forecastRows_keep s).grantExtend n d
  | .accountRead n d => (forecastRows_keep s).accountRead n d
  | .cacheFillDone c e g => (forecastRows_keep s).cacheFillDone c e g
  | .accountWriteback c late g => (forecastRows_keep s).accountWriteback c late g
  | .grantExpire c => (forecastRows_keep s).grantExpire c
  | .revokeDeadline c => execRevokeDeadline_keeps s c
  | .throttleRelease c => (forecastRows_keep s).throttleRelease c
  | .zoneHostStale z => (forecastRows_keep s).zoneHostStale z
  | .pePerstNAssert => (ringRows_keep s).pePerstNAssert
  | .linkDown => (ringRows_keep s).linkDown
  | .functionLevelReset => (ringRows_keep s).functionLevelReset
  | .d3hotEntry => (ringRows_keep s).d3hotEntry
  | .busMasterDisable => (ringRows_keep s).busMasterDisable
  | .busMasterEnable c => (ringRows_keep s).busMasterEnable c
  | .aspmL1Entry => (ringRows_keep s).aspmL1Entry
  | .sqTailDoorbell n v => (ringRows_keep s).sqTailDoorbell n v
  | .cqHeadDoorbell n v => (ringRows_keep s).cqHeadDoorbell n v
  | .pushSlotWrite n ws => (ringRows_keep s).pushSlotWrite n ws
  | .bar2InvalidWrite off len => (ringRows_keep s).bar2InvalidWrite off len
  | .descriptorFetchDone n ds => (ringRows_keep s).descriptorFetchDone n ds
  | .dmaReadError r t addr => execDmaReadError_keeps s r t addr
  | .ringDrained n => (ringRows_keep s).ringDrained n
  | .completionPost n => (ringRows_keep s).completionPost n
  | .msixTimerExpire n => (ringRows_keep s).msixTimerExpire n
  | .adminDeferredStart elems => (accessRows_keep s).adminDeferredStart elems
  | .setLimitsApply => (accessRows_keep s).setLimitsApply
  | .telemetryRecord capture skip => (accessRows_keep s).telemetryRecord capture skip
  | .twMPointerSet ptr pec stop => (twoWireRows_keep s).twMPointerSet ptr pec stop
  | .twMWrite bytes stop => (twoWireRows_keep s).twMWrite bytes stop
  | .twMRead n stop => (twoWireRows_keep s).twMRead n stop
  | .twBusError p => (twoWireRows_keep s).twBusError p
  | .twSclTimeout p => (twoWireRows_keep s).twSclTimeout p
  | .twSdaTimeout p => (twoWireRows_keep s).twSdaTimeout p
  | .twBusFree p => (twoWireRows_keep s).twBusFree p
  | .alertRaise => (twoWireRows_keep s).alertRaise
  | .alertResponse lost => (twoWireRows_keep s).alertResponse lost
  | .hostNotify acked => (twoWireRows_keep s).hostNotify acked
  | .hostNotifyRetry acked => (twoWireRows_keep s).hostNotifyRetry acked
  | .hostNotifyDrop => (twoWireRows_keep s).hostNotifyDrop
  | .twArbLost p own => (twoWireRows_keep s).twArbLost p own
  | .twBusClear p pulses => (twoWireRows_keep s).twBusClear p pulses
  | .cmpGpEvent g x w => (sensorRows_keep s).cmpGpEvent g x w
  | .busUv w => (sensorRows_keep s).busUv w
  | .biasLow w => (sensorRows_keep s).biasLow w
  | .biasOv w => (sensorRows_keep s).biasOv w
  | .comparatorAutozero c trim x => (sensorRows_keep s).comparatorAutozero c trim x
  | .adcaPass inp t => (sensorRows_keep s).adcaPass inp t
  | .adcbPass inp t => (sensorRows_keep s).adcbPass inp t
  | .adcInjection x k inp pair t => (sensorRows_keep s).adcInjection x k inp pair t
  | .referenceLoss r busy => (sensorRows_keep s).referenceLoss r busy
  | .adcCrossCheck x c42 c43 c36 => (sensorRows_keep s).adcCrossCheck x c42 c43 c36
  | .dieTempReading tc => (sensorRows_keep s).dieTempReading tc
  | .anvilOvertemp => (faultRows_keep s).anvilOvertemp
  | .stageTempReading n => (sensorRows_keep s).stageTempReading n
  | .ncapStep k => (sensorRows_keep s).ncapStep k
  | .thermalCompUpdate q => (sensorRows_keep s).thermalCompUpdate q
  | .timerIncrement n sync => (clockRows_keep s).timerIncrement n sync
  | .timerCapture n c => (clockRows_keep s).timerCapture n c
  | .timerCaptureRead n c o => (accessRows_keep s).timerCaptureRead n c o
  | .timerTriggerEdge n => (clockRows_keep s).timerTriggerEdge n
  | .devtimeWrap => (clockRows_keep s).devtimeWrap
  | .cpDebugHalt => (clockRows_keep s).cpDebugHalt
  | .patrolScrub r off lane last late => (clockRows_keep s).patrolScrub r off lane last late
  | .b4WipeDone => (packRows_keep s).b4WipeDone
  | .faultEvent => (faultRows_keep s).faultEvent
  | .graceExpire mask => execGraceExpire_keeps s mask
  | .fltAutoAck src => (faultRows_keep s).fltAutoAck src
  | .watchdogExpire => (faultRows_keep s).watchdogExpire
  | .collectorSelfCheck bad => (faultRows_keep s).collectorSelfCheck bad
  | .safeClockLoss => (faultRows_keep s).safeClockLoss
  | .faultPulseEnd => (faultRows_keep s).faultPulseEnd
  | .d2dRetry => (faultRows_keep s).d2dRetry
  | .d2dLinkLoss => (faultRows_keep s).d2dLinkLoss
  | .refLoss c0 c1 => (faultRows_keep s).refLoss c0 c1
  | .attendPress => (faultRows_keep s).attendPress
  | .attendRelease => (faultRows_keep s).attendRelease
  | .presenceTimeout => (faultRows_keep s).presenceTimeout
  | .journalWrite => (accessRows_keep s).journalWrite
  | .registerWrite o off v f => (accessRows_keep s).registerWrite o off v f
  | .registerRead o off long => (accessRows_keep s).registerRead o off long
  | .referenceReady r => (sensorRows_keep s).referenceReady r
  | .linkUp g => (ringRows_keep s).linkUp g
  | .aspmL1Exit => (ringRows_keep s).aspmL1Exit
  | .cpDebugResume => (clockRows_keep s).cpDebugResume
  | .blankingIntervalEnd c x => (sensorRows_keep s).blankingIntervalEnd c x
  | .faultNHeartbeat => (faultRows_keep s).faultNHeartbeat
  | .identify _ | .setLimits _ | .setProfile _ | .getTelemetry _ _ | .journalDrain _ | .selftestOnline _
  | .selftestOffline _ | .packAuthenticate _ | .loadKey _ | .voidKey _ | .setVtarget _ | .bindContext _
  | .unbindContext _ | .grantTableSetup _ | .sounding _ | .phaseMap _ =>
    .next (State.admin_keeps (.refl s) _ _)
  | .goField _ _ | .goReturned _ _ | .feedLockSet _ _ | .phVholdWrite _ _ | .chgFaultClear _ _ _ | .profileStagedLoad _ _
  | .packLatchClear _ _ _ | .authdisWrite _ _ _ | .pkShipArm _ _ | .ringEnable _ _ _ | .ringDisable _ _ _
  | .msixUnmask _ _ _ | .twBusclr _ _ _ | .twPortReset _ _ _ | .refselWrite _ _ _ | .timerCntWrite _ _ _
  | .timerCcrWrite _ _ _ _ | .timerEnable _ _ _ | .faultAck _ _ _ | .firstErrorRearm _ _ | .faultInject _ _
  | .heartbeatResume _ _ | .presenceClose _ _ | .jnlRdidxWrite _ _ | .jnlRelWrite _ _ =>
    .next (State.fabricWrite_keeps (.refl s) _ _ _)

/-- A step runs the front command, or lets one tick pass: neither undoes a fuse (R81, R203). -/
theorem step_fusesHold {s t : State} (h : step s = .next t) : FusesHold s t := by
  cases hq : s.pending with
  | nil =>
    obtain rfl := Host.Outcome.next.inj ((step_of_empty hq).symm.trans h)
    exact (Keeps.ite (State.timeTick_keeps (.refl s)) (.refl s)).fuses
  | cons c l =>
    obtain ⟨u, hu, hkeeps⟩ := exec_keeps c { s with pending := l }
    have hrun : step s = exec c { s with pending := l } := by simp only [step, hq]
    obtain rfl := Host.Outcome.next.inj ((hrun.trans hu).symm.trans h)
    exact ⟨hkeeps.fuses.groups, hkeeps.fuses.valid, hkeeps.fuses.void⟩

end Sys2Proof.Machine

open Sys2Proof Sys2Proof.Machine

/-- Settles O6: every command, and the tick of an empty queue, may only add to the fuses. -/
theorem stepKeepsFuses : Obligations.StepKeepsFuses := fun _ _ => step_fusesHold
end
section
/-! PROOF. The state of a feed, and what stays of the feeds where one of them leaves or joins: the refresh of the levels, the loss of the
feeds, the budget (R88, R92, R105, R232). -/

namespace Sys2Proof.Machine

theorem feedSt_ofCode_code (st : FeedSt) : FeedSt.ofCode st.code = st := by cases st <;> rfl

theorem feedSt_code_lt (st : FeedSt) : st.code < 2 ^ 4 := by cases st <;> decide

section
variable (s : State)

theorem State.on_setFld_ne {f g : Fld} (v : Nat) (hf : f.Fits) (hg : g.Fits) (hd : g.off ≠ f.off ∨ g.hi < f.lo ∨ f.hi < g.lo) :
    (s.setFld f v).on g = s.on g := congrArg (· != 0) (s.fld_setFld_ne v hf hg hd)

theorem State.feedSt_of_fld {s t : State} {n : Fin 4} (h : t.fld (FEED_STAT_STATE n) = s.fld (FEED_STAT_STATE n)) :
    t.feedSt n = s.feedSt n := congrArg FeedSt.ofCode h

theorem State.feedSt_setFeed_same (n : Fin 4) (st : FeedSt) : (s.setFeed n st).feedSt n = st := by
  unfold State.feedSt State.setFeed
  rw [State.fld_setFld_same _ _ _ (by simp) (by simp), show (FEED_STAT_STATE n).width = 4 from rfl,
    Nat.mod_eq_of_lt (feedSt_code_lt st), feedSt_ofCode_code]

/-- The bit of QUAL that belongs to a feed. -/
abbrev feedQual (n : Nat) : Fld := ⟨FEED_GSTAT, 4 + n, 4 + n⟩

theorem feedQual_fits (n : Fin 4) : (feedQual n).Fits := by simp; omega

theorem State.qual_eq_on (n : Fin 4) : s.qual n = s.on (feedQual n) := (s.on_iff_getLsbD _ _).symm

theorem State.qual_setQual_same (n : Fin 4) (b : Bool) : (s.setQual n b).qual n = b := by
  rw [State.qual_eq_on]
  exact s.on_setOn_same b (feedQual_fits n)

theorem FeedH.at_modFeed_same (n : Fin 4) (f : FeedH → FeedH) : (s.modFeed n f).feed[n] = f s.feed[n] := vmod_same s.feed n f
end

/-! ### What holds of every feed while the levels follow -/

/-- The registers of the feeds other than FEEDn_STAT and FEED_GSTAT, their comparators, SYS_STATE and SYS_FEEDCHK. -/
def feedReg (o : Nat) : Bool :=
  (decide (FEED_CFG 0 ≤ o ∧ o ≤ FEED_SEL) && !(List.finRange 4).any (fun n => o == FEED_STAT n)) ||
  decide (CMP_STAT 16 ≤ o ∧ o < CMP_STAT 20) || o == SYS_STATE || o == SYS_FEEDCHK

/-- What stays of the feeds: their state, gates and qualification, what they hide, their registers, and every line that stands at the
collector. -/
structure FeedsHold (s t : State) : Prop where
  state : ∀ n, t.feedSt n = s.feedSt n
  hson : ∀ n : Fin 4, t.on (FEED_STAT_HSON n) = s.on (FEED_STAT_HSON n)
  oron : ∀ n : Fin 4, t.on (FEED_STAT_ORON n) = s.on (FEED_STAT_ORON n)
  qual : ∀ n, t.qual n = s.qual n
  reg : ∀ o, feedReg o = true → t.word o = s.word o
  feed : ∀ n : Fin 4, t.feed[n] = s.feed[n]
  lines : ∀ e ∈ s.flt.lines, e ∈ t.flt.lines

theorem FeedsHold.refl (s : State) : FeedsHold s s := by constructor <;> simp

theorem FeedsHold.trans {s t u : State} (h : FeedsHold s t) (k : FeedsHold t u) : FeedsHold s u where
  state n := (k.state n).trans (h.state n)
  hson n := (k.hson n).trans (h.hson n)
  oron n := (k.oron n).trans (h.oron n)
  qual n := (k.qual n).trans (h.qual n)
  reg o ho := (k.reg o ho).trans (h.reg o ho)
  feed n := (k.feed n).trans (h.feed n)
  lines e he := k.lines e (h.lines e he)

theorem FeedsHold.fld {s t : State} (h : FeedsHold s t) {f : Fld} (hf : feedReg f.off = true) : t.fld f = s.fld f :=
  State.fld_of_word (h.reg _ hf)

theorem FeedsHold.on {s t : State} (h : FeedsHold s t) {f : Fld} (hf : feedReg f.off = true) : t.on f = s.on f :=
  State.on_of_word (h.reg _ hf)

theorem FeedsHold.ite {s t u : State} {c : Prop} [Decidable c] (ht : FeedsHold s t) (hu : FeedsHold s u) :
    FeedsHold s (if c then t else u) := by split <;> assumption

theorem FeedsHold.each {α : Type} {s₀ s : State} (h : FeedsHold s₀ s) (l : List α) (f : State → α → State)
    (hf : ∀ t a, FeedsHold t (f t a)) : FeedsHold s₀ (s.each l f) := by
  unfold State.each
  induction l generalizing s with
  | nil => exact h
  | cons a l ih => exact ih (h.trans (hf s a))

/-- The places that hold what `FeedsHold` speaks of. -/
def Place.ofFeeds : Place → Bool
  | .reg o => feedReg o || (List.finRange 4).any (fun n => o == FEED_STAT n) || o == FEED_GSTAT
  | .feed _ => true
  | _ => false

theorem feedReg_ofFeeds {o : Nat} (h : feedReg o = true) : (Place.reg o).ofFeeds = true := by simp [Place.ofFeeds, h]

theorem feedStat_ofFeeds (n : Fin 4) : (Place.reg (FEED_STAT n)).ofFeeds = true := by decide +revert

/-- The places beside the feeds. -/
abbrev BesideFeeds (l : Place) : Prop := l.ofFeeds = false

/-- The places beside the feeds and the collector. -/
abbrev BesideLines (l : Place) : Prop := l.ofFeeds = false ∧ l ≠ .flt

/-- A change beside the feeds that takes no line away. -/
theorem OnlyAt.feedsHold {s t : State} (h : OnlyAt BesideFeeds s t) (hl : ∀ e ∈ s.flt.lines, e ∈ t.flt.lines) : FeedsHold s t where
  state n := State.feedSt_of_fld (h.fld (by simp [feedStat_ofFeeds]))
  hson n := State.on_of_word (h.word (by simp [feedStat_ofFeeds]))
  oron n := State.on_of_word (h.word (by simp [feedStat_ofFeeds]))
  qual n := congrArg (·.getLsbD (4 + n)) (h.word (o := FEED_GSTAT) (by decide))
  reg o ho := h.word (by simp [feedReg_ofFeeds ho])
  feed n := h (.feed n) (by simp [Place.ofFeeds])
  lines := hl

theorem OnlyAt.feedsHold_lines {s t : State} (h : OnlyAt BesideLines s t) : FeedsHold s t :=
  (h.mono (fun _ => And.left)).feedsHold (fun e he => by rwa [h.flt (by simp)])

/-- A field beside the state, the gates and the qualification of every feed: HEALTH, ACTIVE, the group and the levels of FEED_GSTAT. -/
structure Fld.Level (f : Fld) : Prop where
  fits : f.Fits
  reg : feedReg f.off = false
  stat : ∀ n : Fin 4, f.off = FEED_STAT n → 24 ≤ f.lo ∧ f.hi ≤ 27
  group : f.off = FEED_GSTAT → f.hi < 4 ∨ 8 ≤ f.lo

theorem State.setFld_feedsHold (s : State) {f : Fld} (v : Nat) (h : f.Level) : FeedsHold s (s.setFld f v) := by
  have hstat (n : Fin 4) (g : Fld) (hg : g.Fits) (ho : g.off = FEED_STAT n) (hb : 27 < g.lo ∨ g.hi < 24) :
      g.off ≠ f.off ∨ g.hi < f.lo ∨ f.hi < g.lo := by
    by_cases hf : f.off = FEED_STAT n
    · obtain ⟨h₁, h₂⟩ := h.stat n hf
      omega
    · exact .inl (ho ▸ Ne.symm hf)
  refine ⟨fun n => ?_, fun n => ?_, fun n => ?_, fun n => ?_, fun o ho => ?_, fun _ => rfl, fun _ he => he⟩
  · exact State.feedSt_of_fld (s.fld_setFld_ne v h.fits (by simp) (hstat n _ (by simp) rfl (by simp)))
  · exact s.on_setFld_ne v h.fits (by simp) (hstat n _ (by simp) rfl (by simp))
  · exact s.on_setFld_ne v h.fits (by simp) (hstat n _ (by simp) rfl (by simp))
  · rw [State.qual_eq_on, State.qual_eq_on]
    refine s.on_setFld_ne v h.fits (feedQual_fits n) ?_
    by_cases hf : f.off = FEED_GSTAT
    · have := h.group hf
      have hlt := n.isLt
      simp only
      omega
    · exact .inl (Ne.symm hf)
  · refine s.word_setFld_off v (fun e => ?_)
    rw [e, h.reg] at ho
    cases ho

theorem State.setOn_feedsHold (s : State) {f : Fld} (b : Bool) (h : f.Level) : FeedsHold s (s.setOn f b) := s.setFld_feedsHold _ h

theorem feedStat_besideReg (n : Fin 4) : feedReg (FEED_STAT n) = false ∧ FEED_STAT n ≠ FEED_GSTAT := by decide +revert

theorem level_stat (n : Fin 4) : (FEED_STAT_HEALTH n).Level ∧ (FEED_STAT_ACTIVE n).Level := by
  obtain ⟨hreg, hne⟩ := feedStat_besideReg n
  exact ⟨⟨by simp, hreg, fun _ _ => by simp, fun e => absurd e hne⟩, ⟨by simp, hreg, fun _ _ => by simp, fun e => absurd e hne⟩⟩

theorem Fld.level_of_gstat {f : Fld} (hoff : f.off = FEED_GSTAT) (hfit : f.Fits) (hbits : f.hi < 4 ∨ 8 ≤ f.lo) : f.Level :=
  ⟨hfit, by rw [hoff]; decide, fun m e => absurd (e.symm.trans hoff) (feedStat_besideReg m).2, fun _ => hbits⟩

theorem level_gstat {f : Fld} (h : f ∈ [FEED_GSTAT_FEEDS_LOST, FEED_GSTAT_EXSTOP, FEED_GSTAT_HOLDRUN, FEED_GSTAT_ACTIVE]) : f.Level := by
  simp only [List.mem_cons, List.not_mem_nil, or_false] at h
  rcases h with rfl | rfl | rfl | rfl
  · exact Fld.level_of_gstat rfl (by simp) (.inr (by decide))
  · exact Fld.level_of_gstat rfl (by simp) (.inr (by decide))
  · exact Fld.level_of_gstat rfl (by simp) (.inr (by decide))
  · exact Fld.level_of_gstat rfl (by simp) (.inl (by decide))

theorem State.syncFeeds_feedsHold (s : State) : FeedsHold s s.syncFeeds := by
  have hgroup (t : State) (g : List (Fin 4)) : FeedsHold t (t.setGroup g) :=
    (FeedsHold.each (.refl t) _ _ (fun u n => u.setOn_feedsHold _ (level_stat n).2)).trans
      (State.setFld_feedsHold _ _ (level_gstat (by simp)))
  exact (FeedsHold.each (.refl s) _ _ (fun t n => t.setFld_feedsHold _ (level_stat n).1)).trans (hgroup _ _)

/-- The footprints of what the loss of the feeds does elsewhere. -/
structure LossOps (P : Place → Prop) : Prop where
  pfl : FP.setPfl P
  takeover : FP.takeover P
  test : FP.endTest P
  budget : FP.budgetDrop P
  overHb : FP.handbackOver P
  startHb : FP.handbackStart P
  thr : FP.syncThr P
  sounding : ∀ k, FP.abortSounding P k
  leaveHoldup : ∀ k, FP.leaveHoldup P k
  leaveGust : ∀ k, FP.leaveGust P k
  role : ∀ k, FP.setRole P k
  cmd : ∀ k, FP.setCmd P k
  phases : FP.stopPhases P
  openPort : ∀ k, FP.openPort P k
  turn : ∀ k, FP.turn P k
  wb : ∀ k, FP.wbDue P k
  jevent : FP.jevent P
  banks : FP.banksOff P
  window : FP.closeWindow P
  coul : ∀ k : Fin 2, P (.reg (COUL_STAT k))
  sys : P .sys
  chgg : P .chgg
  aon : P .aon
  ship : P (.reg PK_SHIP)
  stopping : P (.reg THM_STAT)

/-- Each footprint is a conjunction of places beside the feeds and the lines: the proof walks the conjunction. -/
theorem lossOps_of_beside {P : Place → Prop} (hP : ∀ l, BesideLines l → P l) : LossOps P := by
  constructor
  all_goals
    repeat' first
      | exact hP _ (by decide +revert)
      | apply And.intro
      | intro _

theorem lossOps_beside : LossOps BesideLines := lossOps_of_beside (fun _ h => h)

section
variable (s : State)

theorem State.fault_feedsHold (src : Fin 64) (addr : Nat) : FeedsHold s (s.fault src addr) := by
  refine OnlyAt.feedsHold (State.fault_only (.refl _ s) src addr (by decide)) (fun e he => ?_)
  simp [State.fault, State.event, he]

/-- The journal's writer takes no line of the collector away. -/
theorem State.storeRecord_lines (r : JRec) {e : FltEvent} (he : e ∈ s.flt.lines) : e ∈ (s.storeRecord r).flt.lines := by
  have hite (c : Prop) [Decidable c] (t u : State) (ht : e ∈ t.flt.lines) (hu : e ∈ u.flt.lines) :
      e ∈ (if c then t else u).flt.lines := by split <;> assumption
  have hcount (t : State) : (t.count JNL_LOST_LOST).flt = t.flt := by unfold State.count; split <;> rfl
  unfold State.storeRecord
  refine hite _ _ _ (hite _ _ _ ?_ ?_) ?_
  · rw [State.evt_flt]
    exact hite _ _ _ (by rwa [State.evt_flt]) he
  · exact hite _ _ _ (by rwa [State.evt_flt]) he
  · refine List.mem_append_left _ ?_
    rw [State.evt_flt, hcount]
    exact hite _ _ _ he he

theorem State.flushJournal_feedsHold : FeedsHold s s.flushJournal := by
  refine FeedsHold.each (.refl s) _ _ (fun t _ => ?_)
  refine OnlyAt.feedsHold (State.writeRecord_only (.refl _ t) ?_) (fun e he => ?_)
  · repeat' apply And.intro
    all_goals decide
  · unfold State.writeRecord
    split
    · exact he
    · exact State.storeRecord_lines _ _ he

theorem State.withSys_feedsHold (x : SysH) : FeedsHold s { s with sys := x } :=
  (State.withSys_only (.refl _ s) x lossOps_beside.sys).feedsHold_lines

theorem State.jevent_feedsHold (b : HwBlock) (obj detail : Nat) (old new aux : Word) :
    FeedsHold s (s.jevent b obj detail old new aux) :=
  (State.jevent_only (.refl _ s) b obj detail old new aux lossOps_beside.jevent).feedsHold_lines

theorem State.thermalEnd_feedsHold (tj : Int) (trip : Nat) : FeedsHold s (s.thermalEnd tj trip) :=
  ((s.flushJournal_feedsHold.trans (State.jevent_feedsHold _ _ _ _ _ _ _)).trans (State.fault_feedsHold _ _ _)).trans
    (State.setOn_only (.refl _ _) _ false lossOps_beside.stopping).feedsHold_lines

theorem State.doldrumsEnd_feedsHold : FeedsHold s s.doldrumsEnd := by
  have hcoul : FeedsHold s (s.each (List.finRange 2) (fun t k => t.setOn (COUL_STAT_OFSRUN k) false)) :=
    FeedsHold.each (.refl s) _ _ (fun t k => (State.setOn_only (.refl _ t) _ false (lossOps_beside.coul k)).feedsHold_lines)
  have hwindow (t : State) (o : Origin) : FeedsHold t (t.closeWindow o) :=
    (State.closeWindow_only (.refl _ t) o lossOps_beside.window).feedsHold_lines
  have hbanks (t : State) : FeedsHold t t.banksOff := (State.banksOff_only (.refl _ t) lossOps_beside.banks).feedsHold_lines
  have hlast (t : State) (x : SysH) (y : AonH) : FeedsHold t { t with sys := x, aon := y } := by
    refine OnlyAt.feedsHold_lines (fun l hl => ?_)
    cases l with
    | sys => exact absurd lossOps_beside.sys hl
    | aon => exact absurd lossOps_beside.aon hl
    | _ => rfl
  exact (((hcoul.trans (hwindow _ _)).trans (State.flushJournal_feedsHold _)).trans (hbanks _)).trans (hlast _ _ _)

theorem State.stopNext_feedsHold : FeedsHold s s.stopNext := by
  unfold State.stopNext
  split
  · exact .refl s
  · next q _ =>
    refine .ite (.refl s) ?_
    extract_lets _ u v
    have hv : FeedsHold s v := by
      refine (s.withSys_feedsHold _).trans (?_ : FeedsHold u v)
      unfold v
      split
      · exact u.jevent_feedsHold _ _ _ _ _ _
      · exact (u.jevent_feedsHold _ _ _ _ _ _).trans (State.flushJournal_feedsHold _)
    split
    · exact hv.trans (v.thermalEnd_feedsHold _ _)
    · exact (hv.trans (State.setOn_only (.refl _ v) _ false lossOps_beside.ship).feedsHold_lines).trans
        (State.thermalEnd_feedsHold _ _ _)
    · exact hv
    · exact hv.trans v.doldrumsEnd_feedsHold

theorem State.stopPower_feedsHold : FeedsHold s s.stopPower := by
  have hflags : FeedsHold s ((s.setOn FEED_GSTAT_EXSTOP true).setOn FEED_GSTAT_HOLDRUN false) :=
    (s.setOn_feedsHold _ (level_gstat (by simp))).trans (State.setOn_feedsHold _ _ (level_gstat (by simp)))
  refine hflags.trans (OnlyAt.feedsHold_lines ?_)
  have hl := lossOps_beside
  have hports {t : State} (h : OnlyAt BesideLines t t.syncThr) : OnlyAt BesideLines t (t.syncThr.each (List.finRange 2) (fun t k =>
      ((((t.abortSounding k 8).leaveHoldup k).leaveGust k).setRole k .none).setCmd k 0)) :=
    State.each_only h _ _ (fun _ k _ h => State.setCmd_only (State.setRole_only (State.leaveGust_only (State.leaveHoldup_only
      (State.abortSounding_only h k 8 (hl.sounding k)) k (hl.leaveHoldup k)) k (hl.leaveGust k)) k _ (hl.role k)) k _ (hl.cmd k))
  exact State.each_only (State.stopPhases_only (hports (State.syncThr_only (.refl _ _) hl.thr)) hl.phases) _ _ (fun _ k _ h =>
    State.turn_only (State.openPort_only h k (hl.openPort k)) k _ (hl.turn k))

theorem State.stopBegin_feedsHold (kind : StopKind) : FeedsHold s (s.stopBegin kind) := by
  have hwb (t : State) : FeedsHold t (t.each (List.finRange 2) (fun t k => t.wbDue k)) :=
    FeedsHold.each (.refl t) _ _ (fun t k => (State.wbDue_only (.refl _ t) k (lossOps_beside.wb k)).feedsHold_lines)
  unfold State.stopBegin
  exact (s.stopPower_feedsHold.trans (hwb _)).trans ((State.withSys_feedsHold _ _).trans (State.stopNext_feedsHold _))

theorem State.doldrumsEntry_feedsHold : FeedsHold s s.doldrumsEntry := by
  unfold State.doldrumsEntry
  split
  · exact .refl s
  · exact s.stopBegin_feedsHold _

theorem State.budgetDrop_feedsHold : FeedsHold s s.budgetDrop :=
  (State.budgetDrop_only (.refl _ s) lossOps_beside.budget).feedsHold_lines

/-- FEEDS_LOST asserts, and the feeds stay as they are (R92, R108, R175, R212). -/
theorem State.feedsLost_feedsHold : FeedsHold s s.feedsLost := by
  have hl := lossOps_beside
  unfold State.feedsLost
  extract_lets u _ v w
  have hv : FeedsHold s v := ((s.setOn_feedsHold true (level_gstat (f := FEED_GSTAT_FEEDS_LOST) (by simp))).trans
    (State.setPfl_only (.refl _ _) 0 hl.pfl).feedsHold_lines).trans (State.withChgg_only (.refl _ _) _ hl.chgg).feedsHold_lines
  have hw : FeedsHold s w := hv.trans ((State.endTest_only (State.takeover_only (.refl _ v) hl.takeover) 4 8
    hl.test).feedsHold_lines.trans (State.budgetDrop_feedsHold _))
  refine .ite (hv.trans v.doldrumsEntry_feedsHold) (.ite (.ite ?_ (hw.trans (w.setOn_feedsHold _ (level_gstat (by simp))))) hw)
  exact hw.trans (.ite (.refl w) (w.stopBegin_feedsHold _))

/-- The levels follow a change of a feed, and the feeds stay as they are. -/
theorem State.feedChanged_feedsHold : FeedsHold s s.feedChanged := by
  have hover (t : State) : FeedsHold t t.handbackOver := (State.handbackOver_only (.refl _ t) lossOps_beside.overHb).feedsHold_lines
  have hcheck (t : State) : FeedsHold t t.checkFeeds := .ite t.feedsLost_feedsHold (.refl t)
  exact (s.syncFeeds_feedsHold.trans (.ite (hover _) (.refl _))).trans (hcheck _)
end

end Sys2Proof.Machine
end
section
/-! PROOF. Presence, check, window and qualification of a feed (R67, R88, R90, R91). -/

namespace Sys2Proof.Machine

section
variable (s : State) (n : Fin 4)

/-! ### A feed that is taken out -/

/-- A feed has been put in a state with its gates off and no qualification, and the rest of the feeds' registers, what the feeds hide and
the lines at the collector stay. -/
structure FeedTaken (n : Fin 4) (st : FeedSt) (s t : State) : Prop where
  state : t.feedSt n = st
  qual : t.qual n = false
  hson : t.on (FEED_STAT_HSON n) = false
  oron : t.on (FEED_STAT_ORON n) = false
  reg : ∀ o, feedReg o = true → t.word o = s.word o
  feed : ∀ m : Fin 4, t.feed[m] = s.feed[m]
  lines : ∀ e ∈ s.flt.lines, e ∈ t.flt.lines

theorem FeedTaken.hold {n : Fin 4} {st : FeedSt} {s t u : State} (h : FeedTaken n st s t) (k : FeedsHold t u) : FeedTaken n st s u where
  state := (k.state n).trans h.state
  qual := (k.qual n).trans h.qual
  hson := (k.hson n).trans h.hson
  oron := (k.oron n).trans h.oron
  reg o ho := (k.reg o ho).trans (h.reg o ho)
  feed m := (k.feed m).trans (h.feed m)
  lines e he := k.lines e (h.lines e he)

theorem feedStat_ne_gstat (n : Fin 4) : FEED_STAT n ≠ FEED_GSTAT := by decide +revert

theorem feedReg_stat (n : Fin 4) : feedReg (FEED_STAT n) = false := by decide +revert

theorem State.takenOut (st : FeedSt) : FeedTaken n st s (((s.gatesOff n).setQual n false).setFeed n st) where
  state := State.feedSt_setFeed_same _ n st
  qual := by
    rw [State.qual_eq_on]
    exact (State.on_setFld_ne _ _ (by simp) (feedQual_fits n) (.inl (feedStat_ne_gstat n).symm)).trans
      (State.on_setOn_same _ false (feedQual_fits n))
  hson := by
    have hset := s.on_setOn_same (f := FEED_STAT_HSON n) false (by simp)
    refine (State.on_setFld_ne _ _ (by simp) (by simp) (.inr (.inl (by simp)))).trans ?_
    refine (State.on_setFld_ne _ _ (feedQual_fits n) (by simp) (.inl (feedStat_ne_gstat n))).trans ?_
    refine (State.on_setFld_ne _ _ (by simp) (by simp) (.inr (.inl (by simp)))).trans ?_
    exact (State.on_setFld_ne _ _ (by simp) (by simp) (.inr (.inl (by simp)))).trans hset
  oron := by
    have hset := State.on_setOn_same (s.setOn (FEED_STAT_HSON n) false) (f := FEED_STAT_ORON n) false (by simp)
    refine (State.on_setFld_ne _ _ (by simp) (by simp) (.inr (.inl (by simp)))).trans ?_
    refine (State.on_setFld_ne _ _ (feedQual_fits n) (by simp) (.inl (feedStat_ne_gstat n))).trans ?_
    exact (State.on_setFld_ne _ _ (by simp) (by simp) (.inr (.inl (by simp)))).trans hset
  reg o ho := by
    have hstat : o ≠ FEED_STAT n := by rintro rfl; exact absurd ho (by simp [feedReg_stat n])
    have hgstat : o ≠ FEED_GSTAT := by rintro rfl; exact absurd ho (by decide)
    unfold State.setFeed State.setQual State.gatesOff
    rw [State.word_setFld_off _ _ hstat, State.word_setOn_off _ _ hgstat, State.word_setOn_off _ _ hstat,
      State.word_setOn_off _ _ hstat, State.word_setOn_off _ _ hstat]
  feed _ := rfl
  lines _ he := he

/-- The states from which the loss of the qualification takes a feed to DEBOUNCE (R88, R91). -/
abbrev lossStates : List FeedSt := [.qualified, .inrush, .on, .standby, .hwonly]

/-- What FEED_UV or FEED_OV leaves of a feed that was in one of these states. -/
structure Disqualified (n : Fin 4) (s t : State) : Prop where
  state : t.feedSt n = .debounce
  qual : t.qual n = false
  hson : t.on (FEED_STAT_HSON n) = false
  oron : t.on (FEED_STAT_ORON n) = false
  reg : ∀ o, feedReg o = true → t.word o = s.word o
  lines : ∀ e ∈ s.flt.lines, e ∈ t.flt.lines

theorem State.disqualified (h : s.feedSt n ∈ lossStates) : Disqualified n s (s.disqualify n) := by
  have hst : s.feedSt n = .qualified ∨ s.feedSt n = .inrush ∨ s.feedSt n = .on ∨ s.feedSt n = .standby ∨ s.feedSt n = .hwonly := by
    simpa using h
  have k : FeedTaken n .debounce (s.modFeed n (fun f => { f with window := false, stable := false })) (s.disqualify n) := by
    unfold State.disqualify
    dsimp only
    rw [if_pos hst]
    exact ((State.takenOut _ n .debounce).hold (State.feedChanged_feedsHold _)).hold (State.budgetDrop_feedsHold _)
  exact ⟨k.state, k.qual, k.hson, k.oron, k.reg, k.lines⟩

/-! ### The comparator of a feed -/

/-- An output that is not held and lasts through its filter is told (R321, R326). -/
theorem State.cmpRow_told {c w : Nat} {upper : Bool} (hheld : s.cmpHeld c upper = false) (hw : 25 * s.fld (CMP_CFG_EVFILT c) ≤ w) :
    s.cmpRow c upper w = (true, (s.cmpAssert c upper).modCmp (Fin.ofNat 48 c) (fun m => { m with x := none })) := by
  simp [State.cmpRow, hheld, State.heard, hw]

theorem feedCmp_ne (n : Fin 4) :
    CMP_STAT (16 + n) ∉ lineOut ∧ CMP_STAT (16 + n) ≠ CMP_EVT (16 + n) ∧ CMP_STAT (16 + n) ≠ FEED_EVT n ∧ feedReg (CMP_STAT (16 + n)) := by
  decide +revert

/-- A register of a feed is neither one of its comparator nor one of the lines' messages. -/
theorem feedOwn_ne (n : Fin 4) : ∀ o ∈ [FEED_STAT n, FEED_CNT n, FEED_EVT n],
    o ∉ lineOut ∧ o ≠ CMP_STAT (16 + n) ∧ o ≠ CMP_EVT (16 + n) := by
  decide +revert

/-- The state of an output of a comparator. -/
abbrev outState (c : Nat) (upper : Bool) : Fld := if upper then CMP_STAT_HISTATE c else CMP_STAT_LOSTATE c

theorem State.cmpAssert_out (upper : Bool) : (s.cmpAssert (16 + n) upper).fld (outState (16 + n) upper) = 1 := by
  obtain ⟨hline, hne, -, -⟩ := feedCmp_ne n
  cases upper
  · refine Eq.trans (State.fld_of_word ?_) (s.fld_setFld_same (CMP_STAT_LOSTATE (16 + n)) 1 (by simp) (by simp))
    exact (State.word_count_off _ hne).trans (State.word_setFlags_ne _ _ hline hne)
  · refine Eq.trans (State.fld_of_word ?_) (s.fld_setFld_same (CMP_STAT_HISTATE (16 + n)) 1 (by simp) (by simp))
    exact (State.word_count_off _ hne).trans (State.word_setFlags_ne _ _ hline hne)

theorem State.cmpAssert_word (upper : Bool) {o : Nat} (h : o ∉ lineOut ∧ o ≠ CMP_STAT (16 + n) ∧ o ≠ CMP_EVT (16 + n)) :
    (s.cmpAssert (16 + n) upper).word o = s.word o := by
  obtain ⟨hline, hstat, hevt⟩ := h
  cases upper
  · exact ((State.word_count_off _ hevt).trans (State.word_setFlags_ne _ _ hline hevt)).trans (s.word_setFld_off _ hstat)
  · exact ((State.word_count_off _ hevt).trans (State.word_setFlags_ne _ _ hline hevt)).trans (s.word_setFld_off _ hstat)

/-- What stands after a comparator of a feed has told its output: the feed's state and count as they were, the output asserted, what is
hidden of the feed. -/
structure FeedTold (n : Fin 4) (upper : Bool) (s t : State) : Prop where
  out : t.fld (outState (16 + n) upper) = 1
  own : ∀ o ∈ [FEED_STAT n, FEED_CNT n, FEED_EVT n], t.word o = s.word o
  feed : t.feed[n] = s.feed[n]
  devtime : t.devtime = s.devtime

theorem FeedTold.feedSt {n : Fin 4} {upper : Bool} {s t : State} (h : FeedTold n upper s t) : t.feedSt n = s.feedSt n :=
  State.feedSt_of_fld (State.fld_of_word (h.own _ (by simp)))

theorem State.cmpRow_feedTold (upper : Bool) (f : CmpH → CmpH) (c : Fin 48) :
    FeedTold n upper s ((s.cmpAssert (16 + n) upper).modCmp c f) := by
  have hplaces : FP.cmpAssert (fun l => l ≠ .feed n ∧ l ≠ .devtime) (16 + n) := by
    repeat' first
      | apply And.intro
      | exact Place.noConfusion
  have honly := State.cmpAssert_only (.refl _ s) (16 + n) upper hplaces
  exact ⟨(State.modCmp_fld _ _ _ _).trans (s.cmpAssert_out n upper), fun o ho => s.cmpAssert_word n upper (feedOwn_ne n o ho),
    honly (.feed n) (by simp), honly .devtime (by simp)⟩

/-! ### The clauses -/

theorem feedPresent_clause (n : Fin 4) (s : State) (habs : s.feedSt n = .absent) (hawake : s.awake = true) :
    Gives (.feedPresent n) s (fun t => t.feedSt n = .check ∧ t.feed[n].present = true) := by
  have hpow : s.powered = true := by
    unfold State.awake at hawake
    simp_all
  refine ⟨((s.modFeed n (fun f => { f with present := true })).cmpForget (16 + n)).setFeed n .check, ?_, ?_, ?_⟩
  · show execFeedPresent n s = _
    have hcond : ((s.modFeed n (fun f => { f with present := true })).cmpForget (16 + n)).feedSt n = .absent ∧
        ((s.modFeed n (fun f => { f with present := true })).cmpForget (16 + n)).awake = true := ⟨habs, hawake⟩
    unfold execFeedPresent
    dsimp only
    rw [if_neg (by simp [hpow]), if_pos hcond]
  · exact State.feedSt_setFeed_same _ n .check
  · show (s.modFeed n (fun f => { f with present := true })).feed[n].present = true
    rw [FeedH.at_modFeed_same]

/-- The field of SYS_FEEDCHK that holds a feed's result. -/
abbrev feedChk (n : Fin 4) : Fld := ⟨SYS_FEEDCHK, 4 * n.val + 3, 4 * n.val⟩

theorem State.fld_setChk_same (r : ChkRes) : (s.setChk n r).fld (feedChk n) = r.code := by
  have hw : (feedChk n).width = 4 := by simp only [Fld.width]; omega
  have hr : r.code < 2 ^ 4 := by cases r <;> decide
  have h := s.fld_setFld_same (feedChk n) r.code (by show 4 * n.val + 3 < 32; omega) (by simp)
  rwa [hw, Nat.mod_eq_of_lt hr] at h

theorem feedStat_ne_chk (n : Fin 4) : FEED_STAT n ≠ SYS_FEEDCHK := by decide +revert

theorem State.fld_setFeed_chk (st : FeedSt) : (s.setFeed n st).fld (feedChk n) = s.fld (feedChk n) :=
  s.fld_setFld_off _ _ _ (feedStat_ne_chk n).symm

theorem feedCheckFailed_clause (n : Fin 4) (c : FeedChecks) (s : State) (hpow : s.powered = true) (hst : s.feedSt n = .check)
    (hfail : s.feed[n].failed = false) (hno : s.sys.noCheck = false) (hres : c.result ≠ .pass) :
    Gives (.feedCheckDone n c) s (fun t => t.feedSt n = .failed ∧ t.fld (feedChk n) = c.result.code ∧
      Raised t srcFEED_PRESTART n.val ∧ t.feed[n].failed = true) := by
  refine ⟨(s.checkFailed n c.result).setFeed n .failed, ?_, State.feedSt_setFeed_same _ n .failed, ?_, ?_, ?_⟩
  · show execFeedCheckDone n c s = _
    simp [execFeedCheckDone, -Fin.getElem_fin, hpow, hst, hfail, hno, hres]
  · rw [State.fld_setFeed_chk]
    exact s.fld_setChk_same n c.result
  · exact List.mem_append_right _ (List.mem_singleton_self _)
  · show ((s.setChk n c.result).modFeed n (fun f => { f with failed := true })).feed[n].failed = true
    rw [FeedH.at_modFeed_same]

theorem feedCheckPassed_clause (n : Fin 4) (c : FeedChecks) (s : State) (hpow : s.powered = true) (hst : s.feedSt n = .check)
    (hfail : s.feed[n].failed = false) (hno : s.sys.noCheck = false) (hproved : s.feed[n].proved = true)
    (hstable : s.feed[n].stable = false) (hres : c.result = .pass) :
    Gives (.feedCheckDone n c) s (fun t => t.feedSt n = .debounce ∧ t.fld (feedChk n) = 0) := by
  refine ⟨(s.setChk n .pass).setFeed n .debounce, ?_, State.feedSt_setFeed_same _ n .debounce, ?_⟩
  · have hpassed : s.checkPassed n = (s.setChk n .pass).setFeed n .debounce := by
      simp [State.checkPassed, State.setChk, -Fin.getElem_fin, hproved, hstable]
    show execFeedCheckDone n c s = _
    simp [execFeedCheckDone, -Fin.getElem_fin, hpow, hst, hfail, hno, hres, hpassed]
  · rw [State.fld_setFeed_chk]
    exact s.fld_setChk_same n .pass

theorem feedAbsent_clause (n : Fin 4) (s : State) (hpow : s.powered = true) (hoff : s.feedSt n ≠ .off) (hfailed : s.feedSt n ≠ .failed)
    (hlatched : s.feedSt n ≠ .latched) (hcool : s.feedSt n ≠ .cool) :
    Gives (.feedAbsent n) s (fun t => t.feedSt n = .absent ∧ t.qual n = false ∧ t.on (FEED_STAT_HSON n) = false ∧
      t.on (FEED_STAT_ORON n) = false ∧ t.feed[n].present = false) := by
  refine ⟨_, rfl, ?_⟩
  rw [if_neg (by simp [hpow])]
  extract_lets u st v
  have hst : st = s.feedSt n := rfl
  rw [if_neg (by simp [hst, hoff, hfailed, hlatched, hcool])]
  have hv : FeedTaken n .absent u v := (State.takenOut u n .absent).hold (State.feedChanged_feedsHold _)
  have hend : FeedsHold v (if st = .check ∨ st = .debounce ∨ st = .absent then v else v.budgetDrop) :=
    .ite (.refl v) v.budgetDrop_feedsHold
  obtain ⟨hstate, hqual, hhs, hor, -, hfeed, -⟩ := hv.hold hend
  refine ⟨hstate, hqual, hhs, hor, ?_⟩
  rw [hfeed]
  show (s.modFeed n (fun f => { f with present := false, window := false, stable := false })).feed[n].present = false
  rw [FeedH.at_modFeed_same]

theorem feedRegs_ne (n : Fin 4) : FEED_STAT n ≠ FEED_EVT n ∧ FEED_STAT n ≠ FEED_CNT n ∧ FEED_EVT n ≠ FEED_CNT n ∧
    CMP_STAT (16 + n) ≠ FEED_CNT n ∧ feedReg (FEED_EVT n) = true ∧ feedReg (FEED_CNT n) = true := by decide +revert

/-- What FEED_UV leaves of a feed in a state from which the loss of the qualification takes it (R88, R91). -/
theorem State.feedUv_disqualified (h : s.feedSt n ∈ lossStates) :
    (s.feedUv n).feedSt n = .debounce ∧ (s.feedUv n).qual n = false ∧ (s.feedUv n).on (FEED_STAT_HSON n) = false ∧
      (s.feedUv n).on (FEED_STAT_ORON n) = false ∧ (s.feedUv n).on (FEED_EVT_UV n) = true ∧
      Counted s (s.feedUv n) (FEED_CNT_UVCNT n) ∧ (s.feedUv n).word (CMP_STAT (16 + n)) = s.word (CMP_STAT (16 + n)) := by
  obtain ⟨hlineStat, -, -⟩ := feedOwn_ne n (FEED_STAT n) (by simp)
  obtain ⟨hlineEvt, -, -⟩ := feedOwn_ne n (FEED_EVT n) (by simp)
  obtain ⟨hlineCnt, -, -⟩ := feedOwn_ne n (FEED_CNT n) (by simp)
  obtain ⟨hlineCmp, -, hcmp, hcmpReg⟩ := feedCmp_ne n
  obtain ⟨hse, hsc, hec, hcc, hevtReg, hcntReg⟩ := feedRegs_ne n
  set a := (s.noteGone n .uv).evt (FEED_EVT_UV n) with ha
  set b := a.count (FEED_CNT_UVCNT n) with hb
  have haEvt : a.on (FEED_EVT_UV n) = true := State.on_evt_same _ hlineEvt (by simp)
  have haWord {o : Nat} (hl : o ∉ lineOut) (ho : o ≠ FEED_EVT n) : a.word o = s.word o := State.word_setFlags_ne _ _ hl ho
  have hbWord {o : Nat} (ho : o ≠ FEED_CNT n) : b.word o = a.word o := State.word_count_off _ ho
  have hst : b.feedSt n = s.feedSt n :=
    State.feedSt_of_fld (State.fld_of_word ((hbWord hsc).trans (haWord hlineStat hse)))
  have k : Disqualified n b (s.feedUv n) := b.disqualified n (by rwa [hst])
  refine ⟨k.state, k.qual, k.hson, k.oron, ?_, ?_, ?_⟩
  · rw [State.on_of_word (k.reg _ hevtReg), State.on_of_word (hbWord hec), haEvt]
  · have hcount : b.fld (FEED_CNT_UVCNT n) = min (2 ^ 8 - 1) (a.fld (FEED_CNT_UVCNT n) + 1) := a.fld_count_same (by simp)
    unfold Counted
    rw [State.fld_of_word (k.reg _ hcntReg), hcount, State.fld_of_word (haWord hlineCnt (by simp))]
    rfl
  · rw [k.reg _ hcmpReg, hbWord hcc, haWord hlineCmp hcmp]

theorem feedUv_clause (n : Fin 4) (w : Nat) (s : State) (hpow : s.powered = true) (hheld : s.cmpHeld (16 + n) false = false)
    (hw : 25 * s.fld (CMP_CFG_EVFILT (16 + n)) ≤ w) (hst : s.feedSt n ∈ lossStates) :
    Gives (.feedUv n w) s (fun t => t.feedSt n = .debounce ∧ t.qual n = false ∧ t.on (FEED_STAT_HSON n) = false ∧
      t.on (FEED_STAT_ORON n) = false ∧ t.on (FEED_EVT_UV n) = true ∧ t.fld (CMP_STAT_LOSTATE (16 + n)) = 1 ∧
      Counted s t (FEED_CNT_UVCNT n)) := by
  have htold := s.cmpRow_feedTold n false (fun m => { m with x := none }) (Fin.ofNat 48 (16 + n))
  set u := (s.cmpAssert (16 + n) false).modCmp (Fin.ofNat 48 (16 + n)) (fun m => { m with x := none }) with hu
  obtain ⟨hstate, hqual, hhs, hor, hevt, hcnt, hout⟩ := u.feedUv_disqualified n (by rwa [htold.feedSt])
  refine ⟨u.feedUv n, ?_, hstate, hqual, hhs, hor, hevt, ?_, ?_⟩
  · show execFeedUv n w s = _
    simp [execFeedUv, hpow, s.cmpRow_told hheld hw, hu]
  · exact (State.fld_of_word hout).trans htold.out
  · have hsame : u.fld (FEED_CNT_UVCNT n) = s.fld (FEED_CNT_UVCNT n) := State.fld_of_word (htold.own _ (by simp))
    unfold Counted at hcnt ⊢
    rwa [hsame] at hcnt

/-- What FEED_OV leaves of a feed in a state from which the loss of the qualification takes it (R88, R91, R112). -/
theorem State.feedOv_disqualified (h : s.feedSt n ∈ lossStates) :
    (s.feedOv n).feedSt n = .debounce ∧ (s.feedOv n).qual n = false ∧ (s.feedOv n).on (FEED_STAT_HSON n) = false ∧
      (s.feedOv n).on (FEED_STAT_ORON n) = false ∧ (s.feedOv n).on (FEED_EVT_OV n) = true ∧
      (s.feedOv n).word (CMP_STAT (16 + n)) = s.word (CMP_STAT (16 + n)) ∧
      (s.lately n 2 = none → s.feedSt n ∈ [.inrush, .on, .standby] → Raised (s.feedOv n) srcFEED_OV n.val) := by
  obtain ⟨hlineStat, -, -⟩ := feedOwn_ne n (FEED_STAT n) (by simp)
  obtain ⟨hlineEvt, -, -⟩ := feedOwn_ne n (FEED_EVT n) (by simp)
  obtain ⟨hlineCmp, -, hcmp, hcmpReg⟩ := feedCmp_ne n
  obtain ⟨hse, -, -, -, hevtReg, -⟩ := feedRegs_ne n
  unfold State.feedOv
  extract_lets st a b c
  have haEvt : a.on (FEED_EVT_OV n) = true := State.on_evt_same _ hlineEvt (by simp)
  have haWord {o : Nat} (hl : o ∉ lineOut) (ho : o ≠ FEED_EVT n) : a.word o = s.word o := State.word_setFlags_ne _ _ hl ho
  have hcWord (o : Nat) : c.word o = a.word o := by
    have hb : b.word o = a.word o := by
      unfold b
      split <;> rfl
    rw [← hb]
    unfold c
    split <;> rfl
  have hst : c.feedSt n = s.feedSt n :=
    State.feedSt_of_fld (State.fld_of_word ((hcWord _).trans (haWord hlineStat hse)))
  have k : Disqualified n c (c.disqualify n) := c.disqualified n (by rwa [hst])
  refine ⟨k.state, k.qual, k.hson, k.oron, ?_, ?_, fun hlate hin => ?_⟩
  · rw [State.on_of_word (k.reg _ hevtReg), State.on_of_word (hcWord _), haEvt]
  · rw [k.reg _ hcmpReg, hcWord, haWord hlineCmp hcmp]
  · have hst' : st = s.feedSt n := by
      unfold st
      rw [hlate]
    refine k.lines _ ?_
    unfold c
    rw [if_pos (by simpa [hst'] using hin)]
    exact List.mem_append_right _ (List.mem_singleton_self _)

theorem FeedTold.lately {n : Fin 4} {upper : Bool} {s t : State} (h : FeedTold n upper s t) (span : Nat) :
    t.lately n span = s.lately n span := by
  unfold State.lately
  rw [h.feed, h.devtime]

theorem feedOv_clause (n : Fin 4) (w : Nat) (s : State) (hpow : s.powered = true) (hheld : s.cmpHeld (16 + n) true = false)
    (hw : 25 * s.fld (CMP_CFG_EVFILT (16 + n)) ≤ w) (hst : s.feedSt n ∈ lossStates) :
    Gives (.feedOv n w) s (fun t => t.feedSt n = .debounce ∧ t.qual n = false ∧ t.on (FEED_STAT_HSON n) = false ∧
      t.on (FEED_STAT_ORON n) = false ∧ t.on (FEED_EVT_OV n) = true ∧ t.fld (CMP_STAT_HISTATE (16 + n)) = 1 ∧
      (s.lately n 2 = none → s.feedSt n ∈ [.inrush, .on, .standby] → Raised t srcFEED_OV n.val)) := by
  have htold := s.cmpRow_feedTold n true (fun m => { m with x := none }) (Fin.ofNat 48 (16 + n))
  set u := (s.cmpAssert (16 + n) true).modCmp (Fin.ofNat 48 (16 + n)) (fun m => { m with x := none }) with hu
  obtain ⟨hstate, hqual, hhs, hor, hevt, hout, hraised⟩ := u.feedOv_disqualified n (by rwa [htold.feedSt])
  refine ⟨u.feedOv n, ?_, hstate, hqual, hhs, hor, hevt, ?_, ?_⟩
  · show execFeedOv n w s = _
    simp [execFeedOv, hpow, s.cmpRow_told hheld hw, hu]
  · exact (State.fld_of_word hout).trans htold.out
  · rwa [htold.lately, htold.feedSt] at hraised

/-- Both outputs of a feed's comparator hold for the same reasons (R323, R325). -/
theorem State.cmpHeld_feed (upper : Bool) : s.cmpHeld (16 + n) upper = s.cmpHeld (16 + n) true := by
  have hlt : 16 + n.val < 20 := by omega
  have hb (b : Bool) : blankable (16 + n) b = true := by simp [blankable, hlt]
  simp only [State.cmpHeld, hb]

/-- A change of an output's state leaves what holds it. -/
theorem State.cmpHeld_setFld (c : Nat) (upper : Bool) (f : Fld) (v : Nat) (hf : f.Fits) (hlo : 28 ≤ f.lo) :
    (s.setFld f v).cmpHeld c upper = s.cmpHeld c upper := by
  unfold State.cmpHeld
  rw [s.on_setFld_ne v hf (by simp) (.inr (.inl (by simp; omega)))]
  rfl

/-- Neither does a change of what is hidden of a comparator but its settling. -/
theorem State.cmpHeld_modCmp (c : Nat) (upper : Bool) (m : Fin 48) (f : CmpH → CmpH) (hf : ∀ x, (f x).settle = x.settle) :
    (s.modCmp m f).cmpHeld c upper = s.cmpHeld c upper := by
  have hsettle : (vmod s.cmp m f)[Fin.ofNat 48 c].settle = s.cmp[Fin.ofNat 48 c].settle := by
    by_cases h : m = Fin.ofNat 48 c
    · rw [h, vmod_same, hf]
    · rw [vmod_ne s.cmp f h]
  unfold State.cmpHeld
  rw [State.modCmp_on]
  exact congrArg (fun x => blankable c upper && s.on (CMP_STAT_BLANK c) || Option.isSome x) hsettle

theorem State.thr_feed : s.thr (16 + n) = (s.fld (FEED_WIN_UVTH n), s.fld (FEED_WIN_OVTH n)) := by
  unfold State.thr
  rw [dif_neg (by omega), if_pos (by omega), Nat.add_sub_cancel_left]

theorem State.fld_setFld_zero {f : Fld} (hf : f.Fits) : (s.setFld f 0).fld f = 0 := by
  rw [s.fld_setFld_same f 0 hf.1 hf.2, Nat.zero_mod]

/-- An input a whole band inside its threshold releases the output (R321). -/
theorem cmpNext_inside {hys st : Nat} {d : Int} (h : d ≤ -(hys : Int)) : cmpNext hys st d = 0 := by
  unfold cmpNext
  rw [if_neg (by omega), if_pos h]

/-- With the input inside both bands, or not known, the comparator of a feed releases both outputs (R321). -/
theorem State.cmpRelease_feed (hheld : s.cmpHeld (16 + n) true = false) (hin : s.cmpInside ⟨16 + n.val, by omega⟩ = true) :
    (s.cmpRelease ⟨16 + n.val, by omega⟩).fld (CMP_STAT_HISTATE (16 + n)) = 0 ∧
    (s.cmpRelease ⟨16 + n.val, by omega⟩).fld (CMP_STAT_LOSTATE (16 + n)) = 0 := by
  unfold State.cmpInside at hin
  unfold State.cmpRelease
  cases hx : s.cmp[(⟨16 + n.val, by omega⟩ : Fin 48)].x with
  | none =>
    have hlow : (s.setFld (CMP_STAT_HISTATE (16 + n)) 0).cmpHeld (16 + n) false = false := by
      rw [State.cmpHeld_setFld _ _ _ _ _ (by simp) (by simp), State.cmpHeld_feed, hheld]
    have hclear : s.cmpClear (16 + n) = (s.setFld (CMP_STAT_HISTATE (16 + n)) 0).setFld (CMP_STAT_LOSTATE (16 + n)) 0 := by
      simp [State.cmpClear, hheld, hlow]
    show (s.cmpClear (16 + n)).fld _ = 0 ∧ (s.cmpClear (16 + n)).fld _ = 0
    rw [hclear]
    exact ⟨(State.fld_setFld_ne _ _ (by simp) (by simp) (.inr (.inr (by simp)))).trans (s.fld_setFld_zero (by simp)),
      State.fld_setFld_zero _ (by simp)⟩
  | some x =>
    rw [hx] at hin
    obtain ⟨hlo, hhi⟩ : ((s.thr (16 + n)).1 + s.cmpHys (16 + n) : Int) ≤ x ∧ (x + s.cmpHys (16 + n) : Int) ≤ (s.thr (16 + n)).2 := by
      simpa using hin
    rw [State.thr_feed] at hlo hhi
    set u := s.modCmp ⟨16 + n.val, by omega⟩ (fun m => { m with x := some x }) with hu
    have huheld (upper : Bool) : u.cmpHeld (16 + n) upper = false := by
      refine (s.cmpHeld_modCmp (16 + n) upper _ _ ?_).trans ((s.cmpHeld_feed n upper).trans hheld)
      exact fun _ => rfl
    have hsee : s.cmpSee ⟨16 + n.val, by omega⟩ x = (u.setFld (CMP_STAT_LOSTATE (16 + n)) 0).setFld (CMP_STAT_HISTATE (16 + n)) 0 := by
      have hlow : cmpNext (u.cmpHys (16 + n)) (u.fld (CMP_STAT_LOSTATE (16 + n))) ((s.fld (FEED_WIN_UVTH n) : Int) - x) = 0 :=
        cmpNext_inside (by show _ ≤ -((s.cmpHys (16 + n) : Nat) : Int); omega)
      set v := u.setFld (CMP_STAT_LOSTATE (16 + n)) 0 with hv
      have hhigh : cmpNext (v.cmpHys (16 + n)) (v.fld (CMP_STAT_HISTATE (16 + n))) (x - (s.fld (FEED_WIN_OVTH n) : Int)) = 0 := by
        refine cmpNext_inside ?_
        have hhys : v.cmpHys (16 + n) = s.cmpHys (16 + n) := by
          simp only [State.cmpHys]
          rw [hv, State.fld_setFld_off _ _ _ _ (by simp)]
          rfl
        omega
      have hvheld : v.cmpHeld (16 + n) true = false := by
        rw [hv, State.cmpHeld_setFld _ _ _ _ _ (by simp) (by simp), huheld]
      have hthr : u.thr (16 + n) = (s.fld (FEED_WIN_UVTH n), s.fld (FEED_WIN_OVTH n)) := u.thr_feed n
      simp [State.cmpSee, ← hu, hthr, huheld, hlow, ← hv, hhigh, hvheld]
    show (s.cmpSee ⟨16 + n.val, by omega⟩ x).fld _ = 0 ∧ (s.cmpSee ⟨16 + n.val, by omega⟩ x).fld _ = 0
    rw [hsee]
    exact ⟨State.fld_setFld_zero _ (by simp),
      (State.fld_setFld_ne _ _ (by simp) (by simp) (.inr (.inl (by simp)))).trans (u.fld_setFld_zero (by simp))⟩

theorem feedWindowEnter_clause (n : Fin 4) (s : State) (hpow : s.powered = true) (hheld : s.cmpHeld (16 + n) true = false)
    (hin : s.cmpInside ⟨16 + n.val, by omega⟩ = true) :
    Gives (.feedWindowEnter n) s (fun t => t.feed[n].window = true ∧ t.feed[n].stable = false ∧
      t.fld (CMP_STAT_HISTATE (16 + n)) = 0 ∧ t.fld (CMP_STAT_LOSTATE (16 + n)) = 0) := by
  obtain ⟨hhi, hlo⟩ := s.cmpRelease_feed n hheld hin
  refine ⟨(s.cmpRelease ⟨16 + n.val, by omega⟩).modFeed n (fun f => { f with window := true, stable := false }), ?_, ?_, ?_, hhi, hlo⟩
  · show execFeedWindowEnter n s = _
    simp [execFeedWindowEnter, hpow, hin]
  · rw [FeedH.at_modFeed_same]
  · rw [FeedH.at_modFeed_same]

/-- FEED_SEL and SYS_STATE decide whether PRIORITY is the policy (R105, R111). -/
theorem State.priorityMode_of_word {s t : State} (hsel : t.word FEED_SEL = s.word FEED_SEL) (hmode : t.word SYS_STATE = s.word SYS_STATE) :
    t.priorityMode = s.priorityMode := by
  have hsel' : t.fld FEED_SEL_MODE = s.fld FEED_SEL_MODE := State.fld_of_word hsel
  have hmode' : t.mode = s.mode := State.fld_of_word (f := SYS_STATE_MODE) hmode
  unfold State.priorityMode State.safeState State.safeTalk
  rw [hsel', hmode']

theorem feedEff_ne (n : Fin 4) : FEED_EFF n ≠ FEED_GSTAT ∧ FEED_EFF n ≠ FEED_STAT n ∧ feedReg (FEED_EFF n) = true := by
  decide +revert

theorem policy_ne (n : Fin 4) : ∀ o ∈ [FEED_SEL, SYS_STATE], o ≠ FEED_EFF n ∧ o ≠ FEED_STAT n ∧ o ≠ FEED_GSTAT := by
  decide +revert

/-- The feed as its qualification has marked it, before the levels follow (R90). -/
def State.marked (s : State) (n : Fin 4) : State :=
  (((s.setCode (FEED_EFF_VFQ n) (100 * meanOr s.meas.v[n.castAdd 44] s.feed[n].volts)).setFeed n .qualified).setQual n true).modFeed n
    (fun f => { f with stable := true })

theorem State.qualify_eq : s.qualify n = ((s.marked n).feedChanged.settleGroup).handbackStart n := rfl

theorem State.marked_qual : (s.marked n).qual n = true := State.qual_setQual_same _ n true

theorem State.marked_stable : (s.marked n).feed[n].stable = true := by
  unfold State.marked
  rw [FeedH.at_modFeed_same]

theorem State.marked_feedSt : (s.marked n).feedSt n = .qualified := by
  have hqual (t : State) : (t.setQual n true).feedSt n = t.feedSt n :=
    State.feedSt_of_fld (t.fld_setFld_off _ _ _ (feedStat_ne_gstat n))
  exact (hqual _).trans (State.feedSt_setFeed_same _ n .qualified)

theorem State.marked_vfq : (s.marked n).fld (FEED_EFF_VFQ n) =
    min (2 ^ 14 - 1) (100 * meanOr s.meas.v[n.castAdd 44] s.feed[n].volts).floor.toNat := by
  obtain ⟨hgstat, hstat, -⟩ := feedEff_ne n
  set q := 100 * meanOr s.meas.v[n.castAdd 44] s.feed[n].volts with hq
  have hset : (s.setCode (FEED_EFF_VFQ n) q).fld (FEED_EFF_VFQ n) = min (2 ^ 14 - 1) q.floor.toNat := by
    refine (s.fld_setFld_same _ _ (by simp) (by simp)).trans ?_
    have hw : (FEED_EFF_VFQ n).width = 14 := rfl
    rw [hw]
    exact Nat.mod_eq_of_lt (by omega)
  refine Eq.trans ?_ hset
  exact (State.fld_setFld_off _ _ _ _ hgstat).trans (State.fld_setFld_off _ _ _ _ hstat)

theorem State.marked_word {o : Nat} (h : o ≠ FEED_EFF n ∧ o ≠ FEED_STAT n ∧ o ≠ FEED_GSTAT) : (s.marked n).word o = s.word o :=
  ((State.word_setFld_off _ _ h.2.2).trans (State.word_setFld_off _ _ h.2.1)).trans (State.word_setFld_off _ _ h.1)

/-- The group settles by the state and the gates of the feeds alone (R105, R106). -/
theorem State.settleGroup_stat : OnlyAt (fun l => ∃ m : Fin 4, l = .reg (FEED_STAT m)) s s.settleGroup :=
  State.settleGroup_only (.refl _ s) ⟨fun m => ⟨m, rfl⟩, fun m => ⟨m, rfl⟩⟩

theorem State.settleGroup_share (h : s.priorityMode = false) : s.settleGroup = s := by
  simp [State.settleGroup, h]

theorem feedStat_ne (n : Fin 4) : ∀ m : Fin 4, FEED_GSTAT ≠ FEED_STAT m ∧ FEED_EFF n ≠ FEED_STAT m ∧ FEED_SEL ≠ FEED_STAT m := by
  decide +revert

theorem State.handbackStart_feedsHold : FeedsHold s (s.handbackStart n) :=
  (State.handbackStart_only (.refl _ s) n lossOps_beside.startHb).feedsHold_lines

/-- A feed qualifies (R90): QUAL, VFQ as captured, and its place in the selection. -/
theorem State.qualify_spec :
    (s.qualify n).qual n = true ∧
    (s.qualify n).fld (FEED_EFF_VFQ n) = min (2 ^ 14 - 1) (100 * meanOr s.meas.v[n.castAdd 44] s.feed[n].volts).floor.toNat ∧
    (s.qualify n).feed[n].stable = true ∧ (s.priorityMode = false → (s.qualify n).feedSt n = .qualified) := by
  set a := s.marked n
  set b := a.feedChanged
  have hb : FeedsHold a b := a.feedChanged_feedsHold
  have hc := b.settleGroup_stat
  have hd : FeedsHold b.settleGroup (s.qualify n) := State.handbackStart_feedsHold _ n
  obtain ⟨-, -, heff⟩ := feedEff_ne n
  refine ⟨?_, ?_, ?_, fun hprio => ?_⟩
  · have hgroup : b.settleGroup.qual n = b.qual n := by
      refine congrArg (·.getLsbD (4 + n)) (hc.word (o := FEED_GSTAT) ?_)
      simpa using fun m => (feedStat_ne n m).1
    rw [hd.qual, hgroup, hb.qual, s.marked_qual n]
  · have hgroup : b.settleGroup.fld (FEED_EFF_VFQ n) = b.fld (FEED_EFF_VFQ n) := by
      refine hc.fld ?_
      simpa using fun m => (feedStat_ne n m).2.1
    rw [hd.fld heff, hgroup, hb.fld heff, s.marked_vfq n]
  · have hgroup : b.settleGroup.feed[n] = b.feed[n] := hc (.feed n) (by simp)
    rw [hd.feed, hgroup, hb.feed, s.marked_stable n]
  · have hshare : b.priorityMode = false :=
      (State.priorityMode_of_word ((hb.reg _ (by decide)).trans (s.marked_word n (policy_ne n _ (by simp))))
        ((hb.reg _ (by decide)).trans (s.marked_word n (policy_ne n _ (by simp))))).trans hprio
    rw [hd.state, b.settleGroup_share hshare, hb.state, s.marked_feedSt n]

theorem feedQualified_clause (n : Fin 4) (s : State) (hpow : s.powered = true) (hst : s.feedSt n = .debounce)
    (hwin : s.feed[n].window = true) (hproved : s.feed[n].proved = true) (hej : s.feed[n].ejected = false)
    (hfail : s.feed[n].failed = false) :
    Gives (.feedQualified n) s (fun t => t.qual n = true ∧ t.fld (FEED_EFF_VFQ n) =
      min (2 ^ 14 - 1) (100 * meanOr s.meas.v[n.castAdd 44] s.feed[n].volts).floor.toNat ∧ t.feed[n].stable = true ∧
      (s.priorityMode = false → t.feedSt n = .qualified)) := by
  refine ⟨s.qualify n, ?_, s.qualify_spec n⟩
  show execFeedQualified n s = _
  simp [execFeedQualified, -Fin.getElem_fin, hpow, hst, hwin, hproved, hej, hfail]

end
end Sys2Proof.Machine

open Sys2Proof Sys2Proof.Machine

/-- Settles O10: a change of a feed writes its own registers, and what follows it, down to the loss of the feeds, the stops and the budget,
leaves the state, the gates and the qualification of the feeds (`FeedsHold`). -/
theorem feedPresenceAndQualification : Obligations.FeedPresenceAndQualification := by
  unfold Obligations.FeedPresenceAndQualification
  exact ⟨feedPresent_clause, feedCheckFailed_clause, feedCheckPassed_clause, feedAbsent_clause, feedUv_clause, feedOv_clause,
    feedWindowEnter_clause, feedQualified_clause⟩
end
section
/-! PROOF. The life-cycle changes (R83 to R85): the grant of a change and its end. -/

namespace Sys2Proof.Machine

/-- The places that tell of a life-cycle change or of a SELFTEST. -/
def Place.ofTests : Place → Bool
  | .reg o => o == SYS_LC || o == SYS_BIST
  | .sys => true
  | _ => false

/-- The places beside these. -/
abbrev BesideTests (l : Place) : Prop := l.ofTests = false

/-- The footprints of what the changes and the runs do elsewhere. -/
structure TestOps (P : Place → Prop) : Prop where
  inForce : ∀ k, FP.inForceChanged P k
  reload : FP.reloadB4 P
  phase : ∀ n, FP.setPh P n
  ports : FP.syncPorts P
  port : ∀ k, FP.syncPort P k
  abort : FP.abortTel P
  finish : FP.finish P
  leg : ∀ n, FP.probeLeg P n
  legs : ∀ n, FP.probeLive P n
  portLeg : ∀ k n, FP.takeOut P k n
  cmd : ∀ k, FP.setCmd P k
  pfl : FP.setPfl P
  cut : ∀ k, FP.cutPower P k
  map : FP.mapDeferred P
  drain : FP.drainNext P
  budget : FP.budgetDrop P
  refs : FP.setRefs P
  again : FP.phcntAgain P
  sealRead : FP.sealReading P
  lost : ∀ n : Fin 16, FP.evt P (PH_EVT n)
  line : P .flt
  hif : P .hif
  chgg : P .chgg
  ring : ∀ n, P (.ring n)
  hidden : ∀ n, P (.ph n)
  chg : ∀ k, P (.chg k)
  stat : ∀ n : Fin 16, P (.reg (PH_STAT n))
  cur : ∀ k : Fin 2, P (.reg (CHG_CUR k))

/-- Each footprint is a conjunction of places beside these: the proof walks the conjunction. -/
theorem testOps_of_beside {P : Place → Prop} (hP : ∀ l, BesideTests l → P l) : TestOps P := by
  constructor
  all_goals
    repeat' first
      | exact hP _ (by decide +revert)
      | apply And.intro
      | intro _

theorem testOps_beside : TestOps BesideTests := testOps_of_beside (fun _ h => h)

section
variable {s t : State}

theorem OnlyAt.bist (h : OnlyAt BesideTests s t) : t.word SYS_BIST = s.word SYS_BIST := h.word (by decide)
theorem OnlyAt.lc (h : OnlyAt BesideTests s t) : t.word SYS_LC = s.word SYS_LC := h.word (by decide)
theorem OnlyAt.sysSame (h : OnlyAt BesideTests s t) : t.sys = s.sys := h .sys (by decide)
end

/-! ### The grant of a change -/

section
variable (s : State)

/-- What the wipe of B4 leaves for the change that asked for it. -/
structure Wiped (cause : Nat) (s t : State) : Prop where
  wiping : t.aon.wiping = some cause
  b4 : ∀ i : Fin 4, t.aon.b4[i] = none
  keys : t.aon.keys = s.aon.keys
  sys : t.sys = s.sys
  lc : t.word SYS_LC = s.word SYS_LC
  granted : t.word AUTH_CNT = s.word AUTH_CNT

/-- A wipe empties B4 and tells its cause (R387). -/
theorem State.wipe_wiped (cause : Nat) : Wiped cause s (s.wipe cause) := by
  have hwipe : FP.wipe (fun l => BesideTests l ∧ l ≠ .reg AUTH_CNT) := by
    repeat' first
      | decide +revert
      | apply And.intro
      | intro _
  have hauth (k : Fin 2) : FP.setAuth (· ≠ .aon) k ∧ Place.pk k ≠ .aon := by
    repeat' first
      | decide +revert
      | apply And.intro
  have honly := State.wipe_only (.refl _ s) cause hwipe
  have haon : (s.wipe cause).aon = { s.aon with
      wiping := some cause, b4 := Vector.replicate 4 none, b4certs := Vector.replicate 2 none
      sealedOut := s.aon.sealedOut || cause == 1 } := by
    unfold State.wipe
    extract_lets _ _ v
    refine State.each_only (P := (· ≠ .aon)) (.refl _ v) _ _ (fun t k _ ht => ?_) .aon (by simp)
    exact OnlyAt.ite (State.setAuth_only (State.modPk_only ht k _ (hauth k).2) k .none (hauth k).1) ht
  refine ⟨by rw [haon], fun i => ?_, by rw [haon], honly .sys (by simp [Place.ofTests]), honly.word (by simp [Place.ofTests]),
    honly.word (by simp)⟩
  rw [haon]
  exact Vector.getElem_replicate _

/-- A change of the life cycle starts: GRANTED, BUSY with its GO bit, the groups to blow, the keys, the wipe (R83 to R85). -/
def State.lcStart (s : State) (o : Origin) (returned : Bool) : State :=
  let s := ((s.count AUTH_CNT_GRANTED).setOn SYS_LC_BUSY true).setOn (if returned then SYS_LC_GO_RETURNED else SYS_LC_GO_FIELD) true
  let s := { s with sys := { s.sys with lcTarget := some (if returned then 6 else 2), lcOrigin := o } }
  let s := if returned then { s with aon := { s.aon with keys := s.aon.keys.map (fun x => (x.1, x.2.1, true)) } } else s
  s.wipe 2

theorem State.lcWrite_eq_lcStart (o : Origin) {v : Word} {returned : Bool} (hret : v.getLsbD 9 = returned)
    (hgo : (v.getLsbD 8 || v.getLsbD 9) = true) (hreason : s.lcReason returned v = 0) (hbusy : s.on SYS_LC_BUSY = false) :
    s.lcWrite o v = s.lcStart o returned := by
  have hnot : (!v.getLsbD 8 && !v.getLsbD 9) = false := by
    cases h8 : v.getLsbD 8 <;> simp_all
  subst hret
  unfold State.lcWrite
  dsimp only
  rw [if_neg (by rw [hnot]; decide), if_neg (not_not.mpr hreason), if_neg (by rw [hbusy]; decide)]
  rfl

/-- The bit of the GO that starts a change. -/
abbrev goBit (returned : Bool) : Fld := if returned then SYS_LC_GO_RETURNED else SYS_LC_GO_FIELD

theorem goBit_facts (returned : Bool) : (goBit returned).off = SYS_LC ∧ (goBit returned).Fits ∧
    SYS_LC_BUSY.hi < (goBit returned).lo := by
  rw [Fld.fits_iff]
  cases returned <;> decide

/-- What a change leaves as it starts. -/
structure LcStarted (returned : Bool) (s t : State) : Prop where
  busy : t.on SYS_LC_BUSY = true
  go : t.on (goBit returned) = true
  target : t.sys.lcTarget = some (if returned then 6 else 2)
  granted : Counted s t AUTH_CNT_GRANTED
  wiping : t.aon.wiping = some 2
  b4 : ∀ i : Fin 4, t.aon.b4[i] = none
  keys : returned = true → ∀ i : Fin 4, t.aon.keys[i].2.2 = true

theorem State.lcStart_started (o : Origin) (returned : Bool) : LcStarted returned s (s.lcStart o returned) := by
  obtain ⟨hoff, hfits, hbits⟩ := goBit_facts returned
  unfold State.lcStart
  extract_lets a _ b _ c
  have hcw : ∀ x, c.word x = a.word x := by
    intro x
    unfold c
    split <;> rfl
  have hw : Wiped 2 c (c.wipe 2) := c.wipe_wiped 2
  have haBusy : a.on SYS_LC_BUSY = true := by
    refine (State.on_setFld_ne _ _ hfits (by simp) (.inr (.inl hbits))).trans ?_
    exact State.on_setOn_same _ true (by simp)
  refine ⟨?_, ?_, ?_, ?_, hw.wiping, hw.b4, fun hret i => ?_⟩
  · rw [State.on_of_word (hw.lc.trans (hcw _)), haBusy]
  · have hword : (c.wipe 2).word (goBit returned).off = a.word (goBit returned).off := by
      rw [hoff, hw.lc, hcw]
    rw [State.on_of_word hword]
    exact State.on_setOn_same _ true hfits
  · have hcsys : c.sys = b.sys := by
      unfold c
      split <;> rfl
    rw [hw.sys, hcsys]
  · have hcount : a.word AUTH_CNT = (s.count AUTH_CNT_GRANTED).word AUTH_CNT := by
      have hne : AUTH_CNT ≠ SYS_LC := by decide
      exact (State.word_setOn_off _ _ (by rw [hoff]; exact hne)).trans (State.word_setOn_off _ _ hne)
    unfold Counted
    rw [State.fld_of_word ((hw.granted.trans (hcw _)).trans hcount)]
    exact s.fld_count_same (by simp)
  · rw [hw.keys]
    unfold c
    rw [if_pos hret]
    simp

/-- CONFIRM is the top byte of a write to SYS_LC. -/
theorem confirm_eq (v : Word) : v.toNat / 2 ^ 24 = SYS_LC_CONFIRM.extract v := by
  have hlt := v.isLt
  show _ = (v >>> 24).toNat % 2 ^ 8
  rw [BitVec.toNat_ushiftRight, Nat.shiftRight_eq_div_pow]
  omega

/-- The write that a GO command makes. -/
theorem goWrite_bits (returned : Bool) (v : Word) :
    ((goBit returned).insert v 1).toNat / 2 ^ 24 = v.toNat / 2 ^ 24 ∧
    ((goBit returned).insert v 1).getLsbD (goBit returned).lo = true ∧
    (returned = false → ((goBit returned).insert v 1).getLsbD 9 = v.getLsbD 9) := by
  obtain ⟨-, ⟨hhi, hle⟩, -⟩ := goBit_facts returned
  refine ⟨?_, ?_, fun hret => ?_⟩
  · rw [confirm_eq, confirm_eq]
    exact Fld.extract_insert_ne _ _ _ _ hhi hle (by decide) (.inr (by cases returned <;> decide))
  · rw [Fld.getLsbD_insert _ _ _ _ hhi hle (by omega)]
    simp [hle]
  · subst hret
    rw [Fld.getLsbD_insert _ _ _ _ hhi hle (by omega)]
    exact if_neg (by decide)

/-- The row of SYS_LC takes writes. -/
theorem findReg_lc : ∃ row, findReg regTable SYS_LC = some row ∧ row.writable = true := by decide +kernel

/-- A served write to SYS_LC is the life-cycle block's (R83). -/
theorem State.fabricWrite_lc {s : State} {o : Origin} (h : s.serves o) (v : Word) : s.fabricWrite o SYS_LC v = s.lcWrite o v := by
  obtain ⟨row, hrow, hwr⟩ := findReg_lc
  have hcheck : s.checkWord SYS_LC = s := s.checkWord_of_outside (by decide)
  have hanvil : onAnvil SYS_LC = false := by decide
  rw [State.fabricWrite_of_serves h, show SYS_LC / 4 * 4 = SYS_LC from rfl]
  simp [State.serveWrite, hcheck, hanvil, hrow, hwr]

end

theorem goField_clause (o : Origin) (v : Word) (s : State) (hs : s.serves o) (hbusy : s.on SYS_LC_BUSY = false)
    (hm : s.on SYS_MAINT_MAINT = true) (hc : v.toNat / 2 ^ 24 = 0xA5) (h9 : v.getLsbD 9 = false) (hlc : s.lifecycle = 1)
    (hseal : s.sealOk = true) (hpres : s.present = true) (hst : s.stalled = false) (hsw : s.anySwitching = false) :
    Gives (.goField o v) s (fun t => t.on SYS_LC_BUSY = true ∧ t.on SYS_LC_GO_FIELD = true ∧ t.sys.lcTarget = some 2 ∧
      Counted s t AUTH_CNT_GRANTED ∧ t.aon.wiping = some 2 ∧ (∀ i : Fin 4, t.aon.b4[i] = none)) := by
  obtain ⟨htop, hgo, hother⟩ := goWrite_bits false v
  have h9' : (SYS_LC_GO_FIELD.insert v 1).getLsbD 9 = false := (hother rfl).trans h9
  have hreason : s.lcReason false (SYS_LC_GO_FIELD.insert v 1) = 0 := by
    have hconfirm : (SYS_LC_GO_FIELD.insert v 1).toNat / 2 ^ 24 = 0xA5 := htop.trans hc
    unfold State.lcReason
    rw [if_neg (not_not.mpr hconfirm)]
    simp [hm, hlc, hseal, hpres, hst, hsw]
  have hgo' : ((SYS_LC_GO_FIELD.insert v 1).getLsbD 8 || (SYS_LC_GO_FIELD.insert v 1).getLsbD 9) = true := by
    rw [show (SYS_LC_GO_FIELD.insert v 1).getLsbD 8 = true from hgo, Bool.true_or]
  have hrun : s.fabricWrite o SYS_LC (SYS_LC_GO_FIELD.insert v 1) = s.lcStart o false :=
    (State.fabricWrite_lc hs _).trans (s.lcWrite_eq_lcStart o h9' hgo' hreason hbusy)
  obtain ⟨h₁, h₂, h₃, h₄, h₅, h₆, -⟩ := s.lcStart_started o false
  exact ⟨s.lcStart o false, congrArg _ hrun, h₁, h₂, h₃, h₄, h₅, h₆⟩

theorem goReturned_clause (o : Origin) (v : Word) (s : State) (hs : s.serves o) (hbusy : s.on SYS_LC_BUSY = false)
    (hm : s.on SYS_MAINT_MAINT = true) (hc : v.toNat / 2 ^ 24 = 0xA5) (hlc : s.lifecycle = 1 ∨ s.lifecycle = 2)
    (hpres : s.present = true) (hst : s.stalled = false) (hsw : s.anySwitching = false) :
    Gives (.goReturned o v) s (fun t => t.on SYS_LC_BUSY = true ∧ t.on SYS_LC_GO_RETURNED = true ∧ t.sys.lcTarget = some 6 ∧
      Counted s t AUTH_CNT_GRANTED ∧ t.aon.wiping = some 2 ∧ (∀ i : Fin 4, t.aon.b4[i] = none) ∧
      (∀ i : Fin 4, t.aon.keys[i].2.2 = true)) := by
  obtain ⟨htop, hgo, -⟩ := goWrite_bits true v
  have h9 : (SYS_LC_GO_RETURNED.insert v 1).getLsbD 9 = true := hgo
  have hreason : s.lcReason true (SYS_LC_GO_RETURNED.insert v 1) = 0 := by
    have hconfirm : (SYS_LC_GO_RETURNED.insert v 1).toNat / 2 ^ 24 = 0xA5 := htop.trans hc
    unfold State.lcReason
    rw [if_neg (not_not.mpr hconfirm)]
    rcases hlc with hlc | hlc <;> simp [hm, hlc, hpres, hst, hsw]
  have hgo' : ((SYS_LC_GO_RETURNED.insert v 1).getLsbD 8 || (SYS_LC_GO_RETURNED.insert v 1).getLsbD 9) = true := by
    rw [h9, Bool.or_true]
  have hrun : s.fabricWrite o SYS_LC (SYS_LC_GO_RETURNED.insert v 1) = s.lcStart o true :=
    (State.fabricWrite_lc hs _).trans (s.lcWrite_eq_lcStart o h9 hgo' hreason hbusy)
  obtain ⟨h₁, h₂, h₃, h₄, h₅, h₆, h₇⟩ := s.lcStart_started o true
  exact ⟨s.lcStart o true, congrArg _ hrun, h₁, h₂, h₃, h₄, h₅, h₆, h₇ rfl⟩

/-! ### The end of a change -/

theorem State.lifecycle_lt (s : State) : s.lifecycle < 2 ^ 2 := by
  unfold State.lifecycle
  cases s.group 0 <;> cases s.group 1 <;> cases s.group 2 <;> decide

/-- LIFECYCLE_CHANGE_DONE leaves SYS_LC and the fuses as it sets them: what follows it is beside them. -/
theorem lifecycleChangeDone_clause (g : Vector (BitVec 5) 3) (x : BitVec 3) (s : State) (hx : s.sys.lcTarget = some x) :
    Gives (.lifecycleChangeDone g) s (fun t => (∀ i : Fin 3, t.sys.fuses[i] = s.sys.fuses[i] ||| (if x.getLsbD i then g[i] else 0)) ∧
      t.sys.lcTarget = none ∧ t.on SYS_LC_BUSY = false ∧
      (t.fld SYS_LC_RESULT = if (∀ i : Fin 3, x.getLsbD i = true → t.group i = true) then 1 else 3) ∧
      t.fld SYS_LC_STATE = t.lifecycle) := by
  refine ⟨_, rfl, ?_⟩
  rw [hx]
  dsimp -zeta only
  extract_lets old was cls _ fuses a ok b c d
  have hops := testOps_beside
  have hcd : OnlyAt BesideTests c d := OnlyAt.ite (State.journal_only (.refl _ c) _ (by decide)) (.refl _ c)
  have hrest : OnlyAt BesideTests c (((d.inForceChanged 0 was.1).inForceChanged 1 was.2).reloadB4) :=
    State.reloadB4_only (State.inForceChanged_only (State.inForceChanged_only hcd 0 _ (hops.inForce 0)) 1 _ (hops.inForce 1))
      hops.reload
  generalize ((d.inForceChanged 0 was.1).inForceChanged 1 was.2).reloadB4 = t at hrest
  have hsys : t.sys = a.sys := hrest.sysSame
  have hgroup (i : Fin 3) : t.group i = a.group i := congrArg (fun y : SysH => majority y.fuses[i]) hsys
  have hlc : t.lifecycle = b.lifecycle := by
    have h (i : Fin 3) : t.group i = b.group i := hgroup i
    simp only [State.lifecycle, h]
  refine ⟨fun i => ?_, by rw [hsys], ?_, ?_, ?_⟩
  · rw [hsys]
    exact Vector.getElem_ofFn _
  · rw [State.on_of_word hrest.lc]
    refine (State.on_setFld_ne _ _ (by simp) (by simp) (.inr (.inr (by simp)))).trans ?_
    refine (State.on_setFld_ne _ _ (by simp) (by simp) (.inr (.inl (by simp)))).trans ?_
    refine (State.on_setFld_ne _ _ (by simp) (by simp) (.inr (.inl (by simp)))).trans ?_
    refine (State.on_setFld_ne _ _ (by simp) (by simp) (.inr (.inl (by simp)))).trans ?_
    exact a.on_setOn_same false (by simp)
  · have hok : ok = true ↔ ∀ i : Fin 3, x.getLsbD i = true → t.group i = true := by
      simp only [ok, List.all_eq_true, List.mem_finRange, true_implies, hgroup]
      refine forall_congr' (fun i => ?_)
      cases x.getLsbD i <;> simp
    rw [State.fld_of_word hrest.lc]
    refine (State.fld_setFld_ne _ _ (by simp) (by simp) (.inr (.inr (by simp)))).trans ?_
    refine (b.fld_setFld_same SYS_LC_RESULT _ (by simp) (by simp)).trans ?_
    by_cases h : ok = true
    · rw [if_pos h, if_pos (hok.mp h)]
      rfl
    · rw [if_neg h, if_neg (fun h' => h (hok.mpr h'))]
      rfl
  · rw [State.fld_of_word hrest.lc, hlc]
    exact (State.fld_setFld_same _ SYS_LC_STATE _ (by simp) (by simp)).trans (Nat.mod_eq_of_lt b.lifecycle_lt)

end Sys2Proof.Machine
end
section
/-! PROOF. The self-tests on request (R77 to R80, R287). -/

namespace Sys2Proof.Machine

/-! ### The start of a run -/

theorem Desc.testBit_bytes (d : Desc) (i n j : Nat) : (Desc.bytes d i n).testBit j = (decide (j < 8 * n) && d.getLsbD (8 * i + j)) := by
  unfold Desc.bytes
  rw [Nat.testBit_mod_two_pow, Nat.testBit_div_two_pow, BitVec.getLsbD, Nat.add_comm]

/-- `withOpc` sets byte 0 alone. -/
theorem Desc.getLsbD_withOpc (d : Desc) {k : Nat} (hk : k < 2 ^ 8) (j : Nat) :
    (d.withOpc k).getLsbD j = if j < 8 then k.testBit j else d.getLsbD j := by
  have hmask : (0xFF : Desc).getLsbD j = decide (j < 8) := by
    show Nat.testBit (2 ^ 8 - 1) j = _
    exact Nat.testBit_two_pow_sub_one 8 j
  unfold Desc.withOpc
  rw [BitVec.getLsbD_or, BitVec.getLsbD_and, BitVec.getLsbD_not, hmask, BitVec.getLsbD_ofNat]
  split
  · next h => simp [h, show j < 256 by omega]
  · next h =>
    have hbit : k.testBit j = false := Nat.testBit_lt_two_pow (lt_of_lt_of_le hk (Nat.pow_le_pow_right (by decide) (by omega)))
    have hd : (decide (j < 256) && d.getLsbD j) = d.getLsbD j := by
      by_cases hj : j < 256
      · simp [hj]
      · simp [BitVec.getLsbD_of_ge d j (by omega)]
    simpa [h, hbit, Bool.and_comm] using hd

theorem Desc.opc_withOpc (d : Desc) {k : Nat} (hk : k < 2 ^ 8) : (d.withOpc k).opc = k := by
  refine Nat.eq_of_testBit_eq (fun j => ?_)
  unfold Desc.opc
  rw [Desc.testBit_bytes, Nat.mul_zero, Nat.zero_add, Desc.getLsbD_withOpc d hk]
  by_cases hj : j < 8
  · simp [hj]
  · have hbit : k.testBit j = false := Nat.testBit_lt_two_pow (lt_of_lt_of_le hk (Nat.pow_le_pow_right (by decide) (by omega)))
    simp [hj, hbit]

theorem Desc.scope_withOpc (d : Desc) {k : Nat} (hk : k < 2 ^ 8) : (d.withOpc k).scope = d.scope := by
  refine congrArg (· % 4) (Nat.eq_of_testBit_eq (fun j => ?_))
  rw [Desc.testBit_bytes, Desc.testBit_bytes, Desc.getLsbD_withOpc d hk, if_neg (by omega)]

section
variable {s : State}

/-- The admin ring that is ready starts a SELFTEST at once (R277, R278). -/
theorem State.admin_selftest (h : s.adminReady) {d : Desc} (hopc : d.opc = 6) :
    s.admin [d] [] = (s.modRing 0 (fun r => { r with started := r.started ++ [d] })).startSelftest d := by
  obtain ⟨hpow, hring, hhost, hrun, hphok, htakes, hsq, hstarted, hheld⟩ := h
  have hmode : s.mode = 1 := by simpa [State.running] using hrun
  have hstarting : s.starting = false := by simp [State.starting, hphok]
  have hmay : s.mayStart [] [d] = true := by
    simp [State.mayStart, State.readsLists, -Fin.getElem_fin, hopc, hpow, htakes, hstarting, hstarted]
  have hpop : s.popSq 0 [d] = some s := by
    unfold State.popSq
    rw [hsq]
  have hstart : s.startAdmin [d] [] = (s.modRing 0 (fun r => { r with started := r.started ++ [d] })).startSelftest d := by
    have htalk : (s.modRing 0 (fun r => { r with started := r.started ++ [d] })).mode = 1 := hmode
    simp [State.startAdmin, State.safeTalk, State.safeState, htalk, hopc]
  unfold State.admin
  rw [if_neg (by simp [hpow]), if_neg (by simp [hring]), if_neg (by simp [hring, hhost]), hpop]
  dsimp only
  rw [hheld, if_pos hmay, hstart]

/-- What a SELFTEST leaves of SYS_BIST and of the run as it starts, with what follows it beside them. -/
structure TestStarted (d : Desc) (scope : Nat) (t : State) : Prop where
  test : t.sys.test = some d
  scope : t.fld SYS_BIST_SCOPE = scope
  status : t.fld SYS_BIST_STATUS = 5

theorem bist_setBist (s : State) {scope : Nat} (h : scope = 1 ∨ scope = 2) :
    (s.setBist scope 5).fld SYS_BIST_SCOPE = scope ∧ (s.setBist scope 5).fld SYS_BIST_STATUS = 5 := by
  have hword : (s.setBist scope 5).word SYS_BIST = BitVec.ofNat 32 (4 * 5 + scope) := (s.word_setWord _ _ _).trans (if_pos rfl)
  show SYS_BIST_SCOPE.extract ((s.setBist scope 5).word SYS_BIST) = scope ∧
    SYS_BIST_STATUS.extract ((s.setBist scope 5).word SYS_BIST) = 5
  rw [hword]
  rcases h with rfl | rfl <;> decide

theorem TestStarted.of_only {d : Desc} {scope : Nat} {s t : State} (h : OnlyAt (fun l => BesideTests l ∨ l = .sys) s t)
    (htest : t.sys.test = some d) (hs : s.fld SYS_BIST_SCOPE = scope ∧ s.fld SYS_BIST_STATUS = 5) : TestStarted d scope t := by
  have hword : t.word SYS_BIST = s.word SYS_BIST := h.word (by simp [Place.ofTests])
  exact ⟨htest, (State.fld_of_word hword).trans hs.1, (State.fld_of_word hword).trans hs.2⟩

/-- The next phase of an ONLINE run: the run itself and SYS_BIST stay. -/
theorem State.testNext_run (s : State) : OnlyAt (fun l => BesideTests l ∨ l = .sys) s s.testNext ∧ s.testNext.sys.test = s.sys.test := by
  have hops := testOps_of_beside (P := fun l => BesideTests l ∨ l = .sys) (fun _ => .inl)
  refine ⟨State.testNext_only (.refl _ s) ⟨.inr rfl, hops.ports, hops.phase⟩, ?_⟩
  unfold State.testNext
  split
  · rfl
  · next n l _ =>
    extract_lets was _ u
    have hphase (st : PhSt) : OnlyAt BesideTests u (u.setPh n st).syncPorts :=
      State.syncPorts_only (State.setPh_only (.refl _ u) n st (testOps_beside.phase n)) testOps_beside.ports
    have hu : u.sys.test = s.sys.test := rfl
    rw [← hu]
    exact congrArg SysH.test (OnlyAt.ite (hphase _) (hphase _)).sysSame

theorem State.startSelftest_online (s : State) {d : Desc} (hscope : d.scope = 1) (htest : s.sys.test = none)
    (hmargin : s.allMargin = true) : TestStarted d 1 (s.startSelftest d) := by
  set u := s.setBist 1 5 with hu
  set v : State := { u with sys := { u.sys with test := some d, testLeft := u.testList, testFailed := false } } with hv
  have hdef : s.startSelftest d = v.testNext := by
    simp [State.startSelftest, hscope, htest, hmargin, ← hu, hv]
  obtain ⟨honly, hrun⟩ := v.testNext_run
  rw [hdef]
  exact .of_only honly hrun (bist_setBist s (.inl rfl))

theorem State.startSelftest_offline (s : State) {d : Desc} (hscope : d.scope = 2) (htest : s.sys.test = none)
    (hsw : s.anySwitching = false) (hgust : s.on CHG_GSTAT_GUSTRUN = false) (hmaint : s.on SYS_MAINT_MAINT = true) :
    TestStarted d 2 (s.startSelftest d) := by
  set u := s.setBist 2 5 with hu
  have habort : OnlyAt (fun l => BesideTests l ∨ l = .sys) u u.abortTel :=
    State.abortTel_only (.refl _ u) (testOps_of_beside (fun _ => .inl)).abort
  have hdef : s.startSelftest d = { u.abortTel with
      sys := { u.abortTel.sys with test := some d, testLeft := [], testPhase := none, testFailed := false }
      hif := { u.abortTel.hif with history := [] } } := by
    simp [State.startSelftest, hscope, htest, hsw, hgust, hmaint, ← hu]
  rw [hdef]
  refine .of_only (habort.trans (fun l hl => ?_)) rfl (bist_setBist s (.inr rfl))
  cases l with
  | sys => exact absurd (.inr rfl) hl
  | hif => exact absurd (.inl rfl) hl
  | _ => rfl

theorem selftestOnline_clause (d : Desc) (s : State) (hready : s.adminReady) (hscope : d.scope = 1) (htest : s.sys.test = none)
    (hmargin : s.allMargin = true) : Gives (.selftestOnline d) s (fun t => t.sys.test = some (d.withOpc 6) ∧
      t.fld SYS_BIST_SCOPE = 1 ∧ t.fld SYS_BIST_STATUS = 5) := by
  have hopc : (d.withOpc 6).opc = 6 := Desc.opc_withOpc d (by decide)
  have hsc : (d.withOpc 6).scope = 1 := (Desc.scope_withOpc d (by decide)).trans hscope
  refine ⟨s.admin [d.withOpc 6] [], ?_, ?_⟩
  · show execSelftestOnline d s = _
    simp [execSelftestOnline, hscope]
  · rw [State.admin_selftest hready hopc]
    obtain ⟨h₁, h₂, h₃⟩ := State.startSelftest_online (s.modRing 0 (fun r => { r with started := r.started ++ [d.withOpc 6] })) hsc
      htest hmargin
    exact ⟨h₁, h₂, h₃⟩

theorem selftestOffline_clause (d : Desc) (s : State) (hready : s.adminReady) (hscope : d.scope = 2) (htest : s.sys.test = none)
    (hsw : s.anySwitching = false) (hgust : s.on CHG_GSTAT_GUSTRUN = false) (hmaint : s.on SYS_MAINT_MAINT = true) :
    Gives (.selftestOffline d) s (fun t => t.sys.test = some (d.withOpc 6) ∧ t.fld SYS_BIST_SCOPE = 2 ∧ t.fld SYS_BIST_STATUS = 5) := by
  have hopc : (d.withOpc 6).opc = 6 := Desc.opc_withOpc d (by decide)
  have hsc : (d.withOpc 6).scope = 2 := (Desc.scope_withOpc d (by decide)).trans hscope
  refine ⟨s.admin [d.withOpc 6] [], ?_, ?_⟩
  · show execSelftestOffline d s = _
    simp [execSelftestOffline, hscope]
  · rw [State.admin_selftest hready hopc]
    obtain ⟨h₁, h₂, h₃⟩ := State.startSelftest_offline (s.modRing 0 (fun r => { r with started := r.started ++ [d.withOpc 6] })) hsc
      htest hsw hgust hmaint
    exact ⟨h₁, h₂, h₃⟩

/-! ### The end of a run -/

/-- A run that is going ends with its SYS_BIST status; PHDONE, SCOPE and FAILITEM stay (R78, R79, R80). -/
theorem State.endTest_run (s : State) {code : Nat} (status : Nat) (hcode : code < 8) {d : Desc} (htest : s.sys.test = some d) :
    (s.endTest code status).sys.test = none ∧ (s.endTest code status).fld SYS_BIST_STATUS = code ∧
      (s.endTest code status).fld SYS_BIST_PHDONE = s.fld SYS_BIST_PHDONE ∧
      (s.endTest code status).fld SYS_BIST_FAILITEM = s.fld SYS_BIST_FAILITEM := by
  have hops := testOps_beside
  unfold State.endTest
  rw [htest]
  dsimp -zeta only
  extract_lets u _ v w
  have hu : OnlyAt BesideTests s u := by
    unfold u
    split
    · next n _ =>
      exact .ite (State.setPh_only (.refl _ s) n _ (hops.phase n)) (.ite (State.setPh_only (.refl _ s) n _ (hops.phase n)) (.refl _ s))
    · exact .refl _ s
  have hw : OnlyAt BesideTests (v.setFld SYS_BIST_STATUS code) w := State.syncPorts_only (.refl _ _) hops.ports
  have hend := (State.finish_only hw d status 0 ((w.word SYS_BIST).toNat + (if status = 5 then 500 * 2 ^ 32 else 0)) hops.finish)
  have hother {f : Fld} (hoff : f.off = SYS_BIST) (hf : f.Fits) (hlo : 4 < f.lo) :
      (v.setFld SYS_BIST_STATUS code).fld f = s.fld f := by
    refine (v.fld_setFld_ne code (by simp) hf (.inr (.inr (by simpa using hlo)))).trans ?_
    exact State.fld_of_word (t := u) (by rw [hoff]; exact hu.bist)
  refine ⟨congrArg SysH.test hend.sysSame, ?_, ?_, ?_⟩
  · refine (State.fld_of_word hend.bist).trans ?_
    exact (v.fld_setFld_same SYS_BIST_STATUS code (by simp) (by simp)).trans (Nat.mod_eq_of_lt hcode)
  · exact (State.fld_of_word hend.bist).trans (hother rfl (by simp) (by simp))
  · exact (State.fld_of_word hend.bist).trans (hother rfl (by simp) (by simp))

/-- A run is going where its scope is under test. -/
theorem State.test_of_testing {s : State} {scope : Nat} (h : s.testing scope = true) : ∃ d, s.sys.test = some d := by
  simp only [State.testing, Bool.and_eq_true] at h
  exact Option.isSome_iff_exists.mp h.1

theorem onlineMarginCheck_clause (n : Fin 16) (k : Fin 2) (s : State) (htesting : s.testing 1 = true)
    (hphase : s.sys.testPhase = some n) (hport : s.portOf n = some k) (hmargin : s.margin k = false) :
    Gives (.onlineMarginCheck) s (fun t => t.sys.test = none ∧ t.fld SYS_BIST_STATUS = 2) := by
  obtain ⟨d, htest⟩ := State.test_of_testing htesting
  obtain ⟨hnone, hstatus, -, -⟩ := s.endTest_run (code := 2) 5 (by decide) htest
  refine ⟨s.endTest 2 5, ?_, hnone, hstatus⟩
  show execOnlineMarginCheck s = _
  simp [execOnlineMarginCheck, hphase, hport, htesting, hmargin]

/-! ### PHDONE -/

theorem State.endTest_phdone (s : State) {code : Nat} (status : Nat) (hcode : code < 8) :
    (s.endTest code status).fld SYS_BIST_PHDONE = s.fld SYS_BIST_PHDONE := by
  cases htest : s.sys.test with
  | none => simp [State.endTest, htest]
  | some d => exact (s.endTest_run status hcode htest).2.2.1

theorem State.passTest_phdone (s : State) : s.passTest.fld SYS_BIST_PHDONE = s.fld SYS_BIST_PHDONE := by
  unfold State.passTest
  split
  · exact s.endTest_phdone 9 (by decide)
  · exact s.endTest_phdone 0 (by decide)

theorem State.failItem_phdone (s : State) (item : Nat) : (s.failItem item).fld SYS_BIST_PHDONE = s.fld SYS_BIST_PHDONE := by
  show State.fld (if s.fld SYS_BIST_FAILITEM = 0 then s.setFld SYS_BIST_FAILITEM item else s) SYS_BIST_PHDONE = _
  split
  · exact s.fld_setFld_ne item (by simp) (by simp) (.inr (.inr (by simp)))
  · rfl

theorem OnlyAt.phdone {s t : State} (h : OnlyAt BesideTests s t) : t.fld SYS_BIST_PHDONE = s.fld SYS_BIST_PHDONE :=
  State.fld_of_word h.bist

theorem State.testNext_phdone (s : State) : s.testNext.fld SYS_BIST_PHDONE = s.fld SYS_BIST_PHDONE :=
  State.fld_of_word (s.testNext_run.1.word (by simp [Place.ofTests]))

/-- The last steps of a phase's loss, of which one may end a run. -/
theorem State.lossEnd_phdone {s u : State} (h : OnlyAt BesideTests s u) (c : Prop) [Decidable c] (k : Fin 2) :
    (((if c then u.endTest 2 5 else u).syncPort k).budgetDrop).fld SYS_BIST_PHDONE = s.fld SYS_BIST_PHDONE := by
  have hops := testOps_beside
  have hlast (v : State) : OnlyAt BesideTests v (v.syncPort k).budgetDrop :=
    State.budgetDrop_only (State.syncPort_only (.refl _ v) k (hops.port k)) hops.budget
  rw [(hlast _).phdone]
  split
  · exact (u.endTest_phdone 5 (by decide)).trans h.phdone
  · exact h.phdone

/-- The loss of a phase touches SYS_BIST through the end of a run alone (R142, R146). -/
theorem State.markLost_phdone (s : State) (n : Fin 16) (cause : Nat) :
    (s.markLost n cause).fld SYS_BIST_PHDONE = s.fld SYS_BIST_PHDONE := by
  have hops := testOps_beside
  unfold State.markLost
  dsimp only
  by_cases hout : s.phSt n = .unassigned ∨ s.phSt n = .shorted ∨ s.phSt n = .lost
  · rw [if_pos hout]
  rw [if_neg hout]
  generalize hs₁ : ((s.fault (if cause = 6 then srcTRIP_MISMATCH else srcPHASE_LOST) n.val).evt (PH_EVT_LOST n)) = s₁
  have h₁ : OnlyAt BesideTests s s₁ := hs₁ ▸ State.evt_only (State.fault_only (.refl _ s) _ _ hops.line) _ (hops.lost n)
  cases s₁.portOf n with
  | none => exact (State.setFld_only (State.setPh_only h₁ n _ (hops.phase n)) _ _ (hops.stat n)).phdone
  | some k =>
    dsimp only
    have h₂ : OnlyAt BesideTests s ((s₁.takeOut k n .lost).setFld (PH_STAT_CAUSE n) cause) :=
      State.setFld_only (State.takeOut_only h₁ k n _ (hops.portLeg k n)) _ _ (hops.stat n)
    generalize (s₁.takeOut k n .lost).setFld (PH_STAT_CAUSE n) cause = s₂ at *
    have hchg (f : ChgH → ChgH) {u : State} (hu : OnlyAt BesideTests s u) := State.modChg_only hu k f (hops.chg k)
    refine State.lossEnd_phdone (OnlyAt.ite (State.mapDeferred_only ?_ hops.map) (State.drainNext_only ?_ hops.drain)) _ k
    all_goals
      refine State.each_only (State.cutPower_only ?_ k (hops.cut k)) _ _ (fun _ i _ ht => State.setPh_only ht i _ (hops.phase i))
      refine OnlyAt.ite h₂ ?_
      cases s₂.role k with
      | holdup => exact State.setCmd_only (State.withChgg_only h₂ _ hops.chgg) k _ (hops.cmd k)
      | gust => exact State.setCmd_only (hchg _ (State.setPfl_only h₂ _ hops.pfl)) k _ (hops.cmd k)
      | charge =>
        exact OnlyAt.ite (State.setCmd_only (State.setScode_only (hchg _ h₂) _ _ (hops.cur k)) k _ (hops.cmd k)) h₂
      | none => exact h₂
      | drizzle => exact h₂

/-- The bit of PHDONE that belongs to a phase. -/
theorem State.phdone_bit (s : State) (n : Fin 16) : (s.word SYS_BIST).getLsbD (16 + n.val) = (s.fld SYS_BIST_PHDONE).testBit n := by
  show _ = (SYS_BIST_PHDONE.extract (s.word SYS_BIST)).testBit n
  rw [Fld.testBit_extract, show SYS_BIST_PHDONE.width = 16 from rfl, decide_eq_true n.isLt, Bool.true_and]

/-- The phase under test is marked as its test ends (R78). -/
theorem State.phdone_marked (s : State) (n : Fin 16) :
    ((s.setWord SYS_BIST (s.word SYS_BIST ||| (1#32 <<< (16 + n.val)))).fld SYS_BIST_PHDONE).testBit n = true := by
  have hword : (s.setWord SYS_BIST (s.word SYS_BIST ||| (1#32 <<< (16 + n.val)))).word SYS_BIST =
      s.word SYS_BIST ||| (1#32 <<< (16 + n.val)) := (s.word_setWord _ _ _).trans (if_pos rfl)
  have hlt : 16 + n.val < 32 := by omega
  rw [← State.phdone_bit, hword, BitVec.getLsbD_or, BitVec.getLsbD_shiftLeft]
  simp [hlt]

theorem onlinePhaseTestDone_clause (r : TestRes) (n : Fin 16) (s : State) (htesting : s.testing 1 = true)
    (hphase : s.sys.testPhase = some n) (hst : s.phSt n = .test) :
    Gives (.onlinePhaseTestDone r) s (fun t => (t.word SYS_BIST).getLsbD (16 + n.val) = true) := by
  have hops := testOps_beside
  refine ⟨_, rfl, ?_⟩
  rw [if_neg (by simp [htesting]), hphase]
  extract_lets last
  dsimp -zeta only
  rw [if_neg (not_not.mpr hst)]
  extract_lets u _ v item a b c w
  have hlast (t : State) : (last t).fld SYS_BIST_PHDONE = t.fld SYS_BIST_PHDONE := by
    have hfail (c : Bool) (i : Nat) (u : State) : (if c then u else u.failItem i).fld SYS_BIST_PHDONE = u.fld SYS_BIST_PHDONE := by
      cases c
      · exact u.failItem_phdone i
      · rfl
    unfold last
    split
    · rw [State.passTest_phdone, hfail, hfail]
    · exact t.testNext_phdone
  have hv : v.fld SYS_BIST_PHDONE = u.fld SYS_BIST_PHDONE := rfl
  have hw : w.fld SYS_BIST_PHDONE = v.fld SYS_BIST_PHDONE := by
    have ha : OnlyAt BesideTests v a :=
      State.setFld_only (State.modPh_only (.refl _ v) n _ (hops.hidden n)) _ _ (hops.stat n)
    have hleg (t : State) (shorted boost : Bool) : OnlyAt BesideTests t (if shorted then t.probeLeg n boost true else t) :=
      OnlyAt.ite (State.probeLeg_only (.refl _ t) n boost true (hops.leg n)) (.refl _ t)
    unfold w
    split
    · exact (State.syncPorts_only (State.setPh_only (State.setFld_only ha _ _ (hops.stat n)) n _ (hops.phase n)) hops.ports).phdone
    · split
      · exact ((hleg b _ false).trans (hleg c _ true)).phdone.trans (v.failItem_phdone 4)
      · exact (State.markLost_phdone _ n 5).trans (v.failItem_phdone item)
  rw [State.phdone_bit, hlast, hw, hv]
  exact s.phdone_marked n

/-! ### OFFLINE -/

/-- What a running SELFTEST keeps: its descriptor, PHDONE, that an item has failed, and the first item that did. -/
structure RunHold (s t : State) : Prop where
  test : t.sys.test = s.sys.test
  phdone : t.fld SYS_BIST_PHDONE = s.fld SYS_BIST_PHDONE
  failed : s.sys.testFailed = true → t.sys.testFailed = true
  item : s.fld SYS_BIST_FAILITEM ≠ 0 → t.fld SYS_BIST_FAILITEM = s.fld SYS_BIST_FAILITEM

theorem RunHold.refl (s : State) : RunHold s s := ⟨rfl, rfl, id, fun _ => rfl⟩

theorem RunHold.trans {s t u : State} (h : RunHold s t) (k : RunHold t u) : RunHold s u :=
  ⟨k.test.trans h.test, k.phdone.trans h.phdone, fun hs => k.failed (h.failed hs),
    fun hs => (k.item (by rw [h.item hs]; exact hs)).trans (h.item hs)⟩

theorem RunHold.ite {s t u : State} {c : Prop} [Decidable c] (ht : RunHold s t) (hu : RunHold s u) :
    RunHold s (if c then t else u) := by split <;> assumption

theorem RunHold.each {α : Type} {s : State} (l : List α) (f : State → α → State) (hf : ∀ t a, RunHold t (f t a)) :
    RunHold s (s.each l f) := by
  unfold State.each
  induction l generalizing s with
  | nil => exact .refl s
  | cons a l ih => exact (hf s a).trans ih

theorem OnlyAt.runHold {s t : State} (h : OnlyAt BesideTests s t) : RunHold s t :=
  ⟨congrArg SysH.test h.sysSame, h.phdone, fun hs => by rw [h.sysSame]; exact hs, fun _ => State.fld_of_word h.bist⟩

theorem State.failItem_runHold (s : State) (item : Nat) : RunHold s (s.failItem item) := by
  refine ⟨?_, s.failItem_phdone item, fun _ => rfl, fun hs => ?_⟩
  · show (if s.fld SYS_BIST_FAILITEM = 0 then s.setFld SYS_BIST_FAILITEM item else s).sys.test = _
    split <;> rfl
  · show (if s.fld SYS_BIST_FAILITEM = 0 then s.setFld SYS_BIST_FAILITEM item else s).fld SYS_BIST_FAILITEM = _
    rw [if_neg hs]

theorem State.failItem_first (s : State) {item : Nat} (hitem : item < 256) (h : s.fld SYS_BIST_FAILITEM = 0) :
    (s.failItem item).fld SYS_BIST_FAILITEM = item := by
  show (if s.fld SYS_BIST_FAILITEM = 0 then s.setFld SYS_BIST_FAILITEM item else s).fld SYS_BIST_FAILITEM = _
  rw [if_pos h]
  exact (s.fld_setFld_same SYS_BIST_FAILITEM item (by simp) (by simp)).trans (Nat.mod_eq_of_lt hitem)

theorem State.loadTrims_beside (s : State) (ok : Bool) : OnlyAt BesideTests s (s.loadTrims ok) := by
  have hcmp : ∀ c ∈ List.range 48, BesideTests (.reg (CMP_STAT c)) := by decide
  have hcoul : ∀ k ∈ [0, 1], BesideTests (.reg (COUL_OFS k)) := by decide
  exact State.each_only (State.each_only (.refl _ s) _ _ (fun t c hc ht =>
    State.setFld_only (State.setFld_only ht _ _ (hcmp c hc)) _ _ (hcmp c hc))) _ _ (fun t k hk ht =>
    State.setFld_only ht _ _ (hcoul k hk))

theorem State.marchBank_beside (s : State) (b : Fin 5) (bad : Nat) : OnlyAt BesideTests s (s.marchBank b bad) := by
  have hrep : BesideTests (.reg (MEM_REP b)) := by decide +revert
  exact State.setOn_only (State.setFld_only (.refl _ s) _ _ hrep) _ _ hrep

theorem State.offlineRefs_runHold (s : State) (m : RefMeas) : RunHold s (s.offlineRefs m) := by
  have hops := testOps_beside
  have hitem (t : State) (c : Prop) [Decidable c] (i : Nat) : RunHold t (if c then t else t.failItem i) :=
    .ite (.refl t) (t.failItem_runHold i)
  have hfault (t : State) (c : Prop) [Decidable c] (x : Nat) : RunHold t (if c then t.fault srcSTRAP_FAULT x else t) :=
    .ite (State.fault_only (.refl _ t) _ _ hops.line).runHold (.refl t)
  have hrefs : RunHold s (s.setRefs m) := (State.setRefs_only (.refl _ s) m hops.refs).runHold
  have hagain (t : State) : RunHold t (t.phcntAgain m.phcnt) := (State.phcntAgain_only (.refl _ t) _ hops.again).runHold
  exact ((((hrefs.trans (hitem _ _ 7)).trans (hitem _ _ 3)).trans (hagain _)).trans (hfault _ _ _)).trans
    (RunHold.each _ _ (fun t r => (State.sealReading_only (.refl _ t) r hops.sealRead).runHold))

/-- The number of phases of the strap. -/
theorem length_strapPhases {c : Nat} (h : c < 32) : (finsWhere (fun n : Fin 16 => decide (n.val < c))).length = min 16 c := by
  have hall : ∀ c < 32, (finsWhere (fun n : Fin 16 => decide (n.val < c))).length = min 16 c := by decide
  exact hall c h

theorem offlineDone_clause (r : OffRes) (s : State) (htesting : s.testing 2 = true) (hcrc : r.cirrusCrc = false) :
    Gives (.offlineDone r) s (fun t => t.sys.test = none ∧ t.fld SYS_BIST_STATUS = 1 ∧
      t.fld SYS_BIST_PHDONE = 2 ^ min 16 (s.fld SYS_STRAP_PHCNT) - 1 ∧
      (s.fld SYS_BIST_FAILITEM = 0 → t.fld SYS_BIST_FAILITEM = 5)) := by
  have hops := testOps_beside
  obtain ⟨d, htest⟩ := State.test_of_testing htesting
  refine ⟨_, rfl, ?_⟩
  rw [if_neg (by simp [htesting])]
  extract_lets ps a b c e f g i
  have hps : ps.length = min 16 (s.fld SYS_STRAP_PHCNT) := length_strapPhases (s.fld_lt SYS_STRAP_PHCNT)
  have haDone : a.fld SYS_BIST_PHDONE = 2 ^ min 16 (s.fld SYS_STRAP_PHCNT) - 1 := by
    refine (s.fld_setFld_same SYS_BIST_PHDONE _ (by simp) (by simp)).trans ?_
    rw [hps]
    refine Nat.mod_eq_of_lt ?_
    have hle : 2 ^ min 16 (s.fld SYS_STRAP_PHCNT) ≤ 2 ^ 16 := Nat.pow_le_pow_right (by decide) (Nat.min_le_left _ _)
    have hpos : 0 < 2 ^ min 16 (s.fld SYS_STRAP_PHCNT) := Nat.two_pow_pos _
    have hw : SYS_BIST_PHDONE.width = 16 := rfl
    rw [hw]
    omega
  have haItem : a.fld SYS_BIST_FAILITEM = s.fld SYS_BIST_FAILITEM :=
    s.fld_setFld_ne (f := SYS_BIST_PHDONE) (g := SYS_BIST_FAILITEM) (2 ^ ps.length - 1) (by simp) (by simp) (.inr (.inl (by simp)))
  have haTest : a.sys.test = s.sys.test := rfl
  have hab : OnlyAt BesideTests a b := a.loadTrims_beside r.anvilCrc
  have hb : RunHold a b := hab.runHold
  have hc : c = b.failItem 5 := by
    unfold c
    rw [if_neg (by simp [hcrc])]
  clear_value a b c
  have hbItem : s.fld SYS_BIST_FAILITEM = 0 → b.fld SYS_BIST_FAILITEM = 0 :=
    fun h => (State.fld_of_word hab.bist).trans (haItem.trans h)
  have hprobe : RunHold f g := RunHold.each _ _ (fun t n =>
    (RunHold.ite (t.failItem_runHold 4) (.refl t)).trans (State.probeLive_only (.refl _ _) n _ (hops.legs n)).runHold)
  have hend : RunHold c (if i.on (MEM_REP_FAIL 2) then i.failItem 6 else i) :=
    ((((c.offlineRefs_runHold _).trans (.ite (e.failItem_runHold 1) (.refl e))).trans hprobe).trans
      (g.marchBank_beside 2 _).runHold).trans (.ite (i.failItem_runHold 6) (.refl i))
  generalize (if i.on (MEM_REP_FAIL 2) then i.failItem 6 else i) = u at hend
  have hbc : RunHold b c := hc ▸ b.failItem_runHold 5
  have hfailed : u.sys.testFailed = true := hend.failed (by rw [hc]; rfl)
  have hrun : u.sys.test = some d := ((hend.test.trans (hbc.test.trans hb.test)).trans haTest).trans htest
  have hpass : u.passTest = u.endTest 1 9 := if_pos hfailed
  obtain ⟨hnone, hstatus, hdone, hitem⟩ := u.endTest_run (code := 1) 9 (by decide) hrun
  rw [hpass]
  refine ⟨hnone, hstatus, ?_, fun h => ?_⟩
  · rw [hdone, hend.phdone, hbc.phdone, hb.phdone, haDone]
  · have hfive : c.fld SYS_BIST_FAILITEM = 5 := by
      rw [hc]
      exact b.failItem_first (by decide) (hbItem h)
    rw [hitem, hend.item (by rw [hfive]; decide), hfive]

end
end Sys2Proof.Machine

open Sys2Proof Sys2Proof.Machine

/-- Settles O9: a change and a run write SYS_LC and SYS_BIST through few operations, and all else that they do is beside these
(`BesideTests`). -/
theorem lifeCycleAndSelfTests : Obligations.LifeCycleAndSelfTests := by
  unfold Obligations.LifeCycleAndSelfTests
  exact ⟨goField_clause, goReturned_clause, lifecycleChangeDone_clause, selftestOnline_clause, selftestOffline_clause,
    onlineMarginCheck_clause, onlinePhaseTestDone_clause, offlineDone_clause⟩
end

section
/-! PROOF. What a start-up keeps of the supply, the reset and the device time (R59 to R66): its steps write these in few places, and
Doldrums, which is not armed, is not entered. -/

namespace Sys2Proof.Machine

/-! ### The relation -/

/-- The places that tell of the supply, of the reset and of the step. -/
def Place.ofBoot : Place → Bool
  | .reg o => o == PK_SHIP || o == SYS_RST || o == SYS_STATE
  | .sys | .devtime => true
  | _ => false

/-- The places beside these. -/
abbrev BesideBoot (l : Place) : Prop := l.ofBoot = false

/-- What a start-up keeps: the supply, Doldrums and whether it is armed, the reset, DEVTIME and, under `c`, the cause of the reset. -/
structure BootHold (c : Prop) (s t : State) : Prop where
  good : t.sys.biasGood = s.sys.biasGood
  doldrums : t.sys.doldrums = s.sys.doldrums
  held : t.sys.resetHeld = s.sys.resetHeld
  devtime : t.devtime = s.devtime
  ship : t.word PK_SHIP = s.word PK_SHIP
  rst : c → t.word SYS_RST = s.word SYS_RST

section
variable {c : Prop} {s t u : State}

theorem BootHold.refl (c : Prop) (s : State) : BootHold c s s := ⟨rfl, rfl, rfl, rfl, rfl, fun _ => rfl⟩

theorem BootHold.trans (h : BootHold c s t) (k : BootHold c t u) : BootHold c s u :=
  ⟨k.good.trans h.good, k.doldrums.trans h.doldrums, k.held.trans h.held, k.devtime.trans h.devtime, k.ship.trans h.ship,
    fun hc => (k.rst hc).trans (h.rst hc)⟩

theorem BootHold.ite {p : Prop} [Decidable p] (ht : BootHold c s t) (hu : BootHold c s u) : BootHold c s (if p then t else u) := by
  split <;> assumption

theorem BootHold.armOff (h : BootHold c s t) (hs : s.on PK_SHIP_ARM = false) : t.on PK_SHIP_ARM = false :=
  (State.on_of_word h.ship).trans hs

/-- An effect for each index of a list, each where Doldrums is not armed. -/
theorem BootHold.each {α : Type} (hs : s.on PK_SHIP_ARM = false) (l : List α) (f : State → α → State)
    (hf : ∀ t a, t.on PK_SHIP_ARM = false → BootHold c t (f t a)) : BootHold c s (s.each l f) := by
  unfold State.each
  induction l generalizing s with
  | nil => exact .refl c s
  | cons a l ih => exact (hf s a hs).trans (ih ((hf s a hs).armOff hs))

theorem OnlyAt.bootHold (h : OnlyAt BesideBoot s t) : BootHold c s t :=
  have hsys : t.sys = s.sys := h .sys (by decide)
  ⟨by rw [hsys], by rw [hsys], by rw [hsys], h .devtime (by decide), h.word (by decide), fun _ => h.word (by decide)⟩

theorem State.withSys_bootHold (s : State) (x : SysH)
    (hx : x.biasGood = s.sys.biasGood ∧ x.doldrums = s.sys.doldrums ∧ x.resetHeld = s.sys.resetHeld) :
    BootHold c s { s with sys := x } := ⟨hx.1, hx.2.1, hx.2.2, rfl, rfl, fun _ => rfl⟩

theorem State.setFld_bootHold (s : State) {f : Fld} (v : Nat) (hf : PK_SHIP ≠ f.off ∧ SYS_RST ≠ f.off) :
    BootHold c s (s.setFld f v) :=
  ⟨rfl, rfl, rfl, rfl, s.word_setFld_off v hf.1, fun _ => s.word_setFld_off v hf.2⟩

theorem State.setFld_state_bootHold (s : State) {f : Fld} (v : Nat) (hf : f.off = SYS_STATE) : BootHold c s (s.setFld f v) :=
  s.setFld_bootHold v (by rw [hf]; decide)

theorem State.setStep_bootHold (s : State) (k : Nat) : BootHold c s (s.setStep k) := s.setFld_state_bootHold k rfl
end

/-! ### What the steps do beside these -/

/-- The footprints of what a start-up does beside the supply, the reset and the step. -/
structure StartOps (P : Place → Prop) : Prop where
  flags : FP.setFlags P SYS_BOOT
  capture : FP.capture P
  captureFatal : FP.captureFatal P
  status : FP.setSrc P FLT_STATUS_LO FLT_STATUS_HI
  pend : FP.setSrc P FLT_PEND_LO FLT_PEND_HI
  count : ∀ n, FP.countSrc P n
  grace : FP.startGrace P
  pulse : FP.faultPulse P
  portsOff : FP.portsOff P
  hwOnly : FP.feedsHwOnly P
  endAll : FP.endAll P
  thr : FP.syncThr P
  jevent : FP.jevent P
  held : FP.faultHeld P
  run : FP.faultRun P
  memCe : FP.memCe P 3
  memUe : FP.memUe P (.entry 0)
  trim : ∀ c : Fin 48, P (.reg (CMP_STAT c))
  coul : ∀ k : Fin 2, P (.reg (COUL_OFS k))
  march : ∀ b : Fin 5, P (.reg (MEM_REP b))
  cmp : ∀ c, FP.cmpSee P c
  refs : FP.setRefs P
  again : FP.phcntAgain P
  sealBoot : FP.bootSeal P
  legs : ∀ n, FP.probeLive P n
  phase : ∀ n, FP.setPh P n
  probe : FP.syncProbe P
  packLeft : ∀ k, FP.packLeft P k
  inserted : ∀ k, FP.inserted P k
  sda : ∀ p, FP.sdaCheck P p
  ident : ∀ k, FP.identDone P k
  back : FP.feedsBack P
  wake : ∀ k, FP.chgWake P k
  feeds : FP.syncFeeds P
  group : FP.settleGroup P
  ports : FP.syncPorts P
  apply : FP.applySync P
  elig : ∀ k, FP.syncElig P k
  finish : FP.finish P
  failed : ∀ n, FP.checkFailed P n
  feed : ∀ n, FP.setFeed P n
  overHb : FP.handbackOver P
  startHb : FP.handbackStart P
  stop : FP.stopPower P
  wb : ∀ k, FP.wbDue P k
  pfl : FP.setPfl P
  takeover : FP.takeover P
  budget : FP.budgetDrop P
  flt : P .flt
  chgg : P .chgg
  feedAt : ∀ n, P (.feed n)
  phAt : ∀ n, P (.ph n)
  chgAt : ∀ k, P (.chg k)
  regs : ∀ o ∈ [THM_STAT, FLT_FIRST, FLT_MULTI, SYS_BIST, SYS_BOOT, SYS_STRAP, SYS_ID, SYS_LC, SYS_FEEDCHK, MEM_STAT, PH_PMAP,
    FEED_GSTAT, TW_M_STAT], P (.reg o)
  eff : ∀ n : Fin 4, P (.reg (FEED_EFF n))
  port : ∀ n : Fin 16, P (.reg (PH_CFG n))

/-- Each footprint is a conjunction of places beside these: the proof walks the conjunction. -/
theorem startOps_of_beside {P : Place → Prop} (hP : ∀ l, BesideBoot l → P l) : StartOps P := by
  constructor
  case regs => exact fun o ho => hP _ (by revert o; decide)
  all_goals
    repeat' first
      | exact hP _ (by decide +revert)
      | apply And.intro
      | intro _

theorem startOps_beside : StartOps BesideBoot := startOps_of_beside (fun _ h => h)

/-! ### The operations that write `sys` -/

section
variable {c : Prop} (s : State)

theorem State.endTest_bootHold (code status : Nat) : BootHold c s (s.endTest code status) := by
  have hops := startOps_beside
  unfold State.endTest
  cases s.sys.test with
  | none => exact .refl c s
  | some d =>
    dsimp -zeta only
    extract_lets u _ v w
    have hu : OnlyAt BesideBoot s u := by
      unfold u
      split
      · next n _ =>
        exact .ite (State.setPh_only (.refl _ s) n _ (hops.phase n)) (.ite (State.setPh_only (.refl _ s) n _ (hops.phase n)) (.refl _ s))
      · exact .refl _ s
    have hw : OnlyAt BesideBoot v w := State.syncPorts_only (State.setFld_only (.refl _ v) _ code (hops.regs _ (by simp))) hops.ports
    have hv : BootHold c u v := ⟨rfl, rfl, rfl, rfl, rfl, fun _ => rfl⟩
    exact (hu.bootHold.trans hv).trans (State.finish_only hw _ _ _ _ hops.finish).bootHold

/-- An extraction stop that begins alone may wait for records; it leads to no more than its entry (R108). -/
theorem State.extractionStop_bootHold (obj : Nat) : BootHold c s (s.extractionStop obj) := by
  have hops := startOps_beside
  unfold State.extractionStop State.stopBegin
  refine .ite (.refl c s) ?_
  extract_lets u v _
  have hv : BootHold c s v := (State.each_only (State.stopPower_only (.refl _ s) hops.stop) _ _
    (fun _ k _ ht => State.wbDue_only ht k (hops.wb k))).bootHold
  have hseq (q : Option StopSeq) : BootHold c v { v with sys := { v.sys with seq := q } } := ⟨rfl, rfl, rfl, rfl, rfl, fun _ => rfl⟩
  unfold State.stopNext
  dsimp only
  refine hv.trans (.ite (hseq _) ((hseq none).trans ?_))
  exact (State.jevent_only (.refl _ _) _ _ _ _ _ _ hops.jevent).bootHold

/-- The loss of the feeds where Doldrums is not armed (R92, R175). -/
theorem State.feedsLost_bootHold (harm : s.on PK_SHIP_ARM = false) : BootHold c s s.feedsLost := by
  have hops := startOps_beside
  unfold State.feedsLost
  extract_lets u _ v w
  have hv : OnlyAt BesideBoot s v := State.withChgg_only (State.setPfl_only (State.setOn_only (.refl _ s) _ _
    (hops.regs _ (by simp))) _ hops.pfl) _ hops.chgg
  have hw : BootHold c s w := (State.takeover_only hv hops.takeover).bootHold.trans ((State.endTest_bootHold _ 4 8).trans
    (State.budgetDrop_only (.refl _ _) hops.budget).bootHold)
  rw [if_neg (by rw [hv.bootHold (c := True) |>.armOff harm]; decide)]
  refine .ite (.ite (hw.trans (w.extractionStop_bootHold _)) (hw.trans ?_)) hw
  exact (State.setOn_only (.refl _ w) _ _ (hops.regs _ (by simp))).bootHold

theorem State.feedChanged_bootHold (harm : s.on PK_SHIP_ARM = false) : BootHold c s s.feedChanged := by
  have hops := startOps_beside
  unfold State.feedChanged
  extract_lets u v
  have hv : OnlyAt BesideBoot s v :=
    have hu : OnlyAt BesideBoot s u := State.syncFeeds_only (.refl _ s) hops.feeds
    OnlyAt.ite (State.handbackOver_only hu hops.overHb) hu
  exact hv.bootHold.trans (.ite (v.feedsLost_bootHold ((hv.bootHold (c := True)).armOff harm)) (.refl c v))

theorem State.qualify_bootHold (n : Fin 4) (harm : s.on PK_SHIP_ARM = false) : BootHold c s (s.qualify n) := by
  have hops := startOps_beside
  have hmarked : OnlyAt BesideBoot s (s.marked n) := State.modFeed_only (State.setQual_only (State.setFeed_only
    (State.setCode_only (.refl _ s) _ _ (hops.eff n)) n _ (hops.feed n)) n _ (hops.regs _ (by simp))) n _ (hops.feedAt n)
  rw [State.qualify_eq]
  refine hmarked.bootHold.trans ((State.feedChanged_bootHold _ ((hmarked.bootHold (c := True)).armOff harm)).trans ?_)
  exact (State.handbackStart_only (State.settleGroup_only (.refl _ _) hops.group) n hops.startHb).bootHold

theorem State.checkPassed_bootHold (n : Fin 4) (harm : s.on PK_SHIP_ARM = false) : BootHold c s (s.checkPassed n) := by
  have hops := startOps_beside
  unfold State.checkPassed
  extract_lets u f
  have hu : OnlyAt BesideBoot s u := State.setChk_only (.refl _ s) n _ (hops.regs _ (by simp))
  refine .ite hu.bootHold (.ite (hu.bootHold.trans (u.qualify_bootHold n ((hu.bootHold (c := True)).armOff harm))) ?_)
  exact (State.setFeed_only hu n _ (hops.feed n)).bootHold

/-! ### The collector between the steps -/

theorem State.safeEntry_bootHold : BootHold c s s.safeEntry := by
  have hops := startOps_beside
  unfold State.safeEntry
  refine .ite (.refl c s) ?_
  extract_lets _ _ u v w x
  have hu : BootHold c s u := ⟨rfl, rfl, rfl, rfl, rfl, fun _ => rfl⟩
  have hv : BootHold c u v := (State.setOn_only (.refl _ u) _ _ (hops.regs _ (by simp))).bootHold
  have hw : BootHold c v w := .ite (v.setFld_state_bootHold 3 rfl) (.refl c v)
  have hx : BootHold c w x := ((State.faultHeld_only (.refl _ w) hops.held).bootHold.trans (State.endTest_bootHold _ 4 8)).trans
    (State.feedsHwOnly_only (State.portsOff_only (.refl _ _) hops.portsOff) hops.hwOnly).bootHold
  exact (((hu.trans hv).trans hw).trans hx).trans
    (State.syncThr_only (State.endAll_only (.refl _ x) _ _ hops.endAll) hops.thr).bootHold
end
end Sys2Proof.Machine
end

section
/-! PROOF. The steps of a start-up keep the supply, the reset and the device time; the loss of the link in step 3 filters the registers,
which SYS_RST outlasts where these stand in their order (R59 to R66). -/

namespace Sys2Proof.Machine

/-! ### Registers in their order -/

section
variable {s t : State}

/-- The registers stand in their canonical order. -/
abbrev State.Canon (s : State) : Prop := s.regs.wf = true

theorem State.Canon.setWord (h : s.Canon) (o : Nat) (w : Word) : (s.setWord o w).Canon := RegFile.wf_set o w h
theorem State.Canon.setFld (h : s.Canon) (f : Fld) (v : Nat) : (s.setFld f v).Canon := RegFile.wf_setFld f v h
theorem State.Canon.setOn (h : s.Canon) (f : Fld) (b : Bool) : (s.setOn f b).Canon := h.setFld f _
theorem State.Canon.setCode (h : s.Canon) (f : Fld) (q : Rat) : (s.setCode f q).Canon := h.setFld f _

theorem State.Canon.ite {p : Prop} [Decidable p] (hs : s.Canon) (ht : t.Canon) : (if p then s else t).Canon := by
  split <;> assumption

theorem State.Canon.count (h : s.Canon) (f : Fld) : (s.count f).Canon := .ite (h.setFld f _) h

theorem State.Canon.each {α : Type} (h : s.Canon) (l : List α) (f : State → α → State) (hf : ∀ t a, t.Canon → (f t a).Canon) :
    (s.each l f).Canon := by
  unfold State.each
  induction l generalizing s with
  | nil => exact h
  | cons a l ih => exact ih (hf s a h)

theorem State.Canon.send (h : s.Canon) (o : HostOut) : (s.send o).Canon := .ite (h.setOn HIF_LNK_L1 false) (.ite h h)

theorem State.Canon.msix (h : s.Canon) (v : Nat) : (s.msix v).Canon := by
  unfold State.msix
  split
  · exact .ite h (.ite (h.setWord _ _) (h.send _))
  · exact h

theorem State.Canon.lineRise (h : s.Canon) (src : Nat) (a : State) : (lineRise src a s).Canon :=
  .ite (.ite (State.Canon.msix (s := s.alertRise src) h _) h) h

/-- Flags are set in a register, and what their line does writes registers one by one. -/
theorem State.Canon.setFlags (h : s.Canon) (o : Nat) (m : Word) : (s.setFlags o m).Canon := by
  unfold State.setFlags
  extract_lets u _ v
  have hv : v.Canon := by
    unfold v
    split
    · exact .ite (h.setWord o _) (h.setWord o _)
    · exact h.setWord o _
  split
  · exact hv.lineRise _ s
  · exact hv
end

/-! ### The filter of the link's loss -/

theorem RegFile.get_eq_zero_of_headAbove {r : RegFile} {o : Nat} (h : RegFile.headAbove o r = true) : RegFile.get r o = 0 := by
  cases r with
  | nil => rfl
  | cons x r =>
    have hlt : o < x.1 := by simpa [RegFile.headAbove] using h
    unfold RegFile.get
    rw [if_neg (by omega), if_pos hlt]

/-- Leaving out entries above or below an offset leaves what it reads: entries above it stand before it in a canonical list alone. -/
theorem RegFile.get_filter {p : Nat × Word → Bool} {r : RegFile} {o : Nat}
    (h : (∀ x, p x = false → x.1 < o) ∨ RegFile.wf r = true ∧ ∀ x, p x = false → o < x.1) :
    RegFile.get (r.filter p) o = RegFile.get r o := by
  induction r with
  | nil => rfl
  | cons x r ih =>
    have htail : (∀ x, p x = false → x.1 < o) ∨ RegFile.wf r = true ∧ ∀ x, p x = false → o < x.1 := by
      refine h.imp_right (fun hw => ⟨?_, hw.2⟩)
      obtain ⟨hwf, -⟩ := hw
      simp only [RegFile.wf, Bool.and_eq_true] at hwf
      exact hwf.2
    cases hx : p x with
    | true =>
      rw [List.filter_cons_of_pos hx]
      unfold RegFile.get
      rw [ih htail]
    | false =>
      rw [List.filter_cons_of_neg (by simp [hx])]
      rcases h with h | ⟨hwf, h⟩
      · have hlt := h x hx
        rw [ih htail]
        conv_rhs => unfold RegFile.get
        rw [if_neg (by omega), if_neg (by omega)]
      · have hlt := h x hx
        have habove : RegFile.headAbove o (x :: r) = true := by simpa [RegFile.headAbove] using hlt
        have hrest : RegFile.headAbove o (r.filter p) = true := by
          have hall := (RegFile.wf_filter p hwf).2 o habove
          rwa [List.filter_cons_of_neg (by simp [hx])] at hall
        rw [RegFile.get_eq_zero_of_headAbove hrest, RegFile.get_eq_zero_of_headAbove habove]

theorem RegFile.get_foldl_set {l : List (Nat × Word)} {o : Nat} (h : ∀ p ∈ l, p.1 ≠ o) (r : RegFile) :
    RegFile.get (l.foldl (fun r p => r.set p.1 p.2) r) o = RegFile.get r o := by
  induction l generalizing r with
  | nil => rfl
  | cons p l ih =>
    have hne : o ≠ p.1 := Ne.symm (h p (by simp))
    exact (ih (fun q hq => h q (by simp [hq])) _).trans ((RegFile.get_set r p.1 p.2 o).trans (if_neg hne))

theorem State.Canon.resetRange {s : State} (h : s.Canon) (lo hi : Nat) : (s.resetRange lo hi).Canon :=
  RegFile.wf_foldl _ (fun _ _ hr => RegFile.wf_set _ _ hr) _ (RegFile.wf_filter _ h).1

theorem State.word_resetRange {s : State} {lo hi o : Nat} (h : hi ≤ o ∨ s.Canon ∧ o < lo) :
    (s.resetRange lo hi).word o = s.word o := by
  have hne : ∀ p ∈ powerOnRegs.filter (fun p => decide (lo ≤ p.1 ∧ p.1 < hi)), p.1 ≠ o := by
    intro p hp
    have hin : lo ≤ p.1 ∧ p.1 < hi := by simpa using (List.mem_filter.mp hp).2
    rcases h with h | ⟨-, h⟩ <;> omega
  refine (RegFile.get_foldl_set hne _).trans (RegFile.get_filter (h.imp (fun h x hx => ?_) (fun h => ⟨h.1, fun x hx => ?_⟩)))
  · have hin : lo ≤ x.1 ∧ x.1 < hi := by simpa using hx
    omega
  · have hin : lo ≤ x.1 ∧ x.1 < hi := by simpa using hx
    omega

section
variable {c : Prop} (s : State)

theorem State.resetRange_sys (lo hi : Nat) : (s.resetRange lo hi).sys = s.sys := rfl
theorem State.resetRange_devtime (lo hi : Nat) : (s.resetRange lo hi).devtime = s.devtime := rfl

theorem State.hifReset_bootHold (h : c → s.Canon) : BootHold c s s.hifReset := by
  unfold State.hifReset
  extract_lets u
  have hup : 0x3800 ≤ PK_SHIP ∧ 0x3E08 ≤ PK_SHIP := by decide
  have hlow : SYS_RST < 0x3000 ∧ SYS_RST < 0x3A00 := by decide
  have hship : u.word PK_SHIP = s.word PK_SHIP := (State.word_resetRange (.inl hup.2)).trans (State.word_resetRange (.inl hup.1))
  have hrst (hc : c) : u.word SYS_RST = s.word SYS_RST :=
    (State.word_resetRange (.inr ⟨(h hc).resetRange 0x3000 0x3800, hlow.2⟩)).trans (State.word_resetRange (.inr ⟨h hc, hlow.1⟩))
  have hsys : u.sys = s.sys := (State.resetRange_sys _ _ _).trans (s.resetRange_sys _ _)
  have htime : u.devtime = s.devtime := (State.resetRange_devtime _ _ _).trans (s.resetRange_devtime _ _)
  clear_value u
  exact ⟨by rw [hsys], by rw [hsys], by rw [hsys], htime, hship, hrst⟩

/-- The loss of the link after its registers are back at reset (R248, R261, R290). -/
def State.linkGone (s : State) : State :=
  let s := { s with aon := { s.aon with keyLoad := [] } }
  let s := s.each (List.finRange 2) (fun t k => t.modChg k (fun c => { c with load := [] }))
  let s := if s.fld SYS_BIST_SCOPE = 1 then s.endTest 4 8 else s
  s.endAll false (s.on FC_CTL_LDTHR)

theorem State.linkLost_eq : s.linkLost = (((s.setOn HIF_LNK_BME false).setOn HIF_LNK_L1 false).hifReset).linkGone := rfl

theorem State.linkGone_bootHold : BootHold c s s.linkGone := by
  have hops := startOps_beside
  unfold State.linkGone
  extract_lets _ x y z
  have hx : BootHold c s x := ⟨rfl, rfl, rfl, rfl, rfl, fun _ => rfl⟩
  have hy : BootHold c x y := (State.each_only (.refl _ x) _ _ (fun _ k _ ht =>
    State.modChg_only ht k _ (hops.chgAt k))).bootHold
  have hz : BootHold c y z := .ite (y.endTest_bootHold 4 8) (.refl c y)
  exact ((hx.trans hy).trans hz).trans (State.endAll_only (.refl _ z) _ _ hops.endAll).bootHold

theorem State.withHif_bootHold (x : HifH) : BootHold c s { s with hif := x } := ⟨rfl, rfl, rfl, rfl, rfl, fun _ => rfl⟩

theorem State.linkDown_bootHold (h : c → s.Canon) : BootHold c s s.linkDown := by
  have hlnk : BesideBoot (.reg HIF_LNK) := by decide
  have hdown : OnlyAt BesideBoot s ((((if s.on HIF_LNK_LINKUP then s.count HIF_LNK_LINKDN else s).setOn HIF_LNK_LINKUP false).setFld
      HIF_LNK_SPEED 0).setOn HIF_LNK_BME false |>.setOn HIF_LNK_L1 false) :=
    State.setOn_only (State.setOn_only (State.setFld_only (State.setOn_only
      (.ite (State.count_only (.refl _ s) _ hlnk) (.refl _ s)) _ false hlnk) _ 0 hlnk) _ false hlnk) _ false hlnk
  have hcanon (hc : c) := ((((State.Canon.ite (p := s.on HIF_LNK_LINKUP = true) ((h hc).count HIF_LNK_LINKDN) (h hc)).setOn
    HIF_LNK_LINKUP false).setFld HIF_LNK_SPEED 0).setOn HIF_LNK_BME false).setOn HIF_LNK_L1 false
  exact ((hdown.bootHold.trans (State.hifReset_bootHold _ hcanon)).trans (State.linkGone_bootHold _)).trans (State.withHif_bootHold _ _)

/-! ### The steps -/

theorem State.bootFail_beside (k code : Nat) : OnlyAt BesideBoot s (s.bootFail k code) := by
  have hops := startOps_beside
  have hflags : OnlyAt BesideBoot s (s.setFlags SYS_BOOT (1#32 <<< (3 + k))) := State.setFlags_only (.refl _ s) _ _ hops.flags
  exact .ite (State.setFld_only hflags _ _ (hops.regs _ (by simp))) hflags

theorem State.failIf_beside (p : Prop) [Decidable p] (k code : Nat) : OnlyAt BesideBoot s (if p then s else s.bootFail k code) :=
  .ite (.refl _ s) (s.bootFail_beside k code)

theorem State.strapFault_beside : OnlyAt BesideBoot s s.strapFault :=
  (State.fault_only (.refl _ s) _ _ startOps_beside.flt).trans (State.bootFail_beside _ 3 0x31)

theorem State.strapFault_canon {s : State} (h : s.Canon) : s.strapFault.Canon := by
  have hfault : (s.fault srcSTRAP_FAULT (s.word SYS_STRAP).toNat).Canon := h
  have hflags := hfault.setFlags SYS_BOOT (1#32 <<< (3 + 3))
  exact .ite (hflags.setFld _ _) hflags

/-- Step 3; without a host the link is given up, which filters the registers (R51, R248). -/
theorem State.bootStraps_bootHold (r : Boot) (h : c → s.Canon) : BootHold c s (s.bootStraps r) := by
  have hops := startOps_beside
  unfold State.bootStraps
  extract_lets w a b pin d e f g k
  have ha : BootHold c s a := (s.setStep_bootHold 3).trans
    (State.setWord_only (.refl _ (s.setStep 3)) SYS_STRAP w (hops.regs _ (by simp))).bootHold
  have hb : OnlyAt BesideBoot a b := .ite (.refl _ a) a.strapFault_beside
  have hd : OnlyAt BesideBoot a d := .ite hb (State.journal_only hb _ hops.jevent)
  have he : OnlyAt BesideBoot a e := .ite (State.journal_only hd _ hops.jevent) hd
  have hf : OnlyAt BesideBoot a f := State.setFld_only he _ _ (hops.regs _ (by simp))
  have hg : OnlyAt BesideBoot a g := State.each_only hf _ _ (fun _ n _ ht =>
    State.setFld_only (State.setFld_only ht _ _ (hops.port n)) _ _ (hops.regs _ (by simp)))
  have hcanon (hc : c) : g.Canon := by
    have hca : a.Canon := (State.Canon.setFld (h hc) SYS_STATE_STEP 3).setWord SYS_STRAP w
    have hcb : b.Canon := .ite hca (State.strapFault_canon hca)
    have hcd : d.Canon := .ite hcb hcb
    have hce : e.Canon := .ite hcd hcd
    exact (hce.setFld _ _).each _ _ (fun t n ht => (ht.setFld _ _).setFld _ _)
  have hk : BootHold c g k := .ite (g.linkDown_bootHold hcanon) (.refl c g)
  exact ((ha.trans hg.bootHold).trans hk).trans (k.withSys_bootHold _ ⟨rfl, rfl, rfl⟩)

/-- The collector between the steps; only a fatal event reaches the mode (R392 to R398, R407). -/
theorem State.collect_bootHold : BootHold c s s.collect := by
  have hops := startOps_beside
  unfold State.collect
  refine .ite (.refl c s) ?_
  have hlines : BootHold c s { s with flt := { s.flt with lines := [] } } := ⟨rfl, rfl, rfl, rfl, rfl, fun _ => rfl⟩
  refine hlines.trans ?_
  generalize ({ s with flt := { s.flt with lines := [] } } : State) = u
  generalize s.flt.lines = l
  unfold State.recordEvents
  extract_lets m fatal a grace b first rest d e f g
  clear_value first fatal
  have ha : OnlyAt BesideBoot u a := State.each_only (.refl _ u) _ _ (fun _ x _ ht =>
    State.countSrc_only (State.setSrc_only ht _ _ _ hops.status) _ (hops.count _))
  have hb : OnlyAt BesideBoot u b := State.each_only ha _ _ (fun _ x _ ht =>
    have hpend := State.setSrc_only ht _ _ x.src hops.pend
    OnlyAt.ite (State.startGrace_only hpend _ hops.grace) hpend)
  have hd : OnlyAt BesideBoot u d := by
    unfold d
    split
    · exact State.capture_only hb _ hops.capture
    · exact hb
  have he : OnlyAt BesideBoot u e := State.each_only hd _ _ (fun _ _ _ ht =>
    State.count_only (State.setOn_only ht _ true (hops.regs _ (by simp))) _ (hops.regs _ (by simp)))
  have hf : OnlyAt BesideBoot u f := by
    unfold f
    split
    · exact State.captureFatal_only he _ hops.captureFatal
    · exact he
  have hg : OnlyAt BesideBoot u g := .ite (State.faultPulse_only hf hops.pulse) hf
  split
  · exact hg.bootHold.trans (.ite (.refl c g) (g.safeEntry_bootHold.trans
      (State.jevent_only (.refl _ _) _ _ _ _ _ _ hops.jevent).bootHold))
  · exact hg.bootHold

theorem State.loadTrims_besideBoot (ok : Bool) : OnlyAt BesideBoot s (s.loadTrims ok) := by
  have hops := startOps_beside
  have hcmp : OnlyAt BesideBoot s (s.each (List.range 48) (fun t c =>
      let w := if ok then Config.cmpTrim c else Config.cmpTrimDefault c
      (t.setFld (CMP_STAT_TRIMA c) (w.toNat % 64)).setFld (CMP_STAT_TRIMB c) (w.toNat / 64))) :=
    State.each_only (.refl _ s) _ _ (fun _ x hx ht =>
      have hreg := hops.trim ⟨x, List.mem_range.mp hx⟩
      State.setFld_only (State.setFld_only ht _ _ hreg) _ _ hreg)
  refine State.each_only hcmp _ _ (fun t k hk ht => State.setFld_only ht _ _ ?_)
  have hk2 : k < 2 := by
    simp only [List.mem_cons, List.not_mem_nil, or_false] at hk
    omega
  exact hops.coul ⟨k, hk2⟩

theorem State.bootFuses_bootHold (r : Boot) : BootHold c s (s.bootFuses r) := by
  have hops := startOps_beside
  unfold State.bootFuses
  extract_lets a b d e f _ g h k
  have ha : BootHold c s a := s.setStep_bootHold 4
  have hb : OnlyAt BesideBoot a b :=
    State.setFld_only (State.setFld_only (.refl _ a) _ _ (hops.regs _ (by simp))) _ _ (hops.regs _ (by simp))
  have hd : OnlyAt BesideBoot a d := State.setFld_only hb _ _ (hops.regs _ (by simp))
  have he : OnlyAt BesideBoot a e := State.each_only hd _ _ (fun _ b _ ht => State.setFld_only ht _ _ (hops.march b))
  have hf : OnlyAt BesideBoot a f := he.trans (e.loadTrims_besideBoot _)
  have hg : BootHold c f g := f.withSys_bootHold _ ⟨rfl, rfl, rfl⟩
  have hk : OnlyAt BesideBoot g k := (g.failIf_beside _ 4 0x41).trans (State.failIf_beside _ _ 4 0x42)
  have hend : OnlyAt BesideBoot g (if k.lifecycle == 0 && !k.on SYS_STRAP_TESTEN then k.bootFail 4 0x01 else k) :=
    .ite (hk.trans (k.bootFail_beside 4 0x01)) hk
  exact ((ha.trans hf.bootHold).trans hg).trans hend.bootHold

theorem State.bootSram_bootHold (r : Boot) (cold : Bool) : BootHold c s (s.bootSram r cold) := by
  have hops := startOps_beside
  unfold State.bootSram
  extract_lets a b d e f _ g h
  have ha : BootHold c s a := s.setStep_bootHold 5
  have hb : OnlyAt BesideBoot a b := State.each_only (.refl _ a) _ _ (fun _ b _ ht =>
    State.setOn_only (State.setFld_only ht _ _ (hops.march b)) _ _ (hops.march b))
  have hd : OnlyAt BesideBoot a d := .ite (hb.trans (b.bootFail_beside 5 0x51)) hb
  have hf : OnlyAt BesideBoot a f := State.setOn_only (State.setFld_only (State.setWord_only hd _ 0 (hops.regs _ (by simp))) _ 3
    (hops.regs _ (by simp))) _ _ (hops.regs _ (by simp))
  have hg : BootHold c f g := ⟨rfl, rfl, rfl, rfl, rfl, fun _ => rfl⟩
  have hh : OnlyAt BesideBoot g h := State.each_only (.refl _ g) _ _ (fun _ e _ ht => State.memCe_only ht 3 _ _ hops.memCe)
  have hend : OnlyAt BesideBoot g (h.each r.b3bad (fun t e =>
      t.memUe (.entry e.1) ⟨.scrubber, false⟩ (memAddr 3 e.2.1 .scrubber e.2.2))) :=
    State.each_only hh _ _ (fun _ e _ ht => State.memUe_only ht _ _ _ hops.memUe)
  exact ((ha.trans hf.bootHold).trans hg).trans (.ite (.refl c g) hend.bootHold)

theorem State.bootLink_bootHold (r : Boot) : BootHold c s (s.bootLink r) := by
  have hops := startOps_beside
  unfold State.bootLink
  extract_lets a _ b d e
  have ha : BootHold c s a := s.setStep_bootHold 6
  have hb : BootHold c a b := a.withSys_bootHold _ ⟨rfl, rfl, rfl⟩
  have hd : OnlyAt BesideBoot b d := State.each_only (.refl _ b) _ _ (fun _ n _ ht =>
    State.modPh_only ht n _ (hops.phAt n))
  have he : OnlyAt BesideBoot b e := State.each_only hd _ _ (fun _ c _ ht => State.cmpSee_only ht c _ (hops.cmp c))
  exact (ha.trans hb).trans (he.trans (e.failIf_beside _ 6 0x61)).bootHold

theorem State.bootRefs_bootHold (r : Boot) : BootHold c s (s.bootRefs r) := by
  have hops := startOps_beside
  unfold State.bootRefs
  extract_lets m a b d e f first g h
  have ha : BootHold c s a := (s.setStep_bootHold 7).trans (State.setRefs_only (.refl _ _) m hops.refs).bootHold
  have he : OnlyAt BesideBoot a e := ((a.failIf_beside _ 7 0x71).trans (b.failIf_beside _ 7 0x72)).trans (d.failIf_beside _ 7 0x73)
  have hf : OnlyAt BesideBoot a f := State.each_only he _ _ (fun _ n _ ht =>
    State.modFeed_only ht n _ (hops.feedAt n))
  have hg : OnlyAt BesideBoot a g := State.phcntAgain_only hf _ hops.again
  have hh : OnlyAt BesideBoot a h := .ite (hg.trans g.strapFault_beside) hg
  exact ha.trans (State.bootSeal_only hh m hops.sealBoot).bootHold

theorem State.bootLoop_bootHold (r : Boot) : BootHold c s (s.bootLoop r) :=
  (s.setStep_bootHold 8).trans (.ite (State.bootFail_beside _ 8 0x81).bootHold (.refl c _))

theorem State.bootFeeds_bootHold (r : Boot) (up : Bool) (harm : s.on PK_SHIP_ARM = false) : BootHold c s (s.bootFeeds r up) := by
  have hops := startOps_beside
  have hstep : BootHold c s (s.setStep 9) := s.setStep_bootHold 9
  refine hstep.trans (.each (hstep.armOff harm) _ _ (fun t n hn => ?_))
  extract_lets chk u wait v w
  have hu : OnlyAt BesideBoot t u := State.modFeed_only (.refl _ t) n _ (hops.feedAt n)
  have hv : OnlyAt BesideBoot t v := .ite (State.setFeed_only hu n _ (hops.feed n)) hu
  have hchk (x : ChkRes) : OnlyAt BesideBoot v (v.setChk n x) := State.setChk_only (.refl _ v) n x (hops.regs _ (by simp))
  have hw : OnlyAt BesideBoot v w := (v.bootFail_beside 9 0).trans (State.checkFailed_only (.refl _ _) n _ (hops.failed n))
  have hfail : OnlyAt BesideBoot v (if w.feedSt n = .check then w.setFeed n .failed else w) :=
    .ite (State.setFeed_only hw n _ (hops.feed n)) hw
  have hpass : BootHold c v (if v.feedSt n = .check then v.checkPassed n else v.setChk n .pass) :=
    .ite (v.checkPassed_bootHold n ((hv.bootHold (c := True)).armOff hn)) (hchk _).bootHold
  exact hv.bootHold.trans (.ite (.refl c v) (.ite (hchk _).bootHold (.ite (hchk _).bootHold (.ite (hchk _).bootHold
    (.ite hpass hfail.bootHold)))))

theorem State.bootLegs_bootHold (r : Boot) : BootHold c s (s.bootLegs r) := by
  have hops := startOps_beside
  refine (s.setStep_bootHold 10).trans (State.each_only (.refl _ _) _ _ (fun t n _ ht => ?_)).bootHold
  extract_lets u v w
  have hu : OnlyAt BesideBoot t u := State.modPh_only (.refl _ t) n _ (hops.phAt n)
  have hw : OnlyAt BesideBoot t w := State.probeLive_only (State.syncProbe_only (State.setPh_only hu n _ (hops.phase n)) n hops.probe)
    n _ (hops.legs n)
  exact ht.trans (.ite (hw.trans (w.bootFail_beside 10 0)) hw)

theorem State.bootPacks_bootHold (r : Boot) : BootHold c s (s.bootPacks r) := by
  have hops := startOps_beside
  refine (s.setStep_bootHold 11).trans (State.each_only (.refl _ _) _ _ (fun t k _ ht => ?_)).bootHold
  extract_lets u v
  have hu : OnlyAt BesideBoot t u := .ite (State.packLeft_only (.refl _ t) k (hops.packLeft k)) (.refl _ t)
  have hv : OnlyAt BesideBoot t v := State.identDone_only (State.sdaCheck_only (State.inserted_only hu k (hops.inserted k)) _ _
    (hops.sda _)) k _ (hops.ident k)
  exact ht.trans (.ite (hv.trans (v.failIf_beside _ 11 0)) hu)

/-! ### The end of the sequence -/

/-- What the end of a start-up does from step 12 on: the step stays. -/
structure EndHold (c : Prop) (s t : State) : Prop where
  boot : BootHold c s t
  step : t.fld SYS_STATE_STEP = s.fld SYS_STATE_STEP

end

section
variable {c : Prop} {s t u : State}

theorem EndHold.trans (h : EndHold c s t) (k : EndHold c t u) : EndHold c s u := ⟨h.boot.trans k.boot, k.step.trans h.step⟩

theorem OnlyAt.endHold (h : OnlyAt BesideBoot s t) : EndHold c s t := ⟨h.bootHold, h.fld (by decide)⟩

theorem State.setFld_endHold (s : State) {f : Fld} (v : Nat) (hf : f.off = SYS_STATE) (hfit : f.Fits) (hd : f.hi < 4 ∨ 7 < f.lo) :
    EndHold c s (s.setFld f v) :=
  ⟨s.setFld_state_bootHold v hf, s.fld_setFld_ne v hfit (by simp) (.inr hd.symm)⟩

/-- The end of the sequence is at step 12, in each of its three modes (R61, R76, R412). -/
theorem State.bootEnd_spec (s : State) : BootHold c s s.bootEnd ∧ s.bootEnd.fld SYS_STATE_STEP = 12 := by
  have hops := startOps_beside
  unfold State.bootEnd
  extract_lets a b hw d e m
  have ha : EndHold c (s.setStep 12) a := State.setFld_endHold _ _ rfl (by simp) (.inr (by decide))
  have hmode (k : Nat) : EndHold c a (a.setFld SYS_STATE_MODE k) := a.setFld_endHold k rfl (by simp) (.inl (by decide))
  have hsafe : EndHold c a (((a.setFld SYS_STATE_MODE 3).faultHeld).feedsHwOnly) :=
    (hmode 3).trans (State.feedsHwOnly_only (State.faultHeld_only (.refl _ _) hops.held) hops.hwOnly).endHold
  have htalk : EndHold c a (((a.setFld SYS_STATE_MODE 2).faultHeld.jevent .sys 0x10 0 0 (a.word SYS_BOOT) 0).feedsHwOnly) :=
    (hmode 2).trans (State.feedsHwOnly_only (State.jevent_only (State.faultHeld_only (.refl _ _) hops.held) _ _ _ _ _ _
      hops.jevent) hops.hwOnly).endHold
  have hb : EndHold c a b := ((hmode 1).trans (State.setFld_endHold _ _ rfl (by simp) (.inr (by decide)))).trans
    (State.faultRun_only (.refl _ _) hops.run).endHold
  have hd : OnlyAt BesideBoot b d := State.each_only (.refl _ b) _ _ (fun _ n _ ht => State.setFeed_only ht n _ (hops.feed n))
  have he : OnlyAt BesideBoot b e := .ite hd (State.feedsBack_only hd hops.back)
  have hrun : EndHold c a ((e.chgWake 0).chgWake 1) :=
    hb.trans (State.chgWake_only (State.chgWake_only he 0 (hops.wake 0)) 1 (hops.wake 1)).endHold
  have hm : EndHold c a m := by
    unfold m
    split
    · exact hsafe
    · split
      · exact htalk
      · exact hrun
  have hsync : OnlyAt BesideBoot m ((((m.syncFeeds.settleGroup).syncPorts).applySync.syncThr.syncElig 0).syncElig 1) :=
    State.syncElig_only (State.syncElig_only (State.syncThr_only (State.applySync_only (State.syncPorts_only (State.settleGroup_only
      (State.syncFeeds_only (.refl _ m) hops.feeds) hops.group) hops.ports) hops.apply) hops.thr) 0 (hops.elig 0)) 1 (hops.elig 1)
  obtain ⟨hboot, hstep⟩ := (ha.trans hm).trans hsync.endHold
  exact ⟨(s.setStep_bootHold 12).trans hboot, hstep.trans (s.fld_setFld_same SYS_STATE_STEP 12 (by decide) (by decide))⟩

/-- Steps 7, 8, 10 and 11 run with the link up; the feeds take their step 9 in either case (R61, R66). -/
theorem State.startUp_spec (s : State) (r : Boot) (cold : Bool) (harm : s.on PK_SHIP_ARM = false) :
    BootHold s.Canon { s with sys := { s.sys with resetHeld := false } } (s.startUp r cold) ∧
      (s.startUp r cold).fld SYS_STATE_STEP = 12 := by
  unfold State.startUp
  extract_lets _ a b d e u v w
  have hb : BootHold s.Canon a b := a.setFld_state_bootHold 0 rfl
  have hd : BootHold s.Canon a d := (((hb.trans (b.bootStraps_bootHold r (fun h => State.Canon.setFld (s := a) h _ 0))).trans
    (State.collect_bootHold _)).trans (State.bootFuses_bootHold _ r)).trans (State.collect_bootHold _)
  have he : BootHold s.Canon a e := (((hd.trans (d.bootSram_bootHold r cold)).trans
    (State.collect_bootHold _)).trans (State.bootLink_bootHold _ r)).trans (State.collect_bootHold _)
  have hu : BootHold s.Canon a u := (((he.trans (e.bootRefs_bootHold r)).trans
    (State.collect_bootHold _)).trans (State.bootLoop_bootHold _ r)).trans (State.collect_bootHold _)
  have hlinked : BootHold s.Canon a (((u.bootFeeds r true).collect.bootLegs r).collect.bootPacks r) :=
    ((((hu.trans (u.bootFeeds_bootHold r true (hu.armOff harm))).trans (State.collect_bootHold _)).trans
      (State.bootLegs_bootHold _ r)).trans (State.collect_bootHold _)).trans (State.bootPacks_bootHold _ r)
  have hv : BootHold s.Canon a v := .ite hlinked (he.trans (e.bootFeeds_bootHold r false (he.armOff harm)))
  have hw : BootHold s.Canon a w := hv.trans v.collect_bootHold
  exact ⟨hw.trans w.bootEnd_spec.1, (w.bootEnd_spec (c := True)).2⟩
end

end Sys2Proof.Machine
end

section
/-! PROOF. A device reset (R64, R71, R72, R415): what the blocks at reset keep, what the operations after them write, and the feeds that
go on through it. -/

namespace Sys2Proof.Machine

/-! ### A life-cycle change cut off -/

section
variable (s : State)

/-- It changes fuses and takes a free value; no register and no block. -/
theorem State.lcCut_hold : s.lcCut.regs = s.regs ∧ s.lcCut.devtime = s.devtime ∧ s.lcCut.sys.biasGood = s.sys.biasGood ∧
    s.lcCut.sys.doldrums = s.sys.doldrums := by
  unfold State.lcCut
  cases s.sys.lcTarget with
  | none => exact ⟨rfl, rfl, rfl, rfl⟩
  | some g => exact ⟨rfl, rfl, rfl, rfl⟩

theorem State.lcCut_rest : s.lcCut.aon = s.aon ∧ s.lcCut.mem = s.mem ∧ s.lcCut.out = s.out ∧ s.lcCut.rdata = s.rdata ∧
    s.lcCut.pending = s.pending := by
  unfold State.lcCut
  cases s.sys.lcTarget with
  | none => exact ⟨rfl, rfl, rfl, rfl, rfl⟩
  | some g => exact ⟨rfl, rfl, rfl, rfl, rfl⟩
end

/-! ### The registers at reset -/

/-- A bit that is 0 at power-on and 0 before the reset is 0 after it, whether kept or not (R7). -/
theorem getLsbD_resetRegs (old : RegFile) {o i : Nat} (hold : (RegFile.get old o).getLsbD i = false)
    (hreset : (RegFile.get powerOnRegs o).getLsbD i = false) : (RegFile.get (resetRegs old) o).getLsbD i = false := by
  unfold resetRegs
  generalize old ++ powerOnRegs = l
  generalize powerOnRegs = r at hreset
  induction l generalizing r with
  | nil => exact hreset
  | cons p l ih =>
    refine ih _ ?_
    dsimp only
    split
    · split
      · exact hreset
      · rw [RegFile.get_set]
        split
        · next heq => subst heq; simp [hold, hreset]
        · exact hreset
    · exact hreset

/-! ### What the operations after the reset keep -/

/-- What the operations of a device reset keep of the blocks at reset. -/
structure ResetHold (s t : State) : Prop where
  sys : t.sys = s.sys
  devtime : t.devtime = s.devtime
  ring : t.ring = s.ring
  en : ∀ n : Fin 16, t.ph[n].en = s.ph[n].en
  ship : t.word PK_SHIP = s.word PK_SHIP
  pres : t.word AUTH_PRES = s.word AUTH_PRES
  canon : s.Canon → t.Canon

section
variable {s t u : State}

theorem ResetHold.refl (s : State) : ResetHold s s := ⟨rfl, rfl, rfl, fun _ => rfl, rfl, rfl, id⟩

theorem ResetHold.trans (h : ResetHold s t) (k : ResetHold t u) : ResetHold s u :=
  ⟨k.sys.trans h.sys, k.devtime.trans h.devtime, k.ring.trans h.ring, fun n => (k.en n).trans (h.en n), k.ship.trans h.ship,
    k.pres.trans h.pres, fun hs => k.canon (h.canon hs)⟩

theorem ResetHold.ite {p : Prop} [Decidable p] (ht : ResetHold s t) (hu : ResetHold s u) : ResetHold s (if p then t else u) := by
  split <;> assumption

theorem ResetHold.each {α : Type} (h : ResetHold s t) (l : List α) (f : State → α → State) (hf : ∀ u a, ResetHold u (f u a)) :
    ResetHold s (t.each l f) := by
  unfold State.each
  induction l generalizing t with
  | nil => exact h
  | cons a l ih => exact ih (h.trans (hf t a))

/-- The places beside what `ResetHold` speaks of. -/
def Place.ofReset : Place → Bool
  | .reg o => o == PK_SHIP || o == AUTH_PRES
  | .sys | .devtime | .ring _ | .ph _ => true
  | _ => false

abbrev BesideReset (l : Place) : Prop := l.ofReset = false

theorem OnlyAt.resetHold (h : OnlyAt BesideReset s t) (hc : s.Canon → t.Canon) : ResetHold s t where
  sys := h .sys (by decide)
  devtime := h .devtime (by decide)
  ring := Vector.ext (fun n hn => h (.ring ⟨n, hn⟩) (by simp [Place.ofReset]))
  en n := congrArg PhH.en (h (.ph n) (by simp [Place.ofReset]))
  ship := h.word (by decide)
  pres := h.word (by decide)
  canon := hc
end

section
variable (s : State)

theorem State.setWord_resetHold {o : Nat} (w : Word) (ho : BesideReset (.reg o)) : ResetHold s (s.setWord o w) :=
  (State.setWord_only (.refl _ s) o w ho).resetHold (fun h => h.setWord o w)

theorem State.setFld_resetHold {f : Fld} (v : Nat) (hf : BesideReset (.reg f.off)) : ResetHold s (s.setFld f v) :=
  (State.setFld_only (.refl _ s) f v hf).resetHold (fun h => h.setFld f v)

theorem State.setOn_resetHold {f : Fld} (b : Bool) (hf : BesideReset (.reg f.off)) : ResetHold s (s.setOn f b) := s.setFld_resetHold _ hf

theorem State.modFeed_resetHold (n : Fin 4) (f : FeedH → FeedH) : ResetHold s (s.modFeed n f) :=
  ⟨rfl, rfl, rfl, fun _ => rfl, rfl, rfl, id⟩

/-- The registers of the charge and pack ports and of the phases lie beside. -/
theorem besideReset_port (k : Fin 2) : BesideReset (.reg (CHG_STAT k)) ∧ BesideReset (.reg (PK_Q_LO k)) ∧
    BesideReset (.reg (PK_Q_HI k)) := by decide +revert

theorem besideReset_phase (n : Fin 16) : BesideReset (.reg (PH_LRN n)) := by decide +revert

theorem besideReset_feed (n : Fin 4) : BesideReset (.reg (FEED_STAT n)) ∧ BesideReset (.reg (FEED_EFF n)) ∧
    BesideReset (.reg (CMP_STAT (16 + n.val))) ∧ BesideReset (.reg (CMP_STAT (20 + n.val))) := by decide +revert

theorem State.resetChg_resetHold (old : State) (k : Fin 2) : ResetHold s (s.resetChg old k) := by
  obtain ⟨hstat, -⟩ := besideReset_port k
  unfold State.resetChg
  split
  · exact .refl s
  · next p _ =>
    extract_lets u
    have hu : ResetHold s u := ⟨rfl, rfl, rfl, fun _ => rfl, rfl, rfl, id⟩
    exact ((hu.trans (u.setOn_resetHold (f := CHG_STAT_PROFOK k) true hstat)).trans
      (State.setFld_resetHold _ (f := CHG_STAT_CHEM k) _ hstat)).trans (State.setFld_resetHold _ (f := CHG_STAT_NCELL k) _ hstat)

theorem State.resetPk_resetHold (old : State) (k : Fin 2) : ResetHold s (s.resetPk old k) := by
  obtain ⟨-, hlo, hhi⟩ := besideReset_port k
  have hq : ResetHold s (s.modPk k (fun p => { p with q := old.pk[k].q })) := ⟨rfl, rfl, rfl, fun _ => rfl, rfl, rfl, id⟩
  exact (hq.trans (State.setWord_resetHold _ _ hlo)).trans (State.setWord_resetHold _ _ hhi)

/-- A phase that a device reset takes keeps its enable. -/
theorem State.resetPh_resetHold (old : State) (n : Fin 16) : ResetHold s (s.resetPh old n) := by
  unfold State.resetPh
  extract_lets lmin
  have hph (f : PhH → PhH) (hf : ∀ p, (f p).en = p.en) : ResetHold s (s.modPh n f) := by
    refine ⟨rfl, rfl, rfl, fun m => ?_, rfl, rfl, id⟩
    by_cases hm : m = n
    · subst hm
      exact (congrArg PhH.en (vmod_same s.ph m f)).trans (hf _)
    · exact congrArg PhH.en (vmod_ne s.ph f (Ne.symm hm))
  refine ResetHold.trans (t := s.modPh n (fun p => { p with li := (lmin : Rat) / 100, wireOpen := old.ph[n].wireOpen })) ?_ ?_
  · exact hph _ (fun _ => rfl)
  · exact State.setFld_resetHold _ (f := PH_LRN_LNH n) _ (besideReset_phase n)

theorem State.syncThr_canon (h : s.Canon) : s.syncThr.Canon := .ite (h.setFld _ _) ((h.setFld _ _).setFlags _ _)

theorem besideReset_thr : FP.syncThr BesideReset := by
  repeat' apply And.intro
  all_goals decide

theorem State.syncThr_resetHold : ResetHold s s.syncThr :=
  (State.syncThr_only (.refl _ s) besideReset_thr).resetHold s.syncThr_canon

theorem State.syncFeeds_resetHold : ResetHold s s.syncFeeds := by
  have hstat (n : Fin 4) := (besideReset_feed n).1
  unfold State.syncFeeds State.setGroup
  extract_lets u g
  have hu : ResetHold s u := .each (.refl s) _ _ (fun v (n : Fin 4) => v.setFld_resetHold (f := FEED_STAT_HEALTH n) _ (hstat n))
  exact (hu.each _ _ (fun v (n : Fin 4) => v.setOn_resetHold (f := FEED_STAT_ACTIVE n) _ (hstat n))).trans
    (State.setFld_resetHold _ (f := FEED_GSTAT_ACTIVE) _ (by decide))

theorem State.setQual_resetHold (n : Fin 4) (b : Bool) : ResetHold s (s.setQual n b) :=
  have hgstat : BesideReset (.reg FEED_GSTAT) := by decide
  s.setOn_resetHold (f := ⟨FEED_GSTAT, 4 + n, 4 + n⟩) b hgstat

theorem State.setFeed_resetHold (n : Fin 4) (st : FeedSt) : ResetHold s (s.setFeed n st) :=
  s.setFld_resetHold (f := FEED_STAT_STATE n) _ (besideReset_feed n).1

theorem State.resetFeed_resetHold (old : State) (n : Fin 4) : ResetHold s (s.resetFeed old n) := by
  obtain ⟨hstat, heff, hlow, hhigh⟩ := besideReset_feed n
  unfold State.resetFeed
  extract_lets st a b keep d
  have ha : ResetHold s a :=
    (((s.setWord_resetHold _ hstat).trans (State.setWord_resetHold _ _ heff)).trans (State.setWord_resetHold _ _ hlow)).trans
      (State.setWord_resetHold _ _ hhigh)
  have hb : ResetHold s b := ha.trans (a.setFld_resetHold (f := FEED_STAT_RETRIES n) 0 hstat)
  have hfeed (v : Vector FeedH 4) : ResetHold b { b with feed := v } := ⟨rfl, rfl, rfl, fun _ => rfl, rfl, rfl, id⟩
  have hd : ResetHold s d := s.modFeed_resetHold n _
  have hset (x : FeedSt) : ResetHold s (d.setFeed n x) := hd.trans (d.setFeed_resetHold n x)
  exact .ite ((hb.trans (hfeed _)).trans (State.setQual_resetHold _ n _)) (.ite (hset _) (.ite (hset _) (hset _)))

theorem State.retarget_resetHold (vtgt slew : Nat) : ResetHold s (s.retarget vtgt slew) :=
  (State.retarget_only (.refl _ s) vtgt slew ⟨by decide, by decide⟩).resetHold (fun h => h.setFld _ _)

/-- The blocks at reset with what is kept: the supply, Doldrums, the device time and the bits of the kept fields (R7, R64, R71). -/
theorem State.warmReset_spec : s.warmReset.sys.biasGood = s.sys.biasGood ∧ s.warmReset.sys.doldrums = s.sys.doldrums ∧
    s.warmReset.devtime = s.devtime ∧ s.warmReset.ring = State.reset.ring ∧ (∀ n : Fin 16, s.warmReset.ph[n].en = false) ∧
    s.warmReset.word PK_SHIP = RegFile.get (resetRegs s.regs) PK_SHIP ∧
    s.warmReset.word AUTH_PRES = RegFile.get (resetRegs s.regs) AUTH_PRES ∧ s.warmReset.Canon := by
  obtain ⟨hregs, htime, hgood, hdol⟩ := s.lcCut_hold
  unfold State.warmReset
  extract_lets u _ _ _ _ _ _ a b d e f g h
  have hb : ResetHold a b := a.setFld_resetHold _ (by decide)
  have hd : ResetHold a d := hb.each _ _ (fun v n => (v.modFeed_resetHold n _).trans
    (State.setFld_resetHold _ (f := FEED_EFF_ILIM_EFF n) _ (besideReset_feed n).2.1))
  have he : ResetHold a e := hd.trans (.ite (d.setFld_resetHold _ (by decide)) (.refl d))
  have hf : ResetHold a f := he.each _ _ (fun v k => (v.resetChg_resetHold u k).trans (State.resetPk_resetHold _ u k))
  have hg : ResetHold a g := hf.each _ _ (fun v n => v.resetPh_resetHold u n)
  have hh : ResetHold a h := hg.trans (g.retarget_resetHold _ _)
  obtain ⟨h₁, h₂, h₃, h₄, h₅, h₆, h₇⟩ := (hh.trans (h.setOn_resetHold (f := FLT_PIN_LOW) true (by decide))).trans
    (State.syncThr_resetHold _)
  have hwf : a.Canon := resetRegs_wf u.regs
  have hword (o : Nat) : a.word o = RegFile.get (resetRegs s.regs) o := by
    rw [← hregs]
    rfl
  refine ⟨?_, ?_, h₂.trans htime, h₃, fun n => ?_, h₅.trans (hword _), h₆.trans (hword _), h₇ hwf⟩
  · rw [h₁]; exact hgood
  · rw [h₁]; exact hdol
  · exact (h₄ n).trans (congrArg PhH.en (State.reset_ph n))

end
end Sys2Proof.Machine
end

section
/-! PROOF. The state after a device reset: the window shut, the phases and rings off, the feeds that conduct as they were (R71, R72,
R415). -/

namespace Sys2Proof.Machine

/-! ### Before the blocks are reset -/

section
variable (s : State)

/-- The window closed and the journal stored (R386, R415). -/
abbrev State.stored (s : State) : State := (s.closeWindow (.hardware .sys)).flushJournal

/-- The places beside the supply, the step and the window. -/
abbrev BesideStore (l : Place) : Prop := l.ofBoot = false ∧ l ≠ .reg AUTH_PRES

theorem State.flushJournal_store : OnlyAt BesideStore s s.flushJournal := by
  refine State.flushJournal_only (.refl _ s) ?_
  repeat' apply And.intro
  all_goals decide

theorem State.closeWindow_beside (o : Origin) : OnlyAt BesideBoot s (s.closeWindow o) := by
  refine State.closeWindow_only (.refl _ s) o ?_
  repeat' apply And.intro
  all_goals decide

theorem State.closeWindow_present (o : Origin) : (s.closeWindow o).present = false := by
  unfold State.closeWindow
  split
  · exact s.on_setOn_same (f := AUTH_PRES_OPEN) false (by simp)
  · next h => exact Bool.eq_false_iff.mpr h

theorem State.stored_boot {c : Prop} : BootHold c s s.stored :=
  (s.closeWindow_beside _).bootHold.trans ((State.flushJournal_store _).mono (fun _ => And.left)).bootHold

theorem State.stored_present : s.stored.present = false :=
  (State.on_of_word ((State.flushJournal_store _).word (by simp))).trans (s.closeWindow_present _)

theorem State.stored_feedsHold : FeedsHold s s.stored :=
  (State.closeWindow_only (.refl _ s) _ lossOps_beside.window).feedsHold_lines.trans (State.flushJournal_feedsHold _)

/-! ### The feeds -/

theorem feedStat_apart (n m : Fin 4) : (m ≠ n → FEED_STAT m ≠ FEED_STAT n) ∧ FEED_STAT m ≠ FEED_EFF n ∧
    FEED_STAT m ≠ CMP_STAT (16 + n.val) ∧ FEED_STAT m ≠ CMP_STAT (20 + n.val) ∧ FEED_STAT m ≠ FEED_GSTAT := by decide +revert

/-- A feed that conducts keeps its state through a device reset (R72). -/
theorem State.resetFeed_feedSt_same (old : State) (n : Fin 4) (h : conducts (old.feedSt n) = true) :
    (s.resetFeed old n).feedSt n = old.feedSt n := by
  obtain ⟨-, -, hlow, hhigh, hgstat⟩ := feedStat_apart n n
  unfold State.resetFeed
  extract_lets st a b
  rw [if_pos h]
  have ha : a.word (FEED_STAT n) = old.word (FEED_STAT n) := by
    simp [a, State.each, State.word_setWord, hlow, hhigh]
  have hb : b.fld (FEED_STAT_STATE n) = old.fld (FEED_STAT_STATE n) :=
    (a.fld_setFld_ne 0 (by simp) (by simp) (.inr (by simp))).trans (State.fld_of_word ha)
  exact State.feedSt_of_fld ((State.fld_setFld_off _ _ _ _ hgstat).trans hb)

theorem State.withFeed_only {P : Place → Prop} {s₀ s : State} (h : OnlyAt P s₀ s) (x : Vector FeedH 4) (hp : ∀ n, P (.feed n)) :
    OnlyAt P s₀ { s with feed := x } := by
  refine h.trans (fun l hl => ?_)
  cases l with
  | feed n => exact absurd (hp n) hl
  | _ => rfl

/-- A feed keeps its state while another one is taken. -/
theorem State.resetFeed_feedSt_other (old : State) {n m : Fin 4} (h : m ≠ n) : (s.resetFeed old n).feedSt m = s.feedSt m := by
  obtain ⟨hstat, heff, hlow, hhigh, hgstat⟩ := feedStat_apart n m
  have hreg {o : Nat} (ho : FEED_STAT m ≠ o) : Place.reg o ≠ .reg (FEED_STAT m) := fun e => ho (Place.reg.inj e).symm
  have hfour : ∀ o ∈ [FEED_STAT n, FEED_EFF n, CMP_STAT (16 + n.val), CMP_STAT (20 + n.val)], FEED_STAT m ≠ o := by
    intro o ho
    simp only [List.mem_cons, List.not_mem_nil, or_false] at ho
    rcases ho with rfl | rfl | rfl | rfl
    · exact hstat h
    · exact heff
    · exact hlow
    · exact hhigh
  refine State.feedSt_of_fld (OnlyAt.fld (P := fun l => l ≠ .reg (FEED_STAT m)) ?_ (by simp))
  unfold State.resetFeed
  extract_lets st a b keep d
  have ha : OnlyAt (fun l => l ≠ .reg (FEED_STAT m)) s a :=
    State.each_only (.refl _ s) _ _ (fun _ o ho ht => State.setWord_only ht o _ (hreg (hfour o ho)))
  have hb : OnlyAt (fun l => l ≠ .reg (FEED_STAT m)) s b := State.setFld_only ha _ 0 (hreg (hstat h))
  have hd : OnlyAt (fun l => l ≠ .reg (FEED_STAT m)) s d := State.modFeed_only (.refl _ s) n _ (by simp)
  have hset (x : FeedSt) : OnlyAt (fun l => l ≠ .reg (FEED_STAT m)) s (d.setFeed n x) := State.setFld_only hd _ _ (hreg (hstat h))
  refine .ite (State.setQual_only ?_ n _ (hreg hgstat)) (.ite (hset _) (.ite (hset _) (hset _)))
  exact State.withFeed_only hb _ (fun _ => by simp)

/-- Every feed of a list that conducts keeps its state, and so does one that is already as it was. -/
theorem State.resetFeeds_feedSt (old : State) (n : Fin 4) (h : conducts (old.feedSt n) = true) (l : List (Fin 4)) (t : State)
    (hn : n ∈ l ∨ t.feedSt n = old.feedSt n) : (t.each l (fun u n => u.resetFeed old n)).feedSt n = old.feedSt n := by
  unfold State.each
  induction l generalizing t with
  | nil => exact hn.resolve_left (by simp)
  | cons a l ih =>
    refine ih _ ?_
    by_cases ha : n = a
    · subst ha
      exact .inr (t.resetFeed_feedSt_same old n h)
    · refine hn.imp (fun hl => (List.mem_cons.mp hl).resolve_left ha) (fun ht => ?_)
      exact (t.resetFeed_feedSt_other old ha).trans ht

/-! ### The reset -/

/-- What a device reset leaves: the reset in force with its cause at step 3, the supply and DEVTIME, Doldrums as it was, the window shut,
phases and rings off, and the feeds that conduct as they were. -/
structure ResetDone (cause : Nat) (s t : State) : Prop where
  held : t.sys.resetHeld = true
  good : t.sys.biasGood = s.sys.biasGood
  doldrums : t.sys.doldrums = s.sys.doldrums
  cause : t.fld SYS_RST_CAUSE = cause
  step : t.fld SYS_STATE_STEP = 3
  present : t.present = false
  devtime : t.devtime = s.devtime
  en : ∀ n : Fin 16, t.ph[n].en = false
  started : ∀ n : Fin 64, t.ring[n].started = []
  feeds : ∀ n : Fin 4, conducts (s.feedSt n) = true → t.feedSt n = s.feedSt n
  arm : s.on PK_SHIP_ARM = false → t.on PK_SHIP_ARM = false
  canon : t.Canon

theorem feedStat_outside (n : Fin 4) : FEED_STAT n ≠ FEED_GSTAT ∧ FEED_STAT n ≠ SYS_RST ∧ FEED_STAT n ≠ SYS_STATE := by
  decide +revert

theorem powerOn_bits : (RegFile.get powerOnRegs PK_SHIP).getLsbD 0 = false ∧ (RegFile.get powerOnRegs AUTH_PRES).getLsbD 31 = false := by
  decide +kernel

theorem State.deviceReset_spec (cause : Nat) (hcause : cause < 16) : ResetDone cause s (s.deviceReset cause) := by
  obtain ⟨hgood, hdol, -, htime, hship, -⟩ := s.stored_boot (c := True)
  obtain ⟨h₁, h₂, h₃, h₄, h₅, h₆, h₇, h₈⟩ := s.stored.warmReset_spec
  unfold State.deviceReset
  extract_lets u a v _ b d e f
  have hv : ResetHold a v := a.setWord_resetHold (o := HIF_LNK) _ (by decide)
  have hb : ResetHold a b := hv.trans ⟨rfl, rfl, rfl, fun _ => rfl, rfl, rfl, id⟩
  have hd : ResetHold a d := hb.each _ _ (fun v n => v.resetFeed_resetHold u n)
  have he : ResetHold a e := hd.trans (d.setOn_resetHold (f := FEED_GSTAT_FEEDS_LOST) _ (by decide))
  have hf : ResetHold a f := ((he.trans (e.setFld_resetHold (f := SYS_RST_CAUSE) cause (by decide))).trans
    (State.setFld_resetHold _ (f := SYS_STATE_STEP) 3 (by decide))).trans (State.syncFeeds_resetHold _)
  obtain ⟨k₁, k₂, k₃, k₄, k₅, k₆, k₇⟩ := hf
  obtain ⟨hresetShip, hresetPres⟩ := powerOn_bits
  have hsync : OnlyAt BesideBoot ((e.setFld SYS_RST_CAUSE cause).setStep 3) f := State.syncFeeds_only (.refl _ _) startOps_beside.feeds
  have hfld : f.fld SYS_RST_CAUSE = cause := by
    have hset : (e.setFld SYS_RST_CAUSE cause).fld SYS_RST_CAUSE = cause % 2 ^ 4 :=
      e.fld_setFld_same SYS_RST_CAUSE cause (by decide) (by decide)
    have hstep := State.fld_setFld_off (e.setFld SYS_RST_CAUSE cause) SYS_STATE_STEP SYS_RST_CAUSE 3 (by decide)
    exact (hsync.fld (by decide)).trans (hstep.trans (hset.trans (Nat.mod_eq_of_lt hcause)))
  have hstep : f.fld SYS_STATE_STEP = 3 :=
    (hsync.fld (by decide)).trans (State.fld_setFld_same _ SYS_STATE_STEP 3 (by decide) (by decide))
  have hfeeds (n : Fin 4) (hn : conducts (s.feedSt n) = true) : f.feedSt n = s.feedSt n := by
    obtain ⟨hgstat, hrst, hstate⟩ := feedStat_outside n
    have hfeed : u.feedSt n = s.feedSt n := s.stored_feedsHold.state n
    have hd : d.feedSt n = u.feedSt n := State.resetFeeds_feedSt u n (by rwa [hfeed]) _ _ (.inl (List.mem_finRange n))
    have hafter : ((e.setFld SYS_RST_CAUSE cause).setStep 3).feedSt n = d.feedSt n :=
      State.feedSt_of_fld ((State.fld_setFld_off _ _ _ 3 hstate).trans ((e.fld_setFld_off _ _ cause hrst).trans
        (State.fld_setFld_off _ _ _ _ hgstat)))
    exact ((State.syncFeeds_feedsHold _).state n).trans (hafter.trans (hd.trans hfeed))
  have hpres : f.on AUTH_PRES_OPEN = false := by
    have hbit : (u.word AUTH_PRES).getLsbD 31 = false := (u.on_iff_getLsbD AUTH_PRES 31).symm.trans s.stored_present
    rw [State.on_iff_getLsbD, k₆, h₇]
    exact getLsbD_resetRegs u.regs hbit hresetPres
  have harm (hs : s.on PK_SHIP_ARM = false) : f.on PK_SHIP_ARM = false := by
    have hbit : (u.word PK_SHIP).getLsbD 0 = false := by rwa [hship, ← s.on_iff_getLsbD]
    rw [State.on_iff_getLsbD, k₅, h₆]
    exact getLsbD_resetRegs u.regs hbit hresetShip
  have hring : f.ring = State.reset.ring := k₃.trans h₄
  clear_value f
  exact {
    held := rfl
    good := (congrArg SysH.biasGood k₁).trans (h₁.trans hgood)
    doldrums := (congrArg SysH.doldrums k₁).trans (h₂.trans hdol)
    cause := hfld
    step := hstep
    present := hpres
    devtime := k₂.trans (h₃.trans htime)
    en := fun n => (k₄ n).trans (h₅ n)
    started := fun n => (congrArg (fun v : Vector RingH 64 => v[n].started) hring).trans (congrArg RingH.started (State.reset_ring n))
    feeds := hfeeds
    arm := harm
    canon := k₇ h₈ }
end
end Sys2Proof.Machine
end

section
/-! PROOF. Bias, the power-on reset, and the device resets with the start-ups that follow them (R58 to R65, R71, R72, R415). -/

namespace Sys2Proof.Machine

/-! ### The write of DEVRST -/

/-- The row of SYS_RST takes writes and has no field whose class is GUARDED. -/
theorem findReg_rst : ∃ row, findReg regTable SYS_RST = some row ∧ row.writable = true ∧
    row.fields.all (fun f => decide (f.loose = .none)) = true := by decide +kernel

theorem RegRow.loosens_eq_false {r : RegRow} (h : r.fields.all (fun f => decide (f.loose = .none)) = true) (lock : Bool) (old new : Word) :
    r.loosens lock old new = false := by
  simp only [List.all_eq_true, decide_eq_true_eq] at h
  unfold RegRow.loosens
  rw [List.any_eq_false]
  intro f hf
  simp [h f hf, Loose.hits]

section
variable (s : State)

/-- What an accepted write to SYS_RST leaves before the reset: its word, and its record. -/
theorem State.fabricWrite_rst {o : Origin} (h : s.serves o) (hm : s.on SYS_MAINT_MAINT = true) {v : Word} (hv : v.getLsbD 0 = true) :
    ∃ (w : Word) (r : JRec), s.fabricWrite o SYS_RST v = ((s.setWord SYS_RST w).journal r).deviceReset 2 := by
  obtain ⟨row, hrow, hwr, hloose⟩ := findReg_rst
  have hcheck : s.checkWord SYS_RST = s := s.checkWord_of_outside (by decide)
  have hanvil : onAnvil SYS_RST = false := by decide
  have hguard (old new : Word) : s.guardedWrite SYS_RST row old new v = false := by
    have hoff : (SYS_RST == CHG_PLOAD) = false := by decide
    rw [State.guardedWrite, row.loosens_eq_false hloose, hoff]
    rfl
  have hreason (old new : Word) : s.writeReason o SYS_RST row old new v = 0 := by
    have hship : ¬ SYS_RST = PK_SHIP := by decide
    have hinj : ¬ SYS_RST = FLT_INJ := by decide
    simp [State.writeReason, hguard, hm, hship, hinj]
  have hbusy (old new : Word) : s.ringBusy SYS_RST old new = false := if_neg (by decide)
  have hafter (t : State) : t.after SYS_RST v = t.deviceReset 2 := (if_pos rfl).trans (if_pos hv)
  have haccept (new : Word) : ∃ r, s.acceptWrite o SYS_RST new v false = ((s.setWord SYS_RST new).journal r).deviceReset 2 :=
    ⟨s.stamp 0 false (o.word SYS_RST) 0x00 SYS_RST (s.view SYS_RST) ((s.setWord SYS_RST new).view SYS_RST) 0, hafter _⟩
  have hserve : s.serveWrite o SYS_RST v =
      s.acceptWrite o SYS_RST (s.settleWord SYS_RST (s.word SYS_RST) (row.after (s.word SYS_RST) v)) v false := by
    have hlc : ¬ SYS_RST = SYS_LC := by decide
    have hidx : ¬ SYS_RST = JNL_RDIDX := by decide
    have hrel : ¬ SYS_RST = JNL_REL := by decide
    simp [State.serveWrite, hcheck, hanvil, hrow, hwr, hbusy, hguard, hreason, hlc, hidx, hrel]
  obtain ⟨r, hr⟩ := haccept (s.settleWord SYS_RST (s.word SYS_RST) (row.after (s.word SYS_RST) v))
  exact ⟨_, r, (State.fabricWrite_of_serves h SYS_RST v).trans (hserve.trans hr)⟩

/-! ### The clauses -/

theorem biasRise_clause (v : BiasIn) (hbias : s.sys.bias = none) (hdol : s.sys.doldrums = false)
    (hin : 45 / 10 < v.at_ (v.pick none)) : Gives (.biasRise v) s (fun t => t.sys.bias = some (v.pick none) ∧
      t.fld SYS_STATE_STEP = 1 ∧ (108 / 10 < v.vaux → t.sys.bias = some .vaux)) := by
  have hidle : ¬ ((s.sys.bias.isSome || s.sys.doldrums || decide (v.at_ (v.pick none) ≤ 45 / 10)) = true) := by
    simp [hbias, hdol, hin]
  have hrun : execBiasRise v s = .next ({ s with sys := { s.sys with bias := some (v.pick none) } }.setStep 1) :=
    congrArg Host.Outcome.next (if_neg hidle)
  refine ⟨_, hrun, rfl, State.fld_setFld_same _ SYS_STATE_STEP 1 (by decide) (by decide), fun haux => ?_⟩
  have hpick : v.pick none = .vaux := if_pos (.inl haux)
  exact congrArg some hpick

/-- What a start-up leaves of a device that Doldrums does not threaten: it is awake, at step 12, its time as it was. -/
theorem State.startUp_awake (r : Boot) (cold : Bool) (hpow : s.powered = true) (harm : s.on PK_SHIP_ARM = false) :
    (s.startUp r cold).awake = true ∧ (s.startUp r cold).fld SYS_STATE_STEP = 12 ∧ (s.startUp r cold).devtime = s.devtime ∧
      (s.Canon → (s.startUp r cold).fld SYS_RST_CAUSE = s.fld SYS_RST_CAUSE) := by
  obtain ⟨⟨hgood, hdol, hheld, htime, -, hrst⟩, hstep⟩ := s.startUp_spec r cold harm
  refine ⟨?_, hstep, htime, fun hc => State.fld_of_word (hrst hc)⟩
  rw [State.awake, State.powered, hgood, hdol, hheld]
  simpa [State.powered] using hpow

theorem biasGood_clause (r : Boot) (hbias : s.sys.bias.isSome = true) (hgood : s.sys.biasGood = false)
    (hdol : s.sys.doldrums = false) (harm : s.on PK_SHIP_ARM = false) :
    Gives (.biasGood r) s (fun t => t.awake = true ∧ t.fld SYS_STATE_STEP = 12 ∧ t.devtime = 0) := by
  have hidle : ¬ ((s.sys.bias.isNone || s.sys.biasGood || s.sys.doldrums) = true) := by
    simp [Option.isNone_iff_eq_none, hgood, hdol, Option.ne_none_iff_isSome, hbias]
  have hpow : (s.bootClocks r false).powered = true := by simp [State.bootClocks, State.powered, hdol]
  have harm' : (s.bootClocks r false).on PK_SHIP_ARM = false :=
    (State.on_of_word (s.word_setFld_off (f := SYS_STATE_STEP) 2 (by decide))).trans harm
  obtain ⟨hawake, hstep, htime, -⟩ := (s.bootClocks r false).startUp_awake r true hpow harm'
  have hrun : execBiasGood r s = .next ((s.bootClocks r false).startUp r true) := congrArg Host.Outcome.next (if_neg hidle)
  exact ⟨_, hrun, hawake, hstep, htime⟩

theorem biasSourceChange_clause (v : BiasIn) (hbias : s.sys.bias.isSome = true) : Gives (.biasSourceChange v) s (fun t =>
    t = { s with sys := { s.sys with bias := some (v.pick s.sys.bias) } }) := by
  have hidle : ¬ s.sys.bias.isNone = true := by simp [Option.isNone_iff_eq_none, Option.ne_none_iff_isSome, hbias]
  have hrun : execBiasSourceChange v s = .next { s with sys := { s.sys with bias := some (v.pick s.sys.bias) } } :=
    congrArg Host.Outcome.next (if_neg hidle)
  exact ⟨_, hrun, rfl⟩

theorem powerOnReset_clause : Gives .powerOnReset s (fun t => t = { State.reset with
    sys := { State.reset.sys with fuses := t.sys.fuses }, aon := { State.reset.aon with keys := s.aon.keys }, mem := { s.mem
    with b0 := [] }, out := s.out, rdata := s.rdata, freeCtr := t.freeCtr, pending := s.pending } ∧ (∀ i : Fin 3, ∀ j : Fin
    5, s.sys.fuses[i].getLsbD j = true → t.sys.fuses[i].getLsbD j = true)) := by
  obtain ⟨haon, hmem, hout, hread, hqueue⟩ := s.lcCut_rest
  refine ⟨s.powerOnReset, rfl, ?_, fun i j => (State.lcCut_keeps (.refl s)).fuses.groups i j⟩
  have hdef : s.powerOnReset = { State.reset with
      sys := { State.reset.sys with fuses := s.lcCut.sys.fuses }, aon := { State.reset.aon with keys := s.lcCut.aon.keys }
      mem := { s.lcCut.mem with b0 := [] }, out := s.lcCut.out, rdata := s.lcCut.rdata, freeCtr := s.lcCut.freeCtr
      pending := s.lcCut.pending } := rfl
  refine hdef.trans ?_
  rw [haon, hmem, hout, hread, hqueue]
  rfl

theorem resetNAssert_clause (hpow : s.powered = true) : Gives .resetNAssert s (fun t => t.sys.resetHeld = true ∧
    t.fld SYS_RST_CAUSE = 1 ∧ t.fld SYS_STATE_STEP = 3 ∧ t.present = false ∧ t.devtime = s.devtime ∧
    (∀ n : Fin 16, t.ph[n].en = false) ∧ (∀ n : Fin 64, t.ring[n].started = []) ∧
    (∀ n : Fin 4, conducts (s.feedSt n) = true → t.feedSt n = s.feedSt n)) := by
  have h := s.deviceReset_spec 1 (by decide)
  have hrun : execResetNAssert s = .next (s.deviceReset 1) := congrArg Host.Outcome.next (if_pos hpow)
  exact ⟨_, hrun, h.held, h.cause, h.step, h.present, h.devtime, h.en, h.started, h.feeds⟩

theorem resetNRelease_clause (r : Boot) (hpow : s.powered = true) (hheld : s.sys.resetHeld = true)
    (harm : s.on PK_SHIP_ARM = false) : Gives (.resetNRelease r) s (fun t => t.awake = true ∧ t.fld SYS_STATE_STEP = 12) := by
  obtain ⟨hawake, hstep, -⟩ := s.startUp_awake r false hpow harm
  have hrun : execResetNRelease r s = .next (s.startUp r false) :=
    congrArg Host.Outcome.next (if_pos (by rw [hpow, hheld]; rfl))
  exact ⟨_, hrun, hawake, hstep⟩

theorem State.powered_of_serves {o : Origin} (h : s.serves o) : s.powered = true := by
  obtain ⟨hreach, -⟩ := h
  unfold State.reachable at hreach
  split at hreach
  · simp only [Bool.and_eq_true] at hreach
    exact hreach.1.1
  · simp only [State.awake, Bool.and_eq_true] at hreach
    exact hreach.1.1
  · exact hreach

theorem devrst_clause (o : Origin) (v : Word) (r : Boot) (hs : s.serves o) (hheld : s.sys.resetHeld = false)
    (hm : s.on SYS_MAINT_MAINT = true) (harm : s.on PK_SHIP_ARM = false) : Gives (.devrst o v r) s (fun t =>
      t.awake = true ∧ t.fld SYS_RST_CAUSE = 2 ∧ t.fld SYS_STATE_STEP = 12) := by
  have hbit : (SYS_RST_DEVRST.insert v 1).getLsbD 0 = true := by
    rw [Fld.getLsbD_insert _ _ _ _ (by decide) (by decide) (by decide)]
    rfl
  obtain ⟨w, x, hwrite⟩ := s.fabricWrite_rst hs hm hbit
  have harm' : ((s.setWord SYS_RST w).journal x).on PK_SHIP_ARM = false := by
    have hword : (s.setWord SYS_RST w).word PK_SHIP = s.word PK_SHIP := (State.word_setWord s _ _ _).trans (if_neg (by decide))
    exact (State.on_of_word (f := PK_SHIP_ARM) hword).trans harm
  have h := ((s.setWord SYS_RST w).journal x).deviceReset_spec 2 (by decide)
  have hpow : (s.fabricWrite o SYS_RST (SYS_RST_DEVRST.insert v 1)).powered = true := by
    rw [hwrite, State.powered, h.good, h.doldrums]
    exact s.powered_of_serves hs
  obtain ⟨hawake, hstep, -, hcause⟩ := (s.fabricWrite o SYS_RST (SYS_RST_DEVRST.insert v 1)).startUp_awake r false hpow
    (by rw [hwrite]; exact h.arm harm')
  have hrun : execDevrst o v r s = .next ((s.fabricWrite o SYS_RST (SYS_RST_DEVRST.insert v 1)).startUp r false) :=
    congrArg Host.Outcome.next (if_pos (by rw [hwrite, h.held, hheld]; rfl))
  refine ⟨_, hrun, hawake, ?_, hstep⟩
  rw [hcause (by rw [hwrite]; exact h.canon), hwrite]
  exact h.cause
end
end Sys2Proof.Machine

open Sys2Proof Sys2Proof.Machine

/-- Settles O8: each step of a start-up keeps the supply, the reset and DEVTIME (`BootHold`), and its end stands at step 12; a device
reset leaves what `ResetDone` says, and the start-up after it keeps the cause. -/
theorem powerOnAndDeviceReset : Obligations.PowerOnAndDeviceReset := by
  unfold Obligations.PowerOnAndDeviceReset
  exact ⟨fun v s => biasRise_clause s v, fun r s => biasGood_clause s r, fun v s => biasSourceChange_clause s v, powerOnReset_clause,
    resetNAssert_clause, fun r s => resetNRelease_clause s r, fun o v r s => devrst_clause s o v r⟩
end
section
/-! PROOF. The end of an inrush outside the active group under PRIORITY: the feed that completes it goes to STANDBY in the same step
where the group conducts already (R88, R105, R106). -/

namespace Sys2Proof.Machine

/-- A powered card in RUN under PRIORITY: feed 1, ON, is the active group, and feed 0, qualified, is in the INRUSH of a retry, as R97
allows a feed of no group. -/
def retryOutsideGroup : State :=
  let s := ((State.reset.setFld SYS_STATE_MODE 1).setFld FEED_SEL_MODE 1).setOn FEED_GSTAT_FEEDS_LOST false
  let s := ((s.setFeed 0 .inrush).setQual 0 true).setOn (FEED_STAT_ORON 0) true
  let s := (((s.setFeed 1 .on).setQual 1 true).setOn (FEED_STAT_HSON 1) true).setOn (FEED_STAT_ORON 1) true
  let s := (s.setOn (FEED_STAT_ACTIVE 1) true).setFld FEED_GSTAT_ACTIVE 2
  { s with sys := { s.sys with bias := some .vaux, biasGood := true, strapsRead := true, anvilUp := true, d2d := true } }

/-- The state of a feed after the end of its inrush. -/
def feedAfterInrush (n : Fin 4) (s : State) : Option FeedSt :=
  match execInrushComplete n s with
  | .next t => some (t.feedSt n)
  | _ => none

theorem feedAfterInrush_of_next {n : Fin 4} {s t : State} (h : execInrushComplete n s = .next t) :
    feedAfterInrush n s = some (t.feedSt n) := by
  simp [feedAfterInrush, h]

theorem retryOutsideGroup_standby : feedAfterInrush 0 retryOutsideGroup = some .standby := by decide +kernel

end Sys2Proof.Machine

open Sys2Proof Sys2Proof.Machine

/-- Refutes O11: its clause of INRUSH_COMPLETE gives ON to every feed in INRUSH outside the safe state and SAFE_TALK. Under PRIORITY a feed
outside the active group, every member of which is ON, goes on to STANDBY in the same step, its gates off. -/
theorem not_feedInrushAndTrips : ¬ Obligations.FeedInrushAndTrips := by
  unfold Obligations.FeedInrushAndTrips
  intro h
  obtain ⟨-, hcomplete, -⟩ := h
  obtain ⟨t, ht, hst, -, -⟩ := hcomplete 0 retryOutsideGroup (by decide +kernel) (by decide +kernel)
  have hrun : ¬ (retryOutsideGroup.mode = 2 ∨ retryOutsideGroup.mode = 3) := by decide +kernel
  have hafter : some FeedSt.standby = some (t.feedSt 0) := retryOutsideGroup_standby.symm.trans (feedAfterInrush_of_next ht)
  rw [hst, if_neg hrun] at hafter
  exact absurd hafter (by decide)
end
section
/-! PROOF. Effects applied once per index; the role of a port, and what a change of role leaves (R149, R183); the throttle pins (R244). -/

namespace Sys2Proof.Machine

/-! ### Effects applied once per index -/

section
variable {α : Type} {f : State → α → State} {Q R : State → Prop}

theorem State.each_keep {s : State} {l : List α} (hs : Q s) (hf : ∀ t, ∀ a ∈ l, Q t → Q (f t a)) : Q (s.each l f) := by
  unfold State.each
  induction l generalizing s with
  | nil => exact hs
  | cons a l ih => exact ih (hf s a (by simp) hs) (fun t b hb => hf t b (by simp [hb]))

/-- Where the effect of one index brings `R` about from `Q`, and those of the others keep both, `R` holds at the end. -/
theorem State.each_once {s : State} {l : List α} {a : α} (hl : l.Nodup) (ha : a ∈ l) (hs : Q s)
    (hpre : ∀ t b, b ≠ a → Q t → Q (f t b)) (hset : ∀ t, Q t → R (f t a)) (hpost : ∀ t b, b ≠ a → R t → R (f t b)) :
    R (s.each l f) := by
  induction l generalizing s with
  | nil => simp at ha
  | cons b l ih =>
    obtain ⟨hb, hl⟩ := List.nodup_cons.mp hl
    show R ((f s b).each l f)
    by_cases e : b = a
    · subst e
      exact State.each_keep (hset s hs) (fun t c hc => hpost t c (fun h => hb (h ▸ hc)))
    · exact ih hl ((List.mem_cons.mp ha).resolve_left (Ne.symm e)) (hpre s b e hs)

/-- Where the effect of one index brings `R` about from any state, and those of the others keep it, `R` holds at the end. -/
theorem State.each_sets {s : State} {l : List α} {a : α} (hl : l.Nodup) (ha : a ∈ l) (hset : ∀ t, R (f t a))
    (hpost : ∀ t b, b ≠ a → R t → R (f t b)) : R (s.each l f) :=
  State.each_once (Q := fun _ => True) hl ha trivial (fun _ _ _ _ => trivial) (fun t _ => hset t) hpost
end

theorem finsWhere_nodup {n : Nat} (p : Fin n → Bool) : (finsWhere p).Nodup := (List.nodup_finRange n).filter p

/-! ### The role of a port -/

theorem role_ofCode_code (r : Role) : Role.ofCode r.code = r := by cases r <;> rfl

theorem role_code_lt (r : Role) : r.code < 2 ^ 3 := by cases r <;> decide

section
variable (s : State) (k : Fin 2)

theorem State.role_of_fld {s t : State} {k : Fin 2} (h : t.fld (CHG_STAT_ROLE k) = s.fld (CHG_STAT_ROLE k)) : t.role k = s.role k :=
  congrArg Role.ofCode h

theorem State.role_of_word {s t : State} {k : Fin 2} (h : t.word (CHG_STAT k) = s.word (CHG_STAT k)) : t.role k = s.role k :=
  State.role_of_fld (State.fld_of_word h)

/-- The port with its new role noted, before its command and its direction follow. -/
def State.roleNoted (s : State) (k : Fin 2) (r : Role) : State :=
  ((if s.role k = .charge then s.endCharge k else s).modChg k (fun c => { c with cut := none })).setFld (CHG_STAT_ROLE k) r.code

theorem State.roleNoted_role (r : Role) : (s.roleNoted k r).role k = r := by
  unfold State.role State.roleNoted
  rw [State.fld_setFld_same _ _ _ (by simp) (by simp), show (CHG_STAT_ROLE k).width = 3 from rfl,
    Nat.mod_eq_of_lt (role_code_lt r), role_ofCode_code]

theorem chgStat_ne (k : Fin 2) : CHG_STAT k ≠ CHG_PWR k ∧ CHG_STAT k ≠ CHG_TIME k := by decide +revert

/-- The bits of CHGk_STAT beside ROLE and PAUSED. -/
theorem State.roleNoted_fld (r : Role) {f : Fld} (hf : f.Fits) (hbits : f.hi < 24 ∨ 27 < f.lo) (hoff : f.off = CHG_STAT k) :
    (s.roleNoted k r).fld f = s.fld f := by
  have hend : (s.endCharge k).fld f = s.fld f := by
    have hne : f.off ≠ CHG_PWR k ∧ f.off ≠ CHG_TIME k := by
      rw [hoff]
      exact chgStat_ne k
    unfold State.endCharge
    rw [State.fld_setFld_off _ _ _ _ hne.2]
    refine (State.fld_setFld_ne _ _ (by simp) hf (.inr (by simp only; omega))).trans ?_
    rw [State.fld_setFld_off _ _ _ _ hne.1]
    rfl
  unfold State.roleNoted
  refine (State.fld_setFld_ne _ _ (by simp) hf (.inr (by simp only; omega))).trans ?_
  rw [State.modChg_fld]
  split
  · exact hend
  · rfl

theorem State.roleNoted_requal (r : Role) : (s.roleNoted k r).chg[k].requal = s.chg[k].requal := by
  unfold State.roleNoted
  show ((if s.role k = .charge then s.endCharge k else s).modChg k (fun c => { c with cut := none })).chg[k].requal = _
  rw [State.modChg_same]
  split
  · show (s.modChg k _).chg[k].requal = _
    rw [State.modChg_same]
  · rfl

/-- The places beside the role of a port and what is hidden of its charging. -/
abbrev BesideRole (k : Fin 2) (l : Place) : Prop := l ≠ .reg (CHG_STAT k) ∧ l ≠ .chg k

/-- The footprints of what follows a role. -/
structure RoleOps (P : Place → Prop) (k : Fin 2) : Prop where
  cnt : P (.reg (CHG_CNT k))
  cmd : FP.setCmd P k
  turn : FP.turn P k
  power : P (.reg (CHG_DPWR k))
  gstat : P (.reg CHG_GSTAT)

theorem roleOps_beside (k : Fin 2) : RoleOps (BesideRole k) k := by
  constructor
  all_goals
    repeat' first
      | decide +revert
      | apply And.intro

/-- After the role is noted, its command, direction, counts and reports follow, and the role stays. -/
theorem State.setRole_beside {r : Role} (h : s.role k ≠ r) : OnlyAt (BesideRole k) (s.roleNoted k r) (s.setRole k r) := by
  obtain ⟨hcnt, hcmd, hturn, hpower, hgstat⟩ := roleOps_beside k
  unfold State.setRole
  rw [if_neg h]
  extract_lets u v w x y z
  have hw : OnlyAt (BesideRole k) v w := by
    unfold w
    split
    · exact State.count_only (.refl _ v) _ hcnt
    · exact State.count_only (.refl _ v) _ hcnt
    · exact .refl _ v
  have hy : OnlyAt (BesideRole k) v y := by
    have hx : OnlyAt (BesideRole k) v x := State.setCmd_only hw k 0 hcmd
    unfold y
    split
    · exact State.turn_only hx k _ hturn
    · exact State.turn_only hx k _ hturn
    · exact State.turn_only hx k _ hturn
    · exact State.turn_only hx k _ hturn
    · exact OnlyAt.ite (State.turn_only hx k _ hturn) (State.turn_only hx k _ hturn)
  have hz : OnlyAt (BesideRole k) v z := by
    unfold z
    split
    · exact hy
    · exact hy
    · exact State.setFld_only hy _ _ hpower
  exact State.syncRoles_only hz hgstat

theorem State.role_setRole_same (r : Role) : (s.setRole k r).role k = r := by
  by_cases h : s.role k = r
  · rw [State.setRole, if_pos h, h]
  · exact (State.role_of_word ((s.setRole_beside k h).word (by simp))).trans (s.roleNoted_role k r)

theorem State.setRole_fld (r : Role) {f : Fld} (hf : f.Fits) (hbits : f.hi < 24 ∨ 27 < f.lo) (hoff : f.off = CHG_STAT k) :
    (s.setRole k r).fld f = s.fld f := by
  by_cases h : s.role k = r
  · rw [State.setRole, if_pos h]
  · exact ((s.setRole_beside k h).fld (by simp [hoff])).trans (s.roleNoted_fld k r hf hbits hoff)

theorem State.stage_setRole (r : Role) : (s.setRole k r).stage k = s.stage k :=
  congrArg Stage.ofCode (s.setRole_fld k r (f := CHG_STAT_STAGE k) (by simp) (.inr (by simp)) rfl)

theorem State.setRole_requal (r : Role) : (s.setRole k r).chg[k].requal = s.chg[k].requal := by
  by_cases h : s.role k = r
  · rw [State.setRole, if_pos h]
  · exact (congrArg ChgH.requal ((s.setRole_beside k h) (.chg k) (by simp))).trans (s.roleNoted_requal k r)

/-- A field of CHGk_STAT beside ROLE does not change the role. -/
theorem State.role_setFld_ne {f : Fld} (v : Nat) (hf : f.Fits) (hd : f.off ≠ CHG_STAT k ∨ f.hi < 25 ∨ 27 < f.lo) :
    (s.setFld f v).role k = s.role k :=
  State.role_of_fld (s.fld_setFld_ne v hf (by simp) (by simp only; omega))
end

/-! ### The throttle pins -/

section
variable (s : State)

/-- Every pin is asserted for one of the causes that assert all of them (R244). -/
def State.thrAll (s : State) : Bool := s.chgg.hulow || s.on FEED_GSTAT_EXSTOP || s.mode != 1

/-- The flags of FC_THR stand above its STATE. -/
theorem extract_thrState_or (w : Word) (b : BitVec 8) : FC_THR_STATE.extract (w ||| (b.setWidth 32 <<< 8)) = FC_THR_STATE.extract w := by
  apply Nat.eq_of_testBit_eq
  intro i
  rw [Fld.testBit_extract, Fld.testBit_extract, BitVec.getLsbD_or, BitVec.getLsbD_shiftLeft]
  by_cases hi : i < 8
  · simp [Fld.width, hi]
  · simp [Fld.width, hi]

theorem State.fld_syncThr : s.syncThr.fld FC_THR_STATE = if s.thrAll then 0xFF else s.fcPins.toNat := by
  have hset (b : BitVec 8) : (s.setFld FC_THR_STATE b.toNat).fld FC_THR_STATE = b.toNat := by
    rw [s.fld_setFld_same _ _ (by simp) (by simp)]
    exact Nat.mod_eq_of_lt b.isLt
  have hflags (t : State) (b : BitVec 8) : (t.setFlags FC_THR (b.setWidth 32 <<< 8)).fld FC_THR_STATE = t.fld FC_THR_STATE := by
    show FC_THR_STATE.extract ((t.setFlags FC_THR (b.setWidth 32 <<< 8)).word FC_THR) = _
    rw [t.word_setFlags FC_THR _ (by decide), if_pos rfl, extract_thrState_or]
    rfl
  unfold State.syncThr
  extract_lets old all new t rise
  have hnew : new.toNat = if s.thrAll then 0xFF else s.fcPins.toNat := by
    show (if s.thrAll = true then (0xFF : BitVec 8) else s.fcPins).toNat = _
    split <;> rfl
  rw [← hnew, ← hset new]
  split
  · rfl
  · exact hflags t rise
end

end Sys2Proof.Machine
end
section
/-! PROOF. Hold-up and Gust: the loop, the monitor of BUS, the cut of a port and the end of its hold (R176 to R179, R183). -/

namespace Sys2Proof.Machine

/-! ### What grows: the journal's queue and the flags of a port -/

/-- The journal's queue is no shorter, and a flag of a port's charging that stood still stands. -/
structure Logged (s t : State) : Prop where
  queue : s.jnl.queue.length ≤ t.jnl.queue.length
  flag : ∀ (k : Fin 2) (i : Nat), s.on ⟨CHG_EVT k, i, i⟩ = true → t.on ⟨CHG_EVT k, i, i⟩ = true

theorem Logged.refl (s : State) : Logged s s := ⟨le_rfl, fun _ _ h => h⟩

theorem Logged.trans {s t u : State} (h : Logged s t) (k : Logged t u) : Logged s u :=
  ⟨h.queue.trans k.queue, fun j i hi => k.flag j i (h.flag j i hi)⟩

theorem Logged.ite {s t u : State} {c : Prop} [Decidable c] (ht : Logged s t) (hu : Logged s u) : Logged s (if c then t else u) := by
  split <;> assumption

/-- The places beside the journal and the flags of the ports' charging. -/
abbrev BesideLog (l : Place) : Prop := l ≠ .jnl ∧ ∀ k : Fin 2, l ≠ .reg (CHG_EVT k)

theorem OnlyAt.logged {s t : State} (h : OnlyAt BesideLog s t) : Logged s t where
  queue := (congrArg (fun j : Jnl => j.queue.length) (h .jnl (by simp))).ge
  flag k i hi := (State.on_of_word (h.word (fun hb => hb.2 k rfl))).trans hi

/-- The footprints of what the ends of roles do beside the journal and these flags. -/
structure LogOps (P : Place → Prop) (k : Fin 2) : Prop where
  restore : FP.restoreLoop P k
  role : FP.setRole P k
  done : FP.done P
  setStage : FP.setStage P k
  setItgt : FP.setItgt P k
  chg : P (.chg k)
  notice : FP.notice P
  cmd : FP.setCmd P k

theorem logOps_beside (k : Fin 2) : LogOps BesideLog k := by
  constructor
  all_goals
    repeat' first
      | decide +revert
      | apply And.intro
      | intro _

section
variable (s : State) (k : Fin 2)

theorem chgEvt_not_lineOut : CHG_EVT k ∉ lineOut := by decide +revert

theorem State.evt_logged (f : Fld) : Logged s (s.evt f) where
  queue := by
    have h : OnlyAt (· ≠ .jnl) s (s.evt f) := State.evt_only (.refl _ s) f (by simp [FP.evt, FP.setFlags, FP.lineRise, FP.msix, FP.send])
    exact (congrArg (fun j : Jnl => j.queue.length) (h .jnl (by simp))).ge
  flag j i hi := s.on_setFlags_mono _ _ (chgEvt_not_lineOut j) hi

theorem State.setRole_logged (r : Role) : Logged s (s.setRole k r) :=
  (State.setRole_only (.refl _ s) k r (logOps_beside k).role).logged

theorem State.finish_logged (d : Desc) (status qual result : Nat) : Logged s (s.finish d status qual result) := by
  have hentry : Logged s (if d.opc = 6 ∨ d.opc = 0x0B then s.cmdEntry d 0 false status qual 0 else s) :=
    .ite ⟨by simp [State.cmdEntry, State.journal], fun _ _ h => h⟩ (.refl s)
  exact hentry.trans (State.done_only (.refl _ _) d status qual result (logOps_beside 0).done).logged

theorem State.abortSounding_logged (status : Nat) : Logged s (s.abortSounding k status) := by
  unfold State.abortSounding
  split
  · exact .refl s
  · next r _ =>
    extract_lets u v w
    have hu : Logged s u := (State.restoreLoop_only (.refl _ s) k r (logOps_beside k).restore).logged
    have hv : Logged s v := hu.trans (.ite (u.evt_logged _) (.refl u))
    have hw : Logged s w := hv.trans (.ite (v.setRole_logged k .none) (.refl v))
    exact hw.trans (w.finish_logged _ _ _ _)

theorem State.enterStage_logged (g : Stage) : Logged s (s.enterStage k g) := by
  have hops := logOps_beside k
  unfold State.enterStage
  extract_lets u v w x
  have hu : Logged s u := s.abortSounding_logged k 8
  have hv : Logged s v := hu.trans (State.setStage_only (.refl _ u) k g hops.setStage).logged
  have hw : Logged s w := hv.trans (.ite (.refl v) (v.setRole_logged k _))
  have hx : Logged s x := hw.trans
    (.ite (State.setItgt_only (State.modChg_only (.refl _ w) k _ hops.chg) k 0 hops.setItgt).logged (.refl w))
  exact .ite hu (.ite (hx.trans (State.modChg_only (.refl _ x) k _ hops.chg).logged) hx)

theorem State.leaveHoldup_logged : Logged s (s.leaveHoldup k) := by
  have hops := logOps_beside k
  unfold State.leaveHoldup
  extract_lets g u v w
  have hv : Logged s v := (s.setRole_logged k .none).trans (State.modChg_only (.refl _ u) k _ hops.chg).logged
  have hw : Logged s w := hv.trans (.ite (v.enterStage_logged k _) (.ite (.refl v) (v.enterStage_logged k _)))
  exact .ite (.refl s) (.ite hw (hw.trans (State.notice_only (.refl _ w) 4 0 hops.notice).logged))

theorem State.leaveGust_logged : Logged s (s.leaveGust k) := by
  unfold State.leaveGust
  extract_lets u v
  have hu : Logged s u := (State.modChg_only (.refl _ s) k _ (logOps_beside k).chg).logged
  have hv : Logged s v := (hu.trans (u.setRole_logged k .none)).trans (State.setRole_logged _ k _)
  exact .ite (.refl s) (.ite (hv.trans (v.enterStage_logged k _)) hv)
end

/-! ### What leaves the role of a port -/

/-- The footprints of what the end of a Sounding run and a notice do beside the role of a port. -/
structure KeepRoleOps (P : Place → Prop) (k : Fin 2) : Prop where
  restore : FP.restoreLoop P k
  evt : FP.evt P (CHG_EVT k)
  finish : FP.finish P
  notice : FP.notice P

theorem keepRoleOps (k : Fin 2) : KeepRoleOps (· ≠ .reg (CHG_STAT k)) k := by
  constructor
  all_goals
    repeat' first
      | decide +revert
      | apply And.intro
      | intro _

theorem chgStat_ne_gstat (k : Fin 2) : CHG_STAT k ≠ CHG_GSTAT := by decide +revert

theorem chgStat_ne_loop (k : Fin 2) : CHG_STAT k ≠ CHG_CUR k ∧ CHG_STAT k ≠ CHG_TIME k ∧ PK_STAT k ≠ CHG_STAT k := by
  decide +revert

section
variable (s : State) (k : Fin 2)

theorem State.abortSounding_role (status : Nat) (h : s.role k ≠ .charge) : (s.abortSounding k status).role k = s.role k := by
  obtain ⟨hrestore, hevt, hfinish, -⟩ := keepRoleOps k
  unfold State.abortSounding
  split
  · rfl
  · next r _ =>
    extract_lets u v w
    have hv : OnlyAt (· ≠ .reg (CHG_STAT k)) s v := by
      have hu := State.restoreLoop_only (.refl _ s) k r hrestore
      exact OnlyAt.ite (State.evt_only hu _ hevt) hu
    have hrole : v.role k = s.role k := State.role_of_word (hv.word (by simp))
    have hw : w = v := if_neg (fun hc => h (hrole.symm.trans hc.2))
    rw [hw]
    exact State.role_of_word ((State.finish_only hv _ _ _ _ hfinish).word (by simp))

/-- A port without a role that enters a stage without charging stays without a role (R155). -/
theorem State.enterStage_role {g : Stage} (h : s.role k = .none) (hg : stageRole g = .none) : (s.enterStage k g).role k = .none := by
  have hitgt (t : State) (c : Prop) [Decidable c] :
      (if c then (t.modChg k (fun c => { c with cv := 0 })).setItgt k 0 else t).role k = t.role k := by
    split
    · exact State.role_of_word (State.word_setFld_off _ _ (chgStat_ne_loop k).1)
    · rfl
  have hstage (t : State) : (t.setStage k g).role k = t.role k := by
    have hcode : (t.setFld (CHG_STAT_STAGE k) g.code).role k = t.role k := t.role_setFld_ne k _ (by simp) (.inr (.inr (by simp)))
    have htime (u : State) : (u.setFld (CHG_TIME_TSTAGE k) 0).role k = u.role k :=
      State.role_of_word (State.word_setFld_off _ _ (chgStat_ne_loop k).2.1)
    unfold State.setStage
    extract_lets keep u v w
    have hw : w.role k = t.role k := by
      unfold w
      split <;> exact hcode
    split
    · exact hw
    · exact (htime _).trans hw
  unfold State.enterStage
  extract_lets u v w x
  have hu : u.role k = .none := (s.abortSounding_role k 8 (by simp [h])).trans h
  have hw : w.role k = .none := by
    unfold w
    split
    · exact (hstage u).trans hu
    · rw [State.role_setRole_same, hg]
  have hx : x.role k = .none := (hitgt w _).trans hw
  split
  · exact hu
  · split <;> exact hx

theorem State.notice_role (code data : Nat) : (s.notice code data).role k = s.role k :=
  State.role_of_word ((State.notice_only (.refl _ s) code data (keepRoleOps k).notice).word (by simp))

theorem State.leaveHoldup_role (h : s.role k = .holdup) : (s.leaveHoldup k).role k = .none := by
  unfold State.leaveHoldup
  extract_lets g u v w
  have hv : v.role k = .none := s.role_setRole_same k .none
  have hw : w.role k = .none := by
    unfold w
    split
    · exact v.enterStage_role k hv rfl
    · split
      · exact hv
      · exact v.enterStage_role k hv rfl
  rw [if_neg (by simp [h])]
  split
  · exact hw
  · exact (w.notice_role k 4 0).trans hw

/-! ### The cut of a port -/

/-- The role and the share of a port in hold-up are as they were. -/
structure ShareHold (k : Fin 2) (s t : State) : Prop where
  role : t.role k = s.role k
  share : t.chg[k].hshare = s.chg[k].hshare

theorem ShareHold.refl (s : State) : ShareHold k s s := ⟨rfl, rfl⟩

theorem ShareHold.trans {s t u : State} (h : ShareHold k s t) (h' : ShareHold k t u) : ShareHold k s u :=
  ⟨h'.role.trans h.role, h'.share.trans h.share⟩

theorem ShareHold.ite {s t u : State} {c : Prop} [Decidable c] (ht : ShareHold k s t) (hu : ShareHold k s u) :
    ShareHold k s (if c then t else u) := by split <;> assumption

theorem OnlyAt.shareHold {s t : State} (h : OnlyAt (BesideRole k) s t) : ShareHold k s t :=
  ⟨State.role_of_word (h.word (by simp)), congrArg ChgH.hshare (h (.chg k) (by simp))⟩

theorem State.setOn_shareHold {f : Fld} (b : Bool) (hf : f.Fits) (hd : f.off ≠ CHG_STAT k ∨ f.hi < 25 ∨ 27 < f.lo) :
    ShareHold k s (s.setOn f b) := ⟨s.role_setFld_ne k _ hf hd, rfl⟩

theorem State.syncPack_shareHold : ShareHold k s (s.syncPack k) := by
  obtain ⟨-, -, hne⟩ := chgStat_ne_loop k
  unfold State.syncPack
  extract_lets p shown t cool noTrip u v
  have ht : ShareHold k s t := ⟨s.role_setFld_ne k _ (by simp) (.inl hne), rfl⟩
  have hu : ShareHold k s u := ht.trans k (t.setOn_shareHold k _ (by simp) (.inl hne))
  have hv : ShareHold k s v := hu.trans k (u.setOn_shareHold k _ (by simp) (.inl hne))
  exact hv.trans k (v.setOn_shareHold k _ (by simp) (.inr (.inl (by simp))))

theorem State.syncElig_shareHold : ShareHold k s (s.syncElig k) :=
  (s.setOn_shareHold k _ (by simp) (.inr (.inl (by simp)))).trans k (State.setOn_shareHold _ k _ (by simp) (.inr (.inl (by simp))))

theorem State.gustLoss_shareHold : ShareHold k s (s.gustLoss k) := by
  have hdrop : ShareHold k s (s.modChg k (fun c => { c with gdrop := true })) := ⟨rfl, by rw [State.modChg_same]⟩
  exact (ShareHold.ite k hdrop (.refl k s)).trans k (State.syncElig_shareHold _ k)

/-- The footprints of what a reference does beside the role of its port. -/
structure RefOps (P : Place → Prop) (k : Fin 2) : Prop where
  evt : FP.evt P (CHG_EVT k)
  setFcc : FP.setFcc P k
  setSoc : FP.setSoc P k
  pk : P (.pk k)
  stat : P (.reg (PK_STAT k))
  jnl : P .jnl
  notice : FP.notice P

theorem refOps_beside (k : Fin 2) : RefOps (BesideRole k) k := by
  constructor
  all_goals
    repeat' first
      | decide +revert
      | apply And.intro
      | intro _

theorem State.checkWorn_shareHold : ShareHold k s (s.checkWorn k) := by
  have hops := refOps_beside k
  unfold State.checkWorn
  extract_lets cyc soh age worn u v
  have hv : ShareHold k s v :=
    (State.jevent_only (State.setOn_only (.refl _ s) _ true hops.stat) _ _ _ _ _ _ hops.jnl).shareHold k
  have hnotice : ShareHold k s (v.notice 2 k.val) := hv.trans k ((State.notice_only (.refl _ v) _ _ hops.notice).shareHold k)
  exact .ite k ((hnotice.trans k (State.syncPack_shareHold _ k)).trans k (State.gustLoss_shareHold _ k)) (.refl k s)

theorem State.socRef_shareHold (full : Bool) : ShareHold k s (s.socRef k full) := by
  have hops := refOps_beside k
  unfold State.socRef
  extract_lets p old counted u v w
  have hu : OnlyAt (BesideRole k) s u := OnlyAt.ite (State.setFcc_only (.refl _ s) k _ hops.setFcc) (.refl _ s)
  have hw : OnlyAt (BesideRole k) s w :=
    State.setFld_only (State.setSoc_only (State.modPk_only hu k _ hops.pk) k _ hops.setSoc) _ _ hops.stat
  exact ((hw.shareHold k).trans k (w.syncPack_shareHold k)).trans k (State.checkWorn_shareHold _ k)

theorem socRef_besideEvt : FP.socRef (· ≠ .reg (CHG_EVT k)) k := by
  repeat' first
    | decide +revert
    | apply And.intro
    | intro _

theorem holdupCut_clause (k : Fin 2) (s : State) (hrole : s.role k = .holdup) (hn : 100 ≤ s.chg[k].cutN) (hcut : s.chg[k].cut = none) :
    Gives (.holdupCut k) s (fun t => t.on (CHG_EVT_HUCUT k) = true ∧ (s.chg[k].hshare = 0 → t.role k = .none) ∧
      (s.chg[k].hshare ≠ 0 → t.role k = .holdup ∧ t.chg[k].cut = some (s.chg[k].hshare / 1000))) := by
  set u := (s.evt (CHG_EVT_HUCUT k)).socRef k false with hu
  have hold : ShareHold k s u :=
    ((State.evt_only (.refl _ s) _ (refOps_beside k).evt).shareHold k).trans k (State.socRef_shareHold _ k false)
  have hevt : u.on (CHG_EVT_HUCUT k) = true :=
    (State.on_of_word ((State.socRef_only (.refl _ _) k false (socRef_besideEvt k)).word (by simp))).trans
      (s.on_evt_same (chgEvt_not_lineOut k) (by simp))
  have hrun : execHoldupCut k s = .next (if u.chg[k].hshare = 0 then u.leaveHoldup k
      else u.modChg k (fun c => { c with cut := some (c.hshare / 1000) })) :=
    congrArg Host.Outcome.next (if_neg (by simp [hrole, hcut, -Fin.getElem_fin]; omega))
  refine ⟨_, hrun, ?_⟩
  rw [hold.share]
  by_cases h0 : s.chg[k].hshare = 0
  · rw [if_pos h0]
    exact ⟨(u.leaveHoldup_logged k).flag k _ hevt, fun _ => u.leaveHoldup_role k (hold.role.trans hrole), fun h => absurd h0 h⟩
  · rw [if_neg h0]
    refine ⟨hevt, fun h => absurd h h0, fun _ => ⟨hold.role.trans hrole, ?_⟩⟩
    rw [State.modChg_same, hold.share]
end

/-! ### The loop and the monitor of BUS -/

/-- What the loop gives a port leaves the loop's own quantities. -/
theorem setShare_chgg (k : Fin 2) : FP.setCmd (· ≠ .chgg) k ∧ FP.setPout (· ≠ .chgg) k := by
  repeat' first
    | decide +revert
    | apply And.intro

theorem holdupLoopUpdate_clause (x : Rat) (s : State) (hrole : s.role 0 = .holdup ∨ s.role 1 = .holdup) (hpreset : s.chgg.preset = false)
    (hcut : ∀ k : Fin 2, s.chg[k].cut = none) (hx : s.meas.v[12] = x) : Gives (.holdupLoopUpdate) s (fun t =>
      (t.chgg.ihu = clampR (s.chgg.int + (orZero 1 (s.fld CHG_HU_KP) : Rat) * ((s.fld PH_VREF_VREF : Rat) / 10000 - x)) 0
        ((finsWhere s.holdsUp).foldl (fun a k => a + s.ipl k * s.kout k) 0)) ∧
      (t.chgg.int = if 0 < t.chgg.ihu ∧ t.chgg.ihu < (finsWhere s.holdsUp).foldl (fun a k => a + s.ipl k * s.kout k) 0
        then s.chgg.int + (s.fld CHG_HU_KI : Rat) * ((s.fld PH_VREF_VREF : Rat) / 10000 - x) / 1000 else s.chgg.int)) := by
  have hcutShare (k : Fin 2) : s.cutShare k = s := by
    unfold State.cutShare
    rw [hcut k]
  have hall : (finsWhere (fun k : Fin 2 => s.role k == .holdup)).isEmpty = false := by
    rw [List.isEmpty_eq_false_iff_exists_mem]
    rcases hrole with h | h
    · exact ⟨0, mem_finsWhere.mpr (by simp [h])⟩
    · exact ⟨1, mem_finsWhere.mpr (by simp [h])⟩
  refine ⟨_, rfl, ?_⟩
  rw [hcutShare 0, hcutShare 1]
  extract_lets u all ports vref vbus e preset floor cap icap raw ihu free int g t stay gone sh
  rw [if_neg (by rw [hall]; simp)]
  have hp : preset = false := by simp [preset, u, hpreset]
  have hfloor : floor = 0 := by simp [floor, hp]
  have hfree : free = true ↔ 0 < ihu ∧ ihu < icap := by simp [free, hp, hfloor]
  have hend : (t.each (all.filter (fun k => t.chg[k].cut.isNone)) (fun t k =>
      ((t.modChg k (fun c => { c with hshare := sh k })).setCmd k (divR (sh k) (t.kout k))).setPout k)).chgg = t.chgg := by
    refine State.each_only (P := (· ≠ .chgg)) (.refl _ t) _ _ (fun u k _ hu => ?_) .chgg (by simp)
    exact State.setPout_only (State.setCmd_only (State.modChg_only hu k _ (by simp)) k _ (setShare_chgg k).1) k (setShare_chgg k).2
  subst hx
  beta_reduce
  rw [hend]
  refine ⟨?_, if_congr hfree rfl rfl⟩
  show clampR raw floor icap = _
  rw [hfloor]

/-- The monitor of BUS acts on its flag, its report and the throttle pins (R178). -/
theorem syncThr_gstat : FP.syncThr (fun l => l ≠ .reg CHG_GSTAT ∧ l ≠ .chgg ∧ ∀ k : Fin 2, l ≠ .reg (CHG_EVT k)) := by
  repeat' first
    | decide
    | apply And.intro

theorem State.syncThr_chgg (s : State) : s.syncThr.chgg = s.chgg := State.syncThr_only (.refl _ s) syncThr_gstat .chgg (by simp)

theorem State.syncThr_word_gstat (s : State) : s.syncThr.word CHG_GSTAT = s.word CHG_GSTAT :=
  (State.syncThr_only (.refl _ s) syncThr_gstat).word (by simp)

/-- The flag HULOW of every port in hold-up. -/
def State.tellLow (s : State) : State := s.each (finsWhere (fun k : Fin 2 => s.role k == .holdup)) (fun t k => t.evt (CHG_EVT_HULOW k))

theorem State.tellLow_flag {s : State} {k : Fin 2} (h : s.role k = .holdup) : s.tellLow.on (CHG_EVT_HULOW k) = true :=
  State.each_sets (finsWhere_nodup _) (mem_finsWhere.mpr (by simp [h])) (fun t => t.on_evt_same (chgEvt_not_lineOut k) (by simp))
    (fun t _ _ ht => (t.evt_logged _).flag k _ ht)

theorem evtLow_beside (k : Fin 2) : FP.evt (fun l => l ≠ .reg CHG_GSTAT ∧ l ≠ .chgg) (CHG_EVT k) := by
  repeat' first
    | decide +revert
    | apply And.intro

theorem State.tellLow_only (s : State) : OnlyAt (fun l => l ≠ .reg CHG_GSTAT ∧ l ≠ .chgg) s s.tellLow :=
  State.each_only (.refl _ s) _ _ (fun _ k _ h => State.evt_only h _ (evtLow_beside k))

theorem hulowAssert_clause (s : State) (hrun : s.on CHG_GSTAT_HURUN = true) (hlow : 20 ≤ s.chgg.lowN) : Gives (.hulowAssert) s (fun t =>
    t.chgg.hulow = true ∧ t.on CHG_GSTAT_HULOWACT = true ∧ t.fld FC_THR_STATE = 0xFF ∧
      (∀ k : Fin 2, s.role k = .holdup → t.on (CHG_EVT_HULOW k) = true)) := by
  set u := ({ s with chgg := { s.chgg with hulow := true } } : State).setOn CHG_GSTAT_HULOWACT true with hu
  have hexec : execHulowAssert s = .next u.tellLow.syncThr :=
    congrArg Host.Outcome.next (if_neg (by simp [hrun]; omega))
  have hchgg : u.tellLow.chgg.hulow = true := congrArg ChgGH.hulow (u.tellLow_only .chgg (by simp))
  have hact : u.tellLow.on CHG_GSTAT_HULOWACT = true :=
    (State.on_of_word (u.tellLow_only.word (by simp))).trans (State.on_setOn_same _ true (by simp))
  refine ⟨_, hexec, ?_, ?_, ?_, fun k hk => ?_⟩
  · rw [State.syncThr_chgg, hchgg]
  · rw [State.on_of_word (State.syncThr_word_gstat _), hact]
  · rw [State.fld_syncThr, State.thrAll, hchgg, Bool.true_or, Bool.true_or, if_pos rfl]
  · have hrole : u.role k = .holdup := (State.role_of_word (s.word_setFld_off _ (chgStat_ne_gstat k))).trans hk
    exact (State.on_of_word ((State.syncThr_only (.refl _ _) syncThr_gstat).word (fun h => h.2.2 k rfl))).trans (State.tellLow_flag hrole)

theorem hulowRelease_clause (s : State) (hhigh : 1000 ≤ s.chgg.highN) : Gives (.hulowRelease) s (fun t => t.chgg.hulow = false ∧
    t.on CHG_GSTAT_HULOWACT = false ∧ (s.running = true → s.on FEED_GSTAT_EXSTOP = false → t.fld FC_THR_STATE = s.fcPins.toNat)) := by
  set u := ({ s with chgg := { s.chgg with hulow := false } } : State).setOn CHG_GSTAT_HULOWACT false with hu
  have hexec : execHulowRelease s = .next u.syncThr := congrArg Host.Outcome.next (if_neg (by omega))
  have hword {o : Nat} (ho : o ≠ CHG_GSTAT) : u.word o = s.word o := State.word_setFld_off _ _ ho
  refine ⟨_, hexec, congrArg ChgGH.hulow u.syncThr_chgg, ?_, fun hrun hstop => ?_⟩
  · rw [State.on_of_word (State.syncThr_word_gstat _)]
    exact State.on_setOn_same _ false (by simp)
  · have hmode : u.mode = 1 := (State.fld_of_word (f := SYS_STATE_MODE) (hword (by decide))).trans (eq_of_beq hrun : s.mode = 1)
    have hall : u.thrAll = false := by
      have hlow : u.chgg.hulow = false := rfl
      have hex : u.on FEED_GSTAT_EXSTOP = false := (State.on_of_word (hword (by decide))).trans hstop
      simp [State.thrAll, hlow, hex, hmode]
    rw [State.fld_syncThr, hall]
    rfl

/-! ### The end of Gust's hold -/

theorem gustHoldEnd_clause (k : Fin 2) (s : State) (hrole : s.role k = .gust) (hshare : s.chg[k].gshare = 0)
    (hzero : 1000 * orZero 1 (s.fld (CHG_GUST_GHOLD k)) ≤ s.chg[k].gzero) (hprof : s.chg[k].requal = false) :
    Gives (.gustHoldEnd k) s (fun t => t.role k = stageRole (s.stage k) ∧ t.stage k = s.stage k) := by
  set u := s.modChg k (fun c => { c with gshare := 0, gdrop := false }) with hu
  have hrequal : ((u.setRole k .none).setRole k (stageRole (s.stage k))).chg[k].requal = false := by
    rw [State.setRole_requal, State.setRole_requal, hu, State.modChg_same, hprof]
  have hleave : s.leaveGust k = (u.setRole k .none).setRole k (stageRole (s.stage k)) := by
    unfold State.leaveGust
    rw [if_neg (by simp [hrole])]
    exact if_neg (by rw [show u.stage k = s.stage k from rfl, hrequal]; simp)
  have hexec : execGustHoldEnd k s = .next (s.leaveGust k) := congrArg Host.Outcome.next (if_pos ⟨hrole, hshare, hzero⟩)
  refine ⟨_, hexec, ?_, ?_⟩
  · rw [hleave, State.role_setRole_same]
  · rw [hleave, State.stage_setRole, State.stage_setRole]
    rfl

end Sys2Proof.Machine
end
section
/-! PROOF. The extraction stop (R108): throttles, phases and pack FETs at once, then the LIFE records and the journal's entry. -/

namespace Sys2Proof.Machine

/-! ### The footprints of its steps -/

/-- What the stop writes in its flags, what it reads of the packs, and the mode. -/
def Place.ofStop : Place → Bool
  | .reg o => [FEED_GSTAT, FC_THR, SYS_STATE, PK_STAT 0, PK_STAT 1].contains o
  | .pk _ => true
  | _ => false

/-- What the ends of the roles of port `j` leave: these places and the role of the other port. -/
def Place.besideRoles (j : Fin 2) (l : Place) : Bool := l.ofStop || (List.finRange 2).any (fun k => k != j && l == .reg (CHG_STAT k))

/-- What the phases and the throttle pins leave: these places, the roles and the journal. -/
def Place.besidePhases (l : Place) : Bool := l.ofStop || l == .jnl || l == .reg (CHG_STAT 0) || l == .reg (CHG_STAT 1)

/-- What a change of direction leaves beside that: the states of the phases. -/
def Place.besideTurn (l : Place) : Bool := l.besidePhases || (List.finRange 16).any (fun n => l == .reg (PH_STAT n))

/-- What the opening of the pack FETs of port `j` leaves: the same, but what stands of the port's own pack. -/
def Place.besideOpen (j : Fin 2) (l : Place) : Bool :=
  l.besideTurn && l != .reg (PK_STAT j) && l != .pk j && l != .reg (CHG_STAT j)

/-- The footprints of the ends of a port's roles. -/
structure EndOps (P : Place → Prop) (j : Fin 2) : Prop where
  sounding : FP.abortSounding P j
  leaveHoldup : FP.leaveHoldup P j
  leaveGust : FP.leaveGust P j
  role : FP.setRole P j
  cmd : FP.setCmd P j

theorem endOps (j : Fin 2) : EndOps (fun l => l.besideRoles j = false) j := by
  constructor
  all_goals
    repeat' first
      | decide +revert
      | apply And.intro
      | intro _

theorem stopPhases_beside : FP.stopPhases (fun l => l.besidePhases = false) := by
  repeat' first
    | decide +revert
    | apply And.intro
    | intro _

theorem turn_beside (j : Fin 2) : FP.turn (fun l => l.besideTurn = false) j := by
  repeat' first
    | decide +revert
    | apply And.intro

theorem openPort_beside (j : Fin 2) : FP.openPort (fun l => l.besideOpen j = false) j := by
  repeat' first
    | decide +revert
    | apply And.intro

theorem ofStop_port (k : Fin 2) : (Place.reg (PK_STAT k)).ofStop = true ∧ (Place.pk k).ofStop = true := by decide +revert

theorem besidePhases_role (k : Fin 2) : (Place.reg (CHG_STAT k)).besidePhases = true := by decide +revert

/-- The other port stays as it is. -/
theorem beside_otherPort {k j : Fin 2} (h : k ≠ j) : (Place.reg (CHG_STAT k)).besideRoles j = true ∧
    (Place.reg (CHG_STAT k)).besideOpen j = true ∧ (Place.reg (PK_STAT k)).besideOpen j = true ∧ (Place.pk k).besideOpen j = true := by
  decide +revert

theorem besideOpen_stop (j : Fin 2) :
    ∀ l ∈ [Place.reg FEED_GSTAT, .reg FC_THR, .reg SYS_STATE, .jnl], l.besideOpen j = true := by
  decide +revert

theorem besideOpen_phase (n : Fin 16) (j : Fin 2) : (Place.reg (PH_STAT n)).besideOpen j = true := by decide +revert

/-! ### The end of the roles of a port -/

section
variable (s : State) (k : Fin 2)

/-- The end of every role of a port, with its command. -/
def State.endRoles (s : State) (k : Fin 2) : State :=
  ((((s.abortSounding k 8).leaveHoldup k).leaveGust k).setRole k .none).setCmd k 0

theorem State.endRoles_only : OnlyAt (fun l => l.besideRoles k = false) s (s.endRoles k) := by
  obtain ⟨hsounding, hholdup, hgust, hrole, hcmd⟩ := endOps k
  exact State.setCmd_only (State.setRole_only (State.leaveGust_only (State.leaveHoldup_only (State.abortSounding_only (.refl _ s) k 8
    hsounding) k hholdup) k hgust) k .none hrole) k 0 hcmd

theorem State.endRoles_role : (s.endRoles k).role k = .none :=
  (State.role_of_word ((State.setCmd_only (.refl _ _) k 0 (roleOps_beside k).cmd).word (by simp))).trans (State.role_setRole_same _ k .none)

theorem State.endRoles_logged : Logged s (s.endRoles k) :=
  ((((s.abortSounding_logged k 8).trans (State.leaveHoldup_logged _ k)).trans (State.leaveGust_logged _ k)).trans
    (State.setRole_logged _ k .none)).trans (State.setCmd_only (.refl _ _) k 0 (logOps_beside k).cmd).logged

/-! ### The pack FETs of a port -/

/-- What the report of a pack leaves of PKn_STAT. -/
theorem State.syncPack_fld {f : Fld} (hf : f.Fits) (hoff : f.off = PK_STAT k) (hbits : 20 ≤ f.lo ∧ f.hi < 24 ∨ 27 < f.lo) :
    (s.syncPack k).fld f = s.fld f := by
  have hne : f.off ≠ CHG_STAT k := by rw [hoff]; exact (chgStat_ne_loop k).2.2
  unfold State.syncPack State.setOn
  dsimp only
  rw [State.fld_setFld_off _ _ _ _ hne, State.fld_setFld_ne _ _ (by simp) hf (.inr (by simp only; omega)),
    State.fld_setFld_ne _ _ (by simp) hf (.inr (by simp only; omega)), State.fld_setFld_ne _ _ (by simp) hf (.inr (by simp only; omega))]

theorem State.syncPack_pk : (s.syncPack k).pk = s.pk := rfl

/-- Both FETs of a port are open, and what else stands of the port is as it was. -/
structure Opened (k : Fin 2) (s t : State) : Prop where
  chgon : t.on (PK_STAT_CHGON k) = false
  dsgon : t.on (PK_STAT_DSGON k) = false
  pres : t.packIn k = s.packIn k
  ident : t.pk[k].ident = s.pk[k].ident
  role : t.role k = s.role k

theorem State.setGates_opened : Opened k s (s.setGates k false false) := by
  obtain ⟨-, -, hne⟩ := chgStat_ne_loop k
  set u := (s.setOn (PK_STAT_CHGON k) false).setOn (PK_STAT_DSGON k) false with hu
  have hgates : s.setGates k false false = u.syncPack k := rfl
  have hon {f : Fld} (hf : f.Fits) (hoff : f.off = PK_STAT k) (hbits : 20 ≤ f.lo ∧ f.hi < 24 ∨ 27 < f.lo) :
      (u.syncPack k).on f = u.on f :=
    congrArg (· != 0) (u.syncPack_fld k hf hoff hbits)
  rw [hgates]
  refine ⟨?_, ?_, ?_, rfl, ?_⟩
  · rw [hon (by simp) rfl (by simp)]
    exact (State.on_setFld_ne _ _ (by simp) (by simp) (.inr (.inr (by simp)))).trans (s.on_setOn_same false (by simp))
  · rw [hon (by simp) rfl (by simp)]
    exact State.on_setOn_same _ false (by simp)
  · show (u.syncPack k).on (PK_STAT_PRES k) = _
    rw [hon (by simp) rfl (by simp)]
    exact (State.on_setFld_ne _ _ (by simp) (by simp) (.inr (.inr (by simp)))).trans
      (s.on_setFld_ne _ (by simp) (by simp) (.inr (.inr (by simp))))
  · refine (u.syncPack_shareHold k).role.trans ?_
    exact (State.role_setFld_ne _ k _ (by simp) (.inl hne)).trans (s.role_setFld_ne k _ (by simp) (.inl hne))

theorem State.openPort_opened : Opened k s (s.openPort k) := by
  obtain ⟨-, -, hne⟩ := chgStat_ne_loop k
  set v := s.modPk k (fun p => { p with probing := false, reopened := false }) with hv
  have hopen : s.openPort k = if (v.setGates k false false).pkSt k = .closed ∨ (v.setGates k false false).pkSt k = .closing
      then ((v.setGates k false false).setPk k .open).syncPack k else v.setGates k false false := rfl
  have hident : v.pk[k].ident = s.pk[k].ident := by rw [hv, State.modPk_same]
  obtain ⟨hchg, hdsg, hpres, hid, hrole⟩ := v.setGates_opened k
  rw [hopen]
  generalize v.setGates k false false = u at *
  have hon {f : Fld} (hf : f.Fits) (hoff : f.off = PK_STAT k) (hbits : 20 ≤ f.lo ∧ f.hi < 24) :
      ((u.setPk k .open).syncPack k).on f = u.on f :=
    congrArg (· != 0) (((u.setPk k .open).syncPack_fld k hf hoff (.inl hbits)).trans
      (u.fld_setFld_ne _ (by simp) hf (.inr (.inl (by simp only; omega)))))
  have hs : Opened k s u := ⟨hchg, hdsg, hpres, hid.trans hident, hrole⟩
  split
  · refine ⟨(hon (by simp) rfl (by simp)).trans hs.chgon, (hon (by simp) rfl (by simp)).trans hs.dsgon,
      (hon (by simp) rfl (by simp)).trans hs.pres, ?_, ?_⟩
    · rw [State.syncPack_pk]
      exact hs.ident
    · exact ((State.syncPack_shareHold _ k).role.trans (u.role_setFld_ne k _ (by simp) (.inl hne))).trans hs.role
  · exact hs

/-- The FETs of a port open, and its direction is IDLE. -/
def State.parkPort (s : State) (k : Fin 2) : State := (s.openPort k).turn k .idle

theorem besideTurn_of_open {l : Place} {j : Fin 2} (h : l.besideTurn = false) : l.besideOpen j = false := by
  simp [Place.besideOpen, h]

theorem State.parkPort_only : OnlyAt (fun l => l.besideOpen k = false) s (s.parkPort k) :=
  (State.openPort_only (.refl _ s) k (openPort_beside k)).trans
    ((State.turn_only (.refl _ _) k .idle (turn_beside k)).mono (fun _ => besideTurn_of_open))

theorem State.parkPort_opened : Opened k s (s.parkPort k) := by
  obtain ⟨hchg, hdsg, hpres, hident, hrole⟩ := s.openPort_opened k
  have hturn := State.turn_only (.refl _ (s.openPort k)) k .idle (turn_beside k)
  have hpk : (s.parkPort k).word (PK_STAT k) = (s.openPort k).word (PK_STAT k) :=
    hturn.word (by simp [Place.besideTurn, Place.besidePhases, (ofStop_port k).1])
  have hstat : (s.parkPort k).word (CHG_STAT k) = (s.openPort k).word (CHG_STAT k) :=
    hturn.word (by simp [Place.besideTurn, besidePhases_role k])
  have hhid : (s.parkPort k).pk[k] = (s.openPort k).pk[k] :=
    hturn (.pk k) (by simp [Place.besideTurn, Place.besidePhases, (ofStop_port k).2])
  exact ⟨(State.on_of_word hpk).trans hchg, (State.on_of_word hpk).trans hdsg,
    (State.on_of_word (f := PK_STAT_PRES k) hpk).trans hpres, (congrArg PkH.ident hhid).trans hident,
    (State.role_of_word hstat).trans hrole⟩
end

/-! ### The phases -/

theorem State.restPh_still (s : State) (n : Fin 16) : s.restPh n ≠ .run ∧ s.restPh n ≠ .shedding := by
  unfold State.restPh
  repeat' split
  all_goals exact ⟨by simp, by simp⟩

theorem State.phSwitching_eq_false {s : State} {n : Fin 16} : s.phSwitching n = false ↔ s.phSt n ≠ .run ∧ s.phSt n ≠ .shedding := by
  simp [State.phSwitching]

theorem phStat_besidePorts (n : Fin 16) : FP.syncPorts (· ≠ .reg (PH_STAT n)) := by
  repeat' first
    | decide +revert
    | apply And.intro

theorem phStat_inj {m n : Fin 16} (h : m ≠ n) : PH_STAT n ≠ PH_STAT m := by decide +revert

/-- No phase switches after all of them are stopped. -/
theorem State.stopPhases_still (s : State) (n : Fin 16) : s.stopPhases.phSwitching n = false := by
  have hports (t : State) : t.syncPorts.phSt n = t.phSt n :=
    State.phSt_of_fld ((State.syncPorts_only (.refl _ t) (phStat_besidePorts n)).fld (by simp))
  have hother (t : State) (m : Fin 16) (st : PhSt) (h : m ≠ n) : (t.setPh m st).phSt n = t.phSt n :=
    State.phSt_of_fld (State.fld_of_word (t.word_setPh_ne m st (phStat_inj h)))
  have hset (t : State) : (t.setPh n (t.restPh n)).phSt n ≠ .run ∧ (t.setPh n (t.restPh n)).phSt n ≠ .shedding := by
    rw [State.phSt_setPh_same]
    exact t.restPh_still n
  rw [State.phSwitching_eq_false]
  unfold State.stopPhases
  rw [hports]
  set l := finsWhere (fun n => s.phSwitching n || s.phSt n == .waking || s.phSt n == .test) with hl
  by_cases hn : n ∈ l
  · exact State.each_sets (R := fun t => t.phSt n ≠ .run ∧ t.phSt n ≠ .shedding) (finsWhere_nodup _) hn hset
      (fun t m hm ht => by rwa [hother t m _ hm])
  · have hs : s.phSt n ≠ .run ∧ s.phSt n ≠ .shedding := by
      rw [← State.phSwitching_eq_false]
      simp only [hl, mem_finsWhere, Bool.or_eq_true, not_or, Bool.not_eq_true] at hn
      exact hn.1.1
    exact State.each_keep (Q := fun t => t.phSt n ≠ .run ∧ t.phSt n ≠ .shedding) hs
      (fun t m hm ht => by rwa [hother t m _ (fun e => hn (e ▸ hm))])

/-! ### Steps 1 to 3 -/

/-- Step 1 (R108): the flags of the stop, and the throttle pins with them. -/
def State.stopFlags (s : State) : State := ((s.setOn FEED_GSTAT_EXSTOP true).setOn FEED_GSTAT_HOLDRUN false).syncThr

theorem State.stopPower_eq (s : State) :
    s.stopPower = (((s.stopFlags.each (List.finRange 2) State.endRoles).stopPhases).each (List.finRange 2) State.parkPort) := rfl

/-- The flags of a stop stand, and the mode, what is known of the packs and the journal are as they were. -/
structure StopTold (s t : State) : Prop where
  exstop : t.on FEED_GSTAT_EXSTOP = true
  holdrun : t.on FEED_GSTAT_HOLDRUN = false
  throttled : t.fld FC_THR_STATE = 0xFF
  waits : ∀ k, t.lifeWaits k = s.lifeWaits k
  queue : s.jnl.queue.length ≤ t.jnl.queue.length

theorem State.lifeWaits_congr {s t : State} {k : Fin 2} (hpres : t.packIn k = s.packIn k) (hid : t.pk[k].ident = s.pk[k].ident)
    (hmode : t.word SYS_STATE = s.word SYS_STATE) : t.lifeWaits k = s.lifeWaits k := by
  have htalk : t.safeTalk = s.safeTalk := congrArg (· == 2) (State.fld_of_word (f := SYS_STATE_MODE) hmode)
  unfold State.lifeWaits
  rw [hpres, hid, htalk]

/-- A change beside the places of the stop that takes nothing from the journal's queue. -/
theorem StopTold.only {P : Place → Prop} {s t u : State} (h : StopTold s t) (k : OnlyAt P t u) (hP : ∀ l, l.ofStop = true → ¬ P l)
    (hqueue : t.jnl.queue.length ≤ u.jnl.queue.length) : StopTold s u where
  exstop := (State.on_of_word (k.word (hP _ (by decide)))).trans h.exstop
  holdrun := (State.on_of_word (k.word (hP _ (by decide)))).trans h.holdrun
  throttled := (State.fld_of_word (k.word (hP _ (by decide)))).trans h.throttled
  waits j := by
    obtain ⟨hstat, hpk⟩ := ofStop_port j
    exact (State.lifeWaits_congr (State.on_of_word (f := PK_STAT_PRES j) (k.word (hP _ hstat))) (congrArg PkH.ident (k (.pk j) (hP _ hpk)))
      (k.word (hP _ (by decide)))).trans (h.waits j)
  queue := h.queue.trans hqueue

theorem OnlyAt.queue {P : Place → Prop} {s t : State} (h : OnlyAt P s t) (hP : ¬ P .jnl) : s.jnl.queue.length ≤ t.jnl.queue.length :=
  (congrArg (fun j : Jnl => j.queue.length) (h .jnl hP)).ge

theorem pkStat_besideThr (k : Fin 2) :
    PK_STAT k ≠ FEED_GSTAT ∧ (Place.reg (PK_STAT k)).besidePhases = true ∧ PK_STAT k ≠ FC_THR := by
  decide +revert

theorem syncThr_beside : FP.syncThr (fun l => l.besidePhases = false ∨ l = .reg FC_THR) := by
  repeat' first
    | decide
    | apply And.intro

theorem State.stopFlags_told (s : State) : StopTold s s.stopFlags := by
  set u := (s.setOn FEED_GSTAT_EXSTOP true).setOn FEED_GSTAT_HOLDRUN false with hu
  have hthr := State.syncThr_only (.refl _ u) syncThr_beside
  have hgstat : u.syncThr.word FEED_GSTAT = u.word FEED_GSTAT := hthr.word (by decide)
  have hex : u.on FEED_GSTAT_EXSTOP = true :=
    (State.on_setFld_ne _ _ (by simp) (by simp) (.inr (.inl (by simp)))).trans (s.on_setOn_same true (by simp))
  have hword {o : Nat} (ho : o ≠ FEED_GSTAT) (hp : (Place.reg o).besidePhases = true ∧ o ≠ FC_THR) : u.syncThr.word o = s.word o :=
    (hthr.word (by simp [hp])).trans ((State.word_setOn_off _ _ ho).trans (State.word_setOn_off _ _ ho))
  refine ⟨(State.on_of_word hgstat).trans hex, ?_, ?_, fun k => ?_, hthr.queue (by decide)⟩
  · exact (State.on_of_word hgstat).trans (State.on_setOn_same _ false (by simp))
  · show u.syncThr.fld FC_THR_STATE = 0xFF
    rw [State.fld_syncThr, State.thrAll, hex, Bool.or_true, Bool.true_or, if_pos rfl]
  · have hpres : u.syncThr.word (PK_STAT k) = s.word (PK_STAT k) := hword (pkStat_besideThr k).1 (pkStat_besideThr k).2
    exact State.lifeWaits_congr (State.on_of_word (f := PK_STAT_PRES k) hpres)
      (congrArg PkH.ident (hthr (.pk k) (by simp [Place.besidePhases, (ofStop_port k).2]))) (hword (by decide) (by decide))

/-- The roles of both ports have ended. -/
theorem State.endRoles_each (s : State) : (∀ k, (s.each (List.finRange 2) State.endRoles).role k = .none) ∧
    Logged s (s.each (List.finRange 2) State.endRoles) ∧
    OnlyAt (fun l => ∃ j, l.besideRoles j = false) s (s.each (List.finRange 2) State.endRoles) := by
  refine ⟨fun k => ?_, ?_, ?_⟩
  · refine State.each_sets (R := fun t => t.role k = .none) (List.nodup_finRange 2) (List.mem_finRange k) (fun t => t.endRoles_role k)
      (fun t j hj ht => ?_)
    have hout := (beside_otherPort hj.symm).1
    exact (State.role_of_word ((t.endRoles_only j).word (by simp [hout]))).trans ht
  · exact State.each_keep (Q := Logged s) (.refl s) (fun t j _ ht => ht.trans (t.endRoles_logged j))
  · exact State.each_only (.refl _ s) _ _ (fun t j _ ht => ht.trans ((t.endRoles_only j).mono (fun _ hl => ⟨j, hl⟩)))

/-- What a stop leaves of a port: no role, both FETs open. -/
structure PortDown (k : Fin 2) (t : State) : Prop where
  chgon : t.on (PK_STAT_CHGON k) = false
  dsgon : t.on (PK_STAT_DSGON k) = false
  role : t.role k = .none

/-- The ports are parked: their FETs open, the rest of their packs and their roles as they were. -/
theorem State.parkPort_each (s : State) : (∀ k, Opened k s (s.each (List.finRange 2) State.parkPort)) ∧
    OnlyAt (fun l => ∃ j, l.besideOpen j = false) s (s.each (List.finRange 2) State.parkPort) := by
  refine ⟨fun k => ?_, ?_⟩
  · have hkeep (t : State) (j : Fin 2) (hj : j ≠ k) : (t.parkPort j).word (PK_STAT k) = t.word (PK_STAT k) ∧
        (t.parkPort j).word (CHG_STAT k) = t.word (CHG_STAT k) ∧ (t.parkPort j).pk[k] = t.pk[k] := by
      obtain ⟨-, hstat, hpk, hhid⟩ := beside_otherPort hj.symm
      have honly := t.parkPort_only j
      exact ⟨honly.word (by simp [hpk]), honly.word (by simp [hstat]), honly (.pk k) (by simp [hhid])⟩
    refine State.each_once (Q := fun t => t.packIn k = s.packIn k ∧ t.pk[k].ident = s.pk[k].ident ∧ t.role k = s.role k)
      (R := Opened k s) (List.nodup_finRange 2) (List.mem_finRange k) ⟨rfl, rfl, rfl⟩
      (fun t j hj ht => ?_) (fun t ht => ?_) (fun t j hj ht => ?_)
    · obtain ⟨hpk, hstat, hhid⟩ := hkeep t j hj
      exact ⟨(State.on_of_word (f := PK_STAT_PRES k) hpk).trans ht.1, (congrArg PkH.ident hhid).trans ht.2.1,
        (State.role_of_word hstat).trans ht.2.2⟩
    · obtain ⟨hchg, hdsg, hpres, hid, hrole⟩ := t.parkPort_opened k
      exact ⟨hchg, hdsg, hpres.trans ht.1, hid.trans ht.2.1, hrole.trans ht.2.2⟩
    · obtain ⟨hpk, hstat, hhid⟩ := hkeep t j hj
      exact ⟨(State.on_of_word hpk).trans ht.chgon, (State.on_of_word hpk).trans ht.dsgon,
        (State.on_of_word (f := PK_STAT_PRES k) hpk).trans ht.pres, (congrArg PkH.ident hhid).trans ht.ident,
        (State.role_of_word hstat).trans ht.role⟩
  · exact State.each_only (.refl _ s) _ _ (fun t j _ ht => ht.trans ((t.parkPort_only j).mono (fun _ hl => ⟨j, hl⟩)))

/-- What stands after steps 1 to 3 of a stop (R108). -/
theorem State.stopPower_spec (s : State) :
    StopTold s s.stopPower ∧ (∀ k, PortDown k s.stopPower) ∧ ∀ n, s.stopPower.phSwitching n = false := by
  rw [State.stopPower_eq]
  obtain ⟨hrole, hlog, hends⟩ := s.stopFlags.endRoles_each
  have ha := s.stopFlags_told
  generalize s.stopFlags.each (List.finRange 2) State.endRoles = b at *
  have hb : StopTold s b := ha.only hends (by rintro l hl ⟨j, hj⟩; simp [Place.besideRoles, hl] at hj) hlog.queue
  have hphases := State.stopPhases_only (.refl _ b) stopPhases_beside
  have hstill := b.stopPhases_still
  generalize b.stopPhases = c at *
  have hc : StopTold s c := hb.only hphases (by intro l hl hp; simp [Place.besidePhases, hl] at hp) (hphases.queue (by decide))
  have hcrole (k : Fin 2) : c.role k = .none := (State.role_of_word (hphases.word (by simp [besidePhases_role k]))).trans (hrole k)
  obtain ⟨hopened, hpark⟩ := c.parkPort_each
  generalize c.each (List.finRange 2) State.parkPort = d at *
  have hout {l : Place} (h : ∀ j, l.besideOpen j = true) : ¬ ∃ j, l.besideOpen j = false := by simp [h]
  have hword {o : Nat} (ho : ∀ j, (Place.reg o).besideOpen j = true) : d.word o = c.word o := hpark.word (hout ho)
  have hgstat : d.word FEED_GSTAT = c.word FEED_GSTAT := hword (fun j => besideOpen_stop j _ (by simp))
  refine ⟨⟨?_, ?_, ?_, fun k => ?_, ?_⟩, fun k => ?_, fun n => ?_⟩
  · exact (State.on_of_word hgstat).trans hc.exstop
  · exact (State.on_of_word hgstat).trans hc.holdrun
  · exact (State.fld_of_word (hword (fun j => besideOpen_stop j _ (by simp)))).trans hc.throttled
  · exact (State.lifeWaits_congr (hopened k).pres (hopened k).ident (hword (fun j => besideOpen_stop j _ (by simp)))).trans (hc.waits k)
  · exact hc.queue.trans (hpark.queue (hout (fun j => besideOpen_stop j _ (by simp))))
  · exact ⟨(hopened k).chgon, (hopened k).dsgon, (hopened k).role.trans (hcrole k)⟩
  · have hst : d.phSt n = c.phSt n := State.phSt_of_fld (State.fld_of_word (hword (fun j => besideOpen_phase n j)))
    have hsw := hstill n
    rw [State.phSwitching_eq_false] at hsw ⊢
    rwa [hst]

/-! ### The records and the entry -/

/-- What a stop leaves: its flags, the ports down and the phases still, and either a pack's record awaited or the journal's entry queued. -/
structure PowerStopped (s t : State) : Prop where
  exstop : t.on FEED_GSTAT_EXSTOP = true
  holdrun : t.on FEED_GSTAT_HOLDRUN = false
  throttled : t.fld FC_THR_STATE = 0xFF
  ports : ∀ k, PortDown k t
  still : ∀ n, t.phSwitching n = false
  entry : s.lifeWaits 0 = false → s.lifeWaits 1 = false → s.jnl.queue.length < t.jnl.queue.length
  awaited : s.lifeWaits 0 = true → t.sys.seq.isSome = true

/-- Once no record is awaited, an extraction stop queues its entry and is over; until then it waits. -/
theorem State.stopNext_extract {s : State} {obj : Nat} {w : Vector Bool 2} (h : s.sys.seq = some ⟨.extract obj, w, none⟩) :
    s.stopNext = if w[0] || w[1] then s else ({ s with sys := { s.sys with seq := none } } : State).jevent
      (if obj = 0x0B then .feed else .chg) obj 0 0 (s.word FEED_GSTAT) 0 := by
  unfold State.stopNext
  rw [h]
  rfl

theorem State.wbDue_hold (s : State) (k : Fin 2) : (s.wbDue k).regs = s.regs ∧ (s.wbDue k).jnl = s.jnl ∧
    ∀ j, (s.wbDue k).lifeWaits j = s.lifeWaits j := by
  have hident (j : Fin 2) : (s.modPk k (fun p => { p with wbDue := p.wbDue + 1 })).pk[j].ident = s.pk[j].ident := by
    by_cases e : k = j
    · subst e
      rw [State.modPk_same]
    · rw [State.modPk_ne s _ e]
  unfold State.wbDue
  split
  · exact ⟨rfl, rfl, fun _ => rfl⟩
  · exact ⟨rfl, rfl, fun j => State.lifeWaits_congr rfl (hident j) rfl⟩

/-- A stop that awaits the records of its packs. -/
def State.awaiting (s : State) (obj : Nat) : State :=
  { s with sys := { s.sys with seq := some ⟨.extract obj, Vector.ofFn s.lifeWaits, none⟩ } }

/-- The registers after steps 1 to 3 stay; what is left of the stop is its queue entry or its wait. -/
theorem PowerStopped.of_regs {s p t : State} (htold : StopTold s p) (hports : ∀ k, PortDown k p) (hstill : ∀ n, p.phSwitching n = false)
    (hregs : t.regs = p.regs) (hentry : s.lifeWaits 0 = false → s.lifeWaits 1 = false → s.jnl.queue.length < t.jnl.queue.length)
    (hawaited : s.lifeWaits 0 = true → t.sys.seq.isSome = true) : PowerStopped s t := by
  have hword (o : Nat) : t.word o = p.word o := congrArg (RegFile.get · o) hregs
  refine ⟨?_, ?_, ?_, fun k => ⟨?_, ?_, ?_⟩, fun n => ?_, hentry, hawaited⟩
  · exact (State.on_of_word (hword _)).trans htold.exstop
  · exact (State.on_of_word (hword _)).trans htold.holdrun
  · exact (State.fld_of_word (hword _)).trans htold.throttled
  · exact (State.on_of_word (hword _)).trans (hports k).chgon
  · exact (State.on_of_word (hword _)).trans (hports k).dsgon
  · exact (State.role_of_word (hword _)).trans (hports k).role
  · have hst : t.phSt n = p.phSt n := State.phSt_of_fld (State.fld_of_word (hword _))
    have hsw := hstill n
    rw [State.phSwitching_eq_false] at hsw ⊢
    rwa [hst]

/-- What an extraction stop leaves where none ran (R108, R179). -/
theorem State.extractionStop_spec (s : State) (obj : Nat) (h : s.on FEED_GSTAT_EXSTOP = false) : PowerStopped s (s.extractionStop obj) := by
  obtain ⟨htold, hports, hstill⟩ := s.stopPower_spec
  have hbegin : s.extractionStop obj = (((s.stopPower.wbDue 0).wbDue 1).awaiting obj).stopNext := if_neg (by simp [h])
  rw [hbegin]
  obtain ⟨hregs₀, hjnl₀, hwaits₀⟩ := s.stopPower.wbDue_hold 0
  obtain ⟨hregs₁, hjnl₁, hwaits₁⟩ := (s.stopPower.wbDue 0).wbDue_hold 1
  generalize s.stopPower.wbDue 0 = a at *
  generalize a.wbDue 1 = b at *
  have hregs : b.regs = s.stopPower.regs := hregs₁.trans hregs₀
  have hwaits (k : Fin 2) : b.lifeWaits k = s.lifeWaits k := ((hwaits₁ k).trans (hwaits₀ k)).trans (htold.waits k)
  have hqueue : s.jnl.queue.length ≤ b.jnl.queue.length := by
    rw [hjnl₁, hjnl₀]
    exact htold.queue
  have hw : ((Vector.ofFn b.lifeWaits)[0] || (Vector.ofFn b.lifeWaits)[1]) = (s.lifeWaits 0 || s.lifeWaits 1) := by
    simp [hwaits]
  rw [State.stopNext_extract (s := b.awaiting obj) rfl, hw]
  split
  · next hsome =>
    exact .of_regs htold hports hstill hregs (fun h0 h1 => by simp [h0, h1] at hsome) (fun _ => rfl)
  · next hnone =>
    refine .of_regs htold hports hstill hregs (fun _ _ => ?_) (fun h0 => by simp [h0] at hnone)
    show _ < (b.jnl.queue ++ [_]).length
    rw [List.length_append]
    exact Nat.lt_succ_of_le hqueue

/-! ### The clauses -/

theorem extractHoldExpire_clause (s : State) (hpow : s.powered = true) (hrun : s.on FEED_GSTAT_HOLDRUN = true)
    (hstop : s.on FEED_GSTAT_EXSTOP = false) : Gives (.extractHoldExpire) s (fun t => t.on FEED_GSTAT_EXSTOP = true ∧
      t.on FEED_GSTAT_HOLDRUN = false ∧
      (∀ k : Fin 2, t.on (PK_STAT_CHGON k) = false ∧ t.on (PK_STAT_DSGON k) = false ∧ t.role k = .none) ∧
      t.fld FC_THR_STATE = 0xFF ∧ (∀ n : Fin 16, t.phSwitching n = false)) := by
  have h := s.extractionStop_spec 0x0B hstop
  have hexec : execExtractHoldExpire s = .next (s.extractionStop 0x0B) := congrArg Host.Outcome.next (if_pos (by simp [hpow, hrun]))
  exact ⟨_, hexec, h.exstop, h.holdrun, fun k => ⟨(h.ports k).chgon, (h.ports k).dsgon, (h.ports k).role⟩, h.throttled, h.still⟩

theorem holdupEndStop_clause (s : State) (hlost : s.lostFeeds = true) (h0 : s.role 0 ≠ .holdup) (h1 : s.role 1 ≠ .holdup)
    (hdol : s.sys.doldrums = false) (hstop : s.on FEED_GSTAT_EXSTOP = false) (hseq : s.sys.seq = none) :
    Gives (.holdupEndStop) s (fun t => t.on FEED_GSTAT_EXSTOP = true ∧
      (s.lifeWaits 0 = false → s.lifeWaits 1 = false → s.jnl.queue.length < t.jnl.queue.length) ∧
      (s.lifeWaits 0 = true → t.sys.seq.isSome = true) ∧
      (∀ k : Fin 2, t.on (PK_STAT_CHGON k) = false ∧ t.on (PK_STAT_DSGON k) = false ∧ t.role k = .none)) := by
  have h := s.extractionStop_spec 0x0C hstop
  have hexec : execHoldupEndStop s = .next (s.extractionStop 0x0C) :=
    congrArg Host.Outcome.next (if_pos (by simp [hlost, h0, h1, hdol, hseq]))
  exact ⟨_, hexec, h.exstop, h.entry, h.awaited, fun k => ⟨(h.ports k).chgon, (h.ports k).dsgon, (h.ports k).role⟩⟩

end Sys2Proof.Machine

open Sys2Proof Sys2Proof.Machine

/-- Settles O20: a role is what was last noted for its port, a stop's steps touch the port's own places alone, and the ends of hold-up and
Gust only add to the journal's queue and to the ports' flags (`Logged`). -/
theorem holdUpAndGust : Obligations.HoldUpAndGust := by
  unfold Obligations.HoldUpAndGust
  exact ⟨holdupLoopUpdate_clause, hulowAssert_clause, hulowRelease_clause, holdupCut_clause, holdupEndStop_clause, gustHoldEnd_clause⟩
end
section
/-! PROOF. The droop derate, health, the active group and the extraction hold (R89, R99, R100, R105 to R109). -/

namespace Sys2Proof.Machine

/-! ### What the levels of the feeds leave -/

/-- A field of FEEDn_STAT beside HEALTH and ACTIVE, or of another register than FEED_GSTAT. -/
structure Fld.OffLevels (f : Fld) : Prop where
  fits : f.Fits
  bits : 27 < f.lo ∨ f.hi < 25
  group : f.off ≠ FEED_GSTAT

section
variable (s : State) (n : Fin 4)

theorem State.setGroup_fld {f : Fld} (h : f.OffLevels) (g : List (Fin 4)) : (s.setGroup g).fld f = s.fld f := by
  unfold State.setGroup
  rw [State.fld_setFld_off _ _ _ _ h.group]
  refine State.each_keep (Q := fun t => t.fld f = s.fld f) rfl (fun t m _ ht => ?_)
  exact (t.fld_setFld_ne _ (by simp) h.fits (.inr (by have := h.bits; simp only; omega))).trans ht

theorem State.syncFeeds_fld {f : Fld} (h : f.OffLevels) : s.syncFeeds.fld f = s.fld f := by
  unfold State.syncFeeds
  refine (State.setGroup_fld _ h _).trans ?_
  refine State.each_keep (Q := fun t => t.fld f = s.fld f) rfl (fun t m _ ht => ?_)
  exact (t.fld_setFld_ne _ (by simp) h.fits (.inr (by have := h.bits; simp only; omega))).trans ht

theorem State.syncFeeds_feed : s.syncFeeds.feed[n] = s.feed[n] := s.syncFeeds_feedsHold.feed n

/-! ### The droop derate -/

/-- The limit that R100 wants at a voltage. -/
def State.droopWant (s : State) (n : Fin 4) (v : Rat) : Rat :=
  if (s.fld (FEED_EFF_VFQ n) : Rat) / 100 * s.fld (FEED_DROOP_KNEE n) / 100 ≤ v then s.ilim n
  else max (s.ilim n * s.fld (FEED_DROOP_FLOOR n) / 100)
    (s.ilim n * (1 - s.fld (FEED_DROOP_GAIN n) * 100 *
      divR ((s.fld (FEED_EFF_VFQ n) : Rat) / 100 * s.fld (FEED_DROOP_KNEE n) / 100 - v) ((s.fld (FEED_EFF_VFQ n) : Rat) / 100) / 100))

theorem feedEvt_beside (n : Fin 4) : FP.evt (· ≠ .feed n) (FEED_EVT n) := by
  repeat' first
    | decide +revert
    | apply And.intro

/-- The new limit and the means of the last 10 µs, as noted and reported. -/
def State.droopNoted (s : State) (n : Fin 4) (eff vfeed ifeed : Rat) : State :=
  (((s.modFeed n (fun f => { f with ilimEff := eff, vfeed := vfeed, ifeed := ifeed })).setCode (FEED_MEAS_VFEED n) (100 * vfeed)).setScode
    (FEED_MEAS_IFEED n) (8 * ifeed)).setCode (FEED_EFF_ILIM_EFF n) (8 * eff)

/-- The events of a limit whose drop over the shunt cannot be measured (R98, R101). -/
def State.droopClamps (s : State) (n : Fin 4) (eff : Rat) : State :=
  let s := if 5 / 100 < eff * s.rsns n then s.evt (FEED_EVT_CLAMPL n) else s
  if 1 / 10 < s.scmult n * eff * s.rsns n then s.evt (FEED_EVT_SCCLAMP n) else s

/-- DERATE and CLACT, and the condition that they make (R89). -/
def State.droopFlags (s : State) (n : Fin 4) (derate : Bool) (amp ifeed : Rat) : State :=
  let s := s.setOn (FEED_STAT_DERATE n) derate
  let cl := conducts (s.feedSt n) && decide (amp ≤ ifeed)
  (s.setOn (FEED_STAT_CLACT n) cl).modFeed n (fun f => { f with degraded := f.degraded || cl || derate })

theorem State.droopNoted_feed (eff vfeed ifeed : Rat) :
    (s.droopNoted n eff vfeed ifeed).feed[n] = { s.feed[n] with ilimEff := eff, vfeed := vfeed, ifeed := ifeed } := s.modFeed_same n _

theorem State.droopClamps_feed (eff : Rat) : (s.droopClamps n eff).feed[n] = s.feed[n] := by
  have hevt (t : State) {f : Fld} (hf : f.off = FEED_EVT n) : (t.evt f).feed[n] = t.feed[n] :=
    State.evt_only (.refl _ t) f (hf ▸ feedEvt_beside n) (.feed n) (by simp)
  unfold State.droopClamps
  extract_lets u
  have hu : u.feed[n] = s.feed[n] := by
    unfold u
    split
    · exact hevt s rfl
    · rfl
  split
  · exact (hevt u rfl).trans hu
  · exact hu

theorem State.droopFlags_feed (derate : Bool) (amp ifeed : Rat) : (s.droopFlags n derate amp ifeed).feed[n].ilimEff = s.feed[n].ilimEff ∧
    (s.droopFlags n derate amp ifeed).feed[n].vfeed = s.feed[n].vfeed ∧
    (s.droopFlags n derate amp ifeed).feed[n].ifeed = s.feed[n].ifeed := by
  unfold State.droopFlags
  dsimp only
  rw [State.modFeed_same]
  exact ⟨rfl, rfl, rfl⟩

theorem State.droopFlags_derate (derate : Bool) (amp ifeed : Rat) :
    (s.droopFlags n derate amp ifeed).on (FEED_STAT_DERATE n) = derate := by
  unfold State.droopFlags
  dsimp only
  rw [State.modFeed_on]
  exact (State.on_setFld_ne _ _ (by simp) (by simp) (.inr (.inl (by simp)))).trans (s.on_setOn_same _ (by simp))

/-- What DROOP_UPDATE leaves (R98, R100). -/
theorem State.droopUpdate_spec (hpow : s.powered = true) : Gives (.droopUpdate n) s (fun t =>
    t.feed[n].ilimEff = min (s.droopWant n s.meas.v[n.castAdd 44]) (s.feed[n].ilimEff + s.ilim n / 10000) ∧
    t.feed[n].vfeed = s.meas.v[n.castAdd 44] ∧ t.feed[n].ifeed = divR s.meas.v[Fin.ofNat 48 (8 + n)] (s.rsns n) ∧
    t.on (FEED_STAT_DERATE n) = decide (t.feed[n].ilimEff < s.ilim n)) := by
  set eff := min (s.droopWant n s.meas.v[n.castAdd 44]) (s.feed[n].ilimEff + s.ilim n / 10000)
  set ifeed := divR s.meas.v[Fin.ofNat 48 (8 + n)] (s.rsns n)
  set u := (s.droopNoted n eff s.meas.v[n.castAdd 44] ifeed).droopClamps n eff with hu
  set t := u.droopFlags n (decide (eff < s.ilim n)) (min eff (divR (5 / 100) (s.rsns n))) ifeed with ht
  have hexec : execDroopUpdate n s = .next t.syncFeeds := congrArg Host.Outcome.next (if_neg (by simp [hpow]))
  obtain ⟨hlim, hv, hi⟩ := u.droopFlags_feed n (decide (eff < s.ilim n)) (min eff (divR (5 / 100) (s.rsns n))) ifeed
  have hfeed : u.feed[n] = { s.feed[n] with ilimEff := eff, vfeed := s.meas.v[n.castAdd 44], ifeed := ifeed } :=
    (State.droopClamps_feed _ n eff).trans (s.droopNoted_feed n _ _ _)
  rw [hfeed] at hlim hv hi
  have hderate : t.syncFeeds.on (FEED_STAT_DERATE n) = decide (eff < s.ilim n) :=
    (congrArg (· != 0) (t.syncFeeds_fld ⟨by simp, .inr (by simp), feedStat_ne_gstat n⟩)).trans (u.droopFlags_derate n _ _ _)
  refine ⟨_, hexec, ?_⟩
  beta_reduce
  rw [hderate, t.syncFeeds_feed n]
  exact ⟨hlim, hv, hi, by rw [hlim]⟩

theorem State.droopUpdate_above (hpow : s.powered = true)
    (hv : (s.fld (FEED_EFF_VFQ n) : Rat) / 100 * s.fld (FEED_DROOP_KNEE n) / 100 ≤ s.meas.v[n.castAdd 44]) :
    Gives (.droopUpdate n) s (fun t => t.feed[n].ilimEff = min (s.ilim n) (s.feed[n].ilimEff + s.ilim n / 10000) ∧
      t.feed[n].vfeed = s.meas.v[n.castAdd 44] ∧ t.feed[n].ifeed = divR s.meas.v[Fin.ofNat 48 (8 + n)] (s.rsns n) ∧
      t.on (FEED_STAT_DERATE n) = decide (t.feed[n].ilimEff < s.ilim n)) := by
  have hwant : s.droopWant n s.meas.v[n.castAdd 44] = s.ilim n := if_pos hv
  have h := s.droopUpdate_spec n hpow
  rwa [hwant] at h

theorem State.droopUpdate_below (hpow : s.powered = true)
    (hv : s.meas.v[n.castAdd 44] < (s.fld (FEED_EFF_VFQ n) : Rat) / 100 * s.fld (FEED_DROOP_KNEE n) / 100) :
    Gives (.droopUpdate n) s (fun t => t.feed[n].ilimEff = min (max (s.ilim n * s.fld (FEED_DROOP_FLOOR n) / 100)
        (s.ilim n * (1 - s.fld (FEED_DROOP_GAIN n) * 100 * divR ((s.fld (FEED_EFF_VFQ n) : Rat) / 100 * s.fld (FEED_DROOP_KNEE n) / 100 -
          s.meas.v[n.castAdd 44]) ((s.fld (FEED_EFF_VFQ n) : Rat) / 100) / 100))) (s.feed[n].ilimEff + s.ilim n / 10000) ∧
      t.on (FEED_STAT_DERATE n) = decide (t.feed[n].ilimEff < s.ilim n)) := by
  obtain ⟨t, hexec, heff, -, -, hderate⟩ := s.droopUpdate_spec n hpow
  exact ⟨t, hexec, heff.trans (congrArg (min · _) (if_neg (not_le.mpr hv))), hderate⟩

theorem feedStat_inj {m n : Fin 4} (h : m ≠ n) : FEED_STAT n ≠ FEED_STAT m := by decide +revert

/-! ### NEAR and health -/

theorem nearAssert_clause (hpow : s.powered = true) (hact : s.active n = true) : Gives (.nearAssert n) s (fun t => t.feed[n].near = true ∧
    (∀ k : Fin 2, s.role k = .charge → t.chg[k].held = true)) := by
  set u := s.modFeed n (fun f => { f with near := true }) with hu
  have hexec : execNearAssert n s = .next (u.each (finsWhere (fun k : Fin 2 => s.role k == .charge))
      (fun t k => t.modChg k (fun c => { c with held := true }))) := congrArg Host.Outcome.next (if_neg (by simp [hpow, hact]))
  refine ⟨_, hexec, ?_, fun k hk => ?_⟩
  · refine State.each_keep (Q := fun t => t.feed[n].near = true) ?_ (fun _ _ _ ht => ht)
    rw [hu, State.modFeed_same]
  · refine State.each_sets (R := fun t => t.chg[k].held = true) (finsWhere_nodup _) (mem_finsWhere.mpr (beq_iff_eq.mpr hk))
      (fun t => ?_) (fun t j hj ht => ?_)
    · rw [State.modChg_same]
    · rwa [State.modChg_ne t _ hj]

theorem nearRelease_clause : Gives (.nearRelease) s (fun t => (∀ n : Fin 4, t.feed[n].near = false)) := by
  refine ⟨_, rfl, fun n => ?_⟩
  refine State.each_sets (R := fun t => t.feed[n].near = false) (List.nodup_finRange 4) (List.mem_finRange n)
    (fun t => ?_) (fun t m hm ht => ?_)
  · rw [State.modFeed_same]
  · rwa [State.modFeed_ne t _ hm]

theorem feedHealthExpire_clause (hderate : s.on (FEED_STAT_DERATE n) = false) (hcl : s.on (FEED_STAT_CLACT n) = false) :
    Gives (.feedHealthExpire n) s (fun t => t.feed[n].degraded = false) := by
  have hexec : execFeedHealthExpire n s = .next (s.modFeed n (fun f => { f with degraded := false })).syncFeeds :=
    congrArg Host.Outcome.next (if_neg (by simp [hderate, hcl]))
  refine ⟨_, hexec, ?_⟩
  beta_reduce
  rw [State.syncFeeds_feed, State.modFeed_same]

/-! ### The active group -/

theorem State.setGroup_active (g : List (Fin 4)) : (s.setGroup g).active n = g.contains n := by
  have hgstat (t : State) (v : Nat) : (t.setFld FEED_GSTAT_ACTIVE v).active n = t.active n :=
    State.on_of_word (t.word_setFld_off v (feedStat_ne_gstat n))
  unfold State.setGroup
  rw [hgstat]
  refine State.each_sets (R := fun t => t.active n = g.contains n) (List.nodup_finRange 4) (List.mem_finRange n)
    (fun t => t.on_setOn_same _ (by simp)) (fun t m hm ht => ?_)
  exact (t.on_setFld_ne _ (by simp) (by simp) (.inl (feedStat_inj hm))).trans ht

/-- A feed that settles changes its state and its gates, not its place in the group. -/
theorem State.settleGroup_active : s.settleGroup.active n = s.active n := by
  have hstate (t : State) (m : Fin 4) (st : FeedSt) : (t.setFeed m st).active n = t.active n :=
    t.on_setFld_ne _ (by simp) (by simp) (.inr (.inl (by simp)))
  have hgates (t : State) (m : Fin 4) : (t.gatesOff m).active n = t.active n := by
    have hset (u : State) {f : Fld} (hf : f.Fits) (hhi : f.hi < 25) : (u.setOn f false).active n = u.active n :=
      u.on_setFld_ne _ hf (by simp) (.inr (.inr hhi))
    exact ((hset _ (by simp) (by simp)).trans (hset _ (by simp) (by simp))).trans (hset t (by simp) (by simp))
  unfold State.settleGroup
  split
  · rfl
  · refine State.each_keep (Q := fun t => t.active n = s.active n) rfl (fun t m _ ht => ?_)
    split
    · exact ht
    · split
      · exact (hstate t m _).trans ht
      · split
        · exact (hstate _ m _).trans ((hgates t m).trans ht)
        · exact ht

theorem feedGroupChange_clause (hpow : s.powered = true) (hprio : s.priorityMode = true) :
    Gives (.feedGroupChange) s (fun t => (∀ n : Fin 4, t.active n = s.groupNow.contains n)) := by
  have hexec : execFeedGroupChange s = .next (s.syncFeeds.setGroup s.groupNow).settleGroup :=
    congrArg Host.Outcome.next (if_pos (by simp [hpow, hprio]))
  exact ⟨_, hexec, fun n => (State.settleGroup_active _ n).trans (State.setGroup_active _ n _)⟩

/-! ### EJECT -/

/-- The end of a port's Gust share, its command and its report (R107). -/
def State.dropGust (s : State) (k : Fin 2) : State :=
  ((s.modChg k (fun c => { c with gshare := 0, gdrop := false })).setCmd k 0).setPout k

/-- The places beside what EJECT turns on. -/
abbrev BesideEject (l : Place) : Prop := l ≠ .reg FEED_GSTAT ∧ l ≠ .reg FEED_EJECT

/-- The footprints of what EJECT does beside its flags. -/
structure EjectOps (P : Place → Prop) : Prop where
  chg : ∀ k : Fin 2, P (.chg k)
  cmd : ∀ k, FP.setCmd P k
  pout : ∀ k, FP.setPout P k
  elig : ∀ k, FP.syncElig P k
  notice : FP.notice P

theorem ejectOps : EjectOps BesideEject := by
  constructor
  all_goals
    repeat' first
      | decide +revert
      | apply And.intro
      | intro _

theorem ejectAssert_clause (hpow : s.powered = true) (hej : s.eject = false) (hlost : s.lostFeeds = true)
    (hstop : s.on FEED_GSTAT_EXSTOP = false) (hhold : s.fld FEED_EJECT_EXHOLD ≠ 0) :
    Gives (.ejectAssert) s (fun t => t.eject = true ∧ t.on FEED_GSTAT_HOLDRUN = true) := by
  have hops := ejectOps
  set u := s.setOn FEED_GSTAT_EJECT true with hu
  set v := (((u.each (finsWhere (fun k : Fin 2 => u.role k == .gust)) State.dropGust).syncElig 0).syncElig 1).notice 1 0 with hv
  have honly : OnlyAt BesideEject u v := by
    refine State.notice_only (State.syncElig_only (State.syncElig_only ?_ 0 (hops.elig 0)) 1 (hops.elig 1)) 1 0 hops.notice
    exact State.each_only (.refl _ u) _ _ (fun _ k _ h =>
      State.setPout_only (State.setCmd_only (State.modChg_only h k _ (hops.chg k)) k 0 (hops.cmd k)) k (hops.pout k))
  have hgstat : v.word FEED_GSTAT = u.word FEED_GSTAT := honly.word (by simp)
  have hvej : v.on FEED_GSTAT_EJECT = true := (State.on_of_word hgstat).trans (s.on_setOn_same true (by simp))
  have hvlost : v.lostFeeds = true :=
    ((State.on_of_word (f := FEED_GSTAT_FEEDS_LOST) hgstat).trans
      (s.on_setFld_ne _ (by simp) (by simp) (.inr (.inl (by simp))))).trans hlost
  have hvstop : v.on FEED_GSTAT_EXSTOP = false :=
    ((State.on_of_word hgstat).trans (s.on_setFld_ne _ (by simp) (by simp) (.inr (.inr (by simp))))).trans hstop
  have hvhold : v.fld FEED_EJECT_EXHOLD ≠ 0 := by
    rwa [State.fld_of_word (s := s) ((honly.word (by simp)).trans (s.word_setOn_off _ (by decide)))]
  have hexec : execEjectAssert s = .next (v.setOn FEED_GSTAT_HOLDRUN true) := by
    have hbody : execEjectAssert s = .next (if (s.eject || !s.powered) = true then s
        else if (v.lostFeeds && !v.on FEED_GSTAT_EXSTOP) = true then
          (if v.fld FEED_EJECT_EXHOLD = 0 then v.extractionStop 0x0B else v.setOn FEED_GSTAT_HOLDRUN true) else v) := rfl
    rw [hbody, if_neg (by simp [hej, hpow]), if_pos (by simp [hvlost, hvstop]), if_neg hvhold]
  refine ⟨_, hexec, ?_, State.on_setOn_same _ true (by simp)⟩
  exact (State.on_setFld_ne _ _ (by simp) (by simp) (.inr (.inl (by simp)))).trans hvej

/-- A feed that FEED_EJECT.ACT turned off may requalify (R109). -/
def State.letRequalify (s : State) (n : Fin 4) : State := s.modFeed n (fun f => { f with ejected := false, stable := false })

theorem State.letRequalify_each (n : Fin 4) :
    (s.each (finsWhere (fun m : Fin 4 => s.feed[m].ejected)) State.letRequalify).feed[n].ejected = false := by
  have hother (t : State) (m : Fin 4) (hm : m ≠ n) : (t.letRequalify m).feed[n] = t.feed[n] := State.modFeed_ne t _ hm
  by_cases h : s.feed[n].ejected = true
  · refine State.each_sets (R := fun t => t.feed[n].ejected = false) (finsWhere_nodup _) (mem_finsWhere.mpr h) (fun t => ?_)
      (fun t m hm ht => by rwa [hother t m hm])
    show (t.modFeed n _).feed[n].ejected = false
    rw [State.modFeed_same]
  · refine State.each_keep (Q := fun t => t.feed[n].ejected = false) (by simpa using h) (fun t m hm ht => ?_)
    rwa [hother t m (by rintro rfl; exact h (mem_finsWhere.mp hm))]

theorem State.syncElig_word {o : Nat} (k : Fin 2) (h : o ≠ CHG_STAT k) : (s.syncElig k).word o = s.word o :=
  (State.word_setOn_off _ _ h).trans (State.word_setOn_off _ _ h)

theorem ejectDeassert_clause : Gives (.ejectDeassert) s (fun t => t.eject = false ∧ t.on FEED_GSTAT_HOLDRUN = false ∧
    (∀ n : Fin 4, t.feed[n].ejected = false)) := by
  set u := (s.setOn FEED_GSTAT_EJECT false).setOn FEED_GSTAT_HOLDRUN false with hu
  set v := u.each (finsWhere (fun m : Fin 4 => u.feed[m].ejected)) State.letRequalify with hv
  have hexec : execEjectDeassert s = .next ((v.syncElig 0).syncElig 1) := rfl
  have hregs : v.regs = u.regs := State.each_keep (Q := fun t => t.regs = u.regs) rfl (fun _ _ _ ht => ht)
  have hgstat : ((v.syncElig 0).syncElig 1).word FEED_GSTAT = u.word FEED_GSTAT :=
    ((State.syncElig_word _ 1 (by decide)).trans (v.syncElig_word 0 (by decide))).trans (congrArg (RegFile.get · FEED_GSTAT) hregs)
  refine ⟨_, hexec, ?_, ?_, fun n => ?_⟩
  · refine (State.on_of_word (f := FEED_GSTAT_EJECT) hgstat).trans ?_
    exact (State.on_setFld_ne _ _ (by simp) (by simp) (.inr (.inl (by simp)))).trans (s.on_setOn_same false (by simp))
  · exact (State.on_of_word hgstat).trans (State.on_setOn_same _ false (by simp))
  · exact u.letRequalify_each n

/-- EJECT's turn-off of one feed (R107). -/
def State.ejectOff (s : State) (n : Fin 4) : State :=
  let t := s.modFeed n (fun f => { f with ejected := true })
  let st := t.feedSt n
  if st = .qualified ∨ st = .inrush ∨ st = .on ∨ st = .standby ∨ st = .hwonly then
    ((t.gatesOff n).setQual n false).setFeed n .debounce
  else if st = .cool then t.setQual n false
  else t

/-- The mark that EJECT sets leaves the state of the feed, by which it is turned off. -/
theorem State.ejectOff_eq (n : Fin 4) : s.ejectOff n =
    if s.feedSt n = .qualified ∨ s.feedSt n = .inrush ∨ s.feedSt n = .on ∨ s.feedSt n = .standby ∨ s.feedSt n = .hwonly then
      (((s.modFeed n (fun f => { f with ejected := true })).gatesOff n).setQual n false).setFeed n .debounce
    else if s.feedSt n = .cool then (s.modFeed n (fun f => { f with ejected := true })).setQual n false
    else s.modFeed n (fun f => { f with ejected := true }) := rfl

/-- What EJECT leaves of a feed that was in a state. -/
structure EjectedFrom (st : FeedSt) (n : Fin 4) (t : State) : Prop where
  qual : t.qual n = false ∨ st ∉ [FeedSt.qualified, .inrush, .on, .standby, .hwonly, .cool]
  off : conducts st = true → t.feedSt n = .debounce ∧ t.on (FEED_STAT_HSON n) = false ∧ t.on (FEED_STAT_ORON n) = false
  ejected : t.feed[n].ejected = true

theorem EjectedFrom.hold {st : FeedSt} {n : Fin 4} {t u : State} (h : EjectedFrom st n t) (k : FeedsHold t u) : EjectedFrom st n u where
  qual := h.qual.imp_left (k.qual n).trans
  off hc := by
    obtain ⟨hst, hhs, hor⟩ := h.off hc
    exact ⟨(k.state n).trans hst, (k.hson n).trans hhs, (k.oron n).trans hor⟩
  ejected := (congrArg FeedH.ejected (k.feed n)).trans h.ejected

theorem State.ejectOff_same (n : Fin 4) : EjectedFrom (s.feedSt n) n (s.ejectOff n) := by
  set t := s.modFeed n (fun f => { f with ejected := true }) with ht
  have hej : t.feed[n].ejected = true := by rw [ht, State.modFeed_same]
  rw [State.ejectOff_eq, ← ht]
  generalize s.feedSt n = st at *
  split
  · have k := t.takenOut n .debounce
    exact ⟨.inl k.qual, fun _ => ⟨k.state, k.hson, k.oron⟩, (congrArg FeedH.ejected (k.feed n)).trans hej⟩
  · next hgone =>
    have hcond : conducts st = false := by cases st <;> simp_all [conducts]
    split
    · exact ⟨.inl (t.qual_setQual_same n false), fun hc => by simp [hcond] at hc, hej⟩
    · next hcool =>
      refine ⟨.inr ?_, fun hc => by simp [hcond] at hc, hej⟩
      simp only [not_or] at hgone
      simp [hgone, hcool]

/-- The turn-off of another feed leaves a feed as it is. -/
theorem State.ejectOff_other {n m : Fin 4} (h : m ≠ n) : (s.ejectOff m).word (FEED_STAT n) = s.word (FEED_STAT n) ∧
    (s.ejectOff m).qual n = s.qual n ∧ (s.ejectOff m).feed[n] = s.feed[n] := by
  set t := s.modFeed m (fun f => { f with ejected := true }) with ht
  have hfeed : t.feed[n] = s.feed[n] := State.modFeed_ne s _ h
  have hqual (u : State) : (u.setQual m false).word (FEED_STAT n) = u.word (FEED_STAT n) ∧ (u.setQual m false).qual n = u.qual n := by
    refine ⟨u.word_setOn_off _ (feedStat_ne_gstat n), ?_⟩
    rw [State.qual_eq_on, State.qual_eq_on]
    exact u.on_setFld_ne _ (feedQual_fits m) (feedQual_fits n) (.inr (by simp only; omega))
  have hgates (u : State) : (u.gatesOff m).word (FEED_STAT n) = u.word (FEED_STAT n) ∧ (u.gatesOff m).qual n = u.qual n := by
    have hw {o : Nat} (ho : o ≠ FEED_STAT m) : (u.gatesOff m).word o = u.word o :=
      ((State.word_setOn_off _ _ ho).trans (State.word_setOn_off _ _ ho)).trans (u.word_setOn_off _ ho)
    exact ⟨hw (feedStat_inj h), congrArg (·.getLsbD (4 + n)) (hw (feedStat_ne_gstat m).symm)⟩
  have hstate (u : State) (st : FeedSt) : (u.setFeed m st).word (FEED_STAT n) = u.word (FEED_STAT n) ∧
      (u.setFeed m st).qual n = u.qual n :=
    ⟨u.word_setFld_off _ (feedStat_inj h), congrArg (·.getLsbD (4 + n)) (u.word_setFld_off _ (feedStat_ne_gstat m).symm)⟩
  rw [State.ejectOff_eq, ← ht]
  split
  · exact ⟨((hstate _ _).1.trans (hqual _).1).trans (hgates t).1, ((hstate _ _).2.trans (hqual _).2).trans (hgates t).2, hfeed⟩
  · split
    · exact ⟨(hqual t).1, (hqual t).2, hfeed⟩
    · exact ⟨rfl, rfl, hfeed⟩

theorem State.ejectOff_each (n : Fin 4) : EjectedFrom (s.feedSt n) n (s.each (List.finRange 4) State.ejectOff) := by
  have hst {t : State} {m : Fin 4} (hm : m ≠ n) : (t.ejectOff m).feedSt n = t.feedSt n :=
    State.feedSt_of_fld (State.fld_of_word (t.ejectOff_other hm).1)
  refine State.each_once (Q := fun t => t.feedSt n = s.feedSt n) (List.nodup_finRange 4) (List.mem_finRange n) rfl
    (fun t m hm ht => (hst hm).trans ht) (fun t ht => ht ▸ t.ejectOff_same n) (fun t m hm ht => ?_)
  obtain ⟨hword, hqual, hfeed⟩ := t.ejectOff_other hm
  refine ⟨ht.qual.imp_left hqual.trans, fun hc => ?_, (congrArg FeedH.ejected hfeed).trans ht.ejected⟩
  obtain ⟨hdeb, hhs, hor⟩ := ht.off hc
  exact ⟨(hst hm).trans hdeb, (State.on_of_word hword).trans hhs, (State.on_of_word hword).trans hor⟩

theorem ejectFeedOff_clause (hpow : s.powered = true) (hej : s.eject = true) (hact : s.on FEED_EJECT_ACT = true) :
    Gives (.ejectFeedOff) s (fun t =>
      (∀ n : Fin 4, t.qual n = false ∨ s.feedSt n ∉ [FeedSt.qualified, .inrush, .on, .standby, .hwonly, .cool]) ∧
      (∀ n : Fin 4, conducts (s.feedSt n) = true → t.feedSt n = .debounce ∧ t.on (FEED_STAT_HSON n) = false ∧
        t.on (FEED_STAT_ORON n) = false) ∧ (∀ n : Fin 4, t.feed[n].ejected = true)) := by
  set u := s.each (List.finRange 4) State.ejectOff with hu
  have hexec : execEjectFeedOff s = .next u.feedChanged.budgetDrop := congrArg Host.Outcome.next (if_neg (by simp [hpow, hej, hact]))
  have h (n : Fin 4) : EjectedFrom (s.feedSt n) n u.feedChanged.budgetDrop :=
    (s.ejectOff_each n).hold (u.feedChanged_feedsHold.trans (State.budgetDrop_feedsHold _))
  exact ⟨_, hexec, fun n => (h n).qual, fun n => (h n).off, fun n => (h n).ejected⟩

end

end Sys2Proof.Machine

open Sys2Proof Sys2Proof.Machine

/-- Settles O12: each command writes its own flags and what is hidden of its feeds, and the levels that follow leave these; the hold ends in
the extraction stop of R108. -/
theorem feedLimitsAndExtraction : Obligations.FeedLimitsAndExtraction := by
  unfold Obligations.FeedLimitsAndExtraction
  exact ⟨fun n s => s.droopUpdate_above n, fun n s => s.droopUpdate_below n, fun n s => nearAssert_clause s n, nearRelease_clause,
    fun n s => feedHealthExpire_clause s n, feedGroupChange_clause, ejectAssert_clause, ejectDeassert_clause, ejectFeedOff_clause,
    extractHoldExpire_clause⟩
end

section
/-! PROOF. A PHASE_MAP whose descriptor an earlier run, cut off by the loss of the link, still has among the lost ones: the new run ends in
its place, without a completion (R267, R289, R290). -/

namespace Sys2Proof.Machine

/-- PHASE_MAP of phase 0 alone, to port 0. -/
def mapPhase0 : Desc := Desc.withOpc (1#256 <<< 96) 12

/-- The admin ring ready in RUN with one phase populated, IDLE; an earlier run of `mapPhase0` is among the lost ones. -/
def mapLost : State :=
  let s := (((State.reset.setFld SYS_STRAP_PHCNT 1).setOn SYS_STRAP_HOSTSEL false).setFld SYS_STATE_MODE 1).setOn SYS_STATE_PHOK true
  let s := ((s.setFld (HIF_STAT_STATE 0) 1).setFld (HIF_CFG_CQSZ 0) 4).setFld (PH_STAT_STATE 0) PhSt.idle.code
  { s with sys := { s.sys with biasGood := true }, hif := { s.hif with lost := [mapPhase0] } }

theorem mapLost_adminReady : mapLost.adminReady := by
  unfold State.adminReady
  decide +kernel

/-- The completions that a PHASE_MAP leaves on the admin ring. -/
def mapCompletions (d : Desc) (s : State) : Option (List Compl) :=
  match execPhaseMap d s with
  | .next t => some t.ring[(0 : Fin 64)].cq
  | _ => none

theorem mapCompletions_of_next {d : Desc} {s t : State} (h : execPhaseMap d s = .next t) :
    mapCompletions d s = some t.ring[(0 : Fin 64)].cq := by
  simp only [mapCompletions, h]

theorem mapLost_completions : mapCompletions mapPhase0 mapLost = some [] := by decide +kernel

end Sys2Proof.Machine

open Sys2Proof Sys2Proof.Machine

/-- Refutes O16: its first clause promises the completion of a PHASE_MAP whatever is among the lost commands. Where an earlier run of the
same descriptor is, the new run takes that one's end and posts nothing. -/
theorem not_phaseMapAndVhold : ¬ Obligations.PhaseMapAndVhold := by
  unfold Obligations.PhaseMapAndVhold
  intro h
  obtain ⟨hmap, -⟩ := h
  obtain ⟨t, ht, -, hcompl⟩ := hmap mapPhase0 _ mapLost mapLost_adminReady rfl (by decide +kernel) (by decide +kernel)
  have hcq : some [] = some t.ring[(0 : Fin 64)].cq := mapLost_completions.symm.trans (mapCompletions_of_next ht)
  rw [Completed, ← Option.some.inj hcq] at hcompl
  exact absurd hcompl (List.not_mem_nil)
end

section
/-! PROOF. What stands of one phase beside the others: its state and its pins, and what leaves them (R130, R132, R134, R135). -/

namespace Sys2Proof.Machine

/-- What a phase drives: PHn_EN, PHn_PWMB and PHn_PWMK (R115). -/
def PhH.pins (p : PhH) : Bool × PwmLvl × PwmLvl := (p.en, p.pwmb, p.pwmk)

/-- Phase `n` has the status it had and drives what it drove. -/
structure Stands (n : Fin 16) (s t : State) : Prop where
  stat : t.word (PH_STAT n) = s.word (PH_STAT n)
  pins : t.ph[n].pins = s.ph[n].pins

/-- The places beside the status of phase `n` and what is hidden of it. -/
abbrev BesidePh (n : Fin 16) (l : Place) : Prop := l ≠ .reg (PH_STAT n) ∧ l ≠ .ph n

/-- The footprints of what goes on beside one phase. -/
structure BesidePhOps (P : Place → Prop) : Prop where
  port : ∀ k, FP.syncPort P k
  ports : FP.syncPorts P
  elig : ∀ k, FP.syncElig P k
  refuse : FP.refuse P
  php : ∀ k, P (.php k)
  cnt : ∀ k : Fin 2, P (.reg (PHP_CNT k))
  stat : ∀ k : Fin 2, P (.reg (PHP_STAT k))
  evt : ∀ k : Fin 2, FP.evt P (PHP_EVT k)

theorem besidePhOps (n : Fin 16) : BesidePhOps (BesidePh n) := by
  constructor
  all_goals
    repeat' first
      | decide +revert
      | apply And.intro
      | intro _

section
variable {n m : Fin 16} {s t u : State} {k : Fin 2}

theorem Stands.refl (n : Fin 16) (s : State) : Stands n s s := ⟨rfl, rfl⟩

theorem Stands.trans (h : Stands n s t) (g : Stands n t u) : Stands n s u := ⟨g.stat.trans h.stat, g.pins.trans h.pins⟩

theorem Stands.ite {c : Prop} [Decidable c] (ht : Stands n s t) (hu : Stands n s u) : Stands n s (if c then t else u) := by
  split <;> assumption

theorem Stands.phSt (h : Stands n s t) : t.phSt n = s.phSt n := State.phSt_of_fld (State.fld_of_word h.stat)

theorem Stands.en (h : Stands n s t) : t.ph[n].en = s.ph[n].en := congrArg (·.1) h.pins
theorem Stands.pwmb (h : Stands n s t) : t.ph[n].pwmb = s.ph[n].pwmb := congrArg (·.2.1) h.pins
theorem Stands.pwmk (h : Stands n s t) : t.ph[n].pwmk = s.ph[n].pwmk := congrArg (·.2.2) h.pins

theorem OnlyAt.stands (h : OnlyAt (BesidePh n) s t) : Stands n s t :=
  ⟨h.word (by simp), congrArg PhH.pins (h (.ph n) (by simp))⟩

theorem State.setPh_stands (s : State) (st : PhSt) (h : m ≠ n) : Stands n s (s.setPh m st) :=
  (State.setPh_only (.refl _ s) m st ⟨⟨by simpa using (phStat_inj h).symm, by simp⟩, by simp, by simpa using h⟩).stands

/-- A phase that wakes, runs or sheds is enabled. -/
theorem State.setPh_en (s : State) (n : Fin 16) {st : PhSt} (h : st ∈ [.waking, .run, .shedding]) : (s.setPh n st).ph[n].en = true := by
  cases st
  case waking | run | shedding => exact congrArg PhH.en (State.modPh_same _ n _)
  all_goals simp at h

/-- A phase that is stopped drives nothing. -/
theorem State.setPh_pins_stopped (s : State) (n : Fin 16) {st : PhSt} (h : st ∉ [.waking, .run, .shedding]) :
    (s.setPh n st).ph[n].pins = (false, .low, .low) := by
  cases st
  case waking | run | shedding => simp at h
  all_goals exact congrArg PhH.pins (State.modPh_same _ n _)

theorem State.modPh_stands (s : State) (m : Fin 16) {f : PhH → PhH} (hf : m = n → ∀ p, (f p).pins = p.pins) :
    Stands n s (s.modPh m f) := by
  refine ⟨rfl, ?_⟩
  by_cases h : m = n
  · subst h
    rw [State.modPh_same, hf rfl]
  · rw [State.modPh_ne s f h]

theorem State.syncPort_stands (s : State) (k : Fin 2) : Stands n s (s.syncPort k) :=
  (State.syncPort_only (.refl _ s) k ((besidePhOps n).port k)).stands

theorem State.syncPorts_stands (s : State) : Stands n s s.syncPorts :=
  (State.syncPorts_only (.refl _ s) (besidePhOps n).ports).stands

theorem State.syncElig_stands (s : State) (k : Fin 2) : Stands n s (s.syncElig k) :=
  (State.syncElig_only (.refl _ s) k ((besidePhOps n).elig k)).stands

theorem State.count_stands (s : State) {f : Fld} (hf : f.off = PHP_CNT k) : Stands n s (s.count f) :=
  (State.count_only (.refl _ s) f (hf ▸ (besidePhOps n).cnt k)).stands

theorem State.modPhp_stands (s : State) (f : PhpH → PhpH) : Stands n s (s.modPhp k f) := ⟨rfl, rfl⟩

theorem State.mapDeferred_stands (s : State) : Stands n s s.mapDeferred := by
  unfold State.mapDeferred
  split
  · exact .refl n s
  · extract_lets u phg v
    have hu : Stands n s u :=
      State.each_keep (Q := Stands n s) (.refl n s) (fun t m _ ht => ht.trans (t.modPh_stands m (fun _ _ => rfl)))
    clear_value u
    have hv : Stands n u v := ⟨rfl, rfl⟩
    exact (hu.trans hv).trans (State.refuse_only (.refl _ v) _ _ _ _ _ _ (besidePhOps n).refuse).stands

/-- PHASE_MAP's next phase to drain is one in RUN; one that is not stands. -/
theorem State.drainNext_stands (hn : s.phSt n ≠ .run) : Stands n s s.drainNext := by
  unfold State.drainNext
  split
  · exact .refl n s
  · split
    · exact .refl n s
    · next m hm =>
      have hrun := mem_finsWhere.mp (s.hottest_mem hm)
      have hne : m ≠ n := by
        rintro rfl
        simp_all
      exact .ite ((s.setPh_stands .shedding hne).trans (State.syncPorts_stands _)) s.mapDeferred_stands
end

end Sys2Proof.Machine
end

section
/-! PROOF. A change of direction: what it writes of the port, how its phases start again, and what it leaves (R123). -/

namespace Sys2Proof.Machine

section
variable {s t : State} {k : Fin 2} {n : Fin 16}

/-! ### The status of a port -/

theorem dir_ofCode_code (d : Dir) : Dir.ofCode d.code = d := by cases d <;> rfl

theorem dir_code_lt (d : Dir) : d.code < 2 ^ 2 := by cases d <;> decide

theorem mode_ofCode_code (m : Mode) : Mode.ofCode m.code = m := by cases m <;> rfl

theorem mode_code_lt (m : Mode) : m.code < 2 ^ 2 := by cases m <;> decide

theorem State.word_of_regs (h : t.regs = s.regs) (o : Nat) : t.word o = s.word o := congrArg (RegFile.get · o) h

theorem State.dir_of_fld (h : t.fld (PHP_STAT_DIR k) = s.fld (PHP_STAT_DIR k)) : t.dir k = s.dir k := congrArg Dir.ofCode h

theorem State.modeOf_of_fld (h : t.fld (PHP_STAT_MODE k) = s.fld (PHP_STAT_MODE k)) : t.modeOf k = s.modeOf k := congrArg Mode.ofCode h

theorem State.dir_setFld_same (s : State) (k : Fin 2) (d : Dir) : (s.setFld (PHP_STAT_DIR k) d.code).dir k = d := by
  unfold State.dir
  rw [State.fld_setFld_same _ _ _ (by simp) (by simp), show (PHP_STAT_DIR k).width = 2 from rfl, Nat.mod_eq_of_lt (dir_code_lt d),
    dir_ofCode_code]

theorem State.modeOf_setFld_same (s : State) (k : Fin 2) (m : Mode) : (s.setFld (PHP_STAT_MODE k) m.code).modeOf k = m := by
  unfold State.modeOf
  rw [State.fld_setFld_same _ _ _ (by simp) (by simp), show (PHP_STAT_MODE k).width = 2 from rfl, Nat.mod_eq_of_lt (mode_code_lt m),
    mode_ofCode_code]

theorem portRegs_ne (k : Fin 2) : PHP_STAT k ≠ PHP_CMD k ∧ PHP_STAT k ≠ PH_GSTAT ∧ PHP_STAT k ≠ PHP_EVT k ∧ PHP_STAT k ∉ lineOut ∧
    PHP_EVT k ∉ lineOut := by
  decide +revert

/-- The refresh of a port leaves DIR, MODE and BLEND of its status. -/
theorem State.fld_syncPort (s : State) {f : Fld} (hf : f.Fits) (hoff : f.off = PHP_STAT k) (hbits : 24 ≤ f.lo) :
    (s.syncPort k).fld f = s.fld f := by
  obtain ⟨hcmd, hgstat, -, -, -⟩ := portRegs_ne k
  rw [← hoff] at hcmd hgstat
  unfold State.syncPort State.setCode
  dsimp only
  rw [State.fld_setFld_off _ _ _ _ hgstat, State.fld_setFld_off _ _ _ _ hcmd, State.fld_setFld_off _ _ _ _ hcmd,
    State.fld_setFld_ne _ _ (by simp) hf (.inr (.inr (by simp only; omega))),
    State.fld_setFld_ne _ _ (by simp) hf (.inr (.inr (by simp only; omega))),
    State.fld_setFld_ne _ _ (by simp) hf (.inr (.inr (by simp only; omega)))]

theorem State.dir_syncPort (s : State) (k : Fin 2) : (s.syncPort k).dir k = s.dir k :=
  State.dir_of_fld (s.fld_syncPort (by simp) rfl (by simp))

theorem State.modeOf_syncPort (s : State) (k : Fin 2) : (s.syncPort k).modeOf k = s.modeOf k :=
  State.modeOf_of_fld (s.fld_syncPort (by simp) rfl (by simp))

/-- The mode of R121 follows from the means of both sides and the direction. -/
theorem State.modeFor_congr {m : Mode} (hbus : t.phg.vbus = s.phg.vbus) (hpack : t.php[k].vpack = s.php[k].vpack)
    (hdir : t.dir k = s.dir k) :
    t.modeFor k m = s.modeFor k m := by
  unfold State.modeFor State.vout State.vin
  rw [hbus, hpack, hdir]

/-! ### The steps of a change -/

/-- The port's status with its new direction, as yet in its old mode. -/
def State.turnDir (s : State) (k : Fin 2) (d : Dir) : State :=
  ((s.setFld (PHP_STAT_DIR k) d.code).evt (PHP_EVT_DIRCHG k)).setFld (PHP_STAT_BLEND k) 0

/-- The mode in which the phases start again. -/
def State.turnMode (s : State) (k : Fin 2) (d : Dir) : Mode := (s.turnDir k d).modeFor k ((s.turnDir k d).modeOf k)

/-- The port with its new direction and mode, before its phases follow. -/
def State.turnPort (s : State) (k : Fin 2) (d : Dir) : State :=
  ((s.turnDir k d).setFld (PHP_STAT_MODE k) (s.turnMode k d).code).modPhp k (fun p => { p with dwell := 0 })

/-- The phases that wake or switch run 16 cycles without diode emulation and pulse skipping. -/
def State.markTurned (s : State) (k : Fin 2) : State :=
  s.each (finsWhere (fun n => s.phOn k n && (s.phSwitching n || s.phSt n == .waking)))
    (fun t n => t.modPh n (fun p => { p with turned := 17 }))

/-- A phase at the end of its interval, to start at a slot in a mode with its suspension before it. -/
def PhH.restart (p : PhH) (m : Mode) (at_ : Rat) : PhH :=
  { p with
    blend := 0, dB := [], bEnd := none, susp := 17, onTime := false, fired := false, acc := 0, mode := m, slot := at_,
    pwmb := .hiZ, pwmk := .hiZ, tLo := none, tUp := none, openN := 0, stuckN := 0 }

/-- The switching phases of a port start again, 20 ns apart. -/
def State.restartPhases (s : State) (k : Fin 2) (m : Mode) : State :=
  let up := finsWhere (fun n => s.phOn k n && s.phSwitching n)
  s.each up (fun t n =>
    t.modPh n (·.restart m (divR (256 * (up.filter (fun (i : Fin 16) => decide (i < n))).length) (t.php[k].per))))

theorem State.turn_eq (s : State) {d : Dir} (h : s.dir k ≠ d) :
    s.turn k d = (((s.turnPort k d).markTurned k).restartPhases k (s.turnMode k d)).syncPort k := by
  unfold State.turn
  rw [if_neg h]
  rfl

theorem State.markTurned_regs (s : State) (k : Fin 2) : (s.markTurned k).regs = s.regs :=
  State.each_keep (Q := fun t => t.regs = s.regs) rfl (fun _ _ _ ht => ht)

theorem State.restartPhases_regs (s : State) (k : Fin 2) (m : Mode) : (s.restartPhases k m).regs = s.regs :=
  State.each_keep (Q := fun t => t.regs = s.regs) rfl (fun _ _ _ ht => ht)

/-- A switching phase of the port starts again with its suspension, its interval ended. -/
theorem State.restartPhases_restarts (s : State) {m : Mode} (hon : s.phOn k n = true) (hsw : s.phSwitching n = true) :
    (s.restartPhases k m).ph[n].susp = 17 ∧ (s.restartPhases k m).ph[n].onTime = false := by
  refine State.each_sets (R := fun t => t.ph[n].susp = 17 ∧ t.ph[n].onTime = false) (finsWhere_nodup _)
    (mem_finsWhere.mpr (by rw [hon, hsw]; rfl)) (fun t => ?_) (fun t i hi ht => ?_)
  · rw [State.modPh_same]
    exact ⟨rfl, rfl⟩
  · rwa [State.modPh_ne t _ hi]

/-! ### What it brings about -/

theorem State.fld_turnDir (s : State) {d : Dir} {f : Fld} (hf : f.Fits) (hoff : f.off = PHP_STAT k) (hbits : 28 ≤ f.lo) :
    (s.turnDir k d).fld f = (s.setFld (PHP_STAT_DIR k) d.code).fld f := by
  obtain ⟨-, -, hevt, hline, -⟩ := portRegs_ne k
  refine (State.fld_setFld_ne _ _ (by simp) hf (.inr (.inr (by simp only; omega)))).trans (State.fld_of_word ?_)
  exact State.word_setFlags_ne _ _ (hoff ▸ hline) (hoff ▸ hevt)

theorem State.turnPort_dir (s : State) (k : Fin 2) (d : Dir) : (s.turnPort k d).dir k = d := by
  have hmode : (s.turnPort k d).dir k = (s.turnDir k d).dir k :=
    State.dir_of_fld (State.fld_setFld_ne _ _ (by simp) (by simp) (.inr (.inr (by simp))))
  rw [hmode]
  exact (State.dir_of_fld (s.fld_turnDir (by simp) rfl (by simp))).trans (s.dir_setFld_same k d)

theorem State.dir_turn (s : State) (k : Fin 2) (d : Dir) : (s.turn k d).dir k = d := by
  by_cases h : s.dir k = d
  · rw [State.turn, if_pos h, h]
  · rw [s.turn_eq h, State.dir_syncPort]
    have hregs := (State.restartPhases_regs _ k (s.turnMode k d)).trans (State.markTurned_regs (s.turnPort k d) k)
    exact (State.dir_of_fld (State.fld_of_word (State.word_of_regs hregs _))).trans (s.turnPort_dir k d)

theorem evt_besidePort (k : Fin 2) : FP.syncPort (· ≠ .reg (PHP_EVT k)) k := by
  repeat' first
    | decide +revert
    | apply And.intro

theorem State.turn_dirchg (s : State) {d : Dir} (h : s.dir k ≠ d) : (s.turn k d).on (PHP_EVT_DIRCHG k) = true := by
  obtain ⟨-, -, hevt, -, hline⟩ := portRegs_ne k
  have hport (t : State) : (t.syncPort k).word (PHP_EVT k) = t.word (PHP_EVT k) :=
    (State.syncPort_only (.refl _ t) k (evt_besidePort k)).word (by simp)
  have hregs := (State.restartPhases_regs _ k (s.turnMode k d)).trans (State.markTurned_regs (s.turnPort k d) k)
  have hstat : (s.turnPort k d).word (PHP_EVT k) = ((s.setFld (PHP_STAT_DIR k) d.code).evt (PHP_EVT_DIRCHG k)).word (PHP_EVT k) :=
    (State.word_setFld_off _ _ hevt.symm).trans (State.word_setFld_off _ _ hevt.symm)
  rw [s.turn_eq h, State.on_of_word (hport _), State.on_of_word (State.word_of_regs hregs _), State.on_of_word hstat]
  exact State.on_evt_same _ hline (by simp)

/-! ### What it leaves -/

/-- The registers that a change of direction of port `k` writes. -/
def turnRegs (k : Fin 2) : List Nat := [PHP_STAT k, PHP_EVT k, PHP_CMD k, PH_GSTAT] ++ lineOut

/-- The places where it may write, among them some that it leaves. -/
def Place.ofTurn (k : Fin 2) : Place → Bool
  | .reg o => (turnRegs k).contains o
  | .chg _ | .thm => false
  | _ => true

theorem turn_ofTurn (k : Fin 2) : FP.turn (fun l => l.ofTurn k = true) k := by
  repeat' first
    | decide +revert
    | apply And.intro

theorem phase_not_turnRegs (k : Fin 2) (n : Fin 16) : PH_CFG n ∉ turnRegs k ∧ PH_STAT n ∉ turnRegs k := by decide +revert

theorem feed_not_turnRegs (k : Fin 2) (n : Fin 4) : FEED_STAT n ∉ turnRegs k := by decide +revert

/-- The strap and the registers of port `k` beside its status. -/
theorem port_not_turnRegs (k : Fin 2) : ∀ o ∈ [SYS_STRAP, CHG_STAT k, CHG_CTL k, PK_STAT k, PHP_MODE k], o ∉ turnRegs k := by
  decide +revert

theorem phpMap_not_turnRegs (k : Fin 2) {j : Nat} (h : j < 17) : PHP_MAP k j ∉ turnRegs k := by
  revert j
  decide +revert

theorem State.turnPort_only {P : Place → Prop} (s : State) (k : Fin 2) (d : Dir) (hstat : P (.reg (PHP_STAT k)))
    (hevt : FP.evt P (PHP_EVT k)) (hphp : P (.php k)) : OnlyAt P s (s.turnPort k d) :=
  State.modPhp_only (State.setFld_only (State.setFld_only (State.evt_only (State.setFld_only (.refl _ s) _ _ hstat) _ hevt) _ _ hstat) _ _
    hstat) k _ hphp

/-- What PHASE_ADD looks at stands after a change of direction of port `k`. -/
structure AsBefore (k : Fin 2) (s t : State) : Prop where
  only : OnlyAt (fun l => l.ofTurn k = true) s t
  vpack : t.php[k].vpack = s.php[k].vpack
  addN : t.php[k].addN = s.php[k].addN
  drain : ∀ n : Fin 16, t.ph[n].drain = s.ph[n].drain

theorem AsBefore.refl (s : State) (k : Fin 2) : AsBefore k s s := ⟨.refl _ s, rfl, rfl, fun _ => rfl⟩

theorem State.evt_ph (s : State) (f : Fld) (n : Fin 16) : (s.evt f).ph[n] = s.ph[n] :=
  (State.evt_only (P := fun l => l ≠ .ph n) (.refl _ s) f (by simp [FP.evt, FP.setFlags, FP.lineRise, FP.msix, FP.send]))
    (.ph n) (by simp)

theorem State.turnPort_php (s : State) (k : Fin 2) (d : Dir) : (s.turnPort k d).php[k] = { s.php[k] with dwell := 0 } := by
  unfold State.turnPort
  rw [State.modPhp_same]
  exact congrArg (fun p : PhpH => { p with dwell := 0 }) (congrArg (·[k]) (State.evt_php _ _))

theorem State.turnPort_ph (s : State) (d : Dir) (n : Fin 16) : (s.turnPort k d).ph[n] = s.ph[n] := State.evt_ph _ _ n

theorem State.phasesOnly_php (s : State) (m : Mode) : ((s.markTurned k).restartPhases k m).php = s.php :=
  State.each_keep (Q := fun t => t.php = s.php) (State.each_keep (Q := fun t => t.php = s.php) rfl (fun _ _ _ ht => ht))
    (fun _ _ _ ht => ht)

/-- An update of one phase that leaves its selection to drain leaves every phase's. -/
theorem State.modPh_drain (s : State) (m n : Fin 16) {f : PhH → PhH} (hf : ∀ p, (f p).drain = p.drain) :
    (s.modPh m f).ph[n].drain = s.ph[n].drain := by
  by_cases h : m = n
  · subst h
    rw [State.modPh_same, hf]
  · rw [State.modPh_ne s f h]

theorem PhH.restart_drain (p : PhH) (m : Mode) (at_ : Rat) : (p.restart m at_).drain = p.drain := rfl

theorem State.phasesOnly_drain (s : State) (m : Mode) (n : Fin 16) : ((s.markTurned k).restartPhases k m).ph[n].drain = s.ph[n].drain :=
  State.each_keep (Q := fun t => t.ph[n].drain = s.ph[n].drain)
    (State.each_keep (Q := fun t => t.ph[n].drain = s.ph[n].drain) rfl (fun t i _ ht => (t.modPh_drain i n (fun _ => by rfl)).trans ht))
    (fun t i _ ht => (t.modPh_drain i n (fun p => p.restart_drain _ _)).trans ht)

theorem State.turnPort_asBefore (s : State) (k : Fin 2) (d : Dir) : AsBefore k s (s.turnPort k d) where
  only := by
    obtain ⟨hstat, hevt, hphp, -, -⟩ := turn_ofTurn k
    exact s.turnPort_only k d hstat hevt hphp
  vpack := (congrArg PhpH.vpack (s.turnPort_php k d) :)
  addN := (congrArg PhpH.addN (s.turnPort_php k d) :)
  drain n := congrArg PhH.drain (s.turnPort_ph d n)

theorem State.turn_asBefore (s : State) (k : Fin 2) (d : Dir) : AsBefore k s (s.turn k d) := by
  have honly := State.turn_only (.refl _ s) k d (turn_ofTurn k)
  by_cases h : s.dir k = d
  · rw [State.turn, if_pos h]
    exact .refl s k
  · have hport := s.turnPort_asBefore k d
    rw [s.turn_eq h] at honly ⊢
    have hphp := (congrArg (·[k]) (State.phasesOnly_php (k := k) (s.turnPort k d) (s.turnMode k d)))
    have hdrain n := (State.phasesOnly_drain (k := k) (s.turnPort k d) (s.turnMode k d) n).trans (hport.drain n)
    generalize ((s.turnPort k d).markTurned k).restartPhases k (s.turnMode k d) = u at *
    exact ⟨honly, (congrArg PhpH.vpack hphp :).trans hport.vpack, (congrArg PhpH.addN hphp :).trans hport.addN, hdrain⟩

/-- A phase that neither switches nor wakes stands while its port changes direction. -/
theorem State.turn_stands (s : State) (k : Fin 2) (d : Dir) (hsw : s.phSwitching n = false) (hwake : s.phSt n ≠ .waking) :
    Stands n s (s.turn k d) := by
  have hops := besidePhOps n
  by_cases h : s.dir k = d
  · rw [State.turn, if_pos h]
    exact .refl n s
  · rw [s.turn_eq h]
    have hport : Stands n s (s.turnPort k d) :=
      (s.turnPort_only k d (hops.stat k) (hops.evt k) (hops.php k)).stands
    have hst := hport.phSt
    generalize s.turnPort k d = u at *
    have hmark : Stands n u (u.markTurned k) :=
      State.each_keep (Q := Stands n u) (.refl n u) (fun t i _ ht => ht.trans (t.modPh_stands i (fun _ _ => rfl)))
    have hrestart : Stands n (u.markTurned k) ((u.markTurned k).restartPhases k (s.turnMode k d)) := by
      refine State.each_keep (Q := Stands n (u.markTurned k)) (.refl _ _) (fun t i hi ht => ht.trans (t.modPh_stands i ?_))
      rintro rfl
      obtain ⟨hrun, hshed⟩ := State.phSwitching_eq_false.mp hsw
      have hi := mem_finsWhere.mp hi
      simp [State.phSwitching, hmark.phSt, hst, hrun, hshed] at hi
    exact ((hport.trans hmark).trans hrestart).trans (State.syncPort_stands _ k)
end

end Sys2Proof.Machine
end

section
/-! PROOF. Mode and direction of a port; its phases added, woken, shed and stopped (R119, R121, R123, R132, R134 to R136). -/

namespace Sys2Proof.Machine

/-! ### What PHASE_ADD looks at -/

section
variable {s t : State} {k : Fin 2}

theorem AsBefore.word (h : AsBefore k s t) {o : Nat} (ho : o ∉ turnRegs k) : t.word o = s.word o :=
  h.only.word (by simpa [Place.ofTurn] using ho)

theorem AsBefore.fld (h : AsBefore k s t) {f : Fld} (ho : f.off ∉ turnRegs k) : t.fld f = s.fld f := State.fld_of_word (h.word ho)

theorem AsBefore.on (h : AsBefore k s t) {f : Fld} (ho : f.off ∉ turnRegs k) : t.on f = s.on f := State.on_of_word (h.word ho)

theorem AsBefore.phSt (h : AsBefore k s t) (n : Fin 16) : t.phSt n = s.phSt n :=
  State.phSt_of_fld (h.fld (phase_not_turnRegs k n).2)

theorem AsBefore.tstage (h : AsBefore k s t) (n : Fin 16) : t.tstage n = s.tstage n :=
  State.sfld_of_fld (h.fld (f := PH_STAT_TSTAGE n) (phase_not_turnRegs k n).2)

theorem AsBefore.phOn (h : AsBefore k s t) (n : Fin 16) : t.phOn k n = s.phOn k n := by
  unfold State.phOn
  rw [h.fld (phase_not_turnRegs k n).1, h.fld (port_not_turnRegs k SYS_STRAP (by simp))]

theorem AsBefore.phAvail (h : AsBefore k s t) (n : Fin 16) : t.phAvail k n = s.phAvail k n := by
  unfold State.phAvail
  rw [h.phOn, h.phSt, h.only.thm (by simp [Place.ofTurn])]

theorem AsBefore.nrun (h : AsBefore k s t) : t.nrun k = s.nrun k := by
  have hrun : t.phRun k = s.phRun k := funext (fun n => by
    unfold State.phRun
    rw [h.phOn, h.phSt])
  unfold State.nrun
  rw [hrun]

theorem AsBefore.readyWant (h : AsBefore k s t) : t.readyWant k = s.readyWant k := by
  unfold State.readyWant
  rw [h.fld (port_not_turnRegs k (CHG_CTL k) (by simp)), funext h.phAvail]

theorem AsBefore.role (h : AsBefore k s t) : t.role k = s.role k :=
  State.role_of_word (h.word (port_not_turnRegs k _ (by simp)))

theorem AsBefore.feedOn (h : AsBefore k s t) : t.feedOn = s.feedOn := by
  have hfeed (n : Fin 4) : t.feedSt n = s.feedSt n := State.feedSt_of_fld (h.fld (feed_not_turnRegs k n))
  unfold State.feedOn
  simp only [hfeed]

theorem AsBefore.huEligible (h : AsBefore k s t) : t.huEligible k = s.huEligible k := by
  have hport := port_not_turnRegs k
  have hprof : t.prof k = s.prof k := congrArg ChgH.prof (h.only (.chg k) (by simp [Place.ofTurn]))
  have hstage : t.stage k = s.stage k := congrArg Stage.ofCode (h.fld (f := CHG_STAT_STAGE k) (hport (CHG_STAT k) (by simp)))
  unfold State.huEligible State.packIn
  rw [hprof, hstage, h.vpack, h.on (hport (CHG_CTL k) (by simp)), h.on (hport (CHG_STAT k) (by simp)),
    h.on (f := PK_STAT_PRES k) (hport (PK_STAT k) (by simp)), h.on (f := PK_STAT_DSGPERM k) (hport (PK_STAT k) (by simp))]

theorem AsBefore.mapOk (h : AsBefore k s t) : t.mapOk k = s.mapOk k := by
  refine Bool.eq_iff_iff.mpr ?_
  simp only [State.mapOk, List.all_eq_true, List.mem_range]
  exact forall₂_congr (fun i hi => by rw [h.fld (phpMap_not_turnRegs k (by omega)), h.fld (phpMap_not_turnRegs k (by omega))])

theorem AsBefore.mapZero (h : AsBefore k s t) : t.mapZero k = s.mapZero k := by
  refine Bool.eq_iff_iff.mpr ?_
  simp only [State.mapZero, List.all_eq_true, List.mem_range]
  exact forall₂_congr (fun i hi => by rw [h.word (phpMap_not_turnRegs k (by omega))])

theorem AsBefore.addAtOnce (h : AsBefore k s t) : t.addAtOnce k = s.addAtOnce k := by
  unfold State.addAtOnce
  rw [h.nrun, h.role, h.huEligible, h.feedOn, h.readyWant, h.mapOk, h.mapZero, h.on (port_not_turnRegs k (PHP_MODE k) (by simp))]

/-- The phases of a port that run or wake. -/
def State.upPhases (s : State) (k : Fin 2) : List (Fin 16) := finsWhere (fun n => s.phOn k n && (s.phSt n == .run || s.phSt n == .waking))

/-- The IDLE phases of a port that may wake. -/
def State.idlePhases (s : State) (k : Fin 2) : List (Fin 16) := finsWhere (fun n => s.phAvail k n && s.phSt n == .idle && !s.ph[n].drain)

theorem AsBefore.upPhases (h : AsBefore k s t) : t.upPhases k = s.upPhases k := by
  unfold State.upPhases
  simp only [h.phOn, h.phSt]

theorem AsBefore.idlePhases (h : AsBefore k s t) : t.idlePhases k = s.idlePhases k := by
  unfold State.idlePhases
  simp only [h.phAvail, h.phSt, h.drain]

theorem AsBefore.coolest (h : AsBefore k s t) (l : List (Fin 16)) : t.coolest l = s.coolest l := by
  unfold State.coolest
  simp only [h.tstage]
end

/-! ### Phases added -/

section
variable {s : State} {k : Fin 2} {n : Fin 16}

theorem State.coolest_mem {l : List (Fin 16)} {m : Fin 16} (h : s.coolest l = some m) : m ∈ l := by
  unfold State.coolest at h
  refine List.foldlRecOn (motive := fun b => ∀ m, b = some m → m ∈ l) l _ (by simp) (fun b hb a ha m hm => ?_) m h
  cases b with
  | none => exact Option.some.inj hm ▸ ha
  | some c =>
    dsimp only at hm
    split at hm
    · exact Option.some.inj hm ▸ ha
    · exact hb m hm

/-- A phase that wakes already stands while others are added. -/
theorem State.addUpTo_stands (hn : s.phSt n = .waking) (want fuel : Nat) : Stands n s (s.addUpTo k want fuel) := by
  induction fuel generalizing s with
  | zero => exact .refl n s
  | succ fuel ih =>
    have hnext {t : State} (ht : Stands n s t) : Stands n s (t.addUpTo k want fuel) := ht.trans (ih (ht.phSt.trans hn))
    have hset {m : Fin 16} (st : PhSt) (hm : m ≠ n) : Stands n s ((s.setPh m st).count (PHP_CNT_ADDS k)) :=
      (s.setPh_stands st hm).trans (State.count_stands _ rfl)
    unfold State.addUpTo
    dsimp only
    split
    · exact .refl n s
    · split
      · next m hm =>
        have hidle := mem_finsWhere.mp (State.coolest_mem hm)
        exact hnext (hset _ (by rintro rfl; simp [hn] at hidle))
      · split
        · next m hm =>
          have hshed := mem_finsWhere.mp (List.mem_of_mem_head? hm)
          exact hnext ((hset _ (by rintro rfl; simp [hn] at hshed)).trans (State.syncPort_stands _ k))
        · exact .refl n s

/-- The first phase that is added is the coolest IDLE one, and it goes on waking while others are added. -/
theorem State.addUpTo_wakes {want fuel : Nat} (hup : (s.upPhases k).length < want) (hcool : s.coolest (s.idlePhases k) = some n) :
    (s.addUpTo k want (fuel + 1)).phSt n = .waking ∧ (s.addUpTo k want (fuel + 1)).ph[n].en = true := by
  have hcount := State.count_stands (n := n) (s.setPh n .waking) (k := k) (f := PHP_CNT_ADDS k) rfl
  have hwakes := hcount.phSt.trans (s.phSt_setPh_same n .waking)
  have hrest := State.addUpTo_stands (k := k) hwakes want fuel
  have hstep : s.addUpTo k want (fuel + 1) = ((s.setPh n .waking).count (PHP_CNT_ADDS k)).addUpTo k want fuel := by
    unfold State.upPhases at hup
    unfold State.idlePhases at hcool
    rw [State.addUpTo, if_neg (by omega), hcool]
  rw [hstep]
  exact ⟨hrest.phSt.trans hwakes, (hrest.en.trans hcount.en).trans (s.setPh_en n (by simp))⟩

theorem phaseAdd_clause (hphok : s.on SYS_STATE_PHOK = true) (hrun : s.running = true) (hstop : s.on FEED_GSTAT_EXSTOP = false)
    (hnow : s.addAtOnce k = true ∨ 2 ≤ s.php[k].addN) (hup : (s.upPhases k).length < s.addWant k)
    (hcool : s.coolest (s.idlePhases k) = some n) : Gives (.phaseAdd k) s (fun t => t.phSt n = .waking ∧ t.ph[n].en = true) := by
  refine ⟨_, rfl, ?_⟩
  rw [if_neg (by simp [hphok, hrun, hstop])]
  extract_lets want u w
  have hu : AsBefore k s u := by
    unfold u
    split
    · exact s.turn_asBefore k .chg
    · exact .refl s k
  have hwait : (!u.addAtOnce k && decide (u.php[k].addN < 2)) = false := by
    rw [hu.addAtOnce, hu.addN]
    rcases hnow with h | h
    · rw [h]
      rfl
    · rw [decide_eq_false (by omega), Bool.and_false]
  have hw : w.upPhases k = u.upPhases k ∧ w.coolest (w.idlePhases k) = u.coolest (u.idlePhases k) := by
    unfold w
    split <;> exact ⟨rfl, rfl⟩
  obtain ⟨hwup, hwcool⟩ := hw
  rw [hu.upPhases] at hwup
  rw [hu.coolest, hu.idlePhases, hcool] at hwcool
  rw [if_neg (by rw [hwait]; exact Bool.false_ne_true)]
  obtain ⟨hst, hen⟩ := State.addUpTo_wakes (want := want) (fuel := 15) (hwup ▸ hup) hwcool
  have helig := (State.syncElig_stands (n := n) (w.addUpTo k want 16) k)
  exact ⟨helig.phSt.trans hst, helig.en.trans hen⟩

/-! ### Phases shed -/

theorem cnt_besidePort (k : Fin 2) : FP.syncPort (· ≠ .reg (PHP_CNT k)) k := by
  repeat' first
    | decide +revert
    | apply And.intro

theorem phpCnt_ne_chgStat (k : Fin 2) : PHP_CNT k ≠ CHG_STAT k := by decide +revert

/-- The hottest running phase sheds, and it counts. -/
theorem State.shedOne_sheds (hhot : s.hottest (finsWhere (s.phRun k)) = some n) :
    (s.shedOne k).phSt n = .shedding ∧ Counted s (s.shedOne k) (PHP_CNT_SHEDS k) := by
  have hdef : s.shedOne k =
      ((((s.setPh n .shedding).count (PHP_CNT_SHEDS k)).modPhp k (fun p => { p with cmds := [] })).syncPort k) := by
    unfold State.shedOne
    rw [hhot]
  have hstands := ((State.count_stands (n := n) (s.setPh n .shedding) (k := k) (f := PHP_CNT_SHEDS k) rfl).trans
    (State.modPhp_stands _ (k := k) (fun p => { p with cmds := [] }))).trans (State.syncPort_stands _ k)
  have hset : (s.setPh n .shedding).fld (PHP_CNT_SHEDS k) = s.fld (PHP_CNT_SHEDS k) :=
    State.fld_of_word (s.word_setPh_ne n _ (phpCnt_ne_stat k n).symm)
  have hport (t : State) : (t.syncPort k).fld (PHP_CNT_SHEDS k) = t.fld (PHP_CNT_SHEDS k) :=
    (State.syncPort_only (.refl _ t) k (cnt_besidePort k)).fld (by simp)
  rw [hdef]
  refine ⟨hstands.phSt.trans (s.phSt_setPh_same n _), ?_⟩
  unfold Counted
  rw [hport, State.modPhp_fld, State.fld_count_same _ (by simp), hset]

theorem phaseShed_sheds (hcond : s.ncapOf k < s.nrun k ∨ s.shedCond k = true) (hadd : s.addWant k ≤ s.nrun k)
    (hhot : s.hottest (finsWhere (s.phRun k)) = some n) :
    Gives (.phaseShed k) s (fun t => t.phSt n = .shedding ∧ Counted s t (PHP_CNT_SHEDS k)) := by
  refine ⟨_, rfl, ?_⟩
  rw [if_pos (by simpa using ⟨hcond, hadd⟩)]
  obtain ⟨hst, hcnt⟩ := State.shedOne_sheds hhot
  have helig := (State.syncElig_stands (n := n) (s.shedOne k) k)
  exact ⟨helig.phSt.trans hst, (State.fld_of_word ((s.shedOne k).syncElig_word k (phpCnt_ne_chgStat k))).trans hcnt⟩

theorem State.addWant_drizzle (hrole : s.role k = .drizzle) : s.addWant k ≤ 1 := by
  simp [State.addWant, hrole]

theorem State.shedCond_drizzle (hrole : s.role k = .drizzle) (hmore : 1 < s.nrun k) : s.shedCond k = true := by
  simp [State.shedCond, hrole, hmore]

theorem State.shedCond_map (hrole : s.role k ≠ .drizzle) (hcmd : s.iport k ≠ 0) (hall : s.on (PHP_MODE_HUALL k) = false)
    (hmap : s.mapOk k = true) (hzero : s.mapZero k = false)
    (hmin : max (s.fld (PHP_SHED_NMIN k)) (max 1 (s.readyWant k)) < s.nrun k) (hlen : s.php[k].cmds.length = 64)
    (hmean : 4 * (s.php[k].cmds.sum / 64) < s.fld (PHP_MAP_SHED k (s.nact k))) : s.shedCond k = true := by
  have hready : (if s.huEligible k && s.feedOn then s.readyWant k else 0) ≤ s.readyWant k := by split <;> simp
  unfold State.shedCond
  extract_lets nrun ready l
  rw [if_neg hrole, if_neg hcmd, if_neg (by simp [hall, hmap, hzero])]
  have hkeep : max (s.fld (PHP_SHED_NMIN k)) (max 1 ready) < nrun := by omega
  simp only [Bool.and_eq_true, decide_eq_true_eq, beq_iff_eq]
  exact ⟨⟨hkeep, hlen⟩, hmean⟩

/-! ### The end of a wake and of a shed -/

theorem phpStat_ne_stat (k : Fin 2) (n : Fin 16) : PHP_STAT k ≠ PH_STAT n := by decide +revert

/-- A phase before its first cycle after a wake, with its suspension before it. -/
def PhH.woken (p : PhH) (m : Mode) (slot : Rat) : PhH :=
  { p with
    susp := 17, openN := 0, stuckN := 0, fired := false, mode := m, blend := 0, dB := [], bEnd := none, acc := 0
    slot := slot, pwmb := PwmLvl.hiZ, pwmk := PwmLvl.hiZ }

/-- The phase that wakes, as its port then reports it. -/
theorem State.woken_runs {w : State} (hst : w.phSt n = .run) (hen : w.ph[n].en = true) (m : Mode) (slot : Rat) :
    let t := (w.modPh n (·.woken m slot)).syncElig k
    t.phSt n = .run ∧ t.ph[n].susp = 17 ∧ t.ph[n].mode = m ∧ t.ph[n].en = true := by
  intro t
  have hph : t.ph[n] = w.ph[n].woken m slot := w.modPh_same n _
  have helig : t.phSt n = w.phSt n := (State.syncElig_stands (n := n) (w.modPh n (·.woken m slot)) k).phSt
  rw [hph]
  exact ⟨helig.trans hst, rfl, rfl, hen⟩

theorem phaseWakeDone_clause (hport : s.portOf n = some k) (hst : s.phSt n = .waking) :
    Gives (.phaseWakeDone n) s (fun t => t.phSt n = .run ∧ t.ph[n].susp = 17 ∧ t.ph[n].mode = s.modeOf k ∧ t.ph[n].en = true) := by
  refine ⟨_, rfl, ?_⟩
  rw [hport]
  dsimp only
  rw [if_pos hst]
  have hrun := State.syncPort_stands (n := n) (s.setPh n .run) k
  have hmode : ((s.setPh n .run).syncPort k).modeOf k = s.modeOf k :=
    (State.modeOf_syncPort _ k).trans (State.modeOf_of_fld (State.fld_of_word (s.word_setPh_ne n _ (phpStat_ne_stat k n))))
  have hst := hrun.phSt.trans (s.phSt_setPh_same n .run)
  have hen := hrun.en.trans (s.setPh_en n (by simp))
  rw [hmode]
  generalize (s.setPh n .run).syncPort k = u at *
  generalize hw : (if (finsWhere fun i => u.phOn k i && u.phSwitching i).length = 1 then
    u.modPhp k (fun p => { p with per := u.period k }) else u) = w
  have hper : Stands n u w := hw ▸ .ite (u.modPhp_stands _) (.refl n u)
  exact State.woken_runs (hper.phSt.trans hst) (hper.en.trans hen) (s.modeOf k) (w.slotOf k n)

theorem State.restPh_stopped (s : State) (n : Fin 16) : s.restPh n ∉ [.waking, .run, .shedding] := by
  unfold State.restPh
  repeat' split
  all_goals simp

/-- A phase that is stopped stands while its port becomes idle and the next one drains. -/
theorem State.idleDir_stands (s : State) (k : Fin 2) (h : s.phSt n ∉ [.waking, .run, .shedding]) : Stands n s (s.idleDir k) := by
  simp only [List.mem_cons, List.not_mem_nil, or_false, not_or] at h
  obtain ⟨hwake, hrun, hshed⟩ := h
  unfold State.idleDir
  exact .ite (s.turn_stands k .idle (State.phSwitching_eq_false.mpr ⟨hrun, hshed⟩) hwake) (.refl n s)

theorem phaseShedDone_clause (hst : s.phSt n = .shedding) : Gives (.phaseShedDone n) s (fun t =>
    (t.phSt n = if s.sys.testPhase = some n then .test else s.restPh n) ∧ t.ph[n].en = false ∧ t.ph[n].pwmb = .low ∧
      t.ph[n].pwmk = .low) := by
  refine ⟨_, rfl, ?_⟩
  rw [if_pos hst]
  generalize hx : (if s.sys.testPhase = some n then PhSt.test else s.restPh n) = x
  have hstop : x ∉ [.waking, .run, .shedding] := by
    rw [← hx]
    split
    · simp
    · exact s.restPh_stopped n
  have hports := State.syncPorts_stands (n := n) (s.setPh n x)
  have hux := hports.phSt.trans (s.phSt_setPh_same n x)
  have hpins := hports.pins.trans (s.setPh_pins_stopped n hstop)
  generalize (s.setPh n x).syncPorts = u at *
  extract_lets k u' v
  clear_value k
  have hv : Stands n u v := by
    unfold v
    split
    · next _ j => exact (u.idleDir_stands j (hux ▸ hstop)).trans (State.syncElig_stands _ j)
    · exact .refl n u
  have hdrain : Stands n v v.drainNext := State.drainNext_stands (by
    rw [hv.phSt, hux]
    rintro rfl
    simp at hstop)
  have hall := hv.trans hdrain
  have hpins := hall.pins.trans hpins
  exact ⟨hall.phSt.trans hux, congrArg (·.1) hpins, congrArg (·.2.1) hpins, congrArg (·.2.2) hpins⟩

/-! ### Mode and direction -/

/-- The means that MODE_EVALUATE takes (R118, R119). -/
def State.evalMeans (s : State) (k : Fin 2) : State :=
  State.modPhp { s with phg := { s.phg with vbus := meanOr s.meas.v[12] s.meas.bus } } k
    (fun p => { p with vpack := s.meas.v[Fin.ofNat 48 (13 + k)], i10 := s.portAmps k 1000, i1m := s.portAmps k 100000 })

/-- The port with a mode that it enters: its blend and its dwell start. -/
def State.enterMode (s : State) (k : Fin 2) (m : Mode) : State :=
  (((s.setFld (PHP_STAT_MODE k) m.code).setFld (PHP_STAT_BLEND k) 8).evt (PHP_EVT_MODECHG k)).modPhp k (fun p => { p with dwell := 0 })

/-- A port whose dwell is over enters the mode of R121 where it is another one. -/
def State.evalMode (s : State) (k : Fin 2) : State :=
  let m := s.modeFor k (s.modeOf k)
  if s.dir k != .idle && m != s.modeOf k && decide (64 ≤ s.php[k].dwell) then s.enterMode k m else s

theorem execModeEvaluate_eq (s : State) (k : Fin 2) : execModeEvaluate k s = .next ((s.evalMeans k).evalMode k) := by
  match k with
  | 0 => rfl
  | 1 => rfl

theorem State.enterMode_modeOf (s : State) (k : Fin 2) (m : Mode) : (s.enterMode k m).modeOf k = m := by
  obtain ⟨-, -, hevt, hline, -⟩ := portRegs_ne k
  refine Eq.trans (State.modeOf_of_fld ?_) (s.modeOf_setFld_same k m)
  exact (State.fld_of_word (State.word_setFlags_ne _ _ hline hevt)).trans (State.fld_setFld_ne _ _ (by simp) (by simp) (.inr (.inr (by simp))))

theorem State.enterMode_dir (s : State) (k : Fin 2) (m : Mode) : (s.enterMode k m).dir k = s.dir k := by
  obtain ⟨-, -, hevt, hline, -⟩ := portRegs_ne k
  refine State.dir_of_fld ?_
  exact (State.fld_of_word (State.word_setFlags_ne _ _ hline hevt)).trans ((State.fld_setFld_ne _ _ (by simp) (by simp)
    (.inr (.inr (by simp)))).trans (s.fld_setFld_ne _ (by simp) (by simp) (.inr (.inr (by simp)))))

theorem State.enterMode_phg (s : State) (k : Fin 2) (m : Mode) : (s.enterMode k m).phg = s.phg := State.evt_phg _ _

theorem State.enterMode_php (s : State) (k : Fin 2) (m : Mode) : (s.enterMode k m).php[k] = { s.php[k] with dwell := 0 } := by
  unfold State.enterMode
  rw [State.modPhp_same]
  exact congrArg (fun p : PhpH => { p with dwell := 0 }) (congrArg (·[k]) (State.evt_php _ _))

theorem modeEvaluate_clause (hdir : s.dir k ≠ .idle) (hdwell : 64 ≤ s.php[k].dwell) : Gives (.modeEvaluate k) s (fun t =>
    t.phg.vbus = meanOr s.meas.v[12] s.meas.bus ∧ t.php[k].vpack = s.meas.v[Fin.ofNat 48 (13 + k)] ∧ t.php[k].i10 = s.portAmps k 1000 ∧
      t.php[k].i1m = s.portAmps k 100000 ∧ t.modeOf k = t.modeFor k (s.modeOf k)) := by
  refine ⟨_, execModeEvaluate_eq s k, ?_⟩
  have hmode : (s.evalMeans k).modeOf k = s.modeOf k := rfl
  have hmoves : (s.evalMeans k).dir k ≠ .idle := hdir
  have hbus : (s.evalMeans k).phg.vbus = meanOr s.meas.v[12] s.meas.bus := rfl
  have hphp : (s.evalMeans k).php[k] = { s.php[k] with
      vpack := s.meas.v[Fin.ofNat 48 (13 + k)], i10 := s.portAmps k 1000, i1m := s.portAmps k 100000 } := State.modPhp_same _ _ _
  rw [← hmode]
  generalize s.evalMeans k = u at *
  unfold State.evalMode
  extract_lets m
  have hlong : 64 ≤ u.php[k].dwell := by
    rw [hphp]
    exact hdwell
  have hvpack : u.php[k].vpack = s.meas.v[Fin.ofNat 48 (13 + k)] := congrArg PhpH.vpack hphp
  have hi10 : u.php[k].i10 = s.portAmps k 1000 := congrArg PhpH.i10 hphp
  have hi1m : u.php[k].i1m = s.portAmps k 100000 := congrArg PhpH.i1m hphp
  split
  · have henter := u.enterMode_php k m
    have hvbus := congrArg PhGH.vbus (u.enterMode_phg k m)
    have hpack : (u.enterMode k m).php[k].vpack = u.php[k].vpack := (congrArg PhpH.vpack henter :)
    refine ⟨hvbus.trans hbus, hpack.trans hvpack, (congrArg PhpH.i10 henter :).trans hi10, (congrArg PhpH.i1m henter :).trans hi1m, ?_⟩
    rw [u.enterMode_modeOf, State.modeFor_congr hvbus hpack (u.enterMode_dir k m)]
  · next hkeep =>
    have hsame : m = u.modeOf k := by
      by_contra hne
      simp [hmoves, hne, -Fin.getElem_fin, hlong] at hkeep
    exact ⟨hbus, hvpack, hi10, hi1m, hsame.symm⟩

/-- A direction that the role of the port allows is commanded (R149). -/
theorem execDirectionChange_allowed {d : Dir} (h : (s.role k = .gust ∨ s.role k = .holdup) ∧ d = .dis ∨
    (s.role k = .charge ∨ s.role k = .drizzle ∨ s.role k = .none) ∧ d = .chg) : execDirectionChange k d s = .next (s.turn k d) := by
  rcases h with ⟨h | h, rfl⟩ | ⟨h | h | h, rfl⟩
  all_goals
    unfold execDirectionChange
    rw [h]
    rfl

/-- The switching phases of a port that changes its direction start again. -/
theorem State.turn_restarts {d : Dir} (h : s.dir k ≠ d) (hon : s.phOn k n = true) (hsw : s.phSwitching n = true) :
    (s.turn k d).ph[n].susp = 17 ∧ (s.turn k d).ph[n].onTime = false := by
  have hport := s.turnPort_asBefore k d
  have hregs := (s.turnPort k d).markTurned_regs k
  have hon' : ((s.turnPort k d).markTurned k).phOn k n = true := by
    unfold State.phOn State.fld
    rw [hregs]
    exact (hport.phOn n).trans hon
  have hsw' : ((s.turnPort k d).markTurned k).phSwitching n = true := by
    unfold State.phSwitching State.phSt State.fld
    rw [hregs]
    unfold State.phSwitching at hsw
    rwa [← hport.phSt n] at hsw
  rw [s.turn_eq h, State.syncPort_ph]
  exact State.restartPhases_restarts _ hon' hsw'

theorem turn_clause {d : Dir} (h : s.dir k ≠ d) (hexec : execDirectionChange k d s = .next (s.turn k d)) :
    Gives (.directionChange k d) s (fun t => t.dir k = d ∧ t.on (PHP_EVT_DIRCHG k) = true ∧
      (∀ n : Fin 16, s.phOn k n = true → s.phSwitching n = true → t.ph[n].susp = 17 ∧ t.ph[n].onTime = false)) :=
  ⟨_, hexec, s.dir_turn k d, s.turn_dirchg h, fun _ hon hsw => State.turn_restarts h hon hsw⟩
end

end Sys2Proof.Machine

open Sys2Proof Sys2Proof.Machine

/-- Settles O14: each command writes the status of its port or the state of its phase, and what follows on the port leaves these; PHASE_ADD
looks at nothing that a change of direction writes. -/
theorem portModesAndPhaseCount : Obligations.PortModesAndPhaseCount := by
  unfold Obligations.PortModesAndPhaseCount
  refine ⟨?_, ?_, ?_, ?_, ?_, ?_, ?_, ?_, ?_⟩
  · exact fun k s hdir hdwell => modeEvaluate_clause hdir hdwell
  · exact fun k s hrole hdir => turn_clause hdir (execDirectionChange_allowed (.inl ⟨hrole, rfl⟩))
  · exact fun k s hrole hdir => turn_clause hdir (execDirectionChange_allowed (.inr ⟨hrole, rfl⟩))
  · exact fun n k s hphok hrun hstop hnow hup hcool => phaseAdd_clause hphok hrun hstop hnow hup hcool
  · exact fun n k s hcap hadd hhot => phaseShed_sheds (.inl hcap) hadd hhot
  · intro n k s hrole hmore hhot
    exact phaseShed_sheds (.inr (State.shedCond_drizzle hrole hmore)) ((State.addWant_drizzle hrole).trans hmore.le) hhot
  · intro n k s hrole hcmd hall hmap hzero hmin hlen hmean hadd hhot
    exact phaseShed_sheds (.inr (State.shedCond_map hrole hcmd hall hmap hzero hmin hlen hmean)) hadd hhot
  · exact fun n k s hport hst => phaseWakeDone_clause hport hst
  · exact fun n s hst => phaseShedDone_clause hst
end

section
/-! PROOF. A CHARGE_COMMAND_UPDATE that pauses port 1, in a Sounding run from REST: its role and its claim end there, after both ports'
power was shared out (R153, R170, R173). -/

namespace Sys2Proof.Machine

/-- A profile of a pack of 100 Ah: 1,000 in its words CAP and ICC, the rest 0. -/
def profile100Ah : Profile := BitVec.ofNat 2816 (1000 * 2 ^ (8 * 0x08) + 1000 * 2 ^ (8 * 0x1E))

/-- A port that claims power in role CHARGE, 40 W yielded to it, its pack at 50 V. -/
def claiming (k : Fin 2) (g : Stage) (s : State) : State :=
  let s := ((s.setFld (CHG_STAT_ROLE k) Role.charge.code).setFld (CHG_STAT_STAGE k) g.code).setFld (PK_LIM_ICHG k) 1000
  (s.modChg k (fun c => { c with prof := some profile100Ah, pyield := 40, vpack := 50 })).modPhp k (fun p => { p with vpack := 50 })

/-- Both ports in CHARGE, 20 W over the feed limit: port 0 in CC, port 1 in REST in a Sounding run of 5 A, its claim answered. -/
def pauseDue : State :=
  let s := claiming 1 .rest (claiming 0 .cc State.reset)
  let s := s.modChg 1 (fun c => { c with claim := 2, snd := some ⟨0, 0, 5, true, false, false, 0, LockIn.zero⟩ })
  { s with chgg := { s.chgg with pfl := 20 }, phg := { s.phg with vbus := 54 } }

/-- Is the power allowed to port 0 its part of what the two claims and the feed limit give, after a CHARGE_COMMAND_UPDATE? -/
def allowedIsShare (s : State) : Option Bool :=
  match execChargeCommandUpdate s with
  | .next t => some (decide (t.chg[(0 : Fin 2)].allowed = divR (max 0 (t.pchgy - t.chgg.pfl) * t.pchgyOf 0) t.pchgy))
  | _ => none

theorem allowedIsShare_of_next {s t : State} (h : execChargeCommandUpdate s = .next t) : allowedIsShare s =
    some (decide (t.chg[(0 : Fin 2)].allowed = divR (max 0 (t.pchgy - t.chgg.pfl) * t.pchgyOf 0) t.pchgy)) := by
  simp only [allowedIsShare, h]

theorem pauseDue_allowedIsShare : allowedIsShare pauseDue = some false := by decide +kernel

end Sys2Proof.Machine

open Sys2Proof Sys2Proof.Machine

/-- Refutes O17: its second clause says, of the state after the update, that a port's allowed power is its part of what the claims and the
feed limit give. Each port has 40 W and the feed limit takes 20 W of the 80 W, so port 0 is allowed 30 W. The pause of port 1 then ends
its Sounding run from REST and with it its role and its claim: of the 40 W that stand after the update the share would be 20 W. -/
theorem not_feedLimitAndCommand : ¬ Obligations.FeedLimitAndCommand := by
  unfold Obligations.FeedLimitAndCommand
  intro h
  obtain ⟨-, hcommand, -⟩ := h
  obtain ⟨t, ht, -, -, hallowed, -⟩ := hcommand 0 profile100Ah pauseDue (by decide +kernel) (by decide +kernel) (by decide +kernel)
    (by decide +kernel)
  have hshare := pauseDue_allowedIsShare.symm.trans (allowedIsShare_of_next ht)
  exact absurd hallowed (of_decide_eq_false (Option.some.inj hshare).symm)
end

section
/-! PROOF. A CHG_FAULT_CLEAR of a port in hold-up: its write holds the inputs of the pack comparators against their thresholds (R319,
R343), an undervoltage found there ends the hold-up, and the port rests (R155, R179). -/

namespace Sys2Proof.Machine

/-- A profile of one cell with VCUT 3 V, the rest 0. -/
def profile3V : Profile := BitVec.ofNat 2816 (2 ^ (8 * 0x06) + 30000 * 2 ^ (8 * 0x18))

/-- A powered card in RUN, open to maintenance, port 0 in hold-up from FAULT, its pack CLOSED and seen at 2.9 V since its comparator was
last released. -/
def faultInHoldup : State :=
  let s := ((State.reset.setOn SYS_MAINT_MAINT true).setOn AUTH_PRES_OPEN true).setOn JNL_CFG_POLICY false
  let s := ((s.setFld SYS_STATE_MODE 1).setFld (CHG_STAT_STAGE 0) Stage.fault.code).setFld (CHG_STAT_ROLE 0) Role.holdup.code
  let s := ((s.setFld (PK_STAT_STATE 0) PkSt.closed.code).setOn (PK_STAT_DSGON 0) true).setFld (PK_HW_UVPCT 0) 100
  let s := (s.modChg 0 (fun c => { c with prof := some profile3V })).setFld (CMP_STAT_LOSTATE 26) 0
  let s := s.modCmp 26 (fun m => { m with x := some 29, settle := none })
  { s with sys := { s.sys with biasGood := true } }

theorem faultInHoldup_serves : faultInHoldup.serves .cp := ⟨by decide +kernel, by decide +kernel, by decide +kernel⟩

/-- The stage of port 0 after a CHG_FAULT_CLEAR of it with EN set. -/
def stageAfterClear (s : State) : Option Stage :=
  match execChgFaultClear 0 .cp 1 s with
  | .next t => some (t.stage 0)
  | _ => none

theorem stageAfterClear_of_next {s t : State} (h : execChgFaultClear 0 .cp 1 s = .next t) : stageAfterClear s = some (t.stage 0) := by
  simp only [stageAfterClear, h]

theorem faultInHoldup_stageAfterClear : stageAfterClear faultInHoldup = some .rest := by decide +kernel

end Sys2Proof.Machine

open Sys2Proof Sys2Proof.Machine

/-- Refutes O18: its clause on CHG_FAULT_CLEAR promises QUALIFY in any role. A port in hold-up whose pack stands below its undervoltage
threshold goes to QUALIFY, and the write's look at the comparators then takes it out of hold-up, to REST. -/
theorem not_chargeStagesAndPortEvents : ¬ Obligations.ChargeStagesAndPortEvents := by
  unfold Obligations.ChargeStagesAndPortEvents
  intro h
  obtain ⟨-, -, -, -, -, -, -, -, -, -, -, -, -, -, hclear, -⟩ := h
  obtain ⟨t, ht, hstage⟩ := hclear 0 .cp 1 faultInHoldup faultInHoldup_serves (by decide +kernel) (by decide +kernel)
    (by decide +kernel) (by decide +kernel) (by decide +kernel) (by decide)
  have hrest := faultInHoldup_stageAfterClear.symm.trans (stageAfterClear_of_next ht)
  exact absurd (Option.some.inj hrest) (by rw [hstage]; decide)
end

section
/-! PROOF. What the pack commands read of a port, and the rules of the operations that change it (R192, R196). -/

namespace Sys2Proof.Machine

/-! ### A pack port -/

/-- What the protection of a pack port goes by: its state, its two gates, what is hidden of it, and the time. -/
structure PackPort where
  st : PkSt
  chg : Bool
  dsg : Bool
  hid : PkH
  now : BitVec 56

def State.packPort (s : State) (k : Fin 2) : PackPort := ⟨s.pkSt k, s.on (PK_STAT_CHGON k), s.on (PK_STAT_DSGON k), s.pk[k], s.devtime⟩

/-- The places beside those of a pack port and the time. -/
abbrev BesidePort (k : Fin 2) (l : Place) : Prop := l ≠ .reg (PK_STAT k) ∧ l ≠ .pk k ∧ l ≠ .devtime

/-- The places beside the flags of a pack port and the collector's inputs. -/
abbrev BesideReport (k : Fin 2) (l : Place) : Prop := l ≠ .reg (PK_EVT k) ∧ l ≠ .flt

/-- The footprints of the steps of a trip that are about other things than the port's gates. -/
structure TripOps (P : Place → Prop) (k : Fin 2) : Prop where
  leaveHoldup : FP.leaveHoldup P k
  gustLoss : FP.gustLoss P k
  elig : P (.reg (CHG_STAT k))
  sense : FP.cmpRow P (24 + k)
  volt : FP.cmpRow P (26 + k)
  jnl : P .jnl

/-- The footprints of the steps that are about the gates. -/
structure GateOps (P : Place → Prop) (k : Fin 2) : Prop where
  gates : FP.setGates P k
  stat : P (.reg (PK_STAT k))
  pk : P (.pk k)

theorem tripOps_besidePort (k : Fin 2) : TripOps (BesidePort k) k := by
  constructor
  all_goals
    repeat' first
      | decide +revert
      | apply And.intro
      | intro _

theorem tripOps_besideReport (k : Fin 2) : TripOps (BesideReport k) k := by
  constructor
  all_goals
    repeat' first
      | decide +revert
      | apply And.intro
      | intro _

theorem gateOps_besideReport (k : Fin 2) : GateOps (BesideReport k) k := by
  constructor
  all_goals
    repeat' first
      | decide +revert
      | apply And.intro

theorem packEvt_not_lineOut (k : Fin 2) : PK_EVT k ∉ lineOut ∧ PK_STAT k ∉ lineOut ∧ PK_STAT k ≠ PK_EVT k := by decide +revert

theorem packFlag_besidePort (k : Fin 2) : FP.packFlag (BesidePort k) (PK_EVT k) := by
  repeat' first
    | decide +revert
    | apply And.intro

theorem coulStat_besidePort (k : Fin 2) : BesidePort k (.reg (COUL_STAT k)) := by decide +revert

theorem PkSt.ofCode_code (st : PkSt) : PkSt.ofCode (st.code % 2 ^ 4) = st := by cases st <;> rfl

section
variable (s : State) (k : Fin 2)

theorem OnlyAt.packPort {s t : State} {k : Fin 2} (h : OnlyAt (BesidePort k) s t) : t.packPort k = s.packPort k := by
  have hw : t.word (PK_STAT k) = s.word (PK_STAT k) := h.word (by simp)
  have hpk : t.pk[k] = s.pk[k] := h (.pk k) (by simp)
  have hst : t.pkSt k = s.pkSt k := congrArg PkSt.ofCode (State.fld_of_word hw)
  have hchg : t.on (PK_STAT_CHGON k) = s.on (PK_STAT_CHGON k) := State.on_of_word hw
  have hdsg : t.on (PK_STAT_DSGON k) = s.on (PK_STAT_DSGON k) := State.on_of_word hw
  have htime : t.devtime = s.devtime := h .devtime (by simp)
  simp only [State.packPort, hst, hpk, hchg, hdsg, htime]

theorem State.packPort_syncPack : (s.syncPack k).packPort k = s.packPort k := by
  have hfld {f : Fld} (hf : f.Fits) (hoff : f.off = PK_STAT k) (hbits : 20 ≤ f.lo ∧ f.hi < 24 ∨ 27 < f.lo) :
      (s.syncPack k).fld f = s.fld f := s.syncPack_fld k hf hoff hbits
  simp only [State.packPort, State.pkSt, State.on, State.syncPack_pk]
  rw [hfld (by simp) rfl (by simp), hfld (by simp) rfl (by simp), hfld (by simp) rfl (by simp)]
  rfl

theorem State.packPort_modPk (f : PkH → PkH) : (s.modPk k f).packPort k = { s.packPort k with hid := f s.pk[k] } := by
  simp only [State.packPort, State.modPk_same]
  rfl

theorem State.packPort_setPk (st : PkSt) : (s.setPk k st).packPort k = { s.packPort k with st := st } := by
  have hst : (s.setPk k st).pkSt k = st := by
    unfold State.pkSt State.setPk
    rw [State.fld_setFld_same _ _ _ (by simp) (by simp)]
    exact PkSt.ofCode_code st
  have hon {g : Fld} (hg : g.Fits) (hb : g.hi < 28) : (s.setPk k st).on g = s.on g :=
    s.on_setFld_ne _ (by simp) hg (.inr (.inl hb))
  simp only [State.packPort, hst]
  rw [hon (by simp) (by simp), hon (by simp) (by simp)]
  rfl

theorem State.packPort_setGates (chg dsg : Bool) :
    (s.setGates k chg dsg).packPort k = { s.packPort k with chg := chg, dsg := dsg } := by
  have hofs : (s.setOn (COUL_STAT_OFSRUN k) false).packPort k = s.packPort k :=
    (State.setOn_only (.refl (BesidePort k) s) _ false (coulStat_besidePort k)).packPort
  have hset (t : State) : ((t.setOn (PK_STAT_CHGON k) chg).setOn (PK_STAT_DSGON k) dsg).packPort k =
      { t.packPort k with chg := chg, dsg := dsg } := by
    set u := t.setOn (PK_STAT_CHGON k) chg with hu
    have hchg : (u.setOn (PK_STAT_DSGON k) dsg).on (PK_STAT_CHGON k) = chg :=
      (u.on_setFld_ne _ (by simp) (by simp) (.inr (.inr (by simp)))).trans (t.on_setOn_same chg (by simp))
    have hdsg : (u.setOn (PK_STAT_DSGON k) dsg).on (PK_STAT_DSGON k) = dsg := u.on_setOn_same dsg (by simp)
    have hst : (u.setOn (PK_STAT_DSGON k) dsg).pkSt k = t.pkSt k :=
      congrArg PkSt.ofCode ((u.fld_setFld_ne _ (by simp) (by simp) (.inr (.inr (by simp)))).trans
        (t.fld_setFld_ne _ (by simp) (by simp) (.inr (.inr (by simp)))))
    simp only [State.packPort, hchg, hdsg, hst]
    rfl
  unfold State.setGates
  extract_lets u
  rw [State.packPort_syncPack, hset]
  have hu : u.packPort k = s.packPort k := by
    unfold u
    split
    · exact hofs
    · rfl
  rw [hu]

theorem State.packPort_packFlag (told : Bool) (f : Fld) (hf : f.off = PK_EVT k) (src : Fin 64) :
    (s.packFlag k told f src).packPort k = s.packPort k :=
  (State.packFlag_only (.refl (BesidePort k) s) k told f src (hf ▸ packFlag_besidePort k)).packPort

end
end Sys2Proof.Machine
end

section
/-! PROOF. The reports of a pack port, and a trip: what each leaves (R192, R196). -/

namespace Sys2Proof.Machine

/-! ### The reports of a port -/

/-- The flags of a pack port are as they were, and no event has left the collector's inputs. -/
structure Noted (k : Fin 2) (s t : State) : Prop where
  evt : t.word (PK_EVT k) = s.word (PK_EVT k)
  lines : ∀ e ∈ s.flt.lines, e ∈ t.flt.lines

/-- A flag of a pack port stands and its fault is raised. -/
structure Reported (k : Fin 2) (f : Fld) (src : Fin 64) (t : State) : Prop where
  flag : t.on f = true
  raised : Raised t src k.val

theorem Noted.refl (k : Fin 2) (s : State) : Noted k s s := ⟨rfl, fun _ h => h⟩

theorem Noted.trans {k : Fin 2} {s t u : State} (h : Noted k s t) (h' : Noted k t u) : Noted k s u :=
  ⟨h'.evt.trans h.evt, fun e he => h'.lines e (h.lines e he)⟩

theorem OnlyAt.noted {k : Fin 2} {s t : State} (h : OnlyAt (BesideReport k) s t) : Noted k s t :=
  ⟨h.word (by simp), fun e he => (h.flt (by simp)).symm ▸ he⟩

theorem Noted.reported {k : Fin 2} {f : Fld} (hf : f.off = PK_EVT k) {src : Fin 64} {s t : State} (h : Noted k s t)
    (hs : Reported k f src s) : Reported k f src t :=
  ⟨(State.on_of_word (hf ▸ h.evt)).trans hs.flag, h.lines _ hs.raised⟩

section
variable (s : State) (k : Fin 2)

theorem State.fault_noted (src : Fin 64) (addr : Nat) : Noted k s (s.fault src addr) :=
  ⟨rfl, fun _ he => List.mem_append_left _ he⟩

theorem State.packFlag_reported {i : Nat} (hi : i < 32) (src : Fin 64) :
    Reported k ⟨PK_EVT k, i, i⟩ src (s.packFlag k true ⟨PK_EVT k, i, i⟩ src) :=
  ⟨s.on_evt_same (packEvt_not_lineOut k).1 hi, fault_raised _ src k.val⟩

theorem State.cmpRow_noted {c : Nat} (upper : Bool) (w : Nat) (hc : c = 24 + k ∨ c = 26 + k) : Noted k s (s.cmpRow c upper w).2 := by
  have hops := tripOps_besideReport k
  obtain rfl | rfl := hc
  · exact (State.cmpRow_only (.refl _ s) _ upper w hops.sense).noted
  · exact (State.cmpRow_only (.refl _ s) _ upper w hops.volt).noted

theorem State.cmpRow_packPort {c : Nat} (upper : Bool) (w : Nat) (hc : c = 24 + k ∨ c = 26 + k) :
    (s.cmpRow c upper w).2.packPort k = s.packPort k := by
  have hops := tripOps_besidePort k
  obtain rfl | rfl := hc
  · exact (State.cmpRow_only (.refl _ s) _ upper w hops.sense).packPort
  · exact (State.cmpRow_only (.refl _ s) _ upper w hops.volt).packPort

/-! ### A trip -/

theorem State.leaveHoldup_packPort : (s.leaveHoldup k).packPort k = s.packPort k :=
  (State.leaveHoldup_only (.refl _ s) k (tripOps_besidePort k).leaveHoldup).packPort

theorem State.leaveHoldup_noted : Noted k s (s.leaveHoldup k) :=
  (State.leaveHoldup_only (.refl _ s) k (tripOps_besideReport k).leaveHoldup).noted

theorem State.leaveHoldup_role_ne : (s.leaveHoldup k).role k ≠ .holdup := by
  by_cases h : s.role k = .holdup
  · simp [s.leaveHoldup_role k h]
  · rwa [State.leaveHoldup, if_pos h]

/-- The end of a trip: what a port lost it tells Gust, and its eligibility follows. -/
theorem State.gustLossElig_packPort : ((s.gustLoss k).syncElig k).packPort k = s.packPort k := by
  have hops := tripOps_besidePort k
  exact (State.syncElig_only (State.gustLoss_only (.refl _ s) k hops.gustLoss) k hops.elig).packPort

theorem State.gustLossElig_noted : Noted k s ((s.gustLoss k).syncElig k) := by
  have hops := tripOps_besideReport k
  exact (State.syncElig_only (State.gustLoss_only (.refl _ s) k hops.gustLoss) k hops.elig).noted

theorem State.gustLossElig_role : ((s.gustLoss k).syncElig k).role k = s.role k :=
  ((s.gustLoss_shareHold k).trans k (State.syncElig_shareHold _ k)).role

theorem State.setGates_noted (chg dsg : Bool) : Noted k s (s.setGates k chg dsg) :=
  (State.setGates_only (.refl _ s) k chg dsg (gateOps_besideReport k).gates).noted

theorem State.setPk_noted (st : PkSt) : Noted k s (s.setPk k st) :=
  (State.setPk_only (.refl _ s) k st (gateOps_besideReport k).stat).noted

theorem State.setPk_role (st : PkSt) : (s.setPk k st).role k = s.role k :=
  s.role_setFld_ne k _ (by simp) (.inl (chgStat_ne_loop k).2.2)

theorem coulStat_besideRole (k : Fin 2) : COUL_STAT k ≠ CHG_STAT k := by decide +revert

theorem State.setGates_role (chg dsg : Bool) : (s.setGates k chg dsg).role k = s.role k := by
  obtain ⟨-, -, hne⟩ := chgStat_ne_loop k
  have hofs : (s.setOn (COUL_STAT_OFSRUN k) false).role k = s.role k :=
    s.role_setFld_ne k _ (by simp) (.inl (coulStat_besideRole k))
  unfold State.setGates
  extract_lets u
  have hu : u.role k = s.role k := by
    unfold u
    split
    · exact hofs
    · rfl
  exact (State.syncPack_shareHold _ k).role.trans
    ((State.role_setFld_ne _ k _ (by simp) (.inl hne)).trans ((u.role_setFld_ne k _ (by simp) (.inl hne)).trans hu))

/-- What a trip notes of its port. -/
def PkH.tripped (p : PkH) (x : PkTrip) (now : BitVec 56) : PkH := { p with trip := x, tripAt := now, probing := false, reopened := false }

section
variable {s k} (h : s.pkSt k ≠ .closing) (x : PkTrip) (chg dsg : Bool)
include h

/-- The steps of a trip outside CLOSING. -/
theorem State.tripPort_eq : s.tripPort k x chg dsg =
    ((((s.modPk k (·.tripped x s.devtime)).setPk k .tripped).setGates k chg dsg).gustLoss k).syncElig k := if_neg h

theorem State.tripPort_packPort : (s.tripPort k x chg dsg).packPort k = 
      ⟨.tripped, chg, dsg, s.pk[k].tripped x s.devtime, s.devtime⟩ := by
  rw [State.tripPort_eq h, State.gustLossElig_packPort, State.packPort_setGates, State.packPort_setPk, State.packPort_modPk]
  rfl

theorem State.tripPort_noted : Noted k s (s.tripPort k x chg dsg) := by
  rw [State.tripPort_eq h]
  have hmod : Noted k s (s.modPk k (·.tripped x s.devtime)) :=
    (State.modPk_only (.refl _ s) k _ (gateOps_besideReport k).pk).noted
  exact ((hmod.trans (State.setPk_noted _ k _)).trans (State.setGates_noted _ k _ _)).trans (State.gustLossElig_noted _ k)

theorem State.tripPort_role : (s.tripPort k x chg dsg).role k = s.role k := by
  rw [State.tripPort_eq h, State.gustLossElig_role, State.setGates_role, State.setPk_role]
  rfl
end
end
end Sys2Proof.Machine
end

section
/-! PROOF. Short circuit, over-current, voltage and temperature of a pack port, and the retries (R179, R194, R196, R326). -/

namespace Sys2Proof.Machine
section
variable {s : State} {k : Fin 2}

/-! ### The reports that reach a port -/

theorem State.cmpRow_fst {c : Nat} {upper : Bool} {w : Nat} :
    (s.cmpRow c upper w).1 = (!s.cmpHeld c upper && s.heard c w) := by
  unfold State.cmpRow
  cases s.cmpHeld c upper <;> cases s.heard c w <;> rfl

/-- A report of a port's comparator that is neither held nor filtered. -/
theorem State.cmpRow_heard {c : Nat} {upper : Bool} {w : Nat} (hheld : s.cmpHeld c upper = false) (hw : s.heard c w = true) :
    (s.cmpRow c upper w).1 = true := by rw [State.cmpRow_fst, hheld, hw]; rfl

theorem pkSt_of_packPort {t : State} (h : t.packPort k = s.packPort k) : t.pkSt k = s.pkSt k := congrArg PackPort.st h

/-! ### Short circuit -/

/-- The short circuits of the last 10 s (R196). -/
def State.recentShorts (s : State) (k : Fin 2) : List (BitVec 56) :=
  s.pk[k].scAt.filter (fun x => decide ((s.devtime - x).toNat < 1000000000))

theorem recentShorts_of_packPort {t : State} (h : t.packPort k = s.packPort k) : t.recentShorts k = s.recentShorts k := by
  have hhid : t.pk[k] = s.pk[k] := congrArg PackPort.hid h
  have hnow : t.devtime = s.devtime := congrArg PackPort.now h
  rw [State.recentShorts, State.recentShorts, hhid, hnow]

/-- A short circuit of a CLOSED port opens both gates; the third in 10 s latches it. -/
theorem State.packShort_closed (h : s.pkSt k = .closed) (told : Bool) :
    (s.packShort k told).pkSt k = (if 2 ≤ (s.recentShorts k).length then .latched else .tripped) ∧
      (s.packShort k told).on (PK_STAT_CHGON k) = false ∧ (s.packShort k told).on (PK_STAT_DSGON k) = false ∧
      Noted k (s.packFlag k told (PK_EVT_SC k) srcPACK_SC) (s.packShort k told) := by
  have hguard : ¬ (!s.guarded k && !s.failedNow k) = true := by simp [State.guarded, h]
  unfold State.packShort
  rw [if_neg hguard]
  extract_lets u recent v w
  have hu : u.packPort k = s.packPort k := s.packPort_packFlag k told _ rfl _
  have hlen : recent.length = (s.recentShorts k).length + 1 := by
    rw [← recentShorts_of_packPort hu]
    exact List.length_append
  set x := u.modPk k (fun p => { p with scAt := recent }) with hx
  have hvx : v.packPort k = x.packPort k := x.leaveHoldup_packPort k
  have hxport : x.packPort k = { u.packPort k with hid := { u.pk[k] with scAt := recent } } := u.packPort_modPk k _
  have hv : v.pkSt k = .closed := (congrArg PackPort.st (hvx.trans hxport)).trans ((pkSt_of_packPort hu).trans h)
  have hnow : ¬ v.failedNow k = true := by simp [State.failedNow, hv]
  have hw : w = v.tripPort k .sc false false := if_neg hnow
  have hne : v.pkSt k ≠ .closing := by simp [hv]
  have hport : w.packPort k = ⟨.tripped, false, false, v.pk[k].tripped .sc v.devtime, v.devtime⟩ :=
    hw ▸ State.tripPort_packPort hne .sc false false
  have hnoted : Noted k u w := by
    have hux : Noted k u x := (State.modPk_only (.refl _ u) k _ (gateOps_besideReport k).pk).noted
    exact (hux.trans (x.leaveHoldup_noted k)).trans (hw ▸ State.tripPort_noted hne .sc false false)
  by_cases hthird : 2 ≤ (s.recentShorts k).length
  · rw [if_pos (by omega), if_pos hthird]
    set y := (w.setPk k .latched).fault srcPACK_LATCHED k.val with hy
    have hyport : (y.syncPack k).packPort k = { w.packPort k with st := .latched } :=
      (y.packPort_syncPack k).trans (w.packPort_setPk k .latched)
    rw [hport] at hyport
    have hy : Noted k w (y.syncPack k) := ((w.setPk_noted k .latched).trans (State.fault_noted _ k _ _)).trans
      (State.syncPack_only (.refl _ y) k (gateOps_besideReport k).gates.2.1).noted
    exact ⟨congrArg PackPort.st hyport, congrArg PackPort.chg hyport, congrArg PackPort.dsg hyport, hnoted.trans hy⟩
  · rw [if_neg (by omega), if_neg hthird]
    exact ⟨congrArg PackPort.st hport, congrArg PackPort.chg hport, congrArg PackPort.dsg hport, hnoted⟩

theorem packShortCircuit_clause {w : Nat} (h : s.pkSt k = .closed) (hheld : s.cmpHeld (24 + k) false = false)
    (hw : s.heard (24 + k) w = true) : Gives (.packShortCircuit k w) s (fun t =>
      t.pkSt k = (if 2 ≤ (s.recentShorts k).length then .latched else .tripped) ∧ t.on (PK_STAT_CHGON k) = false ∧
      t.on (PK_STAT_DSGON k) = false ∧ t.on (PK_EVT_SC k) = true ∧ Raised t srcPACK_SC k.val) := by
  have hrow : (s.cmpRow (24 + k) false w).2.packPort k = s.packPort k := s.cmpRow_packPort k false w (.inl rfl)
  have htold : (s.cmpRow (24 + k) false w).1 = true := State.cmpRow_heard hheld hw
  set u := (s.cmpRow (24 + k) false w).2 with hu
  obtain ⟨hst, hchg, hdsg, hnoted⟩ := State.packShort_closed ((pkSt_of_packPort hrow).trans h) true
  rw [recentShorts_of_packPort hrow] at hst
  obtain ⟨hflag, hraised⟩ := hnoted.reported rfl (u.packFlag_reported k (by decide) srcPACK_SC)
  have hexec : execPackShortCircuit k w s = .next (u.packShort k true) := by
    rw [← htold]
    rfl
  exact ⟨_, hexec, hst, hchg, hdsg, hflag, hraised⟩

theorem packShortCircuit_filtered {w : Nat} (h : s.pkSt k = .closed) (hw : s.heard (24 + k) w = false) :
    Gives (.packShortCircuit k w) s (fun t => t.on (PK_STAT_CHGON k) = false ∧ t.on (PK_STAT_DSGON k) = false ∧
      t.on (PK_EVT_SC k) = s.on (PK_EVT_SC k)) := by
  have hrow : (s.cmpRow (24 + k) false w).2.packPort k = s.packPort k := s.cmpRow_packPort k false w (.inl rfl)
  have htold : (s.cmpRow (24 + k) false w).1 = false := by simp [State.cmpRow_fst, hw]
  have hevt : (s.cmpRow (24 + k) false w).2.word (PK_EVT k) = s.word (PK_EVT k) := (s.cmpRow_noted k false w (.inl rfl)).evt
  set u := (s.cmpRow (24 + k) false w).2 with hu
  obtain ⟨-, hchg, hdsg, hnoted⟩ := State.packShort_closed ((pkSt_of_packPort hrow).trans h) false
  have hexec : execPackShortCircuit k w s = .next (u.packShort k false) := by
    rw [← htold]
    rfl
  exact ⟨_, hexec, hchg, hdsg, State.on_of_word (hnoted.evt.trans hevt)⟩

/-! ### Over-current and voltage -/

theorem packChargeOvercurrent_clause {w : Nat} (h : s.pkSt k = .closed) (hheld : s.cmpHeld (24 + k) true = false)
    (hw : s.heard (24 + k) w = true) : Gives (.packChargeOvercurrent k w) s (fun t => t.pkSt k = .tripped ∧
      t.on (PK_STAT_CHGON k) = false ∧ t.on (PK_STAT_DSGON k) = s.on (PK_STAT_DSGON k) ∧ t.on (PK_EVT_OCC k) = true ∧
      Raised t srcPACK_OCC k.val) := by
  have hrow : (s.cmpRow (24 + k) true w).2.packPort k = s.packPort k := s.cmpRow_packPort k true w (.inl rfl)
  have htold : (s.cmpRow (24 + k) true w).1 = true := State.cmpRow_heard hheld hw
  set u := (s.cmpRow (24 + k) true w).2 with hu
  have hst : u.pkSt k = .closed := (pkSt_of_packPort hrow).trans h
  have hdsg : u.on (PK_STAT_DSGON k) = s.on (PK_STAT_DSGON k) := congrArg PackPort.dsg hrow
  set v := u.packFlag k true (PK_EVT_OCC k) srcPACK_OCC with hv
  have hocc : u.packOcc k true = v.tripPort k .occ false (u.on (PK_STAT_DSGON k)) := if_neg (by simp [State.guarded, hst])
  have hne : v.pkSt k ≠ .closing := by
    rw [pkSt_of_packPort (u.packPort_packFlag k true _ rfl _), hst]
    decide
  have hport := State.tripPort_packPort hne .occ false (u.on (PK_STAT_DSGON k))
  obtain ⟨hflag, hraised⟩ := (State.tripPort_noted hne .occ false (u.on (PK_STAT_DSGON k))).reported rfl
    (u.packFlag_reported k (by decide) srcPACK_OCC)
  have hexec : execPackChargeOvercurrent k w s = .next (v.tripPort k .occ false (u.on (PK_STAT_DSGON k))) := by
    rw [← hocc, ← htold]
    rfl
  exact ⟨_, hexec, congrArg PackPort.st hport, congrArg PackPort.chg hport, (congrArg PackPort.dsg hport).trans hdsg, hflag, hraised⟩

theorem packOv_clause {w : Nat} (h : s.pkSt k = .closed) (hheld : s.cmpHeld (26 + k) true = false)
    (hw : s.heard (26 + k) w = true) (hon : s.on (PK_STAT_CHGON k) = true) : Gives (.packOv k w) s (fun t => t.pkSt k = .closed ∧
      t.on (PK_STAT_CHGON k) = false ∧ t.on (PK_STAT_DSGON k) = s.on (PK_STAT_DSGON k) ∧ t.pk[k].ovOff = true ∧
      t.on (PK_EVT_OV k) = true ∧ Raised t srcPACK_OV k.val) := by
  have hrow : (s.cmpRow (26 + k) true w).2.packPort k = s.packPort k := s.cmpRow_packPort k true w (.inr rfl)
  have htold : (s.cmpRow (26 + k) true w).1 = true := State.cmpRow_heard hheld hw
  set u := (s.cmpRow (26 + k) true w).2 with hu
  set v := u.packFlag k true (PK_EVT_OV k) srcPACK_OV with hv
  have hvport : v.packPort k = s.packPort k := (u.packPort_packFlag k true _ rfl _).trans hrow
  have hust : u.pkSt k = .closed := (pkSt_of_packPort hrow).trans h
  have huon : u.on (PK_STAT_CHGON k) = true := (congrArg PackPort.chg hrow).trans hon
  have hst : v.pkSt k = .closed := (pkSt_of_packPort hvport).trans h
  set x := (v.modPk k (fun p => { p with ovOff := true })).setGates k false (v.on (PK_STAT_DSGON k)) with hx
  have hov : u.packOv k true = (x.gustLoss k).syncElig k := by
    have hshort : ¬ u.shortNow k = true := by simp [State.shortNow, State.failedNow, hust]
    have hguard : ¬ (!u.guarded k || !u.on (PK_STAT_CHGON k)) = true := by simp [State.guarded, hust, huon]
    have hclosing : ¬ v.pkSt k = .closing := by simp [hst]
    unfold State.packOv
    rw [if_neg hshort, if_neg hguard]
    exact if_neg hclosing
  have hport : ((x.gustLoss k).syncElig k).packPort k =
      { v.packPort k with hid := { v.pk[k] with ovOff := true }, chg := false, dsg := v.on (PK_STAT_DSGON k) } := by
    rw [State.gustLossElig_packPort, State.packPort_setGates, State.packPort_modPk]
  have hnoted : Noted k v ((x.gustLoss k).syncElig k) :=
    ((State.modPk_only (.refl _ v) k _ (gateOps_besideReport k).pk).noted.trans (State.setGates_noted _ k _ _)).trans
      (State.gustLossElig_noted _ k)
  obtain ⟨hflag, hraised⟩ := hnoted.reported rfl (u.packFlag_reported k (by decide) srcPACK_OV)
  have hexec : execPackOv k w s = .next ((x.gustLoss k).syncElig k) := by
    rw [← hov, ← htold]
    exact congrArg Host.Outcome.next (if_neg (by simp [hheld]))
  exact ⟨_, hexec, (congrArg PackPort.st hport).trans hst, congrArg PackPort.chg hport,
    (congrArg PackPort.dsg hport).trans (congrArg PackPort.dsg hvport), congrArg (·.hid.ovOff) hport, hflag, hraised⟩

theorem packUv_clause {w : Nat} (h : s.pkSt k = .closed) (hheld : s.cmpHeld (26 + k) false = false)
    (hw : s.heard (26 + k) w = true) (hon : s.on (PK_STAT_DSGON k) = true) : Gives (.packUv k w) s (fun t => t.pkSt k = .closed ∧
      t.on (PK_STAT_DSGON k) = false ∧ t.on (PK_STAT_CHGON k) = s.on (PK_STAT_CHGON k) ∧ t.pk[k].uvOff = true ∧
      t.role k ≠ .holdup ∧ t.on (PK_EVT_UV k) = true ∧ Raised t srcPACK_UV k.val) := by
  have hrow : (s.cmpRow (26 + k) false w).2.packPort k = s.packPort k := s.cmpRow_packPort k false w (.inr rfl)
  have htold : (s.cmpRow (26 + k) false w).1 = true := State.cmpRow_heard hheld hw
  set u := (s.cmpRow (26 + k) false w).2 with hu
  set v := u.packFlag k true (PK_EVT_UV k) srcPACK_UV with hv
  have hvport : v.packPort k = s.packPort k := (u.packPort_packFlag k true _ rfl _).trans hrow
  have hust : u.pkSt k = .closed := (pkSt_of_packPort hrow).trans h
  have huon : u.on (PK_STAT_DSGON k) = true := (congrArg PackPort.dsg hrow).trans hon
  have hst : v.pkSt k = .closed := (pkSt_of_packPort hvport).trans h
  set x := (v.modPk k (fun p => { p with uvOff := true })).setGates k (v.on (PK_STAT_CHGON k)) false with hx
  have huv : u.packUv k true = ((x.leaveHoldup k).gustLoss k).syncElig k := by
    have hguard : ¬ (!(u.pkSt k == .closing || (u.guarded k && u.on (PK_STAT_DSGON k)))) = true := by simp [State.guarded, hust, huon]
    have hclosing : ¬ v.pkSt k = .closing := by simp [hst]
    unfold State.packUv
    rw [if_neg hguard]
    exact if_neg hclosing
  have hport : (((x.leaveHoldup k).gustLoss k).syncElig k).packPort k =
      { v.packPort k with hid := { v.pk[k] with uvOff := true }, chg := v.on (PK_STAT_CHGON k), dsg := false } := by
    rw [State.gustLossElig_packPort, State.leaveHoldup_packPort, State.packPort_setGates, State.packPort_modPk]
  have hnoted : Noted k v (((x.leaveHoldup k).gustLoss k).syncElig k) :=
    (((State.modPk_only (.refl _ v) k _ (gateOps_besideReport k).pk).noted.trans (State.setGates_noted _ k _ _)).trans
      (x.leaveHoldup_noted k)).trans (State.gustLossElig_noted _ k)
  obtain ⟨hflag, hraised⟩ := hnoted.reported rfl (u.packFlag_reported k (by decide) srcPACK_UV)
  have hrole : (((x.leaveHoldup k).gustLoss k).syncElig k).role k ≠ .holdup := by
    rw [State.gustLossElig_role]
    exact x.leaveHoldup_role_ne k
  have hexec : execPackUv k w s = .next (((x.leaveHoldup k).gustLoss k).syncElig k) := by
    rw [← huv, ← htold]
    exact congrArg Host.Outcome.next (if_neg (by simp [hheld]))
  exact ⟨_, hexec, (congrArg PackPort.st hport).trans hst, congrArg PackPort.dsg hport,
    (congrArg PackPort.chg hport).trans (congrArg PackPort.chg hvport), congrArg (·.hid.uvOff) hport, hrole, hflag, hraised⟩

/-! ### Over-temperature -/

theorem packOvertemp_clause (h : s.pkSt k = .closed) (hhot : 1000 ≤ s.pk[k].hotN) : Gives (.packOvertemp k) s (fun t =>
      t.pkSt k = .tripped ∧ t.on (PK_STAT_CHGON k) = false ∧ t.on (PK_STAT_DSGON k) = false ∧ t.pk[k].otOff = true ∧
      t.role k ≠ .holdup ∧ t.on (PK_EVT_OT k) = true ∧ Raised t srcPACK_OT k.val) := by
  set u := s.packFlag k true (PK_EVT_OT k) srcPACK_OT with hu
  set v := u.leaveHoldup k with hv
  set x := v.modPk k (fun p => { p with otOff := true }) with hx
  have hvport : v.packPort k = s.packPort k := (u.leaveHoldup_packPort k).trans (s.packPort_packFlag k true _ rfl _)
  have hst : v.pkSt k = .closed := (pkSt_of_packPort hvport).trans h
  have hne : x.pkSt k ≠ .closing := by
    have hxst : x.pkSt k = v.pkSt k := congrArg PackPort.st (v.packPort_modPk k _)
    simp [hxst, hst]
  have hport := State.tripPort_packPort hne .ot false false
  have hot : (x.tripPort k .ot false false).pk[k].otOff = true := by
    have hhid : (x.tripPort k .ot false false).pk[k] = x.pk[k].tripped .ot x.devtime := congrArg PackPort.hid hport
    rw [hhid, hx, State.modPk_same]
    rfl
  have hrole : (x.tripPort k .ot false false).role k ≠ .holdup := by
    rw [State.tripPort_role hne]
    exact u.leaveHoldup_role_ne k
  have hnoted : Noted k u (x.tripPort k .ot false false) :=
    ((u.leaveHoldup_noted k).trans (State.modPk_only (.refl _ v) k _ (gateOps_besideReport k).pk).noted).trans
      (State.tripPort_noted hne .ot false false)
  obtain ⟨hflag, hraised⟩ := hnoted.reported rfl (s.packFlag_reported k (by decide) srcPACK_OT)
  have hexec : execPackOvertemp k s = .next (x.tripPort k .ot false false) := by
    have hdue : ¬ (!(s.pkSt k == .closing || s.pkSt k == .closed || (s.pkSt k == .tripped && !s.pk[k].otOff)) ||
        decide (s.pk[k].hotN < 1000)) = true := by
      simp only [h]
      simpa using hhot
    have hclosing : ¬ v.pkSt k = .closing := by simp [hst]
    refine congrArg Host.Outcome.next ((if_neg hdue).trans ?_)
    exact if_neg hclosing
  exact ⟨_, hexec, congrArg PackPort.st hport, congrArg PackPort.chg hport, congrArg PackPort.dsg hport, hot, hrole, hflag, hraised⟩

/-! ### Retries -/

/-- The conditions of R196 for a trip's retry, but for its time. -/
structure Retries (s : State) (k : Fin 2) (x : PkTrip) : Prop where
  st : s.pkSt k = .tripped
  trip : s.pk[k].trip = x
  run : s.running = true
  pres : s.packIn k = true
  whole : s.pk[k].shorted = false

theorem Retries.due {x : PkTrip} (h : Retries s k x) :
    (s.pkSt k == .tripped && s.pk[k].trip == x && s.running && s.packIn k && !s.pk[k].shorted) = true := by
  obtain ⟨hst, htrip, hrun, hpres, hwhole⟩ := h
  rw [hst, htrip, hrun, hpres, hwhole]
  simp

theorem packTripRetry_timed {x : PkTrip} (hx : x = .sc ∨ x = .occ) (h : Retries s k x)
    (htime : 10000000 ≤ (s.devtime - s.pk[k].tripAt).toNat) : execPackTripRetry k x s = .next (s.tryClose k) := by
  have hdue := h.due
  obtain rfl | rfl := hx
  · exact congrArg Host.Outcome.next (if_pos (by rw [hdue]; simpa using htime))
  · exact congrArg Host.Outcome.next (if_pos (by rw [hdue]; simpa using htime))

theorem packTripRetry_cooled (h : Retries s k .ot) (hcool : 60000 ≤ s.pk[k].coolN) :
    execPackTripRetry k .ot s = .next (s.tryClose k) := by
  have hdue := h.due
  exact congrArg Host.Outcome.next (if_pos (by rw [hdue]; simpa using hcool))

/-- A soft close from 4.5 V on. -/
theorem State.tryClose_closing (hv : 9 / 2 ≤ s.pk[k].v) : (s.tryClose k).pkSt k = .closing ∧ (s.tryClose k).on (PK_STAT_CHGON k) = true ∧
    (s.tryClose k).pk[k].otOff = false := by
  have hlow : s.tryClose k = s.startClose k := if_neg (not_lt.mpr hv)
  have hport : (s.startClose k).packPort k = { s.packPort k with
      st := .closing, chg := true, dsg := false
      hid := { s.pk[k] with closeAt := none, probing := false, reopened := false, ovOff := false, uvOff := false, otOff := false } } := by
    unfold State.startClose
    rw [State.packPort_setGates, State.packPort_setPk, State.packPort_modPk]
  rw [hlow]
  exact ⟨congrArg PackPort.st hport, congrArg PackPort.chg hport, congrArg (·.hid.otOff) hport⟩

/-- A pack below 4.5 V is DEAD. -/
theorem State.tryClose_dead (hv : s.pk[k].v < 9 / 2) : (s.tryClose k).pkSt k = s.pkSt k ∧ (s.tryClose k).on (PK_EVT_DEAD k) = true := by
  obtain ⟨hline, hstat, hne⟩ := packEvt_not_lineOut k
  have hlow : s.tryClose k = s.evt (PK_EVT_DEAD k) := if_pos hv
  rw [hlow]
  exact ⟨congrArg PkSt.ofCode (State.fld_of_word (s.word_setFlags_ne _ hstat hne)), s.on_evt_same hline (by decide)⟩

theorem packTripRetry_ov (hov : s.pk[k].ovOff = true) (hbelow : 100000 ≤ s.pk[k].belowN) (h : s.pkSt k = .closed) :
    Gives (.packTripRetry k .ov) s (fun t => t.pk[k].ovOff = false ∧ t.on (PK_STAT_CHGON k) = true) := by
  set u := s.modPk k (fun p => { p with ovOff := false }) with hu
  have hst : u.pkSt k = .closed := h
  have hexec : execPackTripRetry k .ov s = .next ((u.setGates k true (u.on (PK_STAT_DSGON k))).syncElig k) := by
    refine congrArg Host.Outcome.next ((if_pos (by rw [hov]; simpa using hbelow)).trans ?_)
    show (u.setGates k (u.pkSt k == .closed) (u.on (PK_STAT_DSGON k))).syncElig k = _
    rw [hst]
    rfl
  have hport : ((u.setGates k true (u.on (PK_STAT_DSGON k))).syncElig k).packPort k =
      { u.packPort k with chg := true, dsg := u.on (PK_STAT_DSGON k) } :=
    (State.syncElig_only (.refl _ _) k (tripOps_besidePort k).elig).packPort.trans (u.packPort_setGates k _ _)
  have hoff : u.pk[k].ovOff = false := by rw [hu, State.modPk_same]
  exact ⟨_, hexec, (congrArg (·.hid.ovOff) hport).trans hoff, congrArg PackPort.chg hport⟩

theorem packTripRetry_uv (huv : s.pk[k].uvOff = true) (habove : 100000 ≤ s.pk[k].aboveN) (h : s.pkSt k = .closed)
    (hpre : s.stage k ≠ .precharge) :
    Gives (.packTripRetry k .uv) s (fun t => t.pk[k].uvOff = false ∧ t.on (PK_STAT_DSGON k) = true) := by
  set u := s.modPk k (fun p => { p with uvOff := false, reopened := s.pkSt k == .closed && s.stage k == .precharge }) with hu
  have hclose : (u.pkSt k == .closed && u.stage k != .precharge) = true := by
    have hst : u.pkSt k = .closed := h
    have hstage : u.stage k = s.stage k := rfl
    simp [hst, hstage, hpre]
  have hexec : execPackTripRetry k .uv s = .next ((u.setGates k (u.on (PK_STAT_CHGON k)) true).syncElig k) := by
    refine congrArg Host.Outcome.next ((if_pos (by rw [huv]; simpa [State.above1s] using habove)).trans ?_)
    show (u.setGates k (u.on (PK_STAT_CHGON k)) (u.pkSt k == .closed && u.stage k != .precharge)).syncElig k = _
    rw [hclose]
  have hport : ((u.setGates k (u.on (PK_STAT_CHGON k)) true).syncElig k).packPort k =
      { u.packPort k with chg := u.on (PK_STAT_CHGON k), dsg := true } :=
    (State.syncElig_only (.refl _ _) k (tripOps_besidePort k).elig).packPort.trans (u.packPort_setGates k _ _)
  have hoff : u.pk[k].uvOff = false := by rw [hu, State.modPk_same]
  exact ⟨_, hexec, (congrArg (·.hid.uvOff) hport).trans hoff, congrArg PackPort.dsg hport⟩
end
end Sys2Proof.Machine
end

section
/-! PROOF. A write to a register that has no way of its own, in the open presence window: it is accepted (R10, R33, R35, R420). -/

namespace Sys2Proof.Machine

/-- A register whose write the fabric judges and stores by the table's row alone, and after which nothing more begins. -/
structure PlainReg (off : Nat) : Prop where
  word : off / 4 * 4 = off
  notFlt : off < 0x0800 ∨ 0x1000 ≤ off
  notRing : ¬ (0x3000 ≤ off ∧ off < 0x3800)
  own : off ∉ [SYS_LC, SYS_RST, JNL_RDIDX, JNL_REL, PK_SHIP]

/-- What lets every write to the registers of a block through: SYS_MAINT, the presence window, no stall, and Anvil up where the block is
behind it. -/
structure Admits (s : State) (o : Origin) (off : Nat) : Prop where
  serves : s.serves o
  maint : s.on SYS_MAINT_MAINT = true
  present : s.present = true
  stalled : s.stalled = false
  anvil : onAnvil off = true → s.anvilAnswers = true

section
variable {s : State} {o : Origin} {off : Nat} (hp : PlainReg off)
include hp

theorem State.writeReason_plain (hs : Admits s o off) (row : RegRow) (old new v : Word) : s.writeReason o off row old new v = 0 := by
  have hship : off ≠ PK_SHIP := fun h => hp.own (by simp [h])
  have hinj : off ≠ FLT_INJ := by
    rintro rfl
    exact absurd hp.notFlt (by decide)
  simp [State.writeReason, hs.maint, hs.present, hs.stalled, hship, hinj]

theorem State.fabricWrite_accepted (hs : Admits s o off) {row : RegRow} (hrow : findReg regTable off = some row)
    (hwr : row.writable = true) (v : Word) : ∃ guarded, s.fabricWrite o off v =
      s.acceptWrite o off (s.settleWord off (s.word off) (row.after (s.word off) v)) v guarded := by
  have hcheck : s.checkWord off = s := s.checkWord_of_outside hp.notFlt
  have hup : (onAnvil off && !s.sys.anvilUp) = false := by
    cases h : onAnvil off with
    | false => rfl
    | true => simpa [State.anvilAnswers] using (Bool.and_eq_true_iff.mp (hs.anvil h)).1
  have hanswers : (onAnvil off && !s.anvilAnswers) = false := by
    cases h : onAnvil off with
    | false => rfl
    | true => simpa using hs.anvil h
  have hown := hp.own
  simp only [List.mem_cons, List.not_mem_nil, or_false, not_or] at hown
  obtain ⟨hlc, -, hidx, hrel, -⟩ := hown
  have hbusy (old new : Word) : s.ringBusy off old new = false := if_neg hp.notRing
  have hreason (old new : Word) : s.writeReason o off row old new v = 0 := State.writeReason_plain hp hs row old new v
  refine ⟨s.guardedWrite off row (s.word off) (s.settleWord off (s.word off) (row.after (s.word off) v)) v, ?_⟩
  rw [State.fabricWrite_of_serves hs.serves off v, hp.word]
  simp [State.serveWrite, hcheck, hup, hanswers, hrow, hwr, hlc, hidx, hrel, hbusy, hreason]

omit hp in
/-- A register is stored, its block acts on what stands then, and the comparators whose thresholds come from it are looked at. -/
theorem State.applyWord_stored {P : Place → Prop} (hreg : P (.reg off)) (hline : FP.lineRise P) (new v : Word) :
    ∃ u, OnlyAt P s u ∧ (off ∉ lineOut → u.word off = new) ∧ s.applyWord o off new v = (u.wrote s o off v).rethreshOf off := by
  have hset : OnlyAt P s (s.setWord off new) := State.setWord_only (.refl _ s) off new hreg
  have hword : (s.setWord off new).word off = new := (s.word_setWord off new off).trans (if_pos rfl)
  unfold State.applyWord
  cases lineOf off with
  | none => exact ⟨_, hset, fun _ => hword, rfl⟩
  | some src => exact ⟨_, lineRise_only hset src s hline, fun hout => (lineRise_word _ src s hout).trans hword, rfl⟩

/-- What the end of an accepted write adds to what its register did: the count of guarded writes and the record. -/
theorem State.acceptWrite_only (new v : Word) (guarded : Bool) :
    OnlyAt (fun l => l = .reg AUTH_CNT_GRANTED.off ∨ l = .jnl) (s.applyWord o off new v) (s.acceptWrite o off new v guarded) := by
  have hown := hp.own
  simp only [List.mem_cons, List.not_mem_nil, or_false, not_or] at hown
  obtain ⟨-, hrst, -, -, hship⟩ := hown
  have hafter (t : State) : t.after off v = t := by
    unfold State.after
    rw [if_neg hrst, if_neg hship]
  unfold State.acceptWrite
  extract_lets t u r
  rw [hafter]
  exact State.journal_only (OnlyAt.ite (State.count_only (.refl _ t) _ (.inl rfl)) (.refl _ t)) r (.inr rfl)

end
end Sys2Proof.Machine
end

section
/-! PROOF. PKn_CFG.CLR takes a LATCHED port to OPEN, and the look at its comparators that ends the write leaves it there (R192, R343). -/

namespace Sys2Proof.Machine

/-! ### An OPEN port whose comparators are looked at -/

/-- A port in OPEN in which no close has failed. -/
structure PackPort.Idle (p : PackPort) : Prop where
  st : p.st = .open
  closeAt : p.hid.closeAt = none

/-- The footprints of a comparator's outputs. -/
structure OutputOps (P : Place → Prop) (c : Fin 48) : Prop where
  assert : FP.cmpAssert P c
  stat : P (.reg (CMP_STAT c))
  swap : FP.trySwap P c

theorem outputOps_besidePort (k : Fin 2) (c : Fin 48) : OutputOps (BesidePort k) c := by
  constructor
  all_goals
    repeat' first
      | decide +revert
      | apply And.intro

section
variable {s : State} {k : Fin 2}

theorem State.guarded_idle (h : (s.packPort k).Idle) : s.guarded k = false ∧ s.failedNow k = false ∧ s.shortNow k = false := by
  obtain ⟨hst, hclose⟩ := h
  have hst' : s.pkSt k = .open := hst
  have hfail : s.failedNow k = false := by
    have hclose' : s.pk[k].closeAt = none := hclose
    rw [State.failedNow, hst', hclose']
    rfl
  exact ⟨by rw [State.guarded, hst']; rfl, hfail, by rw [State.shortNow, hst', hfail]; rfl⟩

/-- The input of a comparator moves: each output follows it or rises, and one that rises goes where it goes. -/
theorem State.cmpInput_steps (s : State) (c : Fin 48) (x : Int) : ∃ (nlo nhi : Nat) (rlo rhi : Bool), s.cmpInput c x =
    (let u := s.modCmp c (fun m => { m with x := some x })
     let v := if rlo then u.cmpAssert c false else u.setFld (CMP_STAT_LOSTATE c) nlo
     let w := if rhi then v.cmpAssert c true else v.setFld (CMP_STAT_HISTATE c) nhi
     let y := if rlo then w.cmpRoute c false else w
     let z := if rhi then y.cmpRoute c true else y
     if rlo || rhi then z else z.trySwap c) := ⟨_, _, _, _, rfl⟩

/-- A port that no trip can take leaves the outputs of its comparators without effect. -/
theorem State.cmpRoute_idle {c : Fin 48} (h : (s.packPort k).Idle) (hc : c = Fin.ofNat 48 (24 + k) ∨ c = Fin.ofNat 48 (26 + k))
    (upper : Bool) : s.cmpRoute c upper = s := by
  obtain ⟨hguard, hfail, hshort⟩ := State.guarded_idle h
  have hst : s.pkSt k = .open := h.st
  have hsc : s.packShort k true = s := if_pos (by simp [hguard, hfail])
  have hocc : s.packOcc k true = s := if_pos (by simp [hguard])
  have hov : s.packOv k true = s := (if_neg (by simp [hshort])).trans (if_pos (by simp [hguard]))
  have huv : s.packUv k true = s := if_pos (by simp [hguard, hst])
  have hk : k = 0 ∨ k = 1 := by omega
  obtain rfl | rfl := hk <;> obtain rfl | rfl := hc <;> cases upper <;> assumption

/-- What the outputs of a comparator and where they go keep, its input keeps as it moves. -/
theorem State.cmpInput_keeps_of {R : State → Prop} {P : Place → Prop} {c : Fin 48} (hops : OutputOps P c)
    (honly : ∀ t u, OnlyAt P t u → R t → R u) (hroute : ∀ t upper, R t → R (t.cmpRoute c upper)) (hs : R s) (x : Int) :
    R (s.cmpInput c x) := by
  obtain ⟨hassert, hstat, hswap⟩ := hops
  obtain ⟨nlo, nhi, rlo, rhi, heq⟩ := s.cmpInput_steps c x
  rw [heq]
  extract_lets u v w y z
  have hu : R u := honly s u (State.modCmp_only (.refl _ s) c _ hswap.1) hs
  have hv : R v := honly u v (OnlyAt.ite (State.cmpAssert_only (.refl _ u) c false hassert) (State.setFld_only (.refl _ u) _ _ hstat)) hu
  have hw : R w := honly v w (OnlyAt.ite (State.cmpAssert_only (.refl _ v) c true hassert) (State.setFld_only (.refl _ v) _ _ hstat)) hv
  have hy : R y := by
    unfold y
    split
    · exact hroute w false hw
    · exact hw
  have hz : R z := by
    unfold z
    split
    · exact hroute y true hy
    · exact hy
  exact honly z _ (OnlyAt.ite (.refl _ z) (State.trySwap_only (.refl _ z) c hswap)) hz

theorem State.rethresh_keeps_of {R : State → Prop} {P : Place → Prop} {c : Fin 48} (hops : OutputOps P c)
    (honly : ∀ t u, OnlyAt P t u → R t → R u) (hroute : ∀ t upper, R t → R (t.cmpRoute c upper)) (hs : R s) : R (s.rethresh c) := by
  unfold State.rethresh
  split
  · exact State.cmpInput_keeps_of hops honly hroute hs _
  · exact hs

theorem State.rethresh_idle {c : Fin 48} (h : (s.packPort k).Idle) (hc : c = Fin.ofNat 48 (24 + k) ∨ c = Fin.ofNat 48 (26 + k)) :
    (s.rethresh c).packPort k = s.packPort k := by
  refine State.rethresh_keeps_of (R := fun t => t.packPort k = s.packPort k) (outputOps_besidePort k c)
    (fun t u hu ht => hu.packPort.trans ht) (fun t upper ht => ?_) rfl
  rw [State.cmpRoute_idle (ht.symm ▸ h) hc upper, ht]

/-! ### PACK_LATCH_CLEAR -/

theorem packCfg_plain (k : Fin 2) : PlainReg (PK_CFG k) :=
  ⟨by decide +revert, by decide +revert, by decide +revert, by decide +revert⟩

theorem findReg_packCfg (k : Fin 2) : ∃ row, findReg regTable (PK_CFG k) = some row ∧ row.writable = true := by
  have hk : k = 0 ∨ k = 1 := by omega
  obtain rfl | rfl := hk <;> decide +kernel

theorem packCfg_besidePort (k : Fin 2) : BesidePort k (.reg (PK_CFG k)) ∧ FP.lineRise (BesidePort k) ∧
    BesidePort k (.reg AUTH_CNT_GRANTED.off) ∧ BesidePort k .jnl := by
  repeat' first
    | decide +revert
    | apply And.intro

theorem State.rethreshOf_packCfg : s.rethreshOf (PK_CFG k) =
    (s.rethresh (Fin.ofNat 48 (24 + k))).rethresh (Fin.ofNat 48 (26 + k)) := by
  have hk : k = 0 ∨ k = 1 := by omega
  obtain rfl | rfl := hk <;> rfl

theorem State.wrote_pack {p : State} {o : Origin} {off : Nat} {v : Word} (hlo : 0x6400 ≤ off) (hhi : off < 0x7000) :
    s.wrote p o off v = s.wrotePk p off v := by
  unfold State.wrote
  iterate 9 rw [if_neg (by omega)]
  exact if_pos hhi

theorem State.wrote_packCfg {p : State} {o : Origin} {v : Word} (hv : v.getLsbD 17 = true) :
    s.wrote p o (PK_CFG k) v = (s.clearLatch k).inForceChanged k (p.authInForce k) := by
  have hpk : s.wrotePk p (PK_CFG k) v = (if v.getLsbD 17 then s.clearLatch k else s).inForceChanged k (p.authInForce k) := by
    have hk : k = 0 ∨ k = 1 := by omega
    unfold State.wrotePk
    obtain rfl | rfl := hk
    · rw [if_neg (by decide), dif_pos (by decide)]
      exact if_pos (by decide)
    · rw [if_neg (by decide), dif_pos (by decide)]
      exact if_pos (by decide)
  have hhi : 0x6400 + 0x100 * k.val < 0x7000 := by omega
  rw [State.wrote_pack (Nat.le_add_right _ _) hhi, hpk, if_pos hv]

theorem State.clearLatch_packPort (h : s.pkSt k = .latched) :
    (s.clearLatch k).packPort k = { s.packPort k with st := .open, hid := { s.pk[k] with scAt := [], closeAt := none } } := by
  have hclear : s.clearLatch k = ((s.modPk k (fun p => { p with scAt := [], closeAt := none })).setPk k .open).syncPack k := if_pos h
  rw [hclear, State.packPort_syncPack, State.packPort_setPk, State.packPort_modPk]

theorem State.inForceChanged_packPort (old : AuthRes) : (s.inForceChanged k old).packPort k = s.packPort k := by
  have hops := tripOps_besidePort k
  unfold State.inForceChanged
  extract_lets new u
  have hu : OnlyAt (BesidePort k) s u := OnlyAt.ite (.refl _ s) (State.jevent_only (.refl _ s) _ _ _ _ _ _ hops.jnl)
  exact ((State.gustLoss_only (.refl _ _) k hops.gustLoss).packPort.trans (u.packPort_syncPack k)).trans hu.packPort

theorem packLatchClear_clause {o : Origin} {v : Word} (hs : Admits s o (PK_CFG k)) (h : s.pkSt k = .latched) :
    Gives (.packLatchClear k o v) s (fun t => t.pkSt k = .open ∧ t.pk[k].scAt = []) := by
  obtain ⟨row, hrow, hwr⟩ := findReg_packCfg k
  set x := (PK_CFG_CLR k).insert v 1 with hx
  have hbit : x.getLsbD 17 = true := by
    rw [hx, Fld.getLsbD_insert _ _ _ _ (by simp) (by simp) (by decide)]
    simp
  obtain ⟨guarded, haccept⟩ := State.fabricWrite_accepted (packCfg_plain k) hs hrow hwr x
  generalize s.settleWord (PK_CFG k) (s.word (PK_CFG k)) (row.after (s.word (PK_CFG k)) x) = new at haccept
  obtain ⟨hreg, hline, hcnt, hjnl⟩ := packCfg_besidePort k
  obtain ⟨u, hu, -, happly⟩ := State.applyWord_stored (s := s) (o := o) hreg hline new x
  rw [State.wrote_packCfg hbit, State.rethreshOf_packCfg] at happly
  set y := (u.clearLatch k).inForceChanged k (s.authInForce k) with hy
  have hyport := (State.inForceChanged_packPort (s.authInForce k)).trans (State.clearLatch_packPort ((pkSt_of_packPort hu.packPort).trans h))
  have hidle : (y.packPort k).Idle := by
    rw [hyport]
    exact ⟨rfl, rfl⟩
  have hfirst := State.rethresh_idle hidle (.inl rfl)
  have hboth := (State.rethresh_idle (hfirst.symm ▸ hidle) (.inr rfl)).trans hfirst
  have hend : OnlyAt (BesidePort k) (s.applyWord o (PK_CFG k) new x) (s.acceptWrite o (PK_CFG k) new x guarded) :=
    (State.acceptWrite_only (packCfg_plain k) new x guarded).mono (fun l hl => hl.elim (· ▸ hcnt) (· ▸ hjnl))
  have hport : (s.fabricWrite o (PK_CFG k) x).packPort k = y.packPort k := by
    rw [haccept, ← hboth, ← happly]
    exact hend.packPort
  rw [hyport] at hport
  exact ⟨_, rfl, congrArg PackPort.st hport, congrArg (·.hid.scAt) hport⟩

end
end Sys2Proof.Machine

open Sys2Proof Sys2Proof.Machine

/-- Settles O22: each command changes its port by the rules of its gates and its state, its flag and its fault come before, and what follows
a trip or a write leaves the port as it is. -/
theorem packTripsAndRetries : Obligations.PackTripsAndRetries := by
  unfold Obligations.PackTripsAndRetries
  refine ⟨fun k w s h hheld hw => packShortCircuit_clause h hheld hw, fun k w s h hw => packShortCircuit_filtered h hw,
    fun k w s h hheld hw => packChargeOvercurrent_clause h hheld hw, fun k w s h hheld hw hon => packOv_clause h hheld hw hon,
    fun k w s h hheld hw hon => packUv_clause h hheld hw hon, fun k s h hhot => packOvertemp_clause h hhot, ?_, ?_,
    fun k s hov hbelow h => packTripRetry_ov hov hbelow h, fun k s huv habove h hpre => packTripRetry_uv huv habove h hpre, ?_, ?_⟩
  · intro k x s hx hst htrip htime hrun hpres hwhole hv
    obtain ⟨hclosing, hchg, -⟩ := State.tryClose_closing hv
    exact ⟨_, packTripRetry_timed hx ⟨hst, htrip, hrun, hpres, hwhole⟩ htime, hclosing, hchg⟩
  · intro k x s hx hst htrip htime hrun hpres hwhole hv
    obtain ⟨hsame, hdead⟩ := State.tryClose_dead hv
    exact ⟨_, packTripRetry_timed hx ⟨hst, htrip, hrun, hpres, hwhole⟩ htime, hsame.trans hst, hdead⟩
  · intro k s hcool hst htrip hrun hpres hwhole hv
    obtain ⟨hclosing, -, hot⟩ := State.tryClose_closing hv
    exact ⟨_, packTripRetry_cooled ⟨hst, htrip, hrun, hpres, hwhole⟩ hcool, hclosing, hot⟩
  · intro k o v s hserves hmaint hpresent hstalled hanvil h
    exact packLatchClear_clause ⟨hserves, hmaint, hpresent, hstalled, fun _ => hanvil⟩ h
end

section
/-! PROOF. What the roles and the stages of the ports leave as it is: the profile in force, the profile reads and Sounding runs that are under
way, what a port reports of them, and the commands that the admin ring has started (R154, R164, R185, R277). -/

namespace Sys2Proof.Machine

/-! ### What stays -/

/-- CHG_PLOAD, and the words of both ports that give the result of a Sounding. -/
abbrev resultWords : List Nat := [CHG_PLOAD, CHG_ZRE 0, CHG_ZRE 1, CHG_ZINFO 0, CHG_ZINFO 1, CHG_ZFREQ 0, CHG_ZFREQ 1]

/-- The ports have the profiles, reads and runs they had, and report the same of them: the bits of CHGk_STAT from PROFOK down. -/
structure ChargeHold (s t : State) : Prop where
  prof : ∀ k : Fin 2, t.chg[k].prof = s.chg[k].prof
  load : ∀ k : Fin 2, t.chg[k].load = s.chg[k].load
  snd : ∀ k : Fin 2, t.chg[k].snd = s.chg[k].snd
  stat : ∀ (k : Fin 2) (f : Fld), f.off = CHG_STAT k → f.Fits → f.hi ≤ 20 → t.fld f = s.fld f
  words : ∀ o ∈ resultWords, t.word o = s.word o

/-- The admin ring holds what it held, and the same commands are lost. -/
structure RingHold (s t : State) : Prop where
  ring : t.ring[(0 : Fin 64)] = s.ring[(0 : Fin 64)]
  state : t.ringSt 0 = s.ringSt 0
  lost : t.hif.lost = s.hif.lost

structure Steady (s t : State) : Prop where
  charge : ChargeHold s t
  ring : RingHold s t

theorem ChargeHold.refl (s : State) : ChargeHold s s := ⟨fun _ => rfl, fun _ => rfl, fun _ => rfl, fun _ _ _ _ _ => rfl, fun _ _ => rfl⟩

theorem ChargeHold.trans {s t u : State} (h : ChargeHold s t) (h' : ChargeHold t u) : ChargeHold s u where
  prof k := (h'.prof k).trans (h.prof k)
  load k := (h'.load k).trans (h.load k)
  snd k := (h'.snd k).trans (h.snd k)
  stat k f hoff hf hhi := (h'.stat k f hoff hf hhi).trans (h.stat k f hoff hf hhi)
  words o ho := (h'.words o ho).trans (h.words o ho)

theorem RingHold.refl (s : State) : RingHold s s := ⟨rfl, rfl, rfl⟩

theorem RingHold.trans {s t u : State} (h : RingHold s t) (h' : RingHold t u) : RingHold s u :=
  ⟨h'.ring.trans h.ring, h'.state.trans h.state, h'.lost.trans h.lost⟩

theorem Steady.refl (s : State) : Steady s s := ⟨.refl s, .refl s⟩

theorem Steady.trans {s t u : State} (h : Steady s t) (h' : Steady t u) : Steady s u :=
  ⟨h.charge.trans h'.charge, h.ring.trans h'.ring⟩

theorem Steady.ite {s t u : State} {c : Prop} [Decidable c] (ht : Steady s t) (hu : Steady s u) : Steady s (if c then t else u) := by
  split <;> assumption

theorem Steady.each {α : Type} {s t : State} (h : Steady s t) (l : List α) (f : State → α → State)
    (hf : ∀ u, ∀ a ∈ l, Steady u (f u a)) : Steady s (t.each l f) :=
  State.each_keep h (fun u a ha hu => hu.trans (hf u a ha))

/-- The places beside what `ChargeHold` speaks of. -/
abbrev BesideCharge (l : Place) : Prop :=
  (∀ o ∈ resultWords, l ≠ .reg o) ∧ (∀ k : Fin 2, l ≠ .reg (CHG_STAT k)) ∧ ∀ k : Fin 2, l ≠ .chg k

/-- The places beside the admin ring and its state. -/
abbrev BesideAdmin (l : Place) : Prop := l ≠ .ring 0 ∧ l ≠ .reg (HIF_STAT 0)

/-- The places beside what `Steady` speaks of. -/
abbrev BesideSteady (l : Place) : Prop := BesideCharge l ∧ BesideAdmin l ∧ l ≠ .hif

theorem OnlyAt.chargeHold {s t : State} (h : OnlyAt BesideCharge s t) : ChargeHold s t := by
  have hchg (k : Fin 2) : t.chg[k] = s.chg[k] := h (.chg k) (fun hp => hp.2.2 k rfl)
  exact {
    prof := fun k => congrArg ChgH.prof (hchg k)
    load := fun k => congrArg ChgH.load (hchg k)
    snd := fun k => congrArg ChgH.snd (hchg k)
    stat := fun k f hoff _ _ => h.fld (fun hp => hp.2.1 k (by rw [hoff]))
    words := fun o ho => h.word (fun hp => hp.1 o ho rfl) }

theorem OnlyAt.ringHold {s t : State} (h : OnlyAt BesideAdmin s t) (hlost : t.hif.lost = s.hif.lost) : RingHold s t :=
  ⟨h (.ring 0) (by simp), h.fld (by simp), hlost⟩

theorem OnlyAt.steady {s t : State} (h : OnlyAt BesideSteady s t) : Steady s t :=
  ⟨(h.mono fun _ hp => hp.1).chargeHold,
    (h.mono fun _ hp => hp.2.1).ringHold (congrArg HifH.lost (h .hif (fun hp => hp.2.2 rfl)))⟩

/-! ### The single steps -/

section
variable (s : State)

theorem chgStat_besideSteady (k : Fin 2) : HIF_STAT 0 ≠ CHG_STAT k ∧ ∀ o ∈ resultWords, o ≠ CHG_STAT k := by decide +revert

theorem lineRise_lost (src : Nat) (a : State) : (lineRise src a s).hif.lost = s.hif.lost := by
  have hsend (t : State) (o : HostOut) : (t.send o).hif.lost = t.hif.lost := by
    unfold State.send
    split
    · rfl
    · split <;> rfl
  have hmsix (t : State) (v : Nat) : (t.msix v).hif.lost = t.hif.lost := by
    unfold State.msix
    split
    · split
      · rfl
      · split
        · rfl
        · exact hsend t _
    · rfl
  unfold lineRise
  split
  · extract_lets b
    split
    · exact hmsix b _
    · rfl
  · rfl

/-- A flag leaves the lost commands as they are. -/
theorem State.evt_lost (f : Fld) : (s.evt f).hif.lost = s.hif.lost := by
  unfold State.evt State.setFlags
  extract_lets t fresh u
  have hu : u.hif.lost = s.hif.lost := by
    unfold u
    split
    · split <;> rfl
    · rfl
  split
  · exact (lineRise_lost u _ s).trans hu
  · exact hu

end

theorem Steady.only {s₀ s t : State} (h : Steady s₀ s) (h' : OnlyAt BesideSteady s t) : Steady s₀ t := h.trans h'.steady

theorem Steady.evt {s₀ s : State} (h : Steady s₀ s) {f : Fld} (hf : FP.evt (fun l => BesideCharge l ∧ BesideAdmin l) f.off) :
    Steady s₀ (s.evt f) := by
  have honly : OnlyAt (fun l => BesideCharge l ∧ BesideAdmin l) s (s.evt f) := State.evt_only (.refl _ s) f hf
  exact h.trans ⟨(honly.mono fun _ hp => hp.1).chargeHold, (honly.mono fun _ hp => hp.2).ringHold (s.evt_lost f)⟩

/-- A field of CHGk_STAT above PROFOK. -/
theorem Steady.setStat {s₀ s : State} (h : Steady s₀ s) {k : Fin 2} {f : Fld} (v : Nat) (hoff : f.off = CHG_STAT k) (hf : f.Fits)
    (hlo : 20 < f.lo) : Steady s₀ (s.setFld f v) := by
  have honly : OnlyAt (· = .reg (CHG_STAT k)) s (s.setFld f v) := State.setFld_only (.refl _ s) f v (by rw [hoff])
  obtain ⟨hring, hwords⟩ := chgStat_besideSteady k
  exact h.trans {
    charge := {
      prof := fun _ => rfl
      load := fun _ => rfl
      snd := fun _ => rfl
      stat := fun j g hg hfits hhi => s.fld_setFld_ne v hf hfits (.inr (.inl (by omega)))
      words := fun o ho => honly.word (fun hp => hwords o ho (Place.reg.inj hp)) }
    ring := ⟨rfl, honly.fld (fun hp => hring (Place.reg.inj hp)), rfl⟩ }

/-- A change of what is hidden of a port's charging that leaves its profile, its reads and its run. -/
theorem Steady.modChg {s₀ s : State} (h : Steady s₀ s) (k : Fin 2) (f : ChgH → ChgH)
    (hf : ∀ c, (f c).prof = c.prof ∧ (f c).load = c.load ∧ (f c).snd = c.snd) : Steady s₀ (s.modChg k f) := by
  have hchg (j : Fin 2) : (s.modChg k f).chg[j].prof = s.chg[j].prof ∧ (s.modChg k f).chg[j].load = s.chg[j].load ∧
      (s.modChg k f).chg[j].snd = s.chg[j].snd := by
    by_cases e : k = j
    · subst e
      rw [State.modChg_same]
      exact hf _
    · rw [State.modChg_ne s f e]
      exact ⟨rfl, rfl, rfl⟩
  exact h.trans ⟨⟨fun j => (hchg j).1, fun j => (hchg j).2.1, fun j => (hchg j).2.2, fun _ _ _ _ _ => rfl, fun _ _ => rfl⟩, rfl, rfl, rfl⟩

end Sys2Proof.Machine
end

section
/-! PROOF. Roles, stages and reports of a port leave its profile, its reads, its run and the admin ring as they are (R154, R155, R164). -/

namespace Sys2Proof.Machine

/-! ### Roles, stages and reports -/

/-- The footprints of what follows a role or a stage, beside its port's charging. -/
structure SteadyOps (P : Place → Prop) (k : Fin 2) : Prop where
  cnt : P (.reg (CHG_CNT k))
  time : P (.reg (CHG_TIME k))
  pwr : P (.reg (CHG_PWR k))
  cur : P (.reg (CHG_CUR k))
  power : P (.reg (CHG_DPWR k))
  gstat : P (.reg CHG_GSTAT)
  cmd : FP.setCmd P k
  port : FP.syncPort P k
  stat : P (.reg (PHP_STAT k))
  php : P (.php k)
  ph : ∀ n : Fin 16, P (.ph n)
  pack : P (.reg (PK_STAT k))
  pk : P (.pk k)
  coul : P (.reg (COUL_STAT k))
  cap : FP.capKnown P k
  jnl : P .jnl
  flt : P .flt
  ring : ∀ n : Fin 64, n ≠ 0 → P (.ring n)

/-- The footprints of the flags that follow, beside the lost commands. -/
structure SteadyEvts (P : Place → Prop) (k : Fin 2) : Prop where
  php : FP.evt P (PHP_EVT k)
  chg : FP.evt P (CHG_EVT k)
  pack : FP.evt P (PK_EVT k)
  notice : FP.evt P FC_EVT

theorem steadyOps_beside (k : Fin 2) : SteadyOps BesideSteady k := by
  constructor
  all_goals
    repeat' first
      | decide +revert
      | apply And.intro

theorem steadyEvts_beside (k : Fin 2) : SteadyEvts (fun l => BesideCharge l ∧ BesideAdmin l) k := by
  constructor
  all_goals
    repeat' first
      | decide +revert
      | apply And.intro

section
variable {s₀ s : State} (h : Steady s₀ s) (k : Fin 2)
include h

theorem Steady.setCmd (a : Rat) : Steady s₀ (s.setCmd k a) := h.only (State.setCmd_only (.refl _ s) k a (steadyOps_beside k).cmd)

theorem Steady.turn (d : Dir) : Steady s₀ (s.turn k d) := by
  have hops := steadyOps_beside k
  unfold State.turn
  extract_lets u v w m x y z up a
  have hu : Steady s₀ u := h.only (State.setFld_only (.refl _ s) _ _ hops.stat)
  have hy : OnlyAt BesideSteady v y :=
    State.modPhp_only (State.setFld_only (State.setFld_only (.refl _ v) _ _ hops.stat) _ _ hops.stat) k _ hops.php
  have hz : OnlyAt BesideSteady v z := State.each_only hy _ _ (fun t n _ ht => State.modPh_only ht n _ (hops.ph n))
  have ha : OnlyAt BesideSteady v a := State.each_only hz _ _ (fun t n _ ht => State.modPh_only ht n _ (hops.ph n))
  exact .ite h ((hu.evt (steadyEvts_beside k).php).only (State.syncPort_only ha k hops.port))

theorem Steady.endCharge : Steady s₀ (s.endCharge k) := by
  have hops := steadyOps_beside k
  unfold State.endCharge
  extract_lets u
  have hu : Steady s₀ u := h.modChg k _ (fun _ => ⟨rfl, rfl, rfl⟩)
  exact ((hu.only (State.setFld_only (.refl _ u) (CHG_PWR_PCHGREQ k) 0 hops.pwr)).setStat (f := CHG_STAT_PAUSED k) _ rfl
    (by simp) (by simp)).only (State.setFld_only (.refl _ _) (CHG_TIME_TPAUSE k) 0 hops.time)

theorem Steady.setRole (r : Role) : Steady s₀ (s.setRole k r) := by
  have hops := steadyOps_beside k
  unfold State.setRole
  extract_lets u v w x y z
  have hu : Steady s₀ u := .ite (h.endCharge k) h
  have hcut : Steady s₀ (u.modChg k (fun c => { c with cut := none })) := hu.modChg k _ (fun _ => ⟨rfl, rfl, rfl⟩)
  have hv : Steady s₀ v := hcut.setStat _ rfl (by simp) (by simp)
  have hw : Steady s₀ w := by
    unfold w
    split
    · exact hv.only (State.count_only (.refl _ v) _ hops.cnt)
    · exact hv.only (State.count_only (.refl _ v) _ hops.cnt)
    · exact hv
  have hx : Steady s₀ x := hw.setCmd k 0
  have hy : Steady s₀ y := by
    unfold y
    split
    · exact hx.turn k _
    · exact hx.turn k _
    · exact hx.turn k _
    · exact hx.turn k _
    · exact .ite (hx.turn k _) (hx.turn k _)
  have hz : Steady s₀ z := by
    unfold z
    split
    · exact hy
    · exact hy
    · exact hy.only (State.setFld_only (.refl _ y) _ _ hops.power)
  exact .ite h (hz.only (State.syncRoles_only (.refl _ z) hops.gstat))

theorem Steady.setItgt (i : Rat) : Steady s₀ (s.setItgt k i) := by
  have hmod : Steady s₀ (s.modChg k (fun c => { c with itgt := i })) := h.modChg k _ (fun _ => ⟨rfl, rfl, rfl⟩)
  exact hmod.only (State.setScode_only (.refl _ _) _ _ (steadyOps_beside k).cur)

theorem Steady.setStage (g : Stage) : Steady s₀ (s.setStage k g) := by
  have hops := steadyOps_beside k
  unfold State.setStage
  extract_lets keep u v w
  have hu : Steady s₀ u := h.setStat _ rfl (by simp) (by simp)
  have hv : Steady s₀ v := hu.modChg k _ (fun _ => ⟨rfl, rfl, rfl⟩)
  have hw : Steady s₀ w := .ite (hv.modChg k _ (fun _ => ⟨rfl, rfl, rfl⟩)) hv
  have hx : Steady s₀ (w.modChg k (fun c => { c with stageUs := 0 })) := hw.modChg k _ (fun _ => ⟨rfl, rfl, rfl⟩)
  exact .ite hw (hx.only (State.setFld_only (.refl _ _) _ _ hops.time))

omit h in
/-- The move of a port without a Sounding run to a stage. -/
def State.moveStage (s : State) (k : Fin 2) (g : Stage) : State :=
  if s.safeState then s else
  let s := s.setStage k g
  let s := if s.role k = .gust ∨ s.role k = .holdup then s else s.setRole k (stageRole g)
  let s := if stageRole g = .none then (s.modChg k (fun c => { c with cv := 0 })).setItgt k 0 else s
  if g = .qualify ∨ g = .rest then s.modChg k (fun c => { c with requal := false, restDue := false }) else s

omit h in
theorem State.enterStage_eq (s : State) (k : Fin 2) (g : Stage) : s.enterStage k g = (s.abortSounding k 8).moveStage k g := rfl

theorem Steady.moveStage (g : Stage) : Steady s₀ (s.moveStage k g) := by
  unfold State.moveStage
  extract_lets u v w
  have hu : Steady s₀ u := h.setStage k g
  have hv : Steady s₀ v := .ite hu (hu.setRole k _)
  have hcv : Steady s₀ (v.modChg k (fun c => { c with cv := 0 })) := hv.modChg k _ (fun _ => ⟨rfl, rfl, rfl⟩)
  have hw : Steady s₀ w := .ite (hcv.setItgt k 0) hv
  exact .ite h (.ite (hw.modChg k _ (fun _ => ⟨rfl, rfl, rfl⟩)) hw)

theorem Steady.syncElig : Steady s₀ (s.syncElig k) :=
  (h.setStat (f := CHG_STAT_HURDY k) _ rfl (by simp) (by simp)).setStat (f := CHG_STAT_GELIG k) _ rfl (by simp) (by simp)

theorem Steady.gustLoss : Steady s₀ (s.gustLoss k) := by
  have hdrop : Steady s₀ (s.modChg k (fun c => { c with gdrop := true })) := h.modChg k _ (fun _ => ⟨rfl, rfl, rfl⟩)
  exact (Steady.ite hdrop h).syncElig k

theorem Steady.syncPack : Steady s₀ (s.syncPack k) := by
  have hpack := (steadyOps_beside k).pack
  unfold State.syncPack
  extract_lets p shown u cool noTrip v w
  have hw : OnlyAt BesideSteady s w := State.setOn_only (State.setOn_only (State.setFld_only (.refl _ s) _ _ hpack) _ _ hpack) _ _ hpack
  exact (h.only hw).setStat (f := CHG_STAT_UNACAP k) _ rfl (by simp) (by simp)

theorem Steady.notice (code data : Nat) : Steady s₀ (s.notice code data) := by
  have hops := steadyOps_beside 0
  have hone (t : State) (n : Fin 64) (hn : n ≠ 0) : Steady t (t.noticeOn n code data) := by
    have hpost (u : State) (c : Compl) : OnlyAt BesideSteady u (u.postEntry n c) := by
      unfold State.postEntry
      exact OnlyAt.ite (State.modRing_only (.refl _ u) n _ (hops.ring n hn)) (.refl _ u)
    unfold State.noticeOn
    extract_lets c
    exact .ite (hpost t c).steady (.ite ((Steady.refl t).evt (steadyEvts_beside 0).notice)
      (.ite (State.modRing_only (hpost t c) n _ (hops.ring n hn)).steady (.refl t)))
  refine Steady.each h _ _ (fun t n hn => hone t n ?_)
  have hbound := mem_finsWhere.mp hn
  simp only [Bool.and_eq_true, decide_eq_true_eq] at hbound
  exact fun e => hbound.1 (by simp [e])

theorem Steady.checkWorn : Steady s₀ (s.checkWorn k) := by
  have hops := steadyOps_beside k
  unfold State.checkWorn
  extract_lets cyc soh age worn u v
  have hv : OnlyAt BesideSteady s v := State.jevent_only (State.setOn_only (.refl _ s) _ true hops.pack) _ _ _ _ _ _ hops.jnl
  exact .ite ((((h.only hv).notice 2 k.val).syncPack k).gustLoss k) h

theorem Steady.authDue : Steady s₀ (s.authDue k) := by
  unfold State.authDue
  exact .ite h (Steady.syncPack (h.only (State.modPk_only (.refl _ s) k _ (steadyOps_beside k).pk)) k)

end
end Sys2Proof.Machine
end

section
/-! PROOF. The end of a Sounding run leaves the profiles, and the other commands of the admin ring, as they are (R164, R168, R278). -/

namespace Sys2Proof.Machine

/-! ### The end of a Sounding run -/

/-- The ports have the profiles and reads they had, and report the same of them, and CHG_PLOAD is as it was. -/
structure ProfHold (s t : State) : Prop where
  prof : ∀ k : Fin 2, t.chg[k].prof = s.chg[k].prof
  load : ∀ k : Fin 2, t.chg[k].load = s.chg[k].load
  stat : ∀ (k : Fin 2) (f : Fld), f.off = CHG_STAT k → f.Fits → f.hi ≤ 20 → t.fld f = s.fld f
  pload : t.word CHG_PLOAD = s.word CHG_PLOAD

theorem ProfHold.refl (s : State) : ProfHold s s := ⟨fun _ => rfl, fun _ => rfl, fun _ _ _ _ _ => rfl, rfl⟩

theorem ProfHold.trans {s t u : State} (h : ProfHold s t) (h' : ProfHold t u) : ProfHold s u where
  prof k := (h'.prof k).trans (h.prof k)
  load k := (h'.load k).trans (h.load k)
  stat k f hoff hf hhi := (h'.stat k f hoff hf hhi).trans (h.stat k f hoff hf hhi)
  pload := h'.pload.trans h.pload

theorem ProfHold.ite {s t u : State} {c : Prop} [Decidable c] (ht : ProfHold s t) (hu : ProfHold s u) :
    ProfHold s (if c then t else u) := by
  split <;> assumption

theorem ChargeHold.profHold {s t : State} (h : ChargeHold s t) : ProfHold s t := ⟨h.prof, h.load, h.stat, h.words CHG_PLOAD (by simp)⟩

theorem Steady.profHold {s t : State} (h : Steady s t) : ProfHold s t := h.charge.profHold

/-- The places beside what `ProfHold` speaks of. -/
abbrev BesideProf (l : Place) : Prop := l ≠ .reg CHG_PLOAD ∧ (∀ k : Fin 2, l ≠ .reg (CHG_STAT k)) ∧ ∀ k : Fin 2, l ≠ .chg k

theorem OnlyAt.profHold {s t : State} (h : OnlyAt BesideProf s t) : ProfHold s t := by
  have hchg (k : Fin 2) : t.chg[k] = s.chg[k] := h (.chg k) (fun hp => hp.2.2 k rfl)
  exact {
    prof := fun k => congrArg ChgH.prof (hchg k)
    load := fun k => congrArg ChgH.load (hchg k)
    stat := fun k f hoff _ _ => h.fld (fun hp => hp.2.1 k (by rw [hoff]))
    pload := h.word (fun hp => hp.1 rfl) }

/-- The footprints of the end of a Sounding run. -/
structure AbortOps (P : Place → Prop) (k : Fin 2) : Prop where
  info : P (.reg (CHG_ZINFO k))
  finish : FP.finish P
  done : FP.done P

theorem abortOps_besideProf (k : Fin 2) : AbortOps BesideProf k := by
  constructor
  all_goals
    repeat' first
      | decide +revert
      | apply And.intro

/-- A command that the admin ring has started, and that no loss of the link has left running, awaits its completion. -/
structure Awaits (d : Desc) (s : State) : Prop where
  started : d ∈ s.ring[(0 : Fin 64)].started
  active : s.ringSt 0 = 1
  lost : d ∉ s.hif.lost

theorem RingHold.awaits {s t : State} {d : Desc} (h : RingHold s t) (hs : Awaits d s) : Awaits d t := by
  obtain ⟨hring, hstate, hlost⟩ := h
  exact ⟨by rw [hring]; exact hs.started, hstate.trans hs.active, by rw [hlost]; exact hs.lost⟩

section
variable (s : State)

/-- The end of one command leaves another as it is. -/
theorem Awaits.finish {s : State} {d e : Desc} (h : Awaits d s) (hne : e ≠ d) (status qual result : Nat) :
    Awaits d (s.finish e status qual result) := by
  have hanswer (t : State) (ht : Awaits d t) : Awaits d (t.answer e status qual result) := by
    unfold State.answer
    split
    · set u := t.modRing 0 (fun r => { r with started := r.started.erase e }) with hu
      have hstarted : d ∈ u.ring[(0 : Fin 64)].started := by
        rw [hu, State.modRing_same]
        exact (List.mem_erase_of_ne hne.symm).mpr ht.started
      have hu : Awaits d u := ⟨hstarted, ht.active, ht.lost⟩
      unfold State.complete State.postEntry
      split
      · refine ⟨?_, hu.active, hu.lost⟩
        rw [State.modRing_same]
        exact hu.started
      · exact hu
    · exact ht
  have hdone (t : State) (ht : Awaits d t) : Awaits d (t.done e status qual result) := by
    unfold State.done
    split
    · exact ⟨ht.started, ht.active, fun hmem => ht.lost (List.mem_of_mem_erase hmem)⟩
    · exact hanswer t ht
  unfold State.finish
  split
  · exact hdone _ ⟨h.started, h.active, h.lost⟩
  · exact hdone s h

/-- A command that awaits its completion gets it. -/
theorem Awaits.done {s : State} {d : Desc} (h : Awaits d s) (status qual result : Nat) :
    Completed (s.done d status qual result) 0 d status qual result := by
  obtain ⟨hstarted, hactive, hlost⟩ := h
  have hrun : s.done d status qual result = s.answer d status qual result := if_neg (by simpa using hlost)
  have hans : s.answer d status qual result =
      (s.modRing 0 (fun r => { r with started := r.started.erase d })).complete 0 d status qual result := if_pos (by simpa using hstarted)
  have hpost (t : State) (ht : t.ringSt 0 = 1) (c : Compl) : t.postEntry 0 c = t.modRing 0 (fun r => { r with cq := r.cq ++ [c] }) :=
    if_pos (.inl ht)
  rw [Completed, hrun, hans, State.complete, hpost (s.modRing 0 _) hactive, State.modRing_same]
  exact List.mem_append_right _ (List.mem_singleton.mpr rfl)

/-! ### The end of a run in the relations -/

variable (k : Fin 2)

theorem hifStat_ne_zinfo (k : Fin 2) : HIF_STAT 0 ≠ CHG_ZINFO k := by decide +revert

/-- The charge loop is restored: the run goes, its port's profile and reads stay. -/
theorem State.restoreLoop_holds (r : Sounding) : ProfHold s (s.restoreLoop k r) ∧ RingHold s (s.restoreLoop k r) := by
  obtain ⟨hinfo, -, -⟩ := abortOps_besideProf k
  set u := s.modChg k (fun c => { c with snd := none }) with hu
  have hchg (j : Fin 2) : u.chg[j].prof = s.chg[j].prof ∧ u.chg[j].load = s.chg[j].load := by
    by_cases e : k = j
    · subst e
      rw [hu, State.modChg_same]
      exact ⟨rfl, rfl⟩
    · rw [hu, State.modChg_ne s _ e]
      exact ⟨rfl, rfl⟩
  have hprof : ProfHold s u := ⟨fun j => (hchg j).1, fun j => (hchg j).2, fun _ _ _ _ _ => rfl, rfl⟩
  have hring : RingHold s u := ⟨rfl, rfl, rfl⟩
  have hitgt : Steady u (u.setItgt k (if r.fromRest then 0 else r.ihold)) := (Steady.refl u).setItgt k _
  have hinfo' : ProfHold (u.setItgt k (if r.fromRest then 0 else r.ihold)) (s.restoreLoop k r) :=
    (State.setFld_only (.refl BesideProf _) (CHG_ZINFO_SSTATE k) 0 hinfo).profHold
  have hstate : RingHold (u.setItgt k (if r.fromRest then 0 else r.ihold)) (s.restoreLoop k r) :=
    ⟨rfl, State.fld_setFld_off _ _ _ _ (hifStat_ne_zinfo k), rfl⟩
  exact ⟨(hprof.trans hitgt.profHold).trans hinfo', (hring.trans hitgt.ring).trans hstate⟩

theorem State.abortSounding_profHold (status : Nat) : ProfHold s (s.abortSounding k status) := by
  unfold State.abortSounding
  split
  · exact .refl s
  · next r _ =>
    extract_lets u v w
    have hu : ProfHold s u := (s.restoreLoop_holds k r).1
    have hv : Steady u v := .ite ((Steady.refl u).evt (steadyEvts_beside k).chg) (.refl u)
    have hw : Steady u w := .ite (hv.setRole k .none) hv
    exact (hu.trans hw.profHold).trans (State.finish_only (.refl _ w) _ _ _ _ (abortOps_besideProf k).finish).profHold

theorem State.abortSounding_awaits {d : Desc} (h : Awaits d s) (hother : s.chg[k].snd.all (fun r => r.d != d) = true) (status : Nat) :
    Awaits d (s.abortSounding k status) := by
  unfold State.abortSounding
  split
  · exact h
  · next r hr =>
    extract_lets u v w
    have hne : r.d ≠ d := by simpa [hr, -Fin.getElem_fin] using hother
    have hv : Steady u v := .ite ((Steady.refl u).evt (steadyEvts_beside k).chg) (.refl u)
    have hw : Steady u w := .ite (hv.setRole k .none) hv
    exact (((s.restoreLoop_holds k r).2.trans hw.ring).awaits h).finish hne _ _ _

theorem State.enterStage_profHold (g : Stage) : ProfHold s (s.enterStage k g) := by
  rw [State.enterStage_eq]
  exact (s.abortSounding_profHold k 8).trans ((Steady.refl _).moveStage k g).profHold

theorem State.enterStage_awaits {d : Desc} (h : Awaits d s) (hother : s.chg[k].snd.all (fun r => r.d != d) = true) (g : Stage) :
    Awaits d (s.enterStage k g) := by
  rw [State.enterStage_eq]
  exact ((Steady.refl _).moveStage k g).ring.awaits (s.abortSounding_awaits k h hother 8)

end
end Sys2Proof.Machine
end

section
/-! PROOF. A profile comes into force, from a read of the host's or from the staging area, and what follows it leaves it in force (R154,
R185, R187). -/

namespace Sys2Proof.Machine

/-! ### A profile in force -/

/-- Port `k` has profile `p` in force and reports its chemistry and cell count; its reads are as they were. -/
structure InForce (k : Fin 2) (p : Profile) (s t : State) : Prop where
  prof : t.chg[k].prof = some p
  load : t.chg[k].load = s.chg[k].load
  profok : t.on (CHG_STAT_PROFOK k) = true
  chem : t.fld (CHG_STAT_CHEM k) = p.chem
  ncell : t.fld (CHG_STAT_NCELL k) = p.ncell

theorem InForce.hold {k : Fin 2} {p : Profile} {s t u : State} (h : InForce k p s t) (h' : ProfHold t u) : InForce k p s u where
  prof := (h'.prof k).trans h.prof
  load := (h'.load k).trans h.load
  profok := (congrArg (· != 0) (h'.stat k (CHG_STAT_PROFOK k) rfl (by simp) (by simp))).trans h.profok
  chem := (h'.stat k (CHG_STAT_CHEM k) rfl (by simp) (by simp)).trans h.chem
  ncell := (h'.stat k (CHG_STAT_NCELL k) rfl (by simp) (by simp)).trans h.ncell

/-- The chemistry and the cell count of a valid block fit their fields. -/
theorem Profile.valid_fits {p : Profile} (h : p.valid = true) : p.chem < 2 ^ 8 ∧ p.ncell < 2 ^ 5 := by
  simp only [Profile.valid, Bool.and_eq_true, decide_eq_true_eq] at h
  exact ⟨Nat.mod_lt _ (by decide), by omega⟩

section
variable (s : State) (k : Fin 2) (p : Profile)

/-- The port with its new profile noted and journalled. -/
def State.profileNoted (s : State) (k : Fin 2) (p : Profile) (o : Origin) (cls : Nat) : State :=
  let u := s.modChg k (fun c => { c with prof := some p, crc := BitVec.ofNat 32 p.crc })
  let v := ((u.setOn (CHG_STAT_PROFOK k) true).setFld (CHG_STAT_CHEM k) p.chem).setFld (CHG_STAT_NCELL k) p.ncell
  v.journal (v.stamp cls false (o.word CHG_PLOAD) 0x05 (k.val + p.ncell * 2 ^ 8 + p.chem * 2 ^ 16) s.chg[k].crc (BitVec.ofNat 32 p.crc) 0)

/-- The stage or the role of a port answers a new profile. -/
def State.profileStage (s : State) (k : Fin 2) : State :=
  if s.stage k = .off then s.chgWake k
  else if s.role k = .gust ∨ s.role k = .holdup then s.modChg k (fun c => { c with requal := true })
  else (s.enterStage k .qualify).setCmd k 0

theorem State.applyProfile_eq (o : Origin) (cls : Nat) : s.applyProfile k p o cls =
    (((((((s.profileNoted k p o cls).capKnown k).profileStage k).authDue k).checkWorn k).syncPack k).syncElig k) := rfl

theorem State.profileNoted_inForce (hv : p.valid = true) (o : Origin) (cls : Nat) : InForce k p s (s.profileNoted k p o cls) := by
  obtain ⟨hchem, hncell⟩ := Profile.valid_fits hv
  set u := s.modChg k (fun c => { c with prof := some p, crc := BitVec.ofNat 32 p.crc }) with hu
  have hchg : u.chg[k] = { s.chg[k] with prof := some p, crc := BitVec.ofNat 32 p.crc } := State.modChg_same s k _
  set v := u.setOn (CHG_STAT_PROFOK k) true with hv
  set w := v.setFld (CHG_STAT_CHEM k) p.chem with hw
  have hok : (w.setFld (CHG_STAT_NCELL k) p.ncell).on (CHG_STAT_PROFOK k) = true :=
    ((w.on_setFld_ne _ (by simp) (by simp) (.inr (.inr (by simp)))).trans
      (v.on_setFld_ne _ (by simp) (by simp) (.inr (.inr (by simp))))).trans (u.on_setOn_same true (by simp))
  have hch : (w.setFld (CHG_STAT_NCELL k) p.ncell).fld (CHG_STAT_CHEM k) = p.chem :=
    (w.fld_setFld_ne _ (by simp) (by simp) (.inr (.inr (by simp)))).trans
      ((v.fld_setFld_same _ _ (by simp) (by simp)).trans (Nat.mod_eq_of_lt hchem))
  have hnc : (w.setFld (CHG_STAT_NCELL k) p.ncell).fld (CHG_STAT_NCELL k) = p.ncell :=
    (w.fld_setFld_same _ _ (by simp) (by simp)).trans (Nat.mod_eq_of_lt hncell)
  obtain ⟨r, hdef⟩ : ∃ r, s.profileNoted k p o cls = (w.setFld (CHG_STAT_NCELL k) p.ncell).journal r := ⟨_, rfl⟩
  have hport : (s.profileNoted k p o cls).chg[k] = u.chg[k] := rfl
  refine ⟨by rw [hport, hchg], by rw [hport, hchg], ?_, ?_, ?_⟩
  · rw [hdef, State.journal_on, hok]
  · rw [hdef, State.journal_fld, hch]
  · rw [hdef, State.journal_fld, hnc]

theorem State.profileNoted_ring (o : Origin) (cls : Nat) : RingHold s (s.profileNoted k p o cls) := by
  obtain ⟨hne, -⟩ := chgStat_besideSteady k
  refine ⟨rfl, ?_, rfl⟩
  exact ((State.fld_setFld_off _ _ (HIF_STAT_STATE 0) _ hne).trans (State.fld_setFld_off _ _ _ _ hne)).trans (State.fld_setFld_off _ _ _ _ hne)

theorem State.profileNoted_snd (o : Origin) (cls : Nat) : (s.profileNoted k p o cls).chg[k].snd = s.chg[k].snd := by
  have hchg : (s.profileNoted k p o cls).chg = (s.modChg k (fun c => { c with prof := some p, crc := BitVec.ofNat 32 p.crc })).chg := rfl
  rw [hchg, State.modChg_same]

theorem State.profileStage_profHold : ProfHold s (s.profileStage k) := by
  have hmod : Steady s (s.modChg k (fun c => { c with requal := true })) := (Steady.refl s).modChg k _ (fun _ => ⟨rfl, rfl, rfl⟩)
  have hwake : ProfHold s (s.chgWake k) := .ite (s.enterStage_profHold k .qualify) (.refl s)
  exact .ite hwake (.ite hmod.profHold ((s.enterStage_profHold k .qualify).trans ((Steady.refl _).setCmd k 0).profHold))

theorem State.profileStage_awaits {d : Desc} (h : Awaits d s) (hother : s.chg[k].snd.all (fun r => r.d != d) = true) :
    Awaits d (s.profileStage k) := by
  have henter : Awaits d (s.enterStage k .qualify) := s.enterStage_awaits k h hother .qualify
  unfold State.profileStage
  split
  · unfold State.chgWake
    split
    · exact henter
    · exact h
  · split
    · exact (show RingHold s (s.modChg k _) from ⟨rfl, rfl, rfl⟩).awaits h
    · exact ((Steady.refl _).setCmd k 0).ring.awaits henter

/-- What a profile's application does once the stage of its port has answered. -/
theorem Steady.profileEnd {s₀ s : State} (h : Steady s₀ s) (k : Fin 2) : Steady s₀ ((((s.authDue k).checkWorn k).syncPack k).syncElig k) :=
  (((h.authDue k).checkWorn k).syncPack k).syncElig k

theorem State.capKnown_steady : Steady s (s.capKnown k) := (State.capKnown_only (.refl _ s) k (steadyOps_beside k).cap).steady

theorem State.applyProfile_inForce (hv : p.valid = true) (o : Origin) (cls : Nat) : InForce k p s (s.applyProfile k p o cls) := by
  rw [State.applyProfile_eq]
  exact (((s.profileNoted_inForce k p hv o cls).hold (State.capKnown_steady _ k).profHold).hold (State.profileStage_profHold _ k)).hold
    ((Steady.refl _).profileEnd k).profHold

theorem State.applyProfile_awaits {d : Desc} (h : Awaits d s) (hother : s.chg[k].snd.all (fun r => r.d != d) = true) (o : Origin)
    (cls : Nat) : Awaits d (s.applyProfile k p o cls) := by
  have hcap := (s.profileNoted k p o cls).capKnown_steady k
  have hsnd : ((s.profileNoted k p o cls).capKnown k).chg[k].snd = s.chg[k].snd :=
    (hcap.charge.snd k).trans (s.profileNoted_snd k p o cls)
  rw [State.applyProfile_eq]
  exact ((Steady.refl _).profileEnd k).ring.awaits
    (State.profileStage_awaits _ k (hcap.ring.awaits ((s.profileNoted_ring k p o cls).awaits h)) (by rw [hsnd]; exact hother))

end

/-! ### PROFILE_READ_DONE -/

theorem profileReadDone_clause (k : Fin 2) (p : Profile) (d : Desc) (l : List Desc) (s : State) (hbme : s.on HIF_LNK_BME = true)
    (hload : s.chg[k].load = d :: l) (hcrc : p.crcOk = true) (hv : p.valid = true) (hpres : s.present = true)
    (hstall : s.stalled = false) : Gives (.profileReadDone k p) s (fun t => t.chg[k].prof = some p ∧ t.chg[k].load = l ∧
      t.on (CHG_STAT_PROFOK k) = true ∧ t.fld (CHG_STAT_CHEM k) = p.chem ∧ t.fld (CHG_STAT_NCELL k) = p.ncell ∧
      (s.ring[(0 : Fin 64)].started.contains d = true → s.ringSt 0 = 1 → d ∉ s.hif.lost →
        s.chg[k].snd.all (fun r => r.d != d) = true → Completed t 0 d 0 0 0)) := by
  set u := s.modChg k (fun c => { c with load := l }) with hu
  set guarded := u.profGuarded k p with hguarded
  set v := (if guarded then u.count AUTH_CNT_GRANTED else u) with hv'
  set w := v.applyProfile k p (adminOrigin d) (if guarded then 1 else 0) with hw
  have hqual : (if u.present then 0 else 1) + (if u.stalled then 8 else 0) = 0 := by
    have hp : u.present = true := hpres
    have hs : u.stalled = false := hstall
    simp [hp, hs]
  have hexec : execProfileReadDone k p s = .next (w.done d 0 0 0) := by
    refine congrArg Host.Outcome.next ((if_neg (by simp [hbme])).trans ?_)
    rw [hload]
    refine (if_neg (by simp [hcrc, hv])).trans ((if_neg ?_).trans rfl)
    rw [hqual]
    simp
  have hcount : OnlyAt (· = .reg AUTH_CNT_GRANTED.off) u v := OnlyAt.ite (State.count_only (.refl _ u) _ rfl) (.refl _ u)
  have hsame : v.chg[k] = u.chg[k] := hcount (.chg k) (by simp)
  have hchg : v.chg[k] = { s.chg[k] with load := l } := hsame.trans (State.modChg_same s k _)
  have hdone : ProfHold w (w.done d 0 0 0) := (State.done_only (.refl _ w) d 0 0 0 (abortOps_besideProf k).done).profHold
  obtain ⟨hprof, hl, hok, hchem, hncell⟩ := (v.applyProfile_inForce k p hv (adminOrigin d) (if guarded then 1 else 0)).hold hdone
  refine ⟨_, hexec, hprof, hl.trans (congrArg ChgH.load hchg), hok, hchem, hncell, fun hstarted hring hlost hsnd => ?_⟩
  have hring' : RingHold s v := ⟨hcount (.ring 0) (by simp), hcount.fld (by decide), congrArg HifH.lost (hcount .hif (by simp))⟩
  have hawaits : Awaits d v := hring'.awaits ⟨by simpa using hstarted, hring, hlost⟩
  have hother : v.chg[k].snd.all (fun r => r.d != d) = true := by
    rw [hchg]
    exact hsnd
  exact (v.applyProfile_awaits k p hawaits hother _ _).done 0 0 0

end Sys2Proof.Machine
end

section
/-! PROOF. The staged profile comes into force, and the look at the pack comparators that ends the write leaves it in force (R185, R187,
R343). -/

namespace Sys2Proof.Machine

/-! ### The trips of a pack port -/

section
variable {s₀ s : State} (h : Steady s₀ s) (k : Fin 2)
include h

theorem Steady.setGates (chg dsg : Bool) : Steady s₀ (s.setGates k chg dsg) := by
  have hops := steadyOps_beside k
  unfold State.setGates
  extract_lets u
  have hu : OnlyAt BesideSteady s u := OnlyAt.ite (State.setOn_only (.refl _ s) _ _ hops.coul) (.refl _ s)
  exact Steady.syncPack (h.only (State.setOn_only (State.setOn_only hu _ _ hops.pack) _ _ hops.pack)) k

theorem Steady.modPk (f : PkH → PkH) : Steady s₀ (s.modPk k f) := h.only (State.modPk_only (.refl _ s) k f (steadyOps_beside k).pk)

theorem Steady.setPk (st : PkSt) : Steady s₀ (s.setPk k st) := h.only (State.setPk_only (.refl _ s) k st (steadyOps_beside k).pack)

theorem Steady.fault (src : Fin 64) (addr : Nat) : Steady s₀ (s.fault src addr) :=
  h.only (State.fault_only (.refl _ s) src addr (steadyOps_beside 0).flt)

theorem Steady.openPort : Steady s₀ (s.openPort k) := by
  unfold State.openPort
  extract_lets u
  have hu : Steady s₀ u := (h.modPk k _).setGates k false false
  exact .ite ((hu.setPk k .open).syncPack k) hu

theorem Steady.closeFail : Steady s₀ (s.closeFail k) :=
  (((h.openPort k).modPk k _).evt (steadyEvts_beside k).pack).fault srcPACK_CLOSE k.val

theorem Steady.packFlag (told : Bool) {f : Fld} (hf : f.off = PK_EVT k) (src : Fin 64) : Steady s₀ (s.packFlag k told f src) :=
  .ite (Steady.fault (h.evt (by rw [hf]; exact (steadyEvts_beside k).pack)) src k.val) h

theorem Steady.packOv (told : Bool) : Steady s₀ (s.packOv k told) := by
  unfold State.packOv
  extract_lets u
  have hu : Steady s₀ u := h.packFlag k told rfl _
  exact .ite hu (.ite h (.ite (hu.closeFail k) ((((hu.modPk k _).setGates k _ _).gustLoss k).syncElig k)))
end

section
variable (s : State) (k : Fin 2)

theorem State.leaveHoldup_profHold : ProfHold s (s.leaveHoldup k) := by
  unfold State.leaveHoldup
  extract_lets g u v w
  have hu : Steady s u := (Steady.refl s).setRole k .none
  have hv : Steady s v := hu.modChg k _ (fun _ => ⟨rfl, rfl, rfl⟩)
  have hw : ProfHold s w := hv.profHold.trans
    (.ite (v.enterStage_profHold k .qualify) (.ite (.refl v) (v.enterStage_profHold k .rest)))
  exact .ite (.refl s) (.ite hw (hw.trans ((Steady.refl w).notice 4 0).profHold))

theorem State.packUv_profHold (told : Bool) : ProfHold s (s.packUv k told) := by
  unfold State.packUv
  extract_lets u v
  have hu : Steady s u := (Steady.refl s).packFlag k told rfl _
  have hv : Steady s v := (hu.modPk k _).setGates k _ _
  exact .ite (.refl s) (.ite (hu.closeFail k).profHold
    ((hv.profHold.trans (v.leaveHoldup_profHold k)).trans (((Steady.refl _).gustLoss k).syncElig k).profHold))

theorem State.packRoute_profHold {c : Fin 48} (hc : c = 26 ∨ c = 27) (upper : Bool) : ProfHold s (s.cmpRoute c upper) := by
  have hroute (j : Fin 2) : ProfHold s (if upper then s.packOv j true else s.packUv j true) :=
    .ite ((Steady.refl s).packOv j true).profHold (s.packUv_profHold j true)
  obtain rfl | rfl := hc
  · exact hroute 0
  · exact hroute 1

theorem outputOps_besideProf (c : Fin 48) : OutputOps BesideProf c := by
  constructor
  all_goals
    repeat' first
      | decide +revert
      | apply And.intro

theorem State.rethresh_profHold {c : Fin 48} (hc : c = 26 ∨ c = 27) : ProfHold s (s.rethresh c) :=
  State.rethresh_keeps_of (R := ProfHold s) (outputOps_besideProf c) (fun _ _ hu ht => ht.trans hu.profHold)
    (fun t upper ht => ht.trans (t.packRoute_profHold hc upper)) (.refl s)
end

/-! ### PROFILE_STAGED_LOAD -/

/-- The row of CHG_PLOAD in the register table. -/
def ploadRow : RegRow :=
  ⟨CHG_PLOAD, 1, 0x10000, 1, 4, false, [⟨23, 16, .ro, false, false, .none, false, none⟩, ⟨1, 1, .rw, false, true, .none, false, none⟩,
    ⟨0, 0, .w1s, false, true, .none, false, none⟩]⟩

theorem findReg_pload : findReg regTable CHG_PLOAD = some ploadRow := by decide +kernel

/-- PORT is stored. -/
theorem ploadRow_after (old v : Word) : (ploadRow.after old v).getLsbD 1 = v.getLsbD 1 := by
  have hafter : ploadRow.after old v = Fld.insert ⟨0, 0, 0⟩ (Fld.insert ⟨0, 1, 1⟩
      (Fld.insert ⟨0, 23, 16⟩ old (Fld.extract ⟨0, 23, 16⟩ old)) (Fld.extract ⟨0, 1, 1⟩ v)) (Fld.extract ⟨0, 0, 0⟩ old) := rfl
  rw [hafter, Fld.getLsbD_insert _ _ _ _ (by decide) (by decide) (by decide), if_neg (by decide),
    Fld.getLsbD_insert _ _ _ _ (by decide) (by decide) (by decide), if_pos (by decide), Fld.testBit_extract]
  simp [Fld.width]

theorem pload_plain : PlainReg CHG_PLOAD := ⟨by decide, by decide, by decide, by decide⟩

theorem State.settleWord_pload (s : State) (old w : Word) : s.settleWord CHG_PLOAD old w = w := by
  have hfam : famIdx CHG_PLOAD (FEED_TML 0) 0x100 4 = none := by decide
  unfold State.settleWord
  rw [if_neg (by decide), if_neg (by decide), hfam]
  exact if_neg (by decide)

theorem State.wrote_pload (s p : State) (o : Origin) {v : Word} (hv : v.getLsbD 0 = true) :
    s.wrote p o CHG_PLOAD v = s.stagedLoad o := by
  have hchg : s.wrote p o CHG_PLOAD v = s.wroteChg o CHG_PLOAD v := by
    unfold State.wrote
    iterate 8 rw [if_neg (by decide)]
    exact if_pos (by decide)
  rw [hchg]
  exact (if_pos rfl).trans (if_pos hv)

theorem State.rethreshOf_pload (s : State) : s.rethreshOf CHG_PLOAD = (s.rethresh 26).rethresh 27 := by
  unfold State.rethreshOf
  rw [if_neg (by decide), if_neg (by decide), if_neg (by decide), if_pos rfl]
  rfl

/-- The places beside the staging area. -/
abbrev BesideStaged (l : Place) : Prop := ∀ i < 88, l ≠ .reg (CHG_PSTAGE i)

theorem pload_besideStaged : BesideStaged (.reg CHG_PLOAD) ∧ FP.lineRise BesideStaged := by
  repeat' first
    | decide +kernel +revert
    | apply And.intro

theorem OnlyAt.staged {s t : State} (h : OnlyAt BesideStaged s t) : t.staged = s.staged := by
  unfold State.staged
  refine congrArg (BitVec.ofNat 2816) (List.foldl_ext _ _ _ (fun a i hi => ?_))
  have hword : t.word (CHG_PSTAGE i) = s.word (CHG_PSTAGE i) := h.word (fun hp => hp i (List.mem_range.mp hi) rfl)
  rw [hword]

theorem pload_not_lineOut : CHG_PLOAD ∉ lineOut := by decide

theorem acceptPlaces_besideProf : BesideProf (.reg AUTH_CNT_GRANTED.off) ∧ BesideProf .jnl := by decide

/-- A valid staged block comes into force on the port that PORT names, and RESULT says so. -/
theorem State.stagedLoad_inForce {s : State} {k : Fin 2} {p : Profile} (hport : (if s.on CHG_PLOAD_PORT then 1 else 0 : Fin 2) = k)
    (hp : s.staged = p) (hcrc : p.crcOk = true) (hv : p.valid = true) (o : Origin) :
    (s.stagedLoad o).chg[k].prof = some p ∧ (s.stagedLoad o).fld CHG_PLOAD_RESULT = 1 := by
  have hload : s.stagedLoad o =
      (s.applyProfile k p o (if s.profGuarded k p then 1 else 0)).setFld CHG_PLOAD_RESULT 1 := by
    unfold State.stagedLoad
    rw [hport, hp]
    exact (if_neg (by simp [hcrc])).trans (if_neg (by simp [hv]))
  rw [hload, State.setFld_chg]
  exact ⟨(s.applyProfile_inForce k p hv o _).prof, State.fld_setFld_same _ CHG_PLOAD_RESULT 1 (by decide) (by decide)⟩

/-- An accepted write of GO: what the staging area's block brings about stands at the end of the write. -/
theorem State.fabricWrite_pload {s : State} {o : Origin} (hs : Admits s o CHG_PLOAD) {x : Word} (hgo : x.getLsbD 0 = true) :
    ∃ u : State, u.staged = s.staged ∧ u.on CHG_PLOAD_PORT = x.getLsbD 1 ∧ ProfHold (u.stagedLoad o) (s.fabricWrite o CHG_PLOAD x) := by
  obtain ⟨guarded, haccept⟩ := State.fabricWrite_accepted pload_plain hs findReg_pload (by decide) x
  rw [State.settleWord_pload] at haccept
  obtain ⟨hreg, hline⟩ := pload_besideStaged
  obtain ⟨hcnt, hjnl⟩ := acceptPlaces_besideProf
  obtain ⟨u, hu, hword, happly⟩ := State.applyWord_stored (s := s) (o := o) hreg hline (ploadRow.after (s.word CHG_PLOAD) x) x
  rw [State.wrote_pload u s o hgo, State.rethreshOf_pload] at happly
  have hport : u.on CHG_PLOAD_PORT = x.getLsbD 1 := by
    rw [State.on_iff_getLsbD, hword pload_not_lineOut, ploadRow_after]
  refine ⟨u, hu.staged, hport, ?_⟩
  have hlook : ProfHold (u.stagedLoad o) (s.applyWord o CHG_PLOAD (ploadRow.after (s.word CHG_PLOAD) x) x) := by
    rw [happly]
    exact (State.rethresh_profHold _ (.inl rfl)).trans (State.rethresh_profHold _ (.inr rfl))
  rw [haccept]
  exact hlook.trans ((State.acceptWrite_only pload_plain _ x guarded).mono (fun l hl => hl.elim (· ▸ hcnt) (· ▸ hjnl))).profHold

theorem profileStagedLoad_clause (o : Origin) (v : Word) (s : State) (hs : Admits s o CHG_PLOAD) (hcrc : s.staged.crcOk = true)
    (hv : s.staged.valid = true) : Gives (.profileStagedLoad o v) s (fun t =>
      t.chg[(if v.getLsbD 1 then 1 else 0 : Fin 2)].prof = some s.staged ∧ t.fld CHG_PLOAD_RESULT = 1) := by
  have hbit (i : Nat) (hi : i < 32) : (CHG_PLOAD_GO.insert v 1).getLsbD i = if i = 0 then true else v.getLsbD i := by
    rw [Fld.getLsbD_insert _ _ _ _ (by decide) (by decide) hi]
    by_cases h : i = 0 <;> simp [h]
  obtain ⟨u, hstaged, hport, hend⟩ := State.fabricWrite_pload hs (x := CHG_PLOAD_GO.insert v 1) (hbit 0 (by decide))
  have hport' : (if u.on CHG_PLOAD_PORT then 1 else 0 : Fin 2) = if v.getLsbD 1 then 1 else 0 := by
    rw [hport, hbit 1 (by decide)]
    rfl
  obtain ⟨hprof, hresult⟩ := State.stagedLoad_inForce hport' hstaged hcrc hv o
  exact ⟨_, rfl, (hend.prof _).trans hprof, (State.fld_of_word hend.pload).trans hresult⟩

end Sys2Proof.Machine
end

section
/-! PROOF. SET_PROFILE and SOUNDING as the admin ring starts them, and the end of a Sounding window (R164, R166, R168, R185, R188). -/

namespace Sys2Proof.Machine

/-! ### Commands that start -/

section
variable {s : State}

/-- The admin ring that is ready starts a command that reads no list at once (R277, R278). -/
theorem State.admin_starts (h : s.adminReady) {d : Desc} (hopc : d.opc ≠ 4) : s.admin [d] [] = s.startAdmin [d] [] := by
  obtain ⟨hpow, hring, hhost, hrun, hphok, htakes, hsq, hstarted, hheld⟩ := h
  have hstarting : s.starting = false := by simp [State.starting, hphok]
  have hmay : s.mayStart [] [d] = true := by
    simp [State.mayStart, State.readsLists, -Fin.getElem_fin, hopc, hpow, htakes, hstarting, hstarted]
  have hpop : s.popSq 0 [d] = some s := by
    unfold State.popSq
    rw [hsq]
  unfold State.admin
  rw [if_neg (by simp [hpow]), if_neg (by simp [hring]), if_neg (by simp [hring, hhost]), hpop]
  dsimp only
  rw [hheld, if_pos hmay]

/-- A command as it starts on the admin ring. -/
def State.noteStart (s : State) (d : Desc) : State := s.modRing 0 (fun r => { r with started := r.started ++ [d] })

theorem State.startAdmin_run (h : s.adminReady) (d : Desc) :
    ((s.noteStart d).safeTalk || (s.noteStart d).safeState) = false := by
  obtain ⟨-, -, -, hrun, -⟩ := h
  have hs : s.mode = 1 := by simpa [State.running] using hrun
  have hmode : (s.noteStart d).mode = 1 := hs
  simp [State.safeTalk, State.safeState, hmode]

theorem State.admin_setProfile (h : s.adminReady) {d : Desc} (hopc : d.opc = 3) : s.admin [d] [] = (s.noteStart d).startSetProfile d := by
  have hrun := State.startAdmin_run h d
  rw [State.admin_starts h (by rw [hopc]; decide)]
  unfold State.startAdmin
  refine (if_neg (by rw [State.noteStart] at hrun; simp [hrun])).trans ?_
  rw [hopc]
  rfl

theorem State.admin_sounding (h : s.adminReady) {d : Desc} (hopc : d.opc = 11) : s.admin [d] [] = (s.noteStart d).startSounding d := by
  have hrun := State.startAdmin_run h d
  rw [State.admin_starts h (by rw [hopc]; decide)]
  unfold State.startAdmin
  refine (if_neg (by rw [State.noteStart] at hrun; simp [hrun])).trans ?_
  rw [hopc]
  rfl

theorem setProfile_clause {d e : Desc} (h : s.adminReady) (he : d.withOpc 3 = e) (hlen : e.plen = 0x160) (haddr : e.paddr % 64 = 0) :
    Gives (.setProfile d) s (fun t => t.chg[e.profPort].load = s.chg[e.profPort].load ++ [e]) := by
  have hopc : e.opc = 3 := he ▸ Desc.opc_withOpc d (by decide)
  have hexec : execSetProfile d s = .next ((s.noteStart e).startSetProfile e) := by
    rw [execSetProfile, he, State.admin_setProfile h hopc]
  have hstart : (s.noteStart e).startSetProfile e = (s.noteStart e).modChg e.profPort (fun c => { c with load := c.load ++ [e] }) :=
    if_neg (by simp [hlen, haddr])
  have hload : ((s.noteStart e).startSetProfile e).chg[e.profPort].load = s.chg[e.profPort].load ++ [e] := by
    rw [hstart, State.modChg_same]
    rfl
  exact ⟨_, hexec, hload⟩

/-- A run stands in its port, with its tone as the target. -/
theorem State.runBegun (s : State) (k : Fin 2) (run : Sounding) :
    (((s.modChg k (fun c => { c with snd := some run })).setItgt k run.tone).setFld (CHG_ZINFO_SSTATE k) 1).chg[k].snd = some run ∧
      (((s.modChg k (fun c => { c with snd := some run })).setItgt k run.tone).setFld (CHG_ZINFO_SSTATE k) 1).fld
        (CHG_ZINFO_SSTATE k) = 1 := by
  set x := s.modChg k (fun c => { c with snd := some run }) with hx
  have hsnd : x.chg[k].snd = some run := by rw [hx, State.modChg_same]
  have hitgt : (x.setItgt k run.tone).chg[k].snd = x.chg[k].snd := ((Steady.refl x).setItgt k run.tone).charge.snd k
  exact ⟨by rw [State.setFld_chg, hitgt, hsnd], State.fld_setFld_same _ _ _ (by simp) (by simp)⟩

/-- A run starts in CC, CREST or REST with a feed ON. -/
theorem State.startSounding_starts {d : Desc} (hfreq : 10 ≤ d.sndFreq) (hmax : d.sndFreq ≤ 200000) (hset : d.sndNset ≠ 0)
    (hmeas : d.sndNmeas ≠ 0) (hstage : s.stage d.sndPort = .cc ∨ s.stage d.sndPort = .crest ∨ s.stage d.sndPort = .rest)
    (hrole : s.role d.sndPort = .charge ∨ s.role d.sndPort = .none) (hfeed : s.feedOn = true) {p : Profile}
    (hprof : s.prof d.sndPort = some p) : (s.startSounding d).chg[d.sndPort].snd.map (fun r => r.d) = some d ∧
      (s.startSounding d).fld (CHG_ZINFO_SSTATE d.sndPort) = 1 := by
  unfold State.startSounding
  extract_lets k g bad place v hold rest w
  have hbad : ¬ bad = true := by simp [bad, hset, hmeas, hfreq, hmax]
  have hplace : ¬ ¬ place := not_not.mpr ⟨hstage, hrole, hfeed⟩
  rw [if_neg hbad, hprof]
  dsimp only
  rw [if_neg hplace]
  obtain ⟨hsnd, hstate⟩ := w.runBegun k ⟨d, hold, if rest then p.amps p.icc / 20 else hold / 20, rest, false, false, 0, LockIn.zero⟩
  exact ⟨congrArg (Option.map (fun r => r.d)) hsnd, hstate⟩

theorem sounding_clause {d e : Desc} (h : s.adminReady) (he : d.withOpc 11 = e) (hfreq : 10 ≤ e.sndFreq) (hmax : e.sndFreq ≤ 200000)
    (hset : e.sndNset ≠ 0) (hmeas : e.sndNmeas ≠ 0)
    (hstage : s.stage e.sndPort = .cc ∨ s.stage e.sndPort = .crest ∨ s.stage e.sndPort = .rest)
    (hrole : s.role e.sndPort = .charge ∨ s.role e.sndPort = .none) (hfeed : s.feedOn = true) (hprof : s.prof e.sndPort ≠ none) :
    Gives (.sounding d) s (fun t => t.chg[e.sndPort].snd.map (fun r => r.d) = some e ∧ t.fld (CHG_ZINFO_SSTATE e.sndPort) = 1) := by
  have hopc : e.opc = 11 := he ▸ Desc.opc_withOpc d (by decide)
  have hexec : execSounding d s = .next ((s.noteStart e).startSounding e) := by
    rw [execSounding, he, State.admin_sounding h hopc]
  obtain ⟨p, hp⟩ := Option.ne_none_iff_exists'.mp hprof
  exact ⟨_, hexec, State.startSounding_starts (s := s.noteStart e) hfreq hmax hset hmeas hstage hrole hfeed hp⟩

end

/-! ### The end of a window -/

/-- The result words of a window, with its flags and the temperature; `f` is what is hidden of the result. -/
def State.resultWritten (s : State) (k : Fin 2) (r : Sounding) (zre zim t : Int) (flags : Nat) (f : ChgH → ChgH) : State :=
  let s := (s.setSfld ⟨CHG_ZRE k, 31, 0⟩ zre).setSfld ⟨CHG_ZIM k, 31, 0⟩ zim
  let s := (s.setOn (CHG_ZINFO_ZVALID k) true).setFld ⟨CHG_ZINFO k, 29, 27⟩ flags
  let s := (s.setSfld (CHG_ZINFO_TZ k) t).setFld (CHG_ZINFO_AGE k) 0
  (s.setFld (CHG_ZFREQ_FREQ k) (Desc.sndFreq r.d)).modChg k f

/-- The end of the command and of the run's role, once the loop is restored. -/
def State.soundingClosed (s : State) (k : Fin 2) (r : Sounding) (flags : Nat) : State :=
  let s := if r.fromRest ∧ s.role k = Role.charge then s.setRole k .none else s
  let result := (s.word (CHG_ZRE k)).toNat + (s.word (CHG_ZIM k)).toNat * 2 ^ 32
  let s := s.finish r.d 0 flags result
  if r.fromRest && s.chg[k].restDue && s.tempIn k then s.enterStage k .qualify else s

section
variable {s : State} {k : Fin 2}

theorem soundingWindowEnd_steps {r : Sounding} {i v : Rat × Rat} (hsnd : s.chg[k].snd = some r) (hcomp : r.complete = true)
    (hi : cleanSums r.sums r.sums.si r.sums.ci r.sums.i0 r.sums.i1 = i) (hv : cleanSums r.sums r.sums.sv r.sums.cv r.sums.v0 r.sums.v1 = v)
    (hden : i.1 * i.1 + i.2 * i.2 ≠ 0) : ∃ (u : State) (zim t : Int) (flags : Nat) (f : ChgH → ChgH), execSoundingWindowEnd k s = .next
      ((((u.resultWritten k r ((v.1 * i.1 + v.2 * i.2) / (i.1 * i.1 + i.2 * i.2) * 1000000000).floor zim t flags f).restoreLoop k r).syncCrest
        k).soundingClosed k r flags) := by
  obtain ⟨si, ci⟩ := i
  obtain ⟨sv, cv⟩ := v
  unfold execSoundingWindowEnd
  rw [hsnd]
  dsimp only
  rw [if_neg (by simp [hcomp]), hi, hv]
  dsimp only
  rw [if_neg hden]
  cases s.packT k with
  | some t => exact ⟨_, _, _, _, _, rfl⟩
  | none => exact ⟨_, _, _, _, _, rfl⟩

theorem finish_besideCharge : FP.finish BesideCharge := by
  repeat' first
    | decide +revert
    | apply And.intro

/-- The end of a run leaves the other results as they are, and no run begins. -/
theorem State.soundingClosed_hold (r : Sounding) (flags : Nat) (hsnd : s.chg[k].snd = none) :
    ChargeHold s (s.soundingClosed k r flags) := by
  unfold State.soundingClosed
  extract_lets u result v
  have hu : Steady s u := .ite ((Steady.refl s).setRole k .none) (.refl s)
  have hv : ChargeHold s v := hu.charge.trans (State.finish_only (.refl _ u) r.d 0 flags result finish_besideCharge).chargeHold
  have hnone : v.chg[k].snd = none := (hv.snd k).trans hsnd
  have henter : ChargeHold s (v.enterStage k .qualify) := by
    have hid : v.abortSounding k 8 = v := by
      unfold State.abortSounding
      rw [hnone]
    rw [State.enterStage_eq, hid]
    exact hv.trans ((Steady.refl v).moveStage k .qualify).charge
  split
  · exact henter
  · exact hv

/-- The words of a result say what was written: the validity, the tone's frequency and the resistance. -/
theorem State.resultWritten_words (s : State) (k : Fin 2) (r : Sounding) (zre zim t : Int) (flags : Nat) (f : ChgH → ChgH) :
    (s.resultWritten k r zre zim t flags f).on (CHG_ZINFO_ZVALID k) = true ∧
      (s.resultWritten k r zre zim t flags f).fld (CHG_ZFREQ_FREQ k) = Desc.sndFreq r.d % 2 ^ 18 ∧
      (s.resultWritten k r zre zim t flags f).sfld (CHG_ZRE_Z k) = max (-(2 ^ 31)) (min (2 ^ 31 - 1) zre) := by
  have hfreq (g : Fld) (hg : g.off ≠ CHG_ZFREQ k) (u : State) :
      ((u.setFld (CHG_ZFREQ_FREQ k) (Desc.sndFreq r.d)).modChg k f).fld g = u.fld g := u.fld_setFld_off _ _ _ hg
  have hinfo (g : Fld) (hg : g.Fits) (hoff : g.off ≠ CHG_ZINFO k ∨ 29 < g.lo) (u : State) :
      (((u.setFld ⟨CHG_ZINFO k, 29, 27⟩ flags).setSfld (CHG_ZINFO_TZ k) t).setFld (CHG_ZINFO_AGE k) 0).fld g = u.fld g := by
    unfold State.setSfld
    rw [State.fld_setFld_ne _ _ (by simp) hg (by simp; omega), State.fld_setFld_ne _ _ (by simp) hg (by simp; omega),
      State.fld_setFld_ne _ _ (by simp) hg (by simp; omega)]
  have hzim (g : Fld) (hg : g.off = CHG_ZRE k) (u : State) :
      ((u.setSfld (CHG_ZIM_Z k) zim).setOn (CHG_ZINFO_ZVALID k) true).fld g = u.fld g := by
    unfold State.setOn State.setSfld
    rw [State.fld_setFld_off _ _ _ _ (by simp [hg]), State.fld_setFld_off _ _ _ _ (by simp [hg])]
  unfold State.resultWritten
  dsimp only
  refine ⟨?_, ?_, ?_⟩
  · rw [State.on, hfreq _ (by simp), hinfo _ (by simp) (.inr (by simp))]
    exact State.on_setOn_same _ true (by simp)
  · rw [State.modChg_fld]
    exact State.fld_setFld_same _ _ _ (by simp) (by simp)
  · rw [State.sfld, hfreq _ (by simp), hinfo _ (by simp) (.inl (by simp)), hzim _ rfl]
    exact s.sfld_setSfld_same zre (by simp)

/-- The loop restored: no run, an idle engine, and the result's words but the report of its use as they were. -/
theorem State.loopRestored_holds (s : State) (k : Fin 2) (r : Sounding) :
    ((s.restoreLoop k r).syncCrest k).chg[k].snd = none ∧ ((s.restoreLoop k r).syncCrest k).fld (CHG_ZINFO_SSTATE k) = 0 ∧
      (∀ g : Fld, g.Fits → g.off ∈ resultWords → (g.off ≠ CHG_ZINFO k ∨ 30 < g.lo) →
        ((s.restoreLoop k r).syncCrest k).fld g = s.fld g) := by
  unfold State.restoreLoop
  set u := s.modChg k (fun c => { c with snd := none }) with hu
  have hsnd : u.chg[k].snd = none := by rw [hu, State.modChg_same]
  have hitgt : ChargeHold u (u.setItgt k (if r.fromRest then 0 else r.ihold)) := ((Steady.refl u).setItgt k _).charge
  generalize u.setItgt k (if r.fromRest then 0 else r.ihold) = v at hitgt ⊢
  refine ⟨?_, ?_, fun g hg hmem hoff => ?_⟩
  · exact (hitgt.snd k).trans hsnd
  · exact (State.fld_setFld_ne _ _ (by simp) (by simp) (by simp)).trans (State.fld_setFld_same _ _ _ (by simp) (by simp))
  · calc _ = (v.setFld (CHG_ZINFO_SSTATE k) 0).fld g := State.fld_setFld_ne _ _ (by simp) hg (by simp; omega)
      _ = v.fld g := State.fld_setFld_ne _ _ (by simp) hg (by simp; omega)
      _ = s.fld g := State.fld_of_word (hitgt.words _ hmem)

theorem zinfo_resultWords (k : Fin 2) : CHG_ZINFO k ∈ resultWords ∧ CHG_ZFREQ k ∈ resultWords ∧ CHG_ZRE k ∈ resultWords := by
  decide +revert

theorem soundingWindowEnd_clause {r : Sounding} {i v : Rat × Rat} (hsnd : s.chg[k].snd = some r) (hcomp : r.complete = true)
    (hi : cleanSums r.sums r.sums.si r.sums.ci r.sums.i0 r.sums.i1 = i) (hv : cleanSums r.sums r.sums.sv r.sums.cv r.sums.v0 r.sums.v1 = v)
    (hden : i.1 * i.1 + i.2 * i.2 ≠ 0) : Gives (.soundingWindowEnd k) s (fun t =>
      t.chg[k].snd = none ∧ t.on (CHG_ZINFO_ZVALID k) = true ∧ t.fld (CHG_ZINFO_SSTATE k) = 0 ∧
        t.fld (CHG_ZFREQ_FREQ k) = Desc.sndFreq r.d % 2 ^ 18 ∧ t.sfld (CHG_ZRE_Z k) = max (-(2 ^ 31)) (min (2 ^ 31 - 1)
          (((v.1 * i.1 + v.2 * i.2) / (i.1 * i.1 + i.2 * i.2)) * 1000000000).floor)) := by
  obtain ⟨u, zim, t, flags, f, hexec⟩ := soundingWindowEnd_steps hsnd hcomp hi hv hden
  obtain ⟨hinfo, hfreq, hzre⟩ := zinfo_resultWords k
  obtain ⟨hvalid, htone, hres⟩ := u.resultWritten_words k r
    ((v.1 * i.1 + v.2 * i.2) / (i.1 * i.1 + i.2 * i.2) * 1000000000).floor zim t flags f
  generalize u.resultWritten k r _ zim t flags f = x at hexec hvalid htone hres
  obtain ⟨hnone, hidle, hsame⟩ := x.loopRestored_holds k r
  generalize (x.restoreLoop k r).syncCrest k = w at hexec hnone hidle hsame
  have hheld : ChargeHold w (w.soundingClosed k r flags) := State.soundingClosed_hold r flags hnone
  have hkept (g : Fld) (hg : g.Fits) (hmem : g.off ∈ resultWords) (hoff : g.off ≠ CHG_ZINFO k ∨ 30 < g.lo) :
      (w.soundingClosed k r flags).fld g = x.fld g := (State.fld_of_word (hheld.words _ hmem)).trans (hsame g hg hmem hoff)
  refine ⟨_, hexec, (hheld.snd k).trans hnone, ?_, ?_, ?_, ?_⟩
  · exact (congrArg (· != 0) (hkept (CHG_ZINFO_ZVALID k) (by simp) hinfo (.inr (by simp)))).trans hvalid
  · exact (State.fld_of_word (hheld.words _ hinfo)).trans hidle
  · exact (hkept (CHG_ZFREQ_FREQ k) (by simp) hfreq (.inl (by simp))).trans htone
  · exact (State.sfld_of_fld (hkept (CHG_ZRE_Z k) (by simp) hzre (.inl (by simp)))).trans hres

end
end Sys2Proof.Machine

open Sys2Proof Sys2Proof.Machine

/-- Settles O19: a profile comes into force and stays there through what ends its step, since neither the stages nor the trips that follow
touch the profiles; a Sounding's result outlives the end of its run. -/
theorem profilesAndSounding : Obligations.ProfilesAndSounding := by
  unfold Obligations.ProfilesAndSounding
  refine ⟨fun d e s h he hlen haddr => setProfile_clause h he hlen haddr,
    fun k p d l s hbme hload hcrc hv hpres hstall => profileReadDone_clause k p d l s hbme hload hcrc hv hpres hstall,
    fun o v s hs hm hp hst hcrc hv => profileStagedLoad_clause o v s ⟨hs, hm, hp, hst, fun h => absurd h (by decide)⟩ hcrc hv,
    fun d e s h he hf hmax hset hmeas hstage hrole hfeed hprof => sounding_clause h he hf hmax hset hmeas hstage hrole hfeed hprof,
    fun k r l i v s hsnd hcomp hl hi hv hden => ?_⟩
  subst hl
  exact soundingWindowEnd_clause hsnd hcomp hi hv hden
end
